-- ==== Sys2Proof/Word.lean ====
section
/-! DEFINITION. The word types of Gurdaxo. -/

namespace Sys2Proof

/-- A 32-bit word: a lane, a control-core register, an instruction word. -/
abbrev Word := BitVec 32

/-- A byte of any store. -/
abbrev Byte := BitVec 8

/-- A byte string, lowest address first. -/
abbrev Bytes := List (BitVec 8)

/-- A plate-set handle (R75). -/
abbrev Handle := BitVec 12

end Sys2Proof
end

