-- ==== Sys2Proof/Config.lean ====
section
/-! DEFINITION. What the spec leaves to the implementation or leaves open: constants with no body, so that no proof can
see their value (notes/assumptions). -/

namespace Sys2Proof

/-- Cycles that pass on a die between two steps of the machine, beyond those that `Config.pace` makes certain: R7 gives minima
of paths only, so the number is free (notes/assumptions/2.md). -/
opaque Config.elapsed (die tick : Nat) : Nat

/-- Steps that the machine can take without a cycle passing: finite, since its agents are, and otherwise free (notes/assumptions/2.md). -/
opaque Config.pace : Nat

/-- Whether a cached translation is still held by the caches at a moment: replacement is not visible (R66). -/
opaque Config.cacheKeeps (die tick : Nat) : Bool

/-- The firmware digest and the security processor's own bytes (R424 to R426): the spec gives no value. -/
opaque Config.securityByte (item index : Nat) : BitVec 8

/-- The ECDSA nonce of a signature (R426): a random number. -/
opaque Config.nonce (tick : Nat) : Nat

/-- The device's private identity key as a number (R424): the spec gives no value. -/
opaque Config.identityKey : Nat

/-- A byte of what a save writes where the spec lays nothing out, by section and place: the device-private sections, and the
requests of parked accesses (R387, R388). -/
opaque Config.privateByte (tick sect index : Nat) : BitVec 8

/-- Words of 8 bytes of a device-private section, and from number 64 on its count of records (R387). -/
opaque Config.privateSize (tick sect : Nat) : Nat

/-- Whether an error beyond the protection of its store is seen as an uncorrectable one (R59). -/
opaque Config.upsetSeen (tick : Nat) : Bool

/-- FMT (as an index into what its port accepts), WID and NEST of a token that an input stream delivers: R296 refers them to
the engines' chapters, which give none. -/
opaque Config.streamTag (tick : Nat) : BitVec 64

/-- What a word or payload holds after an error beyond the protection of its store (R59). -/
opaque Config.upsetValue (tick : Nat) : BitVec 1024

/-- Whether the fetch of a context's slot returns poison: the backing area has no address of its own (R172). -/
opaque Config.fetchPoison (tick : Nat) : Bool

/-- The number that a load gives to an image, and the word that a refused one writes in its place: R298 names neither. -/
opaque Config.loadHandle (tick : Nat) : BitVec 32

/-- Whether a firmware bundle with its signature is sound (R425): the spec gives neither the bundle's layout nor the key. -/
opaque Config.bundleSound (version : Word) (bundle sig : Bytes) : Bool

/-- Whether the firmware passes its check at a cold reset (R425). -/
opaque Config.firmwareVerifies (tick : Nat) : Bool

/-- A byte of the SHA-512 of the retirement map (R409, R426), whose layout the spec does not give. -/
opaque Config.retirementDigest (units : List (Nat × Nat)) (index : Nat) : BitVec 8

/-- Whether the physical function has the debug port enabled after a write: the spec names no register for it. -/
opaque Config.debugEnabled (tick : Nat) : Bool

end Sys2Proof
end

