-- ==== Sys2Proof/Machine/Number.lean ====
section
/-! DEFINITION. Number formats, rounding, conversions and scales (08, R174 to R193). -/

namespace Sys2Proof.Machine

/-- The eight format tags (R174). -/
inductive Fmt where
  | fp32 | bf16 | e4m3 | e5m2 | q4 | q3 | i32 | bits
  deriving DecidableEq, Repr, Inhabited

/-- The 3-bit code of a format tag (R174). -/
def fmtCode : Fmt → Nat
  | .fp32 => 0 | .bf16 => 1 | .e4m3 => 2 | .e5m2 => 3 | .q4 => 4 | .q3 => 5 | .i32 => 6 | .bits => 7

/-- The format tag of a 3-bit code (R174). -/
def fmtOf (n : Nat) : Fmt :=
  match n % 8 with
  | 0 => .fp32 | 1 => .bf16 | 2 => .e4m3 | 3 => .e5m2 | 4 => .q4 | 5 => .q3 | 6 => .i32 | _ => .bits

/-- Lane width in bits (R147, R174). -/
def fmtWidth : Fmt → Nat
  | .fp32 | .i32 | .bits => 32
  | .bf16 => 16
  | .e4m3 | .e5m2 => 8
  | .q4 => 4
  | .q3 => 3

/-- A float format (R175). -/
def fmtIsFloat : Fmt → Bool
  | .fp32 | .bf16 | .e4m3 | .e5m2 => true
  | _ => false

/-- Width of the significand field M (R175). -/
def mbits : Fmt → Nat
  | .fp32 => 23 | .bf16 => 7 | .e4m3 => 3 | .e5m2 => 2 | _ => 0

/-- Exponent of the smallest normal value (R176). -/
def emin : Fmt → Int
  | .fp32 | .bf16 => -126
  | .e4m3 => -6
  | .e5m2 => -14
  | _ => 0

/-- Bits below the sign of the largest finite value (R176). -/
def maxBits : Fmt → Nat
  | .fp32 => 0x7F7FFFFF | .bf16 => 0x7F7F | .e4m3 => 0x7E | .e5m2 => 0x7B | _ => 0

/-- The canonical NaN (R176, R177). -/
def canonNan : Fmt → Nat
  | .fp32 => 0x7FC00000 | .bf16 => 0x7FC0 | .e4m3 => 0x7F | .e5m2 => 0x7E | _ => 0

/-- Lowest and highest value of an integer format (R178). -/
def intRange : Fmt → Int × Int
  | .q4 => (-8, 7)
  | .q3 => (-4, 3)
  | _ => (-2147483648, 2147483647)

/-- An exact value: a real `±n/d` with a sign of its own for zero, an infinity, or NaN (R193). -/
inductive Val where
  | nan
  | inf (neg : Bool)
  | num (neg : Bool) (n d : Nat)
  deriving DecidableEq, Repr, Inhabited

/-- 2^e as a pair numerator, denominator. -/
def pow2 (e : Int) : Nat × Nat := if e ≥ 0 then (2 ^ e.toNat, 1) else (1, 2 ^ (-e).toNat)

/-- The exact value `m × 2^e` with a sign. -/
def valScaled (neg : Bool) (m : Nat) (e : Int) : Val :=
  let p := pow2 e
  .num neg (m * p.1) p.2

/-- The exact value of an integer. -/
def valOfInt (i : Int) : Val := .num (decide (i < 0)) i.natAbs 1

def Val.isNan : Val → Bool
  | .nan => true
  | _ => false

def Val.isInf : Val → Bool
  | .inf _ => true
  | _ => false

def Val.isZero : Val → Bool
  | .num _ 0 _ => true
  | _ => false

/-- The sign bit of a value; NaN has none. -/
def Val.neg : Val → Bool
  | .nan => false
  | .inf s => s
  | .num s _ _ => s

/-- Two's-complement value of the low `w` bits. -/
def sext (w n : Nat) : Int :=
  let m := n % 2 ^ w
  if m < 2 ^ (w - 1) then m else (m : Int) - 2 ^ w

/-- The low `w` bits of an integer's two's complement. -/
def wrapTo (w : Nat) (i : Int) : Nat := (i % (2 ^ w : Nat)).toNat

/-- `decode(fmt, bits)` (R193): the exact value of a lane under R175 or R178; BITS reads as the unsigned word. -/
def decodeLane (f : Fmt) (bits : Nat) : Val :=
  match f with
  | .q4 => valOfInt (sext 4 bits)
  | .q3 => valOfInt (sext 3 bits)
  | .i32 => valOfInt (sext 32 bits)
  | .bits => .num false (bits % 2 ^ 32) 1
  | f =>
    let w := fmtWidth f
    let mb := mbits f
    let s := decide (bits / 2 ^ (w - 1) % 2 = 1)
    let e := bits % 2 ^ (w - 1) / 2 ^ mb
    let m := bits % 2 ^ mb
    let eall := 2 ^ (w - 1 - mb) - 1
    if e = 0 then valScaled s m (emin f - mb)
    else if e = eall then
      match f with
      | .e4m3 => if m = 7 then .nan else valScaled s (2 ^ mb + m) (emin f - mb + (e - 1))
      | _ => if m = 0 then .inf s else .nan
    else valScaled s (2 ^ mb + m) (emin f - mb + (e - 1))

/-- A sign bit at the top of a lane of format `f`. -/
def signBits (f : Fmt) (neg : Bool) : Nat := if neg then 2 ^ (fmtWidth f - 1) else 0

/-- `encode_inf(fmt, s)`: for E4M3, the canonical NaN (R193). -/
def encodeInf (f : Fmt) (neg : Bool) : Nat :=
  match f with
  | .e4m3 => canonNan .e4m3
  | f => signBits f neg + (2 ^ (fmtWidth f - 1 - mbits f) - 1) * 2 ^ mbits f

/-- Rounding modes (R180). -/
inductive RMode where
  | rne | rz | rd | ru | rs
  deriving DecidableEq, Repr, Inhabited

/-- The rounding mode of a 3-bit code; codes 5 to 7 are refused at load. -/
def rmodeOf (n : Nat) : RMode :=
  match n with
  | 0 => .rne | 1 => .rz | 2 => .rd | 3 => .ru | _ => .rs

/-- `to_max(rm, s)` (R181). -/
def toMax (rm : RMode) (neg : Bool) : Bool :=
  match rm with
  | .rz => true
  | .rd => !neg
  | .ru => neg
  | _ => false

/-- Rounds the magnitude `n/d` of a value with sign `neg` to a whole number, as the branches of `round_to` do on the
multiples of its spacing (R181). -/
def roundMag (rm : RMode) (rw : Nat) (neg : Bool) (n d : Nat) : Nat :=
  let m := n / d
  let r := n % d
  if r = 0 then m
  else match rm with
    | .rne => if 2 * r < d then m else if 2 * r > d then m + 1 else if m % 2 = 0 then m else m + 1
    | .rz => m
    | .rd => if neg then m + 1 else m
    | .ru => if neg then m else m + 1
    | .rs =>
      if neg then (if (d - r) * 2 ^ 32 / d + rw ≥ 2 ^ 32 then m else m + 1)
      else (if r * 2 ^ 32 / d + rw ≥ 2 ^ 32 then m + 1 else m)

/-- floor(log2(n/d)) for n, d > 0. -/
def floorLog2 (n d : Nat) : Int :=
  let e : Int := (Nat.log2 n : Int) - Nat.log2 d
  let p := pow2 e
  if n * p.2 < d * p.1 then e - 1 else e

/-- `round_to(fmt, x, rm, rw, sat)` (R181). -/
def roundTo (f : Fmt) (x : Val) (rm : RMode) (rw : Nat) (sat : Bool) : Nat :=
  match x with
  | .nan => canonNan f
  | .inf s => if sat then signBits f s + maxBits f else encodeInf f s
  | .num s 0 _ => signBits f s
  | .num s n d =>
    let e := max (floorLog2 n d) (emin f)
    let q := pow2 (e - mbits f)
    let m := roundMag rm rw s (n * q.2) (d * q.1)
    let b := (e - emin f).toNat * 2 ^ mbits f + m
    if b > maxBits f then
      (if sat || toMax rm s then signBits f s + maxBits f else encodeInf f s)
    else signBits f s + b

/-- `round_int(x, rm, rw, lo, hi)` (R182). -/
def roundInt (x : Val) (rm : RMode) (rw : Nat) (lo hi : Int) : Int :=
  match x with
  | .nan => 0
  | .inf s => if s then lo else hi
  | .num s n d =>
    let m : Int := roundMag rm rw s n d
    let y := if s then -m else m
    max lo (min hi y)

/-- `rne32(x)` (R193). -/
def rne32 (x : Val) : Nat := roundTo .fp32 x .rne 0 false

/-- −x. -/
def vneg : Val → Val
  | .nan => .nan
  | .inf s => .inf (!s)
  | .num s n d => .num (!s) n d

/-- Exact sum over the extended reals (R183); an exact zero sum of opposite signs is +0. -/
def vadd (a b : Val) : Val :=
  match a, b with
  | .nan, _ => .nan
  | _, .nan => .nan
  | .inf s, .inf t => if s = t then .inf s else .nan
  | .inf s, _ => .inf s
  | _, .inf t => .inf t
  | .num s n d, .num t m e =>
    let x : Int := if s then -((n * e : Nat) : Int) else ((n * e : Nat) : Int)
    let y : Int := if t then -((m * d : Nat) : Int) else ((m * d : Nat) : Int)
    let z := x + y
    if z = 0 then .num (s && t) 0 1 else .num (decide (z < 0)) z.natAbs (d * e)

/-- Exact product (R183). -/
def vmul (a b : Val) : Val :=
  match a, b with
  | .nan, _ => .nan
  | _, .nan => .nan
  | .inf s, .inf t => .inf (s != t)
  | .inf s, .num t m _ => if m = 0 then .nan else .inf (s != t)
  | .num s n _, .inf t => if n = 0 then .nan else .inf (s != t)
  | .num s n d, .num t m e => .num (s != t) (n * m) (d * e)

/-- Exact quotient with the special cases of `fdiv` (R241). -/
def vdiv (a b : Val) : Val :=
  match a, b with
  | .nan, _ => .nan
  | _, .nan => .nan
  | .inf _, .inf _ => .nan
  | .inf s, .num t _ _ => .inf (s != t)
  | .num s _ _, .inf t => .num (s != t) 0 1
  | .num s n d, .num t m e =>
    if m = 0 then (if n = 0 then .nan else .inf (s != t))
    else .num (s != t) (n * e) (d * m)

/-- x × 2^e. -/
def vscale (x : Val) (e : Int) : Val :=
  match x with
  | .num s n d => let p := pow2 e; .num s (n * p.1) (d * p.2)
  | x => x

/-- Whether a < b; false with a NaN. -/
def vlt (a b : Val) : Bool :=
  match a, b with
  | .nan, _ => false
  | _, .nan => false
  | .inf s, .inf t => s && !t
  | .inf s, .num _ _ _ => s
  | .num _ _ _, .inf t => !t
  | .num s n d, .num t m e =>
    let x : Int := if s then -((n * e : Nat) : Int) else ((n * e : Nat) : Int)
    let y : Int := if t then -((m * d : Nat) : Int) else ((m * d : Nat) : Int)
    decide (x < y)

/-- Whether a = b as values: −0 equals +0, a NaN equals nothing. -/
def veq (a b : Val) : Bool := !a.isNan && !b.isNan && !vlt a b && !vlt b a

/-- `ieee_sum` (R193): exact sum over the extended reals of a list. -/
def ieeeSum : List Val → Val
  | [] => .num false 0 1
  | [x] => x
  | x :: xs => vadd x (ieeeSum xs)

/-- The result of a slot with FTZ = 1: a subnormal becomes a zero of its sign (R184). -/
def flushBits (ftz : Bool) (f : Fmt) (b : Nat) : Nat :=
  let low := b % 2 ^ (fmtWidth f - 1)
  if ftz && decide (0 < low ∧ low < 2 ^ mbits f) then b - low else b

/-- A float lane as an element float instruction reads it: a subnormal reads as zero under FTZ (R184). -/
def readFloat (ftz : Bool) (f : Fmt) (b : Nat) : Val := decodeLane f (flushBits ftz f b)

/-- An element float result: rounded once with RNE, SAT 0, and flushed under FTZ (R183, R184). -/
def floatResult (ftz : Bool) (f : Fmt) (x : Val) : Nat := flushBits ftz f (roundTo f x .rne 0 false)

/-- Whether `cvt` converts between the two tags (R185). -/
def cvtAllowed (src dst : Fmt) : Bool :=
  match src, dst with
  | .bits, .fp32 | .bits, .i32 | .bits, .bits | .fp32, .bits | .i32, .bits => true
  | .bits, _ | _, .bits => false
  | _, _ => true

/-- One lane of `cvt` (R185, R186). -/
def cvtLane (src dst : Fmt) (rm : RMode) (rw : Nat) (sat : Bool) (b : Nat) : Nat :=
  if src = .bits ∨ dst = .bits then b % 2 ^ 32
  else if fmtIsFloat dst then
    (if src = dst then
      match decodeLane src b with
      | .nan => canonNan dst
      | .inf s => if sat then signBits dst s + maxBits dst else b
      | .num _ _ _ => b
    else roundTo dst (decodeLane src b) rm rw sat)
  else
    let r := intRange dst
    wrapTo (fmtWidth dst) (roundInt (decodeLane src b) rm rw r.1 r.2)

/-- The value range of R45's addend clamp, and the floor of `x / 2^lsb` (R45). -/
def floorScaled (neg : Bool) (n d : Nat) (lsb : Int) : Int :=
  let p := pow2 lsb
  let a := n * p.2
  let b := d * p.1
  if neg then -(((a + b - 1) / b : Nat) : Int) else ((a / b : Nat) : Int)

/-- One group of at most 16 terms of `press_slice` (R190). -/
def pressGroup (acc : Nat) (terms : List (Val × Val)) (shift : Int) : Nat :=
  if terms.isEmpty then acc
  else if terms.any (fun t => t.1.isNan || t.1.isInf || t.2.isNan || t.2.isInf) then
    rne32 (vadd (decodeLane .fp32 acc) (ieeeSum (terms.map fun t => vmul t.1 t.2)))
  else
    let ps := (terms.map fun t => vmul t.1 t.2).filter fun p => !p.isZero
    match ps with
    | [] => acc
    | p :: rest =>
      let lg : Val → Int := fun v => match v with
        | .num _ n d => floorLog2 n d
        | _ => 0
      let emax := rest.foldl (fun m v => max m (lg v)) (lg p)
      let fl : Val → Int := fun v => match v with
        | .num s n d => floorScaled s n d (emax - 23)
        | _ => 0
      let f : Int := (p :: rest).foldl (fun a v => a + fl v) 0
      rne32 (vadd (decodeLane .fp32 acc) (valScaled (decide (f < 0)) f.natAbs (emax - 23 + shift)))

/-- `press_slice` (R190): `w` and `a` are the decoded elements present, at most 32, in K order. -/
def pressSlice (acc : Nat) (w a : List Val) (sw sa : Int) : Nat :=
  if sw = -128 ∨ sa = -128 then acc
  else
    let t := w.zip a
    pressGroup (pressGroup acc (t.take 16) (sw + sa)) (t.drop 16) (sw + sa)

end Sys2Proof.Machine
end

