-- ==== Sys2Proof/Syntax.lean ====
section
/-! DEFINITION. The instructions and events of Gurdaxo: one constructor per row of the opcode table. -/

namespace Sys2Proof

/-- The operand fields of an element word beside its opcode (R195). -/
structure ElemOps where
  /-- [23:21], the source of operand A (R196) -/
  sa : BitVec 3
  /-- [20:18], the source of operand B (R196) -/
  sb : BitVec 3
  /-- [17:13], the first destination-table index, 31 for none -/
  dx : BitVec 5
  /-- [12:8], the second destination-table index, 31 for none -/
  dy : BitVec 5
  /-- [7:4], the tag action (R153) -/
  ta : BitVec 4
  /-- [3:0], the literal index -/
  lx : BitVec 4
  deriving DecidableEq, Repr

/-- The fields of a press word below POP (R209). -/
structure PressWord where
  ta : BitVec 2
  tb : BitVec 2
  tc : BitVec 2
  afmt : BitVec 3
  bfmt : BitVec 3
  tra : BitVec 1
  trb : BitVec 1
  ofmt : BitVec 3
  sat : BitVec 1
  ksm1 : BitVec 8
  lastn : BitVec 5
  del : BitVec 4
  didx : BitVec 5
  deriving DecidableEq, Repr

/-- One constructor per row of spec/opcode_table.json. A row with an instruction word carries that word's operand
fields; an event row names the site where it happens, and an input from outside carries its data. -/
inductive Instr where
  /-- STEER (R228): Sends operand A to DX when predicate bit 0 is 1, and to DY otherwise. -/
  | steer (ops : ElemOps)
  /-- MERGE (R228): Sends A to DX and DY and consumes the predicate. -/
  | merge (ops : ElemOps)
  /-- CMERGE (R228): Sends A to DX and the unchanged predicate to DY on the predicate network. -/
  | cmerge (ops : ElemOps)
  /-- COPY (R228): Sends A to DX and DY. -/
  | copy (ops : ElemOps)
  /-- SINK (R228): Discards A, and reports poison as a sink. -/
  | sink (ops : ElemOps)
  /-- GATE (R228): Passes each lane of A whose predicate bit is 1 and zeroes the others. -/
  | gate (ops : ElemOps)
  /-- PASS (R163): Forwards its token unchanged with tag action keep. -/
  | pass (ops : ElemOps)
  /-- REORDER (R229): Passes tokens in f0 order within each instance, holding out-of-order ones. -/
  | reorder (ops : ElemOps)
  /-- ALLOC (R230): Opens an activation instance under the live bound and widens the token to the granted lanes. -/
  | alloc (ops : ElemOps)
  /-- FREE (R231): Pops the activation field, passes A on and sends a free notice to the alloc node. -/
  | free (ops : ElemOps)
  /-- PACK (R232): Writes a part of GL lanes from B into A at the part index. -/
  | pack (ops : ElemOps)
  /-- UNPACK (R232): Emits one part of GL lanes of A. -/
  | unpack (ops : ElemOps)
  /-- TAGIDX (R233): Emits a tag field, granted lane count or span as I32. -/
  | tagidx (ops : ElemOps)
  /-- CHKTAG (R233): Passes A when a tag field equals the expected value, else emits poison TAGCHK. -/
  | chktag (ops : ElemOps)
  /-- CONST (R228): Emits B in every lane with A's colour and tag. -/
  | const (ops : ElemOps)
  /-- JOIN (R228): Emits A once A and B have both arrived. -/
  | join (ops : ElemOps)
  /-- CFGSW (R235): A source cfgsw emits switch tokens; a terminal one switches and sends a drain notice. -/
  | cfgsw (ops : ElemOps)
  /-- PAND (R238): Bitwise AND of two predicate tokens. -/
  | pand (ops : ElemOps)
  /-- POR (R238): Bitwise OR of two predicate tokens. -/
  | por (ops : ElemOps)
  /-- PNOT (R238): Bitwise NOT of a predicate token. -/
  | pnot (ops : ElemOps)
  /-- PXOR (R238): Bitwise XOR of two predicate tokens. -/
  | pxor (ops : ElemOps)
  /-- MULH_Z (R240): High 32 bits of the unsigned 64-bit product. -/
  | mulhZ (ops : ElemOps)
  /-- DIV_Z (R240): Unsigned quotient per lane. -/
  | divZ (ops : ElemOps)
  /-- REM_Z (R240): Unsigned remainder per lane. -/
  | remZ (ops : ElemOps)
  /-- MIN_Z (R240): Unsigned minimum per lane. -/
  | minZ (ops : ElemOps)
  /-- MAX_Z (R240): Unsigned maximum per lane. -/
  | maxZ (ops : ElemOps)
  /-- ADD (R240): A + B modulo 2^32 per lane. -/
  | add (ops : ElemOps)
  /-- SUB (R240): A − B modulo 2^32 per lane. -/
  | sub (ops : ElemOps)
  /-- MUL (R240): Low 32 bits of A × B per lane. -/
  | mul (ops : ElemOps)
  /-- MULH (R240): High 32 bits of the signed product per lane. -/
  | mulh (ops : ElemOps)
  /-- MAD (R240): Low 32 bits of A × B + C per lane. -/
  | mad (ops : ElemOps)
  /-- DIV (R240): Signed quotient rounded toward zero per lane. -/
  | div (ops : ElemOps)
  /-- REM (R240): Signed remainder per lane. -/
  | rem (ops : ElemOps)
  /-- MIN (R240): Signed minimum per lane. -/
  | min (ops : ElemOps)
  /-- MAX (R240): Signed maximum per lane. -/
  | max (ops : ElemOps)
  /-- ABS (R240): Absolute value modulo 2^32 per lane. -/
  | abs (ops : ElemOps)
  /-- NEG (R240): Negation modulo 2^32 per lane. -/
  | neg (ops : ElemOps)
  /-- AND (R240): Bitwise AND per lane. -/
  | and (ops : ElemOps)
  /-- OR (R240): Bitwise OR per lane. -/
  | or (ops : ElemOps)
  /-- XOR (R240): Bitwise XOR per lane. -/
  | xor (ops : ElemOps)
  /-- NOT (R240): Bitwise NOT per lane. -/
  | not (ops : ElemOps)
  /-- ANDN (R240): A AND NOT B per lane. -/
  | andn (ops : ElemOps)
  /-- SHL (R240): Shift left by B[4:0]. -/
  | shl (ops : ElemOps)
  /-- SHR (R240): Logical shift right by B[4:0]. -/
  | shr (ops : ElemOps)
  /-- SAR (R240): Arithmetic shift right by B[4:0]. -/
  | sar (ops : ElemOps)
  /-- ROL (R240): Rotate left by B[4:0]. -/
  | rol (ops : ElemOps)
  /-- CLZ (R240): Count of leading zeros per lane. -/
  | clz (ops : ElemOps)
  /-- POPC (R240): Count of ones per lane. -/
  | popc (ops : ElemOps)
  /-- BREV (R240): Bit reversal per lane. -/
  | brev (ops : ElemOps)
  /-- SEL (R240): Selects A or C per lane by the predicate. -/
  | sel (ops : ElemOps)
  /-- CMP_EQ (R239): Predicate of A = B per lane. -/
  | cmpEq (ops : ElemOps)
  /-- CMP_NE (R239): Predicate of A ≠ B per lane. -/
  | cmpNe (ops : ElemOps)
  /-- CMP_LT (R239): Predicate of signed A < B per lane. -/
  | cmpLt (ops : ElemOps)
  /-- CMP_GE (R239): Predicate of signed A ≥ B per lane. -/
  | cmpGe (ops : ElemOps)
  /-- CMP_LTU (R239): Predicate of unsigned A < B per lane. -/
  | cmpLtu (ops : ElemOps)
  /-- CMP_GEU (R239): Predicate of unsigned A ≥ B per lane. -/
  | cmpGeu (ops : ElemOps)
  /-- CMP_LE (R239): Predicate of signed A ≤ B per lane. -/
  | cmpLe (ops : ElemOps)
  /-- CMP_GT (R239): Predicate of signed A > B per lane. -/
  | cmpGt (ops : ElemOps)
  /-- FADD (R241): FP32 A + B rounded once. -/
  | fadd (ops : ElemOps)
  /-- FSUB (R241): FP32 A − B rounded once. -/
  | fsub (ops : ElemOps)
  /-- FMUL (R241): FP32 A × B rounded once. -/
  | fmul (ops : ElemOps)
  /-- FFMA (R241): FP32 fused multiply-add with signs from the control word. -/
  | ffma (ops : ElemOps)
  /-- FMIN (R241): FP32 minimum with −0 < +0. -/
  | fmin (ops : ElemOps)
  /-- FMAX (R241): FP32 maximum with −0 < +0. -/
  | fmax (ops : ElemOps)
  /-- FABS (R241): Clears the FP32 sign bit. -/
  | fabs (ops : ElemOps)
  /-- FNEG (R241): Flips the FP32 sign bit. -/
  | fneg (ops : ElemOps)
  /-- FDIV (R241): FP32 A / B rounded once. -/
  | fdiv (ops : ElemOps)
  /-- FSQRT (R241): FP32 square root. -/
  | fsqrt (ops : ElemOps)
  /-- FRCP (R241): FP32 reciprocal. -/
  | frcp (ops : ElemOps)
  /-- FRSQ (R241): FP32 reciprocal square root. -/
  | frsq (ops : ElemOps)
  /-- FEXP2 (R241): FP32 2^A correctly rounded. -/
  | fexp2 (ops : ElemOps)
  /-- FLOG2 (R241): FP32 log2 A correctly rounded. -/
  | flog2 (ops : ElemOps)
  /-- FTANH (R241): FP32 tanh A correctly rounded. -/
  | ftanh (ops : ElemOps)
  /-- FSIGM (R241): FP32 logistic sigmoid correctly rounded. -/
  | fsigm (ops : ElemOps)
  /-- FSPL (R241): FP32 softplus correctly rounded. -/
  | fspl (ops : ElemOps)
  /-- FCLASS (R242): Emits an I32 class mask of each FP32 lane. -/
  | fclass (ops : ElemOps)
  /-- FCMP_EQ (R239): FP32 predicate A = B. -/
  | fcmpEq (ops : ElemOps)
  /-- FCMP_NE (R239): FP32 predicate not A = B. -/
  | fcmpNe (ops : ElemOps)
  /-- FCMP_LT (R239): FP32 predicate A < B. -/
  | fcmpLt (ops : ElemOps)
  /-- FCMP_LE (R239): FP32 predicate A ≤ B. -/
  | fcmpLe (ops : ElemOps)
  /-- FCMP_GT (R239): FP32 predicate A > B. -/
  | fcmpGt (ops : ElemOps)
  /-- FCMP_GE (R239): FP32 predicate A ≥ B. -/
  | fcmpGe (ops : ElemOps)
  /-- FCMP_UN (R239): FP32 predicate either lane NaN. -/
  | fcmpUn (ops : ElemOps)
  /-- FCMP_NUM (R239): FP32 predicate neither lane NaN. -/
  | fcmpNum (ops : ElemOps)
  /-- FADD_BF16 (R241): BF16 A + B rounded once. -/
  | faddBf16 (ops : ElemOps)
  /-- FSUB_BF16 (R241): BF16 A − B rounded once. -/
  | fsubBf16 (ops : ElemOps)
  /-- FMUL_BF16 (R241): BF16 A × B rounded once. -/
  | fmulBf16 (ops : ElemOps)
  /-- FFMA_BF16 (R241): BF16 fused multiply-add. -/
  | ffmaBf16 (ops : ElemOps)
  /-- FMIN_BF16 (R241): BF16 minimum. -/
  | fminBf16 (ops : ElemOps)
  /-- FMAX_BF16 (R241): BF16 maximum. -/
  | fmaxBf16 (ops : ElemOps)
  /-- FABS_BF16 (R241): Clears the BF16 sign bit. -/
  | fabsBf16 (ops : ElemOps)
  /-- FNEG_BF16 (R241): Flips the BF16 sign bit. -/
  | fnegBf16 (ops : ElemOps)
  /-- FDIV_BF16 (R241): BF16 A / B. -/
  | fdivBf16 (ops : ElemOps)
  /-- FSQRT_BF16 (R241): BF16 square root. -/
  | fsqrtBf16 (ops : ElemOps)
  /-- FRCP_BF16 (R241): BF16 reciprocal. -/
  | frcpBf16 (ops : ElemOps)
  /-- FRSQ_BF16 (R241): BF16 reciprocal square root. -/
  | frsqBf16 (ops : ElemOps)
  /-- FEXP2_BF16 (R241): BF16 2^A. -/
  | fexp2Bf16 (ops : ElemOps)
  /-- FLOG2_BF16 (R241): BF16 log2 A. -/
  | flog2Bf16 (ops : ElemOps)
  /-- FTANH_BF16 (R241): BF16 tanh A. -/
  | ftanhBf16 (ops : ElemOps)
  /-- FSIGM_BF16 (R241): BF16 logistic sigmoid. -/
  | fsigmBf16 (ops : ElemOps)
  /-- FSPL_BF16 (R241): BF16 softplus. -/
  | fsplBf16 (ops : ElemOps)
  /-- FCLASS_BF16 (R242): I32 class mask of each BF16 lane. -/
  | fclassBf16 (ops : ElemOps)
  /-- FCMP_EQ_BF16 (R239): BF16 predicate A = B. -/
  | fcmpEqBf16 (ops : ElemOps)
  /-- FCMP_NE_BF16 (R239): BF16 predicate not A = B. -/
  | fcmpNeBf16 (ops : ElemOps)
  /-- FCMP_LT_BF16 (R239): BF16 predicate A < B. -/
  | fcmpLtBf16 (ops : ElemOps)
  /-- FCMP_LE_BF16 (R239): BF16 predicate A ≤ B. -/
  | fcmpLeBf16 (ops : ElemOps)
  /-- FCMP_GT_BF16 (R239): BF16 predicate A > B. -/
  | fcmpGtBf16 (ops : ElemOps)
  /-- FCMP_GE_BF16 (R239): BF16 predicate A ≥ B. -/
  | fcmpGeBf16 (ops : ElemOps)
  /-- FCMP_UN_BF16 (R239): BF16 predicate either lane NaN. -/
  | fcmpUnBf16 (ops : ElemOps)
  /-- FCMP_NUM_BF16 (R239): BF16 predicate neither lane NaN. -/
  | fcmpNumBf16 (ops : ElemOps)
  /-- CVT (R243): Converts each lane between formats under the control word's rounding and saturation. -/
  | cvt (ops : ElemOps)
  /-- QEXP (R244): Expands Q4 or Q3 lanes by a group shift into FP32 or BF16. -/
  | qexp (ops : ElemOps)
  /-- BSCALE (R245): Multiplies or divides each lane by 2^s and rounds. -/
  | bscale (ops : ElemOps)
  /-- BMAX (R246): Emits the block shift of the largest lane magnitude. -/
  | bmax (ops : ElemOps)
  /-- LANEID (R247): Emits each lane's index as I32. -/
  | laneid (ops : ElemOps)
  /-- BCAST (R247): Broadcasts lane 0 of A to every lane. -/
  | bcast (ops : ElemOps)
  /-- SHUF (R247): Permutes the lanes of A by indices in B. -/
  | shuf (ops : ElemOps)
  /-- LROT (R247): Rotates the lanes of A by B[0]. -/
  | lrot (ops : ElemOps)
  /-- REDADD_I32 (R247): Sum of all lanes modulo 2^32. -/
  | redaddI32 (ops : ElemOps)
  /-- REDMAX_I32 (R247): Signed maximum over lanes. -/
  | redmaxI32 (ops : ElemOps)
  /-- REDMIN_I32 (R247): Signed minimum over lanes. -/
  | redminI32 (ops : ElemOps)
  /-- LSCAN_I32 (R247): Inclusive integer prefix sum over lanes. -/
  | lscanI32 (ops : ElemOps)
  /-- REDADD_F32 (R247): Exact FP32 lane sum rounded once. -/
  | redaddF32 (ops : ElemOps)
  /-- REDMAX_F32 (R247): Fold of fmax over lanes. -/
  | redmaxF32 (ops : ElemOps)
  /-- REDMIN_F32 (R247): Fold of fmin over lanes. -/
  | redminF32 (ops : ElemOps)
  /-- LSCAN_F32 (R247): FP32 inclusive prefix sum, each exact then rounded once. -/
  | lscanF32 (ops : ElemOps)
  /-- LD (R254): Unordered per-lane SRAM load. -/
  | ld (ops : ElemOps)
  /-- ST (R254): Unordered per-lane SRAM store emitting an ordering token. -/
  | st (ops : ElemOps)
  /-- LDG (R255): Unordered SRAM block load at A[0]. -/
  | ldg (ops : ElemOps)
  /-- STS (R255): Unordered SRAM block store at A[0]. -/
  | sts (ops : ElemOps)
  /-- WADD (R257): Unordered order-independent add into wide cells. -/
  | wadd (ops : ElemOps)
  /-- WRD (R259): Unordered wide-cell read returning value and SOVF. -/
  | wrd (ops : ElemOps)
  /-- WCLR (R258): Unordered wide-cell clear with window exponent from B. -/
  | wclr (ops : ElemOps)
  /-- ZERO (R260): Unordered zeroing of a power-of-two VA range. -/
  | zero (ops : ElemOps)
  /-- LD_ORD (R254): Ordered per-lane SRAM load. -/
  | ldOrd (ops : ElemOps)
  /-- ST_ORD (R254): Ordered per-lane SRAM store. -/
  | stOrd (ops : ElemOps)
  /-- LDG_ORD (R255): Ordered SRAM block load. -/
  | ldgOrd (ops : ElemOps)
  /-- STS_ORD (R255): Ordered SRAM block store. -/
  | stsOrd (ops : ElemOps)
  /-- WADD_ORD (R257): Ordered wide-cell add. -/
  | waddOrd (ops : ElemOps)
  /-- WRD_ORD (R259): Ordered wide-cell read. -/
  | wrdOrd (ops : ElemOps)
  /-- WCLR_ORD (R258): Ordered wide-cell clear. -/
  | wclrOrd (ops : ElemOps)
  /-- ZERO_ORD (R260): Ordered range zeroing. -/
  | zeroOrd (ops : ElemOps)
  /-- HLD (R254): Unordered per-lane device-VA load. -/
  | hld (ops : ElemOps)
  /-- HST (R254): Unordered per-lane device-VA store. -/
  | hst (ops : ElemOps)
  /-- ATOM (R256): Unordered per-lane atomic at the home bank or channel returning old values. -/
  | atom (ops : ElemOps)
  /-- HLD_ORD (R254): Ordered device-VA load. -/
  | hldOrd (ops : ElemOps)
  /-- HST_ORD (R254): Ordered device-VA store. -/
  | hstOrd (ops : ElemOps)
  /-- ATOM_ORD (R256): Ordered atomic. -/
  | atomOrd (ops : ElemOps)
  /-- FENCE_SC_E (R263): Element-scope fence emitting an ordering token 1 cyc after issue. -/
  | fenceScE (ops : ElemOps)
  /-- FENCE_SC_Q (R263): Quire-scope fence. -/
  | fenceScQ (ops : ElemOps)
  /-- FENCE_SC_F (R263): Folio-scope fence. -/
  | fenceScF (ops : ElemOps)
  /-- FENCE_SC_D (R263): Die-scope fence. -/
  | fenceScD (ops : ElemOps)
  /-- FENCE_SC_K (R263): Package-scope fence. -/
  | fenceScK (ops : ElemOps)
  /-- FENCE_SC_X (R263): Domain-scope fence. -/
  | fenceScX (ops : ElemOps)
  /-- ORDJOIN (R264): Emits one ordering token once two tokens of equal key arrive. -/
  | ordjoin (ops : ElemOps)
  /-- MARK (R265): Sends a mark to the home Barrow and emits an ordering token once it is counted. -/
  | mark (ops : ElemOps)
  /-- TRAP (R266): Sends a TRAPU message to the trap channel and emits TRAPU poison. -/
  | trap (ops : ElemOps)
  /-- POISON (R267): Emits poison POISU carrying A[0]. -/
  | poison (ops : ElemOps)
  /-- PROBE (R268): Emits a context count or die counter item as I32. -/
  | probe (ops : ElemOps)
  /-- YIELD (R269): Emits an ordering token, or takes a pending kill. -/
  | yield (ops : ElemOps)
  /-- EXIT (R270): Ends the context with an exit code. -/
  | exit (ops : ElemOps)
  /-- SEND (R271): Delivers A as a message to a QCC channel and waits for acceptance. -/
  | send (ops : ElemOps)
  /-- LAUNCH (R272): Hands a 64-byte launch record to the partition's launch channel. -/
  | launch (ops : ElemOps)
  /-- ALU_ADD (R285): QCC register add. -/
  | aluAdd (rd : BitVec 5) (ra : BitVec 5) (rb : BitVec 5)
  /-- ALU_SUB (R285): QCC register subtract. -/
  | aluSub (rd : BitVec 5) (ra : BitVec 5) (rb : BitVec 5)
  /-- ALU_AND (R285): QCC bitwise AND. -/
  | aluAnd (rd : BitVec 5) (ra : BitVec 5) (rb : BitVec 5)
  /-- ALU_OR (R285): QCC bitwise OR. -/
  | aluOr (rd : BitVec 5) (ra : BitVec 5) (rb : BitVec 5)
  /-- ALU_XOR (R285): QCC bitwise XOR. -/
  | aluXor (rd : BitVec 5) (ra : BitVec 5) (rb : BitVec 5)
  /-- ALU_SLL (R285): QCC shift left. -/
  | aluSll (rd : BitVec 5) (ra : BitVec 5) (rb : BitVec 5)
  /-- ALU_SRL (R285): QCC logical shift right. -/
  | aluSrl (rd : BitVec 5) (ra : BitVec 5) (rb : BitVec 5)
  /-- ALU_SRA (R285): QCC arithmetic shift right. -/
  | aluSra (rd : BitVec 5) (ra : BitVec 5) (rb : BitVec 5)
  /-- ALU_SLT (R285): QCC signed set-less-than. -/
  | aluSlt (rd : BitVec 5) (ra : BitVec 5) (rb : BitVec 5)
  /-- ALU_SLTU (R285): QCC unsigned set-less-than. -/
  | aluSltu (rd : BitVec 5) (ra : BitVec 5) (rb : BitVec 5)
  /-- ALU_MUL (R285): QCC low 32 bits of product. -/
  | aluMul (rd : BitVec 5) (ra : BitVec 5) (rb : BitVec 5)
  /-- ALU_MULH (R285): QCC signed high product. -/
  | aluMulh (rd : BitVec 5) (ra : BitVec 5) (rb : BitVec 5)
  /-- ALU_MULHU (R285): QCC unsigned high product. -/
  | aluMulhu (rd : BitVec 5) (ra : BitVec 5) (rb : BitVec 5)
  /-- ALU_DIV (R285): QCC signed divide. -/
  | aluDiv (rd : BitVec 5) (ra : BitVec 5) (rb : BitVec 5)
  /-- ALU_DIVU (R285): QCC unsigned divide. -/
  | aluDivu (rd : BitVec 5) (ra : BitVec 5) (rb : BitVec 5)
  /-- ALU_REM (R285): QCC signed remainder. -/
  | aluRem (rd : BitVec 5) (ra : BitVec 5) (rb : BitVec 5)
  /-- ALU_REMU (R285): QCC unsigned remainder. -/
  | aluRemu (rd : BitVec 5) (ra : BitVec 5) (rb : BitVec 5)
  /-- ALU_MIN (R285): QCC signed minimum. -/
  | aluMin (rd : BitVec 5) (ra : BitVec 5) (rb : BitVec 5)
  /-- ALU_MAX (R285): QCC signed maximum. -/
  | aluMax (rd : BitVec 5) (ra : BitVec 5) (rb : BitVec 5)
  /-- ALU_MINU (R285): QCC unsigned minimum. -/
  | aluMinu (rd : BitVec 5) (ra : BitVec 5) (rb : BitVec 5)
  /-- ALU_MAXU (R285): QCC unsigned maximum. -/
  | aluMaxu (rd : BitVec 5) (ra : BitVec 5) (rb : BitVec 5)
  /-- ADDI (R285): Adds a sign-extended immediate. -/
  | addi (rd : BitVec 5) (ra : BitVec 5) (imm : BitVec 15)
  /-- ANDI (R285): AND with an immediate. -/
  | andi (rd : BitVec 5) (ra : BitVec 5) (imm : BitVec 15)
  /-- ORI (R285): OR with an immediate. -/
  | ori (rd : BitVec 5) (ra : BitVec 5) (imm : BitVec 15)
  /-- XORI (R285): XOR with an immediate. -/
  | xori (rd : BitVec 5) (ra : BitVec 5) (imm : BitVec 15)
  /-- SLLI (R285): Shift left by an immediate. -/
  | slli (rd : BitVec 5) (ra : BitVec 5) (sh : BitVec 5)
  /-- SRLI (R285): Logical shift right by an immediate. -/
  | srli (rd : BitVec 5) (ra : BitVec 5) (sh : BitVec 5)
  /-- SRAI (R285): Arithmetic shift right by an immediate. -/
  | srai (rd : BitVec 5) (ra : BitVec 5) (sh : BitVec 5)
  /-- SLTI (R285): Signed set-less-than immediate. -/
  | slti (rd : BitVec 5) (ra : BitVec 5) (imm : BitVec 15)
  /-- SLTIU (R285): Unsigned set-less-than immediate. -/
  | sltiu (rd : BitVec 5) (ra : BitVec 5) (imm : BitVec 15)
  /-- LUI (R285): Loads imm20 << 12. -/
  | lui (rd : BitVec 5) (imm : BitVec 20)
  /-- LB (R286): Sign-extended control-memory byte load. -/
  | lb (rd : BitVec 5) (ra : BitVec 5) (imm : BitVec 15)
  /-- LBU (R286): Zero-extended control-memory byte load. -/
  | lbu (rd : BitVec 5) (ra : BitVec 5) (imm : BitVec 15)
  /-- LH (R286): Sign-extended halfword load. -/
  | lh (rd : BitVec 5) (ra : BitVec 5) (imm : BitVec 15)
  /-- LHU (R286): Zero-extended halfword load. -/
  | lhu (rd : BitVec 5) (ra : BitVec 5) (imm : BitVec 15)
  /-- LW (R286): Control-memory word load. -/
  | lw (rd : BitVec 5) (ra : BitVec 5) (imm : BitVec 15)
  /-- SB (R286): Control-memory byte store. -/
  | sb (ra : BitVec 5) (rb : BitVec 5) (off : BitVec 15)
  /-- SH (R286): Control-memory halfword store. -/
  | sh (ra : BitVec 5) (rb : BitVec 5) (off : BitVec 15)
  /-- SW (R286): Control-memory word store. -/
  | sw (ra : BitVec 5) (rb : BitVec 5) (off : BitVec 15)
  /-- LWG (R286): Global 4-byte load through GVAHI. -/
  | lwg (rd : BitVec 5) (ra : BitVec 5) (imm : BitVec 15)
  /-- SWG (R286): Global 4-byte store through GVAHI. -/
  | swg (ra : BitVec 5) (rb : BitVec 5) (off : BitVec 15)
  /-- AMO (R287): Atomic operation on control memory or a global word, returning the old value. -/
  | amo (rd : BitVec 5) (ra : BitVec 5) (rb : BitVec 5) (glob : BitVec 1) (aop : BitVec 4)
  /-- BEQ (R289): Branch if equal. -/
  | beq (ra : BitVec 5) (rb : BitVec 5) (off : BitVec 15)
  /-- BNE (R289): Branch if not equal. -/
  | bne (ra : BitVec 5) (rb : BitVec 5) (off : BitVec 15)
  /-- BLT (R289): Branch if signed less. -/
  | blt (ra : BitVec 5) (rb : BitVec 5) (off : BitVec 15)
  /-- BGE (R289): Branch if signed greater or equal. -/
  | bge (ra : BitVec 5) (rb : BitVec 5) (off : BitVec 15)
  /-- BLTU (R289): Branch if unsigned less. -/
  | bltu (ra : BitVec 5) (rb : BitVec 5) (off : BitVec 15)
  /-- BGEU (R289): Branch if unsigned greater or equal. -/
  | bgeu (ra : BitVec 5) (rb : BitVec 5) (off : BitVec 15)
  /-- JAL (R289): Jump and link by a word offset. -/
  | jal (rd : BitVec 5) (off : BitVec 20)
  /-- JALR (R289): Jump to register plus offset and link. -/
  | jalr (rd : BitVec 5) (ra : BitVec 5) (imm : BitVec 15)
  /-- TEND (R279): Ends the task and removes its current message. -/
  | tend
  /-- TARM (R290): Arms or disarms a channel. -/
  | tarm (en : BitVec 1) (chan : BitVec 4)
  /-- TSEND (R290): Copies control-memory words as a message into the outbound queue. -/
  | tsend (rd : BitVec 5) (ra : BitVec 5) (rb : BitVec 5) (len : BitVec 5)
  /-- TPOLL (R290): Removes the oldest other message of a channel into control memory. -/
  | tpoll (rd : BitVec 5) (ra : BitVec 5) (rb : BitVec 5)
  /-- TPRIO (R290): Sets a channel's priority. -/
  | tprio (prio : BitVec 3) (chan : BitVec 4)
  /-- SYSR (R291): Reads a system word. -/
  | sysr (rd : BitVec 5) (ra : BitVec 5) (imm : BitVec 15)
  /-- SYSW (R291): Writes a system word. -/
  | sysw (rd : BitVec 5) (ra : BitVec 5) (imm : BitVec 15)
  /-- QCC_TRAP (R290): Sends a TRAPU record and continues the task. -/
  | qccTrap (code : BitVec 8)
  /-- TRET (R279): Ends the task leaving its message at the head. -/
  | tret
  /-- QCC_FENCE (R293): Places a fence in the command queue. -/
  | qccFence
  /-- PAT (R295): Writes a pattern slot from a pattern record. -/
  | pat (rs : BitVec 5) (slot : BitVec 4)
  /-- STRM_BIND_IN (R296): Binds a pattern slot as an input stream to an engine port. -/
  | strmBindIn (rb : BitVec 5) (rc : BitVec 5) (slot : BitVec 4)
  /-- STRM_BIND_OUT (R296): Binds a pattern slot as an output stream from an engine port. -/
  | strmBindOut (rb : BitVec 5) (rc : BitVec 5) (slot : BitVec 4)
  /-- CMD (R297): Writes a command-graph node. -/
  | cmd (rs : BitVec 5) (node : BitVec 6)
  /-- CMD_CANCEL (R297): Frees a command-graph node that has not launched. -/
  | cmdCancel (node : BitVec 6)
  /-- QCC_LAUNCH (R294): Issues a launch record from control memory. -/
  | qccLaunch (rs : BitVec 5) (rc : BitVec 5)
  /-- CFG_LOAD (R298): Checks and loads a configuration image. -/
  | cfgLoad (rs : BitVec 5) (rc : BitVec 5)
  /-- CFG_LOAD_SHADOW (R298): Loads an image as the context's shadow configuration. -/
  | cfgLoadShadow (rs : BitVec 5) (rc : BitVec 5)
  /-- CFG_SWITCH (R298): Starts a configuration switch by sending a token to the source cfgsw. -/
  | cfgSwitch (rs : BitVec 5) (rc : BitVec 5)
  /-- BARR (R299): Arrives at a barrier object by one read-modify-write. -/
  | barr (rb : BitVec 5) (rc : BitVec 5)
  /-- QCC_MARK (R109): Sends a mark for a marker to the home Barrow. -/
  | qccMark (marker : BitVec 10)
  /-- TT_LOAD (R108): Copies the image's timetable into the home Barrow. -/
  | ttLoad (rc : BitVec 5)
  /-- TT_ARM (R108): Re-arms the timetable once no entry is running. -/
  | ttArm (rc : BitVec 5)
  /-- SCAN (R326): Starts a Graft selective scan. -/
  | scan (rs : BitVec 5) (rb : BitVec 5) (rc : BitVec 5) (dir : BitVec 1) (si : BitVec 1) (so : BitVec 1) (form : BitVec 2)
  /-- SCAN_WLOAD (R328): Loads the Graft weight store. -/
  | scanWload (rs : BitVec 5) (rc : BitVec 5) (dir : BitVec 1) (si : BitVec 1) (so : BitVec 1) (form : BitVec 2)
  /-- SETX (R340): Starts a Riddle run from a task. -/
  | setx (rs : BitVec 5) (rb : BitVec 5) (rc : BitVec 5)
  /-- TOPK (R347): Queues a Pruner sampling step. -/
  | topk (rs : BitVec 5) (rc : BitVec 5) (form3 : BitVec 1)
  /-- TOPK_GROUP (R351): Defines a Pruner reduction group. -/
  | topkGroup (rs : BitVec 5) (rc : BitVec 5)
  /-- TOPK_COMMIT (R354): Commits accepted tokens of a request. -/
  | topkCommit (rs : BitVec 5) (rc : BitVec 5)
  /-- CLASP_REQ (R300): Submits a signed release policy to the security processor. -/
  | claspReq (rs : BitVec 5) (rc : BitVec 5)
  /-- CLASP_REVOKE (R300): Ends a live policy slot. -/
  | claspRevoke (rb : BitVec 5) (rc : BitVec 5)
  /-- PLATE_SWEEP (R93): Frees unreferenced composite plate handles. -/
  | plateSweep (rs : BitVec 5) (rc : BitVec 5)
  /-- PM_TOL (R430): Sets a partition's power-management tolerance. -/
  | pmTol (rb : BitVec 5) (rc : BitVec 5)
  /-- PART_CREATE (R397): Creates an empty partition. -/
  | partCreate (rs : BitVec 5) (rb : BitVec 5) (rc : BitVec 5)
  /-- PART_DESTROY (R397): Tears down a partition's contexts and frees its resources. -/
  | partDestroy (rs : BitVec 5) (rb : BitVec 5) (rc : BitVec 5)
  /-- PART_FMAP (R398): Writes folio map entries: map, move or unmap. -/
  | partFmap (rs : BitVec 5) (rb : BitVec 5) (rc : BitVec 5)
  /-- PART_CHAN (R400): Sets the partition's HBM channel set. -/
  | partChan (rs : BitVec 5) (rb : BitVec 5) (rc : BitVec 5)
  /-- PART_PTROOT (R397): Sets the page-table root. -/
  | partPtroot (rs : BitVec 5) (rb : BitVec 5) (rc : BitVec 5)
  /-- PART_FQ (R397): Places the fault queue and fault channel and resets SEQ. -/
  | partFq (rs : BitVec 5) (rb : BitVec 5) (rc : BitVec 5)
  /-- PART_PLATE (R77): Assigns or unassigns a plate with its owner key. -/
  | partPlate (rs : BitVec 5) (rb : BitVec 5) (rc : BitVec 5)
  /-- PART_DEST (R397): Writes a destination's ingress handle and may clear its owner. -/
  | partDest (rs : BitVec 5) (rb : BitVec 5) (rc : BitVec 5)
  /-- PART_VF (R401): Binds or unbinds a VF with a mode. -/
  | partVf (rs : BitVec 5) (rb : BitVec 5) (rc : BitVec 5)
  /-- PART_QUOTA (R399): Sets context range, overflow cap and VF cap. -/
  | partQuota (rs : BitVec 5) (rb : BitVec 5) (rc : BitVec 5)
  /-- PART_BUDGET (R402): Sets issue weight, slice and energy budget. -/
  | partBudget (rs : BitVec 5) (rb : BitVec 5) (rc : BitVec 5)
  /-- PART_GUAR (R407): Sets guarantee rank and guaranteed folios and channels. -/
  | partGuar (rs : BitVec 5) (rb : BitVec 5) (rc : BitVec 5)
  /-- PART_STOP (R141): Stops every context of the partition and writes the stop sequence. -/
  | partStop (rs : BitVec 5) (rb : BitVec 5) (rc : BitVec 5)
  /-- PART_SAVE (R383): Gates and saves a context, or makes a kill pending. -/
  | partSave (rs : BitVec 5) (rb : BitVec 5) (rc : BitVec 5)
  /-- PART_RESUME (R389): Ungates a stopped partition or restores a saved context. -/
  | partResume (rs : BitVec 5) (rb : BitVec 5) (rc : BitVec 5)
  /-- PART_EVENT (R397): Sets the partition's plate channel. -/
  | partEvent (rs : BitVec 5) (rb : BitVec 5) (rc : BitVec 5)
  /-- PMMA (R314): Clears the accumulator and accumulates the tile product. -/
  | pmma (word : PressWord)
  /-- PMMAC (R314): Accumulates a tile product into the accumulator. -/
  | pmmac (word : PressWord)
  /-- PMMAD (R314): Accumulates a tile product and then drains the accumulator. -/
  | pmmad (word : PressWord)
  /-- PDRAIN (R314): Drains the accumulator without changing it. -/
  | pdrain (word : PressWord)
  /-- PARKED_ALLOC_FIRE (R169): A parked alloc fires once its live count falls below LIVE, or emits poison on FAIL. -/
  | parkedAllocFire (pos : Nat) (idx : Nat)
  /-- FREE_NOTICE (R154): A free notice reaches the alloc node and lowers the live count, or raises TAGFREE at zero. -/
  | freeNotice (pos : Nat) (port : Nat)
  /-- SEND_ACCEPTANCE (R271): The acceptance returns to the send node, which emits A unchanged. -/
  | sendAcceptance (idx : Nat)
  /-- LAUNCH_RESPONSE (R272): The die dispatcher's response ends the launch node with an ordering token or poison. -/
  | launchResponse (idx : Nat)
  /-- TSEND_DELIVERY (R290): An outbound message reaches its channel, waiting there while it is full. -/
  | tsendDelivery (quire : Nat)
  /-- INVALIDATION_COMPLETE (R68): Copies are removed and requests using them performed or parked; BUSY drops. -/
  | invalidationComplete (idx : Nat)
  /-- STREAM_ACCESS (R296): A bound stream performs its next pattern access. -/
  | streamAccess (quire : Nat) (slot : Nat)
  /-- CMD_NODE_COMPLETE (R297): A graph node completes, decrementing successors' PRED or raising CMDFAIL. -/
  | cmdNodeComplete (quire : Nat) (node : Nat)
  /-- COPY_PIECE (R297): The copy unit moves one 64-byte piece. -/
  | copyPiece (quire : Nat) (node : Nat)
  /-- CFG_LOAD_COMPLETE (R298): The load finishes its checks and writes handle, fault record and DONE. -/
  | cfgLoadComplete (quire : Nat)
  /-- DRAIN_NOTICE (R298): A terminal cfgsw's drain notice reaches the configuration sequencer. -/
  | drainNotice (idx : Nat)
  /-- SHADOW_SWITCH (R138): Once NTERM notices arrived and R138 holds, the shadow becomes resident. -/
  | shadowSwitch (ctx : Nat)
  /-- BARRIER_REGISTRATION (R299): An arrival's waiter registration reaches the Spine barrier unit. -/
  | barrierRegistration (idx : Nat)
  /-- BARRIER_COMPLETION (R299): The barrier unit sends one waiter its generation completion. -/
  | barrierCompletion (idx : Nat)
  /-- TT_ARM_RESET (R108): Entry states and marker counts reset and arity-0 markers reached. -/
  | ttArmReset (ctx : Nat)
  /-- SWEEP_MARK_PASS_DONE (R93): The mark pass ends and unmarked candidates are freed, then DONE written. -/
  | sweepMarkPassDone
  /-- COMMAND_DISPATCH (R293): A queued command leaves the command queue for its unit. -/
  | commandDispatch (quire : Nat)
  /-- COMMAND_NOTIFY (R293): A completed command sends its notify message to a channel. -/
  | commandNotify (quire : Nat) (idx : Nat)
  /-- CHANNEL_MESSAGE_ENTRY (R276): A message enters a QCC channel FIFO. -/
  | channelMessageEntry (idx : Nat)
  /-- TASK_PICK (R277): An idle QCC picks a ready channel and starts its task. -/
  | taskPick (quire : Nat)
  /-- TASKLONG (R279): A task reaching its 65,537th instruction traps and ends. -/
  | tasklong (quire : Nat)
  /-- PRESS_FILL_TOKEN (R307): A fill token reaches a tile port and is stored in its buffer. -/
  | pressFillToken (pos : Nat) (port : Nat)
  /-- PRESS_SHIFT_TOKEN (R308): A shift token reaches a shift port and is stored. -/
  | pressShiftToken (pos : Nat) (port : Nat)
  /-- TENSOR_SCALE_TOKEN (R309): A tensor-scale token enters the tensor-scale store. -/
  | tensorScaleToken (pos : Nat) (port : Nat)
  /-- PRESS_GO_TOKEN (R312): A go token enters the go queue or is rejected as PRGO. -/
  | pressGoToken (pos : Nat) (port : Nat)
  /-- PRESS_DRAIN (R315): The drain scales, rounds and sends eight tokens. -/
  | pressDrain (quire : Nat)
  /-- PRESS_SWITCH (R318): The switched Press strands, finishes, emits switch tokens and clears. -/
  | pressSwitch (quire : Nat)
  /-- GRAFT_U_TOKEN (R325): A u token enters the Graft step buffer. -/
  | graftUToken (pos : Nat) (port : Nat)
  /-- GRAFT_SHARED_TOKEN (R325): A shared B or C token enters the shared buffer. -/
  | graftSharedToken (pos : Nat) (port : Nat)
  /-- GRAFT_STATE_IN_DONE (R327): State-in reads are performed and steps may begin. -/
  | graftStateInDone (quire : Nat) (scan : Nat)
  /-- GRAFT_STEP_ISSUE (R323): A ready channel-step issues on the recurrence datapath. -/
  | graftStepIssue (quire : Nat)
  /-- GRAFT_Y_EMIT (R332): A channel-step's y token leaves the Graft. -/
  | graftYEmit (quire : Nat)
  /-- GRAFT_CHUNK (R330): A chunk runs in chunked form once all its tokens arrived. -/
  | graftChunk (quire : Nat) (scan : Nat)
  /-- GRAFT_SCAN_COMPLETE (R327): State-out writes are performed and the scan completes. -/
  | graftScanComplete (quire : Nat) (scan : Nat)
  /-- WLOAD_CHANNEL_DONE (R328): A weight-load channel's reads return and it is written. -/
  | wloadChannelDone (quire : Nat)
  /-- GRAFT_SWITCH (R335): The switched Graft ends scans, strands tokens and clears state. -/
  | graftSwitch (quire : Nat)
  /-- RIDDLE_GO_TOKEN (R339): A go token enters the Riddle go queue. -/
  | riddleGoToken (pos : Nat) (port : Nat)
  /-- RIDDLE_RUN_START (R344): A queued run takes a free slot and starts. -/
  | riddleRunStart (folio : Nat)
  /-- RIDDLE_GRANULE_RETURN (R342): A cursor's granule read returns. -/
  | riddleGranuleReturn (folio : Nat) (run : Nat) (cursor : Nat)
  /-- RIDDLE_LOOP_STEP (R341): The Riddle retires merge loop steps for one run. -/
  | riddleLoopStep (folio : Nat) (run : Nat)
  /-- RIDDLE_RESULT (R344): After the last step and writes, the result token or completion leaves. -/
  | riddleResult (folio : Nat) (run : Nat)
  /-- RIDDLE_SWITCH (R345): The switched Riddle strands queued go tokens and emits switch tokens. -/
  | riddleSwitch (folio : Nat)
  /-- PRUNER_STEP_DISPATCH (R350): A queued topk step begins reading logits. -/
  | prunerStepDispatch (die : Nat)
  /-- PRUNER_INTAKE (R348): Logits stream through the compare-and-swap array. -/
  | prunerIntake (die : Nat)
  /-- PRUNER_LIST_FINAL (R349): The final list yields the winner and the result is written. -/
  | prunerListFinal (die : Nat)
  /-- PRUNER_LIST_MERGE (R351): Two candidate lists merge in a switch on the way to the leader. -/
  | prunerListMerge (die : Nat) (idx : Nat)
  /-- PRUNER_WINNER_ARRIVAL (R351): A group winner reaches a member, which writes its result. -/
  | prunerWinnerArrival (die : Nat) (idx : Nat)
  /-- PRUNER_RESEND (R352): A member without a winner after 65,536 cyc resends its list. -/
  | prunerResend (die : Nat) (idx : Nat)
  /-- PRUNER_WITHDRAWAL (R352): A withdrawal reaches the leader, which ends the step with CLASPREF. -/
  | prunerWithdrawal (die : Nat) (idx : Nat)
  /-- COMMIT_START (R354): A commit takes a slot and accepts drafts. -/
  | commitStart (die : Nat)
  /-- COMMIT_DELIVER (R355): A commit delivers its next token when the queue has room. -/
  | commitDeliver (die : Nat) (slot : Nat)
  /-- TOKEN_ARRIVAL (R48): An operand arrives at an element and matches, waits, searches or spills. -/
  | tokenArrival (pos : Nat) (port : Nat) (cls : Nat)
  /-- SPILL_WRITE (R50): A spilled operand's granules are written to the overflow store. -/
  | spillWrite (quire : Nat) (idx : Nat)
  /-- OVERFLOW_SEARCH_DONE (R51): An overflow search ends, pairing or returning the operand. -/
  | overflowSearchDone (pos : Nat) (idx : Nat)
  /-- OUTPUT_STAGE_DEPART (R158): A ready result leaves the output stage onto its link. -/
  | outputStageDepart (pos : Nat) (idx : Nat)
  /-- LINK_TRANSFER (R161): A token crosses one mesh, predicate or die-edge link into the skid buffer. -/
  | linkTransfer (pos : Nat) (port : Nat) (cls : Nat)
  /-- SLOT_EVICTION (R171): A victim slot is written to its backing area. -/
  | slotEviction (pos : Nat) (ctx : Nat)
  /-- SLOT_INSTALL (R172): The fetched slot is installed, or parked tokens become CFGERR. -/
  | slotInstall (pos : Nat) (ctx : Nat)
  /-- PARKED_TOKEN_REPLAY (R172): A parked token replays into matching. -/
  | parkedTokenReplay (pos : Nat) (ctx : Nat)
  /-- SWITCH_TOKEN_ARRIVAL (R236): A switch token reaches a slot and may switch it. -/
  | switchTokenArrival (pos : Nat) (port : Nat)
  /-- MEMORY_NODE_SWITCH_EMIT (R262): A switched memory node emits switch tokens once its accesses complete. -/
  | memoryNodeSwitchEmit (pos : Nat) (slot : Nat) (node : Nat)
  /-- ROB_RELEASE (R42): The reorder buffer releases its oldest deliverable token. -/
  | robRelease (pos : Nat)
  /-- BANK_REQUEST_ENQUEUE (R37): A memory request enters the queues of every bank it touches. -/
  | bankRequestEnqueue (pos : Nat) (port : Nat)
  /-- PORT_OPERATION (R32): A bank port performs one row operation for its queue head. -/
  | portOperation (bank : Nat)
  /-- MULTI_BANK_DECISION (R475): An access spanning banks is decided once every bank has checked. -/
  | multiBankDecision (acc : Nat)
  /-- MISS_REPLAY (R117): Attached accesses replay once their plot becomes resident. -/
  | missReplay (die : Nat) (idx : Nat)
  /-- PLACEMENT_ZEROING (R22): The port zeroes one row of a ZERO plot in a non-queue cycle. -/
  | placementZeroing (bank : Nat)
  /-- ZERO_PIECE_WRITE (R260): The port writes one 64-byte piece of a zero range. -/
  | zeroPieceWrite (bank : Nat)
  /-- SCRUB_ROW (R58): The port scrubs its next row when idle. -/
  | scrubRow (bank : Nat)
  /-- SCRUB_FORCED (R58): After 4,096 cyc without a scrub the port takes a row in the next non-queue cycle. -/
  | scrubForced (bank : Nat)
  /-- ECC_WRITEBACK (R58): A corrected word is written back in the next free port cycle. -/
  | eccWriteback (idx : Nat)
  /-- CHANNEL_REQUEST_ARRIVAL (R55): A split request takes a channel controller slot. -/
  | channelRequestArrival (acc : Nat) (part : Nat)
  /-- CHANNEL_PERFORM (R55): The controller performs a request's granule operation. -/
  | channelPerform (chan : Nat) (idx : Nat)
  /-- MEMORY_RESPONSE_ARRIVAL (R54): A response returns to the requester's reorder-buffer entry. -/
  | memoryResponseArrival (acc : Nat) (part : Nat)
  /-- WALK_START (R67): A walker starts a page walk for a miss-table entry. -/
  | walkStart (die : Nat) (idx : Nat)
  /-- WALK_TABLE_READ_DONE (R64): A walker table read returns and the walk advances, completes or faults. -/
  | walkTableReadDone (die : Nat) (idx : Nat)
  /-- FAULT_CHANNEL_MESSAGE (R72): A fault message enters the fault channel when it has room. -/
  | faultChannelMessage (part : Nat)
  /-- DIRTY_BIT_OR (R65): An atomic OR sets D in a leaf before a store is performed. -/
  | dirtyBitOr (acc : Nat) (part : Nat)
  /-- HELD_ACCESS_RESUME (R16): An access held on a moving folio entry re-reads it after it changes. -/
  | heldAccessResume (acc : Nat)
  /-- FOLIO_MOVE (R17): The Rebinder moves or unmaps a logical folio through its ordered steps. -/
  | folioMove (part : Nat) (lf : Nat)
  /-- PLATE_UNION_SPINE (R87): The Spine union unit completes a union, allocating a handle if needed. -/
  | plateUnionSpine (idx : Nat)
  /-- PLATE_UNION_WAIT_SERVED (R89): A union waiting under PLATEFULL is served when a handle frees. -/
  | plateUnionWaitServed
  /-- POLICY_CHECK_DONE (R99): The security processor finishes checking a submission and installs it. -/
  | policyCheckDone
  /-- EVENT_RECORD_WRITE (R417): An event record enters a VF or PF event queue when it has room. -/
  | eventRecordWrite (vf : Nat)
  /-- MARK_COUNT (R109): The home Barrow counts an arriving mark, possibly reaching its marker. -/
  | markCount (idx : Nat)
  /-- ENTRY_HANDOFF (R110): A ready entry reaches its executing Barrow. -/
  | entryHandoff (idx : Nat)
  /-- BARROW_ENTRY_START (R111): A Barrow starts a ready entry in priority order. -/
  | barrowEntryStart (die : Nat)
  /-- EARLY_FETCH_START (R111): An idle Barrow starts an EARLY fetch before its marker. -/
  | earlyFetchStart (die : Nat)
  /-- BARROW_FETCH_PLOT (R112): A fetched plot's rows are written and RES set. -/
  | barrowFetchPlot (die : Nat) (idx : Nat)
  /-- BARROW_EVICT_PLOT (R112): An evict clears RES and copies the plot to its destination. -/
  | barrowEvictPlot (die : Nat) (idx : Nat)
  /-- BARROW_PIN_PLOT (R112): A pin entry sets or clears PIN of a plot. -/
  | barrowPinPlot (die : Nat) (idx : Nat)
  /-- BARROW_DROP_PLOT (R112): A drop clears RES of an unpinned plot without writing. -/
  | barrowDropPlot (die : Nat) (idx : Nat)
  /-- LAUNCH_WINDOW_WRITE (R360): A 64-byte host write to a launch window becomes a launch record. -/
  | launchWindowWrite (vf : Nat) (off : Nat) (data : Bytes)
  /-- LAUNCH_CHANNEL_ENTRY (R360): A device launch record enters the partition's launch channel. -/
  | launchChannelEntry (idx : Nat)
  /-- DISPATCHER_CYCLE (R362): The global dispatcher picks channel heads into die batches. -/
  | dispatcherCycle
  /-- DIE_BATCH_ARRIVAL (R363): A batch enters a die dispatcher's placement queue. -/
  | dieBatchArrival (idx : Nat)
  /-- PLACEMENT (R365): The die dispatcher reserves, installs and sends the first tokens. -/
  | placement (die : Nat)
  /-- HEAD_WAIT_EXPIRY (R364): A head waiting 65,536 cyc blocks later entries. -/
  | headWaitExpiry (die : Nat)
  /-- REMOTE_RESERVATION (R364): Another die's dispatcher serves a multi-die reservation. -/
  | remoteReservation (die : Nat) (idx : Nat)
  /-- TEAR_DOWN (R370): A tear-down stops the context's sources and discards its tokens. -/
  | tearDown (ctx : Nat)
  /-- TEAR_DOWN_RELEASE (R370): After accesses end, resources free and the completion record is written. -/
  | tearDownRelease (ctx : Nat)
  /-- TRAP_CHANNEL_MESSAGE (R378): A trap message enters ch15, merges, or goes to a delivery queue. -/
  | trapChannelMessage (idx : Nat)
  /-- SOFT_ERROR_RECORD (R382): A die writes a soft-error record to the PF event queue. -/
  | softErrorRecord (idx : Nat)
  /-- SETTLE_COMPLETE (R384): The context settles and its state streams to the save area. -/
  | settleComplete (ctx : Nat)
  /-- STOP_SEQUENCE (R141): After writes are performed the dirty report and STATE 2 are written. -/
  | stopSequence (part : Nat)
  /-- REBINDER_RESTORE (R389): The Rebinder restores a saved context on assigned folios. -/
  | rebinderRestore (idx : Nat)
  /-- KILL_TIMEOUT (R391): No eligible yield within 65,536 cyc: settle and save, KILLTO. -/
  | killTimeout (ctx : Nat)
  /-- RETIREMENT (R406): A resource retires, ending contexts and running the guarantee procedure. -/
  | retirement (kind : Nat) (unit : Nat)
  /-- SLICE_END (R401): A time slice ends and the next VF's contexts are ungated. -/
  | sliceEnd (part : Nat)
  /-- ENERGY_PERIOD_END (R403): An energy period ends, counts reset and throttling ends. -/
  | energyPeriodEnd (die : Nat)
  /-- HOST_APERTURE_READ (R476): A host read through BAR2 is split into pieces and checked. -/
  | hostApertureRead (vf : Nat) (off : Nat) (size : Nat) (tag : Nat)
  /-- HOST_APERTURE_WRITE (R476): A host write through BAR2 is split into pieces and performed. -/
  | hostApertureWrite (vf : Nat) (off : Nat) (data : Bytes)
  /-- DELIVERY_WRITE (R416): The delivery unit writes a token's entry and then PIDX. -/
  | deliveryWrite (idx : Nat)
  /-- CIDX_WRITE (R415): A host CIDX write frees queue entries. -/
  | cidxWrite (vf : Nat) (queue : Nat) (value : Word)
  /-- QUEUE_ENABLE_WRITE (R415): Writing EN enables a queue and resets its indices. -/
  | queueEnableWrite (vf : Nat) (queue : Nat) (data : Bytes)
  /-- VF_STATUS_WRITE (R414): A host write of zero clears a VF status field. -/
  | vfStatusWrite (vf : Nat) (value : (BitVec 64))
  /-- HOST_WINDOW_COMPLETION (R418): A PCI Express completion ends a device host-window access. -/
  | hostWindowCompletion (tag : Nat) (status : Nat) (data : Bytes)
  /-- HOST_COMPLETION_TIMEOUT (R418): A completion timeout ends the access as HOSTERR. -/
  | hostCompletionTimeout (tag : Nat)
  /-- PEER_REQUEST_ARRIVAL (R94): A peer's request arrives and is performed, passing the Clasp on reads. -/
  | peerRequestArrival (accel : Nat) (kind : Nat) (va : (BitVec 64)) (size : Nat) (data : Bytes)
  /-- DEBUG_READ (R94): A debug-port read passes or is refused by the Clasp. -/
  | debugRead (part : Nat) (va : (BitVec 64)) (size : Nat)
  /-- FLIT_RECEIVE (R419): A link flit is received and checked by CRC. -/
  | flitReceive (port : Nat) (data : Bytes)
  /-- LINK_LANE_LOSS (R420): A port losing lanes retrains at fewer lanes. -/
  | linkLaneLoss (port : Nat) (lanes : Nat)
  /-- PEER_TIMEOUT (R420): A peer request without response in 2^22 cyc ends as PEERDOWN. -/
  | peerTimeout (tag : Nat)
  /-- DOMAIN_CONFIG_WRITE (R421): Writes this device's accelerator number and presence bitmap. -/
  | domainConfigWrite (off : Nat) (data : Bytes)
  /-- MAILBOX_REPORT (R426): Returns a signed attestation report over a nonce. -/
  | mailboxReport (vf : Nat) (nonce : Bytes)
  /-- MAILBOX_CERT (R424): Returns the identity certificate chain. -/
  | mailboxCert (vf : Nat)
  /-- MAILBOX_LIST (R426): Returns the plate entries that PLATEDIG covers. -/
  | mailboxList (vf : Nat)
  /-- FIRMWARE_BUNDLE_WRITE (R425): A new firmware bundle is verified for the next cold reset. -/
  | firmwareBundleWrite (version : Word) (bundle : Bytes) (sig : Bytes)
  /-- COLD_RESET (R428): Power-on or PERST# runs the full bring-up. -/
  | coldReset
  /-- WARM_RESET (R427): A PF FLR or hot reset tears down all and reruns bring-up from step 3. -/
  | warmReset
  /-- VF_FLR (R427): A VF FLR tears down its contexts and clears its queues. -/
  | vfFlr (vf : Nat)
  /-- PMTOL_WRITE (R430): A host write sets a partition's power tolerance. -/
  | pmtolWrite (part : Nat) (value : Word)
  /-- PWRLIM_WRITE (R432): A host write sets the package power limit, clamped. -/
  | pwrlimWrite (value : Word)
  /-- POWER_WINDOW_END (R432): A power window ends and the issue rate is adjusted. -/
  | powerWindowEnd (watts : Nat)
  /-- POWER_STATE_ENTRY (R429): A unit idle for 1,024 cyc enters its deepest allowed state. -/
  | powerStateEntry (kind : Nat) (unit : Nat) (level : Nat)
  /-- UNIT_WAKE (R429): A unit completes its wake and releases held tokens. -/
  | unitWake (kind : Nat) (unit : Nat)
  /-- REGISTER_WRITE (R412): A host write to a BAR register without behaviour of its own. -/
  | registerWrite (vf : Nat) (off : Nat) (data : Bytes)
  /-- MARK_RETURN (R265): The return of a counted mark reaches the issuing mark node, which then emits its ordering token. -/
  | markReturn (idx : Nat)
  /-- ILLEGAL_INSTRUCTION (R208): A QCC fetches a word with an unassigned op, fn or cfn, or a hypervisor-only form in a non-hypervisor task, and traps ILLINS to ch15. -/
  | illegalInstruction (word : Word)
  /-- FETCH_FAULT (R282): A QCC instruction fetch at 0x1_0000 or above (CMADDR), or from an uncorrectable control-memory word (ECCUNC), traps and ends the task. -/
  | fetchFault (quire : Nat)
  /-- SOFT_ERROR (R58): A bit error arises of itself in a SEC-DED word of a bank, overflow store, control memory or HBM, or in a matching-store entry. -/
  | softError (store : Nat) (addr : Nat) (bits : Nat)
  /-- LINK_LANES_UP (R420): A Thenoina link port trains or retrains to more lanes, or comes up, and a KIND 19 state-change event is written. -/
  | linkLanesUp (port : Nat) (lanes : Nat)
  /-- PCIE_LINK_L1 (R429): The PCI Express link enters or leaves L1, which allows or forbids package standby K3. -/
  | pcieLinkL1 (entered : Bool)
  /-- CONFIGURATION_REQUEST (R428): A PCI Express configuration request arrives and is answered with Request Retry Status until bring-up step 5. -/
  | configurationRequest (tag : Nat)
  deriving DecidableEq, Repr

end Sys2Proof
end

