-- ==== Sys2Proof/Machine/State.lean ====
section
/-! DEFINITION. The state of Gurdaxo as plain data, the outcomes that stop it, and the state after reset. -/

namespace Sys2Proof.Machine

/-- A table by number: keys strictly rising. An absent key stands for a fresh value of its kind. -/
abbrev Tab (α : Type) := List (Nat × α)

/-- Bytes of an address space that do not read zero: addresses strictly rising, no byte zero (R428). -/
abbrev Memory := List Host.Cell

/-- The two mesh networks (R149). -/
inductive Net where
  | data
  | pred
  deriving DecidableEq, Repr, Inhabited

/-- A token: the header of R146 and its payload; on the predicate network the fields of R148 (PBITS in the low bits of
`pay`). `edge` is the edge name that travels as link sideband (R388). -/
structure Token where
  net : Net
  die : BitVec 4
  ctx : BitVec 12
  nest : BitVec 48
  kind : BitVec 2
  x : BitVec 7
  y : BitVec 7
  node : BitVec 8
  /-- true for slot R -/
  slotR : Bool
  fmt : Fmt
  wid : BitVec 5
  plate : Handle
  poison : Bool
  ord : Bool
  edge : BitVec 9
  pay : BitVec 1024
  deriving DecidableEq, Repr, Inhabited

/-- A keep register: format, lanes, payload, handle and poison; `valid` once it has a value (R197, R217). -/
structure Keep where
  valid : Bool
  fmt : Fmt
  wid : BitVec 5
  pay : BitVec 1024
  plate : Handle
  poison : Bool
  deriving DecidableEq, Repr, Inhabited

/-- A ready pair (R157): the operands of slots L and R, and for an ordered form the ordering token of slot L (R127).
`switch` marks the entry that a switched node takes (R237 step 2). -/
structure Pair where
  node : Nat
  opL : Option Token
  opR : Option Token
  ordL : Option Token
  switch : Bool
  deriving DecidableEq, Repr, Inhabited

/-- The expected value of one instance of a `reorder` (R229); `spilled` when it stands in the overflow store. -/
structure Expect where
  node : Nat
  inst : BitVec 48
  value : Nat
  spilled : Bool
  deriving DecidableEq, Repr, Inhabited

/-- Switch tokens that have arrived on a slot, with the sum of their COUNT values (R236). -/
structure SwitchIn where
  tokens : Nat
  sum : Nat
  deriving DecidableEq, Repr, Inhabited

/-- A context slot of an element (R4) with the counts that the element keeps for the context. Tables keyed by slot use
2 × node + (1 for slot R); per-destination counts use 32 × node + destination index. -/
structure Slot where
  ctx : Nat
  ftz : Bool
  insts : List Word
  lits : List Word
  /-- destination entry and attribute word (R202, R203) -/
  dests : List (Word × Word)
  keeps : List Keep
  /-- activation of each node; 64 for none (R151) -/
  nodeAct : List Nat
  /-- issue weight W (R368) -/
  weight : Nat
  /-- moment of the last issue (R171) -/
  lastIssue : Nat
  /-- guaranteed share of matching entries (R48) -/
  share : Nat
  /-- operands spilled (R51) -/
  spill : Nat
  /-- edge counts NIN (R236) -/
  nin : Tab Nat
  switchIn : Tab SwitchIn
  /-- predicate arrivals per slot, modulo 2^32 (R236) -/
  predIn : Tab Nat
  /-- nodes that have performed R237 -/
  switched : List Nat
  /-- tokens sent per destination, modulo 2^32 (R237) -/
  sent : Tab Nat
  /-- live count of each activation whose `alloc` stands here (R154) -/
  live : Tab Nat
  /-- `reorder` expected values other than 0 (R229) -/
  expects : List Expect
  deriving DecidableEq, Repr, Inhabited

/-- What a stored operand waits for: its partner, or its turn at a `reorder` (R47, R229). -/
inductive Role where
  | operand
  | held
  deriving DecidableEq, Repr, Inhabited

/-- A matching-store entry (R47). -/
structure Held where
  tok : Token
  role : Role
  /-- the parity of the entry is wrong (R59) -/
  bad : Bool
  deriving DecidableEq, Repr, Inhabited

/-- A token held in a skid buffer or aside, with the port and class it came by. -/
structure Aside where
  tok : Token
  port : Nat
  deriving DecidableEq, Repr, Inhabited

/-- A result in the output stage (R158): the destination-table index it leaves by. -/
structure OutTok where
  slotIx : Nat
  node : Nat
  dest : Nat
  tok : Token
  deriving DecidableEq, Repr, Inhabited

/-- A reorder-buffer entry (R42), oldest first: its access (or launch), its stream (R41), and its completion tokens by
destination index once they are deliverable. -/
structure RobEntry where
  slotIx : Nat
  node : Nat
  acc : Nat
  stream : Nat
  done : Option (List (Nat × Token))
  deriving DecidableEq, Repr, Inhabited

/-- A fabric element (R2, R4, R47, R157, R158, R42, R368). -/
structure Elem where
  /-- resident slots, keyed 0 to 3 -/
  slots : Tab Slot
  /-- second configuration slots holding a shadow configuration, keyed by context (R298) -/
  shadow : Tab Slot
  /-- slot backing area, keyed by context (R171, R365) -/
  backing : Tab Slot
  /-- operands waiting in the backing area, keyed by context (R171) -/
  backingOps : Tab (List Held)
  cur : Nat
  used : Nat
  mstore : List Held
  aside : List Aside
  fifo : List (Nat × Pair)
  out : List OutTok
  rob : List RobEntry
  /-- contexts whose slot is being fetched (R170) -/
  fetching : List Nat
  /-- `alloc` pairs held in the FIFO whose message has been sent, and whether FAIL has been written for them (R169) -/
  exh : List (Nat × Pair × Bool)
  /-- context, port and class of tokens that cannot park and stay in their skid buffers, oldest first (R170) -/
  stuck : List (Nat × Nat × Nat)
  deriving DecidableEq, Repr, Inhabited

/-- What an overflow-store entry holds (R49, R169, R170, R229). -/
inductive OvfKind where
  | operand
  | held
  | expect
  | park
  | alloc (p : Pair) (trapped failed : Bool)
  deriving DecidableEq, Repr, Inhabited

/-- An overflow-store entry (R49) of the element at position `pos`; `deep` when it lies in a deep-overflow region (R169);
`upset` the bits of an error in it (R59). -/
structure OvfEntry where
  pos : Nat
  ctx : Nat
  tok : Token
  what : OvfKind
  deep : Bool
  upset : Nat
  deriving DecidableEq, Repr, Inhabited

/-- The overflow store of a quire (R49), the spill writes on their way to it (R50), and reservations by context. -/
structure Overflow where
  entries : List OvfEntry
  spilling : List OvfEntry
  reserve : Tab Nat
  deriving DecidableEq, Repr, Inhabited

/-- What a memory access does (R248, R287, engines). -/
inductive AccOp where
  | load
  | store
  | wadd
  | wrd
  | wclr
  | zero
  | atom (aop : Nat)
  deriving DecidableEq, Repr, Inhabited

/-- The place a checked address names. -/
inductive Place where
  | sram (pa : Nat)
  /-- an HBM address with the address of the leaf that maps it and whether that maps 2 MiB -/
  | hbm (pa pte : Nat) (big : Bool)
  | host (addr : Nat)
  | peer (accel : Nat) (addr : Nat)
  deriving DecidableEq, Repr, Inhabited

/-- One lane of an access: the address as formed, its size, the data it writes (`data2`: the new value of `cas`), where it
resolves to, and what it read. -/
structure LaneAcc where
  lane : Nat
  va : Nat
  /-- the address is a 32-bit logical SRAM address (R249) -/
  logical : Bool
  /-- the alignment that check 2 asks for (R250) -/
  align : Nat
  size : Nat
  data : Nat
  data2 : Nat
  place : Option Place
  /-- code of a failed check, 0 for none (R28) -/
  code : Nat
  /-- leaf whose D bit is to be set before the access is performed (R65) -/
  dirty : Option Nat
  old : Nat
  deriving DecidableEq, Repr, Inhabited

/-- Where a part of an access is on its way (R32 to R42, R54, R55). -/
inductive PartSt where
  /-- waiting for checks of the whole access -/
  | wait
  /-- its request travels the mesh -/
  | request
  /-- in the queue of its bank port or channel controller -/
  | queued
  /-- its bank has made check 7 and holds it until every bank has (R475) -/
  | checked
  /-- the access is admitted: its row groups may be performed -/
  | admitted
  /-- performed at its home -/
  | performed
  /-- its response travels back -/
  | response
  /-- its response has arrived -/
  | done
  deriving DecidableEq, Repr, Inhabited

/-- The unit that performs a part. -/
inductive Home where
  | bank (b : Nat)
  | chan (c : Nat)
  | host
  | peer (accel : Nat)
  deriving DecidableEq, Repr, Inhabited

/-- The lanes of an access that one home performs; row groups of a bank are `groups`, those still to do (R33). -/
structure Part where
  home : Home
  lanes : List Nat
  groups : List (List Nat)
  /-- bytes of a `zero` written so far (R260) -/
  next : Nat
  st : PartSt
  deriving DecidableEq, Repr, Inhabited

/-- Why an access stands still. -/
inductive Hold where
  | none
  /-- the folio map entry is moving (R16) -/
  | moving (lf : Nat)
  /-- waits for translations (R67) -/
  | walk
  /-- parked on a fault record (R71) -/
  | parked (seq : Nat)
  /-- attached to a miss list (R117) -/
  | missed
  deriving DecidableEq, Repr, Inhabited

/-- An access of an element's memory node in flight (R54). -/
structure Access where
  op : AccOp
  pos : Nat
  slotIx : Nat
  ctx : Nat
  part : Nat
  node : Nat
  /-- NEST of the completion tokens -/
  nest : BitVec 48
  fmt : Fmt
  /-- colour of the firing -/
  lanesN : Nat
  dx : Nat
  dy : Nat
  /-- union of the address and data tokens' sets -/
  handle : Handle
  /-- for a read: the union gathered from the locations -/
  readHandle : Handle
  lanes : List LaneAcc
  parts : List Part
  hold : Hold
  /-- set once the access is decided against: the poison record (R253) -/
  fail : Option (BitVec 128)
  /-- the result tokens are poison TAGRNG whatever the access does (R153) -/
  tagBad : Bool
  deriving DecidableEq, Repr, Inhabited

/-- What travels a link: a token, a `free` notice, and requests and responses of accesses (R39, R154). -/
inductive Flit where
  | tok (dst : Nat) (t : Token)
  | notice (dst ctx act node : Nat)
  | req (dst acc part : Nat)
  | resp (dst acc part : Nat)
  deriving DecidableEq, Repr, Inhabited

/-- A bank port (R32, R37): its queue of (access, part), a `zero` in progress, the scrub row and the moment of the last
scrub (R58). -/
structure Bank where
  queue : List (Nat × Nat)
  zeroing : Option (Nat × Nat)
  scrub : Nat
  lastScrub : Nat
  /-- the last port operation was non-queue work (R112) -/
  lastNonQueue : Bool
  deriving DecidableEq, Repr, Inhabited

/-- The controller of an HBM channel: its request slots (R55). -/
structure Chan where
  slots : List (Nat × Nat)
  deriving DecidableEq, Repr, Inhabited

/-- A plot descriptor (R20). -/
structure Plot where
  res : Bool
  pin : Bool
  zero : Bool
  handle : Handle
  gen : BitVec 16
  deriving DecidableEq, Repr, Inhabited

/-- The stores that errors strike (R58, R59). -/
inductive Store where
  | bank
  | matching
  | overflow
  | control
  | hbm
  deriving DecidableEq, Repr, Inhabited

/-- A stored 64-bit word that an upset has struck: its address in its store, and whether it is uncorrectable (R58). -/
structure ErrMark where
  store : Store
  addr : Nat
  unc : Bool
  /-- a read has met it: it is to be written back (R58) -/
  met : Bool
  deriving DecidableEq, Repr, Inhabited

/-- An activation of an image as placed (R152). -/
structure Act where
  /-- 63 for none -/
  parent : Nat
  /-- declared field width B -/
  width : Nat
  /-- granted field width G -/
  granted : Nat
  declLanes : Nat
  lanes : Nat
  live : Nat
  recursive : Bool
  deep : Bool
  deriving DecidableEq, Repr, Inhabited

/-- The fault record of a context (R377). -/
structure FaultRec where
  first : BitVec 128
  nsink : BitVec 32
  nfab : BitVec 32
  strand : BitVec 32
  excess : BitVec 32
  ntrap : BitVec 32
  nmerge : BitVec 32
  novf : BitVec 32
  deriving DecidableEq, Repr, Inhabited

/-- A message to a trap channel on its way (R378): envelope KIND, lanes 0 to 3, SPOS, SNODE, COUNT and handle. -/
structure TrapMsg where
  ctx : Nat
  kind : Nat
  record : BitVec 128
  spos : Nat
  snode : Nat
  count : Nat
  plate : Handle
  deriving DecidableEq, Repr, Inhabited

/-- The element pair that a step fires. -/
structure Firing where
  pos : Nat
  slotIx : Nat
  pair : Pair
  deriving DecidableEq, Repr, Inhabited

/-- Whose step is next: an element fires, a control core issues, a Press runs its oldest ready operation, or an event
happens (notes/assumptions/1.md). -/
inductive Turn where
  | elem (pos : Nat)
  | qcc (q : Nat)
  | press (q : Nat)
  | event (i : Instr)
  deriving DecidableEq, Repr, Inhabited

/-- A running task of a control core (R277 to R279): its channel, current message, task set (R86) and how many instructions
it has issued. -/
structure Task where
  chan : Nat
  msg : Token
  set : Handle
  count : Nat
  deriving DecidableEq, Repr, Inhabited

/-- A stream bound to a pattern slot (R296): direction, engine, port, the next access, the notify word, and the set and
graph node of the command. -/
structure Stream where
  out : Bool
  engine : Nat
  port : Nat
  next : Nat
  moved : Nat
  cmd : Nat
  deriving DecidableEq, Repr, Inhabited

/-- A pattern slot g0 to g15 (R295). -/
structure GSlot where
  pattern : BitVec 256
  stream : Option Stream
  deriving DecidableEq, Repr, Inhabited

/-- Where a command is (R293). -/
inductive CmdSt where
  /-- in the command queue -/
  | queued
  /-- its unit runs it -/
  | running
  /-- complete, with its status and lane 1; its notify has not been sent -/
  | done (status lane1 : Nat)
  deriving DecidableEq, Repr, Inhabited

/-- A command (R293, R294): its word, the values of x[rs], x[rb], x[rc], the record copied at issue, GVAHI and task set of
the issuer, whether a fence entry, the graph node that issued it, and its channel for launch accounting. -/
structure Cmd where
  id : Nat
  word : Word
  xs : Word
  xb : Word
  xc : Word
  gvahi : Word
  record : Bytes
  set : Handle
  fence : Bool
  graph : Option Nat
  st : CmdSt
  /-- bytes of the image that a `cfg.load` has read so far -/
  got : Bytes
  deriving DecidableEq, Repr, Inhabited

/-- A node of the command graph (R297): its record, predecessors still to complete, whether launched, bytes copied, the set
and GVAHI of the task that wrote it, and its outcome. -/
structure GNode where
  record : BitVec 256
  pred : Nat
  launched : Bool
  copied : Nat
  /-- the piece of a copy that has been read and is still to be written, with the union of the sets -/
  got : Option (Nat × Handle)
  set : Handle
  gvahi : Word
  /-- its status once its command has completed, its message is sent or its copy is performed -/
  result : Option Nat
  deriving DecidableEq, Repr, Inhabited

/-- A quire control core (R274). -/
structure Qcc where
  ctx : Option Nat
  /-- its tasks are hypervisor tasks (R274) -/
  hyp : Bool
  x : List Word
  pc : Nat
  gvahi : Word
  cmdst : Nat
  chans : Tab (List Token)
  prio : Tab Nat
  armed : List Nat
  entry : Tab Nat
  /-- last channel picked at each priority (R277) -/
  lastPick : Tab Nat
  g : Tab GSlot
  cmds : List Cmd
  graph : Tab GNode
  /-- outbound queue: target quire-channel word of `tsend` and the message (R290) -/
  outq : List (Nat × Nat × Token)
  task : Option Task
  pmh : BitVec 128
  xinvlo : Word
  xinverr : Bool
  xinvpid : Nat
  dovlo : Word
  dovhi : Word
  dovsz : Word
  dovctx : Nat
  dovst : Nat
  plotsel : Nat
  hsel : Nat
  deriving DecidableEq, Repr, Inhabited

/-- A message on its way to a channel (R271, R276, R290): target quire and channel, the token, and for an element `send` the
reorder position that waits for the acceptance. -/
structure MsgIn where
  quire : Nat
  chan : Nat
  tok : Token
  /-- element position, slot, node and the token that leaves on DX and DY after the acceptance (R271) -/
  sender : Option (Nat × Nat × Nat)
  accepted : Bool
  dx : Nat
  dy : Nat
  outTok : Token
  deriving DecidableEq, Repr, Inhabited

/-! ### Images and contexts -/

/-- An element slot record of an image (R217) with the node activations inferred by the loader. `pos` is a POS (R216). -/
structure ElemRec where
  pos : Nat
  ftz : Bool
  insts : List Word
  lits : List Word
  dests : List (Word × Word)
  keeps : List Keep
  nodeAct : List Nat
  /-- edge counts NIN by 2 × node + slot (R236) -/
  nin : Tab Nat
  deriving DecidableEq, Repr, Inhabited

/-- A task record of an image (R218). -/
structure TaskRec where
  pos : Nat
  chan : Nat
  prio : Nat
  load : Nat
  entry : Nat
  code : Bytes
  deriving DecidableEq, Repr, Inhabited

/-- The actions of a timetable entry (R105). -/
inductive TtAction where
  | fetch
  | evict
  | pin
  | drop
  deriving DecidableEq, Repr, Inhabited

/-- A timetable entry (R105). -/
structure TtEntry where
  marker : Nat
  action : TtAction
  stier : Nat
  dtier : Nat
  deadline : Nat
  early : Bool
  clr : Bool
  saddr : Nat
  daddr : Nat
  length : Nat
  deriving DecidableEq, Repr, Inhabited

/-- A reconvergent region (R164, R219): fork and join by POS and node, B, and the edge names of each path. -/
structure Region where
  forkPos : Nat
  forkNode : Nat
  joinPos : Nat
  joinNode : Nat
  buffering : Nat
  paths : List (List Nat)
  deriving DecidableEq, Repr, Inhabited

/-- An image that a load has checked, named by its load handle (R220, R298). -/
structure Image where
  part : Nat
  nfolio : Nat
  /-- 0 W; 1 P; 2 no timetable (R219) -/
  mode : Nat
  strict : Bool
  acts : List Act
  /-- marker and arity (R104) -/
  markers : List (Nat × Nat)
  shares : List (Nat × Nat)
  reserves : List (Nat × Nat)
  regions : List Region
  /-- yield points and idempotent nodes by POS, node and region (R219) -/
  yields : List (Nat × Nat)
  idem : List (Nat × Nat × Nat)
  resident : List Nat
  elems : List ElemRec
  /-- press words by quire POS (R216) -/
  press : List (Nat × List (BitVec 64))
  /-- Graft and Riddle descriptors by POS (R216) -/
  graft : List (Nat × List (BitVec 512))
  riddle : List (Nat × List (BitVec 512))
  tasks : List TaskRec
  tt : List TtEntry
  deriving DecidableEq, Repr, Inhabited

/-- How a context ends (R369, R371). -/
structure Ending where
  kind : Nat
  code : Nat
  exit : BitVec 32
  plate : Handle
  deriving DecidableEq, Repr, Inhabited

/-- The steps of a tear-down (R370). -/
inductive TearSt where
  | alive
  /-- step 1 has begun -/
  | tearing
  /-- resources freed; the completion record waits to be written -/
  | reporting
  deriving DecidableEq, Repr, Inhabited

/-- A launch record as it travels (R358, R361): its 64 bytes, partition, issuing context, home function, clamped priority,
handle, and who awaits the response: an element (position, access number) or a command (quire, command number). `resume`: the
record of a `part.resume` that waits for its context's folios (R389); `got`: the bytes read so far of the image at IMGVA, and
`image` that image once it is loaded; `dies`: the dies that have made a reservation for it, once it has asked for them (R364). -/
structure Launch where
  bytes : Bytes
  part : Nat
  parent : Option Nat
  homevf : Nat
  prio : Nat
  plate : Handle
  hyp : Bool
  elemAcc : Option (Nat × Nat)
  cmd : Option (Nat × Nat)
  ctx : Nat
  resume : Bool
  got : Bytes
  image : Option Nat
  dies : Option (List Nat)
  deriving DecidableEq, Repr, Inhabited

/-- A save or stop in progress (R141, R383 to R385): the operands of its command and the command to complete. -/
structure SaveReq where
  kill : Bool
  /-- lane 1 of its completion: KILLTO when a kill has timed out (R391) -/
  lane1 : Nat
  /-- moment by which a yield must be taken (R391) -/
  since : Nat
  va : Nat
  length : Nat
  statusAddr : Nat
  reportAddr : Nat
  reportLen : Nat
  cmd : Nat × Nat
  /-- the yields taken: position, slot R or L token (R391) -/
  taken : List (Nat × Nat × Token)
  deriving DecidableEq, Repr, Inhabited

/-- A switch in progress (R298): the shadow's load handle, terminal nodes awaited and counted, and the command. -/
structure SwitchReq where
  image : Nat
  nterm : Nat
  count : Nat
  cmd : Nat × Nat
  deriving DecidableEq, Repr, Inhabited

/-- A live context (R145): the context table with its fault record (R377). -/
structure Ctx where
  part : Nat
  image : Nat
  parent : Option Nat
  homevf : Nat
  user : BitVec 16
  dq : Nat
  prio : Nat
  hyp : Bool
  nfolio : Nat
  acts : List Act
  fault : FaultRec
  /-- its sources are gated by a save or stop (R383) -/
  gated : Bool
  /-- its sources are gated by a time slice (R401) -/
  sliced : Bool
  save : Option SaveReq
  tear : TearSt
  ending : Ending
  discard : Nat
  cancel : Nat
  parkd : Nat
  shadow : Option Nat
  switch : Option SwitchReq
  placed : Bool
  /-- deep-overflow region: VA and size in records, 0 for none (R169) -/
  deepVa : Nat
  deepSize : Nat
  deriving DecidableEq, Repr, Inhabited

/-! ### Partitions and functions -/

/-- A folio map entry (R13). -/
inductive MapSt where
  | mapped
  | moving
  deriving DecidableEq, Repr, Inhabited

/-- A mapped or moving folio map entry; an absent entry is unmapped (R13). `target` is where a move or unmap leads. -/
structure MapEntry where
  st : MapSt
  ro : Bool
  gfolio : Nat
  target : Option (Option Nat × Bool)
  deriving DecidableEq, Repr, Inhabited

/-- A record of the fault queue that is outstanding (R71). -/
structure FaultOut where
  seq : Nat
  die : Nat
  page : Nat
  record : BitVec 256
  plate : Handle
  /-- its message has been sent (R72) -/
  sent : Bool
  /-- FQFAIL has been written for it: it stays until every unit that waits on it has seen the failure -/
  failed : Bool
  /-- units other than element accesses that wait on it -/
  waiters : List Nat
  deriving DecidableEq, Repr, Inhabited

/-- A fault or plate channel: logical folio, quire, channel (R71, R89). -/
abbrev ChanRef := Nat × Nat × Nat

/-- The state of a partition (R394 to R404). -/
structure Partn where
  fmap : Tab MapEntry
  ptroot : Nat
  fqBase : Option Nat
  fqChan : Option ChanRef
  plateChan : Option ChanRef
  seq : Nat
  faults : List FaultOut
  channels : List Nat
  ctxBase : Nat
  nctx : Nat
  ovfCap : Nat
  maxVf : Nat
  tweight : Nat
  ebudget : Nat
  rank : Option Nat
  gfol : Nat
  gchan : Nat
  susp : Bool
  /-- 1 running; 2 stopping; 3 stopped (R404) -/
  status : Nat
  stopseq : Nat
  stop : Option SaveReq
  launches : List Launch
  /-- the virtual function whose turn it is, and the moment its turn began (R401) -/
  turn : Nat
  turnAt : Nat
  /-- a `part.*` form that is under way: form, quire and command (R396) -/
  form : Option (Nat × Nat × Nat)
  deriving DecidableEq, Repr, Inhabited

/-- A delivery or event queue control (R415, R417). -/
structure QueueCtl where
  base : Nat
  pidxa : Nat
  log2n : Nat
  en : Bool
  irq : Bool
  cidx : BitVec 32
  /-- entries written since EN was set; PIDX is its low 32 bits -/
  seq : BitVec 64
  deriving DecidableEq, Repr, Inhabited

/-- An event record waiting in the Spine's store (R417), with the plate it is merged by (R101). -/
structure EventRec where
  record : BitVec 256
  plate : Nat
  deriving DecidableEq, Repr, Inhabited

/-- A function: a virtual function by number, or the physical function (R401, R412 to R417). -/
structure Vf where
  part : Option Nat
  mode : Nat
  maxPrio : Nat
  ndq : Nat
  tweight : Option Nat
  slice : Option Nat
  apbase : Nat
  status : BitVec 64
  queues : Tab QueueCtl
  event : QueueCtl
  events : List EventRec
  /-- the mailbox page (R412, R426) -/
  mailbox : Bytes
  deriving DecidableEq, Repr, Inhabited

/-- A composite entry of the handle table (R76): its plates in rising order. -/
structure PlateSet where
  plates : List Nat
  mark : Bool
  deriving DecidableEq, Repr, Inhabited

/-- An assigned plate (R77) with its key: an uncompressed P-521 point. -/
structure Plate where
  evf : Nat
  pctr : BitVec 32
  key : Bytes
  deriving DecidableEq, Repr, Inhabited

/-- A destination table entry (R95). -/
structure Dest where
  owner : Nat
  ingress : Handle
  deriving DecidableEq, Repr, Inhabited

/-- A live policy slot (R97, R99). -/
structure Policy where
  handle : Handle
  dest : Nat
  limkind : Nat
  limit : Nat
  deriving DecidableEq, Repr, Inhabited

/-- A union that needs a new composite handle (R79, R87, R89): its plates, the two handles, the context and partition for
messages, and whether it waits under PLATEFULL. -/
structure UnionReq where
  plates : List Nat
  ha : Handle
  hb : Handle
  ctx : Nat
  part : Nat
  waiting : Bool
  /-- ended by a sweep with FAILW (R89, R93) -/
  failed : Bool
  deriving DecidableEq, Repr, Inhabited

/-- A plate-channel message on its way (R90). -/
structure PlateMsg where
  part : Nat
  ctx : Nat
  code : Nat
  ha : Handle
  hb : Handle
  used : Nat
  deriving DecidableEq, Repr, Inhabited

/-- A `plate.sweep` in its mark pass (R93): the candidates and the command. -/
structure Sweep where
  cands : List Nat
  failw : Bool
  cmd : Nat × Nat
  deriving DecidableEq, Repr, Inhabited

/-- A policy submission being checked (R98, R99): the submission's bytes and the command. -/
structure Submission where
  bytes : Bytes
  length : Nat
  cmd : Nat × Nat
  deriving DecidableEq, Repr, Inhabited

/-! ### Translation -/

/-- A leaf translation held by a die's caches (R66). -/
structure Cached where
  part : Nat
  va : Nat
  big : Bool
  entry : BitVec 64
  /-- where the leaf stands in HBM -/
  pte : Nat
  deriving DecidableEq, Repr, Inhabited

/-- A table pointer held by a die's walker cache (R66): level of the table it points to and the VA it covers. -/
structure CachedPtr where
  part : Nat
  level : Nat
  va : Nat
  base : Nat
  deriving DecidableEq, Repr, Inhabited

/-- What walks, or stands at, a page of the miss table (R67, R71). -/
inductive WalkSt where
  /-- waits for a walker -/
  | pending
  /-- a table read at this level and table base is in flight -/
  | reading (level base : Nat)
  /-- parked on a fault record -/
  | parked (seq : Nat)
  /-- a recoverable fault that waits for a free record slot (R71) -/
  | noslot (code level : Nat) (entry : BitVec 64)
  deriving DecidableEq, Repr, Inhabited

/-- Who waits at a miss-table entry: an element access, or the first request of an engine or command unit. -/
structure Requester where
  /-- 0 load; 1 store; 2 atomic; 3 engine read; 4 engine write; 5 Barrow transfer (R71) -/
  kind : Nat
  ctx : Nat
  lf : Nat
  quire : Nat
  elem : Nat
  node : Nat
  va : Nat
  plate : Handle
  deriving DecidableEq, Repr, Inhabited

/-- A miss-table entry (R66, R67): its die, partition, page, first requester and attached accesses in order. -/
structure Miss where
  die : Nat
  part : Nat
  page : Nat
  st : WalkSt
  who : Requester
  /-- the walk serves stores or atomics -/
  kind : Nat
  accs : List Nat
  /-- an invalidation has struck the walk (R69) -/
  restart : Bool
  deriving DecidableEq, Repr, Inhabited

/-- An invalidation in progress (R68): writer's quire, partition, range and the accesses that must end first. -/
structure Inval where
  quire : Nat
  part : Nat
  waits : List Nat
  deriving DecidableEq, Repr, Inhabited

/-! ### Barrow -/

/-- State of a timetable entry (R116, R120). -/
inductive EntrySt where
  | notStarted
  /-- ready, handed to its Barrows -/
  | ready
  | running
  | done
  | failed (code : Nat)
  deriving DecidableEq, Repr, Inhabited

/-- A loaded timetable at its home Barrow (R108): entries, their states, arming and marker counts. -/
structure Timetable where
  ctx : Nat
  entries : List TtEntry
  st : Tab EntrySt
  armed : Bool
  counts : Tab Nat
  /-- entries whose hand-off to their Barrows is on its way (R110) -/
  handoff : List Nat
  /-- an arming that waits, with its command (R108) -/
  arming : Option (Nat × Nat)
  deriving DecidableEq, Repr, Inhabited

/-- An entry, or the part of it on one die, at its executing Barrow (R110, R112): plots still to do; `urgent` plots are
fetched again for misses (R117); `fault` the fault record it is parked on (R118). -/
structure Running where
  ctx : Nat
  entry : Nat
  started : Bool
  ahead : Bool
  plots : List Nat
  failed : Option Nat
  /-- the next row of a plot that is part way fetched or evicted, and the handle of the rows fetched so far -/
  parked : Option Nat
  handle : Handle
  deriving DecidableEq, Repr, Inhabited

/-- A plot with accesses attached in mode W (R117): context, logical plot number, accesses in order. -/
structure MissPlot where
  ctx : Nat
  lplot : Nat
  accs : List Nat
  deriving DecidableEq, Repr, Inhabited

/-- A mark on its way (R109, R265): context, marker, and who awaits its return: an element node or a command. -/
structure MarkMsg where
  ctx : Nat
  marker : Nat
  node : Option (Nat × Nat × Nat)
  cmd : Option (Nat × Nat)
  counted : Bool
  /-- the tokens that leave on DX and DY when it has been counted -/
  out : List (Nat × Token)
  deriving DecidableEq, Repr, Inhabited

/-! ### Host, link, power -/

/-- What the device hands to PCI Express, in issue order (R140, R411). -/
inductive Pcie where
  | write (addr : Nat) (data : Bytes)
  | read (tag : Nat) (addr size : Nat)
  | atomic (tag : Nat) (addr : Nat) (aop : Nat) (data : Bytes)
  | msix (vf queue : Nat)
  | completion (tag : Nat) (data : Bytes) (poisoned : Bool)
  | retry (tag : Nat)
  deriving DecidableEq, Repr, Inhabited

/-- Who waits for a request outside the package: a lane of an element access, or a unit by its key. -/
inductive OutFor where
  | lane (acc part lane : Nat)
  | unit (key : Nat)
  deriving DecidableEq, Repr, Inhabited

/-- A request outside the package (R54, R418, R420): its accelerator, or none for the host, its size, the handle that its data
takes, the moment it left, and what came back: a code (0 for none) and data. -/
structure Outside where
  tag : Nat
  who : OutFor
  ctx : Nat
  accel : Option Nat
  size : Nat
  handle : Handle
  since : Nat
  resp : Option (Nat × Nat)
  deriving DecidableEq, Repr, Inhabited

/-- A token at the delivery unit (R416): function, queue, token, and the sender to poison on a refusal. -/
structure Delivery where
  vf : Nat
  queue : Nat
  tok : Token
  ctx : Nat
  pos : Nat
  node : Nat
  /-- a tear-down report, sent again on refusal (R371) -/
  report : Bool
  deriving DecidableEq, Repr, Inhabited

/-- A host aperture request that is under way (R476): its function, direction, offset, size, completion tag and data, bytes
done, what has been read, and whether a piece has failed or was refused by the Clasp. -/
structure HostReq where
  vf : Nat
  write : Bool
  off : Nat
  size : Nat
  tag : Nat
  data : Bytes
  done : Nat
  got : Bytes
  fail : Nat
  deriving DecidableEq, Repr, Inhabited

/-- A link port (R420): flits that may be resent, the next sequence numbers, and lanes up. -/
structure LinkPort where
  replay : List Bytes
  txSeq : BitVec 16
  rxSeq : BitVec 16
  lanes : Nat
  deriving DecidableEq, Repr, Inhabited

/-- The power states (R429). -/
inductive PowerSt where
  | f0
  | f1
  | f2
  | d2
  | k3
  deriving DecidableEq, Repr, Inhabited

/-- Per-die counters and bring-up state: reset moment, placement queue, corrected-event counts by storage kind, energy units
and issues by partition (R363, R382, R403, R423). -/
structure Die where
  /-- value of `tick` at the die's reset -/
  epoch : Nat
  queue : List Launch
  /-- moment the head began to wait, if it does (R364) -/
  headWait : Option Nat
  /-- the head has waited 65,536 cyc: no later entry is placed (R364) -/
  blocked : Bool
  corrected : Tab Nat
  energy : Tab Nat
  issues : Tab Nat
  /-- the number of the period that runs, and the counts of the last one that ended (R403, R404) -/
  period : Nat
  lastEnergy : Tab Nat
  lastIssues : Tab Nat
  /-- moments of uncorrectable errors, by element, 2^20 + quire or 2^21 + channel (R405) -/
  uncSince : Tab (List Nat)
  deriving DecidableEq, Repr, Inhabited

/-- A unit that the retirement map names (R405). -/
inductive RetUnit where
  | elem (pos : Nat)
  | quire (q : Nat)
  | folio (f : Nat)
  | chan (c : Nat)
  deriving DecidableEq, Repr, Inhabited

/-! ### Engines -/

/-- Port counts of an engine's input ports under R236: switch tokens, predicates do not reach engines. -/
abbrev PortSwitch := Tab SwitchIn

/-- A tile buffer of a Press (R303, R307): its register (0 to 3 ta, 4 to 7 tb), tag, fill and shift tokens in arrival order,
whether it stays after its operation, and a poison record. -/
structure Tile where
  reg : Nat
  ctx : Nat
  nest : BitVec 48
  fills : List Token
  shifts : List Token
  kept : Bool
  goSeen : Bool
  poison : Option (BitVec 128)
  handle : Handle
  deriving DecidableEq, Repr, Inhabited

/-- An accumulator tile tc (R303): 256 FP32 values by 16 × m + n, handle and poison record. -/
structure Accum where
  acc : List Nat
  handle : Handle
  poison : Option (BitVec 128)
  deriving DecidableEq, Repr, Inhabited

/-- A drain that is sending its eight tokens (R315): destination element and entry, and the tokens left. -/
structure Drain where
  del : Nat
  didx : Nat
  toks : List Token
  deriving DecidableEq, Repr, Inhabited

/-- A Press (R303). -/
structure Press where
  ctx : Option Nat
  words : List (BitVec 64)
  shadow : List (BitVec 64)
  tiles : List Tile
  scales : List Token
  go : List Token
  tc : List Accum
  drains : List Drain
  swIn : PortSwitch
  nin : Tab Nat
  /-- tokens sent to each (DEL, DIDX), keyed 32 × DEL + DIDX (R318) -/
  sent : Tab Nat
  /-- tokens at port `o` that wait for a stream (R315) -/
  port18 : List Token
  deriving DecidableEq, Repr, Inhabited

/-- A state vector of a Graft (R321). -/
structure StateVec where
  h : List Nat
  handle : Handle
  poison : Option (BitVec 128)
  deriving DecidableEq, Repr, Inhabited

/-- Where a scan is (R327). -/
inductive ScanSt where
  /-- state-in reads: element `next % N` of channel `next / N` comes next -/
  | stateIn (next : Nat)
  | steps
  /-- state-out writes, by element as the reads -/
  | stateOut (next : Nat)
  deriving DecidableEq, Repr, Inhabited

/-- A running scan (R326, R327): descriptor, options, run record, expected step and steps taken of each channel, chunks run,
and its status so far. -/
structure Scan where
  desc : Nat
  rev : Bool
  si : Bool
  so : Bool
  form : Nat
  steps : Nat
  svb : Nat
  stream : Nat
  siva : Nat
  sova : Nat
  taken : Tab Nat
  /-- every channel's A row is uniform at its start (R329) -/
  uniform : Bool
  chunks : Nat
  st : ScanSt
  status : Nat
  cmd : Nat
  set : Handle
  deriving DecidableEq, Repr, Inhabited

/-- A weight load in progress (R328): `next` the channel being read, `got` and `gotH` the words read of it and their handle. -/
structure WLoad where
  ava : Nat
  dva : Nat
  chb : Nat
  nch : Nat
  nw : Nat
  next : Nat
  got : List Nat
  gotH : Handle
  cmd : Nat
  set : Handle
  deriving DecidableEq, Repr, Inhabited

/-- A Graft (R321). Weights by channel: A row, D value, handle. -/
structure Graft where
  ctx : Option Nat
  descs : List (BitVec 512)
  shadow : List (BitVec 512)
  a : Tab (List Nat)
  d : Tab Nat
  wh : Tab Handle
  vecs : Tab StateVec
  /-- step buffer: `u` tokens with their descriptor, in arrival order -/
  steps : List (Nat × Token)
  /-- shared buffer: tokens with descriptor and port r of 1 to 4 -/
  shared : List (Nat × Nat × Token)
  scans : Tab Scan
  wload : Option WLoad
  /-- y tokens that wait to leave: scan slot (8 for switch tokens), 32 × DEL + DIDX, token (R332) -/
  yout : List (Nat × Nat × Token)
  /-- the Press entered the array last (R333) -/
  pressLast : Bool
  swIn : PortSwitch
  nin : Tab Nat
  sent : Tab Nat
  deriving DecidableEq, Repr, Inhabited

/-- A run of a Riddle (R337, R341): descriptor, record, go token or `setx` command, cursors and output. -/
structure Run where
  desc : Nat
  tok : Option Token
  cmd : Option (Nat × Nat)
  ctx : Nat
  ava : Nat
  bva : Nat
  ova : Nat
  alen : Nat
  blen : Nat
  i : Nat
  j : Nat
  n : Nat
  /-- elements read and not yet retired, from i and j on -/
  abuf : List (BitVec 32)
  bbuf : List (BitVec 32)
  lastA : Option (BitVec 32)
  lastB : Option (BitVec 32)
  /-- the piece whose write is outstanding, and the piece being filled (R342) -/
  outp : List (BitVec 32)
  piece : List (BitVec 32)
  /-- output elements written -/
  written : Nat
  handle : Handle
  /-- the code that ends the run, and the address of a failed access (R343, R374) -/
  fail : Option (Nat × Nat)
  finished : Bool
  deriving DecidableEq, Repr, Inhabited

/-- A go token or `setx` command in the go queue (R337). -/
structure RiddleGo where
  desc : Nat
  tok : Option Token
  cmd : Option (Nat × Nat)
  ctx : Nat
  record : Bytes
  set : Handle
  deriving DecidableEq, Repr, Inhabited

/-- A Riddle (R337). -/
structure Riddle where
  ctx : Option Nat
  descs : List (BitVec 512)
  shadow : List (BitVec 512)
  go : List RiddleGo
  runs : Tab Run
  turn : Nat
  swIn : PortSwitch
  nin : Tab Nat
  sent : Tab Nat
  deriving DecidableEq, Repr, Inhabited

/-- A candidate (R348): vocabulary index, logit bits, and the logit as FP32 bits. -/
abbrev Cand := Nat × Nat × Nat

/-- A winner of a step (R349, R351): SEQ, its candidate, J, status, code of a failure, the candidates of MODE 2, its handle,
and how many candidates are still to come by the link. -/
structure Winner where
  seq : Nat
  index : Nat
  bits : Nat
  j : Nat
  status : Nat
  code : Nat
  cands : List Cand
  want : Nat
  handle : Handle
  deriving DecidableEq, Repr, Inhabited

/-- Where a Pruner step is (R350, R351). -/
inductive StepSt where
  | queued
  /-- the logit read next -/
  | intake (pos : Nat)
  /-- its list is final -/
  | final
  /-- its list has been sent to the leader at this moment -/
  | sent (at' : Nat)
  /-- its result is being written: the word written next -/
  | writing (w : Winner) (next : Nat)
  deriving DecidableEq, Repr, Inhabited

/-- A `topk` step or a `topk.commit` command in the step queue (R346, R347, R354). -/
structure PStep where
  quire : Nat
  cmd : Nat
  ctx : Nat
  record : Bytes
  commit : Bool
  st : StepSt
  list : List Cand
  handle : Handle
  set : Handle
  deriving DecidableEq, Repr, Inhabited

/-- A reduction group in a Pruner's table (R351): members by (accelerator, die), leader first. -/
structure Group where
  members : List (Nat × Nat)
  stray : Nat
  winners : List Winner
  deriving DecidableEq, Repr, Inhabited

/-- What travels between the members of a group (R351, R352): a list with its step's parameters (K, MODE, PTH, INVT, SEED and
STEP), a winner, or a withdrawal. `want` candidates are still to come by the link. -/
inductive PMsg where
  | list (gid seq : Nat) (src : Nat × Nat) (params : Bytes) (cands : List Cand) (want : Nat) (handle : Handle)
  | winner (gid : Nat) (w : Winner)
  | withdraw (gid seq : Nat) (src : Nat × Nat)
  deriving DecidableEq, Repr, Inhabited

/-- A merge at a group's leader (R351): SEQ, who has sent, the list so far, and the code that ends the step. -/
structure Merge where
  gid : Nat
  seq : Nat
  from' : List (Nat × Nat)
  params : Bytes
  list : List Cand
  handle : Handle
  code : Nat
  deriving DecidableEq, Repr, Inhabited

/-- Where a commit is (R354). -/
inductive CommitSt where
  /-- reads its request record, then its sampled and draft tokens -/
  | reading
  | delivering
  /-- the record's write -/
  | closing
  /-- frees the pages beyond LEN: the page entry as read, and the pool as read -/
  | freeing (page : Option Nat) (pool : Option Nat) (pushed : Bool)
  deriving DecidableEq, Repr, Inhabited

/-- A commit slot (R354, R355): the command, the request record, the tokens, the accepted drafts, the position p, the next
token q, STATE, tokens delivered, the page to free next, and its status. -/
structure Commit where
  quire : Nat
  cmd : Nat
  ctx : Nat
  rq : Nat
  tva : Nat
  dva : Nat
  n : Nat
  req : Option Nat
  toks : List Nat
  drafts : List Nat
  st : CommitSt
  pos : Nat
  q : Nat
  state : Nat
  delivered : Nat
  page : Nat
  status : Nat
  handle : Handle
  deriving DecidableEq, Repr, Inhabited

/-- A Pruner with its commit unit (R346). -/
structure Pruner where
  steps : List PStep
  groups : Tab Group
  merges : List Merge
  inbox : List PMsg
  commits : Tab Commit
  deriving DecidableEq, Repr, Inhabited

/-- A Barrow (R108, R110, R117). -/
structure Barrow where
  tables : List Timetable
  running : List Running
  misses : List MissPlot
  deriving DecidableEq, Repr, Inhabited

/-- A saved context, named by the digest of its save area (R386, R387): what the device-private sections stand for. -/
structure Saved where
  digest : Bytes
  va : Nat
  ctx : Nat
  context : Ctx
  /-- element state by logical position (R12 bits [31:18]) -/
  elems : Tab Elem
  overflow : Tab Overflow
  qccs : Tab Qcc
  press : Tab Press
  graft : Tab Graft
  riddle : Tab Riddle
  steps : List PStep
  commits : List Commit
  table : Option Timetable
  running : List Running
  misses : List MissPlot
  accs : List (Nat × Access)
  /-- plots by logical plot number: descriptor and 4,096 bytes -/
  plots : List (Nat × Plot × Bytes)
  killed : Bool
  /-- tokens that each restart or yield gave: logical position and token (R391) -/
  restarts : List (Nat × Token)
  /-- tokens that rested in link buffers, with their target's logical position and class, messages and deliveries on their way
  (R384, R388) -/
  links : List (Nat × Nat × Token)
  msgs : List MsgIn
  deliveries : List Delivery
  /-- barrier registrations: home, generation, logical quire, command, state (R387, R393) -/
  barrs : List (Nat × Nat × Nat × Nat × Nat)
  /-- answers of outside requests that units had still to take, their keys in logical numbers -/
  outs : List Outside
  /-- control memory of each logical quire, from address 0, with its regions' handles -/
  ctl : List (Nat × Memory × Tab Handle)
  /-- the global folio of each logical folio at the save (R389) -/
  folios : List Nat
  deriving DecidableEq, Repr

/-! ### The machine -/

/-- Why the machine stops. There is no reason: every event that the spec describes leaves a machine that goes on, and a device
whose firmware fails stays in bring-up step 1 as a state of its own (R428). -/
inductive Fault where
  deriving DecidableEq, Repr

/-- Why the model has no meaning for a step. -/
inductive Refusal where
  /-- raised by an arm of `exec` that has no meaning yet; safe: the run stops -/
  | notModelled (mnemonic : String)
  deriving DecidableEq, Repr

/-- The state of Gurdaxo. INVENTORY.md lists every piece with its rule. -/
structure State where
  -- the model's own: who moves next, the count of steps, who moves now
  agenda : List Turn
  tick : Nat
  firing : Option Firing
  cur : Nat
  nextId : Nat
  -- memories
  sram : Memory
  hbm : Memory
  ctl : Memory
  plots : Tab Plot
  pageMap : Tab Handle
  ctlRegion : Tab Handle
  errs : List ErrMark
  /-- rows that placement zeroing has written of a plot (R22) -/
  zeroRows : Tab Nat
  -- fabric
  elems : Tab Elem
  bufs : Tab (List Flit)
  linkLast : Tab Nat
  banks : Tab Bank
  chans : Tab Chan
  overflow : Tab Overflow
  accs : Tab Access
  -- translation
  cached : Tab (List Cached)
  pointers : Tab (List CachedPtr)
  misses : List Miss
  invals : List Inval
  -- control cores and engines
  qccs : Tab Qcc
  press : Tab Press
  graft : Tab Graft
  riddle : Tab Riddle
  pruner : Tab Pruner
  barrow : Tab Barrow
  dies : Tab Die
  -- messages on their way
  msgs : List MsgIn
  trapOut : List TrapMsg
  plateOut : List PlateMsg
  marks : List MarkMsg
  /-- context, element and node of a terminal `cfgsw` (R235) -/
  drainNotices : List (Nat × Nat × Nat)
  barrRegs : List (Nat × Nat × Nat × Nat × Nat)
  barrDone : List (Nat × Nat × Nat)
  softErrors : List (Nat × EventRec)
  -- contexts, images, partitions, functions
  ctxs : Tab Ctx
  images : Tab Image
  parts : Tab Partn
  vfs : Tab Vf
  lastServed : Tab Nat
  /-- device launch records on their way to their launch channel (R360) -/
  toSpine : List Launch
  batches : List (Nat × Launch)
  responses : List (Nat × Nat × Nat)
  -- plates and the Clasp
  sets : Tab PlateSet
  plates : Tab Plate
  dests : Tab Dest
  policies : Tab Policy
  unions : List UnionReq
  sweep : Option Sweep
  submissions : List Submission
  eventsOut : List (Nat × EventRec)
  -- host, link, security, power
  pcie : List Pcie
  outside : List Outside
  deliveries : List Delivery
  accel : Nat
  presence : List Nat
  ports : Tab LinkPort
  linkOut : List (Nat × Bytes)
  retired : List RetUnit
  replaceSeq : Nat
  replaceBody : Bytes
  fwver : Nat
  rollback : Nat
  firmware : Bytes
  nextFirmware : Option (Nat × Bytes)
  debugOn : Bool
  debugOut : List (Bytes × Bool)
  /-- the bring-up step that runs: 1 to 4, or 5 when bring-up is over (R428) -/
  bringUp : Nat
  l1 : Bool
  pwrlim : Nat
  issueRate : Nat
  power : Tab PowerSt
  /-- partition status blocks (R404) -/
  status : Tab (BitVec 512)
  /-- PMTOL of each partition, in the power manager (R430) -/
  pmtol : Tab Nat
  hostReqs : List HostReq
  /-- flits discarded as link errors, by port (R419) -/
  linkErrs : Tab Nat
  /-- contexts torn down by an FLR of a virtual function that is not complete (R427) -/
  flr : Tab Nat
  saves : List Saved
  deriving DecidableEq, Repr

/-- The number of the physical function in the tables of functions and destinations (R95). -/
def pfNum : Nat := 0x4000

/-- A queue control at reset (R415): disabled. -/
def QueueCtl.reset : QueueCtl where
  base := 0
  pidxa := 0
  log2n := 0
  en := false
  irq := false
  cidx := 0
  seq := 0

/-- A function with no binding (R401): MODE 0, everything zero. -/
def Vf.unbound : Vf where
  part := none
  mode := 0
  maxPrio := 0
  ndq := 0
  tweight := none
  slice := none
  apbase := 0
  status := 0
  queues := []
  event := QueueCtl.reset
  events := []
  mailbox := []

/-- The physical function (R394, R412): bound to partition 0, with 255 delivery queues. Its launches are not clamped
(DESIGN CHOICE: no `part.vf` names it). -/
def Vf.physical : Vf := { Vf.unbound with part := some 0, mode := 2, maxPrio := 7, ndq := 255 }

/-- A partition as `part.create` makes it (R397): no folios, channels or functions, every quota zero, TWEIGHT 1 (R402). -/
def Partn.created : Partn where
  fmap := []
  ptroot := 0
  fqBase := none
  fqChan := none
  plateChan := none
  seq := 0
  faults := []
  channels := []
  ctxBase := 0
  nctx := 0
  ovfCap := 0
  maxVf := 0
  tweight := 1
  ebudget := 0
  rank := none
  gfol := 0
  gchan := 0
  susp := false
  status := 1
  stopseq := 0
  stop := none
  launches := []
  turn := 0
  turnAt := 0
  form := none

/-- Partition 0 after bring-up (R428 step 4) with no folio or channel retired. -/
def Partn.zero : Partn :=
  { Partn.created with
    fmap := [(0, { st := .mapped, ro := false, gfolio := 0, target := none })]
    channels := [0]
    nctx := 16
    ovfCap := 16384 }

/-- The machine after cold bring-up (R428): every store zero, partition 0 made, nothing else. The values of registers that
the spec gives no reset value for stand in notes/assumptions/3.md. -/
def State.reset : State where
  agenda := []
  tick := 0
  firing := none
  cur := 0
  nextId := 0
  sram := []
  hbm := []
  ctl := []
  plots := []
  pageMap := []
  ctlRegion := []
  errs := []
  zeroRows := []
  elems := []
  bufs := []
  linkLast := []
  banks := []
  chans := []
  overflow := []
  accs := []
  cached := []
  pointers := []
  misses := []
  invals := []
  qccs := []
  press := []
  graft := []
  riddle := []
  pruner := []
  barrow := []
  dies := []
  msgs := []
  trapOut := []
  plateOut := []
  marks := []
  drainNotices := []
  barrRegs := []
  barrDone := []
  softErrors := []
  ctxs := []
  images := []
  parts := [(0, Partn.zero)]
  vfs := [(pfNum, Vf.physical)]
  lastServed := []
  toSpine := []
  batches := []
  responses := []
  sets := []
  plates := []
  dests := []
  policies := []
  unions := []
  sweep := none
  submissions := []
  eventsOut := []
  pcie := []
  outside := []
  deliveries := []
  accel := 0
  presence := []
  ports := []
  linkOut := []
  retired := []
  replaceSeq := 0
  replaceBody := []
  fwver := 0
  rollback := 0
  firmware := []
  nextFirmware := none
  debugOn := false
  debugOut := []
  bringUp := 5
  l1 := false
  pwrlim := 3400
  issueRate := 16
  power := []
  status := [(0, BitVec.ofNat 512 (2 ^ 508 + 127 * 2 ^ 500 + 2 ^ 491 + 2 ^ 482 + 2 ^ 472 + 2 ^ 463))]
  pmtol := []
  hostReqs := []
  linkErrs := []
  flr := []
  saves := []

end Sys2Proof.Machine
end

