-- ==== Sys2Proof/Machine/Ops.lean ====
section
/-! DEFINITION. Named operations over tables, memories, positions, plates, poison and the trap path. -/

namespace Sys2Proof.Machine

/-! ### Tables and memories -/

/-- The value at a key. -/
def tabGet {α : Type} : Tab α → Nat → Option α
  | [], _ => none
  | (i, v) :: r, k => if i = k then some v else if k < i then none else tabGet r k

/-- The table with a value put at a key. -/
def tabPut {α : Type} : Tab α → Nat → α → Tab α
  | [], k, x => [(k, x)]
  | (i, v) :: r, k, x =>
    if i = k then (k, x) :: r else if k < i then (k, x) :: (i, v) :: r else (i, v) :: tabPut r k x

/-- The table without a key. -/
def tabDel {α : Type} : Tab α → Nat → Tab α
  | [], _ => []
  | (i, v) :: r, k => if i = k then r else if k < i then (i, v) :: r else (i, v) :: tabDel r k

/-- A number kept at a key, zero when absent. -/
def tabNum (t : Tab Nat) (k : Nat) : Nat := (tabGet t k).getD 0

/-- The table with the number at a key raised by `n`, modulo 2^32 (R236, R237). -/
def tabAdd (t : Tab Nat) (k n : Nat) : Tab Nat := tabPut t k ((tabNum t k + n) % 2 ^ 32)

/-- The list with its `i`-th element changed. -/
def listMod {α : Type} : List α → Nat → (α → α) → List α
  | [], _, _ => []
  | x :: r, 0, f => f x :: r
  | x :: r, i + 1, f => x :: listMod r i f

/-- The list without its `i`-th element. -/
def listDrop {α : Type} : List α → Nat → List α
  | [], _ => []
  | _ :: r, 0 => r
  | x :: r, i + 1 => x :: listDrop r i

/-- The first element that a test accepts, with its index. -/
def listFind {α : Type} (p : α → Bool) : List α → Nat → Option (Nat × α)
  | [], _ => none
  | x :: r, i => if p x then some (i, x) else listFind p r (i + 1)

/-- The byte at an address; an address that is not listed reads zero (R428). -/
def memByte (m : Memory) (a : Nat) : Byte := (tabGet m a).getD 0

/-- A byte written: a zero byte is not listed. -/
def memPut (m : Memory) (a : Nat) (b : Byte) : Memory := if b = 0 then tabDel m a else tabPut m a b

/-- `n` bytes from an address on, as a little-endian number (R8). -/
def memRead (m : Memory) (a : Nat) : Nat → Nat
  | 0 => 0
  | n + 1 => (memByte m a).toNat + 256 * memRead m (a + 1) n

/-- The low `n` bytes of a number written little-endian from an address on (R8). -/
def memWrite (m : Memory) (a : Nat) : Nat → Nat → Memory
  | 0, _ => m
  | n + 1, v => memWrite (memPut m a (BitVec.ofNat 8 v)) (a + 1) n (v / 256)

/-- The canonical form of a memory: addresses strictly rising, no byte zero. -/
def Memory.wf : Memory → Bool
  | [] => true
  | [(_, b)] => b != 0
  | (a, b) :: (a', b') :: r => b != 0 && decide (a < a') && Memory.wf ((a', b') :: r)

/-- The bytes of a number, little-endian (R8). -/
def bytesOf : Nat → Nat → Bytes
  | 0, _ => []
  | n + 1, v => BitVec.ofNat 8 v :: bytesOf n (v / 256)

/-- A little-endian number from bytes (R8). -/
def numOf : Bytes → Nat
  | [] => 0
  | b :: r => b.toNat + 256 * numOf r

/-- A field of a byte string: `n` bytes at an offset (R8). -/
def fieldOf (b : Bytes) (off n : Nat) : Nat := numOf ((b.drop off).take n)

/-- Bits [hi:lo] of a number. -/
def bitF (n hi lo : Nat) : Nat := n / 2 ^ lo % 2 ^ (hi + 1 - lo)

/-! ### Positions (R3, R11, R150) -/

def dieOf (pos : Nat) : Nat := pos / 1024
def folioOf (pos : Nat) : Nat := pos / 64
def quireOf (pos : Nat) : Nat := pos / 16

/-- Column and row of an element on the mesh of the whole package. -/
def meshX (pos : Nat) : Nat := dieOf pos % 4 * 32 + folioOf pos % 4 * 8 + quireOf pos % 2 * 4 + pos % 4
def meshY (pos : Nat) : Nat :=
  dieOf pos / 4 * 32 + folioOf pos % 16 / 4 * 8 + quireOf pos % 4 / 2 * 4 + pos % 16 / 4

/-- The element at a column and row of the mesh. -/
def posOfXY (x y : Nat) : Nat :=
  ((y / 32 * 4 + x / 32) * 16 + (y % 32 / 8 * 4 + x % 32 / 8)) * 64
    + (y % 8 / 4 * 2 + x % 8 / 4) * 16 + (y % 4 * 4 + x % 4)

/-- Logical coordinates of a POS (R150, R216). -/
def logX (p : Nat) : Nat := 8 * (p / 64 % 16) + 4 * (p / 16 % 2) + p % 4
def logY (p : Nat) : Nat := 8 * (p / 1024) + 4 * (p / 16 % 4 / 2) + p % 16 / 4

/-- The POS at logical coordinates. -/
def posOfLog (x y : Nat) : Nat := (y / 8 * 16 + x / 8) * 64 + (y % 8 / 4 * 2 + x % 8 / 4) * 16 + (y % 4 * 4 + x % 4)

/-! ### Parts of the state -/

/-- An element that holds nothing (R368: cur 3 at placement). -/
def Elem.fresh : Elem where
  slots := []
  shadow := []
  backing := []
  backingOps := []
  cur := 3
  used := 0
  mstore := []
  aside := []
  fifo := []
  out := []
  rob := []
  fetching := []
  exh := []
  stuck := []

/-- A quire's overflow store with nothing in it. -/
def Overflow.fresh : Overflow := { entries := [], spilling := [], reserve := [] }

/-- A bank port with nothing to do. -/
def Bank.fresh : Bank := { queue := [], zeroing := none, scrub := 0, lastScrub := 0, lastNonQueue := false }

/-- A plot descriptor at device reset (R22). -/
def Plot.fresh : Plot := { res := false, pin := false, zero := false, handle := 0, gen := 0 }

/-- A control core with no task context (R274). -/
def Qcc.fresh : Qcc where
  ctx := none
  hyp := false
  x := List.replicate 32 0
  pc := 0
  gvahi := 0
  cmdst := 0
  chans := []
  prio := []
  armed := []
  entry := []
  lastPick := []
  g := []
  cmds := []
  graph := []
  outq := []
  task := none
  pmh := 0
  xinvlo := 0
  xinverr := false
  xinvpid := 0
  dovlo := 0
  dovhi := 0
  dovsz := 0
  dovctx := 0
  dovst := 0
  plotsel := 0
  hsel := 0

/-- An accumulator tile at +0 (R303). -/
def Accum.fresh : Accum := { acc := List.replicate 256 0, handle := 0, poison := none }

/-- A Press with no context. -/
def Press.fresh : Press where
  ctx := none
  words := []
  shadow := []
  tiles := []
  scales := []
  go := []
  tc := List.replicate 4 Accum.fresh
  drains := []
  swIn := []
  nin := []
  sent := []
  port18 := []

/-- A Graft with no context; the Press counts as having entered the array last (R333). -/
def Graft.fresh : Graft where
  ctx := none
  descs := []
  shadow := []
  a := []
  d := []
  wh := []
  vecs := []
  steps := []
  shared := []
  scans := []
  wload := none
  yout := []
  pressLast := true
  swIn := []
  nin := []
  sent := []

/-- A Riddle with no context. -/
def Riddle.fresh : Riddle :=
  { ctx := none, descs := [], shadow := [], go := [], runs := [], turn := 3, swIn := [], nin := [], sent := [] }

/-- A Pruner with nothing to do. -/
def Pruner.fresh : Pruner := { steps := [], groups := [], merges := [], inbox := [], commits := [] }

/-- A Barrow with no timetable. -/
def Barrow.fresh : Barrow := { tables := [], running := [], misses := [] }

/-- A die since the reset of the machine. -/
def Die.fresh : Die :=
  { epoch := 0, queue := [], headWait := none, blocked := false, corrected := [], energy := [], issues := [], period := 0, lastEnergy := [],
    lastIssues := [], uncSince := [] }

/-- A link port with all 64 lanes up (R420). -/
def LinkPort.fresh : LinkPort := { replay := [], txSeq := 0, rxSeq := 0, lanes := 64 }

def State.elem (s : State) (p : Nat) : Elem := (tabGet s.elems p).getD Elem.fresh
def State.setElem (s : State) (p : Nat) (e : Elem) : State := { s with elems := tabPut s.elems p e }
def State.buf (s : State) (p port cls : Nat) : List Flit := (tabGet s.bufs ((p * 6 + port) * 4 + cls)).getD []
def State.setBuf (s : State) (p port cls : Nat) (l : List Flit) : State :=
  let k := (p * 6 + port) * 4 + cls
  { s with bufs := match l with | [] => tabDel s.bufs k | l => tabPut s.bufs k l }
def State.bank (s : State) (b : Nat) : Bank := (tabGet s.banks b).getD Bank.fresh
def State.setBank (s : State) (b : Nat) (v : Bank) : State := { s with banks := tabPut s.banks b v }
def State.chan (s : State) (c : Nat) : Chan := (tabGet s.chans c).getD { slots := [] }
def State.setChan (s : State) (c : Nat) (v : Chan) : State := { s with chans := tabPut s.chans c v }
def State.ovf (s : State) (q : Nat) : Overflow := (tabGet s.overflow q).getD Overflow.fresh
def State.setOvf (s : State) (q : Nat) (v : Overflow) : State := { s with overflow := tabPut s.overflow q v }
def State.plot (s : State) (n : Nat) : Plot := (tabGet s.plots n).getD Plot.fresh
def State.setPlot (s : State) (n : Nat) (v : Plot) : State := { s with plots := tabPut s.plots n v }
def State.qcc (s : State) (q : Nat) : Qcc := (tabGet s.qccs q).getD Qcc.fresh
def State.setQcc (s : State) (q : Nat) (v : Qcc) : State := { s with qccs := tabPut s.qccs q v }
def State.pressOf (s : State) (q : Nat) : Press := (tabGet s.press q).getD Press.fresh
def State.setPress (s : State) (q : Nat) (v : Press) : State := { s with press := tabPut s.press q v }
def State.graftOf (s : State) (q : Nat) : Graft := (tabGet s.graft q).getD Graft.fresh
def State.setGraft (s : State) (q : Nat) (v : Graft) : State := { s with graft := tabPut s.graft q v }
def State.riddleOf (s : State) (f : Nat) : Riddle := (tabGet s.riddle f).getD Riddle.fresh
def State.setRiddle (s : State) (f : Nat) (v : Riddle) : State := { s with riddle := tabPut s.riddle f v }
def State.prunerOf (s : State) (d : Nat) : Pruner := (tabGet s.pruner d).getD Pruner.fresh
def State.setPruner (s : State) (d : Nat) (v : Pruner) : State := { s with pruner := tabPut s.pruner d v }
def State.barrowOf (s : State) (d : Nat) : Barrow := (tabGet s.barrow d).getD Barrow.fresh
def State.setBarrow (s : State) (d : Nat) (v : Barrow) : State := { s with barrow := tabPut s.barrow d v }
def State.dieAt (s : State) (d : Nat) : Die := (tabGet s.dies d).getD Die.fresh
def State.setDie (s : State) (d : Nat) (v : Die) : State := { s with dies := tabPut s.dies d v }
def State.port (s : State) (p : Nat) : LinkPort := (tabGet s.ports p).getD LinkPort.fresh
def State.setPort (s : State) (p : Nat) (v : LinkPort) : State := { s with ports := tabPut s.ports p v }
def State.ctx? (s : State) (c : Nat) : Option Ctx := tabGet s.ctxs c
def State.setCtx (s : State) (c : Nat) (v : Ctx) : State := { s with ctxs := tabPut s.ctxs c v }
def State.part? (s : State) (p : Nat) : Option Partn := tabGet s.parts p
def State.setPart (s : State) (p : Nat) (v : Partn) : State := { s with parts := tabPut s.parts p v }
def State.vf (s : State) (v : Nat) : Vf := (tabGet s.vfs v).getD Vf.unbound
def State.setVf (s : State) (n : Nat) (v : Vf) : State := { s with vfs := tabPut s.vfs n v }

/-- The state with a context changed, if it is live. -/
def State.modCtx (s : State) (c : Nat) (f : Ctx → Ctx) : State :=
  match s.ctx? c with
  | some v => s.setCtx c (f v)
  | none => s

/-- The state with a partition changed, if it exists. -/
def State.modPart (s : State) (p : Nat) (f : Partn → Partn) : State :=
  match s.part? p with
  | some v => s.setPart p (f v)
  | none => s

/-- Cycles that pass on a die in the `n` steps from moment `t` on (notes/assumptions/2.md). -/
def cyclesFrom (die t : Nat) : Nat → Nat
  | 0 => 0
  | n + 1 => Config.elapsed die t + (if t % (Config.pace + 1) = Config.pace then 1 else 0) + cyclesFrom die (t + 1) n

/-- Cycles that have passed on a die since moment `t`. -/
def State.cyclesSince (s : State) (die t : Nat) : Nat := cyclesFrom die t (s.tick - t)

/-- The local counter of a die (R423). -/
def State.counter (s : State) (die : Nat) : Nat := s.cyclesSince die (s.dieAt die).epoch % 2 ^ 64

/-- A count of a die's period: issues and energy units of a partition (R403, R404). -/
def State.charge (s : State) (die part issues units : Nat) : State :=
  let d := s.dieAt die
  s.setDie die { d with issues := tabPut d.issues part (tabNum d.issues part + issues)
                        energy := tabPut d.energy part (tabNum d.energy part + units) }

/-- The power state of a unit by key: folios 0 to 255, dies from 256 on, 512 the package (R429). -/
def State.powerOf (s : State) (k : Nat) : PowerSt := (tabGet s.power k).getD .f0

/-- Whether a folio is in F0, its die and the package too: what reaches it is not held at its boundary (R429). -/
def State.awake (s : State) (folio : Nat) : Bool :=
  s.powerOf folio == .f0 && s.powerOf (256 + folio / 16) == .f0 && s.powerOf 512 == .f0

/-- Whether the HBM stack of an address is up: its die is not in retention (R429). -/
def State.stackAwake (s : State) (pa : Nat) : Bool := s.powerOf (256 + pa / 2 ^ 36) == .f0 && s.powerOf 512 == .f0

/-! ### Partitions and folio maps (R13 to R16, R31) -/

/-- The partition of a context; 32 when it is not live. -/
def State.partOf (s : State) (c : Nat) : Nat := match s.ctx? c with | some v => v.part | none => 32

/-- A partition's folio map entry of a logical folio. -/
def State.mapEntry (s : State) (p lf : Nat) : Option MapEntry :=
  match s.part? p with
  | some v => tabGet v.fmap lf
  | none => none

/-- The logical folio of a map that names a global folio. -/
def lfIn : Tab MapEntry → Nat → Option Nat
  | [], _ => none
  | (lf, e) :: r, g => if e.gfolio = g then some lf else lfIn r g

/-- The logical folio that a partition gives a global folio; 0 when it maps none to it. -/
def State.lfOf (s : State) (p g : Nat) : Nat :=
  match s.part? p with
  | some v => (lfIn v.fmap g).getD 0
  | none => 0

/-- Whether a map entry names a folio, or is moving to it (R17). -/
def MapEntry.names (e : MapEntry) (g : Nat) : Bool :=
  e.gfolio == g || (match e.target with | some (some h, _) => h == g | _ => false)

/-- The partition that maps a global folio. -/
def ownerIn : Tab Partn → Nat → Option Nat
  | [], _ => none
  | (p, v) :: r, g => if v.fmap.any (fun e => e.2.names g) then some p else ownerIn r g

def State.ownerOf (s : State) (g : Nat) : Option Nat := ownerIn s.parts g

/-- The physical position of a POS in a partition, if its logical folio is mapped or moving. -/
def State.physOf (s : State) (p lpos : Nat) : Option Nat :=
  match s.mapEntry p (lpos / 64) with
  | some e => some (e.gfolio * 64 + lpos % 64)
  | none => none

/-- The POS that an element has in a partition (R216). -/
def State.logOf (s : State) (p pos : Nat) : Nat := s.lfOf p (folioOf pos) * 64 + pos % 64

/-- Whether an element is recorded as retired (R31, R405). -/
def State.retiredElem (s : State) (pos : Nat) : Bool :=
  s.retired.any fun u => match u with
    | .elem p => p == pos
    | .quire q => q == quireOf pos
    | .folio f => f == folioOf pos
    | .chan _ => false

/-! ### Plate sets (R75, R79) -/

/-- The plates of a handle. -/
def State.setOf (s : State) (h : Handle) : List Nat :=
  if h.toNat < 0x200 then [h.toNat] else match tabGet s.sets h.toNat with | some e => e.plates | none => []

/-- Sorted merge without duplicates, plate 0 left out (R79). -/
def insertPlate (n : Nat) : List Nat → List Nat
  | [] => [n]
  | x :: r => if n = x then x :: r else if n < x then n :: x :: r else x :: insertPlate n r

def mergePlates (a b : List Nat) : List Nat := (a ++ b).foldl (fun l n => if n = 0 then l else insertPlate n l) []

/-- The composite handle of a set, if it is live. -/
def handleIn : Tab PlateSet → List Nat → Option Nat
  | [], _ => none
  | (h, e) :: r, l => if e.plates = l then some h else handleIn r l

/-- What a union comes to (R79, R87 to R89): a handle, a failure (more than 8 plates, or ended by a sweep), or a set that has
no handle yet. -/
inductive UnionRes where
  | ok (h : Handle)
  | ovf (ha hb : Handle)
  | wait (ha hb : Handle)
  deriving DecidableEq, Repr

/-- `plate_union` as far as it needs no new handle (R79). -/
def State.union (s : State) (ha hb : Handle) : UnionRes :=
  if ha = hb ∨ hb = 0 then .ok ha
  else if ha = 0 then .ok hb
  else
    let l := mergePlates (s.setOf ha) (s.setOf hb)
    match l with
    | [] => .ok 0
    | [n] => .ok (BitVec.ofNat 12 n)
    | l =>
      if l.length > 8 ∨ s.unions.any (fun u => u.plates == l && u.failed) then .ovf ha hb
      else match handleIn s.sets l with
        | some h => .ok (BitVec.ofNat 12 h)
        | none => .wait ha hb

/-- Union of several handles, folded in their order (R79). -/
def State.unionAll (s : State) : Handle → List Handle → UnionRes
  | h, [] => .ok h
  | h, x :: r =>
    match s.union h x with
    | .ok h' => s.unionAll h' r
    | u => u

/-- The number of live composite handles that a set may still take. -/
def State.freeHandles (s : State) : Nat := 0xE00 - s.sets.length

/-- A union that needs a new handle goes to the Spine (R87), once. -/
def State.askUnion (s : State) (ha hb : Handle) (ctx part : Nat) : State :=
  let l := mergePlates (s.setOf ha) (s.setOf hb)
  if s.unions.any (fun u => u.plates == l) then s
  else { s with unions := s.unions ++ [{ plates := l, ha := ha, hb := hb, ctx := ctx, part := part, waiting := false, failed := false }] }

/-- The code of a union that fails: PLATEOVF with more than 8 plates, or else PLATEFULL (R89). -/
def State.ovfCode (s : State) (ha hb : Handle) : Nat :=
  if (mergePlates (s.setOf ha) (s.setOf hb)).length > 8 then 0x40 else 0x41

/-- A union fails (R89, R90): a PLATEOVF sends its message to the plate channel; the message of a PLATEFULL has gone out when
its request began to wait, and one operation takes the end of a request. -/
def State.plateOvf (s : State) (ha hb : Handle) (ctx part : Nat) : State :=
  if s.ovfCode ha hb = 0x41 then
    { s with unions := s.unions.filter fun u => !(u.failed && u.plates == mergePlates (s.setOf ha) (s.setOf hb)) }
  else { s with plateOut := s.plateOut ++ [{ part := part, ctx := ctx, code := 0x40, ha := ha, hb := hb, used := 0 }] }

/-! ### Poison records, sinks and traps (R373 to R380) -/

/-- A poison record (R374). -/
def poisonRec (code ctx lf quire elem node src rpt detail : Nat) : BitVec 128 :=
  BitVec.ofNat 128 (code % 256 * 2 ^ 120 + ctx % 4096 * 2 ^ 108 + lf % 256 * 2 ^ 100 + quire % 4 * 2 ^ 98
    + elem % 16 * 2 ^ 94 + node % 256 * 2 ^ 86 + src % 8 * 2 ^ 83 + rpt % 2 * 2 ^ 82 + detail % 2 ^ 64)

/-- A fresh poison record of a node of context `ctx` on an element. -/
def State.nodeRec (s : State) (code ctx pos node detail : Nat) : BitVec 128 :=
  poisonRec code ctx (s.lfOf (s.partOf ctx) (folioOf pos)) (quireOf pos) pos node 0 0 detail

/-- A fresh poison record of a unit other than an element: ELEM 0 and NODE 0xFF (R374). -/
def State.unitRec (s : State) (code ctx quire src detail : Nat) : BitVec 128 :=
  poisonRec code ctx (s.lfOf (s.partOf ctx) (quire / 4)) quire 0 0xFF src 0 detail

def recCode (r : BitVec 128) : Nat := bitF r.toNat 127 120
def recRpt (r : BitVec 128) : Bool := bitF r.toNat 82 82 == 1
def recSetRpt (r : BitVec 128) : BitVec 128 := r ||| BitVec.ofNat 128 (2 ^ 82)

/-- A count that stops at 2^32 − 1 (R377). -/
def satAdd (a : BitVec 32) (n : Nat) : BitVec 32 :=
  if a.toNat + n ≥ 2 ^ 32 then BitVec.ofNat 32 (2 ^ 32 - 1) else BitVec.ofNat 32 (a.toNat + n)

/-- An empty fault record (R377). -/
def FaultRec.fresh : FaultRec :=
  { first := 0, nsink := 0, nfab := 0, strand := 0, excess := 0, ntrap := 0, nmerge := 0, novf := 0 }

/-- FIRST takes a record when it is empty (R376, R377). -/
def FaultRec.note (f : FaultRec) (r : BitVec 128) : FaultRec := if f.first = 0 then { f with first := r } else f

/-- A message to the trap channel is on its way (R378). -/
def State.sendTrap (s : State) (ctx kind : Nat) (r : BitVec 128) (spos snode : Nat) (plate : Handle) : State :=
  { s with trapOut := s.trapOut ++
      [{ ctx := ctx, kind := kind, record := r, spos := spos, snode := snode, count := 1, plate := plate }] }

/-- A poison record reaches a sink (R376). -/
def State.sink (s : State) (ctx : Nat) (r : BitVec 128) (spos snode : Nat) (plate : Handle) : State :=
  if recRpt r then s.modCtx ctx fun c => { c with fault := { c.fault with nsink := satAdd c.fault.nsink 1 } }
  else
    let s := s.modCtx ctx fun c =>
      { c with fault := FaultRec.note { c.fault with nsink := satAdd c.fault.nsink 1 } r }
    s.sendTrap ctx 1 r spos snode plate

/-- Whether a context is strict (R219). -/
def State.strict (s : State) (ctx : Nat) : Bool :=
  match s.ctx? ctx with
  | some c => match tabGet s.images c.image with | some i => i.strict | none => false
  | none => false

/-- A fabric fault (R379): NFAB grows, FIRST takes the record when empty, and a message goes out; STRAND (0x68) and EXCMARK
(0x69) send one only in a strict context. -/
def State.fabricFault (s : State) (ctx : Nat) (r : BitVec 128) (spos snode : Nat) (plate : Handle) : State :=
  let s := s.modCtx ctx fun c =>
    { c with fault := FaultRec.note { c.fault with nfab := satAdd c.fault.nfab 1 } r }
  if (recCode r = 0x68 ∨ recCode r = 0x69) ∧ !s.strict ctx then s else s.sendTrap ctx 5 r spos snode plate

/-! ### Outcomes -/

/-- What a step of the machine comes to. -/
abbrev Res := Host.Outcome State Fault Refusal

/-- The agent or event cannot act now: nothing happens (notes/assumptions/1.md). -/
def idle (s : State) : Res := .next s

/-- The first context slot of an element that holds a context. -/
def slotOfCtx : Tab Slot → Nat → Option (Nat × Slot)
  | [], _ => none
  | (i, v) :: r, c => if v.ctx = c then some (i, v) else slotOfCtx r c

end Sys2Proof.Machine
end

