-- ==== Sys2Proof/Machine/Flit.lean ====
section
/-! DEFINITION. Flits of the Thenoina link (R419, R420). -/

namespace Sys2Proof.Machine

/-- One byte into the CRC register, least significant bit first; the polynomial of ECMA-182 reflected (R419). -/
def crcBits : Nat → BitVec 64 → BitVec 64
  | 0, r => r
  | n + 1, r => crcBits n (if r.getLsbD 0 then (r >>> 1) ^^^ 0xC96C5795D7870F42 else r >>> 1)

def crcBytes : Bytes → BitVec 64 → BitVec 64
  | [], r => r
  | b :: l, r => crcBytes l (crcBits 8 (r ^^^ (b.zeroExtend 64)))

/-- CRC-64 of a byte string (R419). -/
def crc64 (l : Bytes) : BitVec 64 := ~~~ (crcBytes l (BitVec.allOnes 64))

/-- A byte string brought to a length with zeros. -/
def padTo (n : Nat) (l : Bytes) : Bytes := l.take n ++ List.replicate (n - l.length) 0

/-- What a flit carries (R54, R419). The order of the fields in PAYLOAD is the model's (notes/assumptions/20.md). -/
structure FlitMsg where
  dest : Nat
  kind : Nat
  src : Nat
  vc : Nat
  tag : Nat
  addr : Nat
  size : Nat
  aop : Nat
  status : Nat
  data : Bytes
  deriving DecidableEq, Repr

/-- The 248 bytes of a flit before its CRC. -/
def FlitMsg.body (m : FlitMsg) (lseq : Nat) : Bytes :=
  bytesOf 2 (m.dest % 4096 + m.kind % 16 * 4096) ++ bytesOf 2 (m.src % 4096 + m.vc % 4 * 4096) ++ bytesOf 2 lseq
    ++ bytesOf 10 0
    ++ padTo 232 (bytesOf 8 m.tag ++ bytesOf 8 m.addr ++ bytesOf 2 m.size ++ bytesOf 1 m.aop ++ bytesOf 1 m.status
        ++ bytesOf 4 0 ++ m.data)

/-- A flit: 256 bytes (R419). -/
def FlitMsg.bytes (m : FlitMsg) (lseq : Nat) : Bytes := m.body lseq ++ bytesOf 8 (crc64 (m.body lseq)).toNat

/-- The message of a flit; `data` is all that follows the fixed fields. -/
def flitMsg (b : Bytes) : FlitMsg where
  dest := fieldOf b 0 2 % 4096
  kind := fieldOf b 0 2 / 4096
  src := fieldOf b 2 2 % 4096
  vc := fieldOf b 2 2 / 4096 % 4
  tag := fieldOf b 16 8
  addr := fieldOf b 24 8
  size := fieldOf b 32 2
  aop := fieldOf b 34 1
  status := fieldOf b 35 1
  data := (b.drop 40).take 208

/-- A flit is sent: it takes the next LSEQ and stands in the replay buffer of 64 flits (R420). -/
def State.sendFlit (s : State) (m : FlitMsg) : State :=
  let p := s.port 0
  let b := m.bytes p.txSeq.toNat
  let s := s.setPort 0 { p with replay := ((p.replay ++ [b]).drop (p.replay.length + 1 - 64)), txSeq := p.txSeq + 1 }
  { s with linkOut := s.linkOut ++ [(0, b)] }

end Sys2Proof.Machine
end

