-- ==== Sys2Proof/Machine/Clasp.lean ====
section
/-! DEFINITION. The Clasp and the event queues (R94 to R102, R417). -/

namespace Sys2Proof.Machine

/-! ### Destinations (R95) -/

def destVf (vf : Nat) : Nat := vf
def destPeer (accel : Nat) : Nat := 0x8000 + accel
def destDebug : Nat := 0xC000

/-- Whether a 16-bit number names a destination (R95). -/
def destValid (d : Nat) : Bool :=
  let cls := bitF d 15 14
  let ix := bitF d 11 0
  bitF d 13 12 == 0 && decide (d < 65536) &&
    (match cls with | 0 => decide (ix ≤ 383) | 2 => true | _ => ix == 0)

/-- A destination table entry; OWNER 0 and INGRESS 0 until written. -/
def State.dest (s : State) (d : Nat) : Dest := (tabGet s.dests d).getD { owner := 0, ingress := 0 }

/-- What stands for a context where a host's own access is made through a function's window. -/
def hostCtx (vf : Nat) : Nat := 0x8000 + vf

/-- The home VF of a context, or of a host access (R94). -/
def State.homeVf (s : State) (ctx : Nat) : Nat :=
  match s.ctx? ctx with | some c => c.homevf | none => if ctx ≥ 0x8000 then ctx - 0x8000 else pfNum

/-! ### Events (R101, R417) -/

/-- A plate event record (R101). -/
def plateEvent (kind slot : Nat) (h : Handle) (dest count bytes : Nat) : BitVec 256 :=
  BitVec.ofNat 256 (kind * 2 ^ 248 + slot % 256 * 2 ^ 240 + h.toNat * 2 ^ 228 + dest % 65536 * 2 ^ 208
    + count % 2 ^ 32 * 2 ^ 160 + bytes % 2 ^ 64 * 2 ^ 96)

/-- Whether two waiting records merge: equal plate, KIND and detail (R101, R417). -/
def eventMerges (a b : EventRec) : Bool :=
  let x := a.record.toNat
  let y := b.record.toNat
  a.plate == b.plate && bitF x 255 248 == bitF y 255 248 &&
    (if bitF x 255 248 ≤ 5 then bitF x 239 228 == bitF y 239 228 && bitF x 223 208 == bitF y 223 208
     else bitF x 247 192 == bitF y 247 192)

/-- A record merged into a waiting one: COUNT and BYTES add, KIND 16 keeps the newest count (R101, R417). -/
def mergeEvent (old new : EventRec) : EventRec :=
  let x := old.record.toNat
  let y := new.record.toNat
  let cnt := (bitF x 191 160 + bitF y 191 160) % 2 ^ 32
  let low := if bitF x 255 248 = 16 then bitF y 159 0 else x % 2 ^ 96 + (bitF x 159 96 + bitF y 159 96) % 2 ^ 64 * 2 ^ 96
  { old with record := BitVec.ofNat 256 (x / 2 ^ 192 * 2 ^ 192 + cnt * 2 ^ 160 + low) }

/-- The list with the last element that a test accepts changed. -/
def modLast {α : Type} (p : α → Bool) (g : α → α) (l : List α) : List α :=
  match listFind p l.reverse 0 with
  | some (i, _) => listMod l (l.length - 1 - i) g
  | none => l

/-- An event record goes to the Spine's store of a function. A refusal merges into a waiting one of its kind (R101); when
65,536 records wait, any record merges, or else waits at its source (R417). -/
def State.event (s : State) (vf : Nat) (e : EventRec) : State :=
  let v := s.vf vf
  let merge := (bitF e.record.toNat 255 248 == 1 || decide (v.events.length ≥ 65536)) && v.events.any (eventMerges e)
  if merge then s.setVf vf { v with events := modLast (eventMerges e) (fun o => mergeEvent o e) v.events }
  else if v.events.length < 65536 then s.setVf vf { v with events := v.events ++ [e] }
  else { s with eventsOut := s.eventsOut ++ [(vf, e)] }

/-- An event to the EVF of every assigned plate of a list. -/
def State.eventPlates (s : State) (r : BitVec 256) : List Nat → State
  | [] => s
  | n :: l =>
    (match tabGet s.plates n with
     | some p => s.event p.evf { record := r, plate := n }
     | none => s).eventPlates r l

/-! ### The check (R96) -/

/-- A policy slot becomes free when its LIMIT reaches 0, with an expiry event to every plate (R100). -/
def State.chargePolicy (s : State) (slot : Nat) (p : Policy) (limit : Nat) : State :=
  if limit = 0 then
    { s with policies := tabDel s.policies slot }.eventPlates (plateEvent 4 slot p.handle p.dest 1 0) (s.setOf p.handle)
  else { s with policies := tabPut s.policies slot { p with limit := limit } }

/-- The lowest slot that lets the transfer pass (R96). -/
def policyFor (h : Handle) (d b : Nat) : Tab Policy → Option (Nat × Policy × Nat)
  | [] => none
  | (i, p) :: r =>
    if p.handle = h ∧ p.dest = d then
      if p.limkind = 0 then some (i, p, p.limit - 1)
      else if p.limit ≥ b then some (i, p, p.limit - b)
      else policyFor h d b r
    else policyFor h d b r

/-- `clasp_pass` (R96): whether the transfer passes, and the state after charging or refusing it (R101). -/
def State.clasp (s : State) (h : Handle) (d b : Nat) : Bool × State :=
  if h = 0 then (true, s)
  else if h.toNat = (s.dest d).owner then (true, s)
  else match policyFor h d b s.policies with
    | some (i, p, l) => (true, s.chargePolicy i p l)
    | none => (false, s.eventPlates (plateEvent 1 0xFF h d 1 b) (s.setOf h))

/-- A field of the VF status word raised by one, saturating (R414). -/
def State.vfCount (s : State) (vf hi lo code : Nat) : State :=
  let v := s.vf vf
  let w := v.status.toNat
  let f := bitF w hi lo
  let f' := if f + 1 < 2 ^ (hi + 1 - lo) then f + 1 else f
  let w := w - f * 2 ^ lo + f' * 2 ^ lo
  let w := if code = 0 then w else w - bitF w 23 16 * 2 ^ 16 + code % 256 * 2 ^ 16
  s.setVf vf { v with status := BitVec.ofNat 64 w }

end Sys2Proof.Machine
end

