-- ==== Sys2Proof/Machine/Errors.lean ====
section
/-! DEFINITION. Error correction of the stores and its reports (R58, R59, R382). -/

namespace Sys2Proof.Machine

/-- Storage kind of a soft-error record (R417). -/
def storeKind : Store → Nat
  | .bank => 0 | .matching => 1 | .overflow => 2 | .control => 3 | .hbm => 4

/-- The store of a storage kind. -/
def storeOf (n : Nat) : Store :=
  match n with | 0 => .bank | 1 => .matching | 2 => .overflow | 3 => .control | _ => .hbm

/-- Position field of a soft-error record: of a word address (bytes / 8), of an entry of an element (256 × element + entry),
or of a granule of a quire (16,384 × quire + granule) (R417). -/
def errPosition (st : Store) (addr : Nat) : Nat :=
  match st with
  | .bank | .hbm => addr / 8
  | .matching => addr / 256 * 2 ^ 12 + addr % 256
  | .overflow => addr / 16384 * 2 ^ 16 + addr % 16384
  | .control => addr / 8192 * 2 ^ 16 + addr % 8192

/-- The die that holds a word. -/
def errDie (st : Store) (addr : Nat) : Nat :=
  match st with
  | .bank => addr * 8 / 2 ^ 28
  | .hbm => addr * 8 / 2 ^ 36
  | .matching => addr / 256 / 1024
  | .overflow => addr / 16384 / 64
  | .control => addr / 8192 / 64

/-- A soft-error record of KIND 16 waits at its die (R382, R417). -/
def State.softRecord (s : State) (st : Store) (addr : Nat) (unc : Bool) (ctx : Nat) : State :=
  let n := tabNum (s.dieAt (errDie st addr)).corrected (storeKind st)
  let r := 16 * 2 ^ 248 + storeKind st * 2 ^ 244 + (if unc then 2 ^ 243 + (if ctx < 4096 then ctx else 0) * 2 ^ 228 else 0)
    + errPosition st addr * 2 ^ 192 + 2 ^ 160 + n % 2 ^ 32 * 2 ^ 128
  { s with softErrors := s.softErrors ++ [(errDie st addr, { record := BitVec.ofNat 256 r, plate := 0 })] }

/-- One corrected event is counted; a multiple of 4,096 is reported (R382). -/
def State.corrected (s : State) (st : Store) (addr : Nat) : State :=
  let d := s.dieAt (errDie st addr)
  let n := (tabNum d.corrected (storeKind st) + 1) % 2 ^ 32
  let s := s.setDie (errDie st addr) { d with corrected := tabPut d.corrected (storeKind st) n }
  if n % 4096 = 0 then s.softRecord st addr false 0 else s

/-- The marks of a store within bytes `a` to `a + n − 1`. -/
def State.marksIn (s : State) (st : Store) (a n : Nat) : List ErrMark :=
  s.errs.filter fun m => m.store == st && decide (a / 8 ≤ m.addr) && decide (m.addr * 8 < a + n)

/-- Whether the bytes touch an uncorrectable word. -/
def State.uncIn (s : State) (st : Store) (a n : Nat) : Bool := (s.marksIn st a n).any (·.unc)

/-- The unit whose retirement an uncorrectable error counts for: an element, 2^20 + quire, or 2^21 + channel (R405). -/
def errUnit (st : Store) (addr : Nat) : Nat :=
  match st with
  | .bank => addr / 2 ^ 15
  | .matching => addr / 256
  | .overflow => 2 ^ 20 + addr / 16384
  | .control => 2 ^ 20 + addr / 8192
  | .hbm => 2 ^ 21 + addr / 2 ^ 28

/-- The moment of an uncorrectable error is noted (R405). -/
def State.noteUnc (s : State) (st : Store) (addr : Nat) : State :=
  let d := s.dieAt (errDie st addr)
  let u := errUnit st addr
  s.setDie (errDie st addr) { d with uncSince := tabPut d.uncSince u (s.tick :: (tabGet d.uncSince u).getD []) }

/-- An uncorrectable word is reported; one of control memory also sends a message of KIND 7 to its context (R382). -/
def State.uncFound (s : State) (m : ErrMark) (ctx : Nat) : State :=
  let s1 := (s.softRecord m.store m.addr true ctx).noteUnc m.store m.addr
  if m.store = .control then
    s1.sendTrap ctx 7 (s.unitRec 0x20 ctx (m.addr / 8192) 5 0) (s.lfOf (s.partOf ctx) (m.addr / 32768) * 64 + m.addr / 8192 % 4 * 16) 0xFF 0
  else s1

def State.countAll (s : State) (ctx : Nat) : List ErrMark → State
  | [] => s
  | m :: r => (if m.unc then s.uncFound m ctx else s.corrected m.store m.addr).countAll ctx r

/-- A read meets the errors of the words it touches: corrected events are counted, uncorrectable ones reported. -/
def State.readErrs (s : State) (st : Store) (a n ctx : Nat) : State :=
  match s.marksIn st a n with
  | [] => s
  | l =>
    let met (m : ErrMark) : ErrMark := if l.contains m then { m with met := true } else m
    { s with errs := s.errs.map met }.countAll ctx l

/-- A write clears the marks of the words that it covers whole (R58). -/
def State.writeErrs (s : State) (st : Store) (a n : Nat) : State :=
  { s with errs := s.errs.filter fun m =>
      !(m.store == st && decide (a ≤ m.addr * 8) && decide (m.addr * 8 + 8 ≤ a + n)) }

/-- Whether a write covers an uncorrectable word in part only (R58). -/
def State.partUnc (s : State) (st : Store) (a n : Nat) : Bool :=
  (s.marksIn st a n).any fun m => m.unc && !(decide (a ≤ m.addr * 8) && decide (m.addr * 8 + 8 ≤ a + n))

end Sys2Proof.Machine
end

