-- ==== Sys2Proof/WellFormed.lean ====
section
/-! DEFINITION. Which instruction words are well formed by their own fields (R195 to R199, R208, R209, R227). The checks
that need the control word, the destination table or the activation stand in Machine/Loader.lean. -/

namespace Sys2Proof

/-- How an element opcode uses operand B. -/
inductive BUse where
  /-- B is read through SB -/
  | read
  /-- no B: SB must be 6 -/
  | none
  /-- a predicate in slot R: SB must be 1 (R197) -/
  | pred
  /-- read or not as the control word says (`chktag` R233, `cvt` R243) -/
  | cw
  deriving DecidableEq, Repr

/-- How an element opcode reads its word (R197, R199, R200, R227, R228, R238, R248, R263 to R272). -/
structure ElemShape where
  /-- A must come from a slot -/
  tokenA : Bool
  b : BUse
  /-- B must come from a slot -/
  tokenB : Bool
  /-- takes a control word (R200) -/
  cw : Bool
  /-- reads a third operand C (R223) -/
  c : Bool
  /-- an ordered memory form (R127) -/
  ordered : Bool
  /-- literal LX + 1 holds H (R249): SA and SB may not be 2 -/
  high : Bool
  /-- emits nothing (R197) -/
  mute : Bool
  deriving DecidableEq, Repr

/-- The shape of an element opcode; none for an unassigned code (R198). -/
def elemShape (opc : Nat) : Option ElemShape :=
  let sh (tokenA : Bool) (b : BUse) (cw : Bool) : ElemShape := ⟨tokenA, b, false, cw, false, false, false, false⟩
  let mem (b : BUse) (high : Bool) : ElemShape := ⟨false, b, false, true, false, decide (opc % 16 ≥ 8), high, false⟩
  if opc ≤ 0x02 ∨ opc = 0x05 then some (sh false .pred false)
  else if opc = 0x03 then some (sh false .none false)
  else if opc = 0x04 then some { sh true .none false with mute := true }
  else if opc = 0x06 ∨ opc = 0x07 then some (sh true .none false)
  else if opc = 0x08 then some (sh true .none true)
  else if opc = 0x09 then some (sh false .none false)
  else if opc = 0x0A then some (sh false .read true)
  else if opc = 0x0B ∨ opc = 0x0C then some (sh false .none true)
  else if opc = 0x0D then some (sh false .cw true)
  else if opc = 0x0E then some (sh true .read false)
  else if opc = 0x0F then some (sh false .read false)
  else if opc = 0x10 then some (sh true .none true)
  else if opc = 0x11 ∨ opc = 0x12 ∨ opc = 0x14 then some { sh true .read false with tokenB := true }
  else if opc = 0x13 then some (sh true .none false)
  else if opc ≤ 0x19 then some (sh false .read false)
  else if opc < 0x20 then none
  else if opc = 0x24 then some { sh false .read true with c := true }
  else if opc = 0x29 ∨ opc = 0x2A ∨ opc = 0x2E ∨ opc = 0x34 ∨ opc = 0x35 ∨ opc = 0x36 then some (sh false .none false)
  else if opc = 0x37 then some { sh false .pred true with c := true }
  else if opc < 0x40 then some (sh false .read false)
  else if opc < 0x80 then
    let f := if opc ≥ 0x60 then opc - 0x20 else opc
    if f = 0x43 then some { sh false .read true with c := true }
    else if f = 0x46 ∨ f = 0x47 ∨ (0x49 ≤ f ∧ f ≤ 0x51) then some (sh false .none false)
    else if 0x52 ≤ f ∧ f < 0x58 then none
    else some (sh false .read false)
  else if opc = 0x80 then some (sh false .cw true)
  else if opc = 0x81 ∨ opc = 0x82 then some (sh false .read true)
  else if opc = 0x83 ∨ opc = 0x84 ∨ opc = 0x85 then some (sh false .none false)
  else if opc = 0x86 ∨ opc = 0x87 then some (sh false .read false)
  else if opc < 0x90 then some (sh false .none false)
  else if opc < 0xA0 then
    let m := opc % 8
    if m = 0 ∨ m = 2 ∨ m = 5 then some (mem .none false)
    else if m = 7 then some (mem .read true)
    else some (mem .read false)
  else if opc = 0xA0 ∨ opc = 0xA8 then some (mem .none true)
  else if opc = 0xA1 ∨ opc = 0xA2 ∨ opc = 0xA9 ∨ opc = 0xAA then some (mem .read true)
  else if opc < 0xB0 then none
  else if opc ≤ 0xB5 then some (sh true .none false)
  else if opc = 0xB6 then some { sh true .read false with tokenB := true }
  else if opc = 0xB7 ∨ opc = 0xB8 ∨ opc = 0xBA ∨ opc = 0xBD then some (sh true .none true)
  else if opc = 0xB9 ∨ opc = 0xBB ∨ opc = 0xBE then some (sh false .none false)
  else if opc = 0xBC then some { sh false .none false with mute := true }
  else none

/-- A select that reads a slot (R196). -/
def isSlot (c : BitVec 3) : Bool := c == 0#3 || c == 1#3

/-- The operand fields that an opcode fixes, as the opcode table gives them. -/
def elemFixed (opc : Nat) (o : ElemOps) : Bool :=
  match elemShape opc with
  | none => false
  | some s =>
    (match s.b with
      | .read => true
      | .none => o.sb == 6#3
      | .pred => o.sb == 1#3
      | .cw => true)
    && (!s.tokenA || opc == 0x0E || isSlot o.sa)
    && (!s.tokenB || isSlot o.sb)
    && (!s.mute || (o.dx == 31#5 && o.dy == 31#5))
    && (if opc = 0x04 ∨ opc = 0x06 then o.ta == 0#4 && o.lx == 0#4 else true)
    && (if opc = 0x10 then o.ta == 0#4 else true)
    && (if opc = 0x08 then o.ta == 5#4 else true)
    && (if opc = 0x09 then (o.ta == 6#4 || o.ta == 7#4) && o.lx == 0#4 else true)
    && (if opc = 0x07 ∨ opc = 0x83 ∨ opc = 0xB9 ∨ opc = 0xBB ∨ opc = 0xBC ∨ opc = 0xBE ∨ (0xB0 ≤ opc ∧ opc ≤ 0xB6)
        then o.lx == 0#4 else true)

/-- How many of A and B are read through a slot (R197). -/
def slotReads (s : ElemShape) (o : ElemOps) : Nat :=
  (if isSlot o.sa then 1 else 0) + (if s.b != .none && isSlot o.sb then 1 else 0)

/-- The rules that the operand fields of an element word meet by themselves (R195 to R197, R227, R249). -/
def elemWf (opc : Nat) (o : ElemOps) : Bool :=
  elemFixed opc o &&
  match elemShape opc with
  | none => false
  | some s =>
    o.sa != 6#3 && o.sa != 7#3 && o.sb != 7#3
    && (s.b != .read || o.sb != 6#3)
    && !(o.sa == o.sb && isSlot o.sa)
    && (s.c || s.ordered || slotReads s o ≥ 1)
    && (!s.tokenA || isSlot o.sa)
    && !(s.high && (o.sa == 2#3 || o.sb == 2#3))
    && (s.cw || o.sa == 2#3 || o.sb == 2#3 || o.lx == 0#4)
    && !(o.lx == 15#4 && (s.high || (s.cw && (o.sa == 2#3 || o.sb == 2#3))))
    && o.ta.toNat ≤ 8 && (o.ta != 5#4 || opc == 0x08)

/-- The rules a press word meets by itself (R209, R306). -/
def pressWf (pop : Nat) (p : PressWord) : Bool :=
  let drains := pop ≥ 2
  let s := p.ksm1.toNat + 1
  (if pop = 3 then
      p.afmt == 0#3 && p.bfmt == 0#3 && p.tra == 0#1 && p.trb == 0#1 && p.ksm1 == 0#8 && p.lastn == 0#5
    else
      1 ≤ p.afmt.toNat && p.afmt.toNat ≤ 3 && 1 ≤ p.bfmt.toNat && p.bfmt.toNat ≤ 5
      && (if p.afmt = 1#3 then s ≤ 16 else s ≤ 32)
      && (if p.bfmt = 1#3 then s ≤ 16 else if p.bfmt.toNat ≤ 3 then s ≤ 32 else s ≤ 64))
  && (if drains then p.ofmt.toNat ≤ 3 && p.didx != 31#5 else p.ofmt == 0#3 && p.sat == 0#1)

end Sys2Proof
end

