-- ==== Sys2Proof/Decode.lean ====
section
/-! DEFINITION. The three decoders (element, control-core and press words) and their encoders (R195 to R209). -/

namespace Sys2Proof

/-- Bits [hi:lo] of a number. -/
def bitsAt (n hi lo : Nat) : Nat := n / 2 ^ lo % 2 ^ (hi - lo + 1)

/-- The operand fields of an element word (R195). -/
def elemOpsOf (n : Nat) : ElemOps where
  sa := BitVec.ofNat 3 (bitsAt n 23 21)
  sb := BitVec.ofNat 3 (bitsAt n 20 18)
  dx := BitVec.ofNat 5 (bitsAt n 17 13)
  dy := BitVec.ofNat 5 (bitsAt n 12 8)
  ta := BitVec.ofNat 4 (bitsAt n 7 4)
  lx := BitVec.ofNat 4 (bitsAt n 3 0)

/-- The number whose bits are an element word with opcode `opc` (R195). -/
def elemNum (opc : Nat) (o : ElemOps) : Nat :=
  opc * 2 ^ 24 + o.sa.toNat * 2 ^ 21 + o.sb.toNat * 2 ^ 18 + o.dx.toNat * 2 ^ 13 + o.dy.toNat * 2 ^ 8
    + o.ta.toNat * 2 ^ 4 + o.lx.toNat

/-- The element opcode map (R198): the instruction of an opcode byte. -/
def elemOfOpcode (opc : Nat) (o : ElemOps) : Option Instr :=
  match opc with
  | 0x00 => some (.steer o)
  | 0x01 => some (.merge o)
  | 0x02 => some (.cmerge o)
  | 0x03 => some (.copy o)
  | 0x04 => some (.sink o)
  | 0x05 => some (.gate o)
  | 0x06 => some (.pass o)
  | 0x07 => some (.reorder o)
  | 0x08 => some (.alloc o)
  | 0x09 => some (.free o)
  | 0x0A => some (.pack o)
  | 0x0B => some (.unpack o)
  | 0x0C => some (.tagidx o)
  | 0x0D => some (.chktag o)
  | 0x0E => some (.const o)
  | 0x0F => some (.join o)
  | 0x10 => some (.cfgsw o)
  | 0x11 => some (.pand o)
  | 0x12 => some (.por o)
  | 0x13 => some (.pnot o)
  | 0x14 => some (.pxor o)
  | 0x15 => some (.mulhZ o)
  | 0x16 => some (.divZ o)
  | 0x17 => some (.remZ o)
  | 0x18 => some (.minZ o)
  | 0x19 => some (.maxZ o)
  | 0x20 => some (.add o)
  | 0x21 => some (.sub o)
  | 0x22 => some (.mul o)
  | 0x23 => some (.mulh o)
  | 0x24 => some (.mad o)
  | 0x25 => some (.div o)
  | 0x26 => some (.rem o)
  | 0x27 => some (.min o)
  | 0x28 => some (.max o)
  | 0x29 => some (.abs o)
  | 0x2A => some (.neg o)
  | 0x2B => some (.and o)
  | 0x2C => some (.or o)
  | 0x2D => some (.xor o)
  | 0x2E => some (.not o)
  | 0x2F => some (.andn o)
  | 0x30 => some (.shl o)
  | 0x31 => some (.shr o)
  | 0x32 => some (.sar o)
  | 0x33 => some (.rol o)
  | 0x34 => some (.clz o)
  | 0x35 => some (.popc o)
  | 0x36 => some (.brev o)
  | 0x37 => some (.sel o)
  | 0x38 => some (.cmpEq o)
  | 0x39 => some (.cmpNe o)
  | 0x3A => some (.cmpLt o)
  | 0x3B => some (.cmpGe o)
  | 0x3C => some (.cmpLtu o)
  | 0x3D => some (.cmpGeu o)
  | 0x3E => some (.cmpLe o)
  | 0x3F => some (.cmpGt o)
  | 0x40 => some (.fadd o)
  | 0x41 => some (.fsub o)
  | 0x42 => some (.fmul o)
  | 0x43 => some (.ffma o)
  | 0x44 => some (.fmin o)
  | 0x45 => some (.fmax o)
  | 0x46 => some (.fabs o)
  | 0x47 => some (.fneg o)
  | 0x48 => some (.fdiv o)
  | 0x49 => some (.fsqrt o)
  | 0x4A => some (.frcp o)
  | 0x4B => some (.frsq o)
  | 0x4C => some (.fexp2 o)
  | 0x4D => some (.flog2 o)
  | 0x4E => some (.ftanh o)
  | 0x4F => some (.fsigm o)
  | 0x50 => some (.fspl o)
  | 0x51 => some (.fclass o)
  | 0x58 => some (.fcmpEq o)
  | 0x59 => some (.fcmpNe o)
  | 0x5A => some (.fcmpLt o)
  | 0x5B => some (.fcmpLe o)
  | 0x5C => some (.fcmpGt o)
  | 0x5D => some (.fcmpGe o)
  | 0x5E => some (.fcmpUn o)
  | 0x5F => some (.fcmpNum o)
  | 0x60 => some (.faddBf16 o)
  | 0x61 => some (.fsubBf16 o)
  | 0x62 => some (.fmulBf16 o)
  | 0x63 => some (.ffmaBf16 o)
  | 0x64 => some (.fminBf16 o)
  | 0x65 => some (.fmaxBf16 o)
  | 0x66 => some (.fabsBf16 o)
  | 0x67 => some (.fnegBf16 o)
  | 0x68 => some (.fdivBf16 o)
  | 0x69 => some (.fsqrtBf16 o)
  | 0x6A => some (.frcpBf16 o)
  | 0x6B => some (.frsqBf16 o)
  | 0x6C => some (.fexp2Bf16 o)
  | 0x6D => some (.flog2Bf16 o)
  | 0x6E => some (.ftanhBf16 o)
  | 0x6F => some (.fsigmBf16 o)
  | 0x70 => some (.fsplBf16 o)
  | 0x71 => some (.fclassBf16 o)
  | 0x78 => some (.fcmpEqBf16 o)
  | 0x79 => some (.fcmpNeBf16 o)
  | 0x7A => some (.fcmpLtBf16 o)
  | 0x7B => some (.fcmpLeBf16 o)
  | 0x7C => some (.fcmpGtBf16 o)
  | 0x7D => some (.fcmpGeBf16 o)
  | 0x7E => some (.fcmpUnBf16 o)
  | 0x7F => some (.fcmpNumBf16 o)
  | 0x80 => some (.cvt o)
  | 0x81 => some (.qexp o)
  | 0x82 => some (.bscale o)
  | 0x83 => some (.bmax o)
  | 0x84 => some (.laneid o)
  | 0x85 => some (.bcast o)
  | 0x86 => some (.shuf o)
  | 0x87 => some (.lrot o)
  | 0x88 => some (.redaddI32 o)
  | 0x89 => some (.redmaxI32 o)
  | 0x8A => some (.redminI32 o)
  | 0x8B => some (.lscanI32 o)
  | 0x8C => some (.redaddF32 o)
  | 0x8D => some (.redmaxF32 o)
  | 0x8E => some (.redminF32 o)
  | 0x8F => some (.lscanF32 o)
  | 0x90 => some (.ld o)
  | 0x91 => some (.st o)
  | 0x92 => some (.ldg o)
  | 0x93 => some (.sts o)
  | 0x94 => some (.wadd o)
  | 0x95 => some (.wrd o)
  | 0x96 => some (.wclr o)
  | 0x97 => some (.zero o)
  | 0x98 => some (.ldOrd o)
  | 0x99 => some (.stOrd o)
  | 0x9A => some (.ldgOrd o)
  | 0x9B => some (.stsOrd o)
  | 0x9C => some (.waddOrd o)
  | 0x9D => some (.wrdOrd o)
  | 0x9E => some (.wclrOrd o)
  | 0x9F => some (.zeroOrd o)
  | 0xA0 => some (.hld o)
  | 0xA1 => some (.hst o)
  | 0xA2 => some (.atom o)
  | 0xA8 => some (.hldOrd o)
  | 0xA9 => some (.hstOrd o)
  | 0xAA => some (.atomOrd o)
  | 0xB0 => some (.fenceScE o)
  | 0xB1 => some (.fenceScQ o)
  | 0xB2 => some (.fenceScF o)
  | 0xB3 => some (.fenceScD o)
  | 0xB4 => some (.fenceScK o)
  | 0xB5 => some (.fenceScX o)
  | 0xB6 => some (.ordjoin o)
  | 0xB7 => some (.mark o)
  | 0xB8 => some (.trap o)
  | 0xB9 => some (.poison o)
  | 0xBA => some (.probe o)
  | 0xBB => some (.yield o)
  | 0xBC => some (.exit o)
  | 0xBD => some (.send o)
  | 0xBE => some (.launch o)
  | _ => none

/-- The opcode byte and the operand fields of an element instruction (R198). -/
def elemOpcodeOf : Instr → Option (Nat × ElemOps)
  | .steer o => some (0x00, o)
  | .merge o => some (0x01, o)
  | .cmerge o => some (0x02, o)
  | .copy o => some (0x03, o)
  | .sink o => some (0x04, o)
  | .gate o => some (0x05, o)
  | .pass o => some (0x06, o)
  | .reorder o => some (0x07, o)
  | .alloc o => some (0x08, o)
  | .free o => some (0x09, o)
  | .pack o => some (0x0A, o)
  | .unpack o => some (0x0B, o)
  | .tagidx o => some (0x0C, o)
  | .chktag o => some (0x0D, o)
  | .const o => some (0x0E, o)
  | .join o => some (0x0F, o)
  | .cfgsw o => some (0x10, o)
  | .pand o => some (0x11, o)
  | .por o => some (0x12, o)
  | .pnot o => some (0x13, o)
  | .pxor o => some (0x14, o)
  | .mulhZ o => some (0x15, o)
  | .divZ o => some (0x16, o)
  | .remZ o => some (0x17, o)
  | .minZ o => some (0x18, o)
  | .maxZ o => some (0x19, o)
  | .add o => some (0x20, o)
  | .sub o => some (0x21, o)
  | .mul o => some (0x22, o)
  | .mulh o => some (0x23, o)
  | .mad o => some (0x24, o)
  | .div o => some (0x25, o)
  | .rem o => some (0x26, o)
  | .min o => some (0x27, o)
  | .max o => some (0x28, o)
  | .abs o => some (0x29, o)
  | .neg o => some (0x2A, o)
  | .and o => some (0x2B, o)
  | .or o => some (0x2C, o)
  | .xor o => some (0x2D, o)
  | .not o => some (0x2E, o)
  | .andn o => some (0x2F, o)
  | .shl o => some (0x30, o)
  | .shr o => some (0x31, o)
  | .sar o => some (0x32, o)
  | .rol o => some (0x33, o)
  | .clz o => some (0x34, o)
  | .popc o => some (0x35, o)
  | .brev o => some (0x36, o)
  | .sel o => some (0x37, o)
  | .cmpEq o => some (0x38, o)
  | .cmpNe o => some (0x39, o)
  | .cmpLt o => some (0x3A, o)
  | .cmpGe o => some (0x3B, o)
  | .cmpLtu o => some (0x3C, o)
  | .cmpGeu o => some (0x3D, o)
  | .cmpLe o => some (0x3E, o)
  | .cmpGt o => some (0x3F, o)
  | .fadd o => some (0x40, o)
  | .fsub o => some (0x41, o)
  | .fmul o => some (0x42, o)
  | .ffma o => some (0x43, o)
  | .fmin o => some (0x44, o)
  | .fmax o => some (0x45, o)
  | .fabs o => some (0x46, o)
  | .fneg o => some (0x47, o)
  | .fdiv o => some (0x48, o)
  | .fsqrt o => some (0x49, o)
  | .frcp o => some (0x4A, o)
  | .frsq o => some (0x4B, o)
  | .fexp2 o => some (0x4C, o)
  | .flog2 o => some (0x4D, o)
  | .ftanh o => some (0x4E, o)
  | .fsigm o => some (0x4F, o)
  | .fspl o => some (0x50, o)
  | .fclass o => some (0x51, o)
  | .fcmpEq o => some (0x58, o)
  | .fcmpNe o => some (0x59, o)
  | .fcmpLt o => some (0x5A, o)
  | .fcmpLe o => some (0x5B, o)
  | .fcmpGt o => some (0x5C, o)
  | .fcmpGe o => some (0x5D, o)
  | .fcmpUn o => some (0x5E, o)
  | .fcmpNum o => some (0x5F, o)
  | .faddBf16 o => some (0x60, o)
  | .fsubBf16 o => some (0x61, o)
  | .fmulBf16 o => some (0x62, o)
  | .ffmaBf16 o => some (0x63, o)
  | .fminBf16 o => some (0x64, o)
  | .fmaxBf16 o => some (0x65, o)
  | .fabsBf16 o => some (0x66, o)
  | .fnegBf16 o => some (0x67, o)
  | .fdivBf16 o => some (0x68, o)
  | .fsqrtBf16 o => some (0x69, o)
  | .frcpBf16 o => some (0x6A, o)
  | .frsqBf16 o => some (0x6B, o)
  | .fexp2Bf16 o => some (0x6C, o)
  | .flog2Bf16 o => some (0x6D, o)
  | .ftanhBf16 o => some (0x6E, o)
  | .fsigmBf16 o => some (0x6F, o)
  | .fsplBf16 o => some (0x70, o)
  | .fclassBf16 o => some (0x71, o)
  | .fcmpEqBf16 o => some (0x78, o)
  | .fcmpNeBf16 o => some (0x79, o)
  | .fcmpLtBf16 o => some (0x7A, o)
  | .fcmpLeBf16 o => some (0x7B, o)
  | .fcmpGtBf16 o => some (0x7C, o)
  | .fcmpGeBf16 o => some (0x7D, o)
  | .fcmpUnBf16 o => some (0x7E, o)
  | .fcmpNumBf16 o => some (0x7F, o)
  | .cvt o => some (0x80, o)
  | .qexp o => some (0x81, o)
  | .bscale o => some (0x82, o)
  | .bmax o => some (0x83, o)
  | .laneid o => some (0x84, o)
  | .bcast o => some (0x85, o)
  | .shuf o => some (0x86, o)
  | .lrot o => some (0x87, o)
  | .redaddI32 o => some (0x88, o)
  | .redmaxI32 o => some (0x89, o)
  | .redminI32 o => some (0x8A, o)
  | .lscanI32 o => some (0x8B, o)
  | .redaddF32 o => some (0x8C, o)
  | .redmaxF32 o => some (0x8D, o)
  | .redminF32 o => some (0x8E, o)
  | .lscanF32 o => some (0x8F, o)
  | .ld o => some (0x90, o)
  | .st o => some (0x91, o)
  | .ldg o => some (0x92, o)
  | .sts o => some (0x93, o)
  | .wadd o => some (0x94, o)
  | .wrd o => some (0x95, o)
  | .wclr o => some (0x96, o)
  | .zero o => some (0x97, o)
  | .ldOrd o => some (0x98, o)
  | .stOrd o => some (0x99, o)
  | .ldgOrd o => some (0x9A, o)
  | .stsOrd o => some (0x9B, o)
  | .waddOrd o => some (0x9C, o)
  | .wrdOrd o => some (0x9D, o)
  | .wclrOrd o => some (0x9E, o)
  | .zeroOrd o => some (0x9F, o)
  | .hld o => some (0xA0, o)
  | .hst o => some (0xA1, o)
  | .atom o => some (0xA2, o)
  | .hldOrd o => some (0xA8, o)
  | .hstOrd o => some (0xA9, o)
  | .atomOrd o => some (0xAA, o)
  | .fenceScE o => some (0xB0, o)
  | .fenceScQ o => some (0xB1, o)
  | .fenceScF o => some (0xB2, o)
  | .fenceScD o => some (0xB3, o)
  | .fenceScK o => some (0xB4, o)
  | .fenceScX o => some (0xB5, o)
  | .ordjoin o => some (0xB6, o)
  | .mark o => some (0xB7, o)
  | .trap o => some (0xB8, o)
  | .poison o => some (0xB9, o)
  | .probe o => some (0xBA, o)
  | .yield o => some (0xBB, o)
  | .exit o => some (0xBC, o)
  | .send o => some (0xBD, o)
  | .launch o => some (0xBE, o)
  | _ => none

/-- The element word decoder: the opcode map of R198 with the operand fields that an opcode fixes (R197, R227, R228;
`elemFixed` of WellFormed.lean). -/
def decodeElem (w : Word) : Option Instr :=
  let n := w.toNat
  let o := elemOpsOf n
  if elemFixed (n / 2 ^ 24) o then elemOfOpcode (n / 2 ^ 24) o else none

/-- The element word of an element instruction. -/
def encodeElem (i : Instr) : Option Word :=
  match elemOpcodeOf i with
  | some (opc, o) => some (BitVec.ofNat 32 (elemNum opc o))
  | none => none

/-- The register fields and immediates of a control-core word (R205). -/
def rdOf (n : Nat) : BitVec 5 := BitVec.ofNat 5 (bitsAt n 24 20)
def raOf (n : Nat) : BitVec 5 := BitVec.ofNat 5 (bitsAt n 19 15)
def rbOf (n : Nat) : BitVec 5 := BitVec.ofNat 5 (bitsAt n 14 10)
def immOf (n : Nat) : BitVec 15 := BitVec.ofNat 15 (bitsAt n 14 0)
def imm20Of (n : Nat) : BitVec 20 := BitVec.ofNat 20 (bitsAt n 19 0)

/-- The `alu` functions (R207). -/
def aluOfFn (fn : Nat) (d a b : BitVec 5) : Option Instr :=
  match fn with
  | 0 => some (.aluAdd d a b)
  | 1 => some (.aluSub d a b)
  | 2 => some (.aluAnd d a b)
  | 3 => some (.aluOr d a b)
  | 4 => some (.aluXor d a b)
  | 5 => some (.aluSll d a b)
  | 6 => some (.aluSrl d a b)
  | 7 => some (.aluSra d a b)
  | 8 => some (.aluSlt d a b)
  | 9 => some (.aluSltu d a b)
  | 10 => some (.aluMul d a b)
  | 11 => some (.aluMulh d a b)
  | 12 => some (.aluMulhu d a b)
  | 13 => some (.aluDiv d a b)
  | 14 => some (.aluDivu d a b)
  | 15 => some (.aluRem d a b)
  | 16 => some (.aluRemu d a b)
  | 17 => some (.aluMin d a b)
  | 18 => some (.aluMax d a b)
  | 19 => some (.aluMinu d a b)
  | 20 => some (.aluMaxu d a b)
  | _ => none

/-- The `part` forms (R301). -/
noncomputable def partOfCfn (cfn : Nat) (s b c : BitVec 5) : Option Instr :=
  match cfn with
  | 0 => some (.partCreate s b c)
  | 1 => some (.partDestroy s b c)
  | 2 => some (.partFmap s b c)
  | 3 => some (.partChan s b c)
  | 4 => some (.partPtroot s b c)
  | 5 => some (.partFq s b c)
  | 6 => some (.partPlate s b c)
  | 7 => some (.partDest s b c)
  | 8 => some (.partVf s b c)
  | 9 => some (.partQuota s b c)
  | 10 => some (.partBudget s b c)
  | 11 => some (.partGuar s b c)
  | 12 => some (.partStop s b c)
  | 13 => some (.partSave s b c)
  | 14 => some (.partResume s b c)
  | 15 => some (.partEvent s b c)
  | _ => none

/-- The instruction if the fields it does not use are zero (R208). -/
def whenZero (n : Nat) (i : Instr) : Option Instr := if n = 0 then some i else none

/-- The control-core word decoder (R206 to R208): none for a word that takes ILLINS by its form. -/
noncomputable def decodeQcc (w : Word) : Option Instr :=
  let n := w.toNat
  match n / 2 ^ 25 with
  | 0x00 => aluOfFn (bitsAt n 9 0) (rdOf n) (raOf n) (rbOf n)
  | 0x01 => some (.addi (rdOf n) (raOf n) (immOf n))
  | 0x02 => some (.andi (rdOf n) (raOf n) (immOf n))
  | 0x03 => some (.ori (rdOf n) (raOf n) (immOf n))
  | 0x04 => some (.xori (rdOf n) (raOf n) (immOf n))
  | 0x05 =>
      if bitsAt n 14 5 = 0 then some (.slli (rdOf n) (raOf n) (BitVec.ofNat 5 (bitsAt n 4 0)))
      else none
  | 0x06 =>
      if bitsAt n 14 5 = 0 then some (.srli (rdOf n) (raOf n) (BitVec.ofNat 5 (bitsAt n 4 0)))
      else none
  | 0x07 =>
      if bitsAt n 14 5 = 0 then some (.srai (rdOf n) (raOf n) (BitVec.ofNat 5 (bitsAt n 4 0)))
      else none
  | 0x08 => some (.slti (rdOf n) (raOf n) (immOf n))
  | 0x09 => some (.sltiu (rdOf n) (raOf n) (immOf n))
  | 0x0A => some (.lui (rdOf n) (imm20Of n))
  | 0x10 => some (.lb (rdOf n) (raOf n) (immOf n))
  | 0x11 => some (.lbu (rdOf n) (raOf n) (immOf n))
  | 0x12 => some (.lh (rdOf n) (raOf n) (immOf n))
  | 0x13 => some (.lhu (rdOf n) (raOf n) (immOf n))
  | 0x14 => some (.lw (rdOf n) (raOf n) (immOf n))
  | 0x15 => some (.sb (rdOf n) (raOf n) (immOf n))
  | 0x16 => some (.sh (rdOf n) (raOf n) (immOf n))
  | 0x17 => some (.sw (rdOf n) (raOf n) (immOf n))
  | 0x18 => some (.lwg (rdOf n) (raOf n) (immOf n))
  | 0x19 => some (.swg (rdOf n) (raOf n) (immOf n))
  | 0x1A =>
      if bitsAt n 8 4 = 0 ∧ bitsAt n 3 0 ≤ 10 then
        some (.amo (rdOf n) (raOf n) (rbOf n) (BitVec.ofNat 1 (bitsAt n 9 9)) (BitVec.ofNat 4 (bitsAt n 3 0)))
      else none
  | 0x20 => some (.beq (rdOf n) (raOf n) (immOf n))
  | 0x21 => some (.bne (rdOf n) (raOf n) (immOf n))
  | 0x22 => some (.blt (rdOf n) (raOf n) (immOf n))
  | 0x23 => some (.bge (rdOf n) (raOf n) (immOf n))
  | 0x24 => some (.bltu (rdOf n) (raOf n) (immOf n))
  | 0x25 => some (.bgeu (rdOf n) (raOf n) (immOf n))
  | 0x26 => some (.jal (rdOf n) (imm20Of n))
  | 0x27 => some (.jalr (rdOf n) (raOf n) (immOf n))
  | 0x30 =>
      if bitsAt n 24 0 = 0 then some (.tend)
      else none
  | 0x31 =>
      if bitsAt n 24 5 = 0 then some (.tarm (BitVec.ofNat 1 (bitsAt n 4 4)) (BitVec.ofNat 4 (bitsAt n 3 0)))
      else none
  | 0x32 =>
      if bitsAt n 9 5 = 0 then some (.tsend (rdOf n) (raOf n) (rbOf n) (BitVec.ofNat 5 (bitsAt n 4 0)))
      else none
  | 0x33 =>
      if bitsAt n 9 0 = 0 then some (.tpoll (rdOf n) (raOf n) (rbOf n))
      else none
  | 0x34 =>
      if bitsAt n 24 7 = 0 then some (.tprio (BitVec.ofNat 3 (bitsAt n 6 4)) (BitVec.ofNat 4 (bitsAt n 3 0)))
      else none
  | 0x35 => some (.sysr (rdOf n) (raOf n) (immOf n))
  | 0x36 => some (.sysw (rdOf n) (raOf n) (immOf n))
  | 0x37 =>
      if bitsAt n 24 8 = 0 then some (.qccTrap (BitVec.ofNat 8 (bitsAt n 7 0)))
      else none
  | 0x38 =>
      if bitsAt n 24 0 = 0 then some (.tret)
      else none
  | 0x39 =>
      if bitsAt n 24 0 = 0 then some (.qccFence)
      else none
  | 0x40 =>
      if bitsAt n 19 4 = 0 then some (.pat (rdOf n) (BitVec.ofNat 4 (bitsAt n 3 0)))
      else none
  | 0x41 =>
      if bitsAt n 24 20 = 0 ∧ bitsAt n 9 4 = 0 then some (.strmBindIn (raOf n) (rbOf n) (BitVec.ofNat 4 (bitsAt n 3 0)))
      else if bitsAt n 24 20 = 0 ∧ bitsAt n 9 4 = 1 then some (.strmBindOut (raOf n) (rbOf n) (BitVec.ofNat 4 (bitsAt n 3 0)))
      else none
  | 0x42 =>
      if bitsAt n 19 6 = 0 then some (.cmd (rdOf n) (BitVec.ofNat 6 (bitsAt n 5 0)))
      else if bitsAt n 24 6 = 8 then some (.cmdCancel (BitVec.ofNat 6 (bitsAt n 5 0)))
      else none
  | 0x43 =>
      if bitsAt n 19 15 = 0 ∧ bitsAt n 9 0 = 0 then some (.qccLaunch (rdOf n) (rbOf n))
      else none
  | 0x44 =>
      if bitsAt n 19 15 = 0 ∧ bitsAt n 9 0 = 0 then some (.cfgLoad (rdOf n) (rbOf n))
      else if bitsAt n 19 15 = 0 ∧ bitsAt n 9 0 = 1 then some (.cfgLoadShadow (rdOf n) (rbOf n))
      else none
  | 0x45 =>
      if bitsAt n 19 15 = 0 ∧ bitsAt n 9 0 = 0 then some (.cfgSwitch (rdOf n) (rbOf n))
      else none
  | 0x46 =>
      if bitsAt n 24 20 = 0 ∧ bitsAt n 9 0 = 0 then some (.barr (raOf n) (rbOf n))
      else none
  | 0x47 =>
      if bitsAt n 24 10 = 0 then some (.qccMark (BitVec.ofNat 10 (bitsAt n 9 0)))
      else none
  | 0x48 =>
      if bitsAt n 24 15 = 0 ∧ bitsAt n 9 0 = 0 then some (.ttLoad (rbOf n))
      else none
  | 0x49 =>
      if bitsAt n 24 15 = 0 ∧ bitsAt n 9 0 = 0 then some (.ttArm (rbOf n))
      else none
  | 0x4A =>
      if bitsAt n 8 5 ≠ 0 then none
      else if bitsAt n 9 9 = 1 then
        whenZero (bitsAt n 19 15) (.scanWload (rdOf n) (rbOf n) (BitVec.ofNat 1 (bitsAt n 4 4)) (BitVec.ofNat 1 (bitsAt n 3 3))
          (BitVec.ofNat 1 (bitsAt n 2 2)) (BitVec.ofNat 2 (bitsAt n 1 0)))
      else some (.scan (rdOf n) (raOf n) (rbOf n) (BitVec.ofNat 1 (bitsAt n 4 4)) (BitVec.ofNat 1 (bitsAt n 3 3))
          (BitVec.ofNat 1 (bitsAt n 2 2)) (BitVec.ofNat 2 (bitsAt n 1 0)))
  | 0x4B =>
      if bitsAt n 9 0 = 0 then some (.setx (rdOf n) (raOf n) (rbOf n))
      else none
  | 0x4C =>
      if bitsAt n 19 15 ≠ 0 then none
      else match bitsAt n 9 0 with
        | 0 => some (.topk (rdOf n) (rbOf n) 0#1)
        | 1 => some (.topkGroup (rdOf n) (rbOf n))
        | 2 => some (.topkCommit (rdOf n) (rbOf n))
        | 3 => some (.topk (rdOf n) (rbOf n) 1#1)
        | _ => none
  | 0x4D =>
      if bitsAt n 19 15 = 0 ∧ bitsAt n 9 0 = 0 then some (.claspReq (rdOf n) (rbOf n))
      else if bitsAt n 24 20 = 0 ∧ bitsAt n 9 0 = 1 then some (.claspRevoke (raOf n) (rbOf n))
      else none
  | 0x4E =>
      if bitsAt n 19 15 = 0 ∧ bitsAt n 9 0 = 0 then some (.plateSweep (rdOf n) (rbOf n))
      else none
  | 0x4F =>
      if bitsAt n 24 20 = 0 ∧ bitsAt n 9 0 = 0 then some (.pmTol (raOf n) (rbOf n))
      else none
  | 0x50 => partOfCfn (bitsAt n 9 0) (rdOf n) (raOf n) (rbOf n)
  | _ => none

/-- Control-core words by format (R205): op, then [24:20], [19:15], [14:10], [9:0]. -/
def numR (op : Nat) (d a b : BitVec 5) (fn : Nat) : Nat :=
  op * 2 ^ 25 + d.toNat * 2 ^ 20 + a.toNat * 2 ^ 15 + b.toNat * 2 ^ 10 + fn
/-- Format I and B: op, two registers, a 15-bit immediate. -/
def numI (op : Nat) (d a : BitVec 5) (imm : BitVec 15) : Nat :=
  op * 2 ^ 25 + d.toNat * 2 ^ 20 + a.toNat * 2 ^ 15 + imm.toNat
/-- Format J and U: op, a register, a 20-bit immediate. -/
def numJ (op : Nat) (d : BitVec 5) (imm : BitVec 20) : Nat := op * 2 ^ 25 + d.toNat * 2 ^ 20 + imm.toNat

/-- The number whose bits are a control-core instruction's word. -/
def qccNum : Instr → Option Nat
  | .aluAdd rd ra rb => some (numR 0x00 rd ra rb (0))
  | .aluSub rd ra rb => some (numR 0x00 rd ra rb (1))
  | .aluAnd rd ra rb => some (numR 0x00 rd ra rb (2))
  | .aluOr rd ra rb => some (numR 0x00 rd ra rb (3))
  | .aluXor rd ra rb => some (numR 0x00 rd ra rb (4))
  | .aluSll rd ra rb => some (numR 0x00 rd ra rb (5))
  | .aluSrl rd ra rb => some (numR 0x00 rd ra rb (6))
  | .aluSra rd ra rb => some (numR 0x00 rd ra rb (7))
  | .aluSlt rd ra rb => some (numR 0x00 rd ra rb (8))
  | .aluSltu rd ra rb => some (numR 0x00 rd ra rb (9))
  | .aluMul rd ra rb => some (numR 0x00 rd ra rb (10))
  | .aluMulh rd ra rb => some (numR 0x00 rd ra rb (11))
  | .aluMulhu rd ra rb => some (numR 0x00 rd ra rb (12))
  | .aluDiv rd ra rb => some (numR 0x00 rd ra rb (13))
  | .aluDivu rd ra rb => some (numR 0x00 rd ra rb (14))
  | .aluRem rd ra rb => some (numR 0x00 rd ra rb (15))
  | .aluRemu rd ra rb => some (numR 0x00 rd ra rb (16))
  | .aluMin rd ra rb => some (numR 0x00 rd ra rb (17))
  | .aluMax rd ra rb => some (numR 0x00 rd ra rb (18))
  | .aluMinu rd ra rb => some (numR 0x00 rd ra rb (19))
  | .aluMaxu rd ra rb => some (numR 0x00 rd ra rb (20))
  | .addi rd ra imm => some (numI 0x01 rd ra imm)
  | .andi rd ra imm => some (numI 0x02 rd ra imm)
  | .ori rd ra imm => some (numI 0x03 rd ra imm)
  | .xori rd ra imm => some (numI 0x04 rd ra imm)
  | .slli rd ra sh => some (numR 0x05 rd ra 0#5 (sh.toNat))
  | .srli rd ra sh => some (numR 0x06 rd ra 0#5 (sh.toNat))
  | .srai rd ra sh => some (numR 0x07 rd ra 0#5 (sh.toNat))
  | .slti rd ra imm => some (numI 0x08 rd ra imm)
  | .sltiu rd ra imm => some (numI 0x09 rd ra imm)
  | .lui rd imm => some (numJ 0x0A rd imm)
  | .lb rd ra imm => some (numI 0x10 rd ra imm)
  | .lbu rd ra imm => some (numI 0x11 rd ra imm)
  | .lh rd ra imm => some (numI 0x12 rd ra imm)
  | .lhu rd ra imm => some (numI 0x13 rd ra imm)
  | .lw rd ra imm => some (numI 0x14 rd ra imm)
  | .sb ra rb off => some (numI 0x15 ra rb off)
  | .sh ra rb off => some (numI 0x16 ra rb off)
  | .sw ra rb off => some (numI 0x17 ra rb off)
  | .lwg rd ra imm => some (numI 0x18 rd ra imm)
  | .swg ra rb off => some (numI 0x19 ra rb off)
  | .amo rd ra rb glob aop => some (numR 0x1A rd ra rb (glob.toNat * 512 + aop.toNat))
  | .beq ra rb off => some (numI 0x20 ra rb off)
  | .bne ra rb off => some (numI 0x21 ra rb off)
  | .blt ra rb off => some (numI 0x22 ra rb off)
  | .bge ra rb off => some (numI 0x23 ra rb off)
  | .bltu ra rb off => some (numI 0x24 ra rb off)
  | .bgeu ra rb off => some (numI 0x25 ra rb off)
  | .jal rd off => some (numJ 0x26 rd off)
  | .jalr rd ra imm => some (numI 0x27 rd ra imm)
  | .tend => some (numR 0x30 0#5 0#5 0#5 (0))
  | .tarm en chan => some (numR 0x31 0#5 0#5 0#5 (en.toNat * 16 + chan.toNat))
  | .tsend rd ra rb len => some (numR 0x32 rd ra rb (len.toNat))
  | .tpoll rd ra rb => some (numR 0x33 rd ra rb (0))
  | .tprio prio chan => some (numR 0x34 0#5 0#5 0#5 (prio.toNat * 16 + chan.toNat))
  | .sysr rd ra imm => some (numI 0x35 rd ra imm)
  | .sysw rd ra imm => some (numI 0x36 rd ra imm)
  | .qccTrap code => some (numR 0x37 0#5 0#5 0#5 (code.toNat))
  | .tret => some (numR 0x38 0#5 0#5 0#5 (0))
  | .qccFence => some (numR 0x39 0#5 0#5 0#5 (0))
  | .pat rs slot => some (numR 0x40 rs 0#5 0#5 (slot.toNat))
  | .strmBindIn rb rc slot => some (numR 0x41 0#5 rb rc (slot.toNat))
  | .strmBindOut rb rc slot => some (numR 0x41 0#5 rb rc (16 + slot.toNat))
  | .cmd rs node => some (numR 0x42 rs 0#5 0#5 (node.toNat))
  | .cmdCancel node => some (numR 0x42 0#5 0#5 0#5 (512 + node.toNat))
  | .qccLaunch rs rc => some (numR 0x43 rs 0#5 rc (0))
  | .cfgLoad rs rc => some (numR 0x44 rs 0#5 rc (0))
  | .cfgLoadShadow rs rc => some (numR 0x44 rs 0#5 rc (1))
  | .cfgSwitch rs rc => some (numR 0x45 rs 0#5 rc (0))
  | .barr rb rc => some (numR 0x46 0#5 rb rc (0))
  | .qccMark marker => some (numR 0x47 0#5 0#5 0#5 (marker.toNat))
  | .ttLoad rc => some (numR 0x48 0#5 0#5 rc (0))
  | .ttArm rc => some (numR 0x49 0#5 0#5 rc (0))
  | .scan rs rb rc dir si so form => some (numR 0x4A rs rb rc (dir.toNat * 16 + si.toNat * 8 + so.toNat * 4 + form.toNat))
  | .scanWload rs rc dir si so form => some (numR 0x4A rs 0#5 rc (512 + dir.toNat * 16 + si.toNat * 8 + so.toNat * 4 + form.toNat))
  | .setx rs rb rc => some (numR 0x4B rs rb rc (0))
  | .topk rs rc form3 => some (numR 0x4C rs 0#5 rc (form3.toNat * 3))
  | .topkGroup rs rc => some (numR 0x4C rs 0#5 rc (1))
  | .topkCommit rs rc => some (numR 0x4C rs 0#5 rc (2))
  | .claspReq rs rc => some (numR 0x4D rs 0#5 rc (0))
  | .claspRevoke rb rc => some (numR 0x4D 0#5 rb rc (1))
  | .plateSweep rs rc => some (numR 0x4E rs 0#5 rc (0))
  | .pmTol rb rc => some (numR 0x4F 0#5 rb rc (0))
  | .partCreate rs rb rc => some (numR 0x50 rs rb rc (0))
  | .partDestroy rs rb rc => some (numR 0x50 rs rb rc (1))
  | .partFmap rs rb rc => some (numR 0x50 rs rb rc (2))
  | .partChan rs rb rc => some (numR 0x50 rs rb rc (3))
  | .partPtroot rs rb rc => some (numR 0x50 rs rb rc (4))
  | .partFq rs rb rc => some (numR 0x50 rs rb rc (5))
  | .partPlate rs rb rc => some (numR 0x50 rs rb rc (6))
  | .partDest rs rb rc => some (numR 0x50 rs rb rc (7))
  | .partVf rs rb rc => some (numR 0x50 rs rb rc (8))
  | .partQuota rs rb rc => some (numR 0x50 rs rb rc (9))
  | .partBudget rs rb rc => some (numR 0x50 rs rb rc (10))
  | .partGuar rs rb rc => some (numR 0x50 rs rb rc (11))
  | .partStop rs rb rc => some (numR 0x50 rs rb rc (12))
  | .partSave rs rb rc => some (numR 0x50 rs rb rc (13))
  | .partResume rs rb rc => some (numR 0x50 rs rb rc (14))
  | .partEvent rs rb rc => some (numR 0x50 rs rb rc (15))
  | _ => none

/-- The control-core word of a control-core instruction. -/
def encodeQcc (i : Instr) : Option Word := (qccNum i).map (BitVec.ofNat 32)

/-- The fields of a press word below POP (R209). -/
def pressFieldsOf (n : Nat) : PressWord where
  ta := BitVec.ofNat 2 (bitsAt n 59 58)
  tb := BitVec.ofNat 2 (bitsAt n 57 56)
  tc := BitVec.ofNat 2 (bitsAt n 55 54)
  afmt := BitVec.ofNat 3 (bitsAt n 53 51)
  bfmt := BitVec.ofNat 3 (bitsAt n 50 48)
  tra := BitVec.ofNat 1 (bitsAt n 47 47)
  trb := BitVec.ofNat 1 (bitsAt n 46 46)
  ofmt := BitVec.ofNat 3 (bitsAt n 45 43)
  sat := BitVec.ofNat 1 (bitsAt n 42 42)
  ksm1 := BitVec.ofNat 8 (bitsAt n 41 34)
  lastn := BitVec.ofNat 5 (bitsAt n 33 29)
  del := BitVec.ofNat 4 (bitsAt n 28 25)
  didx := BitVec.ofNat 5 (bitsAt n 24 20)

/-- The number whose bits are a press word with operation `pop` (R209). -/
def pressNum (pop : Nat) (p : PressWord) : Nat :=
  pop * 2 ^ 60 + p.ta.toNat * 2 ^ 58 + p.tb.toNat * 2 ^ 56 + p.tc.toNat * 2 ^ 54 + p.afmt.toNat * 2 ^ 51
    + p.bfmt.toNat * 2 ^ 48 + p.tra.toNat * 2 ^ 47 + p.trb.toNat * 2 ^ 46 + p.ofmt.toNat * 2 ^ 43
    + p.sat.toNat * 2 ^ 42 + p.ksm1.toNat * 2 ^ 34 + p.lastn.toNat * 2 ^ 29 + p.del.toNat * 2 ^ 25
    + p.didx.toNat * 2 ^ 20

/-- The press word decoder (R209): POP 0 to 3 with reserved bits [19:0] zero. -/
noncomputable def decodePress (w : BitVec 64) : Option Instr :=
  let n := w.toNat
  if bitsAt n 19 0 ≠ 0 then none
  else match n / 2 ^ 60 with
    | 0 => some (.pmma (pressFieldsOf n))
    | 1 => some (.pmmac (pressFieldsOf n))
    | 2 => some (.pmmad (pressFieldsOf n))
    | 3 => some (.pdrain (pressFieldsOf n))
    | _ => none

/-- The press word of a Press operation. -/
def encodePress : Instr → Option (BitVec 64)
  | .pmma p => some (BitVec.ofNat 64 (pressNum 0 p))
  | .pmmac p => some (BitVec.ofNat 64 (pressNum 1 p))
  | .pmmad p => some (BitVec.ofNat 64 (pressNum 2 p))
  | .pdrain p => some (BitVec.ofNat 64 (pressNum 3 p))
  | _ => none

/-- Which of the three kinds of instruction word a word is laid out as. -/
inductive WordKind where
  | elem | qcc | press
  deriving DecidableEq, Repr

/-- The words of an instruction, with the decoder that reads them; none for an event, which has no word. -/
def encode (i : Instr) : Option (WordKind × Nat) :=
  match encodeElem i with
  | some w => some (.elem, w.toNat)
  | none => match encodeQcc i with
    | some w => some (.qcc, w.toNat)
    | none => (encodePress i).map fun w => (.press, w.toNat)

/-- A well-formed instruction: its word decodes to it, and its own fields break no rule (R195 to R209).  An event has no
word and no rule of this kind. -/
def Instr.wf (i : Instr) : Bool :=
  match i with
  | .pmma p => pressWf 0 p
  | .pmmac p => pressWf 1 p
  | .pmmad p => pressWf 2 p
  | .pdrain p => pressWf 3 p
  | .amo _ _ _ _ aop => aop.toNat ≤ 10
  | i => match elemOpcodeOf i with
    | some (opc, o) => elemWf opc o
    | none => true

/-- The instruction that the decoder of kind `k` reads from a word. -/
noncomputable def decode (k : WordKind) (n : Nat) : Option Instr :=
  match k with
  | .elem => decodeElem (BitVec.ofNat 32 n)
  | .qcc => decodeQcc (BitVec.ofNat 32 n)
  | .press => decodePress (BitVec.ofNat 64 n)

/-- Which decoder reads a word of the opcode table.  A 64-bit word is a press word.  A 32-bit word is read as an
element word where the element decoder accepts it and as a control-core word otherwise: the two maps overlap, and the
words say nothing of which unit holds them (DESIGN CHOICE, log 6). -/
def tableKind (nbits w : Nat) : WordKind :=
  if nbits > 32 then .press
  else if (decodeElem (BitVec.ofNat 32 w)).isSome then .elem else .qcc

/-- The instruction read from a word of the opcode table. -/
noncomputable def decodeTableWord (nbits w : Nat) : Option Instr := decode (tableKind nbits w) w

end Sys2Proof
end

