-- ==== Sys2Proof/Machine/Operands.lean ====
section
/-! DEFINITION. How an element firing reads its operands and forms its results (R151 to R158, R196, R197, R202, R203, R223 to
R225, R375). -/

namespace Sys2Proof.Machine

/-! ### Payloads (R147) -/

/-- Lane `i` of `w` bits of a payload. -/
def laneAt (w : Nat) (pay : BitVec 1024) (i : Nat) : Nat := pay.toNat / 2 ^ (w * i) % 2 ^ w

/-- The first `c` lanes of a payload. -/
def lanesOf (w c : Nat) (pay : BitVec 1024) : List Nat := (List.range c).map (laneAt w pay)

/-- A number whose lanes of `w` bits are the given ones. -/
def packNat (w : Nat) : List Nat → Nat
  | [] => 0
  | x :: r => x % 2 ^ w + 2 ^ w * packNat w r

/-- A payload from lanes of `w` bits. -/
def packLanes (w : Nat) (l : List Nat) : BitVec 1024 := BitVec.ofNat 1024 (packNat w l)

/-- Payload bytes of a data token (R147). -/
def payBytes (f : Fmt) (c : Nat) : Nat := 4 * ((c * fmtWidth f + 31) / 32)

/-- The bytes of payload that a token carries: none for an ordering token, 16 for poison, 8 for a switch token. -/
def Token.bytes (t : Token) : Nat :=
  if t.poison then 16 else if t.ord then (if t.wid = 0 then 0 else 8) else payBytes t.fmt (t.wid.toNat + 1)

/-- The colour of a token (R155). -/
def Token.colour (t : Token) : Nat := t.wid.toNat + 1

/-- A switch token (R234): ORD with WID 1. -/
def Token.isSwitch (t : Token) : Bool := t.ord && !t.poison && t.wid == 1

/-- The poison record of a poison token (R373). A poison predicate carries no record: its code and origin are those of the
fault as the sender formed them, kept in the payload (notes/assumptions/7.md). -/
def Token.record (t : Token) : BitVec 128 := BitVec.ofNat 128 t.pay.toNat

/-- The 128 bits of a token header (R146). -/
def Token.header (t : Token) : BitVec 128 :=
  BitVec.ofNat 128 (t.die.toNat * 2 ^ 124 + t.ctx.toNat * 2 ^ 112 + t.nest.toNat * 2 ^ 64 + t.kind.toNat * 2 ^ 62
    + t.x.toNat * 2 ^ 55 + t.y.toNat * 2 ^ 48 + t.node.toNat * 2 ^ 40 + (if t.slotR then 2 ^ 39 else 0)
    + fmtCode t.fmt * 2 ^ 36 + t.wid.toNat * 2 ^ 31 + t.plate.toNat * 2 ^ 19 + (if t.poison then 2 ^ 18 else 0)
    + (if t.ord then 2 ^ 17 else 0))

/-- A token with nothing in it but its context. -/
def Token.blank (ctx : Nat) : Token where
  net := .data
  die := 0
  ctx := BitVec.ofNat 12 ctx
  nest := 0
  kind := 0
  x := 0
  y := 0
  node := 0
  slotR := false
  fmt := .bits
  wid := 0
  plate := 0
  poison := false
  ord := false
  edge := 0
  pay := 0

/-- An ordering token (R127) of a context with a tag. -/
def Token.ordering (ctx : Nat) (nest : BitVec 48) : Token := { Token.blank ctx with nest := nest, ord := true }

/-- A BITS message or token of `c` 32-bit lanes. -/
def Token.words (ctx : Nat) (plate : Handle) (l : List Nat) : Token :=
  { Token.blank ctx with wid := BitVec.ofNat 5 (l.length - 1), plate := plate, pay := packLanes 32 l }

/-! ### The firing -/

/-- What a firing element knows of its node (R151, R156). -/
structure Fire where
  pos : Nat
  slotIx : Nat
  slot : Slot
  pair : Pair
  ctx : Nat
  part : Nat
  node : Nat
  nest : BitVec 48
  acts : List Act
  /-- the node's activation; 64 for none -/
  act : Nat
  deriving DecidableEq, Repr

/-- NEST of a pair: that of any of its tokens. -/
def Pair.nest (p : Pair) : BitVec 48 :=
  match p.opL, p.opR, p.ordL with
  | some t, _, _ => t.nest
  | _, some t, _ => t.nest
  | _, _, some t => t.nest
  | _, _, _ => 0

/-- The firing of this step, if its slot is resident. -/
def State.fire (s : State) : Option Fire :=
  match s.firing with
  | none => none
  | some g =>
    match tabGet (s.elem g.pos).slots g.slotIx with
    | none => none
    | some sl =>
      if g.pair.switch then none else
      let acts := match s.ctx? sl.ctx with | some c => c.acts | none => []
      some { pos := g.pos, slotIx := g.slotIx, slot := sl, pair := g.pair, ctx := sl.ctx, part := s.partOf sl.ctx,
             node := g.pair.node, nest := g.pair.nest, acts := acts, act := (sl.nodeAct[g.pair.node]?).getD 64 }

/-- An activation of an image by index. -/
def actAt (acts : List Act) (i : Nat) : Act :=
  (acts[i]?).getD { parent := 63, width := 0, granted := 0, declLanes := 1, lanes := 1, live := 1, recursive := false, deep := false }

/-- f0 of the firing tag (R151). -/
def Fire.f0 (f : Fire) : Nat := f.nest.toNat % 2 ^ (actAt f.acts f.act).width

/-- A field of NEST at bit `lo`, `w` bits wide, set to `v`. -/
def setField (n lo w v : Nat) : Nat := n - n / 2 ^ lo % 2 ^ w * 2 ^ lo + v % 2 ^ w * 2 ^ lo

/-- The tag action (R153): the new NEST, or none for a `setd` out of range. `a0` is lane 0 of operand A; `bn` the width of the
activation an `alloc` opens. -/
def tagAction (f : Fire) (ta a0 bn : Nat) : Option (BitVec 48) :=
  let a := actAt f.acts f.act
  let p := actAt f.acts a.parent
  let n := f.nest.toNat
  let f0 := n % 2 ^ a.width
  let r (x : Nat) : Option (BitVec 48) := some (BitVec.ofNat 48 x)
  match ta with
  | 1 => r (setField n 0 a.width ((f0 + 1) % 2 ^ a.granted))
  | 2 => r (setField n 0 a.width ((f0 + 2 ^ a.granted - 1) % 2 ^ a.granted))
  | 3 => r (setField n 0 a.width 0)
  | 4 => if a0 ≥ 2 ^ a.granted then none else r (setField n 0 a.width a0)
  | 5 => r (n * 2 ^ bn)
  | 6 => r (n / 2 ^ a.width)
  | 7 =>
    let m := n / 2 ^ a.width
    r (setField m 0 p.width ((m % 2 ^ p.width + 1) % 2 ^ p.granted))
  | 8 =>
    let f1 := n / 2 ^ a.width % 2 ^ p.width
    r (setField n a.width p.width ((f1 + 1) % 2 ^ p.granted))
  | _ => r n

/-! ### Operands (R196, R197, R223) -/

/-- Where an operand comes from. -/
inductive OpSrc where
  | slotL
  | slotR
  | lit
  | tagField
  | keep (n : Nat)
  | none
  deriving DecidableEq, Repr

/-- An operand as read: `lanes` is its colour, none when it supplies every lane. -/
structure Opnd where
  src : OpSrc
  fmt : Fmt
  lanes : Option Nat
  pay : BitVec 1024
  plate : Handle
  poison : Bool
  ord : Bool
  record : BitVec 128
  deriving DecidableEq, Repr

/-- The source a select of SA or SB names (R196). -/
def srcOf (sel : BitVec 3) : OpSrc :=
  match sel.toNat with
  | 0 => .slotL | 1 => .slotR | 2 => .lit | 3 => .tagField | 4 => .keep 0 | 5 => .keep 1 | _ => .none

/-- The source that CSEL names (R223). -/
def csrcOf (sel : Nat) : OpSrc :=
  match sel with
  | 0 => .slotL | 1 => .slotR | 2 => .lit | 3 => .tagField | n => .keep (n - 4)

/-- One value in every lane. -/
def splat (w v : Nat) : BitVec 1024 := packLanes w (List.replicate (1024 / w) v)

/-- An operand that holds a value in every lane, with handle 0. -/
def Opnd.const (src : OpSrc) (f : Fmt) (v : Nat) : Opnd :=
  { src := src, fmt := f, lanes := Option.none, pay := splat (fmtWidth f) v, plate := 0, poison := false, ord := false, record := 0 }

/-- A token as an operand. -/
def Opnd.ofToken (src : OpSrc) (t : Token) : Opnd :=
  { src := src, fmt := t.fmt, lanes := some t.colour, pay := t.pay, plate := t.plate, poison := t.poison, ord := t.ord,
    record := t.record }

/-- A keep register as an operand; one that has no value reads as zero in the operand's format (R197). -/
def Opnd.ofKeep (n : Nat) (want : Fmt) (k : Keep) : Opnd :=
  if k.valid then
    { src := .keep n, fmt := k.fmt, lanes := some (k.wid.toNat + 1), pay := k.pay, plate := k.plate, poison := k.poison,
      ord := false, record := BitVec.ofNat 128 k.pay.toNat }
  else Opnd.const (.keep n) want 0

/-- A keep register of a slot. -/
def Slot.keep (sl : Slot) (n : Nat) : Keep := (sl.keeps[n]?).getD default

/-- A literal word of a slot. -/
def Slot.lit (sl : Slot) (n : Nat) : Nat := match sl.lits[n]? with | some w => w.toNat | none => 0

/-- Reads an operand: `lx` the literal it would take, `want` the format the opcode reads there (R197, R474). -/
def Fire.read (f : Fire) (src : OpSrc) (lx : Nat) (want : Fmt) : Opnd :=
  match src with
  | .slotL => match f.pair.opL with | some t => Opnd.ofToken .slotL t | none => Opnd.const .none want 0
  | .slotR => match f.pair.opR with | some t => Opnd.ofToken .slotR t | none => Opnd.const .none want 0
  | .lit => Opnd.const .lit want (f.slot.lit lx % 2 ^ fmtWidth want)
  | .tagField => Opnd.const .tagField .i32 f.f0
  | .keep n => Opnd.ofKeep n want (f.slot.keep n)
  | .none => Opnd.const .none want 0

def Opnd.isTok (o : Opnd) : Bool := o.src == .slotL || o.src == .slotR

/-- Lane `i` of an operand. -/
def Opnd.lane (o : Opnd) (i : Nat) : Nat := if o.ord then 0 else laneAt (fmtWidth o.fmt) o.pay i

/-- The colour of a firing: the lane count of its first token operand that is no ordering token, or 1 (R224). -/
def colourOf : List Opnd → Nat
  | [] => 1
  | o :: r => if o.isTok && !o.ord then o.lanes.getD 1 else colourOf r

/-- Whether an operand has colour `c`; ordering tokens and values for every lane do (R224). -/
def Opnd.fits (o : Opnd) (c : Nat) : Bool :=
  o.ord || o.poison || (match o.lanes with | some n => n == c | none => true)

/-- Whether an operand from a keep register has one of the formats that the opcode accepts (R224). -/
def Opnd.accepts (o : Opnd) (fs : List Fmt) : Bool :=
  match o.src with
  | .keep _ => fs.contains o.fmt
  | _ => true

/-- Every format: the set of an opcode that fires on any. -/
def allFmts : List Fmt := [.fp32, .bf16, .e4m3, .e5m2, .q4, .q3, .i32, .bits]

/-- Tokens of the pair and keep registers read, in the order of R375: L, R, then keep registers in rising number. -/
def Fire.consumed (f : Fire) (ops : List Opnd) : List Opnd :=
  let tok (src : OpSrc) (t : Option Token) : List Opnd := match t with | some t => [Opnd.ofToken src t] | none => []
  let keepN (n : Nat) : List Opnd :=
    match ops.find? (fun o => o.src == .keep n) with | some o => [o] | none => []
  tok .slotL f.pair.ordL ++ tok .slotL f.pair.opL ++ tok .slotR f.pair.opR ++ keepN 0 ++ keepN 1 ++ keepN 2 ++ keepN 3

/-! ### Results (R153, R158, R202, R203, R224) -/

/-- The form of a result token. -/
structure Shape where
  net : Net
  fmt : Fmt
  lanes : Nat
  ord : Bool
  deriving DecidableEq, Repr

/-- A data result of a format and colour. -/
def Shape.data (f : Fmt) (c : Nat) : Shape := { net := .data, fmt := f, lanes := c, ord := false }

/-- A predicate result of a colour (R148). -/
def Shape.pred (c : Nat) : Shape := { net := .pred, fmt := .bits, lanes := c, ord := false }

/-- A token passed on with the shape of operand A. -/
def Shape.like (a : Opnd) (c : Nat) : Shape := { net := .data, fmt := a.fmt, lanes := a.lanes.getD c, ord := a.ord }

/-- A result token without its route. -/
def resultToken (ctx : Nat) (nest : BitVec 48) (sh : Shape) (h : Handle) (pay : BitVec 1024) : Token :=
  { Token.blank ctx with
    net := sh.net, nest := nest, fmt := sh.fmt, wid := BitVec.ofNat 5 (sh.lanes - 1), ord := sh.ord,
    plate := if sh.ord then 0 else h, pay := pay }

/-- The poison token that replaces a result (R373). -/
def poisonToken (ctx : Nat) (nest : BitVec 48) (sh : Shape) (h : Handle) (r : BitVec 128) : Token :=
  { Token.blank ctx with
    net := sh.net, nest := nest, fmt := sh.fmt, wid := BitVec.ofNat 5 (sh.lanes - 1), ord := sh.ord, poison := true,
    plate := h, pay := BitVec.ofNat 1024 r.toNat }

/-- The destination entry and attribute word at an index (R202). -/
def Slot.dest (sl : Slot) (d : Nat) : Word × Word := (sl.dests[d]?).getD (0, 0)

/-- Whether an entry writes a keep register (R203). -/
def destKeep (a : Word) : Option Nat := if bitF a.toNat 17 17 = 1 then some (bitF a.toNat 16 15) else none

/-- The element with a slot changed. -/
def Elem.modSlot (e : Elem) (i : Nat) (g : Slot → Slot) : Elem :=
  match tabGet e.slots i with
  | some sl => { e with slots := tabPut e.slots i (g sl) }
  | none => e

def State.modElem (s : State) (p : Nat) (g : Elem → Elem) : State := s.setElem p (g (s.elem p))

/-- One result leaves by one destination: into a keep register, or into the output stage, counted (R158, R203, R237). -/
def State.emit1 (s : State) (f : Fire) (d : Nat) (t : Token) : State :=
  if d = 31 then s
  else
    let sl := match tabGet (s.elem f.pos).slots f.slotIx with | some sl => sl | none => f.slot
    match destKeep (sl.dest d).2 with
    | some k =>
      s.modElem f.pos fun e => e.modSlot f.slotIx fun sl =>
        { sl with keeps := listMod sl.keeps k fun _ =>
            { valid := true, fmt := t.fmt, wid := t.wid, pay := t.pay, plate := t.plate, poison := t.poison } }
    | none =>
      s.modElem f.pos fun e =>
        let e := e.modSlot f.slotIx fun sl =>
          if t.isSwitch then sl else { sl with sent := tabAdd sl.sent (32 * f.node + d) 1 }
        { e with out := e.out ++ [{ slotIx := f.slotIx, node := f.node, dest := d, tok := t }] }

/-- Results leave by several destinations (R158). -/
def State.emitAll (s : State) (f : Fire) : List (Nat × Token) → State
  | [] => s
  | (d, t) :: r => (s.emit1 f d t).emitAll f r

/-- The list without the first element that a test accepts. -/
def dropFirst {α : Type} (p : α → Bool) : List α → List α
  | [] => []
  | x :: r => if p x then r else x :: dropFirst p r

/-- The issue is done: the pair leaves the ready FIFO and the arbiter's turn is counted (R157, R368). -/
def State.issued (s : State) (f : Fire) : State :=
  let s := s.modElem f.pos fun e =>
    let e := { e with fifo := dropFirst (fun q => q.1 == f.slotIx && q.2 == f.pair) e.fifo }
    let e := if e.cur = f.slotIx ∧ e.used < f.slot.weight then { e with used := e.used + 1 }
             else { e with cur := f.slotIx, used := 1 }
    e.modSlot f.slotIx fun sl => { sl with lastIssue := s.tick }
  { s.charge (dieOf f.pos) f.part 1 1 with firing := none }

/-- The pair stays in its place: it gives up its turn (R157, R169). -/
def State.yieldTurn (s : State) : State := { s with firing := none }

/-- How the handle of a firing's results is formed. -/
inductive HandleRule where
  /-- union of everything consumed (R81) -/
  | all
  /-- the handle of the token passed on -/
  | pass (h : Handle)

/-- Forms the handle of the results (R81): a union that needs the Spine makes the firing wait. -/
def State.resultHandle (s : State) (f : Fire) (ops : List Opnd) (hr : HandleRule) : UnionRes :=
  match hr with
  | .pass h => .ok h
  | .all => s.unionAll 0 ((f.consumed ops).map (·.plate))

/-- What a firing comes to when none of its operands is poison: a fresh fault of a code, or results by destination without
their handles (R224, R225). -/
inductive Effect where
  | fault (code detail : Nat)
  | toks (l : List (Nat × Shape × BitVec 1024))

/-- The common course of a firing that emits (R81, R89, R153, R224, R225, R375). `dests` are the destinations that poison
would take; `sh` the shape of the token that a poison replaces on each. `pre` is done to the state when the instruction
performs its own effect and when it emits poison. -/
def State.runFire (s : State) (f : Fire) (o : ElemOps) (ops : List Opnd) (hr : HandleRule) (sh : Shape) (shY : Shape)
    (a0 bn : Nat) (chk : Option Nat) (eff : Effect) : State :=
  let dests := [(o.dx.toNat, sh), (o.dy.toNat, shY)]
  let con := f.consumed ops
  let poisonAll (s : State) (h : Handle) (r : BitVec 128) : State :=
    let nest := (tagAction f o.ta.toNat 0 bn).getD f.nest
    (s.issued f).emitAll f (dests.map fun d => (d.1, poisonToken f.ctx nest d.2 h r))
  let fresh (s : State) (h : Handle) (code detail : Nat) : State :=
    poisonAll s h (s.nodeRec code f.ctx f.pos f.node detail)
  match con.find? (·.poison) with
  | some p =>
    match s.unionAll 0 (con.map (·.plate)) with
    | .ok h => poisonAll s h p.record
    | .ovf ha _ => poisonAll s ha p.record
    | .wait ha hb => (s.askUnion ha hb f.ctx f.part).yieldTurn
  | none =>
    match s.resultHandle f ops hr with
    | .wait ha hb => (s.askUnion ha hb f.ctx f.part).yieldTurn
    | .ovf ha hb =>
      match chk with
      | some code => fresh s ha code 0
      | none => fresh (s.plateOvf ha hb f.ctx f.part) ha (s.ovfCode ha hb) 0
    | .ok h =>
      match chk with
      | some code => fresh s h code 0
      | none =>
        match tagAction f o.ta.toNat a0 bn with
        | none => fresh s h 0x62 0
        | some nest =>
          match eff with
          | .fault code detail => fresh s h code detail
          | .toks l => (s.issued f).emitAll f (l.map fun t => (t.1, resultToken f.ctx nest t.2.1 h t.2.2))

/-- The colour and keep-register checks of R224: WIDMIS (0x66), then FMTMISS (0x70). -/
def stdCheck (c : Nat) (ops : List (Opnd × List Fmt)) : Option Nat :=
  if ops.any (fun q => !q.1.fits c) then some 0x66
  else if ops.any (fun q => !q.1.accepts q.2) then some 0x70
  else none

/-- The literal index of data when the instruction takes a control word (R200). -/
def dataLit (o : ElemOps) (cw : Bool) : Nat := if cw then o.lx.toNat + 1 else o.lx.toNat

/-- The control word (R200). -/
def Fire.cw (f : Fire) (o : ElemOps) : Nat := f.slot.lit o.lx.toNat

/-- The format in which a literal or an unwritten keep register is read: the only one that the opcode fires on, or else that
of the first token operand, or else BITS (R197, R474). -/
def Fire.want (f : Fire) (fs : List Fmt) (srcs : List OpSrc) : Fmt :=
  match fs with
  | [x] => x
  | _ =>
    let t (src : OpSrc) : Option Token := match src with | .slotL => f.pair.opL | .slotR => f.pair.opR | _ => none
    match (srcs.filterMap t).find? (fun t => t.net == .data && !t.ord) with
    | some t => t.fmt
    | none => .bits

/-- Predicate bit `i` of an operand; an ordering token reads as zero bits (R127, R148). -/
def Opnd.bit (o : Opnd) (i : Nat) : Bool := !o.ord && o.pay.getLsbD i

/-- The course of a lane-wise instruction of one to three operands that read the formats `fs`; `res` gives the lanes of the
result, of format `rfmt A`, from those of the operands (R223, R224). `chk` is a check of its own, after those of R224. -/
def State.lanewise (s : State) (o : ElemOps) (fs : List Fmt) (useB cw useC : Bool) (rfmt : Opnd → Fmt)
    (chk : Opnd → Opnd → Option Nat) (res : Fire → Opnd → List Nat → List Nat → List Nat → List Nat) : Res :=
  match s.fire with
  | none => idle s
  | some f =>
    let sb := if useB then srcOf o.sb else .none
    let sc := if useC then csrcOf (bitF (f.cw o) 31 29) else .none
    let want := f.want fs [srcOf o.sa, sb, sc]
    let a := f.read (srcOf o.sa) (dataLit o cw) want
    let b := f.read sb (dataLit o cw) want
    let c := f.read sc (dataLit o cw) want
    let n := colourOf [a, b, c]
    let rd (x : Opnd) : List Nat := (List.range n).map x.lane
    let sh := Shape.data (rfmt a) n
    let pay := packLanes (fmtWidth (rfmt a)) (res f a (rd a) (rd b) (rd c))
    let ck := match stdCheck n [(a, fs), (b, fs), (c, fs)] with | some k => some k | none => chk a c
    .next (s.runFire f o [a, b, c] .all sh sh (a.lane 0) 0 ck (.toks [(o.dx.toNat, sh, pay), (o.dy.toNat, sh, pay)]))

/-- A lane-wise instruction of two operands. -/
def State.lanewise2 (s : State) (o : ElemOps) (fs : List Fmt) (rfmt : Opnd → Fmt) (g : Nat → Nat → Nat) : Res :=
  s.lanewise o fs true false false rfmt (fun _ _ => none) fun _ _ a b _ => List.zipWith g a b

/-- A lane-wise instruction of one operand. -/
def State.lanewise1 (s : State) (o : ElemOps) (fs : List Fmt) (rfmt : Opnd → Fmt) (g : Nat → Nat) : Res :=
  s.lanewise o fs false false false rfmt (fun _ _ => none) fun _ _ a _ _ => a.map g

/-- A lane-wise comparison of two operands: a predicate token whose bit `i` compares lane `i` (R239). -/
def State.compare (s : State) (o : ElemOps) (fs : List Fmt) (g : Bool → Nat → Nat → Bool) : Res :=
  match s.fire with
  | none => idle s
  | some f =>
    let want := f.want fs [srcOf o.sa, srcOf o.sb]
    let a := f.read (srcOf o.sa) (dataLit o false) want
    let b := f.read (srcOf o.sb) (dataLit o false) want
    let n := colourOf [a, b]
    let sh := Shape.pred n
    let bits := (List.range n).map fun i => if g f.slot.ftz (a.lane i) (b.lane i) then 1 else 0
    let pay := packLanes 1 bits
    .next (s.runFire f o [a, b] .all sh sh (a.lane 0) 0 (stdCheck n [(a, fs), (b, fs)])
      (.toks [(o.dx.toNat, sh, pay), (o.dy.toNat, sh, pay)]))

end Sys2Proof.Machine
end

