-- ==== Sys2Proof/Machine/Messages.lean ====
section
/-! DEFINITION. Channels of the control cores and the messages that enter them (R276, R376, R378, R380). -/

namespace Sys2Proof.Machine

/-- Messages in a channel FIFO. -/
def Qcc.chan (q : Qcc) (n : Nat) : List Token := (tabGet q.chans n).getD []
def Qcc.setChan (q : Qcc) (n : Nat) (l : List Token) : Qcc :=
  { q with chans := match l with | [] => tabDel q.chans n | l => tabPut q.chans n l }

/-- Capacity of a channel (R274). -/
def chanCap (n : Nat) : Nat := if n = 15 then 32 else 8

/-- A message enters a channel, if there is room. The message of a running task still stands in the FIFO (R279). -/
def State.pushChan (s : State) (q n : Nat) (t : Token) : Option State :=
  let k := s.qcc q
  if (k.chan n).length < chanCap n then
    some (s.setQcc q (k.setChan n (k.chan n ++ [{ t with kind := 2, node := BitVec.ofNat 8 n }])))
  else none

/-- A poison message is discarded at its channel, which is a sink (R376). -/
def State.sinkChan (s : State) (t : Token) : State := s.sink t.ctx.toNat t.record 0 0xFF t.plate

/-- The quire that a partition's logical folio and quire name, when its folio map entry is mapped (R16). -/
def State.quireOfRef (s : State) (part lf quire : Nat) : Option Nat :=
  match s.mapEntry part lf with
  | some e => if e.st = .mapped then some (e.gfolio * 4 + quire % 4) else none
  | none => none

/-- The quire and whether a task is bound to ch15: the trap QCC of a context (R378). -/
def trapTask : List TaskRec → Option Nat → Option Nat
  | [], b => b
  | t :: r, b =>
    if t.chan = 15 then trapTask r (match b with | some p => some (min p t.pos) | none => some t.pos) else trapTask r b

/-- The trap QCC of a context as a physical quire (R378). -/
def State.trapQcc (s : State) (ctx : Nat) : Option Nat :=
  match s.ctx? ctx with
  | none => none
  | some c =>
    match tabGet s.images c.image with
    | none => none
    | some im =>
      match trapTask im.tasks none with
      | none => none
      | some p => match s.physOf c.part p with | some q => some (quireOf q) | none => none

/-- Lanes 4 to 7 of a trap message (R378). -/
def trapEnvelope (m : TrapMsg) : Nat :=
  m.kind % 256 * 2 ^ 120 + m.spos % 16384 * 2 ^ 106 + m.snode % 256 * 2 ^ 98 + m.count % 2 ^ 32 * 2 ^ 32

/-- A trap message as a token (R378). -/
def trapToken (m : TrapMsg) : Token :=
  { Token.blank m.ctx with
    kind := 2, node := 15, wid := 7, plate := m.plate,
    pay := BitVec.ofNat 1024 (m.record.toNat + trapEnvelope m * 2 ^ 128) }

/-- A trap message on its way to a delivery queue (R378). The message of an `exit` that consumed poison is `kept`: it
outlives its context (R270; notes/assumptions/51.md). -/
def TrapMsg.delivery (m : TrapMsg) (vf dq : Nat) (kept : Bool) : Delivery :=
  { vf := vf, queue := dq, tok := { trapToken m with kind := 3, node := BitVec.ofNat 8 dq },
    ctx := if kept then 4096 else m.ctx, pos := 0, node := if kept then 256 else 0xFF, report := kept }

/-- Whether the records of two messages of one KIND agree in the fields of R380. -/
def trapAgrees (kind : Nat) (a b : Nat) : Bool :=
  match kind with
  | 1 | 5 | 9 => a / 2 ^ 86 == b / 2 ^ 86
  | 2 => a / 2 ^ 94 == b / 2 ^ 94 && bitF a 91 76 == bitF b 91 76
  | 3 => bitF a 127 118 == bitF b 127 118 && bitF a 115 84 == bitF b 115 84
  | 4 => a / 2 ^ 80 == b / 2 ^ 80
  | 8 => a % 2 ^ 96 == b % 2 ^ 96
  | _ => a == b

/-- Whether a message in ch15 takes a new one into its COUNT (R380). -/
def trapMerges (m : TrapMsg) (t : Token) : Bool :=
  bitF t.pay.toNat 255 248 == m.kind && trapAgrees m.kind m.record.toNat (t.pay.toNat % 2 ^ 128)

/-- The message with COUNT raised. -/
def trapCount (t : Token) (n : Nat) : Token :=
  { t with pay := BitVec.ofNat 1024 (t.pay.toNat - bitF t.pay.toNat 191 160 * 2 ^ 160
      + (bitF t.pay.toNat 191 160 + n) % 2 ^ 32 * 2 ^ 160) }

end Sys2Proof.Machine
end

