-- ==== Sys2Proof/Machine/Residency.lean ====
section
/-! DEFINITION. Timetables as accesses see them: markers, required plots, schedule misses and the miss lists (R104 to R117). -/

namespace Sys2Proof.Machine

/-- The home die of a context: the one that holds its logical folio 0 (R108). -/
def State.homeDie (s : State) (ctx : Nat) : Nat :=
  match s.mapEntry (s.partOf ctx) 0 with | some e => e.gfolio / 16 | none => 0

/-- The timetable of a context at its home Barrow. -/
def State.timetable (s : State) (ctx : Nat) : Option Timetable :=
  (s.barrowOf (s.homeDie ctx)).tables.find? fun t => t.ctx == ctx

/-- The home Barrow's timetable of a context changed. -/
def State.modTable (s : State) (ctx : Nat) (g : Timetable → Timetable) : State :=
  let d := s.homeDie ctx
  let b := s.barrowOf d
  s.setBarrow d { b with tables := b.tables.map fun t => if t.ctx = ctx then g t else t }

/-- Arity of a marker in a context's image (R104). -/
def State.arity (s : State) (ctx marker : Nat) : Nat :=
  match s.ctx? ctx with
  | none => 0
  | some c =>
    match tabGet s.images c.image with
    | none => 0
    | some im => match im.markers.find? (fun m => m.1 == marker) with | some m => m.2 | none => 0

/-- Whether a marker is reached (R109). -/
def State.reached (s : State) (t : Timetable) (marker : Nat) : Bool :=
  t.armed && tabNum t.counts marker == s.arity t.ctx marker

/-- The first logical plot of an entry's T0 range (R106). -/
def TtEntry.plot0 (e : TtEntry) : Nat := (if e.action = .evict then e.saddr else e.daddr) / 4096

def TtEntry.covers (e : TtEntry) (p : Nat) : Bool := decide (e.plot0 ≤ p) && decide (p < e.plot0 + e.length)

/-- The latest covering fetch whose DEADLINE is reached, from an index down (R114). -/
def State.coveringFetch (s : State) (t : Timetable) (p : Nat) : Nat → Option Nat
  | 0 => none
  | i + 1 =>
    match t.entries[i]? with
    | some e => if e.covers p && e.action == .fetch && s.reached t e.deadline then some i else s.coveringFetch t p i
    | none => s.coveringFetch t p i

/-- `required(p)` (R114): the covering fetch, when the plot is required. -/
def State.required (s : State) (ctx p : Nat) : Option Nat :=
  match s.timetable ctx with
  | none => none
  | some t =>
    match s.coveringFetch t p t.entries.length with
    | none => none
    | some f =>
      if (t.entries.drop (f + 1)).any (fun e =>
          e.covers p && (e.action == .evict || e.action == .drop) && s.reached t e.marker) then none
      else some f

/-- Miss mode of a context's image (R219): 0 W; 1 P; 2 no timetable. -/
def State.missMode (s : State) (ctx : Nat) : Nat :=
  match s.ctx? ctx with
  | some c => match tabGet s.images c.image with | some im => im.mode | none => 2
  | none => 2

/-- State of an entry. -/
def Timetable.entrySt (t : Timetable) (i : Nat) : EntrySt := (tabGet t.st i).getD .notStarted

def estCode : EntrySt → Nat
  | .notStarted | .ready => 0
  | .running => 1
  | .done => 2
  | .failed _ => 3

/-- The die that holds a logical plot of a context. -/
def State.plotDie (s : State) (ctx p : Nat) : Nat :=
  match s.mapEntry (s.partOf ctx) (p / 4096) with | some e => e.gfolio / 16 | none => 0

/-- The physical number of a logical plot of a partition (R19). -/
def State.physPlot (s : State) (part p : Nat) : Option Nat :=
  match s.mapEntry part (p / 4096) with
  | some e => if e.st = .mapped then some (e.gfolio * 4096 + p % 4096) else none
  | none => none

/-- An entry is handed to its executing Barrows: one part for each die that holds plots of its T0 range (R110). `ahead` puts
it before every other ready entry (R117). -/
def State.handEntry (s : State) (ctx i : Nat) (plots : List Nat) (ahead : Bool) : Nat → State
  | 0 => s
  | d + 1 =>
    let mine := plots.filter fun p => s.plotDie ctx p == d
    let s := if mine.isEmpty then s
      else
        let b := s.barrowOf d
        let r : Running := { ctx := ctx, entry := i, started := false, ahead := ahead, plots := mine, failed := none,
                             parked := none, handle := 0 }
        s.setBarrow d { b with running := b.running ++ [r] }
    s.handEntry ctx i plots ahead d

/-- All logical plots of an entry. -/
def TtEntry.plots (e : TtEntry) : List Nat := (List.range e.length).map fun i => e.plot0 + i

/-- What the Barrow does with the covering fetch of a miss (R117). -/
def State.missFetch (s : State) (ctx f p : Nat) : State :=
  match s.timetable ctx with
  | none => s
  | some t =>
    match t.entries[f]?, t.entrySt f with
    | some e, .notStarted =>
      let s := s.modTable ctx fun t => { t with st := tabPut t.st f .ready, handoff := t.handoff.filter (· != f) }
      s.handEntry ctx f e.plots true 16
    | some e, .ready =>
      if t.handoff.contains f then
        let s := s.modTable ctx fun t => { t with handoff := t.handoff.filter (· != f) }
        s.handEntry ctx f e.plots true 16
      else
        let up (b : Barrow) : Barrow := { b with running := b.running.map fun r =>
          if r.ctx = ctx ∧ r.entry = f ∧ !r.started then { r with ahead := true } else r }
        { s with barrow := s.barrow.map fun q => (q.1, up q.2) }
    | some _, .done => s.handEntry ctx f [p] true 16
    | _, _ => s

/-- The record of a schedule-miss message (R116). -/
def missRecord (mode kind ctx p gen marker entry est : Nat) : BitVec 128 :=
  BitVec.ofNat 128 (0x50 * 2 ^ 120 + mode % 4 * 2 ^ 118 + kind % 4 * 2 ^ 116 + ctx % 4096 * 2 ^ 104 + p % 2 ^ 20 * 2 ^ 84
    + gen % 65536 * 2 ^ 68 + marker % 1024 * 2 ^ 58 + entry % 8192 * 2 ^ 45 + est % 4 * 2 ^ 43)

/-- What an access that finds RES = 0 comes to (R115). -/
inductive MissRes where
  | notres
  /-- a schedule miss in mode P, or one whose covering fetch has failed with a code -/
  | ends (code : Nat)
  /-- a schedule miss in mode W: the access may attach or wait -/
  | waits
  deriving DecidableEq, Repr

/-- The miss list entry of a plot. -/
def State.missPlot (s : State) (ctx p : Nat) : Option MissPlot :=
  (s.barrowOf (s.plotDie ctx p)).misses.find? fun m => m.ctx == ctx && m.lplot == p

/-- An access that finds RES = 0 on logical plot `p` (R115 to R117): the message, and the covering fetch in mode W. The
home Barrow keeps the miss in its list even when nothing attaches. -/
def State.miss (s : State) (ctx p kind : Nat) : MissRes × State :=
  match s.required ctx p with
  | none => (.notres, s)
  | some f =>
    match s.timetable ctx with
    | none => (.notres, s)
    | some t =>
      let e := (t.entries[f]?).getD default
      let gen := match s.physPlot (s.partOf ctx) p with | some n => (s.plot n).gen.toNat | none => 0
      let r := missRecord (s.missMode ctx) kind ctx p gen e.deadline f (estCode (t.entrySt f))
      if s.missMode ctx = 0 then
        match t.entrySt f with
        | .failed code => (.ends code, s.sendTrap ctx 3 r 0 0xFF 0)
        | _ =>
          match s.missPlot ctx p with
          | some _ => (.waits, s)
          | none =>
            let d := s.plotDie ctx p
            let b := s.barrowOf d
            if b.misses.length ≥ 256 then (.waits, s)
            else
              let s := s.setBarrow d { b with misses := b.misses ++ [{ ctx := ctx, lplot := p, accs := [] }] }
              (.waits, (s.sendTrap ctx 3 r 0 0xFF 0).missFetch ctx f p)
      else (.ends 0x50, s.sendTrap ctx 3 r 0 0xFF 0)

end Sys2Proof.Machine
end

