-- ==== Sys2Proof/Machine/Translate.lean ====
section
/-! DEFINITION. Page tables, walks, cached translations, fault records and the page plate map (R60 to R74, R83). -/

namespace Sys2Proof.Machine

/-! ### Page table entries (R60 to R65) -/

/-- Index of a VA at a level (R60). -/
def ptIndex (lvl va : Nat) : Nat :=
  match lvl with
  | 0 => bitF va 55 43 | 1 => bitF va 42 32 | 2 => bitF va 31 21 | _ => bitF va 20 16

/-- Size of a table at a level (R60). -/
def ptSize (lvl : Nat) : Nat :=
  match lvl with | 0 => 65536 | 1 => 16384 | 2 => 16384 | _ => 256

/-- The target that a VA's region asks for (R64). -/
def regionTarget (va : Nat) : Nat := if va ≥ 2 ^ 55 then 2 else if va ≥ 2 ^ 54 then 1 else 0

/-- Whether a leaf permits an access kind: 0 load; 1 store; 2 atomic (R64). -/
def ptPermits (e kind : Nat) : Bool :=
  let r := bitF e 2 2 == 1
  let w := bitF e 3 3 == 1
  match kind with
  | 0 => r
  | 1 => w
  | _ => r && w && bitF e 4 4 == 1

/-- The address of an access in the page that a leaf maps (R64). -/
def ptAddr (e lvl va : Nat) : Nat :=
  if lvl = 3 then bitF e 45 16 * 65536 + va % 65536 else bitF e 45 21 * 2 ^ 21 + va % 2 ^ 21

/-- What one table read of a walk comes to: the base of the next table, a leaf, or a fault with the entry and whether it is
recoverable (R64, R70). -/
inductive WStep where
  | next (base : Nat)
  | leaf (pte e lvl : Nat)
  | fault (code lvl e : Nat) (rcv : Bool)
  deriving DecidableEq, Repr

/-- One table read (R64). -/
def State.walkRead (s : State) (lvl base va kind : Nat) : WStep :=
  let a := base + 8 * ptIndex lvl va
  let e := memRead s.hbm a 8
  let rcv := bitF e 5 5 == 1
  if s.retired.contains (.chan (a / 2 ^ 31)) then .fault 0xE1 lvl 0 false
  else if s.uncIn .hbm a 8 then .fault 0x34 lvl 0 false
  else if bitF e 63 63 = 0 then .fault 0x30 lvl e rcv
  else if bitF e 62 62 = 0 then
    let nx := bitF e 39 8 * 256
    if lvl ≥ 3 ∨ bitF e 61 40 ≠ 0 ∨ bitF e 7 0 ≠ 0 ∨ nx % ptSize (lvl + 1) ≠ 0 then .fault 0x32 lvl e false else .next nx
  else if lvl < 2 ∨ bitF e 15 8 ≠ 0 ∨ bitF e 1 0 ≠ 0 then .fault 0x32 lvl e false
  else if lvl = 2 ∧ bitF e 20 16 ≠ 0 then .fault 0x32 lvl e false
  else if bitF e 61 60 ≠ regionTarget va then .fault 0x33 lvl e false
  else if bitF e 61 60 ≠ 1 ∧ (bitF e 45 40 ≠ 0 ∨ bitF e 30 16 ≥ 0x6000) then .fault 0x33 lvl e false
  else if !ptPermits e kind then .fault 0x31 lvl e rcv
  else .leaf a e lvl

/-- A walk from a level and table base on: at most `n` table reads (R64). -/
def State.walkFrom (s : State) (va kind : Nat) : Nat → Nat → Nat → WStep
  | 0, _, _ => .fault 0x32 3 0 false
  | n + 1, lvl, base =>
    match s.walkRead lvl base va kind with
    | .next b => s.walkFrom va kind n (lvl + 1) b
    | r => r

/-- A and D set in a leaf as an access of a kind sets them (R65). -/
def ptTouched (e kind : Nat) : Nat := (e ||| 2 ^ 6) ||| (if kind = 0 then 0 else 2 ^ 7)

/-- The page table root of a partition (R60). -/
def State.ptroot (s : State) (part : Nat) : Nat := match s.part? part with | some p => p.ptroot | none => 0

/-! ### Cached translations (R66 to R69) -/

def State.cachedOn (s : State) (die : Nat) : List Cached := (tabGet s.cached die).getD []

def Cached.covers (c : Cached) (part va : Nat) : Bool :=
  c.part == part && (if c.big then c.va / 2 ^ 21 == va / 2 ^ 21 else c.va / 65536 == va / 65536)

/-- Whether two VA ranges given as base and size meet. -/
def overlaps (a n b m : Nat) : Bool := decide (a < b + m) && decide (b < a + n)

/-- A copy enters a die's caches in place of any copy for the same page. -/
def State.cacheLeaf (s : State) (die part va pte e lvl : Nat) : State :=
  let c : Cached := { part := part, va := va, big := lvl == 2, entry := BitVec.ofNat 64 e, pte := pte }
  { s with cached := tabPut s.cached die (c :: (s.cachedOn die).filter fun o => !(o.covers part va)) }

/-- Every cached copy of a leaf changed. -/
def State.modCached (s : State) (pte : Nat) (g : Nat → Nat) : State :=
  { s with cached := s.cached.map fun q =>
      (q.1, q.2.map fun c => if c.pte = pte then { c with entry := BitVec.ofNat 64 (g c.entry.toNat) } else c) }

/-- A leaf's own word and every cached copy changed. -/
def State.modLeaf (s : State) (pte : Nat) (g : Nat → Nat) : State :=
  { s with hbm := memWrite s.hbm pte 8 (g (memRead s.hbm pte 8)) }.modCached pte g

/-- The leaf that a die's caches give for a VA and kind, if they still hold one that permits it (R66). -/
def State.cacheHit (s : State) (die part va kind : Nat) : Option Cached :=
  if Config.cacheKeeps die s.tick then
    (s.cachedOn die).find? fun c => c.covers part va && ptPermits c.entry.toNat kind
  else none

/-- Where a translated access goes (R63, R26). -/
def State.leafPlace (s : State) (va pte e : Nat) (big : Bool) : Place :=
  let pa := ptAddr e (if big then 2 else 3) va
  match bitF e 61 60 with
  | 0 => .hbm pa pte big
  | 1 => .host pa
  | _ => if va / 2 ^ 43 % 4096 = s.accel then .hbm pa pte big else .peer (va / 2 ^ 43 % 4096) pa

/-! ### The page plate map (R83) -/

def State.mapHandle (s : State) (pa : Nat) : Handle := (tabGet s.pageMap (pa / 65536)).getD 0

/-- The granules of a page: one of 64 KiB, or the 32 of a page of 2 MiB. -/
def pageGranules (pa : Nat) (big : Bool) : List Nat :=
  if big then (List.range 32).map fun i => pa / 2 ^ 21 * 32 + i else [pa / 65536]

/-- The map entries of a page set to a handle. -/
def State.setMap (s : State) (pa : Nat) (big : Bool) (h : Handle) : State :=
  { s with pageMap := (pageGranules pa big).foldl (fun m g => if h = 0 then tabDel m g else tabPut m g h) s.pageMap }

/-- A grown handle is written through to PTE.PLATE and every cached copy (R69, R83). -/
def State.writePlate (s : State) (pte : Nat) (h : Handle) : State :=
  if pte = 0 then s else s.modLeaf pte fun e => e - bitF e 59 48 * 2 ^ 48 + h.toNat * 2 ^ 48

/-- The software floor: a fixed non-zero handle in a leaf's PLATE joins the map entries of its page (R83). -/
def State.floor (s : State) (pa e : Nat) (big : Bool) : UnionRes × State :=
  let p := bitF e 59 48
  if bitF e 61 60 ≠ 0 ∨ p = 0 ∨ p ≥ 0x200 then (.ok 0, s)
  else match s.union (s.mapHandle pa) (BitVec.ofNat 12 p) with
    | .ok h => (.ok h, if h = s.mapHandle pa then s else s.setMap pa big h)
    | u => (u, s)

/-! ### Fault records (R71 to R73) -/

/-- A page fault record (R71). -/
def faultRecord (seq code lvl e : Nat) (w : Requester) : BitVec 256 :=
  BitVec.ofNat 256 (seq % 2 ^ 32 * 2 ^ 224 + code % 256 * 2 ^ 216 + lvl % 4 * 2 ^ 214 + w.kind % 8 * 2 ^ 211
    + w.ctx % 4096 * 2 ^ 196 + w.lf % 256 * 2 ^ 188 + w.quire % 4 * 2 ^ 186 + w.elem % 16 * 2 ^ 182
    + w.node % 256 * 2 ^ 174 + e % 2 ^ 64 * 2 ^ 64 + w.va % 2 ^ 56)

/-- Whether a partition has a fault queue and a fault channel (R70). -/
def State.hasFq (s : State) (part : Nat) : Bool :=
  match s.part? part with | some p => p.fqBase.isSome && p.fqChan.isSome | none => false

/-- The records of a partition that are outstanding. -/
def Partn.outstanding (p : Partn) : List FaultOut := p.faults.filter fun f => !f.failed

/-- A record takes the next SEQ and its slot in the fault queue (R71); none when all slots hold outstanding records. -/
def State.newFault (s : State) (part die page code lvl e : Nat) (w : Requester) (waiters : List Nat) :
    Option (Nat × State) :=
  match s.part? part with
  | none => none
  | some p =>
    if p.outstanding.length ≥ 2048 then none
    else
      let r := faultRecord p.seq code lvl e w
      let f : FaultOut := { seq := p.seq, die := die, page := page, record := r, plate := w.plate, sent := false,
                            failed := false, waiters := waiters }
      let s := s.setPart part { p with seq := (p.seq + 1) % 2 ^ 32, faults := p.faults ++ [f] }
      some (p.seq, { s with hbm := memWrite s.hbm (p.fqBase.getD 0 + 32 * (p.seq % 2048)) 32 r.toNat })

/-- The message that a record sends to the fault channel (R72). -/
def faultMessage (ctx : Nat) (r : BitVec 256) (plate : Handle) : Token :=
  let n := r.toNat
  Token.words ctx plate
    [bitF n 255 224, bitF n 223 216 + bitF n 215 214 * 2 ^ 8 + bitF n 213 211 * 2 ^ 10, bitF n 31 0, bitF n 55 32,
     bitF n 207 196, bitF n 195 188 + bitF n 187 186 * 2 ^ 8 + bitF n 185 182 * 2 ^ 10 + bitF n 181 174 * 2 ^ 14, 0, 0]

end Sys2Proof.Machine
end

