-- ==== Sys2Proof/Machine/Access.lean ====
section
/-! DEFINITION. Address checks, locations and their sets, arithmetic at the home, and the accesses that the units other than
element nodes make (R11 to R36, R60 to R74, R81 to R86, R94). -/

namespace Sys2Proof.Machine

/-! ### Address checks (R28 to R31) -/

/-- What checks 1 to 6 and 8 come to: a place in SRAM, a VA to translate, a code, or a moving folio (R28). -/
inductive Check where
  | place (p : Place)
  | trans (va : Nat)
  | fail (code : Nat)
  | moving (lf : Nat)
  deriving DecidableEq, Repr

/-- Checks 4 to 6 and the hold of a moving entry (R16). -/
def State.sramCheck (s : State) (part la : Nat) (modifies : Bool) : Check :=
  match s.mapEntry part (la / 2 ^ 24) with
  | none => .fail 0x13
  | some e =>
    if e.st = .moving then .moving (la / 2 ^ 24)
    else if modifies && e.ro then .fail 0x14
    else
      let pa := e.gfolio * 2 ^ 24 + la % 2 ^ 24
      if s.retiredElem (pa / 2 ^ 18) then .fail 0x15 else .place (.sram pa)

/-- The checks of R28 that need no translation, in their order. -/
def State.preCheck (s : State) (part : Nat) (logical : Bool) (a align : Nat) (modifies : Bool) : Check :=
  if !logical ∧ a ≥ 2 ^ 56 then .fail 0x10
  else if a % align ≠ 0 then .fail 0x11
  else if logical then s.sramCheck part a modifies
  else if 2 ^ 52 ≤ a ∧ a < 2 ^ 54 then .fail 0x12
  else if a < 2 ^ 32 then s.sramCheck part a modifies
  else if a ≥ 2 ^ 55 ∧ !s.presence.contains (a / 2 ^ 43 % 4096) then .fail 0x16
  else .trans a

/-! ### Locations and their sets (R81 to R84) -/

/-- The handle of a location's set: a plot's, or a granule's. -/
def State.placeHandle (s : State) : Place → Handle
  | .sram pa => (s.plot (pa / 4096)).handle
  | .hbm pa _ _ => s.mapHandle pa
  | _ => 0

/-- The handle of a location set; a page's map entries are written through (R69, R82, R83). -/
def State.setPlace (s : State) (p : Place) (h : Handle) : State :=
  match p with
  | .sram pa => let d := s.plot (pa / 4096); if d.handle = h then s else s.setPlot (pa / 4096) { d with handle := h }
  | .hbm pa pte big => if s.mapHandle pa = h then s else (s.setMap pa big h).writePlate pte h
  | _ => s

/-- What a location's set grows to when `h` is written into it (R81). -/
def State.grown (s : State) (p : Place) (h : Handle) : UnionRes := s.union h (s.placeHandle p)

/-- The ingress handle of a destination (R84). -/
def State.ingress (s : State) (d : Nat) : Handle := (s.dest d).ingress

/-- The fixed handle in a leaf's PLATE; a composite one reads as 0 (R83, R84). -/
def fixedPlate (e : Nat) : Handle := if bitF e 59 48 < 0x200 then BitVec.ofNat 12 (bitF e 59 48) else 0

/-! ### Data at the home -/

/-- Die and energy units of a row group or granule at a place (R403). -/
def Place.cost : Place → Nat × Nat
  | .sram pa => (pa / 2 ^ 28, 1)
  | .hbm pa _ _ => (pa / 2 ^ 36, 6)
  | _ => (0, 0)

/-- The energy of one access of a unit at a place (R403). -/
def State.spend (s : State) (p : Place) (part : Nat) : State := s.charge p.cost.1 part 0 p.cost.2

/-- Bytes at a place of the package, as a number. -/
def State.readPlace (s : State) (p : Place) (n : Nat) : Nat :=
  match p with
  | .sram pa => memRead s.sram pa n
  | .hbm pa _ _ => memRead s.hbm pa n
  | _ => 0

/-- Bytes written at a place of the package; words covered whole lose their error marks (R58). -/
def State.writePlace (s : State) (p : Place) (n v : Nat) : State :=
  match p with
  | .sram pa => { s with sram := memWrite s.sram pa n v }.writeErrs .bank pa n
  | .hbm pa _ _ => { s with hbm := memWrite s.hbm pa n v }.writeErrs .hbm pa n
  | _ => s

/-- Code of an uncorrectable word that a read of a place meets, 0 for none (R58, R59). -/
def State.readCode (s : State) (p : Place) (n : Nat) : Nat :=
  match p with
  | .sram pa => if s.uncIn .bank pa n then 0x20 else 0
  | .hbm pa _ _ => if s.uncIn .hbm pa n then 0x23 else 0
  | _ => 0

/-- Code of an uncorrectable word that a write covers in part, 0 for none (R58). -/
def State.writeCode (s : State) (p : Place) (n : Nat) : Nat :=
  match p with
  | .sram pa => if s.partUnc .bank pa n then 0x20 else 0
  | .hbm pa _ _ => if s.partUnc .hbm pa n then 0x23 else 0
  | _ => 0

/-- The errors that a read of a place meets are counted (R58, R382). -/
def State.meetErrs (s : State) (p : Place) (n ctx : Nat) : State :=
  match p with
  | .sram pa => s.readErrs .bank pa n ctx
  | .hbm pa _ _ => s.readErrs .hbm pa n ctx
  | _ => s

/-! ### Read-modify-write units (R35, R45, R46, R256) -/

/-- New value of an atomic of 32 bits (R256, R35). -/
def atomNew (aop old v v2 : Nat) : Nat :=
  match aop with
  | 0 => (old + v) % 2 ^ 32
  | 1 =>
    let r := rne32 (vadd (decodeLane .fp32 old) (decodeLane .fp32 v))
    if (decodeLane .fp32 r).isNan then canonNan .fp32 else r
  | 2 => if sext 32 old ≤ sext 32 v then old else v
  | 3 => if sext 32 old ≤ sext 32 v then v else old
  | 4 => min old v
  | 5 => max old v
  | 6 => old &&& v
  | 7 => old ||| v
  | 8 => old ^^^ v
  | 9 => v
  | _ => if old = v then v2 else old

/-- `wadd` of an FP32 addend to a wide cell (R45). -/
def wideAdd (cell x : Nat) : Nat :=
  let wexp := bitF cell 103 96
  let lsb : Int := (wexp : Int) - 160
  let val : Nat := cell % 2 ^ 96
  let put (a : Int) (sovf : Bool) : Nat :=
    let c : Nat := cell - val + wrapTo 96 ((val : Int) + a)
    if sovf then c ||| 2 ^ 104 else c
  match decodeLane .fp32 x with
  | .nan => put 0 true
  | .inf neg => put (if neg then -(2 ^ 80 - 1 : Nat) else (2 ^ 80 - 1 : Nat)) true
  | .num neg n d =>
    let p := pow2 (lsb + 80)
    if n * p.2 ≥ d * p.1 then put (if neg then -(2 ^ 80 - 1 : Nat) else (2 ^ 80 - 1 : Nat)) true
    else put (floorScaled neg n d lsb) false

/-- The cell that `wclr` writes (R46). -/
def wideClear (wexp : Nat) : Nat := wexp % 256 * 2 ^ 96

/-- The value and SOVF that `wrd` returns (R46, R259). -/
def wideRead (cell : Nat) : Nat × Nat :=
  let v := sext 96 (cell % 2 ^ 96)
  (rne32 (valScaled (decide (v < 0)) v.natAbs ((bitF cell 103 96 : Int) - 160)),
   if bitF cell 104 104 = 1 then 0x3F800000 else 0)

/-! ### Units other than element nodes -/

/-- A unit that makes accesses: context, partition, quire (package number), requester number of R71, a key of its own, and
whether its recoverable faults park (R70, R279). -/
structure Who where
  ctx : Nat
  part : Nat
  quire : Nat
  kind : Nat
  key : Nat
  parks : Bool
  deriving DecidableEq, Repr

def Who.die (w : Who) : Nat := w.quire / 64

/-- The requester of a fault record for a unit (R71). -/
def State.whoReq (s : State) (w : Who) (store : Bool) (va : Nat) (h : Handle) : Requester where
  kind := if w.kind = 3 ∧ store then 4 else w.kind
  ctx := w.ctx
  lf := s.lfOf w.part (w.quire / 4)
  quire := w.quire % 4
  elem := 0
  node := 0xFF
  va := va
  plate := h

/-- What an access of a unit comes to: a value, a code, or a wait. -/
inductive Sync (α : Type) where
  | ok (a : α) (s : State)
  | fail (code : Nat) (s : State)
  | wait (s : State)

/-- Runs a second access on the state the first one leaves. -/
def Sync.bind {α β : Type} : Sync α → (α → State → Sync β) → Sync β
  | .ok a s, f => f a s
  | .fail c s, _ => .fail c s
  | .wait s, _ => .wait s

/-- Whether a unit waits on an outstanding record of a page, or has seen it fail (R71, R73). -/
def State.unitFault (s : State) (w : Who) (page : Nat) : Option FaultOut :=
  match s.part? w.part with
  | none => none
  | some p => p.faults.find? fun f => f.die == w.die && f.page == page && f.waiters.contains w.key

/-- The unit has seen the failure of its record. -/
def State.takeFailure (s : State) (w : Who) (seq : Nat) : State :=
  s.modPart w.part fun p =>
    let fs := p.faults.map fun f => if f.seq = seq then { f with waiters := f.waiters.filter (· != w.key) } else f
    { p with faults := fs.filter fun f => !(f.seq == seq && f.failed && f.waiters.isEmpty) }

/-- A plate union of a unit that cannot end now goes to the Spine. -/
def State.unitAsk (s : State) (w : Who) (ha hb : Handle) : State := s.askUnion ha hb w.ctx w.part

/-- A leaf serves a unit's access: A and D are set, the page's floor joins the map, and a copy is cached (R65, R66, R83). -/
def State.unitLeaf (s : State) (w : Who) (va kind pte e : Nat) (big walked : Bool) : Sync Place :=
  let e' := ptTouched e kind
  let s1 := if e' = e then s else s.modLeaf pte fun x => ptTouched x kind
  let s2 := s1.cacheLeaf w.die w.part va pte e' (if big then 2 else 3)
  match (if walked then s2.floor (ptAddr e (if big then 2 else 3) va) e big else (.ok 0, s2)) with
  | (.ok _, s3) => .ok (s3.leafPlace va pte e' big) s3
  | (.ovf ha hb, s3) => .fail (s.ovfCode ha hb) (s3.plateOvf ha hb w.ctx w.part)
  | (.wait ha hb, s3) => .wait (s3.unitAsk w ha hb)

/-- Translation for a unit (R64 to R71). -/
def State.unitXlate (s : State) (w : Who) (va kind : Nat) (h : Handle) : Sync Place :=
  let page := va / 65536
  match s.unitFault w page with
  | some f =>
    if f.failed then .fail (bitF f.record.toNat 223 216) (s.takeFailure w f.seq) else .wait s
  | none =>
    match s.cacheHit w.die w.part va kind with
    | some c => s.unitLeaf w va kind c.pte c.entry.toNat c.big false
    | none =>
      match s.walkFrom va kind 4 0 (s.ptroot w.part) with
      | .leaf pte e lvl => s.unitLeaf w va kind pte e (lvl == 2) true
      | .next _ => .fail 0x32 s
      | .fault code lvl e rcv =>
        if rcv && w.parks && s.hasFq w.part then
          let join (p : Partn) : Option Nat :=
            match p.faults.find? (fun f => !f.failed && f.die == w.die && f.page == page) with
            | some f => some f.seq
            | none => none
          match (match s.part? w.part with | some p => join p | none => none) with
          | some seq =>
            .wait (s.modPart w.part fun p => { p with faults := p.faults.map fun f =>
              if f.seq = seq then { f with waiters := f.waiters ++ [w.key] } else f })
          | none =>
            match s.newFault w.part w.die page code lvl e (s.whoReq w (kind != 0) va h) [w.key] with
            | some (_, s) => .wait s
            | none => .wait s
        else .fail code s

/-- Residency for a unit on an SRAM place, and the wait on a plot still to be zeroed (R22, R113, R115). -/
def State.unitResident (s : State) (w : Who) (la pa : Nat) : Sync Place :=
  let d := s.plot (pa / 4096)
  if d.res then (if d.zero then .wait s else .ok (.sram pa) s)
  else
    match s.miss w.ctx (la / 4096) 3 with
    | (.notres, s) => .fail 0x51 s
    | (.ends c, s) => .fail c s
    | (.waits, s) => if w.parks then .wait s else .fail 0x50 s

/-- Whether a place lies in a retired channel, whose controller answers with CHANRET (R406). -/
def State.chanGone (s : State) (p : Place) : Bool :=
  match p with | .hbm pa _ _ => s.retired.contains (.chan (pa / 2 ^ 31)) | _ => false

/-- Whether the unit at a place is awake; an access that reaches one that is not is held (R429). -/
def State.placeAwake (s : State) (p : Place) : Bool :=
  match p with | .sram pa => s.awake (pa / 2 ^ 24) | .hbm pa _ _ => s.stackAwake pa | _ => true

/-- The place that a unit's access names, after every check of R28. -/
def State.unitPlace (s : State) (w : Who) (logical : Bool) (a align kind : Nat) (h : Handle) : Sync Place :=
  match s.preCheck w.part logical a align (kind != 0) with
  | .fail c => .fail c s
  | .moving _ => .wait s
  | .place (.sram pa) => if s.awake (pa / 2 ^ 24) then s.unitResident w (a % 2 ^ 32) pa else .wait s
  | .place p => .ok p s
  | .trans va =>
    if !s.stackAwake (s.ptroot w.part) then .wait s
    else (s.unitXlate w va kind h).bind fun p s =>
      if s.chanGone p then .fail 0xE1 s else if s.placeAwake p then .ok p s else .wait s

/-- The request of a unit that is under way outside the package. -/
def State.unitOut (s : State) (key : Nat) : Option Outside := s.outside.find? fun o => o.who == .unit key

def State.dropOut (s : State) (tag : Nat) : State := { s with outside := s.outside.filter fun o => o.tag != tag }

/-- A request leaves the package: to PCI Express, or as a flit to a peer; its tag waits for the response (R54, R418, R419). -/
def State.sendOut (s : State) (who : OutFor) (ctx : Nat) (accel : Option Nat) (op aop addr size : Nat) (data : Bytes)
    (h : Handle) : State :=
  let tag := s.nextId
  let o : Outside := { tag := tag, who := who, ctx := ctx, accel := accel, size := size, handle := h, since := s.tick, resp := none }
  let s := { s with nextId := s.nextId + 1, outside := s.outside ++ [o] }
  match accel with
  | none =>
    { s with pcie := s.pcie ++ [if op = 0 then .read tag addr size else .atomic tag addr aop data] }
  | some a =>
    s.sendFlit { dest := a, kind := if op = 0 then 1 else if op = 1 then 3 else 5, src := s.accel, vc := 0, tag := tag,
                 addr := addr, size := size, aop := aop, status := 0, data := data }

/-- Whether a place is in host memory. -/
def Place.isHost : Place → Bool
  | .host _ => true
  | _ => false

/-- The destination, of a place outside the package (R94). -/
def State.exitDest (s : State) (ctx : Nat) : Place → Nat
  | .peer a _ => destPeer a
  | _ => destVf (s.homeVf ctx)

/-- The response of a unit's request outside the package, or the request itself after the Clasp (R94, R418). `charge` is the
handle checked, `bytes` those charged. -/
def State.unitExit (s : State) (w : Who) (p : Place) (op aop size : Nat) (data : Bytes) (charge : Handle) (bytes : Nat)
    (eh : Handle) : Sync (Nat × Handle) :=
  match s.unitOut w.key with
  | some o =>
    match o.resp with
    | none => .wait s
    | some (0, v) => .ok (v, o.handle) (s.dropOut o.tag)
    | some (c, _) => .fail c (s.dropOut o.tag)
  | none =>
    if p.isHost && op == 2 && aop != 0 && aop != 9 && aop != 10 then .fail 0xF0 s
    else
      let d := s.exitDest w.ctx p
      match s.clasp charge d bytes with
      | (false, s) => .fail 0x42 s
      | (true, s) =>
        match p with
        | .host a =>
          if op = 1 then .ok (0, 0) { s with pcie := s.pcie ++ [.write a data] }
          else .wait (s.sendOut (.unit w.key) w.ctx none op aop a size data eh)
        | .peer n a => .wait (s.sendOut (.unit w.key) w.ctx (some n) op aop a size data eh)
        | _ => .ok (0, 0) s

/-- The handle that data from outside the package takes: the ingress handle with the leaf's fixed handle (R84). -/
def State.exitHandle (s : State) (w : Who) (va : Nat) (p : Place) : UnionRes :=
  let e := match (s.cachedOn w.die).find? (fun c => c.covers w.part va) with | some c => c.entry.toNat | none => 0
  s.union (s.ingress (s.exitDest w.ctx p)) (fixedPlate e)

/-- The number of a unit that makes accesses: its kind (1 Graft, 2 Riddle, 3 Pruner, 4 Barrow, 5 stream, 6 graph copy,
7 command, 8 save area, 9 launch, 10 host), its quire, folio or die, and which of its works. Control cores are numbered by their quire. -/
def unitKey (kind unit sub : Nat) : Nat := kind * 2 ^ 40 + unit % 2 ^ 12 * 2 ^ 28 + sub % 2 ^ 28

/-- Whether a unit's write of `size` bytes would end in a failure or a wait; it writes nothing. -/
def State.unitProbe (s : State) (w : Who) (logical : Bool) (a size : Nat) (h : Handle) : Sync Unit :=
  (s.unitPlace w logical a size 1 h).bind fun p s =>
    match p with
    | .sram _ | .hbm _ _ _ =>
      (match s.grown p h with
      | .wait ha hb => .wait (s.unitAsk w ha hb)
      | .ovf ha hb => .fail (s.ovfCode ha hb) (s.plateOvf ha hb w.ctx w.part)
      | .ok _ => if s.writeCode p size ≠ 0 then .fail (s.writeCode p size) s else .ok () s)
    | _ => .ok () s

def State.unitProbes (s : State) (w : Who) (logical : Bool) (size : Nat) (h : Handle) : List Nat → Sync Unit
  | [] => .ok () s
  | a :: l => (s.unitProbe w logical a size h).bind fun _ s => s.unitProbes w logical size h l

/-- A unit reads `size` bytes at an address that check 2 holds to `align`: value and the handle of what it read. `h` is the
handle of its address. -/
def State.unitReadAt (s : State) (w : Who) (logical : Bool) (a align size : Nat) (h : Handle) : Sync (Nat × Handle) :=
  (s.unitPlace w logical a align 0 h).bind fun p s =>
    match p with
    | .sram _ | .hbm _ _ _ =>
      let c := s.readCode p size
      let s1 := s.meetErrs p size w.ctx
      if c ≠ 0 then .fail c s1 else .ok (s1.readPlace p size, s1.placeHandle p) (s1.spend p w.part)
    | _ =>
      match s.exitHandle w a p with
      | .ok eh => s.unitExit w p 0 0 size [] h 0 eh
      | .ovf ha hb => .fail (s.ovfCode ha hb) (s.plateOvf ha hb w.ctx w.part)
      | .wait ha hb => .wait (s.unitAsk w ha hb)

/-- A unit reads `size` bytes at an address that is a multiple of `size`. -/
def State.unitRead (s : State) (w : Who) (logical : Bool) (a size : Nat) (h : Handle) : Sync (Nat × Handle) :=
  s.unitReadAt w logical a size size h

/-- A unit writes the low `size` bytes of `v` with the handle `h` of data and address (R81), at an address that check 2 holds
to `align`. -/
def State.unitWriteAt (s : State) (w : Who) (logical : Bool) (a align size v : Nat) (h : Handle) : Sync Unit :=
  (s.unitPlace w logical a align 1 h).bind fun p s =>
    match p with
    | .sram _ | .hbm _ _ _ =>
      match s.grown p h with
      | .wait ha hb => .wait (s.unitAsk w ha hb)
      | .ovf ha hb => .fail (s.ovfCode ha hb) (s.plateOvf ha hb w.ctx w.part)
      | .ok g =>
        let c := s.writeCode p size
        let s1 := (s.writePlace p size v).setPlace p g
        if c ≠ 0 then .fail c s1 else .ok () (s1.spend p w.part)
    | _ => (s.unitExit w p 1 0 size (bytesOf size v) h size 0).bind fun _ s => .ok () s

/-- A unit writes `size` bytes at an address that is a multiple of `size`. -/
def State.unitWrite (s : State) (w : Who) (logical : Bool) (a size v : Nat) (h : Handle) : Sync Unit :=
  s.unitWriteAt w logical a size size v h

/-- A unit performs an atomic of 32 bits: the old value and its handle (R256, R287). -/
def State.unitAtom (s : State) (w : Who) (logical : Bool) (a aop v v2 : Nat) (h : Handle) : Sync (Nat × Handle) :=
  (s.unitPlace w logical a 4 2 h).bind fun p s =>
    match p with
    | .sram _ | .hbm _ _ _ =>
      match s.grown p h with
      | .wait ha hb => .wait (s.unitAsk w ha hb)
      | .ovf ha hb => .fail (s.ovfCode ha hb) (s.plateOvf ha hb w.ctx w.part)
      | .ok g =>
        let c := s.readCode p 4
        let s1 := s.meetErrs p 4 w.ctx
        if c ≠ 0 then .fail c s1
        else
          let old := s1.readPlace p 4
          .ok (old, s1.placeHandle p) (((s1.writePlace p 4 (atomNew aop old v v2)).setPlace p g).spend p w.part)
    | _ =>
      match s.exitHandle w a p with
      | .ok eh => s.unitExit w p 2 aop 4 (bytesOf 4 v ++ bytesOf 4 v2) h 4 eh
      | .ovf ha hb => .fail (s.ovfCode ha hb) (s.plateOvf ha hb w.ctx w.part)
      | .wait ha hb => .wait (s.unitAsk w ha hb)

end Sys2Proof.Machine
end

