-- ==== Sys2Proof/Machine/Match.lean ====
section
/-! DEFINITION. What a node reads, the matching store, the overflow store and the images (R47 to R52, R127, R156, R197). -/

namespace Sys2Proof.Machine

/-! ### Words of a slot (R195, R197, R200) -/

def Slot.word (sl : Slot) (n : Nat) : Nat := match sl.insts[n]? with | some w => w.toNat | none => 0

def wOpc (w : Nat) : Nat := bitF w 31 24
def wSa (w : Nat) : Nat := bitF w 23 21
def wSb (w : Nat) : Nat := bitF w 20 18
def wDx (w : Nat) : Nat := bitF w 17 13
def wDy (w : Nat) : Nat := bitF w 12 8
def wLx (w : Nat) : Nat := bitF w 3 0

/-- The opcodes that read C (R223). -/
def opcReadsC (opc : Nat) : Bool := opc == 0x24 || opc == 0x37 || opc == 0x43 || opc == 0x63

/-- A memory opcode (R198), and its ordered form (R127). -/
def opcMemory (opc : Nat) : Bool := decide (0x90 ≤ opc ∧ opc ≤ 0xAA)
def opcOrdered (opc : Nat) : Bool := opcMemory opc && opc / 8 % 2 == 1

/-- What reserves a reorder-buffer entry at issue (R158): a memory instruction or an element `launch`. -/
def opcRob (opc : Nat) : Bool := opcMemory opc || opc == 0xBE

/-- The slots that a node reads an operand through (R197, R223): L, R. -/
def Slot.reads (sl : Slot) (n : Nat) : Bool × Bool :=
  let w := sl.word n
  let cs := if opcReadsC (wOpc w) then bitF (sl.lit (wLx w)) 31 29 else 7
  (wSa w == 0 || wSb w == 0 || cs == 0, wSa w == 1 || wSb w == 1 || cs == 1)

/-- Whether the node reads slot R as a predicate (R197), or reads predicates alone (R238). -/
def Slot.takesPred (sl : Slot) (n : Nat) (slotR : Bool) : Bool :=
  let opc := wOpc (sl.word n)
  if 0x11 ≤ opc ∧ opc ≤ 0x14 then true
  else slotR && (opc == 0x00 || opc == 0x01 || opc == 0x02 || opc == 0x05 || opc == 0x37)

/-- Whether a node has an order slot. -/
def Slot.ordered (sl : Slot) (n : Nat) : Bool := opcOrdered (wOpc (sl.word n))

/-- Whether a node counts as one of two slots for the matching store (R47). -/
def Slot.twoSlot (sl : Slot) (n : Nat) : Bool := ((sl.reads n).1 && (sl.reads n).2) || sl.ordered n

/-! ### Storage (R47 to R51) -/

/-- Granules of an overflow-store entry (R49). -/
def granules (t : Token) : Nat := 1 + (t.bytes + 31) / 32

/-- Granules of an entry of the store; a deep entry takes none. -/
def OvfEntry.granules (e : OvfEntry) : Nat := if e.deep then 0 else Sys2Proof.Machine.granules e.tok

/-- The granules that a context uses in a quire. -/
def Overflow.used (o : Overflow) (ctx : Nat) : Nat :=
  ((o.entries ++ o.spilling).filter (fun e => e.ctx == ctx)).foldl (fun n e => n + e.granules) 0

/-- Whether a context's reservation has room for `g` more granules (R50). -/
def Overflow.room (o : Overflow) (ctx g : Nat) : Bool := decide (o.used ctx + g ≤ tabNum o.reserve ctx)

/-- Records that a context holds in its deep-overflow region (R169). -/
def State.deepUsed (s : State) (ctx : Nat) : Nat :=
  s.overflow.foldl (fun n q => n + ((q.2.entries ++ q.2.spilling).filter fun e => e.ctx == ctx && e.deep).length) 0

/-- Whether a context's deep-overflow region has a free record (R169). -/
def State.deepRoom (s : State) (ctx : Nat) : Bool :=
  match s.ctx? ctx with
  | some c => decide (s.deepUsed ctx < c.deepSize)
  | none => false

/-- Where `t` of context `ctx` spills or parks in quire `q`: the store, the deep region, or nowhere (R50, R169). -/
def State.spillTo (s : State) (q ctx : Nat) (t : Token) : Option Bool :=
  if (s.ovf q).room ctx (granules t) then some false else if s.deepRoom ctx then some true else none

/-- Matching entries that a context uses on an element (R47, R229). -/
def Elem.usedBy (e : Elem) (ctx : Nat) : Nat :=
  (e.mstore.filter fun h => h.tok.ctx.toNat == ctx).length
    + e.slots.foldl (fun n q => if q.2.ctx = ctx then n + (q.2.expects.filter fun x => !x.spilled).length else n) 0

/-- The contexts on an element with their shares (R48). -/
def Elem.shares (e : Elem) : List (Nat × Nat) :=
  e.slots.map (fun q => (q.2.ctx, q.2.share)) ++ e.backing.map (fun q => (q.1, q.2.share))

/-- Whether a matching entry of the context's share, or else of the pool, is free (R48). -/
def Elem.entryFree (e : Elem) (ctx : Nat) : Bool :=
  let sh := e.shares
  let own := match sh.find? (fun q => q.1 == ctx) with | some q => q.2 | none => 0
  let pool := 256 - sh.foldl (fun n q => n + q.2) 0
  let excess := sh.foldl (fun n q => n + (e.usedBy q.1 - q.2)) 0
  decide (e.usedBy ctx < own) || decide (excess < pool)

/-- The spill count of a context on an element changed by one (R51). -/
def Elem.spillAdd (e : Elem) (ctx : Nat) (up : Bool) : Elem :=
  match slotOfCtx e.slots ctx with
  | some (i, _) => e.modSlot i fun sl => { sl with spill := if up then sl.spill + 1 else sl.spill - 1 }
  | none => e

/-- A change of a context's slot on an element, resident or in the backing area. -/
def Elem.modCtxSlot (e : Elem) (ctx : Nat) (g : Slot → Slot) : Elem :=
  match slotOfCtx e.slots ctx with
  | some (i, _) => e.modSlot i g
  | none =>
    match tabGet e.backing ctx with
    | some sl => { e with backing := tabPut e.backing ctx (g sl) }
    | none => e

/-- A context's slot on an element, resident or in the backing area. -/
def Elem.slotFor (e : Elem) (ctx : Nat) : Option Slot :=
  match slotOfCtx e.slots ctx with
  | some (_, sl) => some sl
  | none => tabGet e.backing ctx

/-! ### Errors of stored operands (R59, R382) -/

/-- A token turned into poison at the node that it reaches. -/
def State.poisonAt (s : State) (pos : Nat) (t : Token) (code : Nat) : Token :=
  { t with poison := true, pay := BitVec.ofNat 1024 (s.nodeRec code t.ctx.toNat pos t.node.toNat 0).toNat }

/-- The token of a matching entry; one whose parity is wrong has become poison MSPAR (R59). -/
def State.heldTok (s : State) (pos : Nat) (h : Held) : Token := if h.bad then s.poisonAt pos h.tok 0x21 else h.tok

/-- The token of an overflow entry; an uncorrectable one has become poison OVFUNC (R59). -/
def State.ovfTok (s : State) (e : OvfEntry) : Token := if e.upset ≥ 2 then s.poisonAt e.pos e.tok 0x22 else e.tok

/-- The errors that a read of a matching entry meets are reported (R382). -/
def State.heldErr (s : State) (pos : Nat) (h : Held) : State :=
  if h.bad then
    (s.softRecord .matching (pos * 256) true h.tok.ctx.toNat).sendTrap h.tok.ctx.toNat 7
      (s.nodeRec 0x21 h.tok.ctx.toNat pos h.tok.node.toNat 0) (s.logOf (s.partOf h.tok.ctx.toNat) pos) 0xFF h.tok.plate
  else s

/-- The errors that a read of an overflow entry meets are reported (R59, R382). -/
def State.ovfErr (s : State) (e : OvfEntry) : State :=
  match e.upset with
  | 0 => s
  | 1 => s.corrected .overflow (quireOf e.pos * 16384)
  | _ => (s.softRecord .overflow (quireOf e.pos * 16384) true e.ctx).sendTrap e.ctx 7
      (s.nodeRec 0x22 e.ctx e.pos e.tok.node.toNat 0) (s.logOf (s.partOf e.ctx) e.pos) 0xFF e.tok.plate

/-! ### Images -/

/-- The image of a context. -/
def State.image? (s : State) (ctx : Nat) : Option Image :=
  match s.ctx? ctx with
  | some c => tabGet s.images c.image
  | none => none

/-- A literal word of a list. -/
def litOf (l : List Word) (n : Nat) : Nat := match l[n]? with | some w => w.toNat | none => 0

/-- The node of a slot record that opens an activation (R154, R230). -/
def allocNode (lits : List Word) (act : Nat) : List Word → Nat → Option Nat
  | [], _ => none
  | w :: r, n =>
    if wOpc w.toNat = 0x08 ∧ bitF (litOf lits (wLx w.toNat)) 31 26 = act then some n else allocNode lits act r (n + 1)

/-- POS and node of the `alloc` of an activation. -/
def allocIn (act : Nat) : List ElemRec → Option (Nat × Nat)
  | [] => none
  | e :: r => match allocNode e.lits act e.insts 0 with | some n => some (e.pos, n) | none => allocIn act r

/-- Physical element and node of the `alloc` of an activation of a context. -/
def State.allocSite (s : State) (ctx act : Nat) : Option (Nat × Nat) :=
  match s.image? ctx with
  | none => none
  | some im =>
    match allocIn act im.elems with
    | none => none
    | some (p, n) => match s.physOf (s.partOf ctx) p with | some q => some (q, n) | none => none

end Sys2Proof.Machine
end

