-- ==== Sys2Proof/Machine/ElemAccess.lean ====
section
/-! DEFINITION. The life of an element node's access: resolution, requests, completion and its reorder-buffer entry (R28 to R42,
R54, R66 to R73, R94, R252, R253). -/

namespace Sys2Proof.Machine

def State.acc? (s : State) (id : Nat) : Option Access := tabGet s.accs id
def State.setAcc (s : State) (id : Nat) (a : Access) : State := { s with accs := tabPut s.accs id a }
def State.modAcc (s : State) (id : Nat) (g : Access → Access) : State :=
  match s.acc? id with | some a => s.setAcc id (g a) | none => s

/-- Whether an access modifies its locations (R16). -/
def AccOp.modifies : AccOp → Bool
  | .load | .wrd => false
  | _ => true

/-- Whether an access's completion token is an ordering token (R248). -/
def AccOp.orders : AccOp → Bool
  | .load | .wrd | .atom _ => false
  | _ => true

/-- Access kind for translation: 0 load; 1 store; 2 atomic (R64). -/
def AccOp.xkind : AccOp → Nat
  | .load | .wrd => 0
  | .atom _ => 2
  | _ => 1

/-- Access kind of a schedule miss (R116). -/
def AccOp.mkind : AccOp → Nat
  | .load => 0
  | .store | .zero => 1
  | _ => 2

/-- The shape of an access's completion token (R248). -/
def Access.shape (a : Access) : Shape :=
  if a.op.orders then { net := .data, fmt := .bits, lanes := 1, ord := true } else Shape.data a.fmt a.lanesN

/-- Completion tokens by destination index. -/
def Access.outTokens (a : Access) (t : Token) : List (Nat × Token) := [(a.dx, t), (a.dy, t)]

/-- The reorder-buffer entry of an access gets its tokens (R42). -/
def State.robDone (s : State) (pos id : Nat) (l : List (Nat × Token)) : State :=
  s.modElem pos fun e => { e with rob := e.rob.map fun r => if r.acc = id then { r with done := some l } else r }

/-- An access leaves every queue, miss-table entry and miss list. -/
def State.accLeave (s : State) (id : Nat) : State :=
  { s with
    banks := s.banks.map fun b => (b.1, { b.2 with queue := b.2.queue.filter fun q => q.1 != id })
    chans := s.chans.map fun c => (c.1, { slots := c.2.slots.filter fun q => q.1 != id })
    misses := s.misses.map fun m => { m with accs := m.accs.filter (· != id) }
    barrow := s.barrow.map fun b => (b.1, { b.2 with misses := b.2.misses.map fun m => { m with accs := m.accs.filter (· != id) } }) }

/-- An access ends: it is in the table no more. -/
def State.accDelete (s : State) (id : Nat) : State := { s.accLeave id with accs := tabDel s.accs id }

/-- An access ends as poison with a record (R29, R253). -/
def State.accFail (s : State) (id : Nat) (r : BitVec 128) : State :=
  match s.acc? id with
  | none => s
  | some a => (s.accDelete id).robDone a.pos id (a.outTokens (poisonToken a.ctx a.nest a.shape a.handle r))

/-- The record of an access fault of a lane (R374). -/
def State.laneRec (s : State) (a : Access) (code detail : Nat) : BitVec 128 := s.nodeRec code a.ctx a.pos a.node detail

/-- The result payload of an access that read (R254, R255, R256, R259). -/
def Access.result (a : Access) : BitVec 1024 :=
  match a.op with
  | .wrd => packLanes 32 (a.lanes.flatMap fun l => [(wideRead l.old).1, (wideRead l.old).2])
  | .load =>
    if a.lanes.length = a.lanesN ∧ a.lanes.all (fun l => l.size * 8 == fmtWidth a.fmt) then
      packLanes (fmtWidth a.fmt) (a.lanes.map (·.old))
    else BitVec.ofNat 1024 (packNat 512 (a.lanes.map (·.old)) % 2 ^ (a.lanesN * fmtWidth a.fmt))
  | _ => packLanes 32 (a.lanes.map (·.old))

/-- An access with every part done ends: its completion tokens are deliverable (R126, R252). None while a union needs the
Spine. -/
def State.accFinish (s : State) (id : Nat) : Option State :=
  match s.acc? id with
  | none => some s
  | some a =>
    match a.fail with
    | some r => some (s.accFail id r)
    | none =>
      let done (s : State) (h : Handle) : State :=
        if a.tagBad then s.accFail id (s.nodeRec 0x62 a.ctx a.pos a.node 0)
        else
          let t := resultToken a.ctx a.nest a.shape h (if a.op.orders then 0 else a.result)
          (s.accDelete id).robDone a.pos id (a.outTokens t)
      if a.op.orders then some (done s 0)
      else
        match s.union a.handle a.readHandle with
        | .ok h => some (done s h)
        | .ovf ha hb => some ((s.plateOvf ha hb a.ctx a.part).accFail id (s.laneRec a (s.ovfCode ha hb) 0))
        | .wait _ _ => none

/-- A request for the union that an access's completion waits for. -/
def State.accAsk (s : State) (id : Nat) : State :=
  match s.acc? id with
  | some a => s.askUnion a.handle a.readHandle a.ctx a.part
  | none => s

/-! ### Translation (R66, R67) -/

/-- The requester that an access's fault record names (R71). -/
def State.accReq (s : State) (a : Access) (va : Nat) : Requester where
  kind := a.op.xkind
  ctx := a.ctx
  lf := s.lfOf a.part (folioOf a.pos)
  quire := quireOf a.pos % 4
  elem := a.pos % 16
  node := a.node
  va := va
  plate := a.handle

/-- Whether a die's miss table has an entry free for a partition: 8 reserved to each, 256 pooled (R66). -/
def State.missRoom (s : State) (die part : Nat) : Bool :=
  let mine (p : Nat) : Nat := (s.misses.filter fun m => m.die == die && m.part == p).length
  let pooled := (List.range 32).foldl (fun n p => n + (mine p - 8)) 0
  decide (mine part < 8) || decide (pooled < 256)

/-- An access attaches to the miss-table entry of a page, which it makes if there is none (R67). -/
def State.attach (s : State) (id : Nat) (a : Access) (va : Nat) : Hold × State :=
  let die := dieOf a.pos
  let page := va / 65536
  let onPage (m : Miss) : Bool := m.die == die && m.part == a.part && m.page == page
  match s.misses.find? onPage with
  | some m =>
    let add (m : Miss) : Miss := if onPage m && !m.accs.contains id then { m with accs := m.accs ++ [id] } else m
    (match m.st with | .parked seq => .parked seq | _ => .walk, { s with misses := s.misses.map add })
  | none =>
    if s.missRoom die a.part then
      let m : Miss := { die := die, part := a.part, page := page, st := .pending, who := s.accReq a va, kind := a.op.xkind,
                        accs := [id], restart := false }
      (.walk, { s with misses := s.misses ++ [m] })
    else (.walk, s)

/-- The checks of one lane (R28): the lane with its place or code, or what it waits for. -/
def State.resolveLane (s : State) (id : Nat) (a : Access) (l : LaneAcc) : LaneAcc × Hold × State :=
  if l.place.isSome ∨ l.code ≠ 0 then (l, .none, s)
  else
    match s.preCheck a.part l.logical l.va l.align a.op.modifies with
    | .fail c => ({ l with code := c }, .none, s)
    | .place p => ({ l with place := some p }, .none, s)
    | .moving lf => (l, .moving lf, s)
    | .trans va =>
      match s.cacheHit (dieOf a.pos) a.part va a.op.xkind with
      | some c =>
        let e := c.entry.toNat
        ({ l with place := some (s.leafPlace va c.pte e c.big)
                  dirty := if a.op.modifies && bitF e 7 7 == 0 then some c.pte else none }, .none, s)
      | none => let r := s.attach id a va; (l, r.1, r.2)

/-- The checks of every lane: the lanes and the last thing that one of them waits for. -/
def State.resolveLanes (s : State) (id : Nat) (a : Access) : List LaneAcc → List LaneAcc × Hold × State
  | [] => ([], .none, s)
  | l :: r =>
    let x := s.resolveLane id a l
    let y := x.2.2.resolveLanes id a r
    (x.1 :: y.1, if y.2.1 = .none then x.2.1 else y.2.1, y.2.2)

/-! ### Requests (R32 to R38, R54, R94) -/

/-- The home of a place: bank number, channel number, host, or peer. -/
def Place.home : Place → Home
  | .sram pa => .bank (pa / 65536)
  | .hbm pa _ _ => .chan (pa / 2 ^ 31)
  | .host _ => .host
  | .peer a _ => .peer a

/-- The row or granule of a place in the package. -/
def Place.row : Place → Nat
  | .sram pa => pa / 64
  | .hbm pa _ _ => pa / 64
  | _ => 0

/-- Elements of a list without repeats, in first order. -/
def nubList {α : Type} [DecidableEq α] : List α → List α
  | [] => []
  | x :: r => x :: (nubList r).filter (· ≠ x)

/-- The lanes of an access with a place of a home. -/
def lanesAt (ls : List LaneAcc) (h : Home) : List LaneAcc :=
  ls.filter fun l => match l.place with | some p => decide (p.home = h) | none => false

/-- The row groups of a home's lanes, in ascending order of the lowest lane (R33); for a host or peer home, one for each
lane. -/
def groupsOf (ls : List LaneAcc) (h : Home) : List (List Nat) :=
  let row (l : LaneAcc) : Nat := match l.place with
    | some p => (match h with | .bank _ | .chan _ => p.row | _ => l.lane)
    | none => 0
  (nubList (ls.map row)).map fun r => (ls.filter fun l => row l == r).map (·.lane)

/-- The parts of a resolved access, one for each home. -/
def partsOf (ls : List LaneAcc) : List Part :=
  let homes := nubList (ls.filterMap fun l => l.place.map Place.home)
  homes.map fun h =>
    let mine := lanesAt ls h
    { home := h, lanes := mine.map (·.lane), groups := groupsOf mine h, next := 0, st := .request }

/-- Number of a part of a home. -/
def partIx (ps : List Part) (h : Home) : Nat :=
  match listFind (fun p => decide (p.home = h)) ps 0 with | some (i, _) => i | none => 0

/-- AOP of an access. -/
def AccOp.aop : AccOp → Nat
  | .atom n => n
  | _ => 0

/-- Whether the homes of an access outside the package let it pass the Clasp (R94): the state after charging, and whether
one refused. -/
def State.claspAll (s : State) (a : Access) (ls : List LaneAcc) : List Home → Bool × State
  | [] => (true, s)
  | h :: r =>
    let bytes := if a.op.modifies then (lanesAt ls h).foldl (fun n l => n + l.size) 0 else 0
    let check (d : Nat) : Bool × State :=
      match s.clasp a.handle d bytes with
      | (false, s) => (false, s)
      | (true, s) => s.claspAll a ls r
    match h with
    | .host => check (destVf (s.homeVf a.ctx))
    | .peer n => check (destPeer n)
    | _ => s.claspAll a ls r

/-- One lane's request leaves the package (R54, R418, R419). Host writes are posted (R126). -/
def State.laneOut (s : State) (id : Nat) (a : Access) (pi : Nat) (l : LaneAcc) (h : Handle) : State :=
  let s := match l.dirty with | some pte => s.modLeaf pte fun e => e ||| 2 ^ 7 | none => s
  let data := bytesOf l.size l.data ++ (if a.op = .atom 10 then bytesOf l.size l.data2 else [])
  match l.place with
  | some (.host addr) =>
    match a.op with
    | .load => s.sendOut (.lane id pi l.lane) a.ctx none 0 0 addr l.size [] h
    | .atom n => s.sendOut (.lane id pi l.lane) a.ctx none 2 n addr l.size data h
    | _ => { s with pcie := s.pcie ++ [.write addr (bytesOf l.size l.data)] }
  | some (.peer n addr) =>
    match a.op with
    | .load => s.sendOut (.lane id pi l.lane) a.ctx (some n) 0 0 addr l.size [] h
    | .atom k => s.sendOut (.lane id pi l.lane) a.ctx (some n) 2 k addr l.size data h
    | _ => s.sendOut (.lane id pi l.lane) a.ctx (some n) 1 0 addr l.size (bytesOf l.size l.data) h
  | _ => s

/-- The lanes of an access that leave the package, one after another; their data takes the ingress handle (R84). -/
def State.lanesOut (s : State) (id : Nat) (a : Access) (ps : List Part) : List LaneAcc → State
  | [] => s
  | l :: r =>
    match l.place with
    | some p =>
      match p.home with
      | .host | .peer _ =>
        let h := s.ingress (s.exitDest a.ctx p)
        (s.laneOut id a (partIx ps p.home) l h).lanesOut id a ps r
      | _ => s.lanesOut id a ps r
    | none => s.lanesOut id a ps r

/-- The requests of a resolved access leave: to its banks over the mesh, to channels, and out of the package. -/
def State.accSend (s : State) (id : Nat) : State :=
  match s.acc? id with
  | none => s
  | some a =>
    let ps := partsOf a.lanes
    let hostAtom := match a.op with
      | .atom n => a.lanes.any (fun l => match l.place with | some p => p.isHost | none => false) && n != 0 && n != 9 && n != 10
      | _ => false
    let lo := match a.lanes.find? (fun l => match l.place with | some p => decide (p.home = .host) || (match p with | .peer _ _ => true | _ => false) | none => false) with
      | some l => l.va | none => 0
    if hostAtom then s.accFail id (s.laneRec a 0xF0 lo)
    else
      match s.claspAll a a.lanes (ps.map (·.home)) with
      | (false, s) => s.accFail id (s.laneRec a 0x42 lo)
      | (true, s) =>
        let posted (p : Part) : Bool := decide (p.home = .host) && a.op.orders
        let ps := ps.map fun p => if posted p then { p with st := .done } else p
        let s := s.setAcc id { a with parts := ps, hold := .none }
        let s := s.lanesOut id a ps a.lanes
        let s := match ps.find? (fun p => match p.home with | .bank _ => true | _ => false) with
          | some { home := .bank b, .. } => s.setBuf a.pos 4 1 (s.buf a.pos 4 1 ++ [.req (b / 4) id 0])
          | _ => s
        if ps.all (fun p => p.st == .done) then (s.accFinish id).getD s else s

/-- The checks of an access (R28, R30): it is sent when every lane has its place, ends as poison with the code of its lowest
failing lane, or waits. -/
def State.accResolve (s : State) (id : Nat) : State :=
  match s.acc? id with
  | none => s
  | some a =>
    let r := s.resolveLanes id a a.lanes
    let s := r.2.2.setAcc id { a with lanes := r.1, hold := r.2.1 }
    if r.2.1 = .none then
      match r.1.find? (fun l => l.code != 0) with
      | some l => s.accFail id (s.laneRec a l.code l.va)
      | none => s.accSend id
    else s

/-- Every access of a list is resolved again, in its order. -/
def State.accResolveAll (s : State) : List Nat → State
  | [] => s
  | i :: r => (s.accResolve i).accResolveAll r

end Sys2Proof.Machine
end

