-- ==== Sys2Proof/Machine/Flags.lean ====
section
/-! DEFINITION. What the machine has in place of flags: predicate bits, comparisons and the class mask (R238, R239, R242). -/

namespace Sys2Proof.Machine

/-- The integer comparisons (R239). -/
inductive ICmp where
  | eq | ne | lt | ge | ltu | geu | le | gt
  deriving DecidableEq, Repr

/-- One integer comparison of two 32-bit lanes. -/
def icmp (k : ICmp) (a b : Nat) : Bool :=
  let x := sext 32 a
  let y := sext 32 b
  match k with
  | .eq => x == y
  | .ne => x != y
  | .lt => decide (x < y)
  | .ge => decide (y ≤ x)
  | .ltu => decide (a % 2 ^ 32 < b % 2 ^ 32)
  | .geu => decide (b % 2 ^ 32 ≤ a % 2 ^ 32)
  | .le => decide (x ≤ y)
  | .gt => decide (y < x)

/-- The float comparisons (R239). -/
inductive FCmp where
  | eq | ne | lt | le | gt | ge | un | num
  deriving DecidableEq, Repr

/-- One float comparison of two values: −0 equals +0 (R239). -/
def fcmp (k : FCmp) (a b : Val) : Bool :=
  let un := a.isNan || b.isNan
  match k with
  | .eq => veq a b
  | .ne => !veq a b
  | .lt => vlt a b
  | .le => vlt a b || veq a b
  | .gt => vlt b a
  | .ge => vlt b a || veq a b
  | .un => un
  | .num => !un

/-- The class mask of a float lane (R242). -/
def fclassMask (f : Fmt) (b : Nat) : Nat :=
  let low := b % 2 ^ (fmtWidth f - 1)
  match decodeLane f b with
  | .nan => 2 ^ 8
  | .inf neg => if neg then 2 ^ 0 else 2 ^ 7
  | .num neg n _ =>
    if n = 0 then (if neg then 2 ^ 3 else 2 ^ 4)
    else if low < 2 ^ mbits f then (if neg then 2 ^ 2 else 2 ^ 5)
    else (if neg then 2 ^ 1 else 2 ^ 6)

/-- The integer formats of `cmp` (R239). -/
def intFmts : List Fmt := [.i32, .bits]

/-- A `cmp` form (R239). -/
def State.icompare (s : State) (o : ElemOps) (k : ICmp) : Res := s.compare o intFmts fun _ a b => icmp k a b

/-- An `fcmp` form on FP32 or BF16 (R239); FTZ applies (R184). -/
def State.fcompare (s : State) (o : ElemOps) (f : Fmt) (k : FCmp) : Res :=
  s.compare o [f] fun ftz a b => fcmp k (readFloat ftz f a) (readFloat ftz f b)

/-- A predicate opcode (R238): operands from slots L and R only. -/
def State.predicate (s : State) (o : ElemOps) (useB : Bool) (g : Bool → Bool → Bool) : Res :=
  match s.fire with
  | none => idle s
  | some f =>
    let a := f.read (srcOf o.sa) 0 .bits
    let b := f.read (if useB then srcOf o.sb else .none) 0 .bits
    let n := colourOf [a, b]
    let sh := Shape.pred n
    let pay := packLanes 1 ((List.range n).map fun i => if g (a.bit i) (b.bit i) then 1 else 0)
    .next (s.runFire f o [a, b] .all sh sh 0 0 (stdCheck n [(a, allFmts), (b, allFmts)])
      (.toks [(o.dx.toNat, sh, pay), (o.dy.toNat, sh, pay)]))

end Sys2Proof.Machine
end

