-- ==== Sys2Proof/Machine/ElemMem.lean ====
section
/-! DEFINITION. The memory opcodes of the elements (R248 to R260). -/

namespace Sys2Proof.Machine

/-- The memory forms (R248). -/
inductive MemForm where
  | ld | st | ldg | sts | wadd | wrd | wclr | zero | hld | hst | atom
  deriving DecidableEq, Repr

/-- Whether a form reads B (R248). -/
def MemForm.useB : MemForm → Bool
  | .ld | .ldg | .wrd | .hld => false
  | _ => true

/-- Whether a form reads each address as a 32-bit logical SRAM address (R249). -/
def MemForm.logical : MemForm → Bool
  | .hld | .hst | .atom | .zero => false
  | _ => true

/-- What the access does. -/
def MemForm.op (m : MemForm) (aop : Nat) : AccOp :=
  match m with
  | .ld | .ldg | .hld => .load
  | .st | .sts | .hst => .store
  | .wadd => .wadd
  | .wrd => .wrd
  | .wclr => .wclr
  | .zero => .zero
  | .atom => .atom aop

/-- Formats of B (R248). -/
def MemForm.bFmts (m : MemForm) (dfmt : Fmt) : List Fmt :=
  match m with
  | .wadd | .wclr => [.fp32]
  | .zero => [.bits]
  | _ => [dfmt]

/-- The smallest power of two that is at least `n`, for n up to 128. -/
def pow2Above (n : Nat) : Nat :=
  if n ≤ 1 then 1 else if n ≤ 2 then 2 else if n ≤ 4 then 4 else if n ≤ 8 then 8 else if n ≤ 16 then 16
  else if n ≤ 32 then 32 else if n ≤ 64 then 64 else 128

/-- A lane of an access before its checks. -/
def newLane (i va : Nat) (logical : Bool) (align size data data2 : Nat) : LaneAcc where
  lane := i
  va := va
  logical := logical
  align := align
  size := size
  data := data
  data2 := data2
  place := none
  code := 0
  dirty := none
  old := 0

/-- A block access: its bytes in one or two 64-byte parts, the alignment checked on the whole (R250, R255). -/
def blockLanes (va n : Nat) (data : Nat) : List LaneAcc :=
  let first := newLane 0 va true (pow2Above n) (min n 64) (data % 2 ^ 512) 0
  if n > 64 then [first, newLane 1 (va + 64) true 1 (n - 64) (data / 2 ^ 512) 0] else [first]

/-- The range of a `zero` in parts of at most 64 KiB, each within one bank or page (R260). -/
def zeroLanes (va len : Nat) : List LaneAcc :=
  let n := if len > 65536 then len / 65536 else 1
  (List.range n).map fun i => newLane i (va + 65536 * i) false 64 (min len 65536) 0 0

/-- Whether a `zero` range keeps the rules of R260. -/
def zeroOk (va len : Nat) : Bool :=
  decide (64 ≤ len) && decide (len ≤ 2 ^ 21) && (len &&& (len - 1)) == 0 && va % len == 0
    && (decide (va ≥ 2 ^ 32) || decide (len ≤ 65536))

/-- WEXP of `wclr` for a unit, none for one that suppresses the access (R258). -/
def wclrExp (b : Nat) : Option Nat :=
  match decodeLane .fp32 b with
  | .num _ n d => if n = 0 then none else some (max (-160) (min 95 (floorLog2 n d)) + 160).toNat
  | _ => none

/-- The colour of a memory firing (R224, R256). -/
def memColour (cas : Bool) (a b : Opnd) : Nat :=
  if a.isTok && !a.ord then a.lanes.getD 1
  else if b.isTok && !b.ord then (if cas then b.lanes.getD 2 / 2 else b.lanes.getD 1) else 1

/-- The checks of a memory firing before any address check: WIDMIS, FMTMISS, then WEXPBAD or ZEROLEN (R224, R256, R258 to
R260). -/
def memCheck (m : MemForm) (cas : Bool) (dfmt : Fmt) (a b : Opnd) (c va : Nat) : Option Nat :=
  if !a.fits c ∨ !b.fits (if cas then 2 * c else c) then some 0x66
  else if (cas ∧ (b.lanes.getD 2 % 2 = 1 ∨ c > 16)) ∨ (m = .wrd ∧ c > 16) then some 0x66
  else if !a.accepts intFmts ∨ !b.accepts (m.bFmts dfmt) then some 0x70
  else if m = .wclr ∧ ((List.range c).any fun i => (wclrExp (b.lane i)).isNone) then some 0x92
  else if m = .zero ∧ !zeroOk va (b.lane 0) then some 0x93
  else none

/-- The lanes of a memory firing (R249, R250). -/
def memLanes (m : MemForm) (dfmt : Fmt) (cas : Bool) (h : Nat) (a b : Opnd) (c : Nat) : List LaneAcc :=
  let w := fmtWidth dfmt
  let each (size : Nat) (g : Nat → Nat × Nat) : List LaneAcc :=
    (List.range c).map fun i =>
      newLane i ((if m.logical then 0 else h * 2 ^ 32) + a.lane i) m.logical size size (g i).1 (g i).2
  match m with
  | .ld | .hld => each (w / 8) fun _ => (0, 0)
  | .st | .hst => each (w / 8) fun i => (b.lane i, 0)
  | .ldg => blockLanes (a.lane 0) ((c * w + 7) / 8) 0
  | .sts => blockLanes (a.lane 0) ((c * w + 7) / 8) (packNat w ((List.range c).map b.lane))
  | .wadd => each 16 fun i => (b.lane i, 0)
  | .wrd => each 16 fun _ => (0, 0)
  | .wclr => each 16 fun i => ((wclrExp (b.lane i)).getD 0, 0)
  | .zero => zeroLanes (h * 2 ^ 32 + a.lane 0) (b.lane 0)
  | .atom => each 4 fun i => if cas then (b.lane (2 * i), b.lane (2 * i + 1)) else (b.lane i, 0)

/-- The stream of a firing: the value of the node's thread field (R41, R159). -/
def memStream (cw : Nat) (nest : BitVec 48) : Nat :=
  if bitF cw 25 25 = 1 then bitF nest.toNat (bitF cw 24 19) (bitF cw 18 13) else 0

/-- A reorder-buffer entry is taken (R42). -/
def State.robPush (s : State) (f : Fire) (id stream : Nat) : State :=
  s.modElem f.pos fun e =>
    { e with rob := e.rob ++ [{ slotIx := f.slotIx, node := f.node, acc := id, stream := stream, done := none }] }

/-- A memory node's firing: poison and the checks of R253 end it in its reorder-buffer entry; otherwise its access begins. -/
def State.memExec (s : State) (o : ElemOps) (m : MemForm) : Res :=
  match s.fire with
  | none => idle s
  | some f =>
    let cw := f.cw o
    let dfmt := fmtOf (bitF cw 28 26)
    let aop := bitF cw 12 9
    let cas := m = .atom ∧ aop = 10
    let a := f.read (srcOf o.sa) (dataLit o true) .bits
    let b := f.read (if m.useB then srcOf o.sb else .none) (dataLit o true) ((m.bFmts dfmt).headD .bits)
    let hi := f.slot.lit (o.lx.toNat + 1)
    let c := memColour (decide cas) a b
    let va := hi * 2 ^ 32 + a.lane 0
    let con := f.consumed [a, b]
    let nestA := tagAction f o.ta.toNat (a.lane 0) 0
    let id := s.nextId
    let acc : Access :=
      { op := m.op aop, pos := f.pos, slotIx := f.slotIx, ctx := f.ctx, part := f.part, node := f.node,
        nest := nestA.getD f.nest, fmt := if m = .wrd then .fp32 else dfmt, lanesN := if m = .wrd then 2 * c else c,
        dx := o.dx.toNat, dy := o.dy.toNat, handle := 0, readHandle := 0,
        lanes := memLanes m dfmt (decide cas) hi a b c, parts := [], hold := .none, fail := none, tagBad := nestA.isNone }
    let begin (s : State) : State :=
      { (s.issued f).robPush f id (memStream cw f.nest) with nextId := id + 1 }
    let poison (s : State) (h : Handle) (r : BitVec 128) : State :=
      (begin s).robDone f.pos id (acc.outTokens (poisonToken f.ctx acc.nest acc.shape h r))
    let fail (s : State) (h : Handle) (code : Nat) : State := poison s h (s.nodeRec code f.ctx f.pos f.node 0)
    let sinks := acc.op.modifies
    match s.unionAll 0 (con.map (·.plate)) with
    | .wait ha hb => .next (s.askUnion ha hb f.ctx f.part).yieldTurn
    | u =>
      let h := match u with | .ok h => h | .ovf ha _ => ha | .wait ha _ => ha
      match con.find? (·.poison) with
      | some p =>
        let s := if sinks then s.sink f.ctx p.record (s.logOf f.part f.pos) f.node h else s
        .next (poison s h (if sinks then recSetRpt p.record else p.record))
      | none =>
        match memCheck m (decide cas) dfmt a b c va with
        | some code => .next (fail s h code)
        | none =>
          match u with
          | .ovf ha hb => .next (fail (s.plateOvf ha hb f.ctx f.part) h (s.ovfCode ha hb))
          | _ => .next (((begin s).setAcc id { acc with handle := h }).accResolve id)

def execLd (o : ElemOps) (s : State) : Res := s.memExec o .ld
def execSt (o : ElemOps) (s : State) : Res := s.memExec o .st
def execLdg (o : ElemOps) (s : State) : Res := s.memExec o .ldg
def execSts (o : ElemOps) (s : State) : Res := s.memExec o .sts
def execWadd (o : ElemOps) (s : State) : Res := s.memExec o .wadd
def execWrd (o : ElemOps) (s : State) : Res := s.memExec o .wrd
def execWclr (o : ElemOps) (s : State) : Res := s.memExec o .wclr
def execZero (o : ElemOps) (s : State) : Res := s.memExec o .zero
def execHld (o : ElemOps) (s : State) : Res := s.memExec o .hld
def execHst (o : ElemOps) (s : State) : Res := s.memExec o .hst
def execAtom (o : ElemOps) (s : State) : Res := s.memExec o .atom

/-! The ordered forms (R127, R251): the ordering token of the order slot stands in the pair and is consumed with it. -/

def execLdOrd (o : ElemOps) (s : State) : Res := s.memExec o .ld
def execStOrd (o : ElemOps) (s : State) : Res := s.memExec o .st
def execLdgOrd (o : ElemOps) (s : State) : Res := s.memExec o .ldg
def execStsOrd (o : ElemOps) (s : State) : Res := s.memExec o .sts
def execWaddOrd (o : ElemOps) (s : State) : Res := s.memExec o .wadd
def execWrdOrd (o : ElemOps) (s : State) : Res := s.memExec o .wrd
def execWclrOrd (o : ElemOps) (s : State) : Res := s.memExec o .wclr
def execZeroOrd (o : ElemOps) (s : State) : Res := s.memExec o .zero
def execHldOrd (o : ElemOps) (s : State) : Res := s.memExec o .hld
def execHstOrd (o : ElemOps) (s : State) : Res := s.memExec o .hst
def execAtomOrd (o : ElemOps) (s : State) : Res := s.memExec o .atom

end Sys2Proof.Machine
end

