-- ==== Sys2Proof/Machine/Bank.lean ====
section
/-! DEFINITION. The bank ports: queues, row operations, residency, zeroing and scrubbing (R22, R32 to R38, R58, R112 to R117,
R475). -/

namespace Sys2Proof.Machine

/-! ### Performing at a home (R32 to R36, R55, R81 to R83) -/

/-- Whether an access reads its locations. -/
def AccOp.reads : AccOp → Bool
  | .load | .wrd | .atom _ => true
  | _ => false

/-- The access takes a failure that stands until it finishes, if it has none. -/
def Access.noteFail (a : Access) (r : BitVec 128) : Access := if a.fail.isSome then a else { a with fail := some r }

/-- A lane of the access changed. -/
def Access.setLane (a : Access) (l : LaneAcc) : Access :=
  { a with lanes := a.lanes.map fun x => if x.lane = l.lane then l else x }

/-- One lane is performed at its home: data, and the code of an uncorrectable word (R35, R45, R46, R58, R256). -/
def State.performLane (s : State) (a : Access) (l : LaneAcc) (p : Place) : LaneAcc × Nat × State :=
  let rc := s.readCode p l.size
  match a.op with
  | .load | .wrd =>
    let s1 := s.meetErrs p l.size a.ctx
    ({ l with old := if rc = 0 then s1.readPlace p l.size else 0 }, rc, s1)
  | .atom n =>
    let s1 := s.meetErrs p 4 a.ctx
    if rc ≠ 0 then (l, rc, s1)
    else
      let old := s1.readPlace p 4
      ({ l with old := old }, 0, s1.writePlace p 4 (atomNew n old l.data l.data2))
  | .wadd =>
    let s1 := s.meetErrs p 16 a.ctx
    if rc ≠ 0 then (l, rc, s1) else (l, 0, s1.writePlace p 16 (wideAdd (s1.readPlace p 16) l.data))
  | .wclr => (l, 0, s.writePlace p 16 (wideClear l.data))
  | .store => (l, s.writeCode p l.size, s.writePlace p l.size l.data)
  | .zero => (l, 0, s)

/-- The lanes of a row group or granule are performed in ascending order. -/
def State.performLanes (s : State) (a : Access) : List LaneAcc → Access × State
  | [] => (a, s)
  | l :: r =>
    match l.place with
    | none => s.performLanes a r
    | some p =>
      let x := s.performLane a l p
      let a := a.setLane x.1
      let a := if x.2.1 = 0 then a else a.noteFail (x.2.2.laneRec a x.2.1 l.va)
      x.2.2.performLanes a r

/-- What the performance of a group comes to: done, or a wait for a union (R87). -/
inductive Perform where
  | done (s : State)
  | wait (s : State)

/-- A row group or granule of an access is performed with its plate unions (R81, R87, R89). -/
def State.performGroup (s : State) (id : Nat) (a : Access) (g : List Nat) : Perform :=
  let ls := a.lanes.filter fun l => g.contains l.lane
  match ls with
  | [] => .done s
  | l0 :: _ =>
    let p := l0.place.getD (.host 0)
    let ur := if a.op.reads then s.union a.readHandle (s.placeHandle p) else .ok a.readHandle
    let uw := if a.op.modifies then s.grown p a.handle else .ok 0
    match ur, uw with
    | .wait ha hb, _ => .wait (s.askUnion ha hb a.ctx a.part)
    | _, .wait ha hb => .wait (s.askUnion ha hb a.ctx a.part)
    | .ovf ha hb, _ => .done ((s.plateOvf ha hb a.ctx a.part).setAcc id (a.noteFail (s.laneRec a (s.ovfCode ha hb) 0)))
    | _, .ovf ha hb => .done ((s.plateOvf ha hb a.ctx a.part).setAcc id (a.noteFail (s.laneRec a (s.ovfCode ha hb) 0)))
    | .ok rh, .ok wh =>
      let x := s.performLanes a ls
      let s1 := if a.op.modifies then x.2.setPlace p wh else x.2
      .done ((s1.setAcc id { x.1 with readHandle := rh }).charge p.cost.1 a.part 0 p.cost.2)

/-- Whether some location of a write would hold more than 8 plates: the write is not performed (R89). -/
def State.accOvf (s : State) (a : Access) : Option (Handle × Handle) :=
  if !a.op.modifies then none
  else a.lanes.findSome? fun l => match l.place with
    | some p => (match s.grown p a.handle with | .ovf ha hb => some (ha, hb) | _ => none)
    | none => none

/-- A part of an access changed. -/
def Access.modPart (a : Access) (pi : Nat) (g : Part → Part) : Access := { a with parts := listMod a.parts pi g }

/-! ### Residency at the port (R22, R113, R115, R475) -/

/-- Physical plots of a lane. -/
def LaneAcc.plots (l : LaneAcc) : List Nat :=
  match l.place with
  | some (.sram pa) => (List.range ((pa % 4096 + l.size + 4095) / 4096)).map fun i => pa / 4096 + i
  | _ => []

/-- The first plot of a lane with RES = 0, as an index from its first plot. -/
def State.missingPlot (s : State) (l : LaneAcc) : Option Nat :=
  match listFind (fun n => !(s.plot n).res) l.plots 0 with | some (i, _) => some i | none => none

/-- Whether a plot of the lanes is still to be zeroed (R22). -/
def State.zeroPending (s : State) (ls : List LaneAcc) : Bool := ls.any fun l => l.plots.any fun n => (s.plot n).zero

/-- A lane that found RES = 0 and its logical plot (R19). -/
def State.missingLane (s : State) (ls : List LaneAcc) : List (LaneAcc × Nat) :=
  ls.filterMap fun l => match s.missingPlot l with | some i => some (l, l.va % 2 ^ 32 / 4096 + i) | none => none

/-- The access leaves its bank queues and attaches to the miss list of a plot; its parts start again at their replay (R117). -/
def State.accMissed (s : State) (id : Nat) (a : Access) (p : Nat) : State :=
  let s := s.accLeave id
  let d := s.plotDie a.ctx p
  let b := s.barrowOf d
  let s := s.setBarrow d { b with misses := b.misses.map fun m =>
    if m.ctx == a.ctx && m.lplot == p then { m with accs := m.accs ++ [id] } else m }
  s.setAcc id { a with parts := [], hold := .missed, lanes := a.lanes.map fun l => { l with code := 0 } }

/-- An access whose lanes found RES = 0 is decided (R115): it ends, attaches, or stays while the miss list is full. -/
def State.accMiss (s : State) (id : Nat) (a : Access) (bad : List (LaneAcc × Nat)) : State :=
  match bad.find? (fun q => (s.required a.ctx q.2).isNone) with
  | some q => s.accFail id (s.laneRec a 0x51 q.1.va)
  | none =>
    match bad with
    | [] => s
    | q :: _ =>
      match s.miss a.ctx q.2 a.op.mkind with
      | (.notres, s) => s.accFail id (s.laneRec a 0x51 q.1.va)
      | (.ends c, s) => s.accFail id (s.laneRec a c q.1.va)
      | (.waits, s1) => if (s1.missPlot a.ctx q.2).isSome then s1.accMissed id a q.2 else s1

/-- The lanes of an access in its banks. -/
def Access.bankLanes (a : Access) : List LaneAcc :=
  a.lanes.filter fun l => match l.place with | some (.sram _) => true | _ => false

def Part.isBank (p : Part) : Bool := match p.home with | .bank _ => true | _ => false

/-- The parts of an access in banks, admitted. -/
def Access.admitted (a : Access) : Access :=
  { a with parts := a.parts.map fun p => if p.isBank then { p with st := .admitted } else p }

/-- An admitted write is given up when its union exceeds 8 plates (R89). -/
def State.accAdmit (s : State) (id : Nat) (a : Access) : State :=
  match s.accOvf a with
  | some (ha, hb) => (s.plateOvf ha hb a.ctx a.part).accFail id (s.laneRec a (s.ovfCode ha hb) 0)
  | none => s.setAcc id a.admitted

/-! ### Port events -/

/-- A bank's queue without its head. -/
def State.popBank (s : State) (b : Nat) : State :=
  let k := s.bank b
  s.setBank b { k with queue := k.queue.drop 1 }

def State.bankUsed (s : State) (b : Nat) (nonQueue : Bool) : State := s.setBank b { s.bank b with lastNonQueue := nonQueue }

/-- A part at a bank is performed: its response starts on its way (R34). -/
def State.bankDone (s : State) (b id pi : Nat) : State :=
  match s.acc? id with
  | none => s.popBank b
  | some a =>
    let s := s.setAcc id (a.modPart pi fun p => { p with st := .response })
    let e := b / 4
    (s.popBank b).setBuf e 4 2 (s.buf e 4 2 ++ [.resp a.pos id pi])

/-- `BANK_REQUEST_ENQUEUE` (R37, R38): the request at the head of a link's request buffer enters the queue of every bank it
touches, in one step. -/
def execBankRequestEnqueue (pos port : Nat) (s : State) : Res :=
  match s.buf pos port 1 with
  | .req dst id _ :: rest =>
    if dst ≠ pos ∨ !s.awake (folioOf pos) then idle s
    else
      match s.acc? id with
      | none => .next (s.setBuf pos port 1 rest)
      | some a =>
        let bs := a.parts.filterMap fun p => match p.home with | .bank b => some b | _ => none
        if bs.all (fun b => decide ((s.bank b).queue.length < 8)) then
          let s := s.setBuf pos port 1 rest
          let s := bs.foldl (fun s b =>
            s.setBank b { s.bank b with queue := (s.bank b).queue ++ [(id, partIx a.parts (.bank b))] }) s
          .next (s.setAcc id { a with parts := a.parts.map fun p => if p.isBank then { p with st := .queued } else p })
        else idle s
  | _ => idle s

/-- The next row group of an admitted part is performed, or a `zero` leaves the queue for the non-queue cycles (R32, R260). -/
def State.bankStep (s : State) (b id pi : Nat) (a : Access) (p : Part) : State :=
  if s.zeroPending (a.lanes.filter fun l => p.lanes.contains l.lane) then s
  else if a.op = .zero then
    match (s.bank b).zeroing with
    | some _ => s
    | none => (s.popBank b).setBank b { (s.popBank b).bank b with zeroing := some (id, pi) }
  else
    match p.groups with
    | [] => s.bankDone b id pi
    | g :: gs =>
      match s.performGroup id a g with
      | .wait s => s
      | .done s =>
        let s := s.modAcc id fun a => a.modPart pi fun p => { p with groups := gs }
        if gs.isEmpty then s.bankDone b id pi else s

/-- `PORT_OPERATION` (R32, R33, R113, R475): check 7 for the request at the head of the queue, or its next row group. -/
def execPortOperation (bank : Nat) (s : State) : Res :=
  match (s.bank bank).queue with
  | [] => idle s
  | (id, pi) :: _ =>
    match s.acc? id with
    | none => .next (s.popBank bank)
    | some a =>
      match a.parts[pi]? with
      | none => .next (s.popBank bank)
      | some p =>
        let s := s.bankUsed bank false
        let mine := a.lanes.filter fun l => p.lanes.contains l.lane
        match p.st with
        | .queued =>
          let bad := s.missingLane mine
          if (a.parts.filter Part.isBank).length > 1 then
            let mark (l : LaneAcc) : LaneAcc := if bad.any (fun q => q.1.lane == l.lane) then { l with code := 0x50 } else l
            .next (s.setAcc id ({ a with lanes := a.lanes.map mark }.modPart pi fun p => { p with st := .checked }))
          else if bad.isEmpty then
            let s := s.accAdmit id a
            match s.acc? id with
            | none => .next s
            | some a' => .next (s.bankStep bank id pi a' { p with st := .admitted })
          else .next (s.accMiss id a bad)
        | .admitted => .next (s.bankStep bank id pi a p)
        | _ => idle s

/-- `MULTI_BANK_DECISION` (R475): once every bank of an access has checked, it is admitted or decided by its failing lanes. -/
def execMultiBankDecision (acc : Nat) (s : State) : Res :=
  match s.acc? acc with
  | none => idle s
  | some a =>
    let bp := a.parts.filter Part.isBank
    if bp.length > 1 && bp.all (fun p => p.st == .checked) then
      let badL := a.bankLanes.filter fun l => l.code == 0x50
      if badL.isEmpty then .next (s.accAdmit acc a)
      else
        let bad := badL.map fun l => (l, l.va % 2 ^ 32 / 4096 + (s.missingPlot l).getD 0)
        .next (s.accMiss acc a bad)
    else idle s

/-- `MISS_REPLAY` (R117): the oldest access attached to a plot that has become resident is sent again. -/
def execMissReplay (die idx : Nat) (s : State) : Res :=
  let b := s.barrowOf die
  match b.misses[idx]? with
  | none => idle s
  | some m =>
    match s.physPlot (s.partOf m.ctx) m.lplot with
    | none => idle s
    | some n =>
      if !(s.plot n).res then idle s
      else
        match m.accs with
        | [] => .next (s.setBarrow die { b with misses := listDrop b.misses idx })
        | id :: r =>
          let ms := if r.isEmpty then listDrop b.misses idx else listMod b.misses idx fun m => { m with accs := r }
          let s := s.setBarrow die { b with misses := ms }
          .next ((s.modAcc id fun a => { a with hold := .none }).accSend id)

/-- Whether non-queue work may take the next port cycle of a bank (R112). -/
def Bank.nonQueueFree (b : Bank) : Bool := !b.lastNonQueue || b.queue.isEmpty

/-- The bank's first plot with ZERO = 1 (R22). -/
def State.zeroPlot (s : State) (bank : Nat) : Option Nat :=
  match listFind (fun i => (s.plot (bank * 16 + i)).zero) (List.range 16) 0 with
  | some (_, i) => some (bank * 16 + i)
  | none => none

/-- The plot that the access at the head of the queue waits for is zeroed next (R22). -/
def State.zeroNext (s : State) (bank : Nat) : Option Nat :=
  match (s.bank bank).queue with
  | (id, _) :: _ =>
    match s.acc? id with
    | some a =>
      match (a.bankLanes.flatMap LaneAcc.plots).find? (fun n => n / 16 == bank && (s.plot n).zero) with
      | some n => some n
      | none => s.zeroPlot bank
    | none => s.zeroPlot bank
  | [] => s.zeroPlot bank

/-- The row of a plot that placement zeroing writes next: kept as the number of rows still to do. -/
def State.zeroRow (s : State) (n : Nat) : Nat := tabNum s.zeroRows n

/-- `PLACEMENT_ZEROING` (R22): one row of a plot with ZERO = 1 is zeroed; the last row clears ZERO. -/
def execPlacementZeroing (bank : Nat) (s : State) : Res :=
  if !(s.bank bank).nonQueueFree then idle s
  else
    match s.zeroNext bank with
    | none => idle s
    | some n =>
      let r := s.zeroRow n
      let s1 := (s.writePlace (.sram (n * 4096 + 64 * r)) 64 0).bankUsed bank true
      if r + 1 = 64 then .next { s1.setPlot n { s1.plot n with zero := false } with zeroRows := tabDel s1.zeroRows n }
      else .next { s1 with zeroRows := tabPut s1.zeroRows n (r + 1) }

/-- `ZERO_PIECE_WRITE` (R260): the next 64-byte piece of the `zero` in progress at a bank. -/
def execZeroPieceWrite (bank : Nat) (s : State) : Res :=
  let k := s.bank bank
  match k.zeroing with
  | none => idle s
  | some (id, pi) =>
    if !k.nonQueueFree then idle s
    else
      match s.acc? id with
      | none => .next (s.setBank bank { k with zeroing := none })
      | some a =>
        match a.parts[pi]?, a.bankLanes with
        | some p, l :: _ =>
          match l.place with
          | some (.sram pa) =>
            let at' := pa + p.next
            let whole := decide (pa ≤ at' / 4096 * 4096) && decide (at' / 4096 * 4096 + 4096 ≤ pa + l.size)
            let u := if whole then UnionRes.ok a.handle else s.grown (.sram at') a.handle
            match u with
            | .wait ha hb => .next (s.askUnion ha hb a.ctx a.part)
            | .ovf ha hb =>
              .next (((s.plateOvf ha hb a.ctx a.part).setBank bank { k with zeroing := none }).accFail id (s.laneRec a (s.ovfCode ha hb) 0))
            | .ok h =>
              let s1 := s.writePlace (.sram at') 64 0
              let s2 := if !whole ∨ at' % 4096 = 4032 then s1.setPlace (.sram at') h else s1
              let s3 := ((s2.bankUsed bank true).charge (bank / 4096) a.part 0 1).modAcc id fun a => a.modPart pi fun p => { p with next := p.next + 64 }
              if p.next + 64 ≥ l.size then
                let e := bank / 4
                let s4 := s3.setBank bank { s3.bank bank with zeroing := none }
                let s5 := s4.modAcc id fun a => a.modPart pi fun p => { p with st := .response }
                .next (s5.setBuf e 4 2 (s5.buf e 4 2 ++ [.resp a.pos id pi]))
              else .next s3
          | _ => .next (s.setBank bank { k with zeroing := none })
        | _, _ => .next (s.setBank bank { k with zeroing := none })

/-! ### Scrub and errors (R58, R59) -/

/-- One row is read and corrected where needed; the next row follows (R58). -/
def State.scrub (s : State) (bank : Nat) : State :=
  let k := s.bank bank
  let a := bank * 65536 + 64 * k.scrub
  let s1 := s.readErrs .bank a 64 0
  let s2 := { s1 with errs := s1.errs.filter fun m =>
    !(m.store == Store.bank && !m.unc && decide (a / 8 ≤ m.addr) && decide (m.addr * 8 < a + 64)) }
  s2.setBank bank { k with scrub := (k.scrub + 1) % 1024, lastScrub := s.tick }

/-- `SCRUB_ROW` (R58): the queue is empty and no non-queue work waits. -/
def execScrubRow (bank : Nat) (s : State) : Res :=
  let k := s.bank bank
  if k.queue.isEmpty && k.zeroing.isNone && (s.zeroPlot bank).isNone then .next (s.scrub bank) else idle s

/-- `SCRUB_FORCED` (R58): 4,096 cyc have passed without a scrub. -/
def execScrubForced (bank : Nat) (s : State) : Res :=
  let k := s.bank bank
  if k.nonQueueFree && decide (s.cyclesSince (bank / 4096) k.lastScrub ≥ 4096) then .next ((s.scrub bank).bankUsed bank true)
  else idle s

/-- `ECC_WRITEBACK` (R58): a corrected word that a read has met is written back. -/
def execEccWriteback (idx : Nat) (s : State) : Res :=
  match s.errs[idx]? with
  | some m => if m.met && !m.unc then .next { s with errs := listDrop s.errs idx } else idle s
  | none => idle s

/-- `SOFT_ERROR` (R58, R59): an error of `bits` bits arises. `store` is a storage kind of R417; `addr` a word address (bytes
/ 8) of a bank or of HBM, 8,192 × quire + word of control memory, 256 × element + index of a matching-store entry, or
16,384 × quire + index of an overflow-store entry. -/
def execSoftError (store addr bits : Nat) (s : State) : Res :=
  if bits = 0 then idle s
  else
    match storeOf store with
    | .matching =>
      let pos := addr / 256
      if bits % 2 = 1 then
        .next (s.modElem pos fun e => { e with mstore := listMod e.mstore (addr % 256) fun h => { h with bad := true } })
      else
        .next (s.modElem pos fun e => { e with mstore := listMod e.mstore (addr % 256) fun h =>
          { h with tok := { h.tok with pay := Config.upsetValue s.tick } } })
    | .overflow =>
      let q := addr / 16384
      let o := s.ovf q
      let hit (e : OvfEntry) : OvfEntry :=
        if bits ≤ 2 ∨ Config.upsetSeen s.tick then { e with upset := e.upset + bits }
        else { e with tok := { e.tok with pay := Config.upsetValue s.tick } }
      .next (s.setOvf q { o with entries := listMod o.entries (addr % 16384) hit })
    | st =>
      let old := s.errs.find? fun m => m.store == st && m.addr == addr
      let rest := s.errs.filter fun m => !(m.store == st && m.addr == addr)
      let put (unc : Bool) : State := { s with errs := rest ++ [{ store := st, addr := addr, unc := unc, met := false }] }
      if bits ≤ 2 then .next (put (bits == 2 || old.isSome))
      else if Config.upsetSeen s.tick then .next (put true)
      else
        let v := (Config.upsetValue s.tick).toNat % 2 ^ 64
        match st with
        | .bank => .next { s with sram := memWrite s.sram (addr * 8) 8 v }
        | .hbm => .next { s with hbm := memWrite s.hbm (addr * 8) 8 v }
        | _ => .next { s with ctl := memWrite s.ctl (addr * 8) 8 v }

end Sys2Proof.Machine
end

