-- ==== Sys2Proof/Machine/Channel.lean ====
section
/-! DEFINITION. Channel controllers, responses, walks, fault records and the reorder buffer (R16, R41, R42, R54, R55, R64 to R73). -/

namespace Sys2Proof.Machine

/-! ### HBM (R55) -/

/-- `CHANNEL_REQUEST_ARRIVAL` (R55, R406): a request takes one of the controller's 64 slots; a retired channel answers CHANRET. -/
def execChannelRequestArrival (acc part : Nat) (s : State) : Res :=
  match s.acc? acc with
  | none => idle s
  | some a =>
    match a.parts[part]? with
    | some { home := .chan c, st := .request, .. } =>
      if s.retired.contains (.chan c) then .next (s.accFail acc (s.nodeRec 0xE1 a.ctx a.pos a.node 0))
      else if (s.chan c).slots.length < 64 ∧ s.stackAwake (c * 2 ^ 31) then
        let s := s.setChan c { slots := (s.chan c).slots ++ [(acc, part)] }
        .next (s.setAcc acc (a.modPart part fun p => { p with st := .queued }))
      else idle s
    | _ => idle s

/-- The granules that a queued part still touches. -/
def State.partRows (s : State) (acc part : Nat) : List Nat :=
  match s.acc? acc with
  | none => []
  | some a =>
    match a.parts[part]? with
    | none => []
    | some p =>
      (a.lanes.filter fun l => (p.groups.flatten).contains l.lane).flatMap fun l => match l.place with
        | some (.hbm pa _ _) => (List.range ((pa % 64 + l.size + 63) / 64)).map fun i => pa / 64 + i
        | _ => []

/-- A part at a channel is performed: its response starts on its way. -/
def State.chanDone (s : State) (c acc part : Nat) : State :=
  let s := s.setChan c { slots := (s.chan c).slots.filter fun q => q != (acc, part) }
  s.modAcc acc fun a => a.modPart part fun p => { p with st := .response }

/-- Bytes of a `zero` in all. -/
def Access.zeroLen (a : Access) : Nat := a.lanes.foldl (fun n l => n + l.size) 0

/-- The next granule of a `zero` at a channel is written (R260); the last one of a page or granule covered whole resets its
set (R83). -/
def State.zeroGranule (s : State) (c acc part : Nat) (a : Access) (p : Part) : State :=
  let ls := a.lanes.filter fun l => p.lanes.contains l.lane
  match ls with
  | [] => s.chanDone c acc part
  | l0 :: _ =>
    match ls[p.next / l0.size]? with
    | none => s.chanDone c acc part
    | some l =>
      match l.place with
      | some (.hbm pa pte big) =>
        let at' := pa + p.next % l0.size
        let whole := if big then a.zeroLen == 2 ^ 21 else l.size == 65536
        let last := if big then decide (p.next + 64 ≥ 2 ^ 21) else decide (p.next % l0.size + 64 ≥ l0.size)
        let u := if whole then UnionRes.ok a.handle else s.grown (.hbm at' pte big) a.handle
        match u with
        | .wait ha hb => s.askUnion ha hb a.ctx a.part
        | .ovf ha hb => (s.plateOvf ha hb a.ctx a.part).accFail acc (s.laneRec a (s.ovfCode ha hb) 0)
        | .ok h =>
          let s1 := s.writePlace (.hbm at' pte big) 64 0
          let s2 := if !whole ∨ last then s1.setPlace (.hbm at' pte big) h else s1
          let s3 := (s2.charge (c / 32) a.part 0 6).modAcc acc fun a => a.modPart part fun p => { p with next := p.next + 64 }
          if p.next + 64 ≥ l0.size * ls.length then s3.chanDone c acc part else s3
      | _ => s.chanDone c acc part

/-- Whether an access waits for a D bit to be set, or for an earlier request of its granules. -/
def State.slotWaits (s : State) (c idx : Nat) (id pi : Nat) : Bool :=
  let mine := s.partRows id pi
  let earlier := ((s.chan c).slots.take idx).flatMap fun q => s.partRows q.1 q.2
  mine.any (fun r => earlier.contains r) ||
    (match s.acc? id with
    | some a => (match a.parts[pi]? with
      | some p => a.lanes.any fun l => p.lanes.contains l.lane && l.dirty.isSome
      | none => false)
    | none => false)

/-- Whether a request of the partition that holds the channel comes before one of another partition (R400). -/
def State.chanYields (s : State) (c part : Nat) : Bool :=
  match s.parts.find? (fun q => q.2.channels.contains c) with
  | none => false
  | some o =>
    o.1 != part && ((s.chan c).slots.mapIdx fun i q => (i, q)).any fun x =>
      (match s.acc? x.2.1 with | some a => a.part == o.1 | none => false) && !s.slotWaits c x.1 x.2.1 x.2.2

/-- `CHANNEL_PERFORM` (R55): one granule operation of the request in a slot, out of order unless an earlier slot touches the
granule. -/
def execChannelPerform (chan idx : Nat) (s : State) : Res :=
  match (s.chan chan).slots[idx]? with
  | none => idle s
  | some (id, pi) =>
    match s.acc? id with
    | none => .next (s.setChan chan { slots := listDrop (s.chan chan).slots idx })
    | some a =>
      match a.parts[pi]? with
      | none => idle s
      | some p =>
        if s.slotWaits chan idx id pi || s.chanYields chan a.part then idle s
        else
          match s.accOvf a with
          | some (ha, hb) => .next ((s.plateOvf ha hb a.ctx a.part).accFail id (s.laneRec a (s.ovfCode ha hb) 0))
          | none =>
            if a.op = .zero then .next (s.zeroGranule chan id pi a p)
            else
              match p.groups with
              | [] => .next (s.chanDone chan id pi)
              | g :: gs =>
                match s.performGroup id a g with
                | .wait s => .next s
                | .done s =>
                  let s := s.modAcc id fun a => a.modPart pi fun p => { p with groups := gs }
                  .next (if gs.isEmpty then s.chanDone chan id pi else s)

/-- `DIRTY_BIT_OR` (R65): D is set in the leaf and every cached copy before a store or atomic is performed. -/
def execDirtyBitOr (acc part : Nat) (s : State) : Res :=
  match s.acc? acc with
  | none => idle s
  | some a =>
    match a.parts[part]? with
    | none => idle s
    | some p =>
      match a.lanes.find? (fun l => p.lanes.contains l.lane && l.dirty.isSome) with
      | some { dirty := some pte, .. } =>
        let s := s.modLeaf pte fun e => e ||| 2 ^ 7
        .next (s.setAcc acc { a with lanes := a.lanes.map fun l => if l.dirty = some pte then { l with dirty := none } else l })
      | _ => idle s

/-! ### Responses (R54, R57) -/

/-- The port of an element whose response buffer has a given response at its head. -/
def State.respPort (s : State) (pos id pi : Nat) : Option Nat :=
  (List.range 6).find? fun port => match s.buf pos port 2 with
    | .resp d i p :: _ => d == pos && i == id && p == pi
    | _ => false

/-- What came back for the lanes of a part outside the package: values, codes and handles (R57, R84). -/
def State.gatherOut (s : State) (a : Access) : List Outside → Access ⊕ (Handle × Handle)
  | [] => .inl a
  | o :: r =>
    match s.gatherOut a r with
    | .inr w => .inr w
    | .inl a =>
      match o.who, o.resp with
      | .lane _ _ l, some (code, v) =>
        let va := match a.lanes.find? (fun x => x.lane == l) with | some x => x.va | none => 0
        if code ≠ 0 then .inl (a.noteFail (s.laneRec a code va))
        else
          let a := { a with lanes := a.lanes.map fun x => if x.lane = l then { x with old := v } else x }
          if a.op.orders then .inl a
          else match s.union a.readHandle o.handle with
            | .ok h => .inl { a with readHandle := h }
            | .ovf ha hb => .inl (a.noteFail (s.laneRec a (s.ovfCode ha hb) 0))
            | .wait ha hb => .inr (ha, hb)
      | _, _ => .inl a

/-- A part has its response: the access finishes with its last one, or waits for a union. -/
def State.partDone (s : State) (id pi : Nat) : Option State :=
  match s.acc? id with
  | none => some s
  | some a =>
    let a := a.modPart pi fun p => { p with st := .done }
    let s := s.setAcc id a
    if a.parts.all (fun p => p.st == .done) then s.accFinish id else some s

/-- `MEMORY_RESPONSE_ARRIVAL` (R54, R41): the response of a part reaches the requester. -/
def execMemoryResponseArrival (acc part : Nat) (s : State) : Res :=
  match s.acc? acc with
  | none =>
    match s.elems.findSome? (fun e => (s.respPort e.1 acc part).map fun p => (e.1, p)) with
    | some (pos, port) => .next (s.setBuf pos port 2 ((s.buf pos port 2).drop 1))
    | none => idle s
  | some a =>
    match a.parts[part]? with
    | none => idle s
    | some p =>
      match p.home with
      | .bank _ =>
        match s.respPort a.pos acc part with
        | none => idle s
        | some port =>
          match (s.setBuf a.pos port 2 ((s.buf a.pos port 2).drop 1)).partDone acc part with
          | some s => .next s
          | none => .next (s.accAsk acc)
      | .chan _ =>
        if p.st = .response then
          match s.partDone acc part with
          | some s => .next s
          | none => .next (s.accAsk acc)
        else idle s
      | _ =>
        let mine := s.outside.filter fun o => match o.who with | .lane i q _ => i == acc && q == part | _ => false
        if p.st = .done ∨ mine.any (fun o => o.resp.isNone) then idle s
        else
          match s.gatherOut a mine with
          | .inr (ha, hb) => .next (s.askUnion ha hb a.ctx a.part)
          | .inl a =>
            let s1 := { s with outside := s.outside.filter fun o => match o.who with
              | .lane i q _ => !(i == acc && q == part) | _ => true }
            match (s1.setAcc acc a).partDone acc part with
            | some s => .next s
            | none => .next (s.accAsk acc)

/-- `HELD_ACCESS_RESUME` (R16): an access held on a folio map entry, or waiting for room in the miss table, is resolved
again. -/
def execHeldAccessResume (acc : Nat) (s : State) : Res :=
  match s.acc? acc with
  | none => idle s
  | some a =>
    match a.hold with
    | .moving lf =>
      match s.mapEntry a.part lf with
      | some { st := .moving, .. } => idle s
      | _ => .next (s.accResolve acc)
    | .walk => if s.misses.any (fun m => m.accs.contains acc) then idle s else .next (s.accResolve acc)
    | _ => idle s

/-- The oldest entry that is deliverable: it has its tokens, and no earlier entry of its stream stands before it (R41, R42). -/
def robPick : List RobEntry → List RobEntry → Option RobEntry
  | _, [] => none
  | before, r :: rest =>
    let same (q : RobEntry) : Bool := q.slotIx == r.slotIx && q.node == r.node && q.stream == r.stream
    if r.done.isSome && !before.any same then some r else robPick (before ++ [r]) rest

/-- `ROB_RELEASE` (R42): the oldest deliverable entry leaves. -/
def execRobRelease (pos : Nat) (s : State) : Res :=
  let e := s.elem pos
  match robPick [] e.rob with
  | none => idle s
  | some r =>
    match tabGet e.slots r.slotIx with
    | none => idle s
    | some sl =>
      let f : Fire := { pos := pos, slotIx := r.slotIx, slot := sl, pair := default, ctx := sl.ctx, part := s.partOf sl.ctx,
                        node := r.node, nest := 0, acts := [], act := 64 }
      let s := s.modElem pos fun e => { e with rob := dropFirst (fun q => q.acc == r.acc) e.rob }
      .next (s.emitAll f (r.done.getD []))

/-! ### Walks and faults (R64 to R73) -/

/-- The misses of a die in a state, in miss-table order. -/
def State.missesOf (s : State) (die : Nat) (p : WalkSt → Bool) : List Miss :=
  s.misses.filter fun m => m.die == die && p m.st

def WalkSt.isReading : WalkSt → Bool
  | .reading _ _ => true
  | _ => false

def WalkSt.waits : WalkSt → Bool
  | .pending | .noslot _ _ _ => true
  | _ => false

/-- A miss-table entry changed. -/
def State.modMiss (s : State) (m : Miss) (g : Miss → Miss) : State :=
  { s with misses := s.misses.map fun x => if x = m then g x else x }

/-- The deepest table pointer that the walker cache holds for a VA (R66). -/
def State.pointer (s : State) (die part va : Nat) : Option CachedPtr :=
  if Config.cacheKeeps die s.tick then
    let cov (c : CachedPtr) : Bool := c.part == part &&
      (match c.level with | 1 => c.va / 2 ^ 43 == va / 2 ^ 43 | 2 => c.va / 2 ^ 32 == va / 2 ^ 32 | _ => c.va / 2 ^ 21 == va / 2 ^ 21)
    let l := ((tabGet s.pointers die).getD []).filter cov
    l.foldl (fun b c => match b with | some x => if c.level > x.level then some c else b | none => some c) none
  else none

/-- A walk faults (R70, R71): its requests park on a record, or wait for one, or end with the code. -/
def State.walkFault (s : State) (m : Miss) (code lvl e : Nat) (rcv : Bool) : State :=
  if rcv && s.hasFq m.part then
    let old := match s.part? m.part with
      | some p => p.faults.find? fun (f : FaultOut) => !f.failed && f.die == m.die && f.page == m.page
      | none => none
    let park (s : State) (seq : Nat) : State :=
      { s with
        misses := s.misses.map fun x => if x = m then { x with st := .parked seq } else x
        accs := s.accs.map fun (q : Nat × Access) => if m.accs.contains q.1 then (q.1, { q.2 with hold := Hold.parked seq }) else q }
    match old with
    | some f => park s f.seq
    | none =>
      match s.newFault m.part m.die m.page code lvl e m.who [] with
      | some (seq, s) => park s seq
      | none => s.modMiss m fun x => { x with st := .noslot code lvl (BitVec.ofNat 64 e) }
  else
    let mark (l : LaneAcc) : LaneAcc := if l.place.isNone && !l.logical && l.va / 65536 == m.page then { l with code := code } else l
    let s := { s with
      misses := s.misses.filter (· ≠ m)
      accs := s.accs.map fun (q : Nat × Access) => if m.accs.contains q.1 then (q.1, { q.2 with lanes := q.2.lanes.map mark }) else q }
    s.accResolveAll m.accs

/-- `WALK_START` (R67): a walk starts for a miss-table entry while one of the 16 walkers is free, at the root or at a table
that the walker cache holds. -/
def execWalkStart (die idx : Nat) (s : State) : Res :=
  match (s.missesOf die WalkSt.waits)[idx]? with
  | none => idle s
  | some m =>
    match m.st with
    | .noslot code lvl e => .next (s.walkFault m code lvl e.toNat true)
    | _ =>
      if (s.missesOf die WalkSt.isReading).length < 16 then
        let va := m.page * 65536
        let st := match s.pointer die m.part va with
          | some c => WalkSt.reading c.level c.base
          | none => .reading 0 (s.ptroot m.part)
        .next (s.modMiss m fun x => { x with st := st, restart := false })
      else idle s

/-- A finished walk gives its leaf to the lanes of its accesses that it permits (R67). -/
def State.giveLeaf (s : State) (m : Miss) (pte e : Nat) (big : Bool) : State :=
  let set (a : Access) (l : LaneAcc) : LaneAcc :=
    if l.place.isNone && l.code == 0 && !l.logical && l.va / 65536 == m.page && ptPermits e a.op.xkind then
      { l with place := some (s.leafPlace l.va pte e big)
               dirty := if a.op.modifies && bitF e 7 7 == 0 then some pte else none }
    else l
  { s with
    misses := s.misses.filter (· ≠ m)
    accs := s.accs.map fun (q : Nat × Access) => if m.accs.contains q.1 then (q.1, { q.2 with lanes := q.2.lanes.map (set q.2) }) else q }

/-- `WALK_TABLE_READ_DONE` (R64): a table read returns: the walk goes on, completes with A and D set, or faults. An
invalidation that struck it makes it start again (R69). -/
def execWalkTableReadDone (die idx : Nat) (s : State) : Res :=
  match (s.missesOf die WalkSt.isReading)[idx]? with
  | none => idle s
  | some m =>
    match m.st with
    | .reading lvl base =>
      let va := m.who.va
      if !s.stackAwake base then idle s
      else if m.restart then .next (s.modMiss m fun x => { x with st := .reading 0 (s.ptroot m.part), restart := false })
      else
        match s.walkRead lvl base va m.kind with
        | .next b =>
          let c : CachedPtr := { part := m.part, level := lvl + 1, va := va, base := b }
          let s := { s with pointers := tabPut s.pointers die (c :: (tabGet s.pointers die).getD []) }
          .next (s.modMiss m fun x => { x with st := .reading (lvl + 1) b })
        | .fault code l e rcv => .next (s.walkFault m code l e rcv)
        | .leaf pte e l =>
          let big := l == 2
          match s.floor (ptAddr e l va) e big with
          | (.wait ha hb, s) => .next (s.askUnion ha hb m.who.ctx m.part)
          | (.ovf ha hb, s) => .next ((s.plateOvf ha hb m.who.ctx m.part).walkFault m (s.ovfCode ha hb) l e false)
          | (.ok _, s) =>
            let e' := ptTouched e m.kind
            let s := if e' = e then s else s.modLeaf pte fun x => ptTouched x m.kind
            let s := s.cacheLeaf die m.part va pte e' l
            .next ((s.giveLeaf m pte e' big).accResolveAll m.accs)
    | _ => idle s

/-- `FAULT_CHANNEL_MESSAGE` (R72): the oldest record whose message has not been sent enters the fault channel. -/
def execFaultChannelMessage (part : Nat) (s : State) : Res :=
  match s.part? part with
  | none => idle s
  | some p =>
    match p.faults.find? (fun f => !f.sent), p.fqChan with
    | some f, some (lf, q, ch) =>
      match s.quireOfRef part lf q with
      | none => idle s
      | some k =>
        let t := faultMessage ((s.qcc k).ctx.getD 0) f.record f.plate
        match s.pushChan k ch t with
        | none => idle s
        | some s => .next (s.modPart part fun p =>
            { p with faults := p.faults.map fun x => if x.seq = f.seq then { x with sent := true } else x })
    | _, _ => idle s

/-- The accesses parked on a record (R71). -/
def State.parkedOn (s : State) (part seq : Nat) : List Nat :=
  (s.misses.filter fun (m : Miss) => m.part == part && m.st == WalkSt.parked seq).flatMap (·.accs)

/-- FQRES (R73): an outstanding record ends and its requests replay, translated afresh. -/
def State.fqResume (s : State) (part seq : Nat) : State :=
  match s.part? part with
  | none => s
  | some p =>
    if p.faults.any (fun (f : FaultOut) => f.seq == seq && !f.failed) then
      let ids := s.parkedOn part seq
      let s := s.setPart part { p with faults := p.faults.filter fun f => f.seq != seq }
      let s := { s with misses := s.misses.filter fun (m : Miss) => !(m.part == part && m.st == WalkSt.parked seq) }
      s.accResolveAll ids
    else s

/-- FQFAIL (R73): an outstanding record ends and its requests end with its CODE. -/
def State.fqFail (s : State) (part seq : Nat) : State :=
  match s.part? part with
  | none => s
  | some p =>
    match p.faults.find? (fun (f : FaultOut) => f.seq == seq && !f.failed) with
    | none => s
    | some f =>
      let ids := s.parkedOn part seq
      let code := bitF f.record.toNat 223 216
      let fs := p.faults.map fun x => if x.seq = seq then { x with failed := true } else x
      let s := s.setPart part { p with faults := fs.filter fun x => !(x.seq == seq && x.waiters.isEmpty) }
      let mark (l : LaneAcc) : LaneAcc := if l.place.isNone && !l.logical && l.va / 65536 == f.page then { l with code := code } else l
      let s := { s with
        misses := s.misses.filter fun (m : Miss) => !(m.part == part && m.st == WalkSt.parked seq)
        accs := s.accs.map fun (q : Nat × Access) => if ids.contains q.1 then (q.1, { q.2 with lanes := q.2.lanes.map mark }) else q }
      s.accResolveAll ids

/-! ### Invalidation (R68, R69) -/

/-- Whether a page of a VA lies in an invalidated range: all, or `n` bytes at `va`. -/
def inRange (all : Bool) (va n a m : Nat) : Bool := all || overlaps va n a m

/-- An invalidation starts (R68): copies are removed, walks in flight restart, and BUSY waits for the accesses that used a
removed copy. -/
def State.invalidate (s : State) (quire part : Nat) (all : Bool) (va n : Nat) : State :=
  let leafIn (c : Cached) : Bool := c.part == part && inRange all va n
    (if c.big then c.va / 2 ^ 21 * 2 ^ 21 else c.va / 65536 * 65536) (if c.big then 2 ^ 21 else 65536)
  let ptrIn (c : CachedPtr) : Bool :=
    let sz := match c.level with | 1 => 2 ^ 43 | 2 => 2 ^ 32 | _ => 2 ^ 21
    c.part == part && inRange all va n (c.va / sz * sz) sz
  let used (q : Nat × Access) : Bool := q.2.part == part && q.2.lanes.any fun l =>
    l.place.isSome && !l.logical && decide (l.va ≥ 2 ^ 32) && inRange all va n l.va l.size
  let hit (m : Miss) : Miss :=
    if m.part == part && m.st.isReading && inRange all va n (m.page * 65536) 65536 then { m with restart := true } else m
  { s with
    cached := s.cached.map fun q => (q.1, q.2.filter fun c => !leafIn c)
    pointers := s.pointers.map fun q => (q.1, q.2.filter fun c => !ptrIn c)
    misses := s.misses.map hit
    invals := s.invals ++ [{ quire := quire, part := part, waits := (s.accs.filter used).map (·.1) }] }

/-- `INVALIDATION_COMPLETE` (R68): every request that used a removed copy is performed or parked; BUSY drops. -/
def execInvalidationComplete (idx : Nat) (s : State) : Res :=
  match s.invals[idx]? with
  | none => idle s
  | some v =>
    let done (id : Nat) : Bool := match s.acc? id with
      | none => true
      | some a => (match a.hold with | .parked _ => true | _ => false)
          || (!a.parts.isEmpty && a.parts.all fun p => p.st == .response || p.st == .done)
    if v.waits.all done then .next { s with invals := listDrop s.invals idx } else idle s

end Sys2Proof.Machine
end

