-- ==== Sys2Proof/Machine/Steer.lean ====
section
/-! DEFINITION. The steering, activation and predicate opcodes of the elements (R228 to R238). -/

namespace Sys2Proof.Machine

/-- Operand A of a node that fires on any format, and the predicate in slot R. -/
def Fire.readA (f : Fire) (o : ElemOps) (cw : Bool) : Opnd :=
  f.read (srcOf o.sa) (dataLit o cw) (f.want allFmts [srcOf o.sa, srcOf o.sb])

/-- The course of `steer`, `merge` and `cmerge`: only bit 0 of the predicate is read, whatever its colour (R224, R228). -/
def State.steering (s : State) (o : ElemOps) (shY : Opnd → Opnd → Shape)
    (out : Opnd → Opnd → Shape → List (Nat × Shape × BitVec 1024)) : Res :=
  match s.fire with
  | none => idle s
  | some f =>
    let a := f.readA o false
    let p := f.read .slotR 0 .bits
    let n := colourOf [a, p]
    let sh := Shape.like a n
    .next (s.runFire f o [a, p] .all sh (shY a p) (a.lane 0) 0 (stdCheck n [(a, allFmts)]) (.toks (out a p sh)))

def execSteer (o : ElemOps) (s : State) : Res :=
  s.steering o (fun a p => Shape.like a (colourOf [a, p])) fun a p sh =>
    if p.bit 0 then [(o.dx.toNat, sh, a.pay)] else [(o.dy.toNat, sh, a.pay)]

def execMerge (o : ElemOps) (s : State) : Res :=
  s.steering o (fun a p => Shape.like a (colourOf [a, p])) fun a _ sh =>
    [(o.dx.toNat, sh, a.pay), (o.dy.toNat, sh, a.pay)]

def execCmerge (o : ElemOps) (s : State) : Res :=
  s.steering o (fun _ p => { Shape.pred (p.lanes.getD 1) with ord := p.ord }) fun a p sh =>
    [(o.dx.toNat, sh, a.pay), (o.dy.toNat, { Shape.pred (p.lanes.getD 1) with ord := p.ord }, p.pay)]

/-- The course of a node that passes operand A on with its handle (R81). -/
def State.passOn (s : State) (o : ElemOps) : Res :=
  match s.fire with
  | none => idle s
  | some f =>
    let a := f.readA o false
    let n := colourOf [a]
    let sh := Shape.like a n
    .next (s.runFire f o [a] (.pass a.plate) sh sh (a.lane 0) 0 none
      (.toks [(o.dx.toNat, sh, a.pay), (o.dy.toNat, sh, a.pay)]))

def execCopy (o : ElemOps) (s : State) : Res := s.passOn o
def execPass (o : ElemOps) (s : State) : Res := s.passOn o

/-- `sink` (R228): A is discarded; poison is reported (R376). -/
def execSink (o : ElemOps) (s : State) : Res :=
  match s.fire with
  | none => idle s
  | some f =>
    let a := f.readA o false
    let s := s.issued f
    .next (if a.poison then s.sink f.ctx a.record (s.logOf f.part f.pos) f.node a.plate else s)

/-- `gate` (R228): lanes of A whose predicate bit is 0 become zero. -/
def execGate (o : ElemOps) (s : State) : Res :=
  match s.fire with
  | none => idle s
  | some f =>
    let a := f.readA o false
    let p := f.read .slotR 0 .bits
    let n := colourOf [a, p]
    let sh := Shape.data a.fmt n
    let pay := packLanes (fmtWidth a.fmt) ((List.range n).map fun i => if p.bit i then a.lane i else 0)
    .next (s.runFire f o [a, p] .all sh sh (a.lane 0) 0 (stdCheck n [(a, allFmts), (p, allFmts)])
      (.toks [(o.dx.toNat, sh, pay), (o.dy.toNat, sh, pay)]))

/-- `const` (R228): every lane of B with A's colour and tag, in A's format. -/
def execConst (o : ElemOps) (s : State) : Res :=
  match s.fire with
  | none => idle s
  | some f =>
    let a := f.readA o false
    let b := f.read (srcOf o.sb) (dataLit o false) a.fmt
    let n := colourOf [a, b]
    let sh := Shape.data a.fmt n
    let pay := packLanes (fmtWidth a.fmt) ((List.range n).map b.lane)
    .next (s.runFire f o [a, b] .all sh sh (a.lane 0) 0 (stdCheck n [(a, allFmts), (b, allFmts)])
      (.toks [(o.dx.toNat, sh, pay), (o.dy.toNat, sh, pay)]))

/-- `join` (R228): A, once A and B have both arrived. -/
def execJoin (o : ElemOps) (s : State) : Res :=
  match s.fire with
  | none => idle s
  | some f =>
    let want := f.want allFmts [srcOf o.sa, srcOf o.sb]
    let a := f.read (srcOf o.sa) (dataLit o false) want
    let b := f.read (srcOf o.sb) (dataLit o false) want
    let n := colourOf [a, b]
    let sh := Shape.like a n
    .next (s.runFire f o [a, b] .all sh sh (a.lane 0) 0 (stdCheck n [(a, allFmts), (b, allFmts)])
      (.toks [(o.dx.toNat, sh, a.pay), (o.dy.toNat, sh, a.pay)]))

/-! ### `reorder` (R160, R229) -/

/-- The expected value of an instance of a `reorder` node. -/
def Slot.expected (sl : Slot) (node : Nat) (inst : BitVec 48) : Nat :=
  match sl.expects.find? (fun x => x.node == node && x.inst == inst) with
  | some x => x.value
  | none => 0

/-- The slot with the expected value of an instance set; zero is not kept. -/
def Slot.setExpected (sl : Slot) (node : Nat) (inst : BitVec 48) (v : Nat) (spilled : Bool) : Slot :=
  let old := sl.expects.find? (fun x => x.node == node && x.inst == inst)
  let rest := sl.expects.filter fun x => !(x.node == node && x.inst == inst)
  let sp := match old with | some x => x.spilled | none => spilled
  { sl with expects := if v = 0 then rest else rest ++ [{ node := node, inst := inst, value := v, spilled := sp }] }

/-- Whether a token is one that a `reorder` node holds with this NEST. -/
def heldAt (ctx node : Nat) (nest : BitVec 48) (t : Token) : Bool :=
  t.ctx.toNat == ctx && t.node.toNat == node && t.nest == nest

/-- A held token of the matching store, or of the overflow store of the quire. -/
def State.heldToken (s : State) (pos ctx node : Nat) (nest : BitVec 48) : Option Token :=
  match (s.elem pos).mstore.find? (fun h => h.role == .held && heldAt ctx node nest h.tok) with
  | some h => some (s.heldTok pos h)
  | none =>
    let o := s.ovf (quireOf pos)
    match (o.entries ++ o.spilling).find? (fun e => e.pos == pos && e.what == .held && heldAt ctx node nest e.tok) with
    | some e => some (s.ovfTok e)
    | none => none

/-- A held token leaves its store. -/
def State.releaseHeld (s : State) (pos ctx node : Nat) (nest : BitVec 48) : State :=
  let mine (h : Held) : Bool := h.role == .held && heldAt ctx node nest h.tok
  if (s.elem pos).mstore.any mine then
    let s1 := ((s.elem pos).mstore.filter mine).foldl (fun s h => s.heldErr pos h) s
    s1.modElem pos fun e => { e with mstore := e.mstore.filter fun h => !mine h }
  else
    let q := quireOf pos
    let o := s.ovf q
    let keep (e : OvfEntry) : Bool := !(e.pos == pos && e.what == .held && heldAt ctx node nest e.tok)
    let s := ((o.entries ++ o.spilling).filter fun e => !keep e).foldl (fun s e => s.ovfErr e) s
    let s := s.setOvf q { o with entries := o.entries.filter keep, spilling := o.spilling.filter keep }
    s.modElem pos fun e => e.spillAdd ctx false

/-- A token is held by a `reorder`: in a matching entry, or else in the overflow store (R229). -/
def State.hold (s : State) (pos ctx : Nat) (t : Token) : State :=
  if (s.elem pos).entryFree ctx then
    s.modElem pos fun e => { e with mstore := e.mstore ++ [{ tok := t, role := .held, bad := false }] }
  else
    let q := quireOf pos
    let o := s.ovf q
    let deep := (s.spillTo q ctx t).getD false
    let s := s.setOvf q { o with spilling := o.spilling ++
      [{ pos := pos, ctx := ctx, tok := t, what := .held, deep := deep, upset := 0 }] }
    s.modElem pos fun e => e.spillAdd ctx true

/-- `reorder` (R229): the expected token passes, poison or not, and the next held token goes to the head of the ready FIFO;
any other token is held. -/
def execReorder (o : ElemOps) (s : State) : Res :=
  match s.fire with
  | none => idle s
  | some f =>
    match (if srcOf o.sa = .slotR then f.pair.opR else f.pair.opL) with
    | none => idle s
    | some t =>
      let a := actAt f.acts f.act
      let inst : BitVec 48 := BitVec.ofNat 48 (f.nest.toNat / 2 ^ a.width)
      let exp := f.slot.expected f.node inst
      let dup := (s.heldToken f.pos f.ctx f.node f.nest).isSome
      let s1 := s.issued f
      if dup then .next (s1.fabricFault f.ctx (s.nodeRec 0x61 f.ctx f.pos f.node f.nest.toNat) (s.logOf f.part f.pos) f.node t.plate)
      else if f.f0 ≠ exp then .next (s1.hold f.pos f.ctx t)
      else
        let op := Opnd.ofToken (srcOf o.sa) t
        let res := match tagAction f o.ta.toNat (if op.poison then 0 else op.lane 0) 0 with
          | some nest => { t with nest := nest }
          | none => poisonToken f.ctx f.nest (Shape.like op 1) t.plate (s.nodeRec 0x62 f.ctx f.pos f.node 0)
        let s2 := s1.emitAll f [(o.dx.toNat, res), (o.dy.toNat, res)]
        let nxt := (exp + 1) % 2 ^ a.granted
        let free := (s2.elem f.pos).entryFree f.ctx
        let s3 := s2.modElem f.pos fun e => e.modSlot f.slotIx fun sl => sl.setExpected f.node inst nxt (!free)
        let want : BitVec 48 := BitVec.ofNat 48 (inst.toNat * 2 ^ a.width + nxt)
        match s3.heldToken f.pos f.ctx f.node want with
        | none => .next s3
        | some h =>
          let s4 := s3.releaseHeld f.pos f.ctx f.node want
          let p : Pair := { node := f.node, opL := if h.slotR then none else some h, opR := if h.slotR then some h else none,
                            ordL := none, switch := false }
          .next (s4.modElem f.pos fun e => { e with fifo := (f.slotIx, p) :: e.fifo })

/-! ### Activations and tag fields (R153, R154, R169, R230 to R233) -/

/-- The live count of an activation at its `alloc` raised or lowered. -/
def Slot.liveSet (sl : Slot) (act n : Nat) : Slot := { sl with live := tabPut sl.live act n }

/-- The record of a TAGEXH message (R169). -/
def tagexhRec (ctx act lf quire elem node live : Nat) (nest : BitVec 48) : BitVec 128 :=
  BitVec.ofNat 128 (0x63 * 2 ^ 120 + ctx % 4096 * 2 ^ 108 + act % 64 * 2 ^ 102 + lf % 256 * 2 ^ 94 + quire % 4 * 2 ^ 92
    + elem % 16 * 2 ^ 88 + node % 256 * 2 ^ 80 + live % 65536 * 2 ^ 64 + nest.toNat * 2 ^ 16)

/-- An `alloc` fires: it emits the token widened to the granted lanes under the opened tag and counts the instance (R230). -/
def State.allocFire (s : State) (f : Fire) (o : ElemOps) (act : Nat) : State :=
  let ac := actAt f.acts act
  let a := f.read (srcOf o.sa) 0 .bits
  let c := colourOf [a]
  let sh := Shape.data a.fmt ac.lanes
  let pay := packLanes (fmtWidth a.fmt) ((List.range ac.lanes).map fun i => if i < c then a.lane i else 0)
  let n := tabNum f.slot.live act
  let s1 := s.runFire f o [a] .all sh sh 0 ac.width (if c > ac.lanes then some 0x66 else none)
    (.toks [(o.dx.toNat, sh, pay), (o.dy.toNat, sh, pay)])
  if a.poison ∨ c > ac.lanes then s1
  else s1.modElem f.pos fun e => e.modSlot f.slotIx fun sl => sl.liveSet act (n + 1)

/-- The `alloc` emits poison TAGEXH on every output: FAIL was written for its record (R169). -/
def State.allocFail (s : State) (f : Fire) (o : ElemOps) (act : Nat) : State :=
  let a := f.read (srcOf o.sa) 0 .bits
  let sh := Shape.data a.fmt (actAt f.acts act).lanes
  s.runFire f o [a] .all sh sh 0 (actAt f.acts act).width (some 0x63) (.toks [])

/-- An `alloc` pair held in the FIFO whose message has been sent is forgotten (R169). -/
def State.dropExh (s : State) (f : Fire) : State :=
  s.modElem f.pos fun e => { e with exh := dropFirst (fun x => x.1 == f.slotIx && x.2.1 == f.pair) e.exh }

/-- What FAIL was written for of a held `alloc` pair: none when its message has not been sent. -/
def State.exhOf (s : State) (f : Fire) : Option Bool :=
  match (s.elem f.pos).exh.find? (fun x => x.1 == f.slotIx && x.2.1 == f.pair) with
  | some x => some x.2.2
  | none => none

/-- `alloc` (R230): fires below LIVE; at the bound it is parked, or stays in the FIFO, after one TAGEXH message (R169). -/
def execAlloc (o : ElemOps) (s : State) : Res :=
  match s.fire with
  | none => idle s
  | some f =>
    let act := bitF (f.cw o) 31 26
    let ac := actAt f.acts act
    let a := f.read (srcOf o.sa) 0 .bits
    let t := if srcOf o.sa = .slotR then f.pair.opR else f.pair.opL
    if s.exhOf f = some true then .next ((s.allocFail f o act).dropExh f)
    else if a.poison ∨ colourOf [a] > ac.lanes ∨ tabNum f.slot.live act < ac.live then
      .next ((s.allocFire f o act).dropExh f)
    else
      let r := tagexhRec f.ctx act (s.lfOf f.part (folioOf f.pos)) (quireOf f.pos) f.pos f.node ac.live f.nest
      let s1 := if (s.exhOf f).isSome then s else s.sendTrap f.ctx 4 r 0 0xFF a.plate
      match t, s.spillTo (quireOf f.pos) f.ctx (t.getD (Token.blank f.ctx)) with
      | some t, some deep =>
        let q := quireOf f.pos
        let ov := s1.ovf q
        let s2 := (s1.issued f).dropExh f
        .next (s2.setOvf q { ov with entries := ov.entries ++
          [{ pos := f.pos, ctx := f.ctx, tok := t, what := .alloc f.pair true false, deep := deep, upset := 0 }] })
      | _, _ =>
        let s2 := if (s.exhOf f).isSome then s1
          else s1.modElem f.pos fun e => { e with exh := e.exh ++ [(f.slotIx, f.pair, false)] }
        .next s2.yieldTurn

/-- A notice travels on the data class to the `alloc` of an activation (R154). -/
def State.notice (s : State) (ctx pos act : Nat) : State :=
  match s.allocSite ctx act with
  | some (p, n) => s.setBuf pos 4 0 (s.buf pos 4 0 ++ [.notice p ctx act n])
  | none => s

/-- `free` (R231): A goes on with its tag action, and the notice is sent even for poison (R225). -/
def execFree (o : ElemOps) (s : State) : Res :=
  match s.fire with
  | none => idle s
  | some f =>
    match s.passOn o with
    | .next s1 => .next (s1.notice f.ctx f.pos f.act)
    | r => r

/-- `pack` (R232): part PART of A is replaced by B. -/
def execPack (o : ElemOps) (s : State) : Res :=
  match s.fire with
  | none => idle s
  | some f =>
    let cw := f.cw o
    let gl := (actAt f.acts (bitF cw 31 26)).lanes
    let want := f.want allFmts [srcOf o.sa, srcOf o.sb]
    let a := f.read (srcOf o.sa) (dataLit o true) want
    let b := f.read (srcOf o.sb) (dataLit o true) want
    let c := a.lanes.getD (colourOf [a, b])
    let k0 := bitF cw 25 21 * gl
    let sh := Shape.data a.fmt c
    let pay := packLanes (fmtWidth a.fmt) ((List.range c).map fun k => if k0 ≤ k ∧ k < k0 + gl then b.lane (k - k0) else a.lane k)
    let ck := if !b.ord ∧ b.lanes.getD gl ≠ gl then some 0x66
      else if !a.ord ∧ !b.ord ∧ a.fmt ≠ b.fmt then some 0x70 else none
    .next (s.runFire f o [a, b] .all sh sh (a.lane 0) 0 ck (.toks [(o.dx.toNat, sh, pay), (o.dy.toNat, sh, pay)]))

/-- `unpack` (R232): part PART of A; no token when it lies beyond A. -/
def execUnpack (o : ElemOps) (s : State) : Res :=
  match s.fire with
  | none => idle s
  | some f =>
    let cw := f.cw o
    let gl := (actAt f.acts (bitF cw 31 26)).lanes
    let a := f.readA o true
    let c := a.lanes.getD 1
    let k0 := bitF cw 25 21 * gl
    let sh := Shape.data a.fmt gl
    let pay := packLanes (fmtWidth a.fmt) ((List.range gl).map fun j => if k0 + j < c then a.lane (k0 + j) else 0)
    .next (s.runFire f o [a] .all sh sh (a.lane 0) 0 none
      (.toks (if k0 < c then [(o.dx.toNat, sh, pay), (o.dy.toNat, sh, pay)] else [])))

/-- The field at depth `d` outward from f0 of activation `act` (R233). -/
def tagField (acts : List Act) : Nat → Nat → Nat → Nat
  | act, n, 0 => n % 2 ^ (actAt acts act).width
  | act, n, d + 1 => tagField acts (actAt acts act).parent (n / 2 ^ (actAt acts act).width) d

/-- `tagidx` (R233). -/
def execTagidx (o : ElemOps) (s : State) : Res :=
  match s.fire with
  | none => idle s
  | some f =>
    let cw := f.cw o
    let ac := actAt f.acts (bitF cw 25 20)
    let a := f.readA o true
    let n := colourOf [a]
    let v := match bitF cw 31 30 with
      | 0 => tagField f.acts f.act f.nest.toNat (bitF cw 29 26)
      | 1 => ac.lanes
      | _ => 2 ^ ac.granted
    let sh := Shape.data .i32 n
    let pay := packLanes 32 (List.replicate n v)
    .next (s.runFire f o [a] .all sh sh (a.lane 0) 0 (stdCheck n [(a, allFmts)])
      (.toks [(o.dx.toNat, sh, pay), (o.dy.toNat, sh, pay)]))

/-- `chktag` (R233): A goes on when the field is the expected value; otherwise poison TAGCHK (0x67). -/
def execChktag (o : ElemOps) (s : State) : Res :=
  match s.fire with
  | none => idle s
  | some f =>
    let cw := f.cw o
    let useB := bitF cw 27 27 = 1
    let a := f.readA o true
    let b := f.read (if useB then srcOf o.sb else .none) (dataLit o true) .i32
    let n := colourOf [a, b]
    let sh := Shape.data a.fmt n
    let want := if useB then b.lane 0 else bitF cw 15 0
    let eff := if tagField f.acts f.act f.nest.toNat (bitF cw 31 28) = want
      then Effect.toks [(o.dx.toNat, sh, a.pay), (o.dy.toNat, sh, a.pay)] else .fault 0x67 0
    .next (s.runFire f o [a, b] .all sh sh (a.lane 0) 0 (stdCheck n [(a, allFmts), (b, intFmts)]) eff)

/-! ### Predicates (R238) -/

def execPand (o : ElemOps) (s : State) : Res := s.predicate o true fun a b => a && b
def execPor (o : ElemOps) (s : State) : Res := s.predicate o true fun a b => a || b
def execPnot (o : ElemOps) (s : State) : Res := s.predicate o false fun a _ => !a
def execPxor (o : ElemOps) (s : State) : Res := s.predicate o true fun a b => a ^^ b

end Sys2Proof.Machine
end

