-- ==== Sys2Proof/Machine/Fabric.lean ====
section
/-! DEFINITION. Links, arrival and matching of tokens, spills and searches, configuration-cache misses, switched slots, and the
output stage (R39, R47 to R52, R127, R149, R150, R154 to R158, R169 to R173, R179, R234 to R237). -/

namespace Sys2Proof.Machine

/-- Whether a context is live and no tear-down of it has begun (R173). -/
def State.alive (s : State) (ctx : Nat) : Bool := match s.ctx? ctx with | some c => c.tear == .alive | none => false

/-- Whether an element may issue a pair of a context: it is alive and not gated (R383, R401). -/
def State.mayIssue (s : State) (ctx : Nat) : Bool :=
  match s.ctx? ctx with | some c => c.tear == .alive && !c.gated && !c.sliced | none => false

/-- `n` tokens, messages or commands of a context are discarded and counted (R173, R370). -/
def State.discardN (s : State) (ctx n : Nat) : State := s.modCtx ctx fun c => { c with discard := c.discard + n }

/-! ### Links (R39, R149, R161) -/

/-- The direction of the next hop, first along X and then along Y: 0 N, 1 E, 2 S, 3 W. -/
def nextDir (pos dst : Nat) : Nat :=
  if meshX pos < meshX dst then 1 else if meshX dst < meshX pos then 3
  else if meshY dst < meshY pos then 0 else 2

/-- The neighbour in a direction. -/
def neighbour (pos dir : Nat) : Nat :=
  match dir with
  | 0 => posOfXY (meshX pos) (meshY pos - 1)
  | 1 => posOfXY (meshX pos + 1) (meshY pos)
  | 2 => posOfXY (meshX pos) (meshY pos + 1)
  | _ => posOfXY (meshX pos - 1) (meshY pos)

def Flit.dst : Flit → Nat
  | .tok d _ => d
  | .notice d _ _ _ => d
  | .req d _ _ => d
  | .resp d _ _ => d

/-- Whether the head of a buffer waits for the link of a direction and its class is not stopped there. -/
def State.wantsLink (s : State) (pos port cls dir : Nat) : Bool :=
  match s.buf pos port cls with
  | f :: _ => f.dst != pos && nextDir pos f.dst == dir && decide ((s.buf (neighbour pos dir) ((dir + 2) % 4) cls).length < 2)
  | [] => false

/-- Whether some head of a class waits for a link. -/
def State.classWants (s : State) (pos cls dir : Nat) : Bool := (List.range 6).any fun p => s.wantsLink pos p cls dir

/-- Whether a class may use a link now (R39): responses first; requests and data alternate. -/
def State.linkTurn (s : State) (pos cls dir : Nat) : Bool :=
  match cls with
  | 0 => !s.classWants pos 2 dir && (!s.classWants pos 1 dir || tabNum s.linkLast (pos * 4 + dir) != 1)
  | 1 => !s.classWants pos 2 dir && (!s.classWants pos 0 dir || tabNum s.linkLast (pos * 4 + dir) != 2)
  | _ => true

/-- `LINK_TRANSFER` (R39, R149, R161): the head of a port's buffer crosses one link. -/
def execLinkTransfer (pos port cls : Nat) (s : State) : Res :=
  match s.buf pos port cls with
  | [] => idle s
  | f :: rest =>
    let dir := nextDir pos f.dst
    let n := neighbour pos dir
    if s.wantsLink pos port cls dir && s.linkTurn pos cls dir then
      let s := (s.setBuf pos port cls rest).setBuf n ((dir + 2) % 4) cls (s.buf n ((dir + 2) % 4) cls ++ [f])
      let s := match f with
        | .tok _ t => s.charge (dieOf pos) (s.partOf t.ctx.toNat) 0 (if dieOf n = dieOf pos then 1 else 8)
        | _ => s
      .next (if cls < 2 then { s with linkLast := tabPut s.linkLast (pos * 4 + dir) (cls + 1) } else s)
    else idle s

/-! ### What a node accepts (R127, R179, R199) -/

/-- The memory form of a memory opcode. -/
def memFormOf (opc : Nat) : MemForm :=
  match opc / 16, opc % 8 with
  | 9, 0 => .ld
  | 9, 1 => .st
  | 9, 2 => .ldg
  | 9, 3 => .sts
  | 9, 4 => .wadd
  | 9, 5 => .wrd
  | 9, 6 => .wclr
  | 9, 7 => .zero
  | _, 0 => .hld
  | _, 1 => .hst
  | _, _ => .atom

/-- The formats on which an opcode fires in operand A (0), B (1) or C (2); `cw` its control word (R199). -/
def nodeFmts (opc cw role : Nat) : List Fmt :=
  if opc < 0x15 then (if opc = 0x0D ∧ role = 1 then intFmts else allFmts)
  else if opc < 0x20 then [.i32]
  else if opc < 0x38 then
    (if opc = 0x20 ∨ opc = 0x21 ∨ (0x2B ≤ opc ∧ opc ≤ 0x36) then intFmts else [.i32])
  else if opc < 0x40 then intFmts
  else if opc < 0x60 then [.fp32]
  else if opc < 0x80 then [.bf16]
  else if opc = 0x80 then (if role = 0 then [fmtOf (bitF cw 31 29)] else intFmts)
  else if opc = 0x81 then (if role = 0 then [.q4, .q3] else intFmts)
  else if opc = 0x82 then (if role = 0 then [.fp32, .bf16] else intFmts)
  else if opc = 0x83 then [.fp32, .bf16]
  else if opc < 0x86 then allFmts
  else if opc < 0x88 then (if role = 0 then allFmts else intFmts)
  else if opc < 0x8C then [.i32]
  else if opc < 0x90 then [.fp32]
  else if opc ≤ 0xAA then (if role = 0 then intFmts else (memFormOf opc).bFmts (fmtOf (bitF cw 28 26)))
  else if opc < 0xB6 then []
  else if opc = 0xBE then [.bits]
  else allFmts

/-- The operand that a node reads through a slot: 0 A, 1 B, 2 C. -/
def Slot.roleOf (sl : Slot) (n : Nat) (slotR : Bool) : Nat :=
  let w := sl.word n
  let k := if slotR then 1 else 0
  if wSa w = k then 0 else if wSb w = k then 1 else 2

/-- The formats that a slot of a node accepts. -/
def Slot.slotFmts (sl : Slot) (n : Nat) (slotR : Bool) : List Fmt :=
  nodeFmts (wOpc (sl.word n)) (sl.lit (wLx (sl.word n))) (sl.roleOf n slotR)

/-- The checks on arrival: ORDMIS (R127, R234) and FMTMISS (R179). -/
def State.arriveForm (s : State) (pos : Nat) (sl : Slot) (t : Token) : Token :=
  let n := t.node.toNat
  if t.poison then t
  else if t.ord then
    if t.wid ≠ 0 ∨ (opcMemory (wOpc (sl.word n)) ∧ (!sl.ordered n ∨ t.slotR)) then s.poisonAt pos t 0x60 else t
  else if sl.takesPred n t.slotR ≠ (t.net == .pred) then s.poisonAt pos t 0x70
  else if t.net = .pred ∨ (sl.slotFmts n t.slotR).contains t.fmt then t
  else s.poisonAt pos t 0x70

/-! ### Matching (R47, R48, R51, R127, R156) -/

/-- The part of a firing that a token is: 0 the L operand, 1 the R operand, 2 the ordering token (R127, R373). -/
def Slot.partOf (sl : Slot) (t : Token) : Nat :=
  if t.slotR then 1 else if sl.ordered t.node.toNat && t.ord then 2 else 0

/-- The parts that a node of two slots needs. -/
def Slot.needs (sl : Slot) (n : Nat) : List Nat :=
  (if (sl.reads n).1 then [0] else []) ++ (if (sl.reads n).2 then [1] else []) ++ (if sl.ordered n then [2] else [])

/-- Whether two tokens have one key. -/
def sameKey (t u : Token) : Bool := t.ctx == u.ctx && t.nest == u.nest && t.node == u.node

/-- Operands of one key in the matching store, held aside, and in the overflow store, with the part each is. -/
def State.inStore (s : State) (pos : Nat) (sl : Slot) (t : Token) : List (Nat × Token) :=
  let e := s.elem pos
  (e.mstore.filter fun h => h.role == .operand && sameKey t h.tok).map (fun h => (sl.partOf h.tok, s.heldTok pos h))
    ++ (e.aside.filter fun a => sameKey t a.tok).map fun a => (sl.partOf a.tok, a.tok)

def State.inOvf (s : State) (pos : Nat) (sl : Slot) (t : Token) : List (Nat × Token) :=
  let o := s.ovf (quireOf pos)
  ((o.entries ++ o.spilling).filter fun e => e.pos == pos && e.what == .operand && sameKey t e.tok).map
    fun e => (sl.partOf e.tok, s.ovfTok e)

/-- A part among those found. -/
def partIn (l : List (Nat × Token)) (p : Nat) : Option Token := (l.find? fun q => q.1 == p).map (·.2)

/-- A pair made of parts. -/
def pairOf (n : Nat) (l : List (Nat × Token)) : Pair :=
  { node := n, opL := partIn l 0, opR := partIn l 1, ordL := partIn l 2, switch := false }

/-- The stored operands of a key leave; those in the overflow store free their granules (R48, R51). -/
def State.takeKey (s : State) (pos : Nat) (t : Token) (ovf : Bool) : State :=
  let e := s.elem pos
  let mine (h : Held) : Bool := h.role == .operand && sameKey t h.tok
  let s1 := (e.mstore.filter mine).foldl (fun s h => s.heldErr pos h) s
  let s2 := s1.modElem pos fun e =>
    { e with mstore := e.mstore.filter fun h => !mine h, aside := e.aside.filter fun a => !sameKey t a.tok }
  if ovf then
    let q := quireOf pos
    let o := s2.ovf q
    let hit (e : OvfEntry) : Bool := e.pos == pos && e.what == .operand && sameKey t e.tok
    let gone := (o.entries ++ o.spilling).filter hit
    let s3 := gone.foldl (fun s e => s.ovfErr e) s2
    let s4 := s3.setOvf q { s3.ovf q with entries := o.entries.filter fun e => !hit e, spilling := o.spilling.filter fun e => !hit e }
    s4.modElem pos fun e => gone.foldl (fun e _ => e.spillAdd t.ctx.toNat false) e
  else s2

/-- A pair enters the ready FIFO, if it has room (R157). -/
def State.pushReady (s : State) (pos i : Nat) (p : Pair) : Option State :=
  if (s.elem pos).fifo.length < 16 then some (s.modElem pos fun e => { e with fifo := e.fifo ++ [(i, p)] }) else none

/-- A token spills to its quire's overflow store; none when it cannot (R50). -/
def State.spillToken (s : State) (pos : Nat) (t : Token) (what : OvfKind) : Option State :=
  let ctx := t.ctx.toNat
  match s.spillTo (quireOf pos) ctx t with
  | none => none
  | some deep =>
    let q := quireOf pos
    let o := s.ovf q
    let s := s.setOvf q { o with spilling := o.spilling ++
      [{ pos := pos, ctx := ctx, tok := t, what := what, deep := deep, upset := 0 }] }
    some (s.modElem pos fun e => e.spillAdd ctx true)

/-- Steps 4 and 5 of R48: the operand takes an entry, or else spills; none when it can do neither (R50). -/
def State.storeOperand (s : State) (pos : Nat) (t : Token) : Option State :=
  if (s.elem pos).entryFree t.ctx.toNat then
    some (s.modElem pos fun e => { e with mstore := e.mstore ++ [{ tok := t, role := .operand, bad := false }] })
  else s.spillToken pos t .operand

/-- DUPOP (R156): the second operand is discarded with a fabric fault. -/
def State.dupop (s : State) (pos : Nat) (t : Token) : State :=
  let ctx := t.ctx.toNat
  s.fabricFault ctx (s.nodeRec 0x61 ctx pos t.node.toNat t.nest.toNat) (s.logOf (s.partOf ctx) pos) t.node.toNat t.plate

/-- An operand meets what is stored: `found` the parts it may pair with, `ovf` whether they include the overflow store,
`search` whether a search is still to come (R48, R51, R127). None when it cannot be taken now. -/
def State.matchOperand (s : State) (pos i : Nat) (sl : Slot) (t : Token) (found : List (Nat × Token)) (ovf search : Bool)
    (port : Nat) : Option State :=
  let n := t.node.toNat
  let p0 := sl.partOf t
  let second := p0 == 2 && !t.poison && (partIn found 2).isSome && (sl.reads n).1
  let t := if second then s.poisonAt pos t 0x60 else t
  let p := if second then 0 else p0
  if (partIn found p).isSome then some (s.dupop pos t)
  else
    let all := (p, t) :: found
    if (sl.needs n).all (fun q => (partIn all q).isSome) then
      (s.takeKey pos t ovf).pushReady pos i (pairOf n all)
    else if search ∧ sl.spill > 0 then
      some (s.modElem pos fun e => { e with aside := e.aside ++ [{ tok := t, port := port }] })
    else s.storeOperand pos t

/-- A token that is no switch token reaches its node (R156). None when it must stay where it is. -/
def State.arrive (s : State) (pos i : Nat) (sl : Slot) (t0 : Token) (port : Nat) : Option State :=
  let t := s.arriveForm pos sl t0
  let n := t.node.toNat
  if sl.twoSlot n then s.matchOperand pos i sl t (s.inStore pos sl t) false true port
  else s.pushReady pos i
    { node := n, opL := if t.slotR then none else some t, opR := if t.slotR then some t else none, ordL := none, switch := false }

/-! ### Switched slots (R236, R237) -/

/-- Switch tokens that have arrived on a slot of a node. -/
def Slot.switchesIn (sl : Slot) (k : Nat) : SwitchIn := (tabGet sl.switchIn k).getD { tokens := 0, sum := 0 }

/-- Predicates that have arrived beyond the sum of COUNT, modulo 2^32. -/
def Slot.predExcess (sl : Slot) (k : Nat) : Nat := (tabNum sl.predIn k + 2 ^ 32 - (sl.switchesIn k).sum % 2 ^ 32) % 2 ^ 32

/-- Whether a slot has its NIN switch tokens. -/
def Slot.tokensIn (sl : Slot) (k : Nat) : Bool := (sl.switchesIn k).tokens == tabNum sl.nin k

/-- Whether a slot has switched (R236). -/
def Slot.slotSwitched (sl : Slot) (n : Nat) (slotR : Bool) : Bool :=
  let k := 2 * n + (if slotR then 1 else 0)
  sl.tokensIn k && (!sl.takesPred n slotR || decide (sl.predExcess k < 2 ^ 31))

/-- Whether every slot that a node reads has its NIN switch tokens and counted predicates; true where nothing feeds it. -/
def Slot.inputsSwitched (sl : Slot) (n : Nat) : Bool :=
  (!((sl.reads n).1 || sl.ordered n) || sl.slotSwitched n false) && (!(sl.reads n).2 || sl.slotSwitched n true)

/-- Whether an edge feeds a slot that a node reads. A node that none feeds never sees its last slot switch (R237;
notes/assumptions/50.md). -/
def Slot.fed (sl : Slot) (n : Nat) : Bool :=
  (((sl.reads n).1 || sl.ordered n) && decide (tabNum sl.nin (2 * n) > 0))
    || ((sl.reads n).2 && decide (tabNum sl.nin (2 * n + 1) > 0))

/-- Whether the last slot that a node reads has switched (R236, R237). -/
def Slot.nodeSwitched (sl : Slot) (n : Nat) : Bool := sl.fed n && sl.inputsSwitched n

/-- One operand is stranded: counted, and in a strict context a fabric fault (R237). -/
def State.strandOne (s : State) (pos : Nat) (t : Token) : State :=
  let ctx := t.ctx.toNat
  let s := s.modCtx ctx fun c => { c with fault := { c.fault with strand := satAdd c.fault.strand 1 } }
  if s.strict ctx then
    s.fabricFault ctx (s.nodeRec 0x68 ctx pos t.node.toNat t.nest.toNat) (s.logOf (s.partOf ctx) pos) t.node.toNat t.plate
  else s

/-- Step 1 of R237: every operand of the context that waits at the node is stranded; a `reorder` frees its expected values. -/
def State.strandNode (s : State) (pos ctx n : Nat) : State :=
  let e := s.elem pos
  let at' (t : Token) : Bool := t.ctx.toNat == ctx && t.node.toNat == n
  let q := quireOf pos
  let o := s.ovf q
  let hit (e : OvfEntry) : Bool := e.pos == pos && (e.what == .operand || e.what == .held) && at' e.tok
  let gone := (o.entries ++ o.spilling).filter hit
  let toks := (e.mstore.filter fun h => at' h.tok).map (·.tok) ++ (e.aside.filter fun a => at' a.tok).map (·.tok)
    ++ gone.map (·.tok)
  let s := s.modElem pos fun e =>
    let e := { e with mstore := e.mstore.filter fun h => !at' h.tok, aside := e.aside.filter fun a => !at' a.tok }
    let e := gone.foldl (fun e _ => e.spillAdd ctx false) e
    e.modCtxSlot ctx fun sl => { sl with expects := sl.expects.filter fun x => x.node != n }
  let s := s.setOvf q { o with entries := o.entries.filter fun e => !hit e, spilling := o.spilling.filter fun e => !hit e }
  toks.foldl (fun s t => s.strandOne pos t) s

/-- A node whose last read slot has switched performs steps 1 and 2 of R237; none while the ready FIFO is full. -/
def State.switchCheck (s : State) (pos i n : Nat) : Option State :=
  match tabGet (s.elem pos).slots i with
  | none => some s
  | some sl =>
    if sl.nodeSwitched n && !sl.switched.contains n then
      let s := s.strandNode pos sl.ctx n
      let s := s.modElem pos fun e => e.modSlot i fun sl => { sl with switched := sl.switched ++ [n] }
      s.pushReady pos i { node := n, opL := none, opR := none, ordL := none, switch := true }
    else some s

/-- A switch token reaches a slot (R236): counted, or DUPOP when the slot has switched already; PREDCNT when more predicates
have arrived than its last token allows (R379). None when it must stay where it is. -/
def State.switchArrive (s : State) (pos i : Nat) (sl : Slot) (t : Token) : Option State :=
  let n := t.node.toNat
  let k := 2 * n + (if t.slotR then 1 else 0)
  let ctx := t.ctx.toNat
  if sl.tokensIn k then some (s.dupop pos t)
  else
    let w := sl.switchesIn k
    let w' : SwitchIn := { tokens := w.tokens + 1, sum := (w.sum + laneAt 32 t.pay 0) % 2 ^ 32 }
    let sl' := { sl with switchIn := tabPut sl.switchIn k w' }
    let s := s.modElem pos fun e => e.modSlot i fun _ => sl'
    let excess := sl'.tokensIn k && sl'.takesPred n t.slotR && sl'.predExcess k != 0 && decide (sl'.predExcess k < 2 ^ 31)
    let s := if excess then
        s.fabricFault ctx (s.nodeRec 0x6A ctx pos n 0) (s.logOf (s.partOf ctx) pos) n t.plate
      else s
    s.switchCheck pos i n

/-- A predicate arrival on a slot is counted (R236). -/
def State.countPred (s : State) (pos i : Nat) (t : Token) : State :=
  if t.net = .pred then
    s.modElem pos fun e => e.modSlot i fun sl =>
      { sl with predIn := tabAdd sl.predIn (2 * t.node.toNat + (if t.slotR then 1 else 0)) 1 }
  else s

/-- Any token reaches its node in a resident slot. -/
def State.take (s : State) (pos i : Nat) (sl : Slot) (t : Token) (port : Nat) : Option State :=
  if t.isSwitch then s.switchArrive pos i sl t
  else
    match s.arrive pos i sl t port with
    | none => none
    | some s => (s.countPred pos i t).switchCheck pos i t.node.toNat

/-! ### Configuration-cache misses (R170 to R172) -/

def OvfEntry.isPark (e : OvfEntry) (pos ctx : Nat) : Bool := e.pos == pos && e.ctx == ctx && e.what == .park

/-- Whether tokens of a context are parked for an element. -/
def State.parked (s : State) (pos ctx : Nat) : Bool := (s.ovf (quireOf pos)).entries.any (·.isPark pos ctx)

/-- The first token of a context that stays in its skid buffer because it cannot park. -/
def Elem.firstStuck (e : Elem) (ctx : Nat) : Option (Nat × Nat) := (e.stuck.find? fun q => q.1 == ctx).map (·.2)

def State.unstick (s : State) (pos ctx port cls : Nat) : State :=
  s.modElem pos fun e => { e with stuck := e.stuck.filter (· ≠ (ctx, port, cls)) }

def State.stick (s : State) (pos ctx port cls : Nat) : State :=
  s.modElem pos fun e => if e.stuck.contains (ctx, port, cls) then e else { e with stuck := e.stuck ++ [(ctx, port, cls)] }

/-- The slot fetch of a context starts with its first token (R170). -/
def State.fetchSlot (s : State) (pos ctx : Nat) : State :=
  s.modElem pos fun e =>
    if (slotOfCtx e.slots ctx).isSome ∨ e.fetching.contains ctx then e else { e with fetching := e.fetching ++ [ctx] }

/-- The head of a skid buffer parks, or stays where it is with its place in the arrival order (R170). -/
def State.park (s : State) (pos port cls : Nat) (t : Token) (rest : List Flit) : State :=
  let ctx := t.ctx.toNat
  let e := s.elem pos
  let mine := match e.firstStuck ctx with | some q => q == (port, cls) | none => true
  match mine, s.spillTo (quireOf pos) ctx t with
  | true, some deep =>
    let q := quireOf pos
    let o := s.ovf q
    let s := (s.setBuf pos port cls rest).setOvf q { o with entries := o.entries ++
      [{ pos := pos, ctx := ctx, tok := t, what := .park, deep := deep, upset := 0 }] }
    (s.unstick pos ctx port cls).fetchSlot pos ctx
  | _, _ => (s.stick pos ctx port cls).fetchSlot pos ctx

/-- A token at the head of a buffer of its element: taken, parked, discarded, or left where it is. -/
def State.headToken (s : State) (pos port cls : Nat) (t : Token) (rest : List Flit) : State :=
  let ctx := t.ctx.toNat
  let s1 := (s.setBuf pos port cls rest).unstick pos ctx port cls
  let e := s.elem pos
  if !s.alive ctx then s1.discardN ctx 1
  else
    match slotOfCtx e.slots ctx with
    | none => s.park pos port cls t rest
    | some (i, sl) =>
      if s.parked pos ctx then s.park pos port cls t rest
      else
        match e.firstStuck ctx with
        | some q => if q = (port, cls) then (s1.take pos i sl t port).getD s else s.stick pos ctx port cls
        | none => (s1.take pos i sl t port).getD s

/-- `TOKEN_ARRIVAL` (R48, R127, R156, R170, R179): the token at the head of a data or predicate buffer. A switch token of a
resident slot arrives by `SWITCH_TOKEN_ARRIVAL`. -/
def execTokenArrival (pos port cls : Nat) (s : State) : Res :=
  if (cls ≠ 0 ∧ cls ≠ 3) ∨ !s.awake (folioOf pos) then idle s
  else
    match s.buf pos port cls with
    | .tok dst t :: rest =>
      let resident := (slotOfCtx (s.elem pos).slots t.ctx.toNat).isSome && !s.parked pos t.ctx.toNat
      if dst ≠ pos ∨ t.kind ≠ 0 ∨ (t.isSwitch ∧ resident) then idle s else .next (s.headToken pos port cls t rest)
    | _ => idle s

/-- `SWITCH_TOKEN_ARRIVAL` (R236): a switch token at the head of a data buffer reaches its slot. -/
def execSwitchTokenArrival (pos port : Nat) (s : State) : Res :=
  match s.buf pos port 0 with
  | .tok dst t :: rest =>
    let resident := (slotOfCtx (s.elem pos).slots t.ctx.toNat).isSome && !s.parked pos t.ctx.toNat
    if dst ≠ pos ∨ t.kind ≠ 0 ∨ !t.isSwitch ∨ !resident ∨ !s.awake (folioOf pos) then idle s else .next (s.headToken pos port 0 t rest)
  | _ => idle s

/-- `SPILL_WRITE` (R50): a spill on its way is written. -/
def execSpillWrite (quire idx : Nat) (s : State) : Res :=
  let o := s.ovf quire
  match o.spilling[idx]? with
  | none => idle s
  | some e => .next (s.setOvf quire { o with entries := o.entries ++ [e], spilling := listDrop o.spilling idx })

/-- `OVERFLOW_SEARCH_DONE` (R51): the search for an operand held aside ends: it pairs, or goes on to step 4 of R48. -/
def execOverflowSearchDone (pos idx : Nat) (s : State) : Res :=
  match (s.elem pos).aside[idx]? with
  | none => idle s
  | some a =>
    let ctx := a.tok.ctx.toNat
    match slotOfCtx (s.elem pos).slots ctx with
    | none => idle s
    | some (i, sl) =>
      let s1 := s.modElem pos fun e => { e with aside := listDrop e.aside idx }
      match s1.matchOperand pos i sl a.tok (s1.inStore pos sl a.tok ++ s1.inOvf pos sl a.tok) true false a.port with
      | some s2 => .next s2
      | none => idle s

/-- Whether a slot is a victim candidate (R171). -/
def Elem.victim (e : Elem) (i : Nat) : Bool :=
  !e.fifo.any (fun q => q.1 == i) && !e.rob.any (fun r => r.slotIx == i) && !e.out.any (fun o => o.slotIx == i)

/-- The candidate whose last issue is oldest (R171). -/
def Elem.oldestVictim (e : Elem) : Option (Nat × Slot) :=
  (e.slots.filter fun q => e.victim q.1).foldl (fun b q =>
    match b with
    | none => some q
    | some x => if q.2.lastIssue < x.2.lastIssue then some q else some x) none

/-- Slots of an element in use, shadow configurations among them (R4, R298). -/
def Elem.slotsUsed (e : Elem) : Nat := e.slots.length + e.shadow.length

/-- `SLOT_EVICTION` (R171): the victim's slot and its operands of the matching store leave for the backing area. -/
def execSlotEviction (pos ctx : Nat) (s : State) : Res :=
  let e := s.elem pos
  let mine (h : Held) : Bool := h.tok.ctx.toNat == ctx
  match e.oldestVictim with
  | some (i, sl) =>
    if sl.ctx = ctx ∧ !e.fetching.isEmpty ∧ e.slotsUsed ≥ 4 ∧ !e.aside.any (fun a => a.tok.ctx.toNat == ctx) then
      .next (s.setElem pos { e with
        slots := tabDel e.slots i
        backing := tabPut e.backing ctx sl
        backingOps := tabPut e.backingOps ctx (e.mstore.filter mine)
        mstore := e.mstore.filter fun h => !mine h })
    else idle s
  | none => idle s

/-- The lowest slot index that no context holds. -/
def Elem.freeSlot (e : Elem) : Option Nat := (List.range 4).find? fun i => (tabGet e.slots i).isNone

/-- Operands written back to the matching store, or spilled when no entry is free. -/
def State.putBack (s : State) (pos : Nat) : List Held → Option State
  | [] => some s
  | h :: r =>
    if (s.elem pos).entryFree h.tok.ctx.toNat then
      (s.modElem pos fun e => { e with mstore := e.mstore ++ [h] }).putBack pos r
    else
      match s.spillToken pos h.tok (match h.role with | .operand => .operand | .held => .held) with
      | some s => s.putBack pos r
      | none => none

/-- `SLOT_INSTALL` (R172): the fetched slot is installed with its operands. A fetch that returns poison turns every token
parked for it into poison CFGERR and raises a fabric fault. -/
def execSlotInstall (pos ctx : Nat) (s : State) : Res :=
  let e := s.elem pos
  if !e.fetching.contains ctx then idle s
  else
    let s0 := s.setElem pos { e with fetching := e.fetching.filter (· != ctx) }
    if Config.fetchPoison s.tick then
      let q := quireOf pos
      let o := s.ovf q
      let bad (x : OvfEntry) : OvfEntry := if x.isPark pos ctx then { x with tok := s.poisonAt pos x.tok 0x65 } else x
      let s1 := s0.setOvf q { o with entries := o.entries.map bad }
      .next (s1.fabricFault ctx (s.nodeRec 0x65 ctx pos 0xFF 0) (s.logOf (s.partOf ctx) pos) 0xFF 0)
    else
      match tabGet e.backing ctx, e.freeSlot with
      | some sl, some i =>
        if e.slotsUsed ≥ 4 then idle s
        else
          let ops := (tabGet e.backingOps ctx).getD []
          let s1 := s0.modElem pos fun e =>
            { e with slots := tabPut e.slots i sl, backing := tabDel e.backing ctx, backingOps := tabDel e.backingOps ctx }
          match s1.putBack pos ops with
          | some s2 => .next s2
          | none => idle s
      | _, _ => idle s

/-- `PARKED_TOKEN_REPLAY` (R172): the oldest token parked for an installed slot matches under R156. -/
def execParkedTokenReplay (pos ctx : Nat) (s : State) : Res :=
  match slotOfCtx (s.elem pos).slots ctx with
  | none => idle s
  | some (i, sl) =>
    let q := quireOf pos
    let o := s.ovf q
    match listFind (fun e => e.isPark pos ctx) o.entries 0 with
    | none => idle s
    | some (k, e) =>
      let s1 := (s.setOvf q { o with entries := listDrop o.entries k }).ovfErr e
      match s1.take pos i sl (s.ovfTok e) 4 with
      | some s2 => .next s2
      | none => idle s

/-! ### Notices and parked `alloc` pairs (R154, R169) -/

/-- `FREE_NOTICE` (R154): the live count of the activation drops by one; at 0 the notice raises TAGFREE. -/
def execFreeNotice (pos port : Nat) (s : State) : Res :=
  match s.buf pos port 0 with
  | .notice dst ctx act node :: rest =>
    if dst ≠ pos ∨ !s.awake (folioOf pos) then idle s
    else
      let s1 := s.setBuf pos port 0 rest
      match (s.elem pos).slotFor ctx with
      | none => .next s1
      | some sl =>
        let n := tabNum sl.live act
        if n = 0 then
          .next (s1.fabricFault ctx (s.nodeRec 0x64 ctx pos node 0) (s.logOf (s.partOf ctx) pos) node 0)
        else .next (s1.modElem pos fun e => e.modCtxSlot ctx fun sl => sl.liveSet act (n - 1))
  | _ => idle s

/-- Results that a node reserves in the output stage at issue (R158). -/
def emitCount (w : Nat) : Nat := (if wDx w = 31 then 0 else 1) + (if wDy w = 31 then 0 else 1)

/-- Output-stage entries in use: tokens in it, and those reserved by `mark` and `send` nodes that await their answer. -/
def State.staged (s : State) (pos : Nat) : Nat :=
  (s.elem pos).out.length
    + s.marks.foldl (fun n m => match m.node with | some (p, _, _) => if p = pos then n + (m.out.filter fun q => q.1 != 31).length else n | none => n) 0
    + s.msgs.foldl (fun n m => match m.sender with | some (p, _, _) => if p = pos then n + (if m.dx = 31 then 0 else 1) + (if m.dy = 31 then 0 else 1) else n | none => n) 0

/-- `PARKED_ALLOC_FIRE` (R169): a parked `alloc` fires below its bound, or emits poison TAGEXH once FAIL was written. -/
def execParkedAllocFire (pos idx : Nat) (s : State) : Res :=
  let q := quireOf pos
  let o := s.ovf q
  match o.entries[idx]? with
  | some { pos := p, ctx := ctx, what := .alloc pr _ failed, tok := t, upset := u, deep := d } =>
    match slotOfCtx (s.elem pos).slots ctx with
    | none => idle s
    | some (i, sl) =>
      let w := sl.word pr.node
      if p ≠ pos ∨ !s.mayIssue ctx ∨ s.staged pos + emitCount w > 8 then idle s
      else
        let acts := match s.ctx? ctx with | some c => c.acts | none => []
        let e : OvfEntry := { pos := p, ctx := ctx, tok := t, what := .alloc pr true failed, deep := d, upset := u }
        let t := s.ovfTok e
        let pr := { pr with opL := pr.opL.map (fun _ => t), opR := pr.opR.map (fun _ => t) }
        let f : Fire := { pos := pos, slotIx := i, slot := sl, pair := pr, ctx := ctx, part := s.partOf ctx, node := pr.node,
                          nest := pr.nest, acts := acts, act := (sl.nodeAct[pr.node]?).getD 64 }
        let ops : ElemOps := { sa := BitVec.ofNat 3 (wSa w), sb := BitVec.ofNat 3 (wSb w), dx := BitVec.ofNat 5 (wDx w),
                               dy := BitVec.ofNat 5 (wDy w), ta := BitVec.ofNat 4 (bitF w 7 4), lx := BitVec.ofNat 4 (wLx w) }
        let act := bitF (f.cw ops) 31 26
        let s1 := (s.setOvf q { o with entries := listDrop o.entries idx }).ovfErr e
        let back (s' : State) : Res :=
          if s'.unions.length > s.unions.length then idle { s with unions := s'.unions }
          else .next (s'.modElem pos fun e => { e with cur := (s.elem pos).cur, used := (s.elem pos).used })
        if failed then back (s1.allocFail f ops act)
        else if tabNum sl.live act < (actAt acts act).live then back (s1.allocFire f ops act)
        else idle s
  | _ => idle s

/-! ### The output stage (R150, R158, R179, R202, R203, R226) -/

/-- Destination fields of an entry (R202): KIND, target X and Y as numbers, node byte, slot and edge. -/
def entryKind (w : Word) : Nat := bitF w.toNat 31 30
def entryX (w : Word) (x : Nat) : Nat := ((x : Int) + sext 6 (bitF w.toNat 29 24)).toNat
def entryY (w : Word) (y : Nat) : Nat := ((y : Int) + sext 6 (bitF w.toNat 23 18)).toNat
def entryNode (w : Word) : Nat := bitF w.toNat 17 10

/-- The entry that a result takes and its form (R179): the entry itself, its conversion destination, or poison FMTMISS. -/
def State.route (s : State) (pos : Nat) (sl : Slot) (node d : Nat) (t : Token) : Word × Token :=
  let q := sl.dest d
  let ok (a : Word) : Bool := t.poison || t.ord || t.net == .pred || bitF a.toNat (24 + fmtCode t.fmt) (24 + fmtCode t.fmt) == 1
  let bad : Token := { t with poison := true, pay := BitVec.ofNat 1024 (s.nodeRec 0x70 t.ctx.toNat pos node 0).toNat }
  if ok q.2 then (q.1, t)
  else
    let cv := bitF q.2.toNat 23 19
    if cv = 31 then (q.1, bad)
    else if ok (sl.dest cv).2 then ((sl.dest cv).1, t) else ((sl.dest cv).1, bad)

/-- The element whose input an engine of a kind takes tokens by: element 0 of its quire, folio or die (R202). -/
def engineHome (engine p : Nat) : Nat :=
  match engine with
  | 0 | 1 => p / 16 * 16
  | 2 => p / 64 * 64
  | _ => p / 1024 * 1024

/-- Messages on their way to a channel. -/
def State.msgsTo (s : State) (quire chan : Nat) : Nat := (s.msgs.filter fun m => m.quire == quire && m.chan == chan && !m.accepted).length

/-- A token with its route written (R146, R150). -/
def routed (t : Token) (w : Word) (x y dst : Nat) : Token :=
  { t with
    die := BitVec.ofNat 4 (dieOf dst), kind := BitVec.ofNat 2 (entryKind w), x := BitVec.ofNat 7 x, y := BitVec.ofNat 7 y,
    node := BitVec.ofNat 8 (entryNode w), slotR := bitF w.toNat 9 9 == 1, edge := BitVec.ofNat 9 (bitF w.toNat 8 0) }

/-- A token enters the mesh at an element, by its local or engine port, if the buffer has room (R161). -/
def State.inject (s : State) (pos port dst : Nat) (t : Token) : Option State :=
  let cls := if t.net = .pred then 3 else 0
  if (s.buf pos port cls).length < 2 then some (s.setBuf pos port cls (s.buf pos port cls ++ [.tok dst t])) else none

/-- A result leaves by a destination entry of an element slot (R202). None when it is held: a moving folio (R150), a full
buffer, channel or delivery queue (R162). -/
def State.sendBy (s : State) (pos port : Nat) (ctx : Nat) (node : Nat) (w : Word) (t : Token) : Option State :=
  let part := s.partOf ctx
  let lp := s.logOf part pos
  let x := entryX w (logX lp)
  let y := entryY w (logY lp)
  let target := posOfLog x y
  match entryKind w with
  | 3 =>
    let q := entryNode w
    if q = 255 then some (if t.poison then s.sink ctx t.record lp node t.plate else s)
    else if (s.deliveries.filter fun d => d.vf == s.homeVf ctx && d.queue == q).length < 2 then
      some { s with deliveries := s.deliveries ++
        [{ vf := s.homeVf ctx, queue := q, tok := routed t w x y pos, ctx := ctx, pos := pos, node := node, report := false }] }
    else none
  | k =>
    match s.mapEntry part (target / 64) with
    | some { st := .mapped, gfolio := g, .. } =>
      let p := g * 64 + target % 64
      if k = 0 then s.inject pos port p (routed t w x y p)
      else if k = 1 then
        let h := engineHome (entryNode w / 32) p
        s.inject pos port h (routed t w x y h)
      else
        let quire := quireOf p
        let n := entryNode w % 16
        if s.msgsTo quire n + ((s.qcc quire).chan n).length < chanCap n then
          some { s with msgs := s.msgs ++
            [{ quire := quire, chan := n, tok := routed t w x y p, sender := none, accepted := false, dx := 31, dy := 31, outTok := t }] }
        else none
    | _ => none

/-- `OUTPUT_STAGE_DEPART` (R150, R158): a result leaves, in issue order among those of its node and destination. -/
def execOutputStageDepart (pos idx : Nat) (s : State) : Res :=
  let e := s.elem pos
  match e.out[idx]? with
  | none => idle s
  | some o =>
    let s1 := s.setElem pos { e with out := listDrop e.out idx }
    match tabGet e.slots o.slotIx with
    | none => .next s1
    | some sl =>
      if (e.out.take idx).any (fun q => q.slotIx == o.slotIx && q.node == o.node && q.dest == o.dest) then idle s
      else if !s.alive sl.ctx then .next (s1.discardN sl.ctx 1)
      else
        let r := s.route pos sl o.node o.dest o.tok
        match s1.sendBy pos 4 sl.ctx o.node r.1 r.2 with
        | some s2 => .next s2
        | none => idle s

end Sys2Proof.Machine
end

