-- ==== Sys2Proof/Machine/ElemSys.lean ====
section
/-! DEFINITION. The ordering and system opcodes of the elements (R263 to R272). -/

namespace Sys2Proof.Machine

/-- The shape of an ordering token (R127). -/
def Shape.ordering : Shape := { net := .data, fmt := .bits, lanes := 1, ord := true }

/-- The course of a node that emits one ordering token with handle 0 (R263, R264, R269). -/
def State.emitOrder (s : State) (o : ElemOps) (f : Fire) (ops : List Opnd) : State :=
  let sh := Shape.ordering
  s.runFire f o ops (.pass 0) sh sh (match ops with | a :: _ => a.lane 0 | [] => 0) 0 none
    (.toks [(o.dx.toNat, sh, 0), (o.dy.toNat, sh, 0)])

/-- `fence.sc.s` (R263): one ordering token in, one out. In a machine that performs one step at a time the wider extent of the
edge adds nothing (R124, R133; notes/assumptions/8.md). -/
def State.fenceSc (s : State) (o : ElemOps) : Res :=
  match s.fire with
  | none => idle s
  | some f => .next (s.emitOrder o f [f.readA o false])

def execFenceScE (o : ElemOps) (s : State) : Res := s.fenceSc o
def execFenceScQ (o : ElemOps) (s : State) : Res := s.fenceSc o
def execFenceScF (o : ElemOps) (s : State) : Res := s.fenceSc o
def execFenceScD (o : ElemOps) (s : State) : Res := s.fenceSc o
def execFenceScK (o : ElemOps) (s : State) : Res := s.fenceSc o
def execFenceScX (o : ElemOps) (s : State) : Res := s.fenceSc o

/-- `ordjoin` (R264): two tokens of any kind and colour. -/
def execOrdjoin (o : ElemOps) (s : State) : Res :=
  match s.fire with
  | none => idle s
  | some f => .next (s.emitOrder o f [f.readA o false, f.read (srcOf o.sb) 0 .bits])

/-- What a node emits in place of its tokens: the first poison it consumed, or a fresh one for a tag out of range (R153, R375). -/
def Fire.poisonOut (f : Fire) (s : State) (o : ElemOps) (a : Opnd) (sh : Shape) : Option Token :=
  let nest := (tagAction f o.ta.toNat (if a.poison then 0 else a.lane 0) 0).getD f.nest
  if a.poison then some (poisonToken f.ctx nest sh a.plate a.record)
  else if (tagAction f o.ta.toNat (a.lane 0) 0).isNone then
    some (poisonToken f.ctx nest sh a.plate (s.nodeRec 0x62 f.ctx f.pos f.node 0))
  else none

/-- NEST of a firing's results. -/
def Fire.outNest (f : Fire) (o : ElemOps) (a : Opnd) : BitVec 48 := (tagAction f o.ta.toNat (a.lane 0) 0).getD f.nest

/-- `mark` (R265): one mark goes to the home Barrow, for poison too; its tokens leave when it has been counted. -/
def execMark (o : ElemOps) (s : State) : Res :=
  match s.fire with
  | none => idle s
  | some f =>
    let a := f.readA o true
    let t := (f.poisonOut s o a Shape.ordering).getD (resultToken f.ctx (f.outNest o a) Shape.ordering 0 0)
    let m : MarkMsg := { ctx := f.ctx, marker := bitF (f.cw o) 31 22, node := some (f.pos, f.slotIx, f.node), cmd := none,
                         counted := false, out := [(o.dx.toNat, t), (o.dy.toNat, t)] }
    let s := s.issued f
    .next { s with marks := s.marks ++ [m] }

/-- The fire of a node whose answer has come back: enough to emit its tokens. -/
def State.fireAt (s : State) (pos slotIx node : Nat) : Option Fire :=
  match tabGet (s.elem pos).slots slotIx with
  | none => none
  | some sl =>
    some { pos := pos, slotIx := slotIx, slot := sl, pair := default, ctx := sl.ctx, part := s.partOf sl.ctx, node := node,
           nest := 0, acts := [], act := 64 }

/-- `trap` (R266): one message of KIND 9, then poison TRAPU that counts as reported; a poison A passes on without a message. -/
def execTrap (o : ElemOps) (s : State) : Res :=
  match s.fire with
  | none => idle s
  | some f =>
    let a := f.readA o true
    let n := colourOf [a]
    let sh := Shape.like a n
    match f.poisonOut s o a sh with
    | some t => .next ((s.issued f).emitAll f [(o.dx.toNat, t), (o.dy.toNat, t)])
    | none =>
      let r := s.nodeRec 0x90 f.ctx f.pos f.node (bitF (f.cw o) 31 24)
      let s1 := (s.issued f).modCtx f.ctx fun c => { c with fault := FaultRec.note { c.fault with ntrap := satAdd c.fault.ntrap 1 } r }
      let s2 := s1.sendTrap f.ctx 9 r (s.logOf f.part f.pos) f.node a.plate
      let t := poisonToken f.ctx (f.outNest o a) sh a.plate (recSetRpt r)
      .next (s2.emitAll f [(o.dx.toNat, t), (o.dy.toNat, t)])

/-- `poison` (R267): poison POISU with A[0] as its detail. -/
def execPoison (o : ElemOps) (s : State) : Res :=
  match s.fire with
  | none => idle s
  | some f =>
    let a := f.readA o false
    let sh := Shape.like a (colourOf [a])
    .next (s.runFire f o [a] .all sh sh (a.lane 0) 0 none (.fault 0x91 (a.lane 0)))

/-- The value of a `probe` item (R268). -/
def State.probeItem (s : State) (f : Fire) (cw : Nat) : Nat :=
  let rec' := match s.ctx? f.ctx with | some c => c.fault | none => FaultRec.fresh
  match bitF cw 31 28 with
  | 0 => tabNum f.slot.live (bitF cw 27 22)
  | 1 => f.slot.spill
  | 2 => rec'.strand.toNat
  | 3 => rec'.excess.toNat
  | 4 => s.counter (dieOf f.pos) % 2 ^ 32
  | _ => s.counter (dieOf f.pos) / 2 ^ 32

/-- `probe` (R268). -/
def execProbe (o : ElemOps) (s : State) : Res :=
  match s.fire with
  | none => idle s
  | some f =>
    let a := f.readA o true
    let n := colourOf [a]
    let sh := Shape.data .i32 n
    let pay := packLanes 32 (List.replicate n (s.probeItem f (f.cw o)))
    .next (s.runFire f o [a] .all sh sh (a.lane 0) 0 none (.toks [(o.dx.toNat, sh, pay), (o.dy.toNat, sh, pay)]))

/-- Whether a node is a yield point of an idempotent region of its context's image (R219, R391). -/
def State.inRegion (s : State) (ctx lpos node : Nat) : Bool :=
  match s.image? ctx with
  | some im => im.idem.any fun q => q.1 == lpos && q.2.1 == node
  | none => false

/-- The kill that waits for a yield of a context (R391). -/
def State.killPending (s : State) (ctx : Nat) : Option SaveReq :=
  match s.ctx? ctx with
  | some { save := some r, .. } => if r.kill then some r else none
  | _ => none

/-- A status word (R142). -/
def stopWord (state : Nat) (rovf : Bool) (seq npages : Nat) : Nat :=
  state % 16 * 2 ^ 60 + (if rovf then 2 ^ 59 else 0) + seq % 65536 * 2 ^ 32 + npages % 2 ^ 32

/-- Step 1 of R141 as the host sees it: the stop takes its number, and the status word with STATE = 1 is written. -/
def State.stopBegin (s : State) (part : Nat) (r : SaveReq) : State :=
  match s.part? part with
  | none => s
  | some p =>
    let n := (p.stopseq + 1) % 65536
    { s.setPart part { p with stopseq := n } with pcie := s.pcie ++ [.write r.statusAddr (bytesOf 8 (stopWord 1 false n 0))] }

/-- A yield is taken (R391): it emits nothing and the gate applies. -/
def State.takeYield (s : State) (f : Fire) (t : Token) (r : SaveReq) : State :=
  ((if r.taken.isEmpty then s.stopBegin f.part r else s).issued f).modCtx f.ctx fun c =>
    { c with gated := true
             save := some { r with taken := r.taken ++ [(s.logOf f.part f.pos, f.node, t)]
                                   since := if r.taken.isEmpty then s.tick else r.since } }

/-- `yield` (R269). -/
def execYield (o : ElemOps) (s : State) : Res :=
  match s.fire with
  | none => idle s
  | some f =>
    let a := f.readA o false
    match s.killPending f.ctx, f.pair.opL, f.pair.opR with
    | some r, some t, _ =>
      if !t.poison ∧ s.inRegion f.ctx (s.logOf f.part f.pos) f.node then .next (s.takeYield f t r) else .next (s.emitOrder o f [a])
    | some r, none, some t =>
      if !t.poison ∧ s.inRegion f.ctx (s.logOf f.part f.pos) f.node then .next (s.takeYield f t r) else .next (s.emitOrder o f [a])
    | _, _, _ => .next (s.emitOrder o f [a])

/-- A tear-down begins with its cause (R369, R370). -/
def State.beginEnd (s : State) (ctx kind code : Nat) (exit : BitVec 32) (plate : Handle) : State :=
  s.modCtx ctx fun c =>
    if c.tear = .alive then
      { c with tear := .tearing, ending := { kind := kind, code := code, exit := exit, plate := plate } }
    else c

/-- An `exit` reports poison as a sink does (R270, R376); its message to a delivery queue goes out before the tear-down begins
(R378; notes/assumptions/51.md). -/
def State.exitSink (s : State) (f : Fire) (a : Opnd) : State :=
  let s1 := s.sink f.ctx a.record (s.logOf f.part f.pos) f.node a.plate
  match s.ctx? f.ctx with
  | none => s1
  | some c =>
    if recRpt a.record ∨ (s.trapQcc f.ctx).isSome ∨ c.dq = 255 ∨ c.tear ≠ .alive then s1
    else
      let m : TrapMsg := { ctx := f.ctx, kind := 1, record := a.record, spos := s.logOf f.part f.pos, snode := f.node, count := 1, plate := a.plate }
      { s1 with trapOut := s.trapOut, deliveries := s1.deliveries ++ [m.delivery c.homevf c.dq true] }

/-- `exit` (R270): the first ends the context; with poison it ends it as a sink does, with the record's code and origin. -/
def execExit (o : ElemOps) (s : State) : Res :=
  match s.fire with
  | none => idle s
  | some f =>
    let a := f.readA o false
    let s := s.issued f
    if a.poison then
      let s := s.exitSink f a
      .next (s.beginEnd f.ctx 5 (recCode a.record) (BitVec.ofNat 32 (bitF a.record.toNat 107 83)) 0)
    else .next (s.beginEnd f.ctx 1 0 (BitVec.ofNat 32 (a.lane 0)) a.plate)

/-- `send` (R271): A goes as a message to a channel; A leaves the node once its acceptance has come back. -/
def execSend (o : ElemOps) (s : State) : Res :=
  match s.fire with
  | none => idle s
  | some f =>
    let cw := f.cw o
    let a := f.readA o true
    let n := colourOf [a]
    let sh := Shape.like a n
    let tok := if srcOf o.sa = .slotR then f.pair.opR else f.pair.opL
    let emit (t : Token) : Res := .next ((s.issued f).emitAll f [(o.dx.toNat, t), (o.dy.toNat, t)])
    match f.poisonOut s o a sh with
    | some t => emit t
    | none =>
      match s.mapEntry f.part (bitF cw 31 24) with
      | none => emit (poisonToken f.ctx (f.outNest o a) sh a.plate (s.nodeRec 0x13 f.ctx f.pos f.node 0))
      | some e =>
        if e.st = .moving then .next s.yieldTurn
        else
          let quire := e.gfolio * 4 + bitF cw 23 22
          let t := tok.getD (Token.blank f.ctx)
          let m : MsgIn := { quire := quire, chan := bitF cw 21 18, tok := t, sender := some (f.pos, f.slotIx, f.node),
                             accepted := false, dx := o.dx.toNat, dy := o.dy.toNat,
                             outTok := { t with nest := f.outNest o a } }
          let s := s.issued f
          .next { s with msgs := s.msgs ++ [m] }

/-- `SEND_ACCEPTANCE` (R271): the acceptance of a message that has entered its channel returns; A leaves the node. -/
def execSendAcceptance (idx : Nat) (s : State) : Res :=
  match s.msgs[idx]? with
  | none => idle s
  | some m =>
    if !m.accepted then idle s
    else
      let s1 := { s with msgs := listDrop s.msgs idx }
      match m.sender with
      | none => .next s1
      | some (pos, slotIx, node) =>
        match s.fireAt pos slotIx node with
        | some f =>
          if s.alive m.outTok.ctx.toNat then .next (s1.emitAll f [(m.dx, m.outTok), (m.dy, m.outTok)])
          else .next (s1.discardN m.outTok.ctx.toNat 1)
        | none => .next s1

/-- `launch` (R272): takes a reorder-buffer entry and hands the record to the partition's launch channel. -/
def execLaunch (o : ElemOps) (s : State) : Res :=
  match s.fire with
  | none => idle s
  | some f =>
    let a := f.readA o false
    let id := s.nextId
    let acc : Access :=
      { op := .store, pos := f.pos, slotIx := f.slotIx, ctx := f.ctx, part := f.part, node := f.node, nest := f.outNest o a,
        fmt := .bits, lanesN := 1, dx := o.dx.toNat, dy := o.dy.toNat, handle := a.plate, readHandle := 0, lanes := [],
        parts := [], hold := .none, fail := none, tagBad := (tagAction f o.ta.toNat (a.lane 0) 0).isNone }
    let s1 := { (s.issued f).robPush f id 0 with nextId := id + 1 }
    let poison (r : BitVec 128) : Res := .next (s1.robDone f.pos id (acc.outTokens (poisonToken f.ctx acc.nest acc.shape a.plate r)))
    if a.poison then poison a.record
    else if a.lanes.getD 1 ≠ 16 ∨ a.ord then poison (s.nodeRec 0x66 f.ctx f.pos f.node 0)
    else
      let c := s.ctx? f.ctx
      let l : Launch := { bytes := bytesOf 64 a.pay.toNat, part := f.part, parent := some f.ctx, homevf := s.homeVf f.ctx,
                          prio := 0, plate := a.plate, hyp := (match c with | some c => c.hyp | none => false),
                          elemAcc := some (f.pos, id), cmd := none, ctx := 0, resume := false, got := [],
                          image := none, dies := none }
      let s2 := s1.setAcc id acc
      .next { s2 with toSpine := s2.toSpine ++ [l] }

/-- `LAUNCH_RESPONSE` (R272): the response to an element `launch` reaches its reorder-buffer entry. -/
def execLaunchResponse (idx : Nat) (s : State) : Res :=
  match s.responses[idx]? with
  | none => idle s
  | some (pos, id, code) =>
    let s1 := { s with responses := listDrop s.responses idx }
    match s.acc? id with
    | none => .next s1
    | some a =>
      if code = 0 then .next ((s1.accFinish id).getD s1)
      else .next (s1.accFail id (s.nodeRec code a.ctx pos a.node 0))

end Sys2Proof.Machine
end

