-- ==== Sys2Proof/Machine/Switch.lean ====
section
/-! DEFINITION. Switch tokens as nodes emit them, drain notices, and the choice of the pair that an element issues (R42, R157,
R158, R234 to R237, R262, R298, R368, R403, R432). -/

namespace Sys2Proof.Machine

/-- A switch token (R234). -/
def switchToken (ctx count : Nat) : Token :=
  { Token.blank ctx with ord := true, wid := 1, pay := packLanes 32 [count, 0] }

/-- The destinations of DX and DY that receive a switch token (R237): none for KIND 3 and keep-register entries; the
conversion destination of an entry is one of them (notes/assumptions/9.md). -/
def Slot.switchDests (sl : Slot) (w : Nat) : List (Nat × Nat) :=
  let ok (d : Nat) : Bool := d != 31 && (destKeep (sl.dest d).2).isNone && entryKind (sl.dest d).1 != 3
  let cv (d : Nat) : Nat := if d = 31 then 31 else bitF (sl.dest d).2.toNat 23 19
  ([(wDx w, wDx w), (wDx w, cv (wDx w)), (wDy w, wDy w), (wDy w, cv (wDy w))]).filter fun q => ok q.2

/-- The switch tokens of a node, by destination index (R237 step 3). -/
def Slot.switchOut (sl : Slot) (n : Nat) : List (Nat × Token) :=
  (sl.switchDests (sl.word n)).map fun q => (q.2, switchToken sl.ctx (tabNum sl.sent (32 * n + q.1)))

/-- A terminal `cfgsw` (R235). -/
def Slot.terminal (sl : Slot) (n : Nat) : Bool := wOpc (sl.word n) == 0x10 && bitF (sl.lit (wLx (sl.word n))) 31 31 == 1

/-- The fire of an entry that a switched node took. -/
def State.switchFire (s : State) (pos i : Nat) (p : Pair) : Option Fire :=
  match s.fireAt pos i p.node with
  | some f => some { f with pair := p }
  | none => none

/-- The entry of a switched node issues (R237): its switch tokens go to the output stage; a terminal `cfgsw` sends a drain
notice. -/
def State.switchIssue (s : State) (pos i : Nat) (p : Pair) : State :=
  match s.switchFire pos i p with
  | none => s
  | some f =>
    let s1 := (s.issued f).emitAll f (f.slot.switchOut p.node)
    if f.slot.terminal p.node then { s1 with drainNotices := s1.drainNotices ++ [(f.ctx, pos, p.node)] } else s1

/-- `cfgsw` (R235): the source form discards A and emits a switch token on DX and DY. -/
def execCfgsw (o : ElemOps) (s : State) : Res :=
  match s.fire with
  | none => idle s
  | some f =>
    let a := f.readA o true
    let s1 := s.issued f
    if f.slot.terminal f.node then .next s1
    else if a.poison then
      let sh : Shape := { net := .data, fmt := .bits, lanes := 2, ord := true }
      let t := poisonToken f.ctx 0 sh a.plate a.record
      .next (s1.emitAll f [(o.dx.toNat, t), (o.dy.toNat, t)])
    else
      .next (s1.emitAll f (f.slot.switchOut f.node))

/-- `MEMORY_NODE_SWITCH_EMIT` (R262): the entry of a switched memory node issues once every access that the node has issued
has delivered its completion tokens. -/
def execMemoryNodeSwitchEmit (pos slot node : Nat) (s : State) : Res :=
  let e := s.elem pos
  match e.fifo.find? (fun q => q.1 == slot && q.2.switch && q.2.node == node), tabGet e.slots slot with
  | some q, some sl =>
    if opcRob (wOpc (sl.word node)) && s.mayIssue sl.ctx && !e.rob.any (fun r => r.slotIx == slot && r.node == node)
        && decide (s.staged pos + (sl.switchOut node).length ≤ 8) then .next (s.switchIssue pos slot q.2)
    else idle s
  | _, _ => idle s

/-- `DRAIN_NOTICE` (R298): the configuration sequencer counts a notice of its pending switch; any other raises DUPOP. -/
def execDrainNotice (idx : Nat) (s : State) : Res :=
  match s.drainNotices[idx]? with
  | none => idle s
  | some (ctx, pos, node) =>
    let s1 := { s with drainNotices := listDrop s.drainNotices idx }
    match s.ctx? ctx with
    | none => .next s1
    | some c =>
      match c.switch with
      | some w =>
        if w.count < w.nterm then .next (s1.setCtx ctx { c with switch := some { w with count := w.count + 1 } })
        else .next (s1.fabricFault ctx (s.nodeRec 0x61 ctx pos node 0) (s.logOf c.part pos) node 0)
      | none => .next (s1.fabricFault ctx (s.nodeRec 0x61 ctx pos node 0) (s.logOf c.part pos) node 0)

/-! ### The issue arbiter (R157, R158, R368) -/

/-- EBUDGET of a partition as it acts: halved while its guarantee is suspended (R403, R408). -/
def State.ebudget (s : State) (part : Nat) : Nat :=
  match s.part? part with | some p => if p.susp then p.ebudget / 2 else p.ebudget | none => 0

/-- Whether a new issue, operation or slice of a partition may start on a die in this cycle (R403, R432). -/
def State.rateOk (s : State) (die part : Nat) : Bool :=
  let b := s.ebudget part
  (decide (s.issueRate ≥ 16) || decide (s.counter die % 16 < s.issueRate))
    && (b == 0 || decide (tabNum (s.dieAt die).energy part < b) || s.counter die % 4 == 0)

/-- Whether a held `alloc` pair can do nothing yet (R169). -/
def State.allocHeld (s : State) (pos i : Nat) (sl : Slot) (p : Pair) : Bool :=
  wOpc (sl.word p.node) == 0x08 && !p.switch &&
    (match (s.elem pos).exh.find? (fun x => x.1 == i && x.2.1 == p) with
     | some (_, _, failed) =>
       let act := bitF (sl.lit (wLx (sl.word p.node))) 31 26
       let acts := match s.ctx? sl.ctx with | some c => c.acts | none => []
       let t := match p.opL, p.opR with | some t, _ => t | _, some t => t | _, _ => Token.blank sl.ctx
       !failed && !decide (tabNum sl.live act < (actAt acts act).live) && (s.spillTo (quireOf pos) sl.ctx t).isNone
     | none => false)

/-- Whether a pair gives up its turn to the pairs behind it: a held `alloc` (R169), or the entry of a switched memory node
(R262). -/
def State.yields (s : State) (pos i : Nat) (sl : Slot) (p : Pair) : Bool :=
  s.allocHeld pos i sl p || (p.switch && opcRob (wOpc (sl.word p.node)))

/-- Whether the entries that a pair reserves at issue can be reserved (R158, R368). -/
def State.reservable (s : State) (pos i : Nat) (sl : Slot) (p : Pair) : Bool :=
  let w := sl.word p.node
  if p.switch then decide (s.staged pos + (sl.switchOut p.node).length ≤ 8)
  else if opcRob (wOpc w) then decide (((s.elem pos).rob.filter fun r => r.slotIx == i).length < 16)
  else decide (s.staged pos + (if wOpc w = 0x10 then (sl.switchDests w).length else emitCount w) ≤ 8)

/-- Whether a pair may issue although its context is gated: a yield in the cycle in which a kill was taken (R391). -/
def State.killCycle (s : State) (pos : Nat) (sl : Slot) (p : Pair) : Bool :=
  match s.killPending sl.ctx with
  | some r => s.alive sl.ctx && !r.taken.isEmpty && decide (r.taken.length < 64) && s.cyclesSince (dieOf pos) r.since == 0
      && wOpc (sl.word p.node) == 0xBB && s.inRegion sl.ctx (s.logOf (s.partOf sl.ctx) pos) p.node
  | none => false

/-- A slot's issuable pair (R368). -/
def State.issuable (s : State) (pos i : Nat) : Option Pair :=
  match tabGet (s.elem pos).slots i with
  | none => none
  | some sl =>
    match (s.elem pos).fifo.find? (fun q => q.1 == i && !s.yields pos i sl q.2) with
    | none => none
    | some (_, p) =>
      if (s.mayIssue sl.ctx || s.killCycle pos sl p) && s.reservable pos i sl p && s.rateOk (dieOf pos) (s.partOf sl.ctx) then
        some p
      else none

/-- The choice of R368: the slot whose turn goes on, or else the first candidate after it. -/
def State.arbitrate (s : State) (pos : Nat) : Option (Nat × Pair) :=
  let e := s.elem pos
  let w := match tabGet e.slots e.cur with | some sl => sl.weight | none => 0
  match s.issuable pos e.cur with
  | some p =>
    if e.used < w then some (e.cur, p)
    else ([e.cur + 1, e.cur + 2, e.cur + 3, e.cur + 4].findSome? fun i => (s.issuable pos (i % 4)).map fun p => (i % 4, p))
  | none => [e.cur + 1, e.cur + 2, e.cur + 3].findSome? fun i => (s.issuable pos (i % 4)).map fun p => (i % 4, p)

end Sys2Proof.Machine
end

