-- ==== Sys2Proof/Machine/Engine.lean ====
section
/-! DEFINITION. What the engines share: token ports, switch tokens at ports, plate unions of engine state, and results that
leave by destination entries (R85, R89, R162, R179, R202, R234 to R236, R305, R321, R337). -/

namespace Sys2Proof.Machine

/-! ### Input ports -/

/-- The token at the head of a buffer of an engine's element, when it is for a port from `lo` to `hi` of the engine: port,
token and the rest of the buffer. -/
def State.enginePort (s : State) (pos port engine lo hi : Nat) : Option (Nat × Token × List Flit) :=
  match s.buf pos port 0 with
  | .tok dst t :: rest =>
    let p := t.node.toNat % 32
    if dst = pos ∧ t.kind = 1 ∧ t.node.toNat / 32 = engine ∧ lo ≤ p ∧ p ≤ hi ∧ s.awake (folioOf pos) = true then
      some (p, t, rest)
    else none
  | _ => none

/-- A token turned to poison with a fresh record of an engine (R374). -/
def State.enginePoison (s : State) (quire src : Nat) (t : Token) (code : Nat) : Token :=
  { t with poison := true, pay := BitVec.ofNat 1024 (s.unitRec code t.ctx.toNat quire src 0).toNat }

/-- The checks on arrival at an engine port: ORDMIS of R234 and FMTMISS of R179. -/
def State.engineForm (s : State) (quire src : Nat) (fmts : List Fmt) (t : Token) : Token :=
  if t.poison then t
  else if t.ord then (if t.wid = 0 then t else s.enginePoison quire src t 0x60)
  else if fmts.contains t.fmt then t
  else s.enginePoison quire src t 0x70

/-- A fabric fault of an engine (R379). -/
def State.engineFault (s : State) (code ctx quire src detail : Nat) (h : Handle) : State :=
  s.fabricFault ctx (s.unitRec code ctx quire src detail) (s.logOf (s.partOf ctx) (quire * 16)) 0xFF h

/-- Switch tokens of a port. -/
def portSwitch (sw : PortSwitch) (p : Nat) : SwitchIn := (tabGet sw p).getD { tokens := 0, sum := 0 }

/-- Whether a port has switched (R236). -/
def portSwitched (sw : PortSwitch) (nin : Tab Nat) (p : Nat) : Bool := (portSwitch sw p).tokens == tabNum nin p

/-- Whether every input port that anything feeds has switched, and there is one (R318, R335, R345). -/
def allSwitched (sw : PortSwitch) (nin : Tab Nat) : Bool :=
  nin.any (fun q => q.2 > 0) && nin.all fun q => q.2 == 0 || portSwitched sw nin q.1

/-- A switch token counted at a port; none when the port has switched already (R236). -/
def portCount (sw : PortSwitch) (nin : Tab Nat) (p : Nat) (t : Token) : Option PortSwitch :=
  if portSwitched sw nin p then none
  else
    let w := portSwitch sw p
    some (tabPut sw p { tokens := w.tokens + 1, sum := (w.sum + laneAt 32 t.pay 0) % 2 ^ 32 })

/-- Destination entries of an image that target each port of an engine (R236): `unit` is the engine's own number in units of
`size` elements. -/
def Image.portNin (im : Image) (engine unit size : Nat) : Tab Nat :=
  im.elems.foldl (fun tab e =>
    e.dests.foldl (fun tab d =>
      let w := d.1
      let p := posOfLog (entryX w (logX e.pos)) (entryY w (logY e.pos))
      if entryKind w = 1 ∧ entryNode w / 32 = engine ∧ p / size = unit ∧ destKeep d.2 = none then
        tabAdd tab (entryNode w % 32) 1
      else tab) tab) []

/-! ### Stranded items (R237, R318, R335, R345) -/

/-- An item of an engine is stranded. -/
def State.strandItem (s : State) (ctx quire src detail : Nat) (h : Handle) : State :=
  let s := s.modCtx ctx fun c => { c with fault := { c.fault with strand := satAdd c.fault.strand 1 } }
  if s.strict ctx then s.engineFault 0x68 ctx quire src detail h else s

def State.strandToks (s : State) (ctx quire src : Nat) (l : List Token) : State :=
  l.foldl (fun s t => s.strandItem ctx quire src t.nest.toNat t.plate) s

/-! ### Results -/

/-- A result of an engine leaves by entry `didx` of the table of element `pos` (R202, R315): none while it is held. -/
def State.engineSend (s : State) (pos ctx didx : Nat) (t : Token) : Option State :=
  match (s.elem pos).slotFor ctx with
  | none => some (s.discardN ctx 1)
  | some sl =>
    let r := if t.isSwitch then ((sl.dest didx).1, t) else s.route pos sl 0xFF didx t
    s.sendBy pos 5 ctx 0xFF r.1 r.2

/-- The first record among poisons. -/
def firstPoison (l : List Token) : Option (BitVec 128) := (l.find? (·.poison)).map (·.record)

/-- A union into the state of an engine (R85, R89): the handle and a record when it fails, or the two handles to ask for. -/
inductive EngineUnion where
  | ok (h : Handle) (bad : Option Nat) (s : State)
  | wait (s : State)

/-- The union of a state's handle with others; it stays as it was when it would exceed 8 plates (R89). -/
def State.engineUnion (s : State) (ctx : Nat) (h : Handle) (l : List Handle) : EngineUnion :=
  match s.unionAll h l with
  | .ok g => .ok g none s
  | .ovf a b => .ok h (some (s.ovfCode a b)) (s.plateOvf a b ctx (s.partOf ctx))
  | .wait a b => .wait (s.askUnion a b ctx (s.partOf ctx))

end Sys2Proof.Machine
end

