-- ==== Sys2Proof/Machine/PressOps.lean ====
section
/-! DEFINITION. The Press: tiles, go tokens, operations on accumulators, drains and its switch (R303 to R320). -/

namespace Sys2Proof

open Machine

/-- Elements of the last block: 32 when LASTN is 0 (R306). -/
def PressWord.last (w : PressWord) : Nat := if w.lastn = 0 then 32 else w.lastn.toNat
def PressWord.slices (w : PressWord) : Nat := w.ksm1.toNat + 1
def PressWord.ktot (w : PressWord) : Nat := 32 * (w.slices - 1) + w.last

/-- Fill tokens and shift tokens of a tile; `col` when it is read through its column port. -/
def PressWord.fillCount (w : PressWord) (col : Bool) : Nat := if col then (w.ktot + 1) / 2 else 16 * w.slices
def PressWord.shiftCount (w : PressWord) : Nat := (16 * w.slices + 127) / 128

/-- The colour that fill token `t` and shift token `t` must have. -/
def PressWord.fillColour (w : PressWord) (col : Bool) (t : Nat) : Nat :=
  if col then (if w.ktot % 2 = 1 ∧ t + 1 = w.fillCount true then 16 else 32)
  else if t ≥ 16 * (w.slices - 1) then w.last else 32
def PressWord.shiftColour (w : PressWord) (t : Nat) : Nat :=
  let r := 16 * w.slices % 128
  if r ≠ 0 ∧ t + 1 = w.shiftCount then (r + 3) / 4 else 32

/-- Bytes that a fill token takes of a buffer: Q lanes stand in 4-bit containers (R306). -/
def fillBytes (t : Token) : Nat :=
  if t.poison ∨ t.ord then 0
  else (t.colour * (match t.fmt with | .q4 | .q3 => 4 | f => fmtWidth f) + 7) / 8

/-- Element bits (line, k) of a tile from its fill tokens (R306). -/
def tileElem (fills : List Token) (f : Fmt) (col : Bool) (line k : Nat) : Nat :=
  let t := if col then k / 2 else 16 * (k / 32) + line
  let lane := if col then 16 * (k % 2) + line else k % 32
  match fills[t]? with
  | some u => laneAt (fmtWidth f) u.pay lane
  | none => 0

/-- Shift of block `b` of a line (R308). -/
def tileShift (shifts : List Token) (b line : Nat) : Int :=
  let j := 16 * b + line
  match shifts[j / 128]? with
  | some u => sext 8 (laneAt 32 u.pay (j / 4 % 32) / 2 ^ (8 * (j % 4)) % 256)
  | none => 0

/-- Slice `b` of a line of a tile as values (R190, R191). -/
def PressWord.slice (w : PressWord) (isB : Bool) (fills : List Token) (line b : Nat) : List Val :=
  let col := if isB then w.trb == 1 else w.tra == 1
  let f := fmtOf (if isB then w.bfmt.toNat else w.afmt.toNat)
  let n := if b + 1 = w.slices then w.last else 32
  (List.range n).map fun k => decodeLane f (tileElem fills f col line (32 * b + k))

/-- All slices of one cell, in ascending K (R314). -/
def PressWord.cell (w : PressWord) (a b : Tile) (m n acc : Nat) : Nat :=
  (List.range w.slices).foldl (fun acc k =>
    pressSlice acc (w.slice true b.fills n k) (w.slice false a.fills m k) (tileShift b.shifts k n) (tileShift a.shifts k m)) acc

/-- The accumulator after the tile product (R314). -/
def PressWord.product (w : PressWord) (a b : Tile) (acc : List Nat) : List Nat :=
  (List.range 256).map fun i => w.cell a b (i / 16) (i % 16) ((acc[i]?).getD 0)

/-- Whether a tile holds the tokens that a word needs. -/
def PressWord.complete (w : PressWord) (isB : Bool) (t : Option Tile) : Bool :=
  let col := if isB then w.trb == 1 else w.tra == 1
  match t with
  | some t => decide (w.fillCount col ≤ t.fills.length) && decide (w.shiftCount ≤ t.shifts.length)
  | none => false

end Sys2Proof

namespace Sys2Proof.Machine

/-! ### Tiles (R306 to R308) -/

/-- What is wrong with a tile for a press word: an earlier poison, PRFILL, or FMTMISS (R307, R314, R317). -/
def State.tileFault (s : State) (q : Nat) (w : PressWord) (isB : Bool) (t : Tile) : Option (BitVec 128) :=
  let col := if isB then w.trb == 1 else w.tra == 1
  let f := fmtOf (if isB then w.bfmt.toNat else w.afmt.toNat)
  let fresh (c : Nat) : Option (BitVec 128) := some (s.unitRec c t.ctx q 1 0)
  let wrong (g : Nat → Nat) (l : List Token) : Bool :=
    (List.range l.length).any fun i => match l[i]? with | some u => u.colour != g i | none => false
  match t.poison, firstPoison (t.fills ++ t.shifts) with
  | some r, _ => some r
  | none, some r => some r
  | none, none =>
    if t.fills.length ≠ w.fillCount col ∨ t.shifts.length ≠ w.shiftCount then fresh 0xA1
    else if t.fills.any (fun u => u.fmt != f) then fresh 0x70
    else if wrong (w.fillColour col) t.fills || wrong w.shiftColour t.shifts then fresh 0xA1
    else none

/-! ### Readiness and order (R312, R313) -/

/-- The press word that a go token names. -/
def Press.wordOf (p : Press) (g : Token) : BitVec 64 := (p.words[laneAt 32 g.pay 0 % 16]?).getD 0

/-- POP of a press word. -/
def popOf (w : BitVec 64) : Nat := w.toNat / 2 ^ 60

/-- The tile of a register at a tag. -/
def Press.tile (p : Press) (reg : Nat) (nest : BitVec 48) : Option Tile := p.tiles.find? fun t => t.reg == reg && t.nest == nest

/-- Whether the operation of a go token is ready (R313). -/
def Press.ready (p : Press) (g : Token) : Bool :=
  let pop := popOf (p.wordOf g)
  let w := pressFieldsOf (p.wordOf g).toNat
  (pop == 3 || (w.complete false (p.tile w.ta.toNat g.nest) && w.complete true (p.tile (4 + w.tb.toNat) g.nest)))
    && (pop < 2 || p.scales.any fun t => t.nest == g.nest)

/-- The oldest ready operation that no older go token on its accumulator holds (R313). -/
def Press.pickFrom (p : Press) : List Token → Nat → List (BitVec 2) → Option (Nat × Token)
  | [], _, _ => none
  | g :: r, i, held =>
    let tc := (pressFieldsOf (p.wordOf g).toNat).tc
    if p.ready g && !held.contains tc then some (i, g) else p.pickFrom r (i + 1) (tc :: held)

/-- The operation that enters the array next; none once the Press has switched (R318). -/
def Press.pick (p : Press) : Option (Nat × Token) := if allSwitched p.swIn p.nin then none else p.pickFrom p.go 0 []

/-! ### Arrival (R305 to R309, R312) -/

def State.modPress (s : State) (q : Nat) (g : Press → Press) : State := s.setPress q (g (s.pressOf q))

/-- A token has reached a port of the Press of element `pos`: discarded when its context is not the Press context, counted when
it is a switch token, and otherwise `g` of the token after the format check. -/
def State.pressPort (s : State) (pos port lo hi : Nat) (fmts : Nat → List Fmt) (g : Nat → Nat → Token → State → Option State) :
    Res :=
  match s.enginePort pos port 0 lo hi with
  | none => idle s
  | some (p, t, rest) =>
    let q := quireOf pos
    let k := s.pressOf q
    let ctx := t.ctx.toNat
    let s1 := s.setBuf pos port 0 rest
    if k.ctx ≠ some ctx ∨ !s.alive ctx then .next (s1.discardN ctx 1)
    else if t.isSwitch then
      match portCount k.swIn k.nin p t with
      | some sw => .next (s1.setPress q { k with swIn := sw })
      | none => .next (s1.engineFault 0x61 ctx q 1 t.nest.toNat t.plate)
    else match g q p (s.engineForm q 1 (fmts p) t) s1 with
      | some s2 => .next s2
      | none => idle s

/-- The word of a waiting go token that names a tile (R307). -/
def Press.goFor (p : Press) (reg : Nat) (nest : BitVec 48) : Option PressWord :=
  p.go.findSome? fun g =>
    let w := pressFieldsOf (p.wordOf g).toNat
    if g.nest == nest && popOf (p.wordOf g) != 3 && (reg == w.ta.toNat || reg == 4 + w.tb.toNat) then some w else none

/-- A buffer written. -/
def State.putTile (s : State) (q : Nat) (had : Bool) (b : Tile) : State :=
  s.modPress q fun p =>
    { p with tiles := if had then p.tiles.map fun x => if x.reg == b.reg && x.nest == b.nest then b else x
                      else p.tiles ++ [b] }

/-- A fill or shift token reaches its tile (R307). None when no buffer is free. -/
def State.tileToken (s : State) (q reg : Nat) (isShift : Bool) (t : Token) : Option State :=
  let p := s.pressOf q
  let old := p.tile reg t.nest
  if old.isNone ∧ p.tiles.length ≥ 16 then none
  else
    let b0 : Tile := old.getD
      { reg := reg, ctx := t.ctx.toNat, nest := t.nest, fills := [], shifts := [], kept := false, goSeen := false,
        poison := none, handle := 0 }
    let b : Tile := { b0 with handle := match s.union b0.handle t.plate with | .ok h => h | _ => b0.handle }
    let l := if isShift then b.shifts else b.fills
    let limit := match p.goFor reg t.nest with
      | some w => some (if isShift then w.shiftCount else w.fillCount (if reg ≥ 4 then w.trb == 1 else w.tra == 1))
      | none => none
    match limit with
    | some n =>
      if l.length ≥ n then some (s.engineFault 0xA1 t.ctx.toNat q 1 0 t.plate)
      else some (s.putTile q old.isSome (if isShift then { b with shifts := b.shifts ++ [t] } else { b with fills := b.fills ++ [t] }))
    | none =>
      let excess := if isShift then decide ((b.shifts ++ [t]).foldl (fun n u => n + 4 * u.colour) 0 > 1024)
        else decide ((b.fills ++ [t]).foldl (fun n u => n + fillBytes u) 0 > 16384)
      let b := if isShift then { b with shifts := b.shifts ++ [t] } else { b with fills := b.fills ++ [t] }
      let b := if excess ∧ b.poison.isNone then { b with poison := some (s.unitRec 0xA1 t.ctx.toNat q 1 0) } else b
      some (s.putTile q old.isSome b)

end Sys2Proof.Machine
end

