-- ==== Sys2Proof/Machine/Transcend.lean ====
section
/-! DEFINITION. The square roots and transcendentals of R241, correctly rounded: each function returns a value that rounds
to the same bits as the exact mathematical value. -/

namespace Sys2Proof.Machine

/-- Fraction bits of the fixed-point numbers below. -/
def fxBits : Nat := 640

/-- One in fixed point. -/
def fxOne : Nat := 2 ^ fxBits

/-- Product in fixed point, rounded down. -/
def fxMul (a b : Nat) : Nat := a * b / fxOne

/-- Sum of `z^(2k+1)/(2k+1)` from term `k` on, where `p` is `z^(2k+1)` (atanh). -/
def fxAtanhFrom : Nat → Nat → Nat → Nat → Nat
  | 0, _, _, _ => 0
  | fuel + 1, z2, p, k => p / (2 * k + 1) + fxAtanhFrom fuel z2 (fxMul p z2) (k + 1)

/-- atanh of a fixed-point number at most 1/3. -/
def fxAtanh (z : Nat) : Nat := fxAtanhFrom 220 (fxMul z z) z 0

/-- ln 2. -/
def fxLn2 : Nat := 2 * fxAtanh (fxOne / 3)

/-- Sum of `y^k/k!` from term `k` on, where `t` is the term before. -/
def fxExpFrom : Nat → Nat → Nat → Nat → Nat
  | 0, _, _, _ => 0
  | fuel + 1, y, t, k =>
    let t' := fxMul t y / k
    t' + fxExpFrom fuel y t' (k + 1)

/-- e^y for y in [0, 1). -/
def fxExp (y : Nat) : Nat := fxOne + fxExpFrom 160 y fxOne 1

/-- ln of a fixed-point number at least 1. -/
def fxLn (v : Nat) : Nat :=
  let k := Nat.log2 v - fxBits
  let m := v / 2 ^ k
  k * fxLn2 + 2 * fxAtanh ((m - fxOne) * fxOne / (m + fxOne))

/-- Floor of the square root, by bits from `k` down: `r` is the root so far. -/
def sqrtFrom : Nat → Nat → Nat → Nat
  | 0, _, r => r
  | k + 1, n, r =>
    let c := r + 2 ^ k
    sqrtFrom k n (if c * c ≤ n then c else r)

/-- Floor of the square root. -/
def natSqrt (n : Nat) : Nat := sqrtFrom (Nat.log2 n / 2 + 1) n 0

/-- A value that rounds as √(n/d) does: exact when the root is a multiple of 2^-256, otherwise between two of them. -/
def sqrtVal (n d : Nat) : Val :=
  let t := n * 2 ^ 512 / d
  let r := natSqrt t
  if r * r * d = n * 2 ^ 512 then .num false r (2 ^ 256) else .num false (2 * r + 1) (2 ^ 257)

/-- √A (R241). -/
def vsqrt : Val → Val
  | .nan => .nan
  | .inf s => if s then .nan else .inf false
  | .num s n d => if n = 0 then .num s 0 1 else if s then .nan else sqrtVal n d

/-- 1/√A (R241). -/
def vrsqrt : Val → Val
  | .nan => .nan
  | .inf s => if s then .nan else .num false 0 1
  | .num s n d => if n = 0 then .inf s else if s then .nan else sqrtVal d n

/-- e^(±n/d) for n/d below 2000, as a numerator over `fxOne`. -/
def fxExpOf (neg : Bool) (n d : Nat) : Nat :=
  let x := n * fxOne / d
  let k := x / fxLn2
  let y := fxExp (x - k * fxLn2)
  if neg then fxOne * fxOne / (y * 2 ^ k) else y * 2 ^ k

/-- e^A (R323): 1 for zero. -/
def vexp : Val → Val
  | .nan => .nan
  | .inf s => if s then .num false 0 1 else .inf false
  | .num s n d =>
    if n = 0 then .num false 1 1
    else if n > 2000 * d then (if s then .num false 1 (2 ^ 2000) else .num false (2 ^ 2000) 1)
    else .num false (fxExpOf s n d) fxOne

/-- 2^A (R241): exact for a whole number. -/
def vexp2 : Val → Val
  | .nan => .nan
  | .inf s => if s then .num false 0 1 else .inf false
  | .num s n d =>
    if n = 0 then .num false 1 1
    else if n > 2000 * d then (if s then .num false 1 (2 ^ 2000) else .num false (2 ^ 2000) 1)
    else if n % d = 0 then (if s then .num false 1 (2 ^ (n / d)) else .num false (2 ^ (n / d)) 1)
    else
      let k := n / d
      let y := fxExp (fxMul ((n % d) * fxOne / d) fxLn2)
      if s then .num false fxOne (y * 2 ^ k) else .num false (y * 2 ^ k) fxOne

/-- Whether n/d, above zero, is 2^k for the k = floor(log2(n/d)). -/
def isPow2 (n d : Nat) : Bool :=
  let p := pow2 (floorLog2 n d)
  decide (n * p.2 = d * p.1)

/-- log2 A (R241): exact for a power of two. -/
def vlog2 : Val → Val
  | .nan => .nan
  | .inf s => if s then .nan else .inf false
  | .num s n d =>
    if n = 0 then .inf true
    else if s then .nan
    else
      let k := floorLog2 n d
      if isPow2 n d then valOfInt k
      else
        let p := pow2 k
        let m := n * p.2 * fxOne / (d * p.1)
        let f := fxLn m * fxOne / fxLn2
        vadd (valOfInt k) (.num false f fxOne)

/-- tanh A (R241). -/
def vtanh : Val → Val
  | .nan => .nan
  | .inf s => .num s 1 1
  | .num s n d =>
    if n = 0 then .num s 0 1
    else if n > 1000 * d then .num s 1 1
    else if n * 2 ^ 100 < d then .num s n d
    else
      let t := fxExpOf true (2 * n) d
      .num s (fxOne - t) (fxOne + t)

/-- 1 / (1 + e^-A) (R241). -/
def vsigm : Val → Val
  | .nan => .nan
  | .inf s => if s then .num false 0 1 else .num false 1 1
  | .num s n d =>
    if n = 0 then .num false 1 2
    else if n > 1000 * d then (if s then .num false 1 (2 ^ 1000) else .num false 1 1)
    else
      let t := fxExpOf true n d
      if s then .num false t (fxOne + t) else .num false fxOne (fxOne + t)

/-- ln(1 + e^A) (R241). -/
def vspl : Val → Val
  | .nan => .nan
  | .inf s => if s then .num false 0 1 else .inf false
  | .num s n d =>
    if n > 1000 * d then (if s then .num false 1 (2 ^ 1000) else .num false n d)
    else
      let l := fxLn (fxOne + fxExpOf true n d)
      if s then .num false l fxOne else vadd (.num false n d) (.num false l fxOne)

end Sys2Proof.Machine
end

