-- ==== Sys2Proof/Machine/GraftOps.lean ====
section
/-! DEFINITION. Commands that end, and the Graft: descriptors, buffers, readiness and arithmetic (R321 to R331). -/

namespace Sys2Proof.Machine

/-- A command with its end noted, if it is the one of a number. -/
def Cmd.ended (id status lane1 : Nat) (c : Cmd) : Cmd :=
  if c.id = id then { c with st := .done status (lane1 % 2 ^ 32) } else c

def Qcc.ended (id status lane1 : Nat) (k : Qcc) : Qcc := { k with cmds := k.cmds.map (Cmd.ended id status lane1) }

/-- A command of a control core ends with a status and lane 1 (R293); its notify is still to be sent. The command of a context
that has been saved since, or restored elsewhere, is found by its number (R383, R390). -/
def State.cmdDone (s : State) (q id status lane1 : Nat) : State :=
  if (s.qcc q).cmds.any (fun c => c.id == id) then s.setQcc q ((s.qcc q).ended id status lane1)
  else { s with
    qccs := s.qccs.map fun x => (x.1, x.2.ended id status lane1)
    saves := s.saves.map fun v => { v with qccs := v.qccs.map fun x => (x.1, x.2.ended id status lane1) } }

/-! ### Descriptors (R324) -/

/-- The fields of a descriptor. -/
structure GraftDesc where
  n : Nat
  chb : Nat
  nch : Nat
  stepLo : Nat
  stepHi : Nat
  chLo : Nat
  chHi : Nat
  strLo : Nat
  strHi : Nat
  chunk : Nat
  del : Nat
  didx : Nat
  deriving DecidableEq, Repr

def graftDesc (b : BitVec 512) : GraftDesc :=
  let f (off n : Nat) : Nat := bitF b.toNat (8 * (off + n) - 1) (8 * off)
  { n := f 0 1 + 1, chb := f 1 1, nch := f 2 2, stepLo := f 4 1, stepHi := f 5 1, chLo := f 6 1, chHi := f 7 1,
    strLo := f 8 1, strHi := f 9 1, chunk := f 10 1 + 1, del := f 11 1 % 16, didx := f 12 1 }

/-- Width of the step field. -/
def GraftDesc.stepW (d : GraftDesc) : Nat := d.stepHi + 1 - d.stepLo

def GraftDesc.step (d : GraftDesc) (t : Token) : Nat := bitF t.nest.toNat d.stepHi d.stepLo
def GraftDesc.chan (d : GraftDesc) (t : Token) : Nat := bitF t.nest.toNat d.chHi d.chLo
def GraftDesc.stream (d : GraftDesc) (t : Token) : Nat :=
  if d.strHi = 0xFF then 0 else bitF t.nest.toNat d.strHi d.strLo

/-- The colour that port `r` of a descriptor carries (R325). -/
def GraftDesc.colour (d : GraftDesc) (r : Nat) : Nat :=
  if r = 0 then 2 else if r = 1 ∨ r = 3 then min d.n 32 else d.n - 32

def Graft.desc (g : Graft) (d : Nat) : GraftDesc := graftDesc ((g.descs[d]?).getD 0)

/-! ### Stores (R321) -/

def StateVec.fresh : StateVec := { h := List.replicate 64 0, handle := 0, poison := none }
def Graft.vec (g : Graft) (v : Nat) : StateVec := (tabGet g.vecs v).getD StateVec.fresh
def Graft.rowA (g : Graft) (c : Nat) : List Nat := (tabGet g.a c).getD (List.replicate 64 0)
def Graft.wHandle (g : Graft) (c : Nat) : Handle := (tabGet g.wh c).getD 0

/-- The shared token of a (descriptor, stream, step) at port `r`. -/
def Graft.sharedTok (g : Graft) (d stream step r : Nat) : Option Token :=
  (g.shared.find? fun q => q.1 == d && q.2.1 == r && (g.desc d).stream q.2.2 == stream && (g.desc d).step q.2.2 == step).map
    (·.2.2)

/-- Entries of the shared buffer in use: the different (descriptor, stream, step). -/
def Graft.sharedUsed (g : Graft) : List (Nat × Nat × Nat) :=
  g.shared.foldl (fun l q =>
    let k := (q.1, (g.desc q.1).stream q.2.2, (g.desc q.1).step q.2.2)
    if l.contains k then l else k :: l) []

/-- The shared tokens of a step in the order of their ports; none while one is missing (R325). -/
def Graft.sharedAll (g : Graft) (d stream step : Nat) : Option (List Token) :=
  let want := if (g.desc d).n ≤ 32 then [1, 3] else [1, 2, 3, 4]
  want.foldr (fun r l => match g.sharedTok d stream step r, l with | some t, some l => some (t :: l) | _, _ => none) (some [])

/-- The `u` token of a channel-step. -/
def Graft.uTok (g : Graft) (d stream chan step : Nat) : Option Token :=
  (g.steps.find? fun q => q.1 == d && (g.desc d).stream q.2 == stream && (g.desc d).chan q.2 == chan
    && (g.desc d).step q.2 == step).map (·.2)

/-! ### Scans (R326, R327, R329) -/

/-- The step value of the channel-step with a number. -/
def Graft.stepAt (g : Graft) (sc : Scan) (i : Nat) : Nat :=
  let w := 2 ^ (g.desc sc.desc).stepW
  if sc.rev then (sc.steps - 1 - i) % w else i % w

/-- Whether the A row of a channel is uniform. -/
def Graft.uniformRow (g : Graft) (c n : Nat) : Bool :=
  match (g.rowA c).take n with
  | [] => true
  | x :: l => l.all (· == x)

/-- Whether every A row of a descriptor's channels is uniform. -/
def Graft.uniform (g : Graft) (d : Nat) : Bool :=
  let ds := g.desc d
  (List.range ds.nch).all fun c => g.uniformRow (ds.chb + c) ds.n

/-- Steps of chunk `k`. -/
def Graft.chunkLen (g : Graft) (sc : Scan) (k : Nat) : Nat :=
  let c := (g.desc sc.desc).chunk
  min c (sc.steps - k * c)

/-- Whether chunk `k` runs in chunked form (R329). -/
def Graft.chunked (g : Graft) (sc : Scan) (k : Nat) : Bool :=
  match sc.form with
  | 0 => sc.uniform && decide (32 ≤ g.chunkLen sc k) && decide (g.chunkLen sc k * (g.desc sc.desc).nch ≤ 4096)
  | 2 => true
  | _ => false

/-- Whether a forced chunked form cannot run (R329). -/
def Graft.badForm (g : Graft) (sc : Scan) : Bool :=
  let ds := g.desc sc.desc
  sc.form == 2 && (!sc.uniform || decide (min ds.chunk sc.steps * ds.nch > 4096))

/-- Whether a scan takes steps. -/
def Scan.stepping (sc : Scan) : Bool := sc.st == .steps

/-- Steps that a channel has taken. -/
def Scan.of (sc : Scan) (c : Nat) : Nat := tabNum sc.taken c

/-- Whether the next step of a channel belongs to a recurrent chunk. -/
def Graft.recurrent (g : Graft) (sc : Scan) (c : Nat) : Bool :=
  decide (sc.of c < sc.steps) && !g.chunked sc (sc.of c / (g.desc sc.desc).chunk)

/-- The chunk that runs next in chunked form, when every channel stands at its start and all its tokens are there (R330). -/
def Graft.nextChunk (g : Graft) (sc : Scan) : Option Nat :=
  let ds := g.desc sc.desc
  let i := sc.of 0
  let k := i / ds.chunk
  let steps := (List.range (g.chunkLen sc k)).map fun j => g.stepAt sc (i + j)
  if sc.stepping && decide (i < sc.steps) && i % ds.chunk == 0 && g.chunked sc k
      && (List.range ds.nch).all (fun c => sc.of c == i)
      && steps.all (fun t => (g.sharedAll sc.desc sc.stream t).isSome
        && (List.range ds.nch).all fun c => (g.uTok sc.desc sc.stream c t).isSome) then some k
  else none

/-- Whether the engines of a context may start work on a quire (R383, R403, R429). -/
def State.engineMay (s : State) (q ctx : Nat) : Bool :=
  s.mayIssue ctx && s.awake (q / 4) && s.rateOk (q / 64) (s.partOf ctx)

/-- Whether the Graft of a quire is ready to enter the array (R333). -/
def State.graftReady (s : State) (q : Nat) : Bool :=
  let g := s.graftOf q
  match g.ctx with
  | some c => s.engineMay q c && !allSwitched g.swIn g.nin && g.scans.any fun x => (g.nextChunk x.2).isSome
  | none => false

/-- Whether the Press of a quire is ready to enter the array (R333). -/
def State.pressReady (s : State) (q : Nat) : Bool :=
  match (s.pressOf q).pick with
  | some (_, g) => s.engineMay q g.ctx.toNat
  | none => false

/-! ### The recurrent form (R323) -/

/-- Lane `j` of a vector that travels in one or two tokens. -/
def sharedLane (toks : List Token) (hi : Bool) (n j : Nat) : Nat :=
  let per := if n ≤ 32 then 1 else 2
  let base := if hi then per else 0
  match toks[base + j / 32]? with
  | some t => if t.ord then 0 else laneAt 32 t.pay (j % 32)
  | none => 0

def f32 (b : Nat) : Val := decodeLane .fp32 b

/-- x and Δ of a `u` token. -/
def uX (t : Token) : Val := f32 (laneAt 32 t.pay 0)
def uDelta (t : Token) : Val := f32 (laneAt 32 t.pay 1)

/-- The state vector after one step. -/
def stepState (n : Nat) (arow h : List Nat) (u : Token) (sh : List Token) : List Nat :=
  let bx := f32 (rne32 (vmul (uDelta u) (uX u)))
  (List.range 64).map fun j =>
    if j < n then
      let abar := f32 (rne32 (vexp (f32 (rne32 (vmul (uDelta u) (f32 ((arow[j]?).getD 0)))))))
      rne32 (ieeeSum [vmul abar (f32 ((h[j]?).getD 0)), vmul bx (f32 (sharedLane sh false n j))])
    else (h[j]?).getD 0

/-- The y of one step, from the state after it. -/
def stepY (n d : Nat) (h : List Nat) (u : Token) (sh : List Token) : Nat :=
  rne32 (ieeeSum (((List.range n).map fun j => vmul (f32 (sharedLane sh true n j)) (f32 ((h[j]?).getD 0)))
    ++ [vmul (f32 d) (uX u)]))

/-! ### The chunked form (R330, R331) -/

/-- A lane as BF16, rounded with RNE. -/
def asBf16 (b : Nat) : Val := decodeLane .bf16 (roundTo .bf16 (f32 b) .rne 0 false)

/-- M[t][i]: C of step `t` times B of step `i` on the array, in slices of 32. -/
def chunkM (n : Nat) (shT shI : List Token) : Nat :=
  (List.range ((n + 31) / 32)).foldl (fun acc k =>
    let w := min 32 (n - 32 * k)
    pressSlice acc ((List.range w).map fun j => asBf16 (sharedLane shI false n (32 * k + j)))
      ((List.range w).map fun j => asBf16 (sharedLane shT true n (32 * k + j))) 0 0) 0

/-- The running sums Λ of a chunk. -/
def chunkLambda : Option Nat → List Nat → List Nat
  | _, [] => []
  | none, d :: l => d :: chunkLambda (some d) l
  | some p, d :: l => let x := rne32 (vadd (f32 p) (f32 d)); x :: chunkLambda (some x) l

/-- What a chunk computes of one channel: the y bits of its steps and the state after it. -/
structure ChunkOut where
  y : List Nat
  h : List Nat
  deriving DecidableEq, Repr

/-- One channel of a chunk in chunked form; `m t i` is M. -/
def chunkChannel (n a d : Nat) (h : List Nat) (us : List Token) (shs : List (List Token)) (m : Nat → Nat → Nat) : ChunkOut :=
  let bx := us.map fun u => rne32 (vmul (uDelta u) (uX u))
  let lam := chunkLambda none (us.map fun u => rne32 (vmul (uDelta u) (f32 a)))
  let at' (l : List Nat) (i : Nat) : Val := f32 ((l[i]?).getD 0)
  let ld (t i : Nat) : Val := f32 (rne32 (vexp (vadd (at' lam t) (vneg (at' lam i)))))
  let e (t : Nat) : Val := f32 (rne32 (vexp (at' lam t)))
  let c (t j : Nat) : Val := f32 (sharedLane ((shs[t]?).getD []) true n j)
  let b (i j : Nat) : Val := f32 (sharedLane ((shs[i]?).getD []) false n j)
  let last := us.length - 1
  { y := us.zipIdx.map fun (u, t) =>
      rne32 (ieeeSum (((List.range (t + 1)).map fun i => vmul (vmul (f32 (m t i)) (ld t i)) (at' bx i))
        ++ [vmul (e t) (ieeeSum ((List.range n).map fun j => vmul (c t j) (at' h j))), vmul (f32 d) (uX u)]))
    h := (List.range 64).map fun j =>
      if j < n then
        rne32 (ieeeSum (vmul (e last) (at' h j) :: (List.range us.length).map fun i => vmul (vmul (ld last i) (at' bx i)) (b i j)))
      else (h[j]?).getD 0 }

end Sys2Proof.Machine
end

