-- ==== Sys2Proof/Machine/HostOps.lean ====
section
/-! DEFINITION. Delivery queues and event queues in host memory (R101, R415 to R417). -/

namespace Sys2Proof.Machine

/-- The control of a delivery queue. -/
def Vf.queue (v : Vf) (q : Nat) : QueueCtl := (tabGet v.queues q).getD QueueCtl.reset

/-- Whether a queue is full: PIDX − CIDX = 2^LOG2N (R416). -/
def QueueCtl.full (c : QueueCtl) : Bool :=
  decide ((BitVec.ofNat 32 c.seq.toNat - c.cidx).toNat ≥ 2 ^ c.log2n)

/-- A delivery entry: 160 bytes (R415). -/
def deliveryEntry (t : Token) (seq : BitVec 64) : Bytes :=
  bytesOf 16 ({ t with die := 0 }.header).toNat ++ bytesOf 128 (t.pay.toNat % 2 ^ (8 * t.bytes))
    ++ bytesOf 8 seq.toNat ++ bytesOf 8 (if t.poison then 1 else 0)

/-- An entry goes to the next place of a ring, then PIDX to PIDXA, then the interrupt (R416). -/
def State.ringWrite (s : State) (vf queue : Nat) (c : QueueCtl) (entry : Bytes) : State :=
  let at' := c.base + entry.length * (c.seq.toNat % 2 ^ c.log2n)
  let irq : List Pcie := if c.irq then [.msix vf queue] else []
  { s with pcie := s.pcie ++ [.write at' entry, .write c.pidxa (bytesOf 8 ((c.seq.toNat + 1) % 2 ^ 32))] ++ irq }

/-- What a delivery comes to (R94, R416). -/
inductive DeliverRes where
  | ok (s : State)
  /-- the queue is disabled: the token is discarded and counted -/
  | off (s : State)
  | full
  | refused (s : State)

/-- A token for a delivery queue. -/
def State.deliver (s : State) (vf queue : Nat) (t : Token) : DeliverRes :=
  let v := s.vf vf
  let c := v.queue queue
  if !c.en then .off (s.vfCount vf 15 8 0)
  else if c.full then .full
  else match s.clasp t.plate (destVf vf) t.bytes with
    | (false, s1) => .refused s1
    | (true, s1) =>
      let v1 := s1.vf vf
      let s2 := s1.setVf vf { v1 with queues := tabPut v1.queues queue { c with seq := c.seq + 1 } }
      .ok (s2.ringWrite vf queue c (deliveryEntry t c.seq))

end Sys2Proof.Machine
end

