-- ==== Sys2Proof/Machine/Pruner.lean ====
section
/-! DEFINITION. The Pruner: candidate lists, winners, reduction groups, and the commit unit (R346 to R356). -/

namespace Sys2Proof.Machine

/-- The unit by which a Pruner makes the accesses of a command (R71). -/
def State.prunerWho (s : State) (quire ctx cmd : Nat) : Who :=
  { ctx := ctx, part := s.partOf ctx, quire := quire, kind := 3, key := unitKey 3 (quire / 64) cmd, parks := true }

/-! ### Lists and winners (R348, R349) -/

/-- Whether a candidate ranks above another. -/
def candAbove (a b : Cand) : Bool :=
  let va := f32 a.2.2
  let vb := f32 b.2.2
  if va.isNan then vb.isNan && decide (a.1 < b.1)
  else vb.isNan || vlt vb va || (veq va vb && decide (a.1 < b.1))

def insertCand (c : Cand) : List Cand → List Cand
  | [] => [c]
  | x :: r => if candAbove c x then c :: x :: r else x :: insertCand c r

/-- The best `k` of two lists. -/
def mergeCands (k : Nat) (a b : List Cand) : List Cand := (b.foldl (fun l c => insertCand c l) a).take k

/-- `prn` (R349). -/
def prn (seed step : Nat) : Nat :=
  let m := 2 ^ 64
  let round (z : Nat) : Nat := (z ^^^ (z / 2 ^ 29)) * 0x9FB21C651E98DF25 % m
  let z := round (round (round ((seed + step * 0xA24BAED4963EE407) % m)))
  (z ^^^ (z / 2 ^ 32)) % 2 ^ 32

/-- The parameters that every member of a step must name alike, from a step record: bytes 0x10 to 0x27 without LFMT. -/
def stepParams (record : Bytes) : Bytes := (record.drop 16).take 14 ++ [0] ++ (record.drop 31).take 9

def paramSeed (p : Bytes) : Nat := fieldOf p 0 8
def paramStep (p : Bytes) : Nat := fieldOf p 8 4
def paramK (p : Bytes) : Nat := fieldOf p 12 2
def paramMode (p : Bytes) : Nat := fieldOf p 15 1
def paramPth (p : Bytes) : Nat := fieldOf p 16 4
def paramInvt (p : Bytes) : Nat := fieldOf p 20 4

def Val.isFinite (v : Val) : Bool := !v.isNan && !v.isInf

/-- The e values of a list (R349). -/
def candE (p : Bytes) (l : List Cand) : List Nat :=
  let v (c : Cand) : Val := f32 c.2.2
  match l with
  | [] => []
  | m :: _ =>
    l.map fun c =>
      if (v c).isNan || (v c == .inf true) || !(v m).isFinite then 0
      else rne32 (vexp (f32 (rne32 (vmul (f32 (rne32 (vadd (v c) (vneg (v m))))) (f32 (paramInvt p))))))

/-- The running sums of the e values. -/
def candCum (e : List Nat) : List Nat := (List.range e.length).map fun q => rne32 (ieeeSum ((e.take (q + 1)).map f32))

/-- The winner of a final list (R349). -/
def winnerOf (p : Bytes) (l : List Cand) (h : Handle) : Winner :=
  let seq := paramStep p % 2 ^ 16
  if paramMode p = 2 then
    { seq := seq, index := l.length, bits := 0, j := 0, status := 0, code := 0, cands := l, want := 0, handle := h }
  else
    let cum := candCum (candE p l)
    let last := f32 ((cum.getLast?).getD 0)
    let thr := f32 (rne32 (vmul (f32 (paramPth p)) last))
    let first (q : Nat → Bool) (n d : Nat) : Nat := ((List.range n).find? q).getD d
    let at' (q : Nat) : Val := f32 ((cum[q]?).getD 0)
    let j := 1 + first (fun q => !vlt (at' q) thr) l.length (l.length - 1)
    let win :=
      if paramMode p = 1 || last.isZero then 0
      else
        let u := prn (paramSeed p) (paramStep p)
        let r := f32 (rne32 (vmul (.num false u (2 ^ 32)) (at' (j - 1))))
        first (fun q => vlt r (at' q)) j (j - 1)
    let c := (l[win]?).getD default
    let fin := match l with | m :: _ => (f32 m.2.2).isFinite | [] => false
    { seq := seq, index := c.1, bits := c.2.1, j := j, status := if fin && !last.isZero then 0 else 1, code := 0,
      cands := [], want := 0, handle := h }

/-- A winner that ends a step with a code at every member. -/
def Winner.failed (seq code : Nat) : Winner :=
  { seq := seq, index := 0, bits := 0, j := 0, status := 0, code := code, cands := [], want := 0, handle := 0 }

/-- The words that a winner writes at RVA (R349). -/
def Winner.words (w : Winner) (mode : Nat) : List Nat :=
  if mode = 2 then w.cands.flatMap fun c => [c.1, c.2.1] else [w.index, w.bits, w.j, w.status]

/-! ### Step records (R347) -/

def PStep.v (p : PStep) : Nat := fieldOf p.record 8 4
def PStep.ibase (p : PStep) : Nat := fieldOf p.record 12 4
def PStep.bf16 (p : PStep) : Bool := fieldOf p.record 30 1 == 1
def PStep.mode (p : PStep) : Nat := fieldOf p.record 31 1
def PStep.rva (p : PStep) : Nat := fieldOf p.record 40 8
def PStep.grp (p : PStep) : Nat := fieldOf p.record 48 1
def PStep.seq (p : PStep) : Nat := fieldOf p.record 24 4 % 2 ^ 16
/-- K′ of the shard: min(K, V). -/
def PStep.k (p : PStep) : Nat := min (fieldOf p.record 28 2) p.v

def State.modSteps (s : State) (die : Nat) (g : List PStep → List PStep) : State :=
  let p := s.prunerOf die
  s.setPruner die { p with steps := g p.steps }

/-- A step ends and leaves the queue. -/
def State.stepEnd (s : State) (die i : Nat) (p : PStep) (status lane1 : Nat) : State :=
  (s.modSteps die fun l => listDrop l i).cmdDone p.quire p.cmd status lane1

def PStep.isIntake (p : PStep) : Bool := match p.st with | .intake _ => true | _ => false

/-- `PRUNER_STEP_DISPATCH` (R350): the oldest queued `topk` begins while no other reads its logits. -/
def execPrunerStepDispatch (die : Nat) (s : State) : Res :=
  let l := (s.prunerOf die).steps
  match listFind (fun p => !p.commit && p.st == .queued) l 0 with
  | some (i, p) =>
    if l.any (·.isIntake) ∨ !s.mayIssue p.ctx then idle s
    else .next (s.modSteps die fun l => listMod l i fun p => { p with st := .intake 0, handle := p.set })
  | none => idle s

/-- Up to `fuel` logits of a step are taken. -/
def State.intake (s : State) (die i : Nat) : Nat → State
  | 0 => s
  | fuel + 1 =>
    match (s.prunerOf die).steps[i]? with
    | none => s
    | some p =>
      match p.st with
      | .intake pos =>
        let size := if p.bf16 then 2 else 4
        (match s.unitRead (s.prunerWho p.quire p.ctx p.cmd) false ((fieldOf p.record 0 8 + size * pos) % 2 ^ 64) size p.set with
        | .wait s1 => s1
        | .fail c s1 => s1.stepEnd die i p c 0
        | .ok (v, h) s1 =>
          (match s1.engineUnion p.ctx p.handle [h] with
          | .wait s2 => { s with unions := s2.unions }
          | .ok _ (some c) s2 => s2.stepEnd die i p c 0
          | .ok h' none s2 =>
            let c : Cand := ((p.ibase + pos) % 2 ^ 32, v, if p.bf16 then v * 2 ^ 16 else v)
            let p1 := { p with list := mergeCands p.k p.list [c], handle := h',
                               st := if pos + 1 = p.v then .final else .intake (pos + 1) }
            (s2.modSteps die fun l => listMod l i fun _ => p1).intake die i fuel))
      | _ => s

/-- `PRUNER_INTAKE` (R348): up to 32 logits stream through the cells. -/
def execPrunerIntake (die : Nat) (s : State) : Res :=
  match listFind (·.isIntake) (s.prunerOf die).steps 0 with
  | some (i, p) => if s.mayIssue p.ctx then .next (s.intake die i 32) else idle s
  | none => idle s

/-! ### Messages of a group (R351, R352) -/

/-- Candidates as they travel in a flit: 12 bytes each. -/
def candBytes (l : List Cand) : Bytes := l.flatMap fun c => bytesOf 4 c.1 ++ bytesOf 4 c.2.1 ++ bytesOf 4 c.2.2

/-- Payload of a Pruner flit: its kind, group, SEQ, source and target die, candidates in all and of this flit, 24 bytes, and
the candidates. The order of the fields is the model's (notes/assumptions/20.md). -/
def prunerPayload (kind gid seq src dst total : Nat) (fixed : Bytes) (cands : List Cand) : Bytes :=
  bytesOf 1 kind ++ bytesOf 1 gid ++ bytesOf 2 seq ++ bytesOf 1 src ++ bytesOf 1 dst ++ bytesOf 2 total
    ++ bytesOf 2 cands.length ++ bytesOf 6 0 ++ padTo 24 fixed ++ candBytes cands

/-- The flits of a list of candidates: seven in each. -/
def candGroups : Nat → List Cand → List (List Cand)
  | 0, _ => []
  | n + 1, l => l.take 7 :: (if l.length ≤ 7 then [] else candGroups n (l.drop 7))

/-- Fixed bytes of a winner. -/
def winnerBytes (w : Winner) : Bytes :=
  bytesOf 4 w.index ++ bytesOf 4 w.bits ++ bytesOf 4 w.j ++ bytesOf 1 w.status ++ bytesOf 1 w.code

def State.sendPruner (s : State) (accel kind gid seq src dst : Nat) (fixed : Bytes) (cands : List Cand) : State :=
  (candGroups 64 cands).foldl (fun s l =>
    s.sendFlit { dest := accel, kind := 7, src := s.accel, vc := 2, tag := 0, addr := 0, size := 0, aop := 0, status := 0,
                 data := prunerPayload kind gid seq src dst cands.length fixed l }) s

def State.inboxAdd (s : State) (die : Nat) (m : PMsg) : State :=
  let p := s.prunerOf die
  s.setPruner die { p with inbox := p.inbox ++ [m] }

def State.inboxDrop (s : State) (die i : Nat) : State :=
  let p := s.prunerOf die
  s.setPruner die { p with inbox := listDrop p.inbox i }

/-- A message goes to a member: by the mesh and Spine, or over the link through the Clasp. False when the Clasp refuses it. -/
def State.toMember (s : State) (src : Nat) (m : Nat × Nat) (x : PMsg) : Bool × State :=
  if m.1 = s.accel then (true, s.inboxAdd m.2 x)
  else
    let (h, bytes) : Handle × Nat := match x with
      | .list _ _ _ _ l _ h => (h, 8 * l.length)
      | .winner _ w => (w.handle, 16 + 8 * w.cands.length)
      | .withdraw _ _ _ => (0, 0)
    match s.clasp h (destPeer m.1) bytes with
    | (false, s1) => (false, s1)
    | (true, s1) =>
      (true, match x with
        | .list g q _ p l _ _ => s1.sendPruner m.1 1 g q src m.2 p l
        | .winner g w => s1.sendPruner m.1 2 g w.seq src m.2 (winnerBytes w) w.cands
        | .withdraw g q _ => s1.sendPruner m.1 3 g q src m.2 [] [])

/-- Candidates of a flit. -/
def flitCands (b : Bytes) : List Cand :=
  (List.range (fieldOf b 8 2)).map fun i =>
    (fieldOf b (40 + 12 * i) 4, fieldOf b (44 + 12 * i) 4, fieldOf b (48 + 12 * i) 4)

/-- A Pruner flit from an accelerator arrives: it starts a message or goes on with one; its data takes the peer's ingress
handle (R84). -/
def State.prunerFlit (s : State) (accel : Nat) (b : Bytes) : State :=
  let die := fieldOf b 5 1 % 16
  let src := (accel, fieldOf b 4 1)
  let gid := fieldOf b 1 1
  let seq := fieldOf b 2 2
  let l := flitCands b
  let h := (s.dest (destPeer accel)).ingress
  let p := s.prunerOf die
  let grow (m : PMsg) : PMsg := match m with
    | .list g q c pr cs w h => .list g q c pr (cs ++ l) (w - l.length) h
    | .winner g w => .winner g { w with cands := w.cands ++ l, want := w.want - l.length }
    | m => m
  let mine (m : PMsg) : Bool := match m, fieldOf b 0 1 with
    | .list g q c _ _ w _, 1 => g == gid && q == seq && c == src && w != 0
    | .winner g w, 2 => g == gid && w.seq == seq && w.want != 0
    | _, _ => false
  match listFind mine p.inbox 0 with
  | some (i, _) => s.setPruner die { p with inbox := listMod p.inbox i grow }
  | none =>
    let want := fieldOf b 6 2 - l.length
    match fieldOf b 0 1 with
    | 1 => s.inboxAdd die (.list gid seq src ((b.drop 16).take 24) l want h)
    | 2 => s.inboxAdd die (.winner gid
        { seq := seq, index := fieldOf b 16 4, bits := fieldOf b 20 4, j := fieldOf b 24 4, status := fieldOf b 28 1,
          code := fieldOf b 29 1, cands := l, want := want, handle := h })
    | 3 => s.inboxAdd die (.withdraw gid seq src)
    | _ => s

/-! ### Members (R350 to R352) -/

/-- The list of a group step goes to the leader; a refused list ends the step with CLASPREF, and a withdrawal follows. -/
def State.sendList (s : State) (die i : Nat) (p : PStep) : State :=
  match tabGet (s.prunerOf die).groups p.grp with
  | none => s
  | some g =>
    let leader := g.members.headD (s.accel, die)
    match s.toMember die leader (.list p.grp p.seq (s.accel, die) (stepParams p.record) p.list 0 p.handle) with
    | (true, s1) => s1.modSteps die fun l => listMod l i fun p => { p with st := .sent s.tick }
    | (false, s1) =>
      ((s1.toMember die leader (.withdraw p.grp p.seq (s.accel, die))).2).stepEnd die i p 0x42 0

/-- The words of a result are written one after another; the step completes with the last. -/
def State.writeResult (s : State) (die i : Nat) : Nat → State
  | 0 => s
  | fuel + 1 =>
    match (s.prunerOf die).steps[i]? with
    | none => s
    | some p =>
      match p.st with
      | .writing w n =>
        let ws := w.words p.mode
        if n ≥ ws.length then s.stepEnd die i p w.status w.index
        else
          (match s.union p.handle w.handle with
          | .wait a b => s.askUnion a b p.ctx (s.partOf p.ctx)
          | .ovf a b => (s.plateOvf a b p.ctx (s.partOf p.ctx)).stepEnd die i p (s.ovfCode a b) 0
          | .ok h =>
            match s.unitWrite (s.prunerWho p.quire p.ctx p.cmd) false ((p.rva + 4 * n) % 2 ^ 64) 4 ((ws[n]?).getD 0) h with
            | .wait s1 => s1
            | .fail c s1 => s1.stepEnd die i p c 0
            | .ok _ s1 => (s1.modSteps die fun l => listMod l i fun p => { p with st := .writing w (n + 1) }).writeResult die i fuel)
      | _ => s

def PStep.isFinal (p : PStep) : Bool := match p.st with | .final | .writing _ _ => true | _ => false

/-- `PRUNER_LIST_FINAL` (R349, R351): the final list of a local step yields the winner, and the result is written; that of a
group step goes to the leader. -/
def execPrunerListFinal (die : Nat) (s : State) : Res :=
  match listFind (·.isFinal) (s.prunerOf die).steps 0 with
  | none => idle s
  | some (i, p) =>
    if !s.mayIssue p.ctx then idle s
    else match p.st with
      | .final =>
        if p.grp ≠ 0xFF then .next (s.sendList die i p)
        else
          let w := winnerOf (stepParams p.record) p.list p.handle
          .next ((s.modSteps die fun l => listMod l i fun p => { p with st := .writing w 0 }).writeResult die i 600)
      | _ => .next (s.writeResult die i 600)

/-- A winner reaches every member, or one of them; where the Clasp refuses it, its step ends there with CLASPREF. -/
def State.sendWinner (s : State) (die gid : Nat) (w : Winner) : List (Nat × Nat) → State
  | [] => s
  | m :: l =>
    let x := s.toMember die m (.winner gid w)
    let s1 := if x.1 then x.2 else (x.2.toMember die m (.winner gid (Winner.failed w.seq 0x42))).2
    s1.sendWinner die gid w l

/-- The leader keeps a winner, the last 16 of a group (R352), and sends it to every member. -/
def State.leaderEnd (s : State) (die gid : Nat) (w : Winner) : State :=
  let p := s.prunerOf die
  match tabGet p.groups gid with
  | none => s
  | some g =>
    let g1 := { g with winners := ((g.winners ++ [w]).drop (g.winners.length + 1 - 16)) }
    let s1 := s.setPruner die { p with groups := tabPut p.groups gid g1
                                       merges := p.merges.filter fun m => !(m.gid == gid && m.seq == w.seq) }
    s1.sendWinner die gid w g.members

/-- `PRUNER_LIST_MERGE` (R351, R352): a list reaches its leader. -/
def execPrunerListMerge (die idx : Nat) (s : State) : Res :=
  let p := s.prunerOf die
  match p.inbox[idx]? with
  | some (.list gid seq src params cands 0 h) =>
    let s1 := s.inboxDrop die idx
    let p1 := s1.prunerOf die
    (match tabGet p1.groups gid with
    | none => .next s1
    | some g =>
      if !g.members.contains src then
        .next (s1.setPruner die { p1 with groups := tabPut p1.groups gid { g with stray := g.stray + 1 } })
      else match g.winners.find? (fun w => w.seq == seq) with
        | some w => .next (s1.sendWinner die gid w [src])
        | none =>
          let old := (p1.merges.find? fun m => m.gid == gid && m.seq == seq).getD
            { gid := gid, seq := seq, from' := [], params := params, list := [], handle := 0, code := 0 }
          if old.from'.contains src then .next s1
          else
            let lead := match p1.steps.find? (fun q => !q.commit && q.grp == gid && q.seq == seq) with
              | some q => q.ctx
              | none => 0
            match s1.engineUnion lead old.handle [h] with
            | .wait s2 => .next { s with unions := s2.unions }
            | .ok h' bad s2 =>
              let code := if old.code ≠ 0 then old.code else if old.params ≠ params then 0xB8 else bad.getD 0
              let m : Merge := { old with from' := old.from' ++ [src], list := mergeCands (paramK params) old.list cands,
                                          handle := h', code := code }
              let p2 := s2.prunerOf die
              let s3 := s2.setPruner die { p2 with merges := (p2.merges.filter fun m => !(m.gid == gid && m.seq == seq)) ++ [m] }
              if g.members.all fun x => m.from'.contains x then
                let w := if m.code ≠ 0 then Winner.failed seq m.code else winnerOf params m.list m.handle
                .next (s3.leaderEnd die gid w)
              else .next s3)
  | _ => idle s

/-- `PRUNER_WINNER_ARRIVAL` (R351, R352): a winner reaches a member; one of another SEQ is discarded. -/
def execPrunerWinnerArrival (die idx : Nat) (s : State) : Res :=
  let p := s.prunerOf die
  match p.inbox[idx]? with
  | some (.winner gid w) =>
    if w.want ≠ 0 then idle s
    else
      let mine (q : PStep) : Bool := !q.commit && q.grp == gid && q.seq == w.seq && (match q.st with | .sent _ => true | _ => false)
      let s1 := s.inboxDrop die idx
      (match listFind mine p.steps 0 with
      | none => .next s1
      | some (i, q) =>
        if !s.mayIssue q.ctx then idle s
        else if w.code ≠ 0 then .next (s1.stepEnd die i q w.code 0)
        else .next ((s1.modSteps die fun l => listMod l i fun q => { q with st := .writing w 0 }).writeResult die i 600))
  | _ => idle s

/-- `PRUNER_RESEND` (R352): a member that holds no winner 65,536 cyc after it sent its list sends it again. -/
def execPrunerResend (die idx : Nat) (s : State) : Res :=
  match (s.prunerOf die).steps[idx]? with
  | some p =>
    (match p.st with
    | .sent t => if s.mayIssue p.ctx ∧ s.cyclesSince die t ≥ 65536 then .next (s.sendList die idx p) else idle s
    | _ => idle s)
  | none => idle s

/-- `PRUNER_WITHDRAWAL` (R352): the leader ends the step at every member with CLASPREF. -/
def execPrunerWithdrawal (die idx : Nat) (s : State) : Res :=
  match (s.prunerOf die).inbox[idx]? with
  | some (.withdraw gid seq src) =>
    let s1 := s.inboxDrop die idx
    let p := s1.prunerOf die
    (match tabGet p.groups gid with
    | none => .next s1
    | some g =>
      if !g.members.contains src then
        .next (s1.setPruner die { p with groups := tabPut p.groups gid { g with stray := g.stray + 1 } })
      else match g.winners.find? (fun w => w.seq == seq) with
        | some w => .next (s1.sendWinner die gid w [src])
        | none => .next (s1.leaderEnd die gid (Winner.failed seq 0x42)))
  | _ => idle s

/-! ### The commit unit (R353 to R355) -/

def Commit.word (c : Commit) (off n : Nat) : Nat := c.req.getD 0 / 2 ^ (8 * off) % 2 ^ (8 * n)
def Commit.maxlen (c : Commit) : Nat := c.word 4 4
def Commit.stopid (c : Commit) : Nat := c.word 8 4
def Commit.dq (c : Commit) : Nat := c.word 13 1
def Commit.pgsh (c : Commit) : Nat := c.word 14 1

/-- Status of a request record that is not committed to: 2 malformed, 3 not running. -/
def Commit.check (c : Commit) : Nat :=
  if c.maxlen = 0 ∨ c.maxlen > 2 ^ 31 ∨ c.word 12 1 > 2 ∨ c.dq = 255 ∨ c.pgsh < 4 ∨ c.pgsh > 16 ∨ c.word 15 1 ≠ 0
      ∨ c.word 32 32 ≠ 0 then 2
  else if c.word 12 1 ≠ 0 then 3
  else 0

/-- Accepted drafts: how many lead the samples. -/
def accepted : List Nat → List Nat → Nat
  | d :: dr, t :: tr => if d = t then accepted dr tr + 1 else 0
  | _, _ => 0

/-- The commit of a `topk.commit` command (R354). -/
def PStep.commitOf (p : PStep) : Commit where
  quire := p.quire
  cmd := p.cmd
  ctx := p.ctx
  rq := fieldOf p.record 0 8
  tva := fieldOf p.record 8 8
  dva := fieldOf p.record 16 8
  n := fieldOf p.record 24 2
  req := none
  toks := []
  drafts := []
  st := .reading
  pos := 0
  q := 0
  state := 0
  delivered := 0
  page := 0
  status := 0
  handle := p.set

/-- Whether a request record has a commit in progress in a partition. -/
def State.commitOn (s : State) (part rq : Nat) : Bool :=
  s.pruner.any fun d => d.2.commits.any fun c => c.2.rq == rq && s.partOf c.2.ctx == part

/-- `COMMIT_START` (R346, R354): the oldest commit in the step queue takes a slot, or ends with status 3 when its request has a
commit in progress. -/
def execCommitStart (die : Nat) (s : State) : Res :=
  let p := s.prunerOf die
  match listFind (·.commit) p.steps 0, (List.range 64).find? (fun i => (tabGet p.commits i).isNone) with
  | some (i, q), some slot =>
    if !s.mayIssue q.ctx then idle s
    else
      let c := q.commitOf
      if s.commitOn (s.partOf q.ctx) c.rq then .next (s.stepEnd die i q 3 0)
      else .next (s.setPruner die { p with steps := listDrop p.steps i, commits := tabPut p.commits slot c })
  | _, _ => idle s

def State.setCommit (s : State) (die slot : Nat) (c : Commit) : State :=
  let p := s.prunerOf die
  s.setPruner die { p with commits := tabPut p.commits slot c }

/-- A commit ends; lane 1 is the number of tokens delivered. -/
def State.commitEnd (s : State) (die slot : Nat) (c : Commit) (status : Nat) : State :=
  let p := s.prunerOf die
  (s.setPruner die { p with commits := tabDel p.commits slot }).cmdDone c.quire c.cmd status c.delivered

/-- A commit reads, joins the set of what it read, and goes on. -/
def State.commitRead (s : State) (die slot : Nat) (c : Commit) (va align size : Nat) (g : Commit → Nat → State → State) : State :=
  match s.unitReadAt (s.prunerWho c.quire c.ctx c.cmd) false (va % 2 ^ 64) align size c.handle with
  | .wait s1 => s1
  | .fail e s1 => s1.commitEnd die slot c e
  | .ok (v, h) s1 =>
    match s1.engineUnion c.ctx c.handle [h] with
    | .wait s2 => { s with unions := s2.unions }
    | .ok _ (some e) s2 => s2.commitEnd die slot c e
    | .ok h' none s2 => g { c with handle := h' } v s2

/-- A commit writes and goes on. -/
def State.commitWrite (s : State) (die slot : Nat) (c : Commit) (va align size v : Nat) (g : State → State) : State :=
  match s.unitWriteAt (s.prunerWho c.quire c.ctx c.cmd) false (va % 2 ^ 64) align size v c.handle with
  | .wait s1 => s1
  | .fail e s1 => s1.commitEnd die slot c e
  | .ok _ s1 => g s1

/-- The next token that a commit delivers (R355). -/
def Commit.token (c : Commit) : Token :=
  { Token.blank c.ctx with
    kind := 3, node := BitVec.ofNat 8 c.dq, fmt := .i32, wid := 1, plate := c.handle,
    pay := packLanes 32 [(c.toks[c.q]?).getD 0, c.pos + 1] }

/-- The delivery loop, one token (R354, R355). -/
def State.commitToken (s : State) (die slot : Nat) (c : Commit) : State :=
  if c.q > accepted c.drafts c.toks ∨ c.state ≠ 0 then s.setCommit die slot { c with st := .closing }
  else if c.pos = c.maxlen then s.setCommit die slot { c with state := 2, st := .closing }
  else
    let on (s : State) : State :=
      let stop := c.stopid ≠ 2 ^ 32 - 1 ∧ c.toks[c.q]? = some c.stopid
      s.setCommit die slot { c with pos := c.pos + 1, delivered := c.delivered + 1, q := c.q + 1, state := if stop then 1 else 0 }
    match s.deliver (s.homeVf c.ctx) c.dq c.token with
    | .ok s1 => on s1
    | .off s1 => on s1
    | .full => s
    | .refused s1 => s1.setCommit die slot { c with status := 0x42, st := .closing }

/-- Pages of `n` positions. -/
def Commit.pages (c : Commit) (n : Nat) : Nat := (n + 2 ^ c.pgsh - 1) / 2 ^ c.pgsh

/-- The pool's push and the page entry's clear (R354). -/
def State.commitPush (s : State) (die slot : Nat) (c : Commit) (page pool : Nat) (pushed : Bool) : State :=
  let top := pool % 2 ^ 32
  let clear (s : State) : State :=
    s.commitWrite die slot c (c.word 16 8 + 4 * c.page) 4 4 (2 ^ 32 - 1) fun s =>
      s.setCommit die slot { c with page := c.page + 1, st := .freeing none none false }
  if pushed then clear s
  else if top = pool / 2 ^ 32 % 2 ^ 32 then s.commitEnd die slot c 4
  else
    let again (s' : State) : State :=
      match (s'.prunerOf die).commits.find? (fun x => x.1 == slot) with
      | some (_, c') =>
        -- a push that has to wait inside the package starts again from the pool's present top
        if c'.st == .freeing (some page) (some pool) false ∧ (s'.unitOut (unitKey 3 (c.quire / 64) c.cmd)).isNone then
          s'.setCommit die slot { c' with st := .freeing (some page) none false }
        else s'
      | none => s'
    again ((s.setCommit die slot { c with st := .freeing (some page) (some pool) false }).commitWrite die slot c
      (pool / 2 ^ 64 + 4 * top) 4 4 page fun s =>
        s.commitWrite die slot c (c.word 24 8) 4 4 (top + 1) fun s =>
          s.setCommit die slot { c with st := .freeing (some page) (some pool) true })

/-- `COMMIT_DELIVER` (R354, R355): a commit reads on, delivers its next token, writes its record, or frees its next page. -/
def execCommitDeliver (die slot : Nat) (s : State) : Res :=
  match tabGet (s.prunerOf die).commits slot with
  | none => idle s
  | some c =>
    if !s.mayIssue c.ctx then idle s
    else match c.st with
      | .reading =>
        if c.req.isNone then
          .next (s.commitRead die slot c c.rq 16 64 fun c v s =>
            let c1 := { c with req := some v, pos := v % 2 ^ 32 }
            if c1.check ≠ 0 then s.commitEnd die slot c1 c1.check else s.setCommit die slot c1)
        else if c.toks.length < c.n then
          .next (s.commitRead die slot c (c.tva + 4 * c.toks.length) 4 4 fun c v s =>
            s.setCommit die slot { c with toks := c.toks ++ [v] })
        else if c.drafts.length + 1 < c.n then
          .next (s.commitRead die slot c (c.dva + 4 * c.drafts.length) 4 4 fun c v s =>
            s.setCommit die slot { c with drafts := c.drafts ++ [v] })
        else .next (s.setCommit die slot { c with st := .delivering })
      | .delivering => .next (s.commitToken die slot c)
      | .closing =>
        let v := c.pos % 2 ^ 32 + c.maxlen * 2 ^ 32 + c.stopid * 2 ^ 64 + c.state * 2 ^ 96 + c.word 13 3 * 2 ^ 104
        .next (s.commitWrite die slot c c.rq 16 16 v fun s =>
          if c.status ≠ 0 ∨ c.state = 0 then s.commitEnd die slot c c.status
          else s.setCommit die slot { c with st := .freeing none none false, page := c.pages c.pos })
      | .freeing page pool pushed =>
        if c.page ≥ c.pages c.maxlen then .next (s.commitEnd die slot c 0)
        else match page, pool with
          | none, _ =>
            .next (s.commitRead die slot c (c.word 16 8 + 4 * c.page) 4 4 fun c v s =>
              if v = 2 ^ 32 - 1 then s.setCommit die slot { c with page := c.page + 1 }
              else s.setCommit die slot { c with st := .freeing (some v) none false })
          | some pg, none =>
            .next (s.commitRead die slot c (c.word 24 8) 4 16 fun c v s => s.commitPush die slot c pg v false)
          | some pg, some pl => .next (s.commitPush die slot c pg pl pushed)

end Sys2Proof.Machine
end

