-- ==== Sys2Proof/Machine/Integer.lean ====
section
/-! DEFINITION. The integer and integer-compare opcodes of the elements (R239, R240). -/

namespace Sys2Proof.Machine

/-- The result format of an opcode that fires on I32 and BITS (R240). -/
def fmtLikeA (a : Opnd) : Fmt := a.fmt

/-- The result format of an opcode that fires on I32 alone (R240). -/
def fmtI32 (_ : Opnd) : Fmt := .i32

def execAdd (o : ElemOps) (s : State) : Res := s.lanewise2 o intFmts fmtLikeA fun a b => (a + b) % 2 ^ 32
def execSub (o : ElemOps) (s : State) : Res :=
  s.lanewise2 o intFmts fmtLikeA fun a b => (a + 2 ^ 32 - b % 2 ^ 32) % 2 ^ 32
def execMul (o : ElemOps) (s : State) : Res := s.lanewise2 o [.i32] fmtI32 fun a b => a * b % 2 ^ 32
def execMulh (o : ElemOps) (s : State) : Res :=
  s.lanewise2 o [.i32] fmtI32 fun a b => wrapTo 32 (sext 32 a * sext 32 b / (2 ^ 32 : Nat))
def execMulhZ (o : ElemOps) (s : State) : Res :=
  s.lanewise2 o [.i32] fmtI32 fun a b => a % 2 ^ 32 * (b % 2 ^ 32) / 2 ^ 32

/-- `mad` (R240): C comes through CSEL of the control word (R223). -/
def execMad (o : ElemOps) (s : State) : Res :=
  s.lanewise o [.i32] true true true fmtI32 (fun _ _ => none) fun _ _ a b c =>
    List.zipWith (fun x z => (x + z) % 2 ^ 32) (List.zipWith (fun x y => x * y) a b) c

/-- Signed quotient toward zero, with the special cases of `div` (R240). -/
def sdiv32 (a b : Nat) : Nat := if b % 2 ^ 32 = 0 then 2 ^ 32 - 1 else wrapTo 32 (Int.tdiv (sext 32 a) (sext 32 b))

/-- Signed remainder with the sign of A, with the special cases of `rem` (R240). -/
def srem32 (a b : Nat) : Nat := if b % 2 ^ 32 = 0 then a % 2 ^ 32 else wrapTo 32 (Int.tmod (sext 32 a) (sext 32 b))

/-- Unsigned quotient and remainder (R240). -/
def udiv32 (a b : Nat) : Nat := if b % 2 ^ 32 = 0 then 2 ^ 32 - 1 else a % 2 ^ 32 / (b % 2 ^ 32)
def urem32 (a b : Nat) : Nat := if b % 2 ^ 32 = 0 then a % 2 ^ 32 else a % 2 ^ 32 % (b % 2 ^ 32)

def execDiv (o : ElemOps) (s : State) : Res := s.lanewise2 o [.i32] fmtI32 sdiv32
def execRem (o : ElemOps) (s : State) : Res := s.lanewise2 o [.i32] fmtI32 srem32
def execDivZ (o : ElemOps) (s : State) : Res := s.lanewise2 o [.i32] fmtI32 udiv32
def execRemZ (o : ElemOps) (s : State) : Res := s.lanewise2 o [.i32] fmtI32 urem32

/-- Signed and unsigned minimum and maximum of 32-bit values. -/
def smin32 (a b : Nat) : Nat := if sext 32 a ≤ sext 32 b then a else b
def smax32 (a b : Nat) : Nat := if sext 32 a ≤ sext 32 b then b else a

def execMin (o : ElemOps) (s : State) : Res := s.lanewise2 o [.i32] fmtI32 smin32
def execMax (o : ElemOps) (s : State) : Res := s.lanewise2 o [.i32] fmtI32 smax32
def execMinZ (o : ElemOps) (s : State) : Res := s.lanewise2 o [.i32] fmtI32 min
def execMaxZ (o : ElemOps) (s : State) : Res := s.lanewise2 o [.i32] fmtI32 max

/-- −A modulo 2^32. -/
def neg32 (a : Nat) : Nat := (2 ^ 32 - a % 2 ^ 32) % 2 ^ 32

def execAbs (o : ElemOps) (s : State) : Res := s.lanewise1 o [.i32] fmtI32 fun a => wrapTo 32 (sext 32 a).natAbs
def execNeg (o : ElemOps) (s : State) : Res := s.lanewise1 o [.i32] fmtI32 neg32

def execAnd (o : ElemOps) (s : State) : Res := s.lanewise2 o intFmts fmtLikeA fun a b => a &&& b
def execOr (o : ElemOps) (s : State) : Res := s.lanewise2 o intFmts fmtLikeA fun a b => a ||| b
def execXor (o : ElemOps) (s : State) : Res := s.lanewise2 o intFmts fmtLikeA fun a b => a ^^^ b

/-- The complement of a 32-bit word. -/
def not32 (a : Nat) : Nat := 2 ^ 32 - 1 - a % 2 ^ 32

def execNot (o : ElemOps) (s : State) : Res := s.lanewise1 o intFmts fmtLikeA not32
def execAndn (o : ElemOps) (s : State) : Res := s.lanewise2 o intFmts fmtLikeA fun a b => a &&& not32 b

/-- Shifts and rotation by n = B[4:0] (R240). -/
def shl32 (a b : Nat) : Nat := a * 2 ^ (b % 32) % 2 ^ 32
def shr32 (a b : Nat) : Nat := a % 2 ^ 32 / 2 ^ (b % 32)
def sar32 (a b : Nat) : Nat := wrapTo 32 (sext 32 a / (2 ^ (b % 32) : Nat))
def rol32 (a b : Nat) : Nat := (a % 2 ^ 32 * 2 ^ (b % 32)) % 2 ^ 32 + a % 2 ^ 32 / 2 ^ (32 - b % 32)

def execShl (o : ElemOps) (s : State) : Res := s.lanewise2 o intFmts fmtLikeA shl32
def execShr (o : ElemOps) (s : State) : Res := s.lanewise2 o intFmts fmtLikeA shr32
def execSar (o : ElemOps) (s : State) : Res := s.lanewise2 o intFmts fmtLikeA sar32
def execRol (o : ElemOps) (s : State) : Res := s.lanewise2 o intFmts fmtLikeA rol32

/-- Leading zeros of a 32-bit word; 32 for zero. -/
def clz32 (a : Nat) : Nat := if a % 2 ^ 32 = 0 then 32 else 31 - Nat.log2 (a % 2 ^ 32)

/-- The bits of a 32-bit word, lowest first. -/
def bits32 (a : Nat) : List Nat := (List.range 32).map fun i => a / 2 ^ i % 2

/-- Count of ones, and bit reversal. -/
def popc32 (a : Nat) : Nat := (bits32 a).sum
def brev32 (a : Nat) : Nat := packNat 1 (bits32 a).reverse

def execClz (o : ElemOps) (s : State) : Res := s.lanewise1 o intFmts fmtLikeA clz32
def execPopc (o : ElemOps) (s : State) : Res := s.lanewise1 o intFmts fmtLikeA popc32
def execBrev (o : ElemOps) (s : State) : Res := s.lanewise1 o intFmts fmtLikeA brev32

/-- `sel` (R240): lane `i` of A when bit `i` of the predicate is 1, otherwise of C. -/
def execSel (o : ElemOps) (s : State) : Res :=
  match s.fire with
  | none => idle s
  | some f =>
    let sc := csrcOf (bitF (f.cw o) 31 29)
    let a := f.read (srcOf o.sa) (dataLit o true) .i32
    let p := f.read .slotR 0 .bits
    let c := f.read sc (dataLit o true) .i32
    let n := colourOf [a, p, c]
    let sh := Shape.data .i32 n
    let pay := packLanes 32 ((List.range n).map fun i => if p.bit i then a.lane i else c.lane i)
    let ck := match stdCheck n [(a, [.i32]), (p, allFmts), (c, [.i32])] with
      | some k => some k
      | none => if a.fmt = c.fmt ∨ a.ord ∨ c.ord then none else some 0x70
    .next (s.runFire f o [a, p, c] .all sh sh (a.lane 0) 0 ck (.toks [(o.dx.toNat, sh, pay), (o.dy.toNat, sh, pay)]))

def execCmpEq (o : ElemOps) (s : State) : Res := s.icompare o .eq
def execCmpNe (o : ElemOps) (s : State) : Res := s.icompare o .ne
def execCmpLt (o : ElemOps) (s : State) : Res := s.icompare o .lt
def execCmpGe (o : ElemOps) (s : State) : Res := s.icompare o .ge
def execCmpLtu (o : ElemOps) (s : State) : Res := s.icompare o .ltu
def execCmpGeu (o : ElemOps) (s : State) : Res := s.icompare o .geu
def execCmpLe (o : ElemOps) (s : State) : Res := s.icompare o .le
def execCmpGt (o : ElemOps) (s : State) : Res := s.icompare o .gt

end Sys2Proof.Machine
end

