-- ==== Sys2Proof/Machine/QccOps.lean ====
section
/-! DEFINITION. The running task of a control core: registers, traps, control memory and the task set (R86, R274 to R289, R381). -/

namespace Sys2Proof.Machine

/-- What an instruction of the current control core works with. -/
structure TaskRun where
  q : Nat
  k : Qcc
  t : Task
  ctx : Nat
  part : Nat
  deriving DecidableEq, Repr

/-- The running task of the current control core; none while its context is being torn down (R302). -/
def State.running (s : State) : Option TaskRun :=
  let k := s.qcc s.cur
  match k.task, k.ctx with
  | some t, some c => if s.alive c then some { q := s.cur, k := k, t := t, ctx := c, part := s.partOf c } else none
  | _, _ => none

/-- A register as a word (R274). -/
def Qcc.reg (k : Qcc) (i : BitVec 5) : Word := (k.x[i.toNat]?).getD 0

def TaskRun.reg (r : TaskRun) (i : BitVec 5) : Nat := (r.k.reg i).toNat

/-- A register written; writes to x0 are discarded (R274). -/
def Qcc.setX (k : Qcc) (rd : BitVec 5) (v : Nat) : Qcc :=
  if rd = 0 then k else { k with x := k.x.set rd.toNat (BitVec.ofNat 32 v) }

/-- The instruction has issued: it is counted (R279) and PC becomes `pc`. -/
def Qcc.go (k : Qcc) (pc : Nat) : Qcc :=
  { k with pc := pc % 2 ^ 32, task := k.task.map fun t => { t with count := t.count + 1 } }

/-- The current control core changed. -/
def State.modCur (s : State) (g : Qcc → Qcc) : State := s.setQcc s.cur (g (s.qcc s.cur))

/-- The instruction ends: rd takes a value and PC the next word. -/
def State.retire (s : State) (rd : BitVec 5) (v : Nat) : Res :=
  .next (s.modCur fun k => (k.setX rd v).go (k.pc + 4))

/-- The instruction ends and writes no register. -/
def State.retire0 (s : State) : Res := .next (s.modCur fun k => k.go (k.pc + 4))

/-! ### Traps and the end of a task (R279, R281 to R283, R381) -/

/-- A control-memory word of a quire (R275). -/
def State.ctlWord (s : State) (q a : Nat) : Nat := if a + 4 ≤ 65536 then memRead s.ctl (q * 65536 + a) 4 else 0

/-- A trap record (R281). -/
def State.trapRec (s : State) (r : TaskRun) (code word aux : Nat) : BitVec 128 :=
  BitVec.ofNat 128 (code % 256 * 2 ^ 120 + r.ctx % 4096 * 2 ^ 108 + s.lfOf r.part (r.q / 4) % 256 * 2 ^ 100
    + r.q % 4 * 2 ^ 98 + r.t.chan % 16 * 2 ^ 94 + r.k.pc % 65536 * 2 ^ 76 + word % 2 ^ 32 * 2 ^ 44 + aux % 2 ^ 32 * 2 ^ 12)

/-- A QCC trap is counted and its message of KIND 2 sent (R281, R377, R378). -/
def State.sendQccTrap (s : State) (ctx : Nat) (rec : BitVec 128) (h : Handle) : State :=
  (s.modCtx ctx fun c => { c with fault := { c.fault with ntrap := satAdd c.fault.ntrap 1 } }).sendTrap ctx 2 rec 0 0xFF h

/-- The running task ends; `remove` takes its message from the head of its channel (R279). -/
def Qcc.endTask (k : Qcc) (remove : Bool) : Qcc :=
  match k.task with
  | none => k
  | some t =>
    let k := { k with task := none }
    if remove then k.setChan t.chan ((k.chan t.chan).drop 1) else k

/-- A trap other than TRAPU and CMDFAIL (R281, R283): the record goes to ch15, the task ends and its message is removed. In the
task that ch15 of the trap QCC started it ends the context with TRAPNEST (R381). -/
def State.qccTrap (s : State) (r : TaskRun) (code word aux : Nat) : State :=
  let s1 := (s.sendQccTrap r.ctx (s.trapRec r code word aux) r.t.set).modCur (·.endTask true)
  if r.t.chan = 15 ∧ s.trapQcc r.ctx = some r.q then s1.beginEnd r.ctx 5 0xD3 0 0 else s1

/-- A trap of the instruction at PC. -/
def State.trapHere (s : State) (r : TaskRun) (code aux : Nat) : Res :=
  .next (s.qccTrap r code (s.ctlWord r.q r.k.pc) aux)

/-- An instruction goes on with what an access gives, traps with its code (R283), or waits for it (R288). -/
def State.onSync {α : Type} (r : TaskRun) (aux : Nat) (x : Sync α) (g : α → State → Res) : Res :=
  match x with
  | .ok a s => g a s
  | .fail c s => s.trapHere r c aux
  | .wait s => .next s

/-! ### The task set and control memory (R86, R275) -/

/-- The set of the current task written. -/
def State.setTaskSet (s : State) (h : Handle) : State :=
  s.modCur fun k => { k with task := k.task.map fun t => { t with set := h } }

/-- The set of the current task. -/
def State.taskSet (s : State) : Handle := match (s.qcc s.cur).task with | some t => t.set | none => 0

/-- The task set grows (R86). -/
def State.taskGrow (s : State) (r : TaskRun) (h : Handle) : Sync Unit :=
  match s.union s.taskSet h with
  | .ok g => .ok () (if g = s.taskSet then s else s.setTaskSet g)
  | .ovf a b => .fail (s.ovfCode a b) (s.plateOvf a b r.ctx r.part)
  | .wait a b => .wait (s.askUnion a b r.ctx r.part)

/-- The regions of 4 KiB that `n` bytes at an address touch. -/
def ctlRegions (a n : Nat) : List Nat := (List.range ((a + n - 1) / 4096 + 1 - a / 4096)).map fun i => a / 4096 + i

def State.regionSet (s : State) (q r : Nat) : Handle := (tabGet s.ctlRegion (q * 16 + r)).getD 0
def State.setRegion (s : State) (q r : Nat) (h : Handle) : State :=
  { s with ctlRegion := if h = 0 then tabDel s.ctlRegion (q * 16 + r) else tabPut s.ctlRegion (q * 16 + r) h }

def State.growBy (s : State) (r : TaskRun) : List Nat → Sync Unit
  | [] => .ok () s
  | x :: l => (s.taskGrow r (s.regionSet r.q x)).bind fun _ s => s.growBy r l

/-- `n` bytes of control memory loaded: the task set grows by their regions (R86), and an uncorrectable word traps (R275). -/
def State.ctlLoad (s : State) (r : TaskRun) (a n : Nat) : Sync Nat :=
  (s.growBy r (ctlRegions a n)).bind fun _ s =>
    let p := r.q * 65536 + a
    let s1 := s.readErrs .control p n r.ctx
    if s.uncIn .control p n then .fail 0x20 s1 else .ok (memRead s.ctl p n) s1

/-- The sets of regions grow by a handle (R86): none is written unless all are known. -/
def State.regionGrow (s : State) (q : Nat) (h : Handle) : List Nat → Option (List (Nat × Handle)) ⊕ (Bool × Handle × Handle)
  | [] => .inl (some [])
  | x :: l =>
    match s.union (s.regionSet q x) h with
    | .ok g =>
      match s.regionGrow q h l with
      | .inl (some r) => .inl (some ((x, g) :: r))
      | e => e
    | .ovf a b => .inr (true, a, b)
    | .wait a b => .inr (false, a, b)

/-- `n` bytes of control memory stored: their regions grow by the task set (R86). -/
def State.ctlStore (s : State) (r : TaskRun) (a n v : Nat) : Sync Unit :=
  match s.regionGrow r.q s.taskSet (ctlRegions a n) with
  | .inr (true, x, y) => .fail (s.ovfCode x y) (s.plateOvf x y r.ctx r.part)
  | .inr (false, x, y) => .wait (s.askUnion x y r.ctx r.part)
  | .inl none => .wait s
  | .inl (some l) =>
    let p := r.q * 65536 + a
    if s.partUnc .control p n then .fail 0x20 (s.readErrs .control p n r.ctx)
    else
      let s1 := l.foldl (fun s x => s.setRegion r.q x.1 x.2) s
      .ok () ({ s1 with ctl := memWrite s1.ctl p n v }.writeErrs .control p n)

/-- The checks of a control-memory address: inside control memory, and a multiple of `align` (R286). -/
def ctlCheck (a n align : Nat) : Option Nat :=
  if a + n > 65536 then some 0x82 else if a % align ≠ 0 then some 0x11 else none

/-- The unit that the global accesses of a task are made by (R70, R286): they never park. -/
def TaskRun.who (r : TaskRun) : Who :=
  { ctx := r.ctx, part := r.part, quire := r.q, kind := 0, key := r.q, parks := false }

/-- A 32-bit value as a signed number, and an immediate as a 32-bit value. -/
def imm32 {n : Nat} (b : BitVec n) : Nat := wrapTo 32 b.toInt

/-- Sum of two 32-bit values. -/
def add32 (a b : Nat) : Nat := (a + b) % 2 ^ 32

end Sys2Proof.Machine
end

