-- ==== Sys2Proof/Machine/QccAlu.lean ====
section
/-! DEFINITION. Arithmetic and branches of the control core (R285, R289). -/

namespace Sys2Proof.Machine

/-- An R-form operation (R285). -/
def State.aluR (s : State) (rd ra rb : BitVec 5) (g : Nat → Nat → Nat) : Res :=
  match s.running with
  | none => idle s
  | some r => s.retire rd (g (r.reg ra) (r.reg rb))

/-- An I-form operation: B is the immediate (R285). -/
def State.aluI (s : State) (rd ra : BitVec 5) (b : Nat) (g : Nat → Nat → Nat) : Res :=
  match s.running with
  | none => idle s
  | some r => s.retire rd (g (r.reg ra) b)

def sub32 (a b : Nat) : Nat := (a + (2 ^ 32 - b % 2 ^ 32)) % 2 ^ 32
def slt32 (a b : Nat) : Nat := if sext 32 a < sext 32 b then 1 else 0
def sltu32 (a b : Nat) : Nat := if a % 2 ^ 32 < b % 2 ^ 32 then 1 else 0
def mulh32 (a b : Nat) : Nat := wrapTo 32 (sext 32 a * sext 32 b / (2 ^ 32 : Nat))
def mulhu32 (a b : Nat) : Nat := a % 2 ^ 32 * (b % 2 ^ 32) / 2 ^ 32

def execAluAdd (rd ra rb : BitVec 5) (s : State) : Res := s.aluR rd ra rb add32
def execAluSub (rd ra rb : BitVec 5) (s : State) : Res := s.aluR rd ra rb sub32
def execAluAnd (rd ra rb : BitVec 5) (s : State) : Res := s.aluR rd ra rb fun a b => a &&& b
def execAluOr (rd ra rb : BitVec 5) (s : State) : Res := s.aluR rd ra rb fun a b => a ||| b
def execAluXor (rd ra rb : BitVec 5) (s : State) : Res := s.aluR rd ra rb fun a b => a ^^^ b
def execAluSll (rd ra rb : BitVec 5) (s : State) : Res := s.aluR rd ra rb shl32
def execAluSrl (rd ra rb : BitVec 5) (s : State) : Res := s.aluR rd ra rb shr32
def execAluSra (rd ra rb : BitVec 5) (s : State) : Res := s.aluR rd ra rb sar32
def execAluSlt (rd ra rb : BitVec 5) (s : State) : Res := s.aluR rd ra rb slt32
def execAluSltu (rd ra rb : BitVec 5) (s : State) : Res := s.aluR rd ra rb sltu32
def execAluMul (rd ra rb : BitVec 5) (s : State) : Res := s.aluR rd ra rb fun a b => a * b % 2 ^ 32
def execAluMulh (rd ra rb : BitVec 5) (s : State) : Res := s.aluR rd ra rb mulh32
def execAluMulhu (rd ra rb : BitVec 5) (s : State) : Res := s.aluR rd ra rb mulhu32
def execAluDiv (rd ra rb : BitVec 5) (s : State) : Res := s.aluR rd ra rb sdiv32
def execAluDivu (rd ra rb : BitVec 5) (s : State) : Res := s.aluR rd ra rb udiv32
def execAluRem (rd ra rb : BitVec 5) (s : State) : Res := s.aluR rd ra rb srem32
def execAluRemu (rd ra rb : BitVec 5) (s : State) : Res := s.aluR rd ra rb urem32
def execAluMin (rd ra rb : BitVec 5) (s : State) : Res := s.aluR rd ra rb smin32
def execAluMax (rd ra rb : BitVec 5) (s : State) : Res := s.aluR rd ra rb smax32
def execAluMinu (rd ra rb : BitVec 5) (s : State) : Res := s.aluR rd ra rb min
def execAluMaxu (rd ra rb : BitVec 5) (s : State) : Res := s.aluR rd ra rb max

def execAddi (rd ra : BitVec 5) (imm : BitVec 15) (s : State) : Res := s.aluI rd ra (imm32 imm) add32
def execAndi (rd ra : BitVec 5) (imm : BitVec 15) (s : State) : Res := s.aluI rd ra (imm32 imm) fun a b => a &&& b
def execOri (rd ra : BitVec 5) (imm : BitVec 15) (s : State) : Res := s.aluI rd ra (imm32 imm) fun a b => a ||| b
def execXori (rd ra : BitVec 5) (imm : BitVec 15) (s : State) : Res := s.aluI rd ra (imm32 imm) fun a b => a ^^^ b
def execSlli (rd ra sh : BitVec 5) (s : State) : Res := s.aluI rd ra sh.toNat shl32
def execSrli (rd ra sh : BitVec 5) (s : State) : Res := s.aluI rd ra sh.toNat shr32
def execSrai (rd ra sh : BitVec 5) (s : State) : Res := s.aluI rd ra sh.toNat sar32
def execSlti (rd ra : BitVec 5) (imm : BitVec 15) (s : State) : Res := s.aluI rd ra (imm32 imm) slt32
def execSltiu (rd ra : BitVec 5) (imm : BitVec 15) (s : State) : Res := s.aluI rd ra (imm32 imm) sltu32

/-- `lui` (R285). -/
def execLui (rd : BitVec 5) (imm : BitVec 20) (s : State) : Res :=
  match s.running with
  | none => idle s
  | some _ => s.retire rd (imm.toNat * 2 ^ 12)

/-! ### Branches (R289) -/

/-- A word offset from an address. -/
def target {n : Nat} (pc : Nat) (off : BitVec n) : Nat := wrapTo 32 ((pc : Int) + 4 * off.toInt)

/-- A branch is taken when its comparison holds. -/
def State.branch (s : State) (ra rb : BitVec 5) (off : BitVec 15) (g : Nat → Nat → Bool) : Res :=
  match s.running with
  | none => idle s
  | some r =>
    .next (s.modCur fun k => k.go (if g (r.reg ra) (r.reg rb) then target r.k.pc off else r.k.pc + 4))

def execBeq (ra rb : BitVec 5) (off : BitVec 15) (s : State) : Res := s.branch ra rb off fun a b => a == b
def execBne (ra rb : BitVec 5) (off : BitVec 15) (s : State) : Res := s.branch ra rb off fun a b => a != b
def execBlt (ra rb : BitVec 5) (off : BitVec 15) (s : State) : Res :=
  s.branch ra rb off fun a b => decide (sext 32 a < sext 32 b)
def execBge (ra rb : BitVec 5) (off : BitVec 15) (s : State) : Res :=
  s.branch ra rb off fun a b => decide (sext 32 b ≤ sext 32 a)
def execBltu (ra rb : BitVec 5) (off : BitVec 15) (s : State) : Res := s.branch ra rb off fun a b => decide (a < b)
def execBgeu (ra rb : BitVec 5) (off : BitVec 15) (s : State) : Res := s.branch ra rb off fun a b => decide (b ≤ a)

/-- `jal` (R289). -/
def execJal (rd : BitVec 5) (off : BitVec 20) (s : State) : Res :=
  match s.running with
  | none => idle s
  | some r => .next (s.modCur fun k => (k.setX rd (r.k.pc + 4)).go (target r.k.pc off))

/-- `jalr` (R289): a target that is not a multiple of 4 traps with ALIGN. -/
def execJalr (rd ra : BitVec 5) (imm : BitVec 15) (s : State) : Res :=
  match s.running with
  | none => idle s
  | some r =>
    let t := add32 (r.reg ra) (imm32 imm)
    if t % 4 ≠ 0 then s.trapHere r 0x11 t
    else .next (s.modCur fun k => (k.setX rd (r.k.pc + 4)).go t)

end Sys2Proof.Machine
end

