-- ==== Sys2Proof/Machine/QccMem.lean ====
section
/-! DEFINITION. Loads, stores and atomics of the control core (R286 to R288). -/

namespace Sys2Proof.Machine

/-- The address of a load or store (R286). -/
def TaskRun.ea (r : TaskRun) (ra : BitVec 5) (imm : BitVec 15) : Nat := add32 (r.reg ra) (imm32 imm)

/-- The checks of a control-memory access of `n` bytes (R286): inside control memory, then aligned. -/
def eaCheck (a n : Nat) : Option Nat :=
  if a ≥ 65536 then some 0x82 else if a % n ≠ 0 then some 0x11 else none

/-- A control-memory load of `n` bytes; `g` extends the value (R286). -/
def State.qccLoad (s : State) (rd ra : BitVec 5) (imm : BitVec 15) (n : Nat) (g : Nat → Nat) : Res :=
  match s.running with
  | none => idle s
  | some r =>
    let a := r.ea ra imm
    match eaCheck a n with
    | some c => s.trapHere r c a
    | none => State.onSync r a (s.ctlLoad r a n) fun v s => s.retire rd (g v)

/-- Sign extension of `w` bits to 32. -/
def sx32 (w v : Nat) : Nat := wrapTo 32 (sext w v)

def execLb (rd ra : BitVec 5) (imm : BitVec 15) (s : State) : Res := s.qccLoad rd ra imm 1 (sx32 8)
def execLbu (rd ra : BitVec 5) (imm : BitVec 15) (s : State) : Res := s.qccLoad rd ra imm 1 id
def execLh (rd ra : BitVec 5) (imm : BitVec 15) (s : State) : Res := s.qccLoad rd ra imm 2 (sx32 16)
def execLhu (rd ra : BitVec 5) (imm : BitVec 15) (s : State) : Res := s.qccLoad rd ra imm 2 id
def execLw (rd ra : BitVec 5) (imm : BitVec 15) (s : State) : Res := s.qccLoad rd ra imm 4 id

/-- A control-memory store of the low `n` bytes of x[rb] (R286). -/
def State.qccStore (s : State) (ra rb : BitVec 5) (off : BitVec 15) (n : Nat) : Res :=
  match s.running with
  | none => idle s
  | some r =>
    let a := r.ea ra off
    match eaCheck a n with
    | some c => s.trapHere r c a
    | none => State.onSync r a (s.ctlStore r a n (r.reg rb)) fun _ s => s.retire0

def execSb (ra rb : BitVec 5) (off : BitVec 15) (s : State) : Res := s.qccStore ra rb off 1
def execSh (ra rb : BitVec 5) (off : BitVec 15) (s : State) : Res := s.qccStore ra rb off 2
def execSw (ra rb : BitVec 5) (off : BitVec 15) (s : State) : Res := s.qccStore ra rb off 4

/-- A global address: GVAHI above a 32-bit address (R286). -/
def TaskRun.gva (r : TaskRun) (a : Nat) : Nat := r.k.gvahi.toNat * 2 ^ 32 + a

/-- What a loaded value does to the task set before rd is written (R86). While the set's union is at the Spine nothing is
done: the access is made again when it is known. -/
def State.loadedGrow (s0 s1 : State) (r : TaskRun) (a : Nat) (h : Handle) (k : State → Res) : Res :=
  match s1.taskGrow r h with
  | .ok _ s2 => k s2
  | .fail c s2 => s2.trapHere r c a
  | .wait _ =>
    match s1.union s1.taskSet h with
    | .wait x y => .next (s0.askUnion x y r.ctx r.part)
    | _ => .next s0

/-- `lwg` (R286). -/
def execLwg (rd ra : BitVec 5) (imm : BitVec 15) (s : State) : Res :=
  match s.running with
  | none => idle s
  | some r =>
    let a := r.ea ra imm
    State.onSync r a (s.unitRead r.who false (r.gva a) 4 s.taskSet) fun p s1 =>
      s.loadedGrow s1 r a p.2 fun s2 => s2.retire rd p.1

/-- `swg` (R286). -/
def execSwg (ra rb : BitVec 5) (off : BitVec 15) (s : State) : Res :=
  match s.running with
  | none => idle s
  | some r =>
    let a := r.ea ra off
    State.onSync r a (s.unitWrite r.who false (r.gva a) 4 (r.reg rb) s.taskSet) fun _ s => s.retire0

/-- The atomic operation on a word of control memory (R287). -/
def State.amoCtl (s : State) (r : TaskRun) (rd ra rb : BitVec 5) (aop : Nat) : Res :=
  let a := r.reg ra
  let v := if aop = 10 then r.reg rd else r.reg rb
  match eaCheck a 4 with
  | some c => s.trapHere r c a
  | none => State.onSync r a (s.ctlLoad r a 4) fun old s1 =>
      State.onSync r a (s1.ctlStore r a 4 (atomNew aop old v (r.reg rb))) fun _ s2 => s2.retire rd old

/-- The atomic operation on a global word (R287). -/
def State.amoGlobal (s : State) (r : TaskRun) (rd ra rb : BitVec 5) (aop : Nat) : Res :=
  let a := r.reg ra
  let v := if aop = 10 then r.reg rd else r.reg rb
  State.onSync r a (s.unitAtom r.who false (r.gva a) aop v (r.reg rb) s.taskSet) fun p s1 =>
    match s.unitOut r.who.key, s1.taskGrow r p.2 with
    | none, .fail c s2 => { s with plateOut := s2.plateOut }.trapHere r c a
    | _, _ => s.loadedGrow s1 r a p.2 fun s2 => s2.retire rd p.1

/-- `amo` (R287): AOP 11 to 15 is an illegal instruction. -/
def execAmo (rd ra rb : BitVec 5) (glob : BitVec 1) (aop : BitVec 4) (s : State) : Res :=
  match s.running with
  | none => idle s
  | some r =>
    if aop.toNat > 10 then s.trapHere r 0x81 0
    else if glob = 1 then s.amoGlobal r rd ra rb aop.toNat
    else s.amoCtl r rd ra rb aop.toNat

end Sys2Proof.Machine
end

