-- ==== Sys2Proof/Machine/Refs.lean ====
section
/-! DEFINITION. Holders of plate-set handles: reference counts, what the mark pass of a sweep finds, and the handle table as a
task reads it (R76, R92, R93). -/

namespace Sys2Proof.Machine

/-! ### Holders (R85, R92) -/

/-- Handles of the keep registers of a slot. -/
def Slot.keepHandles (sl : Slot) : List Handle := (sl.keeps.filter (·.valid)).map (·.plate)

/-- Handles of the keep registers of an element, in resident, shadow and backed slots. -/
def Elem.keepHandles (e : Elem) : List Handle := (e.slots ++ e.shadow ++ e.backing).flatMap fun q => q.2.keepHandles

/-- Handles of the state registers of a Press (R85). -/
def Press.regHandles (p : Press) : List Handle :=
  p.tiles.map (·.handle) ++ p.tc.map (·.handle) ++ p.scales.map (·.plate)

/-- Handles of the state registers of a Graft (R85). -/
def Graft.regHandles (g : Graft) : List Handle := g.wh.map (·.2) ++ g.vecs.map fun q => q.2.handle

/-- Handles of the stream cursors of a Riddle (R85). -/
def Riddle.regHandles (r : Riddle) : List Handle := r.runs.map fun q => q.2.handle

/-- Handles of the sorted lists of a Pruner (R85). -/
def Pruner.regHandles (p : Pruner) : List Handle :=
  p.steps.map (·.handle) ++ p.groups.flatMap (fun q => q.2.winners.map (·.handle)) ++ p.merges.map (·.handle)
    ++ p.commits.map fun q => q.2.handle

/-- Handles that a pair carries. -/
def Pair.handles (p : Pair) : List Handle := (p.opL.toList ++ p.opR.toList ++ p.ordL.toList).map (·.plate)

/-- Handles of the tokens of an element. -/
def Elem.tokHandles (e : Elem) : List Handle :=
  e.mstore.map (fun h => h.tok.plate) ++ e.aside.map (fun a => a.tok.plate) ++ e.fifo.flatMap (fun q => q.2.handles)
    ++ e.out.map (fun o => o.tok.plate) ++ e.backingOps.flatMap (fun q => q.2.map fun h => h.tok.plate)
    ++ e.exh.flatMap (fun q => q.2.1.handles)
    ++ e.rob.flatMap fun r => match r.done with | some l => l.map fun t => t.2.plate | none => []

/-- Handles of the tokens of an overflow store. -/
def Overflow.tokHandles (o : Overflow) : List Handle :=
  (o.entries ++ o.spilling).flatMap fun e =>
    e.tok.plate :: (match e.what with | .alloc p _ _ => p.handles | _ => [])

/-- Handles of the messages, task set and commands of a control core. -/
def Qcc.tokHandles (k : Qcc) : List Handle :=
  k.chans.flatMap (fun q => q.2.map (·.plate)) ++ k.outq.map (fun q => q.2.2.plate) ++ k.cmds.map (·.set)
    ++ k.graph.map (fun q => q.2.set) ++ (match k.task with | some t => [t.set] | none => [])

/-- Handles of the tokens and commands of the engines. -/
def Press.tokHandles (p : Press) : List Handle :=
  p.tiles.flatMap (fun t => (t.fills ++ t.shifts).map (·.plate)) ++ p.go.map (·.plate) ++ p.port18.map (·.plate)
    ++ p.drains.flatMap fun d => d.toks.map (·.plate)
def Graft.tokHandles (g : Graft) : List Handle :=
  g.steps.map (fun q => q.2.plate) ++ g.shared.map (fun q => q.2.2.plate) ++ g.yout.map (fun q => q.2.2.plate)
    ++ g.scans.map (fun q => q.2.set) ++ (match g.wload with | some w => [w.set] | none => [])
def Riddle.tokHandles (r : Riddle) : List Handle :=
  r.go.map (·.set) ++ r.go.flatMap (fun g => g.tok.toList.map (·.plate))
    ++ r.runs.flatMap fun q => q.2.tok.toList.map (·.plate)
def Pruner.tokHandles (p : Pruner) : List Handle :=
  p.steps.map (·.set) ++ p.inbox.map fun m => match m with
    | .list _ _ _ _ _ _ h => h
    | .winner _ w => w.handle
    | .withdraw _ _ _ => 0

/-- Every handle that a saved context holds (R92). -/
def Saved.handles (v : Saved) : List Handle :=
  v.elems.flatMap (fun q => q.2.tokHandles ++ q.2.keepHandles) ++ v.overflow.flatMap (fun q => q.2.tokHandles)
    ++ v.qccs.flatMap (fun q => q.2.tokHandles) ++ v.press.flatMap (fun q => q.2.regHandles ++ q.2.tokHandles)
    ++ v.graft.flatMap (fun q => q.2.regHandles ++ q.2.tokHandles)
    ++ v.riddle.flatMap (fun q => q.2.regHandles ++ q.2.tokHandles) ++ v.steps.map (·.handle) ++ v.commits.map (·.handle)
    ++ v.accs.flatMap (fun q => [q.2.handle, q.2.readHandle]) ++ v.plots.map (fun q => q.2.1.handle)
    ++ v.restarts.map (fun q => q.2.plate) ++ v.links.map (fun q => q.2.2.plate)
    ++ v.msgs.flatMap (fun m => [m.tok.plate, m.outTok.plate]) ++ v.deliveries.map (fun d => d.tok.plate)
    ++ v.outs.map (·.handle) ++ v.ctl.flatMap fun q => q.2.2.map (·.2)

/-- The reference count of a handle (R92). -/
def State.refCount (s : State) (h : Handle) : Nat :=
  let n (l : List Handle) : Nat := (l.filter (· == h)).length
  n (s.plots.map fun q => q.2.handle) + n (s.pageMap.map (·.2)) + n (s.elems.flatMap fun q => q.2.keepHandles)
    + n (s.press.flatMap fun q => q.2.regHandles) + n (s.graft.flatMap fun q => q.2.regHandles)
    + n (s.riddle.flatMap fun q => q.2.regHandles) + n (s.pruner.flatMap fun q => q.2.regHandles)
    + n (s.ctlRegion.map (·.2)) + n (s.dests.map fun q => q.2.ingress) + n (s.policies.map fun q => q.2.handle)
    + (s.saves.filter fun v => v.handles.contains h).length

/-! ### The mark pass (R93) -/

def Flit.handles : Flit → List Handle
  | .tok _ t => [t.plate]
  | _ => []

def Access.handles (a : Access) : List Handle := [a.handle, a.readHandle]

def MsgIn.handles (m : MsgIn) : List Handle := [m.tok.plate, m.outTok.plate]

/-- Every handle that a token, message, request, task set or save area holds (R93). -/
def State.heldHandles (s : State) : List Handle :=
  s.elems.flatMap (fun q => q.2.tokHandles) ++ s.bufs.flatMap (fun q => q.2.flatMap Flit.handles)
    ++ s.overflow.flatMap (fun q => q.2.tokHandles) ++ s.accs.flatMap (fun q => q.2.handles)
    ++ s.qccs.flatMap (fun q => q.2.tokHandles) ++ s.press.flatMap (fun q => q.2.tokHandles)
    ++ s.graft.flatMap (fun q => q.2.tokHandles) ++ s.riddle.flatMap (fun q => q.2.tokHandles)
    ++ s.pruner.flatMap (fun q => q.2.tokHandles) ++ s.msgs.flatMap MsgIn.handles ++ s.trapOut.map (·.plate)
    ++ s.marks.flatMap (fun m => m.out.map fun t => t.2.plate) ++ s.deliveries.map (fun d => d.tok.plate)
    ++ s.toSpine.map (·.plate) ++ s.batches.map (fun q => q.2.plate) ++ s.dies.flatMap (fun q => q.2.queue.map (·.plate))
    ++ s.parts.flatMap (fun q => q.2.launches.map (·.plate) ++ q.2.faults.map (·.plate))
    ++ s.ctxs.map (fun q => q.2.ending.plate) ++ s.misses.map (fun m => m.who.plate) ++ s.outside.map (·.handle)
    ++ s.saves.flatMap Saved.handles

/-! ### The handle table (R76) -/

/-- Plate numbers at their places in an entry. -/
def platesField : List Nat → Nat → Nat
  | [], _ => 0
  | p :: r, i => p % 512 * 2 ^ (50 + 9 * i) + platesField r (i + 1)

/-- The 128-bit entry of a handle. -/
def State.handleEntry (s : State) (h : Nat) : Nat :=
  if h < 0x200 then 2 ^ 126 + 2 ^ 122 + h * 2 ^ 50
  else match tabGet s.sets h with
    | some e =>
      2 * 2 ^ 126 + e.plates.length % 16 * 2 ^ 122 + platesField e.plates 0
        + s.refCount (BitVec.ofNat 12 h) % 2 ^ 32 * 2 ^ 18 + (if e.mark then 2 ^ 17 else 0)
    | none => 0

end Sys2Proof.Machine
end

