-- ==== Sys2Proof/Machine/QccTask.lean ====
section
/-! DEFINITION. Tasks, messages and system words of the control core (R168, R169, R276 to R282, R290 to R292, R208). -/

namespace Sys2Proof.Machine

/-! ### Start and end of tasks (R277 to R279) -/

/-- `tend` (R279). -/
def execTend (s : State) : Res :=
  match s.running with
  | none => idle s
  | some _ => .next (s.modCur (·.endTask true))

/-- `tret` (R279): the message stays at the head. -/
def execTret (s : State) : Res :=
  match s.running with
  | none => idle s
  | some _ => .next (s.modCur (·.endTask false))

/-- Whether a channel is ready (R277). -/
def Qcc.ready (k : Qcc) (n : Nat) : Bool := k.armed.contains n && !(k.chan n).isEmpty && (tabGet k.entry n).isSome

/-- The channel that a pick takes (R277): the highest priority, then the first above the last picked at it. -/
def Qcc.pick (k : Qcc) : Option (Nat × Nat) :=
  [7, 6, 5, 4, 3, 2, 1, 0].findSome? fun p =>
    let last := (tabGet k.lastPick p).getD 15
    ((List.range 16).map fun i => (last + 1 + i) % 16).findSome? fun n =>
      if k.ready n && tabNum k.prio n == p then some (p, n) else none

/-- A task starts with the head message of channel `n` (R278). -/
def Qcc.start (k : Qcc) (p n part : Nat) (m : Token) : Qcc :=
  { k with
    x := [0, BitVec.ofNat 32 n, BitVec.ofNat 32 m.bytes] ++ List.replicate 29 0
    pc := (tabGet k.entry n).getD 0
    gvahi := 0
    cmdst := 0
    xinvpid := part
    lastPick := tabPut k.lastPick p n
    task := some { chan := n, msg := m, set := m.plate, count := 0 } }

/-- `TASK_PICK` (R277, R278, R280): an idle core picks a ready channel, unless its context is gated. -/
def execTaskPick (quire : Nat) (s : State) : Res :=
  let k := s.qcc quire
  match k.ctx, k.task, k.pick with
  | some c, none, some (p, n) =>
    match k.chan n with
    | m :: _ => if s.mayIssue c ∧ s.awake (quire / 4) then .next (s.setQcc quire (k.start p n (s.partOf c) m)) else idle s
    | [] => idle s
  | _, _, _ => idle s

/-- `TASKLONG` (R279): the 65,537th instruction does not issue. -/
def execTasklong (quire : Nat) (s : State) : Res :=
  let s := { s with cur := quire }
  match s.running with
  | none => idle s
  | some r => if r.t.count ≥ 65536 then s.trapHere r 0x84 0 else idle s

/-- `ILLEGAL_INSTRUCTION` (R208): the word at PC has no meaning for the task. -/
def execIllegalInstruction (word : Word) (s : State) : Res :=
  match s.running with
  | none => idle s
  | some r => .next (s.qccTrap r 0x81 word.toNat 0)

/-- `FETCH_FAULT` (R275, R282): a fetch outside control memory, or of an uncorrectable word. -/
def execFetchFault (quire : Nat) (s : State) : Res :=
  let s := { s with cur := quire }
  match s.running with
  | none => idle s
  | some r =>
    let a := quire * 65536 + r.k.pc
    if r.k.pc + 4 > 65536 then .next (s.qccTrap r 0x82 0 r.k.pc)
    else if s.uncIn .control a 4 then (s.readErrs .control a 4 r.ctx).trapHere r 0x20 r.k.pc
    else idle s

/-! ### Task instructions (R290) -/

/-- `tarm`. -/
def execTarm (en : BitVec 1) (chan : BitVec 4) (s : State) : Res :=
  match s.running with
  | none => idle s
  | some _ =>
    let n := chan.toNat
    (s.modCur fun k =>
      { k with armed := if en = 1 then (if k.armed.contains n then k.armed else k.armed ++ [n])
                        else k.armed.filter (· != n) }).retire0

/-- `tprio`. -/
def execTprio (prio : BitVec 3) (chan : BitVec 4) (s : State) : Res :=
  match s.running with
  | none => idle s
  | some _ => (s.modCur fun k => { k with prio := tabPut k.prio chan.toNat prio.toNat }).retire0

/-- `trap`: the TRAPU record goes out and the task continues. -/
def execQccTrap (code : BitVec 8) (s : State) : Res :=
  match s.running with
  | none => idle s
  | some r => (s.sendQccTrap r.ctx (s.trapRec r 0x90 (s.ctlWord r.q r.k.pc) code.toNat) r.t.set).retire0

/-- The checks of a range of words in control memory (R290). -/
def rangeCheck (a n : Nat) : Option Nat :=
  if a % 4 ≠ 0 then some 0x11 else if a + n > 65536 then some 0x82 else none

/-- The quire that a destination word of `tsend` names, if its core holds the task's context; none when it is bad. A moving
folio gives `some none`: the instruction waits (R16). -/
def State.tsendTo (s : State) (r : TaskRun) (w : Nat) : Option (Option Nat) :=
  if w % 2 ^ 18 ≠ 0 ∨ bitF w 21 18 ≥ 14 then none
  else match s.mapEntry r.part (bitF w 31 24) with
    | none => none
    | some e =>
      if e.st = .moving then some none
      else
        let q := e.gfolio * 4 + bitF w 23 22
        if (s.qcc q).ctx = some r.ctx then some (some q) else none

/-- `tsend` (R290). -/
def execTsend (rd ra rb len : BitVec 5) (s : State) : Res :=
  match s.running with
  | none => idle s
  | some r =>
    let n := len.toNat + 1
    let a := r.reg rb
    let w := r.reg ra
    match rangeCheck a (4 * n) with
    | some c => s.trapHere r c a
    | none =>
      match s.tsendTo r w with
      | none => s.retire rd 2
      | some none => idle s
      | some (some q) =>
        if r.k.outq.length ≥ 8 then s.retire rd 1
        else State.onSync r a (s.ctlLoad r a (4 * n)) fun v s1 =>
          let t : Token := { Token.blank r.ctx with
            kind := 2, wid := len, plate := s1.taskSet, pay := BitVec.ofNat 1024 v }
          (s1.modCur fun k => { k with outq := k.outq ++ [(q, bitF w 21 18, t)] }).retire rd 0

/-- `tpoll` (R290): the oldest message of a channel other than the current one. -/
def execTpoll (rd ra rb : BitVec 5) (s : State) : Res :=
  match s.running with
  | none => idle s
  | some r =>
    let c := r.reg ra % 16
    let i := if c = r.t.chan then 1 else 0
    if r.reg ra ≥ 16 then s.retire rd 0
    else match (r.k.chan c)[i]? with
      | none => s.retire rd 0
      | some m =>
        let a := r.reg rb
        match rangeCheck a m.bytes with
        | some code => s.trapHere r code a
        | none => State.onSync r a (s.taskGrow r m.plate) fun _ s1 =>
            State.onSync r a (if m.bytes = 0 then .ok () s1 else s1.ctlStore r a m.bytes m.pay.toNat) fun _ s2 =>
              (s2.modCur fun k => { k.setChan c (listDrop (k.chan c) i) with pmh := m.header }).retire rd (m.bytes / 4)

/-- `TSEND_DELIVERY` (R290): the oldest outbound message enters its channel; it waits while that is full. -/
def execTsendDelivery (quire : Nat) (s : State) : Res :=
  let k := s.qcc quire
  match k.outq with
  | [] => idle s
  | (q, c, t) :: rest =>
    let s1 := s.setQcc quire { k with outq := rest }
    if !s.alive t.ctx.toNat then .next (s1.discardN t.ctx.toNat 1)
    else if !s.awake (q / 4) then idle s
    else match s1.pushChan q c t with
      | some s2 => .next s2
      | none => idle s

/-- A message of the plate channel (R90); to the trap channel when the partition has none. -/
def plateToken (m : PlateMsg) : Token :=
  Token.words m.ctx 0 [m.code + m.part % 32 * 2 ^ 8, min m.ha.toNat m.hb.toNat, max m.ha.toNat m.hb.toNat, m.used, m.ctx, 0, 0, 0]

/-- `CHANNEL_MESSAGE_ENTRY` (R271, R276): a message enters its channel, behind those of its sender that are older. A poison
message ends at the channel, which is a sink (R376). Numbers past the messages stand for the plate-channel messages (R90). -/
def execChannelMessageEntry (idx : Nat) (s : State) : Res :=
  match s.msgs[idx]? with
  | some m =>
    let older := (s.msgs.take idx).any fun o =>
      !o.accepted && o.quire == m.quire && o.chan == m.chan && o.sender == m.sender && o.tok.edge == m.tok.edge
    let rest := { s with msgs := listDrop s.msgs idx }
    let acc := match m.sender with
      | some _ => { s with msgs := listMod s.msgs idx fun m => { m with accepted := true } }
      | none => rest
    if m.accepted ∨ older ∨ !s.awake (m.quire / 4) then idle s
    else if !s.alive m.tok.ctx.toNat then .next (rest.discardN m.tok.ctx.toNat 1)
    else if m.tok.poison then .next (acc.sinkChan m.tok)
    else match acc.pushChan m.quire m.chan m.tok with
      | some s1 => .next s1
      | none => idle s
  | none =>
    let i := idx - s.msgs.length
    match s.plateOut[i]? with
    | none => idle s
    | some m =>
      let s1 := { s with plateOut := listDrop s.plateOut i }
      match s.part? m.part with
      | none => .next s1
      | some p =>
        match p.plateChan with
        | some (lf, q, c) =>
          match s.quireOfRef m.part lf q with
          | some k => (match s1.pushChan k c (plateToken m) with | some s2 => .next s2 | none => idle s)
          | none => idle s
        | none => .next (s1.sendTrap m.ctx 8 (BitVec.ofNat 128 (plateToken m).pay.toNat) 0 0xFF 0)

/-! ### Deep overflow (R168, R169, R292) -/

/-- The tag bits that an activation counts for in a chain (R168). -/
def Act.tagBits (a : Act) : Nat := if a.recursive then a.live * a.width else a.width

/-- Tag bits of the chain from an activation up to the root (R168). -/
def chainBits (acts : List Act) : Nat → Nat → Nat
  | 0, _ => 0
  | n + 1, i =>
    match acts[i]? with
    | none => 0
    | some a => a.tagBits + (if a.parent = 63 ∨ a.recursive then 0 else chainBits acts n a.parent)

/-- The tag-width check of R168. -/
def tagWidthOk (acts : List Act) : Bool := (List.range acts.length).all fun i => decide (chainBits acts 64 i ≤ 48)

/-- The activation that an `alloc` node of a context opens. -/
def State.allocAct (s : State) (pos ctx node : Nat) : Nat :=
  match (s.elem pos).slotFor ctx with
  | some sl => bitF (sl.lit (wLx (sl.word node))) 31 26
  | none => 64

/-- Whether an overflow entry is a parked `alloc` of an activation. -/
def State.isParkedAlloc (s : State) (ctx act : Nat) (e : OvfEntry) : Bool :=
  match e.what with
  | .alloc p _ _ => e.ctx == ctx && s.allocAct e.pos ctx p.node == act
  | _ => false

/-- Whether a held pair of an element is an `alloc` of an activation. -/
def State.isHeldAlloc (s : State) (pos ctx act : Nat) (x : Nat × Pair × Bool) : Bool :=
  match tabGet (s.elem pos).slots x.1 with
  | some sl => sl.ctx == ctx && s.allocAct pos ctx x.2.1.node == act
  | none => false

/-- Whether a TAGEXH record of a context and activation stands. -/
def State.hasExhausted (s : State) (ctx act : Nat) : Bool :=
  s.overflow.any (fun q => q.2.entries.any (s.isParkedAlloc ctx act))
    || s.elems.any fun q => q.2.exh.any (s.isHeldAlloc q.1 ctx act)

/-- FAIL of a record: every `alloc` of the activation that waits is to emit poison TAGEXH (R169). -/
def State.failExhausted (s : State) (ctx act : Nat) : State :=
  let fe (e : OvfEntry) : OvfEntry :=
    if s.isParkedAlloc ctx act e then
      { e with what := match e.what with | .alloc p t _ => .alloc p t true | w => w }
    else e
  { s with
    overflow := s.overflow.map fun q => (q.1, { q.2 with entries := q.2.entries.map fe })
    elems := s.elems.map fun q =>
      (q.1, { q.2 with exh := q.2.exh.map fun x => if s.isHeldAlloc q.1 ctx act x then (x.1, x.2.1, true) else x }) }

/-- DOVGO (R169, R292): the new state and DOVST. -/
def State.dovGo (s : State) (r : TaskRun) (v : Nat) : Nat × State :=
  let c := r.k.dovctx
  let act := bitF v 5 0
  match s.ctx? c with
  | none => (2, s)
  | some x =>
    if (x.part ≠ r.part ∧ !r.k.hyp) ∨ !s.hasExhausted c act then (2, s)
    else if bitF v 8 8 = 1 then (0, s.failExhausted c act)
    else
      let acts := listMod x.acts act fun a => { a with live := bitF v 31 16 }
      if !tagWidthOk acts then (1, s)
      else
        let deep := match x.acts[act]? with | some a => a.deep | none => false
        (0, s.setCtx c { x with
          acts := acts
          deepVa := if deep then r.k.dovhi.toNat % 2 ^ 24 * 2 ^ 32 + r.k.dovlo.toNat else x.deepVa
          deepSize := if deep then r.k.dovsz.toNat else x.deepSize })

/-! ### System words (R291, R292) -/

/-- The word that the numbers of `sysr` and `sysw` name. -/
def TaskRun.sysNum (r : TaskRun) (ra : BitVec 5) (imm : BitVec 15) : Nat := add32 (r.reg ra) (imm32 imm)

/-- The partition on which XINV and FQ words act (R68, R73). -/
def TaskRun.pid (r : TaskRun) : Nat := if r.k.hyp then r.k.xinvpid else r.part

/-- Whether the task is bound to its partition's fault channel (R292). -/
def State.faultTask (s : State) (r : TaskRun) : Bool :=
  match s.part? r.part with
  | some { fqChan := some (lf, q, c), .. } => s.quireOfRef r.part lf q == some r.q && c == r.t.chan
  | _ => false

/-- The word of a plot descriptor (R20). -/
def Plot.word (p : Plot) : Nat :=
  (if p.res then 2 ^ 31 else 0) + (if p.pin then 2 ^ 30 else 0) + (if p.zero then 2 ^ 29 else 0) + p.handle.toNat * 2 ^ 16
    + p.gen.toNat

/-- PLOTRD (R292): none while the logical folio is moving. -/
def State.plotRead (s : State) (part p : Nat) : Option Nat :=
  match s.mapEntry part (p / 4096) with
  | none => some 0
  | some e =>
    if e.st = .moving then none
    else
      let n := e.gfolio * 4096 + p % 4096
      some (if s.retiredElem (n / 64) then 0 else (s.plot n).word)

/-- What a read of a system word comes to: a value, SYSNA, or a wait. -/
inductive SysRead where
  | val (v : Nat)
  | na
  | wait
  deriving DecidableEq, Repr

/-- A read of system word `n` (R292). -/
def State.sysRead (s : State) (r : TaskRun) (n : Nat) : SysRead :=
  let die := r.q / 64
  if n ≤ 0x1F then .val (if 4 * n < r.t.msg.bytes then laneAt 32 r.t.msg.pay n else 0)
  else if n ≤ 0x23 then .val (bitF r.t.msg.header.toNat (32 * (n - 0x20) + 31) (32 * (n - 0x20)))
  else if n ≤ 0x27 then .val (bitF r.k.pmh.toNat (32 * (n - 0x24) + 31) (32 * (n - 0x24)))
  else match n with
    | 0x30 => .val r.k.cmdst
    | 0x31 => .val r.k.gvahi.toNat
    | 0x32 => .val (s.counter die % 2 ^ 32)
    | 0x33 => .val (s.counter die / 2 ^ 32)
    | 0x34 => .val (r.ctx + s.lfOf r.part (r.q / 4) * 2 ^ 12 + r.q % 4 * 2 ^ 20)
    | 0x42 => .val ((if s.invals.any (fun v => v.part == r.pid) then 1 else 0) + (if r.k.xinverr then 2 else 0))
    | 0x55 => .val r.k.dovst
    | 0x61 => (match s.plotRead r.part r.k.plotsel with | some v => .val v | none => .wait)
    | 0x71 | 0x72 | 0x73 | 0x74 =>
      if r.k.hyp then .val (bitF (s.handleEntry r.k.hsel) (32 * (n - 0x71) + 31) (32 * (n - 0x71))) else .na
    | _ => .na

/-- `sysr` (R291). -/
def execSysr (rd ra : BitVec 5) (imm : BitVec 15) (s : State) : Res :=
  match s.running with
  | none => idle s
  | some r =>
    let n := r.sysNum ra imm
    match s.sysRead r n with
    | .val v => s.retire rd v
    | .na => s.trapHere r 0x83 n
    | .wait => idle s

/-- XINVHI (R68): an invalidation starts, or a reserved bit refuses it. -/
def State.xinvHi (s : State) (r : TaskRun) (v : Nat) : State :=
  if bitF v 31 26 ≠ 0 then s.modCur fun k => { k with xinverr := true }
  else
    let va := v % 2 ^ 24 * 2 ^ 32 + r.k.xinvlo.toNat
    let n := if bitF v 24 24 = 1 then 2 ^ 21 else 65536
    (s.modCur fun k => { k with xinverr := false }).invalidate r.q r.pid (bitF v 25 25 == 1) (va / n * n) n

/-- A write of system word `n`; none for SYSNA (R292). -/
def State.sysWrite (s : State) (r : TaskRun) (n v : Nat) : Option State :=
  let w := BitVec.ofNat 32 v
  let dov := r.k.hyp || s.faultTask r
  match n with
  | 0x31 => some (s.modCur fun k => { k with gvahi := w })
  | 0x40 => some (s.modCur fun k => { k with xinvlo := w })
  | 0x41 => some (s.xinvHi r v)
  | 0x43 => if r.k.hyp then some (s.modCur fun k => { k with xinvpid := v % 32 }) else none
  | 0x48 => if dov then some (s.fqResume r.pid v) else none
  | 0x49 => if dov then some (s.fqFail r.pid v) else none
  | 0x50 => some (s.modCur fun k => { k with dovlo := w })
  | 0x51 => some (s.modCur fun k => { k with dovhi := w })
  | 0x52 => some (s.modCur fun k => { k with dovsz := w })
  | 0x53 => some (s.modCur fun k => { k with dovctx := v % 4096 })
  | 0x54 =>
    if dov || r.k.dovctx == r.ctx then
      let x := s.dovGo r v
      some (x.2.modCur fun k => { k with dovst := x.1 })
    else none
  | 0x60 => some (s.modCur fun k => { k with plotsel := v % 2 ^ 20 })
  | 0x70 => if r.k.hyp then some (s.modCur fun k => { k with hsel := v % 4096 }) else none
  | _ => none

/-- `sysw` (R291). -/
def execSysw (rd ra : BitVec 5) (imm : BitVec 15) (s : State) : Res :=
  match s.running with
  | none => idle s
  | some r =>
    let n := r.sysNum ra imm
    match s.sysWrite r n (r.reg rd) with
    | some s => s.retire0
    | none => s.trapHere r 0x83 n

end Sys2Proof.Machine
end

