-- ==== Sys2Proof/Machine/Press.lean ====
section
/-! DEFINITION. The port events, operations, drains and switch of the Press (R303 to R320). -/

namespace Sys2Proof.Machine

/-- Formats that fill, shift, tensor-scale and go ports accept (R305). -/
def pressFmts (p : Nat) : List Fmt :=
  if p < 4 then [.bf16, .e4m3, .e5m2]
  else if p < 8 then [.bf16, .e4m3, .e5m2, .q4, .q3]
  else if p < 16 then [.bits]
  else if p = 16 then [.fp32]
  else [.i32, .bits]

/-- `PRESS_FILL_TOKEN` (R307). -/
def execPressFillToken (pos port : Nat) (s : State) : Res :=
  s.pressPort pos port 0 7 pressFmts fun q p t s => s.tileToken q p false t

/-- `PRESS_SHIFT_TOKEN` (R308). -/
def execPressShiftToken (pos port : Nat) (s : State) : Res :=
  s.pressPort pos port 8 15 pressFmts fun q p t s => s.tileToken q (p - 8) true t

/-- `TENSOR_SCALE_TOKEN` (R305, R309): a token that is not of colour 2 is poison WIDMIS. -/
def execTensorScaleToken (pos port : Nat) (s : State) : Res :=
  s.pressPort pos port 16 16 pressFmts fun q _ t s =>
    let k := s.pressOf q
    if k.scales.length ≥ 16 then none
    else
      let t := if t.poison ∨ t.colour = 2 then t else s.enginePoison q 1 t 0x66
      some (s.setPress q { k with scales := k.scales ++ [t] })

/-- Whether a go token becomes poison PRGO (R312). -/
def Press.badGo (k : Press) (t : Token) : Bool :=
  let v := if t.ord then 0 else laneAt 32 t.pay 0
  decide (v / 64 ≠ 0) || decide (v % 16 ≥ k.words.length) || (popOf (k.wordOf t) == 3 && decide (v / 16 % 4 ≠ 0))

/-- `PRESS_GO_TOKEN` (R312): poison and PRGO reach a sink and fire nothing. -/
def execPressGoToken (pos port : Nat) (s : State) : Res :=
  s.pressPort pos port 17 17 pressFmts fun q _ t s =>
    let k := s.pressOf q
    let ctx := t.ctx.toNat
    let spos := s.logOf (s.partOf ctx) pos
    if t.poison then some (s.sink ctx t.record spos 0xFF t.plate)
    else if k.badGo t then some (s.sink ctx (s.unitRec 0xA0 ctx q 1 0) spos 0xFF t.plate)
    else if k.go.length ≥ 32 then none
    else some (s.setPress q { k with go := k.go ++ [t] })

/-! ### Operations (R314, R315) -/

/-- The eight tokens of a drain (R315): `bad` the record when they are poison. -/
def drainTokens (g : Token) (w : PressWord) (c : Accum) (ts : Token) (h : Handle) (bad : Option (BitVec 128)) : List Token :=
  let f := fmtOf w.ofmt.toNat
  let p := decodeLane .fp32 (rne32 (vmul (decodeLane .fp32 (laneAt 32 ts.pay 0)) (decodeLane .fp32 (laneAt 32 ts.pay 1))))
  let out (i : Nat) : Nat := roundTo f (vmul (decodeLane .fp32 ((c.acc[i]?).getD 0)) p) .rne 0 (w.sat == 1)
  let sh : Shape := Shape.data f 32
  (List.range 8).map fun j =>
    let nest := g.nest + BitVec.ofNat 48 j
    match bad with
    | some r => poisonToken g.ctx.toNat nest sh h r
    | none => resultToken g.ctx.toNat nest sh h (packLanes (fmtWidth f) ((List.range 32).map fun i => out (32 * j + i)))

/-- The tile product of an operation goes into its accumulator; none while a union is at the Spine. -/
def State.pressProduct (s : State) (q : Nat) (g : Token) (pop : Nat) (w : PressWord) : State ⊕ State :=
  let p := s.pressOf q
  let c0 := (p.tc[w.tc.toNat]?).getD Accum.fresh
  let c := if pop = 0 then Accum.fresh else c0
  match p.tile w.ta.toNat g.nest, p.tile (4 + w.tb.toNat) g.nest with
  | some a, some b =>
    match s.engineUnion g.ctx.toNat c.handle (g.plate :: ((a.fills ++ a.shifts ++ b.fills ++ b.shifts).map (·.plate))) with
    | .wait s1 => .inr s1
    | .ok h bad s1 =>
      let fault : Option (BitVec 128) :=
        match c.poison, s.tileFault q w false a, s.tileFault q w true b, bad with
        | some r, _, _, _ => some r
        | none, some r, _, _ => some r
        | none, none, some r, _ => some r
        | none, none, none, some code => some (s.unitRec code g.ctx.toNat q 1 0)
        | none, none, none, none => none
      let acc := if fault.isSome then c.acc else w.product a b c.acc
      let keepA := laneAt 32 g.pay 0 / 16 % 2 == 1
      let keepB := laneAt 32 g.pay 0 / 32 % 2 == 1
      let used (t : Tile) : Bool := t.nest == g.nest &&
        ((t.reg == w.ta.toNat && !keepA) || (t.reg == 4 + w.tb.toNat && !keepB))
      let mark (t : Tile) : Tile :=
        if t.nest == g.nest && (t.reg == w.ta.toNat || t.reg == 4 + w.tb.toNat) then { t with kept := true } else t
      let s2 := s1.setPress q { p with
        tiles := (p.tiles.filter fun t => !used t).map mark
        tc := listMod p.tc w.tc.toNat fun _ => { acc := acc, handle := h, poison := fault } }
      .inl (s2.charge (q / 64) (s.partOf g.ctx.toNat) 0 (48 * w.slices))
  | _, _ => .inr s

/-- The drain of an operation is formed (R315); none while a union is at the Spine. -/
def State.pressDrainForm (s : State) (q : Nat) (g : Token) (w : PressWord) : State ⊕ State :=
  let p := s.pressOf q
  let c := (p.tc[w.tc.toNat]?).getD Accum.fresh
  match listFind (fun t => t.nest == g.nest) p.scales 0 with
  | none => .inr s
  | some (i, ts) =>
    match s.engineUnion g.ctx.toNat c.handle [ts.plate] with
    | .wait s1 => .inr s1
    | .ok h bad s1 =>
      let c1 : Accum :=
        if ts.poison then c
        else { c with handle := h, poison := match c.poison, bad with
                                   | some r, _ => some r
                                   | none, some code => some (s.unitRec code g.ctx.toNat q 1 0)
                                   | none, none => none }
      let fault : Option (BitVec 128) :=
        match c1.poison, ts.poison with
        | some r, _ => some r
        | none, true => some ts.record
        | none, false => if g.nest.toNat % 8 ≠ 0 then some (s.unitRec 0x62 g.ctx.toNat q 1 0) else none
      .inl (s1.setPress q { p with
        scales := listDrop p.scales i
        tc := listMod p.tc w.tc.toNat fun _ => c1
        drains := p.drains ++ [{ del := w.del.toNat, didx := w.didx.toNat, toks := drainTokens g w c ts h fault }] })

/-- One Press operation (R313, R314): the oldest ready one of the current Press, when it is this word. -/
def State.pressOperation (s : State) (pop : Nat) (w : PressWord) : Res :=
  let q := s.cur
  let p := s.pressOf q
  match p.pick with
  | none => idle s
  | some (i, g) =>
    if (p.wordOf g).toNat ≠ pressNum pop w ∨ !s.pressReady q ∨ ((s.graftOf q).pressLast ∧ s.graftReady q) then idle s
    else
      let s0 := s.setPress q { p with go := listDrop p.go i }
      let mult := if pop = 3 then .inl s0 else s0.pressProduct q g pop w
      match mult with
      | .inr s1 => .next { s with unions := s1.unions }
      | .inl s1 =>
        match (if pop ≥ 2 then s1.pressDrainForm q g w else .inl s1) with
        | .inr s2 => .next { s with unions := s2.unions }
        | .inl s2 => .next (if (s.graftOf q).pressLast then s2 else s2.setGraft q { s2.graftOf q with pressLast := true })

/-- `pmma`: the accumulator is cleared, then accumulates the tile product. -/
def execPmma (w : PressWord) (s : State) : Res := s.pressOperation 0 w
/-- `pmmac`: the accumulator accumulates the tile product. -/
def execPmmac (w : PressWord) (s : State) : Res := s.pressOperation 1 w
/-- `pmmad`: the accumulator accumulates the tile product and drains. -/
def execPmmad (w : PressWord) (s : State) : Res := s.pressOperation 2 w
/-- `pdrain`: the accumulator drains and stays as it is. -/
def execPdrain (w : PressWord) (s : State) : Res := s.pressOperation 3 w

/-! ### Drains and the switch (R315, R318) -/

/-- Whether an output stream is bound to a port of an engine (R296): the engine's number, its first quire and how many
quires share it. -/
def State.outBound (s : State) (engine port quire n : Nat) : Bool :=
  (List.range n).any fun i => (s.qcc (quire + i)).g.any fun q =>
    match q.2.stream with
    | some st => st.out && st.engine == engine && st.port == port
    | none => false

/-- One drain token leaves: by its destination entry, or on port `o` to the stream bound there (R315). -/
def State.drainSend (s : State) (q : Nat) (d : Drain) (t : Token) : Option State :=
  let pos := q * 16 + d.del
  let ctx := t.ctx.toNat
  match (s.elem pos).slotFor ctx with
  | none => some (s.discardN ctx 1)
  | some sl =>
    let w := (sl.dest d.didx).1
    if entryKind w = 1 ∧ entryNode w = 18 then
      if s.outBound 0 18 q 1 ∧ (s.pressOf q).port18.length < 2 then
        some (s.modPress q fun p => { p with port18 := p.port18 ++ [t] })
      else none
    else s.engineSend pos ctx d.didx t

/-- `PRESS_DRAIN` (R315): the drain path sends its next token. -/
def execPressDrain (quire : Nat) (s : State) : Res :=
  let p := s.pressOf quire
  match p.drains with
  | [] => idle s
  | d :: rest =>
    match d.toks with
    | [] => .next (s.setPress quire { p with drains := rest })
    | t :: ts =>
      let k := 32 * d.del + d.didx
      let p1 := { p with
        drains := if ts.isEmpty then rest else { d with toks := ts } :: rest
        sent := if t.isSwitch then p.sent else tabAdd p.sent k 1 }
      match (s.setPress quire p1).drainSend quire d t with
      | some s1 => .next s1
      | none => idle s

/-- Destinations of the draining words, each once (R318). -/
def Press.drainDests (p : Press) : List (Nat × Nat) :=
  (p.words.filter fun w => popOf w == 2 || popOf w == 3).foldl (fun l w =>
    let f := pressFieldsOf w.toNat
    if l.contains (f.del.toNat, f.didx.toNat) then l else l ++ [(f.del.toNat, f.didx.toNat)]) []

/-- The edge counts of a Press's ports in an image (R236, R305). -/
def State.pressNin (s : State) (im : Image) (part q : Nat) : Tab Nat := im.portNin 0 (s.logOf part (q * 16) / 16) 16

/-- `PRESS_SWITCH` (R318): once every port has switched and every drain token is sent. -/
def execPressSwitch (quire : Nat) (s : State) : Res :=
  let p := s.pressOf quire
  match p.ctx with
  | none => idle s
  | some ctx =>
    if !allSwitched p.swIn p.nin ∨ !p.drains.isEmpty then idle s
    else
      let s1 := s.strandToks ctx quire 1 p.go
      let s2 := p.tiles.foldl (fun s t => s.strandItem ctx quire 1 t.nest.toNat t.handle) s1
      let s3 := s2.strandToks ctx quire 1 p.scales
      let kind (d : Nat × Nat) : Nat :=
        match (s.elem (quire * 16 + d.1)).slotFor ctx with | some sl => entryKind (sl.dest d.2).1 | none => 3
      let out := (p.drainDests.filter fun d => kind d != 3).map fun d =>
        ({ del := d.1, didx := d.2, toks := [switchToken ctx (tabNum p.sent (32 * d.1 + d.2))] } : Drain)
      let nin := match s.ctx? ctx with
        | some c => (match c.shadow with
          | some h => (match tabGet s.images h with | some im => s.pressNin im c.part quire | none => [])
          | none => [])
        | none => []
      .next (s3.setPress quire { p with
        words := p.shadow, shadow := [], tiles := [], scales := [], go := [], tc := List.replicate 4 Accum.fresh,
        drains := out, swIn := [], nin := nin, sent := [] })

end Sys2Proof.Machine
end

