-- ==== Sys2Proof/Machine/Graft.lean ====
section
/-! DEFINITION. The events of the Graft: tokens, scans, weight loads and its switch (R325 to R335). -/

namespace Sys2Proof.Machine

/-- The unit by which a Graft makes accesses: scan slot `sub`, or 8 for a weight load (R71). -/
def State.graftWho (s : State) (q ctx sub : Nat) : Who :=
  { ctx := ctx, part := s.partOf ctx, quire := q, kind := 3, key := unitKey 1 q sub, parks := true }

/-! ### Tokens (R325) -/

/-- A token has reached a port of the Graft: see `pressPort`. -/
def State.graftPort (s : State) (pos port : Nat) (isU : Bool) (g : Nat → Nat → Token → State → Option State) : Res :=
  match s.enginePort pos port 1 0 19 with
  | none => idle s
  | some (p, t, rest) =>
    let q := quireOf pos
    let k := s.graftOf q
    let ctx := t.ctx.toNat
    let s1 := s.setBuf pos port 0 rest
    if (p % 5 == 0) != isU then idle s
    else if k.ctx ≠ some ctx ∨ !s.alive ctx then .next (s1.discardN ctx 1)
    else if t.isSwitch then
      match portCount k.swIn k.nin p t with
      | some sw => .next (s1.setGraft q { k with swIn := sw })
      | none => .next (s1.engineFault 0x61 ctx q 2 t.nest.toNat t.plate)
    else
      let t1 := s.engineForm q 2 [.fp32] t
      let t2 := if t1.poison ∨ t1.colour = (k.desc (p / 5)).colour (p % 5) then t1 else s.enginePoison q 2 t1 0x66
      match g q p t2 s1 with
      | some s2 => .next s2
      | none => idle s

/-- `GRAFT_U_TOKEN` (R325): a channel of NCH or more becomes poison GRCH; a second token of a key is discarded with DUPOP. -/
def execGraftUToken (pos port : Nat) (s : State) : Res :=
  s.graftPort pos port true fun q p t s =>
    let k := s.graftOf q
    let d := p / 5
    let ds := k.desc d
    let t := if !t.poison ∧ ds.chan t ≥ ds.nch then s.enginePoison q 2 t 0xA8 else t
    if (k.uTok d (ds.stream t) (ds.chan t) (ds.step t)).isSome then
      some (s.engineFault 0x61 t.ctx.toNat q 2 t.nest.toNat t.plate)
    else if k.steps.length ≥ 4096 then none
    else some (s.setGraft q { k with steps := k.steps ++ [(d, t)] })

/-- `GRAFT_SHARED_TOKEN` (R325). -/
def execGraftSharedToken (pos port : Nat) (s : State) : Res :=
  s.graftPort pos port false fun q p t s =>
    let k := s.graftOf q
    let d := p / 5
    let ds := k.desc d
    if (k.sharedTok d (ds.stream t) (ds.step t) (p % 5)).isSome then
      some (s.engineFault 0x61 t.ctx.toNat q 2 t.nest.toNat t.plate)
    else if k.sharedUsed.length ≥ 256 ∧ !k.sharedUsed.contains (d, ds.stream t, ds.step t) then none
    else some (s.setGraft q { k with shared := k.shared ++ [(d, p % 5, t)] })

/-! ### The start and the end of a scan (R326, R327) -/

/-- The lowest free scan slot. -/
def Graft.freeSlot (g : Graft) : Option Nat := (List.range 8).find? fun i => (tabGet g.scans i).isNone

/-- An accepted scan starts in a slot; a forced chunked form that cannot run ends it with status 1 (R329). -/
def State.graftStart (s : State) (q : Nat) (sc : Scan) : State :=
  let g := s.graftOf q
  let ds := g.desc sc.desc
  let sc := { sc with uniform := g.uniform sc.desc }
  if g.badForm sc then s.cmdDone q sc.cmd 1 0
  else match g.freeSlot with
    | none => s
    | some i =>
      let vecs := if sc.si then g.vecs
        else (List.range ds.nch).foldl (fun v c => tabDel v (sc.svb + c)) g.vecs
      s.setGraft q { g with scans := tabPut g.scans i { sc with st := if sc.si then .stateIn 0 else .steps }, vecs := vecs }

/-- A scan leaves its slot and its command completes; lane 1 is the number of chunks run in chunked form (R326). -/
def State.graftEnd (s : State) (q i : Nat) (sc : Scan) (status : Nat) : State :=
  let g := s.graftOf q
  (s.setGraft q { g with scans := tabDel g.scans i }).cmdDone q sc.cmd status sc.chunks

def State.setScan (s : State) (q i : Nat) (sc : Scan) : State :=
  let g := s.graftOf q
  s.setGraft q { g with scans := tabPut g.scans i sc }

def State.setVec (s : State) (q v : Nat) (x : StateVec) : State :=
  let g := s.graftOf q
  s.setGraft q { g with vecs := tabPut g.vecs v x }

/-- `GRAFT_STATE_IN_DONE` (R327, R335): the next state-in read is performed; after the last the steps may begin. -/
def execGraftStateInDone (quire scan : Nat) (s : State) : Res :=
  let g := s.graftOf quire
  match g.ctx, tabGet g.scans scan with
  | some ctx, some sc =>
    let ds := g.desc sc.desc
    (match sc.st with
    | .stateIn i =>
      if !s.engineMay quire ctx then idle s
      else
        let ch := i / ds.n
        let j := i % ds.n
        let v := sc.svb + ch
        match s.unitRead (s.graftWho quire ctx scan) false ((sc.siva + 4 * i) % 2 ^ 64) 4 sc.set with
        | .wait s1 => .next s1
        | .fail c s1 => .next (s1.graftEnd quire scan sc c)
        | .ok (w, h) s1 =>
          let old := if j = 0 then StateVec.fresh else (s1.graftOf quire).vec v
          (match s1.engineUnion ctx old.handle [h] with
          | .wait s2 => .next { s with unions := s2.unions }
          | .ok h' bad s2 =>
            let x : StateVec := { h := listMod old.h j fun _ => w, handle := h'
                                  poison := match old.poison, bad with
                                    | some r, _ => some r
                                    | none, some c => some (s.unitRec c ctx quire 2 0)
                                    | none, none => none }
            let st : ScanSt := if i + 1 = ds.n * ds.nch then .steps else .stateIn (i + 1)
            .next ((s2.setVec quire v x).setScan quire scan { sc with st := st }))
    | _ => idle s)
  | _, _ => idle s

/-! ### Steps (R323, R332, R335) -/

/-- A y token: one lane of FP32 under the tag of its `u` token. -/
def yToken (ctx : Nat) (u : Token) (h : Handle) (bad : Option (BitVec 128)) (y : Nat) : Token :=
  match bad with
  | some r => poisonToken ctx u.nest (Shape.data .fp32 1) h r
  | none => resultToken ctx u.nest (Shape.data .fp32 1) h (packLanes 32 [y])

/-- The ready channel-step whose `u` token arrived first: scan slot, scan, channel, token, shared tokens (R332). -/
def Graft.readyStep (g : Graft) : List (Nat × Token) → Option (Nat × Scan × Nat × Token × List Token)
  | [] => none
  | (d, u) :: r =>
    let ds := g.desc d
    let c := ds.chan u
    match g.scans.find? (fun x => x.2.desc == d && x.2.stream == ds.stream u && x.2.stepping) with
    | none => g.readyStep r
    | some (i, sc) =>
      if c < ds.nch ∧ g.recurrent sc c ∧ g.stepAt sc (sc.of c) = ds.step u then
        match g.sharedAll d sc.stream (ds.step u) with
        | some sh => some (i, sc, c, u, sh)
        | none => g.readyStep r
      else g.readyStep r

/-- The buffers without the `u` token of a channel-step; its shared entry frees with the last channel that takes it (R336). -/
def Graft.consume (g : Graft) (sc : Scan) (c i : Nat) : Graft :=
  let ds := g.desc sc.desc
  let step := g.stepAt sc i
  let isU (q : Nat × Token) : Bool :=
    q.1 == sc.desc && ds.stream q.2 == sc.stream && ds.chan q.2 == c && ds.step q.2 == step
  let all := (List.range ds.nch).all fun k => k == c || decide (sc.of k > i)
  let isS (q : Nat × Nat × Token) : Bool := q.1 == sc.desc && ds.stream q.2.2 == sc.stream && ds.step q.2.2 == step
  { g with steps := dropFirst isU g.steps, shared := if all then g.shared.filter fun q => !isS q else g.shared }

/-- The destination of a descriptor's y tokens. -/
def GraftDesc.dest (d : GraftDesc) : Nat := 32 * d.del + d.didx

/-- What a channel's state carries after one step, with the plate-channel message of a union that fails: none while a union
is at the Spine (R89, R335). -/
def State.stepPlates (s : State) (q ctx wc : Nat) (v : StateVec) (u : Token) (sh : List Token) : StateVec × State ⊕ State :=
  match s.engineUnion ctx v.handle (u.plate :: (sh.map (·.plate)) ++ [(s.graftOf q).wHandle wc]) with
  | .wait s1 => .inr s1
  | .ok h bad s1 =>
    let r := match v.poison, firstPoison (u :: sh), bad with
      | some r, _, _ => some r
      | none, some r, _ => some r
      | none, none, some c => some (s.unitRec c ctx q 2 0)
      | none, none, none => none
    .inl ({ v with handle := h, poison := r }, s1)

/-- `GRAFT_STEP_ISSUE` (R323, R332): the first ready channel-step issues. -/
def execGraftStepIssue (quire : Nat) (s : State) : Res :=
  let g := s.graftOf quire
  match g.ctx, g.readyStep g.steps with
  | some ctx, some (i, sc, c, u, sh) =>
    if !s.engineMay quire ctx ∨ allSwitched g.swIn g.nin then idle s
    else
      let ds := g.desc sc.desc
      let v := sc.svb + c
      let old := g.vec v
      (match s.stepPlates quire ctx (ds.chb + c) old u sh with
      | .inr s1 => .next { s with unions := s1.unions }
      | .inl (x, s1) =>
        let h := if x.poison.isSome then old.h else stepState ds.n (g.rowA (ds.chb + c)) old.h u sh
        let y := yToken ctx u x.handle x.poison (stepY ds.n (tabNum g.d (ds.chb + c)) h u sh)
        let g1 := g.consume sc c (sc.of c)
        let sc1 := { sc with taken := tabPut sc.taken c (sc.of c + 1) }
        let g2 := { g1 with
          vecs := tabPut g1.vecs v { x with h := h }
          scans := tabPut g1.scans i sc1
          yout := g1.yout ++ [(i, ds.dest, y)]
          sent := tabAdd g1.sent ds.dest 1 }
        .next ((s1.setGraft quire g2).charge (quire / 64) (s.partOf ctx) 0 (if ds.n ≤ 32 then 4 else 8)))
  | _, _ => idle s

/-- `GRAFT_Y_EMIT` (R332, R335): the oldest y or switch token leaves by entry DIDX of element DEL. -/
def execGraftYEmit (quire : Nat) (s : State) : Res :=
  let g := s.graftOf quire
  match g.yout with
  | [] => idle s
  | (_, k, t) :: rest =>
    match (s.setGraft quire { g with yout := rest }).engineSend (quire * 16 + k / 32) t.ctx.toNat (k % 32) t with
    | some s1 => .next s1
    | none => idle s

/-! ### Chunks (R329 to R331) -/

/-- The plates and poisons of one channel over the steps of a chunk, in processing order: the handle and record after each. -/
def State.chunkPlates (s : State) (q ctx wc : Nat) (v : StateVec) : List (Token × List Token) → List StateVec × State ⊕ State
  | [] => .inl ([], s)
  | (u, sh) :: l =>
    match s.stepPlates q ctx wc v u sh with
    | .inr s1 => .inr s1
    | .inl (x, s1) =>
      match s1.chunkPlates q ctx wc x l with
      | .inl (r, s2) => .inl (x :: r, s2)
      | .inr s2 => .inr s2

/-- One channel of a chunk: its y tokens leave, its state and steps move on. None while a union is at the Spine. -/
def State.chunkChan (s : State) (q ctx i : Nat) (sc : Scan) (k c : Nat) (steps : List Nat) (m : Nat → Nat → Nat) : State ⊕ State :=
  let g := s.graftOf q
  let ds := g.desc sc.desc
  let wc := ds.chb + c
  let v := g.vec (sc.svb + c)
  let us := steps.map fun t => (g.uTok sc.desc sc.stream c t).getD default
  let shs := steps.map fun t => (g.sharedAll sc.desc sc.stream t).getD []
  match s.chunkPlates q ctx wc v (us.zip shs) with
  | .inr s1 => .inr s1
  | .inl (vs, s1) =>
    let o := chunkChannel ds.n (((g.rowA wc)[0]?).getD 0) (tabNum g.d wc) v.h us shs m
    let ys := (us.zip (vs.zip o.y)).map fun (u, x, y) => (i, ds.dest, yToken ctx u x.handle x.poison y)
    let last := (vs.getLast?).getD v
    let h := if last.poison.isSome then v.h else o.h
    let first := k * ds.chunk
    let g1 := (List.range steps.length).foldl (fun g j => g.consume sc c (first + j)) g
    .inl (s1.setGraft q { g1 with
      vecs := tabPut g1.vecs (sc.svb + c) { last with h := h }
      yout := g1.yout ++ ys
      sent := tabAdd g1.sent ds.dest ys.length
      scans := tabPut g1.scans i { sc with taken := tabPut sc.taken c (first + steps.length) } })

/-- The channels of a chunk in ascending order. -/
def State.chunkChans (s : State) (q ctx i k : Nat) (steps : List Nat) (m : Nat → Nat → Nat) : List Nat → State ⊕ State
  | [] => .inl s
  | c :: l =>
    match tabGet (s.graftOf q).scans i with
    | none => .inl s
    | some sc =>
      match s.chunkChan q ctx i sc k c steps m with
      | .inl s1 => s1.chunkChans q ctx i k steps m l
      | .inr s1 => .inr s1

/-- Energy of a chunk: its array operations, and the datapath cycles of its channels (R332, R403). -/
def chunkUnits (n nch lc : Nat) : Nat :=
  let t := (lc + 15) / 16
  t * (t + 1) / 2 * ((n + 31) / 32) * 48 + nch * ((lc * (lc + 1) + 63) / 64 + (lc * n + 31) / 32) * 4

/-- `GRAFT_CHUNK` (R330, R333): the next chunk of a scan runs in chunked form. -/
def execGraftChunk (quire scan : Nat) (s : State) : Res :=
  let g := s.graftOf quire
  match g.ctx, tabGet g.scans scan with
  | some ctx, some sc =>
    if !s.engineMay quire ctx ∨ allSwitched g.swIn g.nin ∨ (!g.pressLast ∧ s.pressReady quire) then idle s
    else
      (match g.nextChunk sc with
      | none => idle s
      | some k =>
        let ds := g.desc sc.desc
        let steps := (List.range (g.chunkLen sc k)).map fun j => g.stepAt sc (k * ds.chunk + j)
        let shs := steps.map fun t => (g.sharedAll sc.desc sc.stream t).getD []
        let m (t i : Nat) : Nat := chunkM ds.n ((shs[t]?).getD []) ((shs[i]?).getD [])
        (match s.chunkChans quire ctx scan k steps m (List.range ds.nch) with
        | .inr s1 => .next { s with unions := s1.unions }
        | .inl s1 =>
          let g1 := s1.graftOf quire
          let up (sc : Scan) : Scan := { sc with chunks := sc.chunks + 1 }
          let s2 := s1.setGraft quire { g1 with
            pressLast := false
            scans := match tabGet g1.scans scan with | some x => tabPut g1.scans scan (up x) | none => g1.scans }
          .next (s2.charge (quire / 64) (s.partOf ctx) 0 (chunkUnits ds.n ds.nch steps.length))))
  | _, _ => idle s

/-! ### Completion (R327, R335) -/

/-- Whether every channel has taken its steps and every y has left. -/
def Graft.stepsDone (g : Graft) (i : Nat) (sc : Scan) : Bool :=
  (List.range (g.desc sc.desc).nch).all (fun c => sc.of c == sc.steps) && !g.yout.any fun y => y.1 == i

/-- The next channel of a state-out: a poisoned one is not written (R335). -/
def Scan.skipOut (sc : Scan) (n next status : Nat) : Scan :=
  { sc with st := .stateOut ((next / n + 1) * n), status := if sc.status = 0 ∨ sc.status = 2 then status else sc.status }

/-- The next state-out write. A channel is written only when none of its writes would fail. -/
def State.stateOutStep (s : State) (q ctx i : Nat) (sc : Scan) (next : Nat) : Res :=
  let g := s.graftOf q
  let ds := g.desc sc.desc
  let v := g.vec (sc.svb + next / ds.n)
  let w := s.graftWho q ctx i
  let addr (k : Nat) : Nat := (sc.sova + 4 * k) % 2 ^ 64
  if v.poison.isSome then .next (s.setScan q i (sc.skipOut ds.n next 2))
  else match s.union sc.set v.handle with
    | .wait a b => .next (s.askUnion a b ctx w.part)
    | .ovf a b => .next ((s.plateOvf a b ctx w.part).setScan q i (sc.skipOut ds.n next (s.ovfCode a b)))
    | .ok h =>
      let probe := if next % ds.n = 0 then
          s.unitProbes w false 4 h ((List.range ds.n).map fun j => addr (next + j))
        else .ok () s
      match probe.bind fun _ s => s.unitWrite w false (addr next) 4 ((v.h[next % ds.n]?).getD 0) h with
      | .wait s1 => .next s1
      | .fail c s1 => .next (s1.setScan q i (sc.skipOut ds.n next c))
      | .ok _ s1 => .next (s1.setScan q i { sc with st := .stateOut (next + 1) })

/-- `GRAFT_SCAN_COMPLETE` (R327): the state-out writes follow the last step, and then the scan completes. Under a switch the
scan ends with status 6 once its state is written (R335). -/
def execGraftScanComplete (quire scan : Nat) (s : State) : Res :=
  let g := s.graftOf quire
  match g.ctx, tabGet g.scans scan with
  | some ctx, some sc =>
    if !s.engineMay quire ctx then idle s
    else
      let ds := g.desc sc.desc
      let sw := allSwitched g.swIn g.nin
      (match sc.st with
      | .stateIn _ => if sw then .next (s.graftEnd quire scan sc 6) else idle s
      | .steps =>
        if sw ∨ g.stepsDone scan sc then
          (if sc.so then .next (s.setScan quire scan { sc with st := .stateOut 0, status := if sw then 6 else 0 })
           else .next (s.graftEnd quire scan sc (if sw then 6 else 0)))
        else idle s
      | .stateOut i =>
        if i ≥ ds.n * ds.nch then .next (s.graftEnd quire scan sc sc.status)
        else s.stateOutStep quire ctx scan sc i)
  | _, _ => idle s

/-! ### Weights (R328) -/

/-- `WLOAD_CHANNEL_DONE` (R328): the next word of the channel being loaded is read; with the last the channel is written. -/
def execWloadChannelDone (quire : Nat) (s : State) : Res :=
  let g := s.graftOf quire
  match g.ctx, g.wload with
  | some ctx, some l =>
    let j := l.got.length
    let addr := if j < l.nw then l.ava + 4 * (l.nw * l.next + j) else l.dva + 4 * l.next
    if !s.engineMay quire ctx then idle s
    else
      (match s.unitRead (s.graftWho quire ctx 8) false (addr % 2 ^ 64) 4 l.set with
      | .wait s1 => .next s1
      | .fail c s1 => .next ((s1.setGraft quire { s1.graftOf quire with wload := none }).cmdDone quire l.cmd c l.next)
      | .ok (w, h) s1 =>
        (match s1.engineUnion ctx l.gotH [h] with
        | .wait s2 => .next { s with unions := s2.unions }
        | .ok h' (some c) s2 =>
          let _ := h'
          .next ((s2.setGraft quire { s2.graftOf quire with wload := none }).cmdDone quire l.cmd c l.next)
        | .ok h' none s2 =>
          let g2 := s2.graftOf quire
          if j < l.nw then .next (s2.setGraft quire { g2 with wload := some { l with got := l.got ++ [w], gotH := h' } })
          else
            let c := l.chb + l.next
            let g3 := { g2 with
              a := tabPut g2.a c (l.got ++ List.replicate (64 - l.nw) 0)
              d := tabPut g2.d c w
              wh := tabPut g2.wh c h' }
            if l.next + 1 = l.nch then
              .next ((s2.setGraft quire { g3 with wload := none }).cmdDone quire l.cmd 0 l.nch)
            else .next (s2.setGraft quire { g3 with wload := some { l with next := l.next + 1, got := [], gotH := 0 } })))
  | _, _ => idle s

/-! ### The switch (R335) -/

/-- The (DEL, DIDX) of the descriptors, each once. -/
def Graft.dests (g : Graft) : List Nat :=
  g.descs.foldl (fun l b => let k := (graftDesc b).dest; if l.contains k then l else l ++ [k]) []

/-- The edge counts of a Graft's ports in an image (R236, R325). -/
def State.graftNin (s : State) (im : Image) (part q : Nat) : Tab Nat := im.portNin 1 (s.logOf part (q * 16) / 16) 16

/-- `GRAFT_SWITCH` (R335): once every port has switched and every scan and y token is gone. -/
def execGraftSwitch (quire : Nat) (s : State) : Res :=
  let g := s.graftOf quire
  match g.ctx with
  | none => idle s
  | some ctx =>
    if !allSwitched g.swIn g.nin ∨ !g.scans.isEmpty ∨ !g.yout.isEmpty then idle s
    else
      let s1 := s.strandToks ctx quire 2 (g.steps.map (·.2))
      let s2 := s1.strandToks ctx quire 2 (g.shared.map fun q => q.2.2)
      let kind (k : Nat) : Nat :=
        match (s.elem (quire * 16 + k / 32)).slotFor ctx with | some sl => entryKind (sl.dest (k % 32)).1 | none => 3
      let out := (g.dests.filter fun k => kind k != 3).map fun k => (8, k, switchToken ctx (tabNum g.sent k))
      let nin := match s.ctx? ctx with
        | some c => (match c.shadow with
          | some h => (match tabGet s.images h with | some im => s.graftNin im c.part quire | none => [])
          | none => [])
        | none => []
      .next (s2.setGraft quire { g with
        descs := g.shadow, shadow := [], steps := [], shared := [], vecs := [], yout := out, swIn := [], nin := nin, sent := [] })

end Sys2Proof.Machine
end

