-- ==== Sys2Proof/Machine/Riddle.lean ====
section
/-! DEFINITION. The Riddle: go tokens, runs, cursors, the merge loop, results and its switch (R337 to R345). -/

namespace Sys2Proof.Machine

/-- A field of a descriptor record: its byte. -/
def recByte (b : BitVec 512) (off : Nat) : Nat := bitF b.toNat (8 * off + 7) (8 * off)

def Riddle.descWord (r : Riddle) (d : Nat) : BitVec 512 := (r.descs[d]?).getD 0
/-- FORM: 0 isect; 1 icnt; 2 union; 3 diff; 4 merge (R338). -/
def Riddle.form (r : Riddle) (d : Nat) : Nat := recByte (r.descWord d) 0
/-- The destination of results: 32 × DEL + DIDX. -/
def Riddle.dest (r : Riddle) (d : Nat) : Nat := 32 * (recByte (r.descWord d) 1 % 64) + recByte (r.descWord d) 2

/-- The unit by which a Riddle makes accesses: cursor 0 or 1 of a run, or 2 for its writes (R71). -/
def State.riddleWho (s : State) (folio ctx run cursor : Nat) : Who :=
  { ctx := ctx, part := s.partOf ctx, quire := folio * 4, kind := 3, key := unitKey 2 folio (4 * run + cursor), parks := true }

/-- `RIDDLE_GO_TOKEN` (R337, R339). -/
def execRiddleGoToken (pos port : Nat) (s : State) : Res :=
  match s.enginePort pos port 2 0 31 with
  | none => idle s
  | some (p, t, rest) =>
    let f := folioOf pos
    let q := f * 4
    let k := s.riddleOf f
    let ctx := t.ctx.toNat
    let s1 := s.setBuf pos port 0 rest
    if k.ctx ≠ some ctx ∨ !s.alive ctx then .next (s1.discardN ctx 1)
    else if t.isSwitch then
      match portCount k.swIn k.nin p t with
      | some sw => .next (s1.setRiddle f { k with swIn := sw })
      | none => .next (s1.engineFault 0x61 ctx q 3 t.nest.toNat t.plate)
    else if k.go.length ≥ 16 then idle s
    else
      let t1 := s.engineForm q 3 [.bits] t
      let t2 := if t1.poison ∨ t1.colour = 8 then t1 else s.enginePoison q 3 t1 0x66
      let g : RiddleGo := { desc := p, tok := some t2, cmd := none, ctx := ctx, record := bytesOf 32 t2.pay.toNat, set := t2.plate }
      .next (s1.setRiddle f { k with go := k.go ++ [g] })

/-- A run as it starts (R337, R339); a poison go token ends it before it reads (R343). -/
def RiddleGo.run (g : RiddleGo) : Run where
  desc := g.desc
  tok := g.tok
  cmd := g.cmd
  ctx := g.ctx
  ava := fieldOf g.record 0 8
  bva := fieldOf g.record 8 8
  ova := fieldOf g.record 16 8
  alen := fieldOf g.record 24 4
  blen := fieldOf g.record 28 4
  i := 0
  j := 0
  n := 0
  abuf := []
  bbuf := []
  lastA := none
  lastB := none
  outp := []
  piece := []
  written := 0
  handle := g.set
  fail := none
  finished := match g.tok with | some t => t.poison | none => false

/-- Whether the engines of a context may start work on a folio (R383, R403, R429). -/
def State.riddleMay (s : State) (f ctx : Nat) : Bool :=
  s.mayIssue ctx && s.awake f && s.rateOk (f / 16) (s.partOf ctx)

/-- `RIDDLE_RUN_START` (R344): the oldest go token or `setx` takes the lowest free slot. Once every go port has switched no go
token starts (R345). -/
def execRiddleRunStart (folio : Nat) (s : State) : Res :=
  let k := s.riddleOf folio
  match k.go, (List.range 4).find? (fun i => (tabGet k.runs i).isNone) with
  | g :: rest, some i =>
    if !s.riddleMay folio g.ctx ∨ (g.tok.isSome ∧ allSwitched k.swIn k.nin) then idle s
    else .next (s.setRiddle folio { k with go := rest, runs := tabPut k.runs i g.run })
  | _, _ => idle s

/-! ### The loop (R341) -/

/-- What a step of the loop comes to. -/
inductive LoopRes where
  /-- the loop exits -/
  | exit
  /-- it needs an element of A, of B, or both -/
  | need (a b : Bool)
  /-- a stream decreases -/
  | order
  /-- a piece must be written first -/
  | full
  | next (r : Run)

/-- Whether the loop exits. -/
def Run.exits (r : Run) (form : Nat) : Bool :=
  let ia := r.i == r.alen
  let jb := r.j == r.blen
  (form ≤ 1 && (ia || jb)) || (form == 3 && ia) || (ia && jb)

/-- Whether a piece that ends before element `n` is full: it ends at a multiple of 64 bytes (R342). -/
def Run.pieceFull (r : Run) : Bool := !r.piece.isEmpty && (r.ova + 4 * r.n) % 64 == 0

/-- An element is emitted; a full piece goes out when none is outstanding. -/
def Run.emit (r : Run) (v : Word) : Run :=
  let r1 := { r with piece := r.piece ++ [v], n := r.n + 1 }
  if r1.pieceFull && r1.outp.isEmpty then { r1 with outp := r1.piece, piece := [] } else r1

def Run.dropA (r : Run) (v : Word) : Run := { r with i := r.i + 1, abuf := r.abuf.drop 1, lastA := some v }
def Run.dropB (r : Run) (v : Word) : Run := { r with j := r.j + 1, bbuf := r.bbuf.drop 1, lastB := some v }

/-- Whether an element is below its stream's previous one. -/
def decreases (last : Option Word) (v : Word) : Bool := match last with | some p => decide (v.toNat < p.toNat) | none => false

/-- One step of the loop. -/
def Run.step (r : Run) (form : Nat) : LoopRes :=
  if r.exits form then .exit
  else
    let needA := decide (r.i < r.alen)
    let needB := decide (r.j < r.blen)
    let a := r.abuf.headD 0
    let b := r.bbuf.headD 0
    if (needA && r.abuf.isEmpty) || (needB && r.bbuf.isEmpty) then .need (needA && r.abuf.isEmpty) (needB && r.bbuf.isEmpty)
    else if (needA && decreases r.lastA a) || (needB && decreases r.lastB b) then .order
    else if r.pieceFull then .full
    else if needA && (!needB || decide (a.toNat < b.toNat)) then
      .next ((if form ≥ 2 then r.emit a else r).dropA a)
    else if !needA || decide (b.toNat < a.toNat) then
      .next ((if form = 2 ∨ form = 4 then r.emit b else r).dropB b)
    else if form = 4 then
      (if (r.emit a).pieceFull then .full else .next ((((r.emit a).emit b).dropA a).dropB b))
    else if form = 1 then .next (({ r with n := r.n + 1 }.dropA a).dropB b)
    else .next (((if form = 0 ∨ form = 2 then r.emit a else r).dropA a).dropB b)

/-- Up to `k` steps; the last result that is no step. -/
def Run.steps (r : Run) (form : Nat) : Nat → Run × LoopRes
  | 0 => (r, .next r)
  | k + 1 =>
    match r.step form with
    | .next r1 => r1.steps form k
    | e => (r, e)

/-- Whether the loop can go on with what the run holds. -/
def Run.ready (r : Run) (form : Nat) : Bool :=
  !r.finished && r.fail.isNone && (match r.step form with | .next _ | .exit | .order => true | _ => false)

/-! ### Output (R342) -/

/-- The element write of an outstanding piece; `.ok` when none is left. -/
def State.writePiece (s : State) (w : Who) (r : Run) : Nat → Run × Sync Unit
  | 0 => (r, .ok () s)
  | k + 1 =>
    match r.outp with
    | [] => (r, .ok () s)
    | v :: l =>
      match s.unitWrite w false ((r.ova + 4 * r.written) % 2 ^ 64) 4 v.toNat r.handle with
      | .ok _ s1 => s1.writePiece w { r with outp := l, written := r.written + 1 } k
      | e => (r, e)

/-- The write of a whole piece: performed only when none of its elements would fail. -/
def State.runWrite (s : State) (w : Who) (r : Run) : Run × Sync Unit :=
  match s.unitProbes w false 4 r.handle ((List.range r.outp.length).map fun i => (r.ova + 4 * (r.written + i)) % 2 ^ 64) with
  | .ok _ s1 => s1.writePiece w r r.outp.length
  | e => (r, e)

def State.setRun (s : State) (f i : Nat) (r : Run) : State :=
  let k := s.riddleOf f
  s.setRiddle f { k with runs := tabPut k.runs i r }

/-- The run whose turn it is: the first that can go on after the last one served (R344). -/
def Riddle.pick (k : Riddle) : Option Nat :=
  ((List.range 4).map fun d => (k.turn + 1 + d) % 4).find? fun i =>
    match tabGet k.runs i with | some r => r.ready (k.form r.desc) | none => false

/-- A failed write or read ends the run (R343). -/
def Run.failed (r : Run) (code va : Nat) : Run := { r with finished := true, fail := some (code, va), outp := [], piece := [] }

/-- `RIDDLE_LOOP_STEP` (R341, R342, R344): an outstanding piece is written, and the run whose turn it is retires up to 16
steps. -/
def execRiddleLoopStep (folio run : Nat) (s : State) : Res :=
  let k := s.riddleOf folio
  match tabGet k.runs run with
  | none => idle s
  | some r =>
    if r.finished ∨ !s.riddleMay folio r.ctx then idle s
    else
      let w := s.riddleWho folio r.ctx run 2
      let x := s.runWrite w r
      (match x.2 with
      | .fail c s1 => .next (s1.setRun folio run (r.failed c ((r.ova + 4 * r.written) % 2 ^ 64)))
      | .wait s1 | .ok _ s1 =>
        let r1 := x.1
        if k.pick ≠ some run then .next (s1.setRun folio run r1)
        else
          let form := k.form r.desc
          let r2 := if r1.pieceFull && r1.outp.isEmpty then { r1 with outp := r1.piece, piece := [] } else r1
          let y := r2.steps form 16
          let r3 := match y.2 with
            | .exit => { y.1 with finished := true }
            | .order => { y.1 with finished := true, fail := some (0xB0, 0), outp := [], piece := [] }
            | _ => y.1
          let s2 := s1.setRun folio run r3
          .next (s2.setRiddle folio { s2.riddleOf folio with turn := run }))

/-! ### Cursors (R342) -/

/-- Size of the translation page that holds a VA: its leaf's, or 64 KiB. -/
def State.leafPage (s : State) (die part va : Nat) : Nat :=
  match (s.cachedOn die).find? (fun c => c.covers part va) with
  | some c => if c.big then 2 ^ 21 else 2 ^ 16
  | none => 2 ^ 16

/-- Elements read by one granule read. -/
def wordsOf (n v : Nat) : List Word := (List.range n).map fun i => BitVec.ofNat 32 (laneAt 32 (BitVec.ofNat 1024 v) i)

/-- `RIDDLE_GRANULE_RETURN` (R342): the next granule of a cursor is read, on demand or ahead. A read-ahead stays within the page
of the element last taken and within four granules, and one that meets a fault is dropped. -/
def execRiddleGranuleReturn (folio run cursor : Nat) (s : State) : Res :=
  let k := s.riddleOf folio
  match tabGet k.runs run with
  | none => idle s
  | some r =>
    let isB := cursor == 1
    let base := if isB then r.bva else r.ava
    let len := if isB then r.blen else r.alen
    let pos := if isB then r.j else r.i
    let buf := if isB then r.bbuf else r.abuf
    let idx := pos + buf.length
    let va := (base + 4 * idx) % 2 ^ 64
    let n := min ((64 - va % 64) / 4) (len - idx)
    let demand := match r.step (k.form r.desc) with
      | .need a b => if isB then b else a
      | _ => false
    let w := s.riddleWho folio r.ctx run cursor
    let ahead := decide (0 < pos) && decide (buf.length + n ≤ 64) && !buf.isEmpty &&
      (let taken := base + 4 * (pos - 1)
       let pg := s.leafPage w.die w.part taken
       va / pg == taken / pg)
    if r.finished ∨ idx ≥ len ∨ (demand || ahead) = false ∨ !s.riddleMay folio r.ctx then idle s
    else
      let n := if va % 4 = 0 then n else 1
      let whole := s.unitReadAt w false va 4 (4 * n) r.handle
      -- an uncorrectable word among elements that the loop does not need yet raises no fault (R341)
      let got : Nat × Sync (Nat × Handle) := match whole with
        | .fail c _ => if (c = 0x20 ∨ c = 0x23) ∧ demand then (1, s.unitReadAt w false va 4 4 r.handle) else (n, whole)
        | x => (n, x)
      (match got.2 with
      | .wait s1 => .next s1
      | .fail c s1 => if demand then .next (s1.setRun folio run (r.failed c va)) else idle s
      | .ok (v, h) s1 =>
        (match s1.engineUnion r.ctx r.handle [h] with
        | .wait s2 => .next { s with unions := s2.unions }
        | .ok _ (some c) s2 => if demand then .next (s2.setRun folio run (r.failed c 0)) else idle s
        | .ok h' none s2 =>
          let l := wordsOf got.1 v
          let r1 := if isB then { r with bbuf := r.bbuf ++ l, handle := h' } else { r with abuf := r.abuf ++ l, handle := h' }
          .next (s2.setRun folio run r1)))

/-! ### Results and the switch (R341, R343, R345) -/

/-- The result token of a go run (R341, R343). -/
def State.riddleToken (s : State) (folio : Nat) (r : Run) (t : Token) : Token :=
  let sh := Shape.data .i32 1
  if t.poison then poisonToken r.ctx t.nest sh r.handle t.record
  else match r.fail with
    | some (c, va) => poisonToken r.ctx t.nest sh r.handle (s.unitRec c r.ctx (folio * 4) 3 va)
    | none => resultToken r.ctx t.nest sh r.handle (packLanes 32 [r.n])

/-- `RIDDLE_RESULT` (R343, R344): the last pieces are written, then the result token leaves or the `setx` completes. -/
def execRiddleResult (folio run : Nat) (s : State) : Res :=
  let k := s.riddleOf folio
  match tabGet k.runs run with
  | none => idle s
  | some r =>
    if !r.finished ∨ !s.riddleMay folio r.ctx then idle s
    else if !r.outp.isEmpty ∨ !r.piece.isEmpty then
      let r0 := if r.outp.isEmpty then { r with outp := r.piece, piece := [] } else r
      let x := s.runWrite (s.riddleWho folio r.ctx run 2) r0
      (match x.2 with
      | .fail c s1 => .next (s1.setRun folio run (r.failed c ((r.ova + 4 * r.written) % 2 ^ 64)))
      | .wait s1 | .ok _ s1 => .next (s1.setRun folio run x.1))
    else
      let s1 := s.setRiddle folio { k with runs := tabDel k.runs run }
      match r.tok, r.cmd with
      | some t, _ =>
        let d := k.dest r.desc
        let s2 := s1.setRiddle folio { s1.riddleOf folio with sent := tabAdd k.sent d 1 }
        (match s2.engineSend (folio * 64 + d / 32) r.ctx (d % 32) (s.riddleToken folio r t) with
        | some s3 => .next s3
        | none => idle s)
      | none, some (q, id) => .next (s1.cmdDone q id (match r.fail with | some (c, _) => c | none => 0) r.n)
      | none, none => .next s1

/-- The destinations of the descriptors, each once. -/
def Riddle.dests (k : Riddle) : List Nat :=
  (List.range k.descs.length).foldl (fun l d => if l.contains (k.dest d) then l else l ++ [k.dest d]) []

/-- The edge counts of a Riddle's ports in an image (R236, R339). -/
def State.riddleNin (s : State) (im : Image) (part folio : Nat) : Tab Nat := im.portNin 2 (s.lfOf part folio) 64

/-- Switch tokens leave at once, or not at all. -/
def State.sendSwitches (s : State) (base ctx : Nat) : List (Nat × Token) → Option State
  | [] => some s
  | (d, t) :: l =>
    match s.engineSend (base + d / 32) ctx (d % 32) t with
    | some s1 => s1.sendSwitches base ctx l
    | none => none

/-- `RIDDLE_SWITCH` (R345): once every go port has switched and no run is left. A `setx` that waits stays in the queue. -/
def execRiddleSwitch (folio : Nat) (s : State) : Res :=
  let k := s.riddleOf folio
  match k.ctx with
  | none => idle s
  | some ctx =>
    if !allSwitched k.swIn k.nin ∨ !k.runs.isEmpty then idle s
    else
      let s1 := s.strandToks ctx (folio * 4) 3 (k.go.filterMap (·.tok))
      let kind (d : Nat) : Nat :=
        match (s.elem (folio * 64 + d / 32)).slotFor ctx with | some sl => entryKind (sl.dest (d % 32)).1 | none => 3
      let out := (k.dests.filter fun d => kind d != 3).map fun d => (d, switchToken ctx (tabNum k.sent d))
      let nin := match s.ctx? ctx with
        | some c => (match c.shadow with
          | some h => (match tabGet s.images h with | some im => s.riddleNin im c.part folio | none => [])
          | none => [])
        | none => []
      match s1.sendSwitches (folio * 64) ctx out with
      | none => idle s
      | some s2 =>
        .next (s2.setRiddle folio { k with
          descs := k.shadow, shadow := [], go := k.go.filter (·.tok.isNone), swIn := [], nin := nin, sent := [] })

end Sys2Proof.Machine
end

