-- ==== Sys2Proof/Machine/CmdQueue.lean ====
section
/-! DEFINITION. Commands of the control cores: records, acceptance, the command queue and the command graph (R293 to R301). -/

namespace Sys2Proof.Machine

/-- A command as a control core or a graph node issues it: the word and the values of x[rs], x[rb], x[rc]. -/
structure CmdIn where
  q : Nat
  ctx : Nat
  part : Nat
  word : Word
  xs : Nat
  xb : Nat
  xc : Nat
  gvahi : Word
  set : Handle
  graph : Option Nat
  deriving DecidableEq, Repr

def kOp (w : Word) : Nat := w.toNat / 2 ^ 25
def kCfn (w : Word) : Nat := w.toNat % 1024

/-- `n` bytes of a quire's control memory. -/
def State.ctlBytes (s : State) (q a n : Nat) : Bytes := bytesOf n (memRead s.ctl (q * 65536 + a) n)

/-- Bytes of the record of each `part.*` form (R397). -/
def partRecSize (s : State) (q a cfn : Nat) : Nat :=
  match cfn with
  | 0 | 1 => 8
  | 2 => 8 + 4 * fieldOf (s.ctlBytes q a 2) 1 1
  | 3 => 64
  | 4 => 8
  | 5 => 11
  | 6 => 141
  | 7 => 5
  | 8 => 5
  | 9 => 8
  | 10 => 8
  | 11 => 6
  | 12 => 20
  | 13 => 44
  | 14 => 16 + 4 * fieldOf (s.ctlBytes q a 10) 8 2
  | _ => 3

/-- Bytes of the record that a command reads at x[rs]; 0 for none (R294). -/
def State.recSize (s : State) (c : CmdIn) : Nat :=
  let cfn := kCfn c.word
  match kOp c.word with
  | 0x40 => 32
  | 0x42 => if cfn / 512 = 1 then 0 else 32
  | 0x43 => 64
  | 0x44 => 32
  | 0x45 => 16
  | 0x4A => 32
  | 0x4B => 32
  | 0x4C => if cfn % 4 = 0 then 64 else if cfn % 4 = 1 then 8 + 4 * min 64 (fieldOf (s.ctlBytes c.q c.xs 2) 1 1) else 32
  | 0x4D => if cfn % 2 = 1 then 0 else 8 + fieldOf (s.ctlBytes c.q c.xs 4) 0 4
  | 0x4E => 32
  | 0x50 => partRecSize s c.q c.xs cfn
  | _ => 0

/-- Whether rc is a notify (R294). -/
def kNotifies (op : Nat) : Bool := op != 0x40 && op != 0x42 && op != 0x47 && op != 0x4F

/-- A notify descriptor (R293): USER, EN, CHAN. -/
def notifyOk (v : Nat) : Bool := bitF v 15 5 == 0 && decide (v % 16 ≤ 13)
def notifyOn (v : Nat) : Bool := bitF v 4 4 == 1

/-- The two lanes of a completion message (R293). -/
def notifyMsg (ctx v status lane1 : Nat) (h : Handle) : Token :=
  Token.words ctx h [bitF v 31 16 * 2 ^ 16 + status % 2 ^ 16, lane1 % 2 ^ 32]

/-! ### Operands and records that are malformed (CMDST 2) -/

/-- A field of 256 bits of a record. -/
def rec256 (b : Bytes) : Nat := numOf (b.take 32)

/-- A pattern record (R295). -/
def patBad (b : Bytes) : Bool :=
  let n := rec256 b
  decide (bitF n 199 196 > 7) || bitF n 195 192 != 0 || bitF n 191 160 == 0 || bitF n 127 96 == 0 || bitF n 63 32 == 0

/-- The port of `strm.bind` (R296): an input port of the Press or Graft, or the Press's port `o`. -/
def strmBad (out : Bool) (x : Nat) : Bool :=
  let e := bitF x 10 8
  let p := x % 32
  x / 2048 != 0 || bitF x 7 5 != 0 ||
    !(if out then e == 0 && p == 18 else (e == 0 && decide (p < 18)) || (e == 1 && decide (p < 20)))

/-- The K words that a graph node may hold (R297). -/
def graphOp (op : Nat) : Bool := [0x41, 0x43, 0x45, 0x46, 0x47, 0x4A, 0x4B, 0x4C].contains op

/-- A node record (R297). -/
def nodeBad (n : Nat) : Bool :=
  let kind := bitF n 255 248
  decide (kind > 2) || bitF n 207 192 != 0 || (List.range 4).any (fun i => bitF n (214 + 8 * i) (214 + 8 * i) == 1)
    || (kind == 0 && (bitF n 47 0 != 0 || bitF n 79 48 % 64 != 0))
    || (kind == 1 && !graphOp (bitF n 191 185))
    || (kind == 2 && !notifyOk (bitF n 191 160))

/-- The switch record (R298). -/
def State.switchBad (s : State) (c : CmdIn) (b : Bytes) : Bool :=
  let shadow := match s.ctx? c.ctx with | some x => x.shadow | none => none
  fieldOf b 4 2 == 0 || fieldOf b 6 2 != 0 || fieldOf b 12 4 != 0 || shadow != some (fieldOf b 8 4)

/-- A scan or weight-load command (R326 to R328). -/
def State.scanBad (s : State) (c : CmdIn) (b : Bytes) : Bool :=
  let cfn := kCfn c.word
  let g := s.graftOf c.q
  if cfn / 512 = 1 then
    bitF cfn 4 2 != 0 || c.xb != 0 || decide (fieldOf b 16 2 + fieldOf b 18 2 > 256) || fieldOf b 18 2 == 0
      || decide (fieldOf b 20 1 > 63) || fieldOf b 21 11 != 0 || cfn % 4 == 3 || g.ctx != some c.ctx
  else
    let ds := g.desc (c.xb % 4)
    let st := fieldOf b 6 2
    decide (cfn % 4 = 3) || c.xb / 4 != 0 || g.ctx != some c.ctx || decide (c.xb ≥ g.descs.length)
      || fieldOf b 0 4 == 0 || decide (fieldOf b 4 2 + ds.nch > 512) || fieldOf b 24 8 != 0
      || (st != 0 && (ds.strHi == 0xFF || decide (st ≥ 2 ^ (ds.strHi + 1 - ds.strLo))))

/-- A step record (R347). -/
def State.topkBad (s : State) (die : Nat) (b : Bytes) : Bool :=
  let v := fieldOf b 8 4
  let k := fieldOf b 28 2
  let pth := f32 (fieldOf b 32 4)
  let it := f32 (fieldOf b 36 4)
  let grp := fieldOf b 48 1
  v == 0 || decide (v > 2 ^ 24) || k == 0 || decide (k > 256) || decide (fieldOf b 30 1 > 1) || decide (fieldOf b 31 1 > 2)
    || !(pth.isFinite && vlt (.num false 0 1) pth && !vlt (.num false 1 1) pth)
    || !(it.isFinite && vlt (.num false 0 1) it)
    || (grp != 0xFF && (tabGet (s.prunerOf die).groups grp).isNone) || fieldOf b 49 15 != 0

/-- A group record (R351); a redefinition while a step of the group is outstanding. -/
def State.groupBad (s : State) (die : Nat) (b : Bytes) : Bool :=
  let n := fieldOf b 1 1
  let gid := fieldOf b 0 1
  decide (gid > 63) || n == 0 || decide (n > 64) || fieldOf b 2 6 != 0
    || (List.range n).any (fun i =>
      let w := fieldOf b (8 + 4 * i) 4
      w != bitF w 27 16 * 2 ^ 16 + w % 16)
    || (s.prunerOf die).steps.any (fun p => !p.commit && p.grp == gid)

/-- Whether an operand or record is malformed. -/
def State.cmdMalformed (s : State) (c : CmdIn) (b : Bytes) : Bool :=
  let cfn := kCfn c.word
  match kOp c.word with
  | 0x40 => patBad b
  | 0x41 => strmBad (cfn / 16 % 2 == 1) c.xb || (tabGet (s.qcc c.q).g (cfn % 16)).isNone
  | 0x42 => cfn / 512 == 0 && nodeBad (rec256 b)
  | 0x45 => s.switchBad c b
  | 0x47 => match s.image? c.ctx with | some im => !im.markers.any (fun m => m.1 == cfn) | none => true
  | 0x4A => s.scanBad c b
  | 0x4B => c.xb / 4 != 0 || (s.riddleOf (c.q / 4)).ctx != some c.ctx || decide (c.xb ≥ (s.riddleOf (c.q / 4)).descs.length)
  | 0x4C =>
    if cfn = 0 then s.topkBad (c.q / 64) b
    else if cfn = 1 then s.groupBad (c.q / 64) b
    else if cfn = 2 then fieldOf b 24 2 == 0 || decide (fieldOf b 24 2 > 64) || fieldOf b 26 6 != 0
    else true
  | 0x4D => cfn % 2 == 1 && decide (c.xb > 255)
  | 0x4F => decide (c.xb > 31)
  | 0x50 => decide (c.xb > 31)
  | _ => false

/-! ### Resources that are busy (CMDST 3) -/

/-- Accepted scans that have not left the command queue: descriptor, STREAM, SVB. -/
def Qcc.queuedScans (k : Qcc) : List (Nat × Nat × Nat) :=
  (k.cmds.filter fun c => c.st == .queued && kOp c.word == 0x4A && kCfn c.word / 512 == 0).map fun c =>
    (c.xb.toNat, fieldOf c.record 6 2, fieldOf c.record 4 2)

/-- Scans running or accepted: descriptor, STREAM, SVB. -/
def State.scansOn (s : State) (q : Nat) : List (Nat × Nat × Nat) :=
  ((s.graftOf q).scans.map fun x => (x.2.desc, x.2.stream, x.2.svb)) ++ (s.qcc q).queuedScans

/-- Weight channels being loaded: first and number. -/
def State.loadsOn (s : State) (q : Nat) : List (Nat × Nat) :=
  (match (s.graftOf q).wload with | some l => [(l.chb, l.nch)] | none => [])
    ++ ((s.qcc q).cmds.filter fun c => c.st == .queued && kOp c.word == 0x4A && kCfn c.word / 512 == 1).map fun c =>
      (fieldOf c.record 16 2, fieldOf c.record 18 2)

/-- Whether two ranges meet. -/
def meet (a n b m : Nat) : Bool := decide (a < b + m) && decide (b < a + n)

def State.scanBusy (s : State) (c : CmdIn) (b : Bytes) : Bool :=
  let g := s.graftOf c.q
  let on := s.scansOn c.q
  if kCfn c.word / 512 = 1 then
    on.any fun x => meet (fieldOf b 16 2) (fieldOf b 18 2) (g.desc x.1).chb (g.desc x.1).nch
  else
    let ds := g.desc c.xb
    decide (on.length ≥ 8) || on.any (fun x => (x.1 == c.xb && x.2.1 == fieldOf b 6 2)
        || meet (fieldOf b 4 2) ds.nch x.2.2 (g.desc x.1).nch)
      || (s.loadsOn c.q).any fun x => meet ds.chb ds.nch x.1 x.2

/-- Whether a pattern slot has a running or queued stream. -/
def Qcc.slotBusy (k : Qcc) (i : Nat) : Bool :=
  (match tabGet k.g i with | some g => g.stream.isSome | none => false)
    || k.cmds.any fun c => c.st == .queued && kOp c.word == 0x41 && kCfn c.word % 16 == i

/-- Whether the resource of a command is busy. -/
def State.cmdBusy (s : State) (c : CmdIn) (b : Bytes) : Bool :=
  let k := s.qcc c.q
  let cfn := kCfn c.word
  match kOp c.word with
  | 0x40 | 0x41 => k.slotBusy (cfn % 16)
  | 0x42 =>
    (match tabGet k.graph (cfn % 64) with
    | none => false
    | some n => cfn / 512 == 0 || n.launched)
  | 0x45 => (match s.ctx? c.ctx with | some x => x.switch.isSome | none => false)
      || k.cmds.any (fun c => c.st == .queued && kOp c.word == 0x45)
  | 0x4A => s.scanBusy c b
  | 0x4B => decide ((s.riddleOf (c.q / 4)).go.length
      + (k.cmds.filter fun c => c.st == .queued && kOp c.word == 0x4B).length ≥ 16)
  | 0x4C => cfn == 0 && decide ((s.prunerOf (c.q / 64)).steps.length
      + (k.cmds.filter fun c => c.st == .queued && kOp c.word == 0x4C).length ≥ 32)
  | _ => false

/-! ### Acceptance (R293) -/

/-- What an issue comes to: CMDST, a trap while the record is read, or a wait for a union. -/
inductive Accepted where
  | st (code : Nat) (s : State)
  | trap (code : Nat) (s : State)
  | wait (s : State)

/-- Commands that act at acceptance and take no queue entry (R294). -/
def kImmediate (op : Nat) : Bool := op == 0x40 || op == 0x42 || op == 0x4F

/-- Entries of the command queue in use. -/
def Qcc.queued (k : Qcc) : Nat := (k.cmds.filter fun c => c.st == .queued).length

/-- What an immediate command writes (R295, R297, R430). -/
def State.cmdNow (s : State) (c : CmdIn) (b : Bytes) (set : Handle) : State :=
  let k := s.qcc c.q
  let cfn := kCfn c.word
  match kOp c.word with
  | 0x40 => s.setQcc c.q { k with g := tabPut k.g (cfn % 16) { pattern := BitVec.ofNat 256 (rec256 b), stream := none } }
  | 0x42 =>
    if cfn / 512 = 1 then s.setQcc c.q { k with graph := tabDel k.graph (cfn % 64) }
    else
      let n : GNode := { record := BitVec.ofNat 256 (rec256 b), pred := bitF (rec256 b) 247 240, launched := false,
                         copied := 0, got := none, set := set, gvahi := c.gvahi, result := none }
      s.setQcc c.q { k with graph := tabPut k.graph (cfn % 64) n }
  | 0x4F => { s with pmtol := tabPut s.pmtol c.xb c.xc }
  | _ => s

/-- A command is accepted or refused. Malformed operands are found first, then a full queue, then a busy resource
(notes/assumptions/21.md). -/
def State.accept (s : State) (c : CmdIn) : Accepted :=
  let op := kOp c.word
  let n := s.recSize c
  if (kNotifies op && !notifyOk c.xc) || (n != 0 && (c.xs % 8 != 0 || decide (c.xs + n > 65536))) then .st 2 s
  else if n ≠ 0 ∧ s.uncIn .control (c.q * 65536 + c.xs) n then .trap 0x20 (s.readErrs .control (c.q * 65536 + c.xs) n c.ctx)
  else
    let s := if n = 0 then s else s.readErrs .control (c.q * 65536 + c.xs) n c.ctx
    let b := s.ctlBytes c.q c.xs n
    if s.cmdMalformed c b then .st 2 s
    else if !kImmediate op ∧ (s.qcc c.q).queued ≥ 32 then .st 1 s
    else if s.cmdBusy c b then .st 3 s
    else
      match s.unionAll c.set ((if n = 0 then [] else ctlRegions c.xs n).map (s.regionSet c.q)) with
      | .ovf x y => .trap (s.ovfCode x y) (s.plateOvf x y c.ctx c.part)
      | .wait x y => .wait (s.askUnion x y c.ctx c.part)
      | .ok h =>
        if kImmediate op then .st 0 (s.cmdNow c b h)
        else
          let k := s.qcc c.q
          let e : Cmd := { id := s.nextId, word := c.word, xs := BitVec.ofNat 32 c.xs, xb := BitVec.ofNat 32 c.xb,
                           xc := BitVec.ofNat 32 c.xc, gvahi := c.gvahi, record := b, set := h, fence := false,
                           graph := c.graph, st := .queued, got := [] }
          .st 0 { s.setQcc c.q { k with cmds := k.cmds ++ [e] } with nextId := s.nextId + 1 }

/-! ### The command graph (R297) -/

def GNode.kind (n : GNode) : Nat := bitF n.record.toNat 255 248

/-- CMDFAIL (R281, R297): no task and no word at a PC stands behind it, so CHAN, PC and WORD are zero. -/
def State.cmdFail (s : State) (q node status : Nat) : State :=
  match (s.qcc q).ctx with
  | none => s
  | some ctx =>
    let record := BitVec.ofNat 128 (0x85 * 2 ^ 120 + ctx % 4096 * 2 ^ 108 + s.lfOf (s.partOf ctx) (q / 4) % 256 * 2 ^ 100
      + q % 4 * 2 ^ 98 + (node % 64 + status % 2 ^ 16 * 2 ^ 16) * 2 ^ 12)
    let h := match tabGet (s.qcc q).graph node with | some n => n.set | none => 0
    s.sendQccTrap ctx record h

def State.setNode (s : State) (q node : Nat) (n : Option GNode) : State :=
  let k := s.qcc q
  s.setQcc q { k with graph := match n with | some n => tabPut k.graph node n | none => tabDel k.graph node }

/-- A node whose PRED is 0 launches: its copy starts, its message waits to be sent, or its command is issued. A refused
command raises CMDFAIL and frees the node. -/
def State.launchNode (s : State) (q node : Nat) : State :=
  match tabGet (s.qcc q).graph node, (s.qcc q).ctx with
  | some n, some ctx =>
    if n.launched ∨ n.pred ≠ 0 then s
    else if n.kind ≠ 1 then s.setNode q node (some { n with launched := true })
    else
      let r := n.record.toNat
      let c : CmdIn := { q := q, ctx := ctx, part := s.partOf ctx, word := BitVec.ofNat 32 (bitF r 191 160), xs := bitF r 159 128,
                         xb := bitF r 127 96, xc := bitF r 95 64, gvahi := n.gvahi, set := n.set, graph := some node }
      match s.accept c with
      | .st 0 s1 => s1.setNode q node (some { n with launched := true })
      | .st e s1 => (s1.cmdFail q node e).setNode q node none
      | .trap e s1 => (s1.cmdFail q node e).setNode q node none
      | .wait s1 => s1
  | _, _ => s

/-- The valid successors of a node. -/
def GNode.succ (n : GNode) : List Nat :=
  (List.range 4).filterMap fun i =>
    let b := bitF n.record.toNat (215 + 8 * i) (208 + 8 * i)
    if b / 128 = 1 then some (b % 64) else none

/-- PRED of each successor drops by 1; one that reaches 0 launches. -/
def State.dropPreds (s : State) (q : Nat) : List Nat → State
  | [] => s
  | m :: l =>
    match tabGet (s.qcc q).graph m with
    | some x =>
      let s1 := s.setNode q m (some { x with pred := x.pred - 1 })
      (if x.pred = 1 then s1.launchNode q m else s1).dropPreds q l
    | none => s.dropPreds q l

/-- A node is complete: its successors go on, or CMDFAIL is raised; the node is free. -/
def State.nodeEnd (s : State) (q node : Nat) (n : GNode) (status : Nat) : State :=
  if status ≠ 0 then (s.cmdFail q node status).setNode q node none
  else (s.setNode q node none).dropPreds q n.succ

/-- `CMD_NODE_COMPLETE` (R297): a node launches if it still has to, sends its message, or completes. -/
def execCmdNodeComplete (quire node : Nat) (s : State) : Res :=
  match tabGet (s.qcc quire).graph node, (s.qcc quire).ctx with
  | some n, some ctx =>
    if !s.alive ctx then idle s
    else if !n.launched then
      (if n.pred = 0 ∧ s.mayIssue ctx then .next (s.launchNode quire node) else idle s)
    else match n.result with
      | some st => .next (s.nodeEnd quire node n st)
      | none =>
        if n.kind = 2 then
          let v := bitF n.record.toNat 191 160
          if !notifyOn v then .next (s.nodeEnd quire node n 0)
          else match s.pushChan quire (v % 16) (notifyMsg ctx v 0 (bitF n.record.toNat 159 128) n.set) with
            | some s1 => .next (s1.nodeEnd quire node n 0)
            | none => idle s
        else if n.kind = 0 ∧ bitF n.record.toNat 79 48 = 0 then .next (s.nodeEnd quire node n 0)
        else idle s
  | _, _ => idle s

/-- `COPY_PIECE` (R297): the copy unit reads the next 64 bytes, or writes those it has read; a fault parks the copy or
fails it. -/
def execCopyPiece (quire node : Nat) (s : State) : Res :=
  match tabGet (s.qcc quire).graph node, (s.qcc quire).ctx with
  | some n, some ctx =>
    let r := n.record.toNat
    if !s.mayIssue ctx ∨ !n.launched ∨ n.kind ≠ 0 ∨ n.result.isSome ∨ n.copied ≥ bitF r 79 48 then idle s
    else
      let w : Who := { ctx := ctx, part := s.partOf ctx, quire := quire, kind := 3, key := unitKey 6 quire (2 * node), parks := true }
      let w2 : Who := { w with key := unitKey 6 quire (2 * node + 1) }
      (match n.got with
      | some (v, g) =>
        (match s.unitWriteAt w2 false (bitF r 135 80 + n.copied) 64 64 v g with
        | .wait s1 => .next s1
        | .fail c s1 => .next (s1.setNode quire node (some { n with result := some c }))
        | .ok _ s1 =>
          let m := n.copied + 64
          .next (s1.setNode quire node (some { n with
            copied := m, got := none, result := if m ≥ bitF r 79 48 then some 0 else none })))
      | none =>
        match s.unitReadAt w false (bitF r 191 136 + n.copied) 64 64 n.set with
        | .wait s1 => .next s1
        | .fail c s1 => .next (s1.setNode quire node (some { n with result := some c }))
        | .ok (v, h) s1 =>
          match s1.union n.set h with
          | .wait a b => .next { s with unions := (s.askUnion a b ctx w.part).unions }
          | .ovf a b => .next ((s1.plateOvf a b ctx w.part).setNode quire node (some { n with result := some (s1.ovfCode a b) }))
          | .ok g => .next (s1.setNode quire node (some { n with got := some (v, g) })))
  | _, _ => idle s

/-! ### The K instructions -/

/-- A command instruction issues: CMDST is written, and an accepted `cmd` of PRED 0 launches its node. -/
def State.command (s : State) (op cfn : Nat) (rs rb rc : BitVec 5) : Res :=
  match s.running with
  | none => idle s
  | some r =>
    let c : CmdIn := { q := r.q, ctx := r.ctx, part := r.part, word := BitVec.ofNat 32 (numR op rs rb rc cfn), xs := r.reg rs,
                       xb := r.reg rb, xc := r.reg rc, gvahi := r.k.gvahi, set := r.t.set, graph := none }
    match s.accept c with
    | .trap e s1 => s1.trapHere r e (r.reg rs)
    | .wait s1 => .next s1
    | .st code s1 =>
      let s2 := s1.modCur fun k => { k with cmdst := code }.go (k.pc + 4)
      .next (if code = 0 ∧ op = 0x42 ∧ cfn < 512 then s2.launchNode r.q (cfn % 64) else s2)

/-- A command that only hypervisor tasks may issue; in another task it is ILLINS (R208, R294). -/
def State.hypCommand (s : State) (op cfn : Nat) (rs rb rc : BitVec 5) : Res :=
  match s.running with
  | none => idle s
  | some r => if r.k.hyp then s.command op cfn rs rb rc else s.trapHere r 0x81 0

/-- `fence` (R293): an entry that leaves the queue when every earlier command has completed. -/
def execQccFence (s : State) : Res :=
  match s.running with
  | none => idle s
  | some r =>
    if r.k.queued ≥ 32 then .next (s.modCur fun k => { k with cmdst := 1 }.go (k.pc + 4))
    else
      let e : Cmd := { id := s.nextId, word := 0, xs := 0, xb := 0, xc := 0, gvahi := 0, record := [], set := 0, fence := true,
                       graph := none, st := .queued, got := [] }
      .next { s.modCur fun k => { k with cmds := k.cmds ++ [e] }.go (k.pc + 4) with nextId := s.nextId + 1 }

/-- `pat` (R295). -/
def execPat (rs : BitVec 5) (slot : BitVec 4) (s : State) : Res := s.command 0x40 slot.toNat rs 0 0
/-- `strm.bind.in` (R296). -/
def execStrmBindIn (rb rc : BitVec 5) (slot : BitVec 4) (s : State) : Res := s.command 0x41 slot.toNat 0 rb rc
/-- `strm.bind.out` (R296). -/
def execStrmBindOut (rb rc : BitVec 5) (slot : BitVec 4) (s : State) : Res := s.command 0x41 (16 + slot.toNat) 0 rb rc
/-- `cmd` (R297). -/
def execCmd (rs : BitVec 5) (node : BitVec 6) (s : State) : Res := s.command 0x42 node.toNat rs 0 0
/-- `cmd.cancel` (R297). -/
def execCmdCancel (node : BitVec 6) (s : State) : Res := s.command 0x42 (512 + node.toNat) 0 0 0
/-- `launch` of a control core (R294). -/
def execQccLaunch (rs rc : BitVec 5) (s : State) : Res := s.command 0x43 0 rs 0 rc
/-- `cfg.load` (R298). -/
def execCfgLoad (rs rc : BitVec 5) (s : State) : Res := s.command 0x44 0 rs 0 rc
/-- `cfg.load.shadow` (R298). -/
def execCfgLoadShadow (rs rc : BitVec 5) (s : State) : Res := s.command 0x44 1 rs 0 rc
/-- `cfg.switch` (R298). -/
def execCfgSwitch (rs rc : BitVec 5) (s : State) : Res := s.command 0x45 0 rs 0 rc
/-- `barr` (R299). -/
def execBarr (rb rc : BitVec 5) (s : State) : Res := s.command 0x46 0 0 rb rc
/-- `mark` of a control core (R109, R294). -/
def execQccMark (marker : BitVec 10) (s : State) : Res := s.command 0x47 marker.toNat 0 0 0
/-- `tt.load` (R108). -/
def execTtLoad (rc : BitVec 5) (s : State) : Res := s.command 0x48 0 0 0 rc
/-- `tt.arm` (R108). -/
def execTtArm (rc : BitVec 5) (s : State) : Res := s.command 0x49 0 0 0 rc
/-- `scan` (R326). -/
def execScan (rs rb rc : BitVec 5) (dir si so : BitVec 1) (form : BitVec 2) (s : State) : Res :=
  s.command 0x4A (16 * dir.toNat + 8 * si.toNat + 4 * so.toNat + form.toNat) rs rb rc
/-- `scan.wload` (R328): rb is x0. -/
def execScanWload (rs rc : BitVec 5) (dir si so : BitVec 1) (form : BitVec 2) (s : State) : Res :=
  s.command 0x4A (512 + 16 * dir.toNat + 8 * si.toNat + 4 * so.toNat + form.toNat) rs 0 rc
/-- `setx` (R340). -/
def execSetx (rs rb rc : BitVec 5) (s : State) : Res := s.command 0x4B 0 rs rb rc
/-- `topk` (R347): form 3 gives CMDST 2. -/
def execTopk (rs rc : BitVec 5) (form3 : BitVec 1) (s : State) : Res := s.command 0x4C (3 * form3.toNat) rs 0 rc
/-- `topk.group` (R351). -/
def execTopkGroup (rs rc : BitVec 5) (s : State) : Res := s.command 0x4C 1 rs 0 rc
/-- `topk.commit` (R354). -/
def execTopkCommit (rs rc : BitVec 5) (s : State) : Res := s.command 0x4C 2 rs 0 rc
/-- `clasp.req` (R99, R300). -/
def execClaspReq (rs rc : BitVec 5) (s : State) : Res := s.hypCommand 0x4D 0 rs 0 rc
/-- `clasp.revoke` (R99, R300). -/
def execClaspRevoke (rb rc : BitVec 5) (s : State) : Res := s.hypCommand 0x4D 1 0 rb rc
/-- `plate.sweep` (R93). -/
def execPlateSweep (rs rc : BitVec 5) (s : State) : Res := s.hypCommand 0x4E 0 rs 0 rc
/-- `pm.tol` (R430): completes at acceptance. -/
def execPmTol (rb rc : BitVec 5) (s : State) : Res := s.hypCommand 0x4F 0 0 rb rc

/-- `part.create` (R397). -/
def execPartCreate (rs rb rc : BitVec 5) (s : State) : Res := s.hypCommand 0x50 0 rs rb rc
/-- `part.destroy` (R397). -/
def execPartDestroy (rs rb rc : BitVec 5) (s : State) : Res := s.hypCommand 0x50 1 rs rb rc
/-- `part.fmap` (R398). -/
def execPartFmap (rs rb rc : BitVec 5) (s : State) : Res := s.hypCommand 0x50 2 rs rb rc
/-- `part.chan` (R400). -/
def execPartChan (rs rb rc : BitVec 5) (s : State) : Res := s.hypCommand 0x50 3 rs rb rc
/-- `part.ptroot` (R397). -/
def execPartPtroot (rs rb rc : BitVec 5) (s : State) : Res := s.hypCommand 0x50 4 rs rb rc
/-- `part.fq` (R397). -/
def execPartFq (rs rb rc : BitVec 5) (s : State) : Res := s.hypCommand 0x50 5 rs rb rc
/-- `part.plate` (R77). -/
def execPartPlate (rs rb rc : BitVec 5) (s : State) : Res := s.hypCommand 0x50 6 rs rb rc
/-- `part.dest` (R397). -/
def execPartDest (rs rb rc : BitVec 5) (s : State) : Res := s.hypCommand 0x50 7 rs rb rc
/-- `part.vf` (R401). -/
def execPartVf (rs rb rc : BitVec 5) (s : State) : Res := s.hypCommand 0x50 8 rs rb rc
/-- `part.quota` (R399). -/
def execPartQuota (rs rb rc : BitVec 5) (s : State) : Res := s.hypCommand 0x50 9 rs rb rc
/-- `part.budget` (R402). -/
def execPartBudget (rs rb rc : BitVec 5) (s : State) : Res := s.hypCommand 0x50 10 rs rb rc
/-- `part.guar` (R407). -/
def execPartGuar (rs rb rc : BitVec 5) (s : State) : Res := s.hypCommand 0x50 11 rs rb rc
/-- `part.stop` (R141). -/
def execPartStop (rs rb rc : BitVec 5) (s : State) : Res := s.hypCommand 0x50 12 rs rb rc
/-- `part.save` (R383). -/
def execPartSave (rs rb rc : BitVec 5) (s : State) : Res := s.hypCommand 0x50 13 rs rb rc
/-- `part.resume` (R389). -/
def execPartResume (rs rb rc : BitVec 5) (s : State) : Res := s.hypCommand 0x50 14 rs rb rc
/-- `part.event` (R89). -/
def execPartEvent (rs rb rc : BitVec 5) (s : State) : Res := s.hypCommand 0x50 15 rs rb rc

end Sys2Proof.Machine
end

