-- ==== Sys2Proof/Machine/Barrow.lean ====
section
/-! DEFINITION. The Barrows: marks, arming, entries and the movement of plots (R105 to R120, R265). -/

namespace Sys2Proof.Machine

/-! ### Marks (R109, R265) -/

/-- Indexes of the not-started entries of a marker. -/
def Timetable.waitingOn (t : Timetable) (m : Nat) : List Nat :=
  (List.range t.entries.length).filter fun i =>
    match t.entries[i]? with | some e => e.marker == m && t.entrySt i == .notStarted | none => false

/-- A marker is reached: its not-started entries become ready and are to be handed to their Barrows (R110). -/
def Timetable.reach (t : Timetable) (m : Nat) : Timetable :=
  let l := t.waitingOn m
  { t with st := l.foldl (fun st i => tabPut st i .ready) t.st, handoff := t.handoff ++ l }

/-- An excess mark (R109): counted, and a fabric fault in a strict context (R379; notes/assumptions/28.md). -/
def State.excessMark (s : State) (m : MarkMsg) : State :=
  let s1 := s.modCtx m.ctx fun c => { c with fault := { c.fault with excess := satAdd c.fault.excess 1 } }
  if !s.strict m.ctx then s1
  else match m.node with
    | some (pos, _, node) => s1.fabricFault m.ctx (s.nodeRec 0x69 m.ctx pos node 0) (s.logOf (s.partOf m.ctx) pos) node 0
    | none =>
      let q := match m.cmd with | some (q, _) => q | none => 0
      s1.fabricFault m.ctx (s.unitRec 0x69 m.ctx q 5 0) 0 0xFF 0

/-- A mark is counted by the home Barrow of its context. -/
def State.countMark (s : State) (m : MarkMsg) : State :=
  match s.timetable m.ctx with
  | none => s.excessMark m
  | some t =>
    if !t.armed ∨ s.reached t m.marker = true then s.excessMark m
    else
      let n := tabNum t.counts m.marker + 1
      s.modTable m.ctx fun t =>
        let t1 := { t with counts := tabPut t.counts m.marker n }
        if n = s.arity m.ctx m.marker then t1.reach m.marker else t1

/-- `MARK_COUNT` (R109): a mark is counted; a `mark` command then completes. -/
def execMarkCount (idx : Nat) (s : State) : Res :=
  match s.marks[idx]? with
  | none => idle s
  | some m =>
    if m.counted then idle s
    else if !s.alive m.ctx then .next ({ s with marks := listDrop s.marks idx }.discardN m.ctx 1)
    else
      let s1 := s.countMark m
      match m.cmd with
      | some (q, id) => .next ({ s1 with marks := listDrop s.marks idx }.cmdDone q id 0 0)
      | none => .next { s1 with marks := listMod s.marks idx fun m => { m with counted := true } }

/-- `MARK_RETURN` (R265): the return of a counted mark reaches its node, which emits. -/
def execMarkReturn (idx : Nat) (s : State) : Res :=
  match s.marks[idx]? with
  | none => idle s
  | some m =>
    if !m.counted then idle s
    else
      let s1 := { s with marks := listDrop s.marks idx }
      match m.node with
      | none => .next s1
      | some (pos, slotIx, node) =>
        match s.fireAt pos slotIx node with
        | some f => if s.alive m.ctx then .next (s1.emitAll f m.out) else .next (s1.discardN m.ctx 1)
        | none => .next s1

/-! ### Loading and arming (R108) -/

/-- Whether an entry, or a part of one, of a context has started, or counts as started (R117). -/
def State.barrowBusy (s : State) (ctx : Nat) : Bool :=
  s.barrow.any fun q => q.2.running.any fun r => r.ctx == ctx && (r.started || r.ahead)

/-- A timetable comes into its home Barrow: status 2 without one in the image, 1 when 64 are loaded. -/
def State.ttLoad (s : State) (ctx : Nat) : Nat × State :=
  match s.image? ctx with
  | none => (2, s)
  | some im =>
    if im.mode = 2 then (2, s)
    else
      let d := s.homeDie ctx
      let b := s.barrowOf d
      let rest := b.tables.filter fun t => t.ctx != ctx
      if rest.length ≥ 64 then (1, s)
      else
        let t : Timetable := { ctx := ctx, entries := im.tt, st := [], armed := false, counts := [], handoff := [], arming := none }
        (0, s.setBarrow d { b with tables := rest ++ [t] })

/-- `TT_ARM_RESET` (R108): once no entry runs, entry states and counts are reset and markers of arity 0 are reached. -/
def execTtArmReset (ctx : Nat) (s : State) : Res :=
  match s.timetable ctx with
  | none => idle s
  | some t =>
    match t.arming with
    | none => idle s
    | some (q, id) =>
      if s.barrowBusy ctx ∨ !s.mayIssue ctx then idle s
      else
        let zero : List Nat := match s.image? ctx with | some im => (im.markers.filter (·.2 == 0)).map (·.1) | none => []
        let s1 : State :=
          { s with barrow := s.barrow.map fun b => (b.1, { b.2 with running := b.2.running.filter (·.ctx != ctx) }) }
        let s2 := s1.modTable ctx fun t =>
          zero.foldl Timetable.reach { t with st := [], counts := [], handoff := [], armed := true, arming := none }
        .next (s2.cmdDone q id 0 0)

/-! ### Hand-off and start of entries (R110, R111) -/

/-- Every entry whose hand-off is on its way: context and entry. -/
def State.handoffs (s : State) : List (Nat × Nat) :=
  s.barrow.flatMap fun b => b.2.tables.flatMap fun t => t.handoff.map fun i => (t.ctx, i)

/-- `ENTRY_HANDOFF` (R110). -/
def execEntryHandoff (idx : Nat) (s : State) : Res :=
  match s.handoffs[idx]? with
  | none => idle s
  | some (ctx, i) =>
    match s.timetable ctx with
    | none => idle s
    | some t =>
      match t.entries[i]? with
      | none => idle s
      | some e =>
        if !s.mayIssue ctx then idle s
        else .next ((s.modTable ctx fun t => { t with handoff := t.handoff.filter (· != i) }).handEntry ctx i e.plots false 16)

/-- An entry of a context's timetable. -/
def State.ttEntry (s : State) (ctx i : Nat) : Option TtEntry :=
  match s.timetable ctx with | some t => t.entries[i]? | none => none

/-- The tier hint of the page at a VA; 0 when no leaf maps it (R63). -/
def State.tierHint (s : State) (part va : Nat) : Nat :=
  match s.walkFrom va 0 4 0 (s.ptroot part) with
  | .leaf _ e _ => bitF e 47 46
  | _ => 0

/-- The place of an entry in the order of R111; entries that a miss has put ahead go first (R117). -/
def State.startRank (s : State) (r : Running) : Nat :=
  match s.ttEntry r.ctx r.entry with
  | none => 0
  | some e =>
    let hint := if e.action = .evict ∧ e.dtier = 1 then
        (match s.tierHint (s.partOf r.ctx) e.daddr with | 2 => 0 | 0 => 1 | 3 => 2 | _ => 3)
      else 1
    let cls := match e.action with | .fetch => 0 | .evict => 1 | _ => 2
    (((if r.ahead then 0 else 4) + cls) * 4 + hint) * 2 ^ 14 + r.entry

/-- Whether an earlier entry of the table that covers a common plot is still to be done here. -/
def Barrow.behind (b : Barrow) (r : Running) : Bool :=
  b.running.any fun o => o.ctx == r.ctx && decide (o.entry < r.entry) && o.plots.any (r.plots.contains ·)

/-- The best entry that may start: its rank and index; the first of equal ranks. -/
def bestStart (s : State) (b : Barrow) : List Running → Nat → Option (Nat × Nat)
  | [], _ => none
  | r :: l, i =>
    let rest := bestStart s b l (i + 1)
    if r.started || b.behind r || !s.mayIssue r.ctx then rest
    else
      let k := s.startRank r
      match rest with
      | some (k', j) => if k ≤ k' then some (k, i) else some (k', j)
      | none => some (k, i)

def Barrow.startedCount (b : Barrow) : Nat := (b.running.filter (·.started)).length

/-- An entry's state in its timetable. -/
def State.setEntry (s : State) (ctx i : Nat) (st : EntrySt) : State :=
  s.modTable ctx fun t => { t with st := tabPut t.st i st }

/-- A part of an entry starts. A plot of a done entry that is fetched again leaves it done. -/
def State.startRun (s : State) (die i : Nat) : State :=
  let b := s.barrowOf die
  match b.running[i]? with
  | none => s
  | some r =>
    let s1 := s.setBarrow die { b with running := listMod b.running i fun r => { r with started := true } }
    match s.timetable r.ctx with
    | some t => (match t.entrySt r.entry with | .done | .failed _ => s1 | _ => s1.setEntry r.ctx r.entry .running)
    | none => s1

/-- `BARROW_ENTRY_START` (R111). -/
def execBarrowEntryStart (die : Nat) (s : State) : Res :=
  let b := s.barrowOf die
  if b.startedCount ≥ 16 then idle s
  else match bestStart s b b.running 0 with
    | some (_, i) => .next (s.startRun die i)
    | none => idle s

/-- Whether entry `i` of a timetable may start early on a die: every earlier entry that covers a common plot is done. -/
def State.earlyOk (s : State) (die : Nat) (t : Timetable) (i : Nat) (e : TtEntry) : Bool :=
  e.action == .fetch && e.early && t.entrySt i == .notStarted && e.plots.any (fun p => s.plotDie t.ctx p == die)
    && s.mayIssue t.ctx && s.tierHint (s.partOf t.ctx) e.saddr != 3
    && (List.range i).all fun j =>
      match t.entries[j]? with
      | some o => t.entrySt j == .done || !(decide (o.plot0 < e.plot0 + e.length) && decide (e.plot0 < o.plot0 + o.length))
      | none => true

/-- The first entry, in table order, that may start early on a die. -/
def State.earlyEntry (s : State) (die : Nat) : Option (Nat × Nat) :=
  (s.barrow.flatMap fun b => b.2.tables).findSome? fun t =>
    if !t.armed then none
    else (List.range t.entries.length).findSome? fun i =>
      match t.entries[i]? with
      | some e => if s.earlyOk die t i e then some (t.ctx, i) else none
      | none => none

/-- `EARLY_FETCH_START` (R111): a Barrow without a ready entry starts an EARLY fetch. -/
def execEarlyFetchStart (die : Nat) (s : State) : Res :=
  let b := s.barrowOf die
  if b.startedCount ≥ 16 ∨ b.running.any (fun r => !r.started) then idle s
  else match s.earlyEntry die with
    | none => idle s
    | some (ctx, i) =>
      match s.ttEntry ctx i with
      | none => idle s
      | some e =>
        let s1 := (s.setEntry ctx i .running).handEntry ctx i e.plots false 16
        .next (s1.startRun die ((s1.barrowOf die).running.length - 1))

/-! ### The end of a plot and of an entry (R110, R117, R118) -/

/-- Every access attached to a plot ends with a code; the plot leaves the miss list. -/
def State.endMiss (s : State) (ctx p code : Nat) : State :=
  match s.missPlot ctx p with
  | none => s
  | some m =>
    let d := s.plotDie ctx p
    let b := s.barrowOf d
    let s1 := s.setBarrow d { b with misses := b.misses.filter fun m => !(m.ctx == ctx && m.lplot == p) }
    m.accs.foldl (fun s id =>
      match s.acc? id with
      | some a =>
        let va := match a.lanes.find? (fun l => l.va % 2 ^ 32 / 4096 == p) with | some l => l.va | none => p * 4096
        s.accFail id (s.laneRec a code va)
      | none => s) s1

/-- Every miss of a context on the plots of a failed fetch ends with its code. -/
def State.endMisses (s : State) (ctx : Nat) (e : TtEntry) (code : Nat) : State :=
  (s.barrow.flatMap fun b => (b.2.misses.filter fun m => m.ctx == ctx && e.covers m.lplot).map (·.lplot)).foldl
    (fun s p =>
      match s.physPlot (s.partOf ctx) p with
      | some n => if (s.plot n).res then s else s.endMiss ctx p code
      | none => s.endMiss ctx p code) s

/-- A part of an entry is over: the entry is done, or failed, when no other part of it is left. -/
def State.partEnd (s : State) (die i : Nat) : State :=
  let b := s.barrowOf die
  match b.running[i]? with
  | none => s
  | some r =>
    let s1 := s.setBarrow die { b with running := listDrop b.running i }
    let mine (o : Running) : Bool := o.ctx == r.ctx && o.entry == r.entry
    if s1.barrow.any (fun q => q.2.running.any mine) then
      match r.failed with
      | none => s1
      | some _ => { s1 with barrow := s1.barrow.map fun q =>
          (q.1, { q.2 with running := q.2.running.map fun o => if mine o ∧ o.failed.isNone then { o with failed := r.failed } else o }) }
    else match r.failed, s.ttEntry r.ctx r.entry with
      | some c, some e => (s1.setEntry r.ctx r.entry (.failed c)).endMisses r.ctx e c
      | some c, none => s1.setEntry r.ctx r.entry (.failed c)
      | none, _ => s1.setEntry r.ctx r.entry .done

/-- A running part changed. -/
def State.modRun (s : State) (die i : Nat) (g : Running → Running) : State :=
  let b := s.barrowOf die
  s.setBarrow die { b with running := listMod b.running i g }

/-- The Barrow goes on to the next plot of a part. -/
def State.nextPlot (s : State) (die i : Nat) : State :=
  let s1 := s.modRun die i fun r => { r with plots := r.plots.drop 1, parked := none, handle := 0 }
  match (s1.barrowOf die).running[i]? with
  | some r => if r.plots.isEmpty then s1.partEnd die i else s1
  | none => s1

/-- An entry fails for a plot (R118). The message has the record of R116 with the code (notes/assumptions/28.md). -/
def State.plotFail (s : State) (die i : Nat) (r : Running) (e : TtEntry) (p code : Nat) : State :=
  let gen := match s.physPlot (s.partOf r.ctx) p with | some n => (s.plot n).gen.toNat | none => 0
  let rec' := (missRecord (s.missMode r.ctx) 3 r.ctx p gen e.deadline r.entry 3).toNat % 2 ^ 120 + code % 256 * 2 ^ 120
  let s1 := s.sendTrap r.ctx 3 (BitVec.ofNat 128 rec') 0 0xFF 0
  let s2 := if e.action = .fetch then s1.endMiss r.ctx p code else s1
  (s2.modRun die i fun r => { r with failed := match r.failed with | some c => some c | none => some code }).nextPlot die i

/-! ### Moving a plot (R112, R113) -/

/-- Whether a bank holds an admitted access to a plot, whose RES may then not change (R475). -/
def State.plotHeld (s : State) (n : Nat) : Bool :=
  s.accs.any fun q =>
    q.2.parts.any (fun p => p.isBank && (p.st == .checked || p.st == .admitted))
      && q.2.bankLanes.any fun l => l.plots.contains n

/-- What a Barrow's event acts on: a started part with its entry, the plot and its physical number, and the unit that makes its
accesses. A context that is gated moves only the plot it is on (R120). -/
structure PlotWork where
  r : Running
  e : TtEntry
  p : Nat
  n : Nat
  w : Who
  deriving DecidableEq, Repr

/-- The work of a part, when its action is the one given; a code when the plot's folio is unmapped or its element retired. -/
def State.plotWork (s : State) (die i : Nat) (act : TtAction) : Option (PlotWork ⊕ (Running × TtEntry × Nat × Nat)) :=
  match (s.barrowOf die).running[i]? with
  | none => none
  | some r =>
    match s.ttEntry r.ctx r.entry, r.plots with
    | some e, p :: _ =>
      let part := s.partOf r.ctx
      if e.action ≠ act ∨ !r.started ∨ !s.alive r.ctx ∨ (!s.mayIssue r.ctx ∧ r.parked.isNone) then none
      else match s.mapEntry part (p / 4096) with
        | none => some (.inr (r, e, p, 0x13))
        | some m =>
          let n := m.gfolio * 4096 + p % 4096
          if m.st = .moving then none
          else if s.retiredElem (n / 64) then some (.inr (r, e, p, 0x15))
          else if s.plotHeld n || !(s.bank (n / 16)).nonQueueFree || !s.awake m.gfolio then none
          else
            some (.inl { r := r, e := e, p := p, n := n,
                         w := { ctx := r.ctx, part := part, quire := n / 1024, kind := 5, key := unitKey 4 die (n % 65536), parks := true } })
    | _, _ => none

/-- Rows of a plot are read from its source and written, from the next row on; each is noted as it is done. -/
def State.fetchRows (s : State) (die i : Nat) (x : PlotWork) (va : Nat) : Nat → Nat → Handle → Sync Handle
  | 0, _, h => .ok h s
  | k + 1, row, h =>
    match s.unitReadAt x.w false (va + 64 * row) 64 64 0 with
    | .wait s1 => .wait s1
    | .fail c s1 => .fail c s1
    | .ok (v, g) s1 =>
      match s1.union h g with
      | .ovf a b => .fail (s1.ovfCode a b) (s1.plateOvf a b x.w.ctx x.w.part)
      | .wait a b => .wait (s.askUnion a b x.w.ctx x.w.part)
      | .ok h' =>
        let pl : Place := .sram (x.n * 4096 + 64 * row)
        (((s1.writePlace pl 64 v).spend pl x.w.part).modRun die i fun r => { r with parked := some (row + 1), handle := h' }).fetchRows
          die i x va k (row + 1) h'

/-- The address in memory that a plot of an entry moves from or to. -/
def PlotWork.far (x : PlotWork) : Nat :=
  (if x.e.action = .evict then x.e.daddr else x.e.saddr) + 4096 * (x.p - x.e.plot0)

/-- The port of a plot's bank has done non-queue work. -/
def State.plotPort (s : State) (n : Nat) : State := s.bankUsed (n / 16) true

/-- `BARROW_FETCH_PLOT` (R112): the plot's rows are written, then RES is set; a resident plot is skipped. -/
def execBarrowFetchPlot (die idx : Nat) (s : State) : Res :=
  match s.plotWork die idx .fetch with
  | none => idle s
  | some (.inr (r, e, p, c)) => .next (s.plotFail die idx r e p c)
  | some (.inl x) =>
    if (s.plot x.n).res then .next (s.nextPlot die idx)
    else
      let row := x.r.parked.getD 0
      match s.fetchRows die idx x x.far (64 - row) row x.r.handle with
      | .wait s1 => .next s1
      | .fail c s1 => .next (s1.plotFail die idx x.r x.e x.p c)
      | .ok h s1 =>
        let d := s1.plot x.n
        .next (((s1.setPlot x.n { d with res := true, zero := false, handle := h, gen := d.gen + 1 }).plotPort x.n).nextPlot die idx)

/-- The plot leaves T0: RES is cleared, and 64 rows have been read. -/
def State.clearRes (s : State) (x : PlotWork) : State :=
  ((s.setPlot x.n { s.plot x.n with res := false }).charge (x.n / 65536) x.w.part 0 64).plotPort x.n

/-- The rows of a plot as writes to host memory. -/
def plotWrites (a v : Nat) : List Pcie := (List.range 64).map fun i => .write (a + 64 * i) (bytesOf 64 (v / 2 ^ (512 * i)))

/-- The next row of an evict to a peer: it is sent, or its acknowledgement has come. -/
def State.evictRow (s : State) (die i : Nat) (x : PlotWork) (row n a v : Nat) (h : Handle) : State :=
  match s.unitOut x.w.key with
  | none => s.sendOut (.unit x.w.key) x.w.ctx (some n) 1 0 (a + 64 * row) 64 (bytesOf 64 (v / 2 ^ (512 * row))) h
  | some o =>
    match o.resp with
    | none => s
    | some (0, _) =>
      let s1 := s.dropOut o.tag
      if row + 1 = 64 then s1.nextPlot die i else s1.modRun die i fun r => { r with parked := some (row + 1) }
    | some (c, _) =>
      let d := s.plot x.n
      ((s.dropOut o.tag).setPlot x.n { d with res := true, gen := d.gen + 1 }).plotFail die i x.r x.e x.p c

/-- `BARROW_EVICT_PLOT` (R112, R118): RES is cleared and the rows are copied out; a pinned plot, or one that is not resident, is
skipped. Translation and the Clasp are decided before RES changes. -/
def execBarrowEvictPlot (die idx : Nat) (s : State) : Res :=
  match s.plotWork die idx .evict with
  | none => idle s
  | some (.inr (r, e, p, c)) => .next (s.plotFail die idx r e p c)
  | some (.inl x) =>
    let d := s.plot x.n
    let src : Place := .sram (x.n * 4096)
    if x.r.parked.isNone ∧ (!d.res ∨ d.pin) then .next (s.nextPlot die idx)
    else match s.unitPlace x.w false x.far 4096 1 d.handle with
      | .wait s1 => .next s1
      | .fail c s1 => .next (s1.plotFail die idx x.r x.e x.p c)
      | .ok pl s1 =>
        let v := s1.readPlace src 4096
        if s1.readCode src 4096 ≠ 0 then
          .next ((s1.meetErrs src 4096 x.w.ctx).plotFail die idx x.r x.e x.p (s1.readCode src 4096))
        else match pl with
          | .peer n a =>
            (match x.r.parked with
            | some row => .next (s1.evictRow die idx x row n a v d.handle)
            | none =>
              match s1.clasp d.handle (s1.exitDest x.w.ctx pl) 4096 with
              | (false, s2) => .next (s2.plotFail die idx x.r x.e x.p 0x42)
              | (true, s2) => .next ((s2.clearRes x).modRun die idx fun r => { r with parked := some 0 }))
          | .host a =>
            (match s1.clasp d.handle (s1.exitDest x.w.ctx pl) 4096 with
            | (false, s2) => .next (s2.plotFail die idx x.r x.e x.p 0x42)
            | (true, s2) => .next (({ s2 with pcie := s2.pcie ++ plotWrites a v }.clearRes x).nextPlot die idx))
          | _ =>
            match (s1.meetErrs src 4096 x.w.ctx).unitWriteAt x.w false x.far 4096 4096 v d.handle with
            | .wait s2 => .next s2
            | .fail c s2 => .next (s2.plotFail die idx x.r x.e x.p c)
            | .ok _ s2 => .next (((s2.charge (pl.cost.1) x.w.part 0 378).clearRes x).nextPlot die idx)

/-- `BARROW_PIN_PLOT` (R112): PIN is set, or cleared with CLR. -/
def execBarrowPinPlot (die idx : Nat) (s : State) : Res :=
  match s.plotWork die idx .pin with
  | none => idle s
  | some (.inr (r, e, p, c)) => .next (s.plotFail die idx r e p c)
  | some (.inl x) => .next (((s.setPlot x.n { s.plot x.n with pin := !x.e.clr }).plotPort x.n).nextPlot die idx)

/-- `BARROW_DROP_PLOT` (R112): RES is cleared unless the plot is pinned. -/
def execBarrowDropPlot (die idx : Nat) (s : State) : Res :=
  match s.plotWork die idx .drop with
  | none => idle s
  | some (.inr (r, e, p, c)) => .next (s.plotFail die idx r e p c)
  | some (.inl x) =>
    let d := s.plot x.n
    .next ((if d.pin then s else (s.setPlot x.n { d with res := false }).plotPort x.n).nextPlot die idx)

end Sys2Proof.Machine
end

