-- ==== Sys2Proof/Machine/ImageRead.lean ====
section
/-! DEFINITION. The bytes of a configuration image as records (R215 to R219). -/

namespace Sys2Proof.Machine

/-- One check of the loader, as it fails: reason, byte offset of the failing word within its record, and detail (R220). -/
structure Chk where
  bad : Bool
  reason : Nat
  off : Nat
  detail : Nat

/-- The first check that fails. -/
def firstBad (l : List Chk) : Option Chk := l.find? (·.bad)

/-- The fault record of R220. -/
def cfgRecord (reason sect rec word detail : Nat) : BitVec 128 :=
  BitVec.ofNat 128 (0x80 * 2 ^ 120 + reason % 256 * 2 ^ 112 + sect % 256 * 2 ^ 104 + rec % 2 ^ 32 * 2 ^ 72
    + word % 2 ^ 24 * 2 ^ 48 + detail % 2 ^ 48)

/-- A POS or a node as the detail of a fault record: laid out as a node reference (R216). -/
def nodeDetail (pos node : Nat) : Nat := pos * 2 ^ 16 + node

/-- A number raised to a multiple of 8. -/
def align8 (n : Nat) : Nat := (n + 7) / 8 * 8

/-- A section of an image: its directory index, TYPE, COUNT and OFFSET (R215). -/
structure Sect where
  ix : Nat
  ty : Nat
  count : Nat
  off : Nat
  deriving DecidableEq, Repr

/-- The directory. -/
def sectsOf (b : Bytes) : List Sect :=
  (List.range (fieldOf b 0x12 2)).map fun i =>
    { ix := i, ty := fieldOf b (0x20 + 16 * i) 2, count := fieldOf b (0x24 + 16 * i) 4, off := fieldOf b (0x28 + 16 * i) 8 }

/-- The section of a type. -/
def sectOf (b : Bytes) (ty : Nat) : Option Sect := (sectsOf b).find? (·.ty == ty)

/-- Directory index of the section of a type; 0xFF when there is none. -/
def sectIx (b : Bytes) (ty : Nat) : Nat := match sectOf b ty with | some s => s.ix | none => 0xFF

/-- Bytes of a record of a section at an offset (R216 to R218); DECL stands apart. -/
def recBytes (b : Bytes) (ty off : Nat) : Nat :=
  match ty with
  | 2 => 2048
  | 3 => 8 + 8 * fieldOf b (off + 2) 2
  | 4 | 5 => 8 + 64 * fieldOf b (off + 2) 2
  | 6 => 32 + align8 (fieldOf b (off + 8) 4)
  | _ => 32

/-- Offsets of the records of a section from an offset on. -/
def recOffs (b : Bytes) (ty : Nat) : Nat → Nat → List Nat
  | 0, _ => []
  | n + 1, off => off :: recOffs b ty n (off + recBytes b ty off)

/-- Offsets of all records of the section of a type. -/
def recsOf (b : Bytes) (ty : Nat) : List Nat :=
  match sectOf b ty with | some s => recOffs b ty s.count s.off | none => []

/-- The end of a list of records. -/
def recEnd (b : Bytes) (ty : Nat) : Nat → Nat → Nat
  | 0, off => off
  | n + 1, off => recEnd b ty n (off + recBytes b ty off)

/-! ### The declaration block (R219) -/

/-- Offset of the DECL section. -/
def declAt (b : Bytes) : Nat := match sectOf b 1 with | some s => s.off | none => 0

/-- A 2-byte count of the DECL header by number: 0 NMARK, 1 NSHARE, 2 NRES, 3 NREG, 4 NYIELD, 5 NIDEM. -/
def declCount (b : Bytes) (i : Nat) : Nat := fieldOf b (declAt b + 4 + 2 * i) 2

def declNact (b : Bytes) : Nat := fieldOf b (declAt b + 2) 1

/-- Offsets of the tables, each a multiple of 8: activations, markers, shares, reservations, regions. -/
def actsAt (b : Bytes) : Nat := declAt b + 64
def marksAt (b : Bytes) : Nat := actsAt b + 8 * declNact b
def sharesAt (b : Bytes) : Nat := marksAt b + align8 (4 * declCount b 0)
def resAt (b : Bytes) : Nat := sharesAt b + align8 (4 * declCount b 1)
def regsAt (b : Bytes) : Nat := resAt b + align8 (4 * declCount b 2)

/-- The paths of a region: each a count and that many edge names. The end of them too. -/
def pathsOf (b : Bytes) : Nat → Nat → List (List Nat) × Nat
  | 0, off => ([], off)
  | n + 1, off =>
    let c := fieldOf b off 2
    let r := pathsOf b n (off + 2 + 2 * c)
    (((List.range c).map fun i => fieldOf b (off + 2 + 2 * i) 2) :: r.1, r.2)

/-- A region at an offset, and the offset of the next. -/
def regionAt (b : Bytes) (off : Nat) : Region × Nat :=
  let ref (o : Nat) : Nat := fieldOf b o 3
  let p := pathsOf b (fieldOf b (off + 7) 1) (off + 8)
  ({ forkPos := bitF (ref off) 21 8, forkNode := ref off % 256, joinPos := bitF (ref (off + 3)) 21 8,
     joinNode := ref (off + 3) % 256, buffering := fieldOf b (off + 6) 1 + 1, paths := p.1 },
   off + 8 + align8 (p.2 - (off + 8)))

/-- Offsets of the regions, and the offset behind them. -/
def regionOffs (b : Bytes) : Nat → Nat → List Nat × Nat
  | 0, off => ([], off)
  | n + 1, off => let r := regionOffs b n (regionAt b off).2; (off :: r.1, r.2)

def regsOf (b : Bytes) : List Nat × Nat := regionOffs b (declCount b 3) (regsAt b)
def yieldsAt (b : Bytes) : Nat := (regsOf b).2
def idemAt (b : Bytes) : Nat := yieldsAt b + align8 (4 * declCount b 4)
def residentAt (b : Bytes) : Nat := idemAt b + align8 (4 * declCount b 5)
def declEnd (b : Bytes) : Nat := residentAt b + 4 + 4 * fieldOf b (residentAt b) 4

/-- A table of 4-byte entries. -/
def wordsAt (b : Bytes) (off n : Nat) : List Nat := (List.range n).map fun i => fieldOf b (off + 4 * i) 4

def markWords (b : Bytes) : List Nat := wordsAt b (marksAt b) (declCount b 0)
def shareWords (b : Bytes) : List Nat := wordsAt b (sharesAt b) (declCount b 1)
def resWords (b : Bytes) : List Nat := wordsAt b (resAt b) (declCount b 2)
def yieldWords (b : Bytes) : List Nat := wordsAt b (yieldsAt b) (declCount b 4)
def idemWords (b : Bytes) : List Nat := wordsAt b (idemAt b) (declCount b 5)
def residentWords (b : Bytes) : List Nat := wordsAt b (residentAt b + 4) (fieldOf b (residentAt b) 4)

/-- The 64-bit descriptor of an activation (R152). -/
def actWord (b : Bytes) (i : Nat) : Nat := fieldOf b (actsAt b + 8 * i) 8

/-- An activation as declared; the declared widths are granted until R165 lowers them. -/
def actOf (w : Nat) : Act where
  parent := bitF w 63 58
  width := bitF w 57 54 + 1
  granted := bitF w 57 54 + 1
  declLanes := bitF w 49 45 + 1
  lanes := bitF w 49 45 + 1
  live := bitF w 39 24
  recursive := bitF w 23 23 == 1
  deep := false

def actsOf (b : Bytes) : List Act := (List.range (declNact b)).map fun i => actOf (actWord b i)

/-! ### Element slot records (R217) -/

def elemPos (b : Bytes) (off : Nat) : Nat := fieldOf b off 2
def elemNlit (b : Bytes) (off : Nat) : Nat := fieldOf b (off + 3) 1
def elemNinst (b : Bytes) (off : Nat) : Nat := fieldOf b (off + 4) 2
def elemNdest (b : Bytes) (off : Nat) : Nat := fieldOf b (off + 6) 1

/-- A keep register of a record: 136 bytes from 0x550 on. -/
def keepAt (b : Bytes) (off i : Nat) : Keep :=
  let o := off + 0x550 + 136 * i
  { valid := fieldOf b (o + 2) 1 == 1, fmt := fmtOf (fieldOf b o 1), wid := BitVec.ofNat 5 (fieldOf b (o + 1) 1),
    pay := BitVec.ofNat 1024 (fieldOf b (o + 8) 128), plate := 0, poison := false }

/-- A record as it stands; activations and edge counts are still to be found. -/
def elemAt (b : Bytes) (off : Nat) : ElemRec where
  pos := elemPos b off
  ftz := fieldOf b (off + 2) 1 % 2 == 1
  insts := (List.range (elemNinst b off)).map fun i => BitVec.ofNat 32 (fieldOf b (off + 0x10 + 4 * i) 4)
  lits := (List.range (elemNlit b off)).map fun i => BitVec.ofNat 32 (fieldOf b (off + 0x410 + 4 * i) 4)
  dests := (List.range (elemNdest b off)).map fun i =>
    (BitVec.ofNat 32 (fieldOf b (off + 0x450 + 8 * i) 4), BitVec.ofNat 32 (fieldOf b (off + 0x454 + 8 * i) 4))
  keeps := (List.range 4).map (keepAt b off)
  nodeAct := []
  nin := []

def elemsIn (b : Bytes) : List ElemRec := (recsOf b 2).map (elemAt b)

/-- The record of a POS. -/
def recAt (l : List ElemRec) (p : Nat) : Option ElemRec := l.find? (·.pos == p)

/-- A record as a slot, for the questions that are asked of slots. -/
def ElemRec.slot (e : ElemRec) (ctx : Nat) : Slot where
  ctx := ctx
  ftz := e.ftz
  insts := e.insts
  lits := e.lits
  dests := e.dests
  keeps := e.keeps
  nodeAct := e.nodeAct
  weight := 1
  lastIssue := 0
  share := 0
  spill := 0
  nin := e.nin
  switchIn := []
  predIn := []
  switched := []
  sent := []
  live := []
  expects := []

/-! ### Other records -/

def pressIn (b : Bytes) : List (Nat × List (BitVec 64)) :=
  (recsOf b 3).map fun o =>
    (fieldOf b o 2, (List.range (fieldOf b (o + 2) 2)).map fun i => BitVec.ofNat 64 (fieldOf b (o + 8 + 8 * i) 8))

/-- Descriptors of the Graft (section 4) or the Riddle (section 5). -/
def descsIn (b : Bytes) (ty : Nat) : List (Nat × List (BitVec 512)) :=
  (recsOf b ty).map fun o =>
    (fieldOf b o 2, (List.range (fieldOf b (o + 2) 2)).map fun i => BitVec.ofNat 512 (fieldOf b (o + 8 + 64 * i) 64))

def taskAt (b : Bytes) (o : Nat) : TaskRec where
  pos := fieldOf b o 2
  chan := fieldOf b (o + 2) 1
  prio := fieldOf b (o + 3) 1
  load := fieldOf b (o + 4) 4
  entry := fieldOf b (o + 12) 4
  code := (b.drop (o + 32)).take (fieldOf b (o + 8) 4)

def ttActionOf (n : Nat) : TtAction := match n with | 0 => .fetch | 1 => .evict | 2 => .pin | _ => .drop

/-- A timetable entry from its 256 bits (R105). -/
def ttOf (v : Nat) : TtEntry where
  marker := bitF v 255 246
  action := ttActionOf (bitF v 245 242)
  stier := bitF v 241 240
  dtier := bitF v 239 238
  deadline := bitF v 237 228
  early := bitF v 220 220 == 1
  clr := bitF v 221 221 == 1
  saddr := bitF v 191 136
  daddr := bitF v 135 80
  length := bitF v 79 64

def ttIn (b : Bytes) : List Nat := (recsOf b 7).map fun o => fieldOf b o 32

end Sys2Proof.Machine
end

