-- ==== Sys2Proof/Machine/Loader.lean ====
section
/-! DEFINITION. The loader's checks of an image's structure and records, in their order (R104 to R107, R152, R153, R195 to
R209, R215 to R221, R306, R324, R338; notes/assumptions/23.md). -/

namespace Sys2Proof.Machine

/-! ### Structure (R215, R216) -/

/-- The most records of a type in an image of `nf` logical folios. -/
def sectLimit (nf ty : Nat) : Nat :=
  match ty with | 1 => 1 | 2 => 64 * nf | 3 | 4 => 4 * nf | 5 => nf | 6 => 64 * nf | _ => 8192

def sectEnd (b : Bytes) (s : Sect) : Nat := if s.ty = 1 then declEnd b else recEnd b s.ty s.count s.off

def headerChks (b : Bytes) : List Chk :=
  let c (bad : Bool) (r off : Nat) : Chk := { bad := bad, reason := r, off := off, detail := 0 }
  let len := fieldOf b 8 8
  let ns := fieldOf b 0x12 2
  [c (fieldOf b 0 4 != 0x47584453) 1 0, c (fieldOf b 4 4 != 1) 1 4,
   c (len % 8 != 0 || decide (len > 2 ^ 32) || decide (len < 0x20 + 16 * ns)) 1 8,
   c (fieldOf b 0x10 2 == 0 || decide (fieldOf b 0x10 2 > 256)) 1 0x10, c (ns == 0 || decide (ns > 8)) 1 0x10,
   c (fieldOf b 0x14 4 != 0) 5 0x14, c (fieldOf b 0x18 4 != 0) 5 0x18, c (fieldOf b 0x1C 4 != 0) 5 0x1C]

def dirChks (b : Bytes) (s : Sect) : List Chk :=
  let c (bad : Bool) (r off : Nat) : Chk := { bad := bad, reason := r, off := off, detail := 0 }
  let earlier := (sectsOf b).take s.ix
  let last := match earlier.reverse with | p :: _ => p.ty | [] => 0
  [c (s.ty ≤ last || decide (s.ty > 7) || (s.ix == 0 && s.ty != 1)) 1 0, c (fieldOf b (0x22 + 16 * s.ix) 2 != 0) 5 0,
   c (s.count == 0 || decide (s.count > sectLimit (fieldOf b 0x10 2) s.ty)) 1 4,
   c (s.off % 8 != 0 || decide (sectEnd b s > fieldOf b 8 8) || decide (s.off < 0x20 + 16 * fieldOf b 0x12 2)
      || earlier.any (fun p => decide (p.off < sectEnd b s) && decide (s.off < sectEnd b p))) 1 8]

/-- The fault record of a failed check. -/
def Chk.record (k : Chk) (sect rec : Nat) : BitVec 128 := cfgRecord k.reason sect rec k.off k.detail

/-- Step 1 of R220: none when the structure is sound. -/
def structBad (b : Bytes) : Option (BitVec 128) :=
  match firstBad (headerChks b) with
  | some k => some (k.record 0xFF 0)
  | none => (sectsOf b).findSome? fun s => (firstBad (dirChks b s)).map fun k => k.record s.ix 0

/-! ### Activations of nodes (R151) -/

/-- Target POS of a destination entry of an element (R150). -/
def entryTarget (pos : Nat) (w : Word) : Option Nat :=
  let x := (logX pos : Int) + sext 6 (bitF w.toNat 29 24)
  let y := (logY pos : Int) + sext 6 (bitF w.toNat 23 18)
  if 0 ≤ x ∧ x ≤ 127 ∧ 0 ≤ y ∧ y ≤ 127 then some (posOfLog x.toNat y.toNat) else none

/-- The entries by which a node's results may leave: those of DX and DY and their conversion destinations (R203). -/
def nodeEntries (e : ElemRec) (w : Nat) : List (Word × Word) :=
  let at' (i : Nat) : List (Word × Word) := match e.dests[i]? with | some d => [d] | none => []
  let cv (i : Nat) : List (Word × Word) :=
    match e.dests[i]? with | some d => at' (bitF d.2.toNat 23 19) | none => []
  let one (i : Nat) : List (Word × Word) := if i = 31 then [] else at' i ++ cv i
  one (wDx w) ++ one (wDy w)

/-- The activation of the tokens that a node of activation `a` emits; 64 for none. -/
def outAct (acts : List Act) (e : ElemRec) (w a : Nat) : Nat :=
  if wOpc w = 0x08 then bitF (litOf e.lits (wLx w)) 31 26
  else if bitF w 7 4 = 6 ∨ bitF w 7 4 = 7 then
    (match acts[a]? with | some x => if x.parent = 63 then 64 else x.parent | none => 64)
  else a

/-- One pass: every node's tokens give their activation to the nodes that have none yet, in the order of the records. -/
def actPass (l : List ElemRec) (acts : List Act) (na : Tab Nat) : Tab Nat :=
  l.foldl (fun na e => ((e.insts.mapIdx fun n w => (n, w.toNat)).foldl (fun na q =>
    let a := outAct acts e q.2 ((tabGet na (e.pos * 256 + q.1)).getD 64)
    if a ≥ acts.length then na
    else (nodeEntries e q.2).foldl (fun na d =>
      match entryTarget e.pos d.1 with
      | some t =>
        let k := t * 256 + entryNode d.1
        if entryKind d.1 = 0 ∧ (destKeep d.2).isNone ∧ (tabGet na k).isNone then tabPut na k a else na
      | none => na) na) na)) na

/-- Passes until nothing changes, at most `n`. -/
def actPasses (l : List ElemRec) (acts : List Act) : Nat → Tab Nat → Tab Nat
  | 0, na => na
  | n + 1, na => let m := actPass l acts na; if m = na then na else actPasses l acts n m

/-- The activation of every node, keyed by 256 × POS + node: an image does not name it, so it is found by following the
tokens of each `alloc` (notes/assumptions/24.md). -/
def actsOfNodes (l : List ElemRec) (acts : List Act) : Tab Nat :=
  actPasses l acts (l.foldl (fun n e => n + e.insts.length) 1) []

/-- Fields along the PARENT chain of an activation (R233). -/
def chainDepth (acts : List Act) : Nat → Nat → Nat
  | 0, _ => 0
  | n + 1, a =>
    match acts[a]? with
    | none => 0
    | some x => if x.parent = 63 then 1 else if x.parent = a then 48 else 1 + chainDepth acts n x.parent

/-- Whether the PARENT chain of an activation ends, at the root or at a recursive activation. -/
def chainEnds (acts : List Act) : Nat → Nat → Bool
  | 0, _ => false
  | n + 1, a =>
    match acts[a]? with
    | none => true
    | some x => x.parent == 63 || x.parent == a || chainEnds acts n x.parent

/-! ### The declaration block (R152, R219) -/

/-- What the record checks read of the whole image. -/
structure Env where
  b : Bytes
  nf : Nat
  acts : List Act
  elems : List ElemRec
  na : Tab Nat
  markers : List (Nat × Nat)

def envOf (b : Bytes) : Env :=
  let acts := actsOf b
  let elems := elemsIn b
  { b := b, nf := fieldOf b 0x10 2, acts := acts, elems := elems, na := actsOfNodes elems acts,
    markers := (markWords b).map fun w => (bitF w 25 16, w % 65536) }

/-- Whether a POS lies outside the image's folios. -/
def Env.outside (v : Env) (p : Nat) : Bool := decide (p / 64 ≥ v.nf)

def declHeader (v : Env) : List Chk :=
  let o := declAt v.b
  let c (bad : Bool) (r off d : Nat) : Chk := { bad := bad, reason := r, off := off, detail := d }
  ((List.range 12).reverse.map fun i => c (fieldOf v.b (o + 16 + 4 * i) 4 != 0) 5 (16 + 4 * i) 0)
    ++ [c (decide (declCount v.b 0 > 1024)) 0xD 4 0, c (fieldOf v.b (o + 3) 1 != 0) 5 0 0, c (decide (declNact v.b > 64)) 0xD 0 0,
        c (decide (fieldOf v.b (o + 1) 1 > 1)) 0xD 0 0,
        c (decide (fieldOf v.b o 1 > 2) || (fieldOf v.b o 1 == 2) != (sectOf v.b 7).isNone) 0xD 0 0]

def actChks (v : Env) (i : Nat) : List Chk :=
  let w := actWord v.b i
  let off := actsAt v.b - declAt v.b + 8 * i
  let c (bad : Bool) (r o : Nat) : Chk := { bad := bad, reason := r, off := off + o, detail := i }
  let p := bitF w 63 58
  [c ((p != 63 && decide (p ≥ v.acts.length)) || !chainEnds v.acts 65 i) 8 4, c (bitF w 53 50 != 0) 8 4, c (bitF w 44 40 != 0) 8 4,
   c (bitF w 39 24 == 0) 8 0, c ((bitF w 23 23 == 1) != (p == i)) 8 0, c (bitF w 22 22 != 0) 8 0, c (bitF w 21 0 != 0) 5 0]

/-- A table of 4-byte entries, last entry first. -/
def wordChks (v : Env) (start : Nat) (l : List Nat) (g : Nat → Nat → List (Bool × Nat × Nat)) : List Chk :=
  ((l.mapIdx fun i w => (g i w).map fun q =>
    ({ bad := q.1, reason := q.2.1, off := start - declAt v.b + 4 * i, detail := q.2.2 } : Chk)).reverse).flatten

/-- A node reference that names no node of the image (R216). -/
def Env.badRef (v : Env) (pos node : Nat) : Bool :=
  match recAt v.elems pos with | some e => decide (node ≥ e.insts.length) | none => true

def regionChks (v : Env) (o : Nat) : List Chk :=
  let r := (regionAt v.b o).1
  let off := o - declAt v.b
  let d := nodeDetail r.joinPos r.joinNode
  let c (bad : Bool) (rs w : Nat) : Chk := { bad := bad, reason := rs, off := off + w, detail := d }
  [c (bitF (fieldOf v.b (o + 3) 3) 23 22 != 0) 5 4, c (v.badRef r.joinPos r.joinNode) 0xD 4,
   c (bitF (fieldOf v.b o 3) 23 22 != 0) 5 0, c (v.badRef r.forkPos r.forkNode) 0xD 0]

def declChks (v : Env) : List Chk :=
  let b := v.b
  wordChks v (residentAt b + 4) (residentWords b) (fun _ w => [(decide (w ≥ 4096 * v.nf), 0xD, w)])
    ++ wordChks v (idemAt b) (idemWords b) (fun _ w =>
        [(bitF w 31 30 != 0, 5, 0), (v.badRef (bitF w 29 16) (w % 256), 0xD, nodeDetail (bitF w 29 16) (w % 256))])
    ++ wordChks v (yieldsAt b) (yieldWords b) (fun _ w =>
        [(bitF w 31 30 != 0, 5, 0), (v.badRef (bitF w 29 16) (w % 256), 0xD, nodeDetail (bitF w 29 16) (w % 256)),
         (bitF w 15 8 != 0, 5, 0)])
    ++ ((regsOf b).1.reverse.flatMap (regionChks v))
    ++ wordChks v (resAt b) (resWords b) (fun i w =>
        [(bitF w 31 30 != 0, 5, 0),
         (v.outside (bitF w 29 16) || bitF w 29 16 % 16 != 0 || ((resWords b).take i).any (fun u => bitF u 29 16 == bitF w 29 16),
          0xD, nodeDetail (bitF w 29 16) 0),
         (bitF w 15 15 != 0, 5, 0), (decide (w % 32768 > 16384), 0xD, nodeDetail (bitF w 29 16) 0)])
    ++ wordChks v (sharesAt b) (shareWords b) (fun i w =>
        [(bitF w 31 30 != 0, 5, 0),
         (v.outside (bitF w 29 16) || ((shareWords b).take i).any (fun u => bitF u 29 16 == bitF w 29 16), 0xD,
          nodeDetail (bitF w 29 16) 0),
         (bitF w 15 9 != 0, 5, 0), (decide (w % 512 > 256), 0xD, nodeDetail (bitF w 29 16) 0)])
    ++ wordChks v (marksAt b) (markWords b) (fun i w =>
        [(bitF w 31 26 != 0, 5, 0), (((markWords b).take i).any (fun u => bitF u 25 16 == bitF w 25 16), 0xE, bitF w 25 16)])
    ++ ((List.range v.acts.length).reverse.flatMap (actChks v)) ++ declHeader v

/-! ### Element words and control words (R153, R195 to R201, R223, R227 to R272) -/

/-- The bits of a control word that its opcode reserves. -/
def cwReserved (opc : Nat) : Nat :=
  if 0x90 ≤ opc ∧ opc ≤ 0xAA then 0x1FF
  else match opc with
    | 0x08 => 0x03FFFFFF
    | 0x0A | 0x0B => 0x1FFFFF
    | 0x0C => 0xFFFFF
    | 0x0D => 0x07FF0000
    | 0x10 => 0x7FFFFFFF
    | 0x24 | 0x37 | 0x43 | 0x63 => if opc < 0x40 then 0x1FFFFFFF else 0x07FFFFFF
    | 0x80 => 0x3FFFFF
    | 0x81 => 0x0FFFFFFF
    | 0x82 => 0xFFFFFF
    | 0xB7 => 0x3FFFFF
    | 0xB8 => 0xFFFFFF
    | 0xBA => 0x3FFFFF
    | 0xBD => 0x3FFFF
    | _ => 0

/-- Formats that an atomic's DFMT may name (R256). -/
def aopFmts (aop : Nat) : List Nat :=
  match aop with | 1 => [0] | 2 | 3 => [6] | 9 | 10 => [0, 6, 7] | _ => [6, 7]

/-- POS and node of the `alloc` of an activation: the first in the order of the records. -/
def Env.allocOf (v : Env) (act : Nat) : Option (Nat × Nat) := allocIn act v.elems

/-- The checks of a control word's fields beyond its reserved bits: whether one fails, and its reason, by opcode. -/
def cwFields (v : Env) (e : ElemRec) (n w cw act : Nat) : List (Bool × Nat) :=
  let opc := wOpc w
  let na := v.acts.length
  let depth := chainDepth v.acts 48 act
  let silent := wDx w == 31 && wDy w == 31
  if 0x90 ≤ opc ∧ opc ≤ 0xAA then
    let f := bitF cw 28 26
    let aop := bitF cw 12 9
    let form := opc % 8 + 8 * (opc / 16 - 9)
    let tf := bitF cw 25 25 == 1
    [(decide (bitF cw 31 29 > 5), 7),
     ((decide (4 ≤ form ∧ form ≤ 6) && f != 0) || (form == 7 && f != 7)
       || ((form == 0 || form == 1 || form == 8 || form == 9) && (f == 4 || f == 5))
       || (form == 10 && !(aopFmts aop).contains f), 7),
     (tf && (decide (bitF cw 24 19 < bitF cw 18 13) || decide (bitF cw 24 19 > 47)), 7),
     (!tf && (bitF cw 24 19 != 0 || bitF cw 18 13 != 0), 5), (if form = 10 then decide (aop > 10) else aop != 0, 7)]
  else match opc with
    | 0x08 =>
      let x := bitF cw 31 26
      let par := match v.acts[x]? with | some a => a.parent | none => 63
      [(decide (x ≥ na) || v.allocOf x != some (e.pos, n) || act != (if par = 63 then 64 else par), 8)]
    | 0x0A | 0x0B => [(decide (bitF cw 31 26 ≥ na), 8)]
    | 0x0C =>
      let wh := bitF cw 31 30
      let x := bitF cw 25 20
      [(wh == 3, 7), (wh == 0 && decide (bitF cw 29 26 ≥ depth), 7), (wh != 0 && bitF cw 29 26 != 0, 5),
       (wh != 0 && decide (x ≥ na), 8), (wh == 0 && x != 0, 5)]
    | 0x0D => [(decide (bitF cw 31 28 ≥ depth), 7), (bitF cw 27 27 == 1 && bitF cw 15 0 != 0, 5)]
    | 0x10 => [(bitF cw 31 31 == 1 && !silent, 6)]
    | 0x80 =>
      let sf := bitF cw 31 29
      let df := bitF cw 28 26
      let raw (f : Nat) : Bool := f == 0 || f == 6 || f == 7
      [((sf == 7 || df == 7) && !(raw sf && raw df), 7), (decide (bitF cw 25 23 > 4), 7)]
    | 0x81 => [(decide (bitF cw 31 29 > 1), 7)]
    | 0x82 => [(decide (bitF cw 30 28 > 3), 7), (decide (bitF cw 27 25 > 3), 7)]
    | 0xB7 => [(!v.markers.any (·.1 == bitF cw 31 22), 0xE)]
    | 0xBA =>
      let it := bitF cw 31 28
      let x := bitF cw 27 22
      [(decide (it > 5), 7), (it == 0 && (match v.allocOf x with | some q => q.1 != e.pos | none => true), 8),
       (it != 0 && x != 0, 5)]
    | 0xBD => [(decide (bitF cw 21 18 > 13), 7)]
    | _ => []

/-- Whether operand B is read, as far as the control word decides it. -/
def readsB (opc cw : Nat) : Bool :=
  match elemShape opc with
  | some sh =>
    (match sh.b with
     | .read | .pred => true
     | .none => false
     | .cw => if opc = 0x80 then bitF cw 25 23 == 4 else bitF cw 27 27 == 1)
  | none => false

/-- The selects of the operands that a node reads, with the operand of each: 0 A, 1 B, 2 C. -/
def nodeSels (opc w cw : Nat) : List (Nat × Nat) :=
  [(wSa w, 0)] ++ (if readsB opc cw then [(wSb w, 1)] else []) ++ (if opcReadsC opc then [(bitF cw 31 29, 2)] else [])

/-- Selects that are reserved or forbidden, or an arity other than 1 or 2 (R196, R197, R223, R249). -/
def selBad (sh : ElemShape) (opc w cw act na : Nat) : Bool :=
  let sels := (nodeSels opc w cw).map (·.1)
  let slots := sels.filter (· < 2)
  let arity : Nat := (if slots.contains 0 || sh.ordered then 1 else 0) + (if slots.contains 1 then 1 else 0)
  wSa w == 6 || wSa w == 7 || wSb w == 7 || (wSb w != 6) != readsB opc cw || decide (slots.length > slots.eraseDups.length)
    || (sh.b == .pred && wSb w != 1) || (sh.tokenA && decide (wSa w > 1)) || (sh.tokenB && decide (wSb w > 1))
    || (sh.high && (sels.contains 2 || wLx w == 15)) || (sh.cw && sels.contains 2 && wLx w == 15)
    || (sels.contains 3 && decide (act ≥ na)) || arity == 0

/-- A tag action that is reserved or not allowed (R153, R227, R229). -/
def taBad (v : Env) (opc w act : Nat) : Bool :=
  let ta := bitF w 7 4
  let none' := decide (act ≥ v.acts.length)
  let noParent := match v.acts[act]? with | some a => a.parent == 63 | none => true
  decide (ta > 8) || (ta == 5) != (opc == 0x08) || ((decide (1 ≤ ta ∧ ta ≤ 4) || ta == 6) && none')
    || ((ta == 7 || ta == 8) && noParent) || (opc == 0x09 && ta != 6 && ta != 7)
    || ((opc == 0x04 || opc == 0x06 || opc == 0x10) && ta != 0) || (opc == 0x07 && none')

/-- The checks of one instruction with its control word (R200). -/
def instChks (v : Env) (e : ElemRec) (n : Nat) : List Chk :=
  let w := match e.insts[n]? with | some w => w.toNat | none => 0
  let opc := wOpc w
  let act := (tabGet v.na (e.pos * 256 + n)).getD 64
  let c (bad : Bool) (r o : Nat) : Chk := { bad := bad, reason := r, off := o, detail := nodeDetail e.pos n }
  let off := 0x10 + 4 * n
  match elemShape opc with
  | none => [c true 2 off]
  | some sh =>
    let cw := if sh.cw then litOf e.lits (wLx w) else 0
    let sels := nodeSels opc w cw
    let dest (d : Nat) : Bool := d != 31 && (decide (d ≥ e.dests.length) || sh.mute)
    [c (selBad sh opc w cw act v.acts.length) 3 off,
     c (sels.any fun q => q.1 == 3 && ((decide (0x11 ≤ opc ∧ opc ≤ 0x14)) || !(nodeFmts opc cw q.2).contains .i32)) 7 off,
     c (dest (wDx w)) 6 off, c (dest (wDy w)) 6 off, c (taBad v opc w act) 4 off,
     c (wLx w != 0 && !sh.cw && !(sels.any (·.1 == 2))) 5 off]
    ++ (if sh.cw then
        (cwFields v e n w cw act).map (fun q => c q.1 q.2 (0x410 + 4 * wLx w))
          ++ [c (cw &&& cwReserved opc != 0) 5 (0x410 + 4 * wLx w)]
       else [])

/-- The checks of a destination entry and its attribute word by themselves (R202, R203, R346). -/
def destChks (e : ElemRec) (i : Nat) : List Chk :=
  let d := (e.dests[i]?).getD (0, 0)
  let en := d.1.toNat
  let at' := d.2.toNat
  let o := 0x450 + 8 * i
  let c (bad : Bool) (r off : Nat) : Chk := { bad := bad, reason := r, off := off, detail := nodeDetail e.pos 0 }
  let cv := bitF at' 23 19
  let kw := bitF at' 17 17 == 1
  let cv2 := match e.dests[cv]? with | some x => bitF x.2.toNat 23 19 | none => 31
  [c (bitF at' 31 24 != 0) 5 (o + 4), c (cv != 31 && (cv == i || decide (cv ≥ e.dests.length) || cv2 != 31)) 6 (o + 4),
   c (bitF at' 18 18 != 0) 5 (o + 4), c (kw && (en != 0 || cv != 31)) 6 (o + 4), c (bitF at' 16 15 != 0 && !kw) 5 (o + 4),
   c (bitF at' 14 0 != 0) 5 (o + 4),
   c (entryKind d.1 == 1 && decide (bitF en 17 15 > 2)) 6 o, c (entryKind d.1 == 2 && bitF en 17 14 != 0) 6 o,
   c (decide (entryKind d.1 ≥ 2) && bitF en 9 9 != 0) 5 o, c (entryKind d.1 == 3 && bitF en 8 0 != 0) 5 o]

/-- Words that must be zero, from the highest down. -/
def zeroChks (b : Bytes) (base lo hi d : Nat) : List Chk :=
  (List.range ((hi - lo) / 4)).reverse.map fun i =>
    { bad := fieldOf b (base + lo + 4 * i) 4 != 0, reason := 5, off := lo + 4 * i, detail := d }

def elemChks (v : Env) (ri base : Nat) : List Chk :=
  let b := v.b
  let e := elemAt b base
  let d := nodeDetail e.pos 0
  let ni := elemNinst b base
  let nl := elemNlit b base
  let nd := elemNdest b base
  let c (bad : Bool) (r off : Nat) : Chk := { bad := bad, reason := r, off := off, detail := d }
  let keep (i : Nat) : List Chk :=
    let o := 0x550 + 136 * i
    [c (fieldOf b (base + o + 3) 5 != 0 || decide (fieldOf b (base + o + 2) 1 > 1) || decide (fieldOf b (base + o + 1) 1 > 31)
        || decide (fieldOf b (base + o) 1 > 7)) 5 o]
  zeroChks b base 0x770 0x800 d ++ ([3, 2, 1, 0].flatMap keep)
    ++ ((List.range (min nd 32)).reverse.flatMap (destChks e))
    ++ zeroChks b base (0x410 + 4 * min nl 16) 0x450 d ++ zeroChks b base (0x10 + 4 * min ni 256) 0x410 d
    ++ ((List.range (min ni 256)).reverse.flatMap (instChks v e))
    ++ [c (fieldOf b (base + 12) 4 != 0) 5 12, c (fieldOf b (base + 8) 4 != 0) 5 8, c (fieldOf b (base + 7) 1 != 0) 5 4,
        c (decide (nd > 32)) 0xD 4, c (ni == 0 || decide (ni > 256)) 0xD 4, c (decide (nl > 16)) 0xD 0,
        c (decide (fieldOf b (base + 2) 1 > 1)) 5 0,
        c (v.outside e.pos || ((recsOf b 2).take ri).any (fun o => elemPos b o == e.pos)) 0xD 0]

/-! ### Press words, descriptors, tasks, the timetable (R105 to R107, R209, R216, R218, R306, R324, R338) -/

/-- Largest S of a format (R306). -/
def sLimit (fmt : Nat) : Nat := match fmt with | 1 => 16 | 2 | 3 => 32 | _ => 64

def pressChks (v : Env) (ri base : Nat) : List Chk :=
  let b := v.b
  let pos := fieldOf b base 2
  let nw := fieldOf b (base + 2) 2
  let c (i : Nat) (bad : Bool) (r off : Nat) : Chk := { bad := bad, reason := r, off := off, detail := nodeDetail pos i }
  let word (i : Nat) : List Chk :=
    let w := fieldOf b (base + 8 + 8 * i) 8
    let o := 8 + 8 * i
    let pop := bitF w 63 60
    let dr := pop == 2 || pop == 3
    let nd := match recAt v.elems (pos + bitF w 28 25) with | some e => e.dests.length | none => 0
    let s := bitF w 41 34 + 1
    [c i (decide (pop > 3)) 2 (o + 4),
     c i (if pop = 3 then bitF w 53 51 != 0 else bitF w 53 51 == 0 || decide (bitF w 53 51 > 3)) 7 (o + 4),
     c i (if pop = 3 then bitF w 50 48 != 0 else bitF w 50 48 == 0 || decide (bitF w 50 48 > 5)) 7 (o + 4),
     c i (pop == 3 && bitF w 47 46 != 0) 7 (o + 4), c i (if dr then decide (bitF w 45 43 > 3) else bitF w 45 43 != 0) 7 (o + 4),
     c i (!dr && bitF w 42 42 != 0) 7 (o + 4),
     c i (if pop = 3 then s != 1 else decide (s > min (sLimit (bitF w 53 51)) (sLimit (bitF w 50 48)))) 7 (o + 4),
     c i (pop == 3 && bitF w 33 29 != 0) 7 o, c i (dr && (bitF w 24 20 == 31 || decide (bitF w 24 20 ≥ nd))) 6 o,
     c i (bitF w 19 0 != 0) 5 o]
  ((List.range (min nw 16)).reverse.flatMap word)
    ++ [c 0 (fieldOf b (base + 4) 4 != 0) 5 4, c 0 (nw == 0 || decide (nw > 16)) 0xD 0,
        c 0 (v.outside pos || pos % 16 != 0 || ((recsOf b 3).take ri).any (fun o => fieldOf b o 2 == pos)) 0xD 0]

/-- Whether an engine's result entry is of KIND 0, 2 or 3 (R324, R338). -/
def resultBad (v : Env) (pos didx : Nat) : Bool :=
  match recAt v.elems pos with
  | none => true
  | some e => decide (didx > 30) || (match e.dests[didx]? with | none => true | some d => entryKind d.1 == 1)

/-- Whether two bit ranges [hi:lo] meet. -/
def fieldsMeet (h1 l1 h2 l2 : Nat) : Bool := decide (l1 ≤ h2) && decide (l2 ≤ h1)

def graftChks (v : Env) (ri base : Nat) : List Chk :=
  let b := v.b
  let pos := fieldOf b base 2
  let nd := fieldOf b (base + 2) 2
  let c (i : Nat) (bad : Bool) (r off : Nat) : Chk := { bad := bad, reason := r, off := off, detail := nodeDetail pos i }
  let desc (i : Nat) : List Chk :=
    let o := 8 + 64 * i
    let f (k : Nat) : Nat := fieldOf b (base + o + k) 1
    let nch := fieldOf b (base + o + 2) 2
    let str := f 9 != 0xFF
    let width (hi lo mx : Nat) : Bool := decide (hi > 47) || decide (hi < lo) || decide (hi + 1 - lo > mx)
    ((List.range 12).reverse.map fun k => c i (fieldOf b (base + o + 16 + 4 * k) 4 != 0) 5 (o + 16 + 4 * k))
      ++ [c i (fieldOf b (base + o + 13) 3 != 0) 5 (o + 12), c i (resultBad v (pos + f 11 % 16) (f 12)) 6 (o + 12),
          c i (decide (f 11 > 15)) 5 (o + 8),
          c i (if str then width (f 9) (f 8) 16 || fieldsMeet (f 9) (f 8) (f 5) (f 4) || fieldsMeet (f 9) (f 8) (f 7) (f 6)
               else f 8 != 0) 7 (o + 8),
          c i (width (f 7) (f 6) 8 || decide (nch > 2 ^ (f 7 + 1 - f 6)) || fieldsMeet (f 7) (f 6) (f 5) (f 4)) 7 (o + 4),
          c i (width (f 5) (f 4) 32) 7 (o + 4), c i (nch == 0 || decide (nch > 256) || decide (f 1 + nch > 256)) 0xD o,
          c i (decide (f 0 > 63)) 7 o]
  ((List.range (min nd 4)).reverse.flatMap desc)
    ++ [c 0 (fieldOf b (base + 4) 4 != 0) 5 4,
        c 0 (nd == 0 || decide (nd > 4) || v.outside pos || pos % 16 != 0
          || ((recsOf b 4).take ri).any (fun o => fieldOf b o 2 == pos)) 0xD 0]

def riddleChks (v : Env) (ri base : Nat) : List Chk :=
  let b := v.b
  let pos := fieldOf b base 2
  let nd := fieldOf b (base + 2) 2
  let c (i : Nat) (bad : Bool) (r off : Nat) : Chk := { bad := bad, reason := r, off := off, detail := nodeDetail pos i }
  let desc (i : Nat) : List Chk :=
    let o := 8 + 64 * i
    let f (k : Nat) : Nat := fieldOf b (base + o + k) 1
    ((List.range 15).reverse.map fun k => c i (fieldOf b (base + o + 4 + 4 * k) 4 != 0) 5 (o + 4 + 4 * k))
      ++ [c i (f 3 != 0) 5 o, c i (resultBad v (pos + f 1 % 64) (f 2)) 6 o, c i (decide (f 1 > 63)) 5 o, c i (decide (f 0 > 4)) 7 o]
  ((List.range (min nd 4)).reverse.flatMap desc)
    ++ [c 0 (fieldOf b (base + 4) 4 != 0) 5 4,
        c 0 (nd == 0 || decide (nd > 4) || v.outside pos || pos % 64 != 0
          || ((recsOf b 5).take ri).any (fun o => fieldOf b o 2 == pos)) 0xD 0]

def taskChks (v : Env) (base : Nat) : List Chk :=
  let b := v.b
  let pos := fieldOf b base 2
  let ld := fieldOf b (base + 4) 4
  let len := fieldOf b (base + 8) 4
  let en := fieldOf b (base + 12) 4
  let c (bad : Bool) (r off : Nat) : Chk := { bad := bad, reason := r, off := off, detail := nodeDetail pos 0 }
  ((List.range 4).reverse.map fun k => c (fieldOf b (base + 16 + 4 * k) 4 != 0) 5 (16 + 4 * k))
    ++ [c (decide (en < ld) || decide (en ≥ ld + len)) 0xD 12, c (len % 4 != 0 || decide (ld + len > 65536)) 0xD 8,
        c (ld % 4 != 0) 0xD 4, c (decide (fieldOf b (base + 3) 1 > 7)) 0xD 0, c (decide (fieldOf b (base + 2) 1 > 15)) 0xD 0,
        c (v.outside pos || pos % 16 != 0) 0xD 0]

/-- Whether `n` units of 4 KiB from an address on lie in the region of a tier (R23, R106). -/
def tierRange (tier a n nf : Nat) : Bool :=
  let r : Nat × Nat := match tier with
    | 0 => (0, min (2 ^ 32) (nf * 2 ^ 24))
    | 1 => (2 ^ 32, 2 ^ 52)
    | 2 => (2 ^ 55, 2 ^ 56)
    | _ => (2 ^ 54, 2 ^ 55)
  decide (r.1 ≤ a) && decide (a + 4096 * n ≤ r.2)

def ttChks (v : Env) (ri base : Nat) : List Chk :=
  let n := fieldOf v.b base 32
  let c (bad : Bool) (w : Nat) : Chk := { bad := bad, reason := 0xC, off := w, detail := ri }
  let declared (m : Nat) : Bool := v.markers.any (·.1 == m)
  let prev := if ri = 0 then 0 else bitF (fieldOf v.b (base - 32) 32) 255 246
  let act := bitF n 245 242
  let fe := act == 0
  let ev := act == 1
  let len := bitF n 79 64
  let sa := bitF n 191 136
  let da := bitF n 135 80
  [c (!declared (bitF n 255 246) || decide (bitF n 255 246 < prev)) 28, c (decide (act > 3)) 28,
   c ((bitF n 241 240 == 0) == fe) 28, c ((bitF n 239 238 == 0) == ev) 28,
   c (if fe then !declared (bitF n 237 228) else bitF n 237 228 != 0) 28,
   c (bitF n 227 222 != 0 || (bitF n 220 220 == 1 && !fe) || (bitF n 221 221 == 1 && act != 2)) 28,
   c (bitF n 219 192 != 0) 24,
   c (sa % 4096 != 0 || !(if fe || ev then tierRange (if fe then bitF n 241 240 else 0) sa len v.nf else sa == 0)) 20,
   c (da % 4096 != 0 || !tierRange (if ev then bitF n 239 238 else 0) da len v.nf) 16,
   c (len == 0) 8, c (bitF n 63 32 != 0) 4, c (bitF n 31 0 != 0) 0]

/-- The checks of record `ri` of a section. -/
def recChks (v : Env) (ty ri base : Nat) : List Chk :=
  match ty with
  | 1 => declChks v
  | 2 => elemChks v ri base
  | 3 => pressChks v ri base
  | 4 => graftChks v ri base
  | 5 => riddleChks v ri base
  | 6 => taskChks v base
  | _ => ttChks v ri base

/-- Tasks beyond 16 of a quire (R216). -/
def tasksBad (b : Bytes) (ri base : Nat) : Bool :=
  decide (((recsOf b 6).take ri).filter (fun o => fieldOf b o 2 == fieldOf b base 2) |>.length |> (· ≥ 16))

/-- Step 2 of R220: none when every record is sound. -/
def recordsBad (v : Env) : Option (BitVec 128) :=
  (sectsOf v.b).findSome? fun s =>
    let offs := if s.ty = 1 then [s.off] else recOffs v.b s.ty s.count s.off
    (offs.mapIdx fun ri o => (ri, o)).findSome? fun q =>
      match firstBad (recChks v s.ty q.1 q.2) with
      | some k => some (k.record s.ix q.1)
      | none => if s.ty = 6 ∧ tasksBad v.b q.1 q.2 then some (cfgRecord 0xD s.ix q.1 0 (nodeDetail (fieldOf v.b q.2 2) 0)) else none

end Sys2Proof.Machine
end

