-- ==== Sys2Proof/Machine/ImageCheck.lean ====
section
/-! DEFINITION. The loader's placement checks, the widths it grants, and the image that a load leaves (R148, R150, R152,
R165 to R168, R202 to R204, R220, R236, R305, R311; notes/assumptions/25.md). -/

namespace Sys2Proof.Machine

/-! ### Destinations (R150, R202 to R204, R224) -/

/-- An entry that sends a token to a place of the image: not KW, not KIND 3. -/
def sendsToken (d : Word × Word) : Bool := (destKeep d.2).isNone && entryKind d.1 != 3

/-- Descriptors of the engine at a POS. -/
def descCount (l : List (Nat × List (BitVec 512))) (p : Nat) : Nat :=
  match l.find? (·.1 == p) with | some q => q.2.length | none => 0

/-- Whether a port is one that its engine's chapter defines (R305, R325, R339). -/
def portOk (im : Image) (engine port t : Nat) : Bool :=
  match engine with
  | 0 => decide (port ≤ 18)
  | 1 => decide (port < 20) && decide (port / 5 < descCount im.graft (t / 16 * 16))
  | 2 => decide (port < descCount im.riddle (t / 64 * 64))
  | _ => false

/-- What an entry targets, as the key under which its edge name must be unique (R204); none when it has no target. -/
def entryKey (im : Image) (pos : Nat) (d : Word × Word) : Option (Nat × Nat × Nat) :=
  match entryTarget pos d.1 with
  | none => none
  | some t =>
    if t / 64 ≥ im.nfolio then none
    else match entryKind d.1 with
      | 0 =>
        (match recAt im.elems t with
         | some e => if entryNode d.1 < e.insts.length then some (0, t, 2 * entryNode d.1 + bitF d.1.toNat 9 9) else none
         | none => none)
      | 1 =>
        let en := entryNode d.1 / 32
        if portOk im en (entryNode d.1 % 32) t then some (1 + en, if en = 2 then t / 64 else t / 16, 0) else none
      | _ => some (5, t / 16, entryNode d.1)

/-- The FMASK bits of a list of formats (R203). -/
def maskOf (l : List Fmt) : Nat := l.foldl (fun n f => n ||| 2 ^ fmtCode f) 0

/-- FMASK of an engine port (R305, R325, R339). -/
def portMask (engine port : Nat) : Nat :=
  match engine with
  | 0 => if port < 4 then 0x0E else if port < 8 then 0x3E else if port < 16 then 0x80 else if port = 16 then 1
    else if port = 17 then 0xC0 else 0xFF
  | 1 => 1
  | _ => 0x80

/-- FMASK and PRED of an entry (R203). -/
def entryAttr (im : Image) (pos : Nat) (d : Word × Word) : Nat × Bool :=
  if !sendsToken d then (0xFF, false)
  else match entryKind d.1, entryTarget pos d.1 with
    | 0, some t =>
      (match recAt im.elems t with
       | some e =>
         let r := bitF d.1.toNat 9 9 == 1
         let sl := e.slot 0
         if sl.takesPred (entryNode d.1) r then (0xFF, true) else (maskOf (sl.slotFmts (entryNode d.1) r), false)
       | none => (0xFF, false))
    | 1, _ => (portMask (entryNode d.1 / 32) (entryNode d.1 % 32), false)
    | _, _ => (0xFF, false)

/-- Whether an opcode's result on DX (false) or DY (true) is a predicate (R148, R224). -/
def emitsPred (opc : Nat) (dy : Bool) : Bool :=
  decide (0x11 ≤ opc ∧ opc ≤ 0x14) || decide (0x38 ≤ opc ∧ opc ≤ 0x3F) || decide (0x58 ≤ opc ∧ opc ≤ 0x5F)
    || decide (0x78 ≤ opc ∧ opc ≤ 0x7F) || (dy && opc == 0x02)

/-- Whether some node sends a predicate by entry `i` where none is taken, or data where one is; data may come by a conversion
destination too. -/
def predBad (im : Image) (e : ElemRec) (i : Nat) (d : Word × Word) : Bool :=
  let pr := (entryAttr im e.pos d).2
  let via (x : Nat) : Bool := x == i || (match e.dests[x]? with | some c => bitF c.2.toNat 23 19 == i | none => false)
  e.insts.any fun w =>
    let n := w.toNat
    let one (x : Nat) (dy : Bool) : Bool :=
      x != 31 && via x && (if x == i then emitsPred (wOpc n) dy != pr && !(wOpc n == 0x10) else pr)
    one (wDx n) false || one (wDy n) true

/-- A fault of an ELEM record's entry. -/
def entryFault (b : Bytes) (ri pos i : Nat) : BitVec 128 := cfgRecord 6 (sectIx b 2) ri (0x450 + 8 * i) (nodeDetail pos 0)

/-- All entries of an image in order: record, element, index, entry. -/
def allEntries (im : Image) : List (Nat × ElemRec × Nat × (Word × Word)) :=
  ((im.elems.mapIdx fun ri e => (e.dests.mapIdx fun i d => (ri, e, i, d)))).flatten

/-- The first entry with a bad target, a duplicate edge name or the wrong network; `seen` the keys and edge names so far. -/
def entriesBad (b : Bytes) (im : Image) :
    List (Nat × ElemRec × Nat × (Word × Word)) → List ((Nat × Nat × Nat) × Nat) → Option (BitVec 128)
  | [], _ => none
  | (ri, e, i, d) :: r, seen =>
    if !sendsToken d then (if predBad im e i d then some (entryFault b ri e.pos i) else entriesBad b im r seen)
    else match entryKey im e.pos d with
      | none => some (entryFault b ri e.pos i)
      | some k =>
        let k' := (k, bitF d.1.toNat 8 0)
        if seen.contains k' || predBad im e i d then some (entryFault b ri e.pos i) else entriesBad b im r (k' :: seen)

/-- Whether the destination of a draining press word is none of the forms of R311. -/
def drainBad (im : Image) (quire : Nat) (w : BitVec 64) : Bool :=
  let n := w.toNat
  let pop := bitF n 63 60
  if pop ≠ 2 ∧ pop ≠ 3 then false
  else match recAt im.elems (quire + bitF n 28 25) with
    | none => true
    | some e =>
      match e.dests[bitF n 24 20]? with
      | none => true
      | some d =>
        if (destKeep d.2).isSome then true
        else match entryKind d.1, entryTarget e.pos d.1 with
          | 0, some t =>
            (match recAt im.elems t with
             | some x => (x.slot 0).twoSlot (entryNode d.1)
             | none => true)
          | 1, some t => entryNode d.1 != 18 || t / 16 != quire / 16
          | 0, none | 1, none => true
          | _, _ => false

/-- The first draining word with a bad destination. -/
def drainsBad (b : Bytes) (im : Image) : Option (BitVec 128) :=
  (im.press.mapIdx fun ri q => (ri, q)).findSome? fun q =>
    (q.2.2.mapIdx fun i w => (i, w)).findSome? fun w =>
      if drainBad im q.2.1 w.2 then some (cfgRecord 6 (sectIx b 3) q.1 (8 + 8 * w.1) (nodeDetail q.2.1 w.1)) else none

/-- Edge counts NIN of every slot of an image (R236), keyed by 512 × POS + 2 × node + slot. -/
def ninOf (im : Image) : Tab Nat :=
  (allEntries im).foldl (fun n q =>
    let d := q.2.2.2
    if !sendsToken d || entryKind d.1 != 0 then n
    else match entryTarget q.2.1.pos d.1 with
      | some t => tabAdd n (t * 512 + 2 * entryNode d.1 + bitF d.1.toNat 9 9) 1
      | none => n) []

/-- The image with FMASK, PRED, activations and edge counts written (R151, R203, R236). -/
def Image.derive (im : Image) (na : Tab Nat) : Image :=
  let nin := ninOf im
  { im with elems := im.elems.map fun e =>
      { e with
        dests := e.dests.map fun d =>
          let a := entryAttr im e.pos d
          (d.1, BitVec.ofNat 32 (d.2.toNat % 2 ^ 24 ||| a.1 * 2 ^ 24 ||| (if a.2 then 2 ^ 18 else 0)))
        nodeAct := (List.range e.insts.length).map fun n => (tabGet na (e.pos * 256 + n)).getD 64
        nin := (nin.filter fun q => q.1 / 512 == e.pos).map fun q => (q.1 % 512, q.2) } }

/-! ### The tag check and the widths granted (R152, R165) -/

/-- T of an activation; 1 outside every activation. -/
def actT (acts : List Act) : Nat → Nat → Nat
  | 0, _ => 1
  | n + 1, a =>
    match acts[a]? with
    | none => 1
    | some x => min x.live (if x.recursive ∨ x.parent = 63 then 1 else actT acts n x.parent) * 2 ^ x.granted

/-- Nodes of an element that the tag check counts. -/
def tagNodes (e : ElemRec) : List Nat :=
  (List.range e.insts.length).filter fun n => (e.slot 0).twoSlot n || wOpc ((e.slot 0).word n) == 0x07

/-- Payload bytes of a node at the lanes granted and its widest format; 32 lanes outside every activation. -/
def nodePayload (acts : List Act) (e : ElemRec) (n : Nat) : Nat :=
  let lanes := match acts[(e.nodeAct[n]?).getD 64]? with | some a => a.lanes | none => 32
  let sl := e.slot 0
  let r := sl.reads n
  let fs := (if r.1 ∨ sl.ordered n then sl.slotFmts n false else []) ++ (if r.2 then sl.slotFmts n true else [])
  4 * ((lanes * (fs.foldl (fun m f => max m (fmtWidth f)) 0) + 31) / 32)

/-- X(E) × G(E) of an element (R165). -/
def tagNeed (im : Image) (acts : List Act) (e : ElemRec) : Nat :=
  let ns := tagNodes e
  let d := ns.foldl (fun t n => t + actT acts 65 ((e.nodeAct[n]?).getD 64)) 0
  let g := ns.foldl (fun m n => max m (1 + (nodePayload acts e n + 31) / 32)) 0
  (d - tabNum im.shares e.pos) * g

/-- The first element at which the needs of its quire exceed V(Q). -/
def tagBad (im : Image) (acts : List Act) : Option (Nat × Nat) :=
  (im.elems.mapIdx fun ri e => (ri, e)).findSome? fun q =>
    let mine := (im.elems.take (q.1 + 1)).filter fun e => e.pos / 16 == q.2.pos / 16
    let need := mine.foldl (fun t e => t + tagNeed im acts e) 0
    if need > tabNum im.reserves (q.2.pos / 16 * 16) then some (q.1, q.2.pos) else none

/-- One step down: a bit of G of every activation that has more than 1, or else a lane of every one that has more than 1. -/
def lowerActs (acts : List Act) : Option (List Act) :=
  if acts.any (fun a => decide (a.granted > 1)) then
    some (acts.map fun a => if a.granted > 1 then { a with granted := a.granted - 1 } else a)
  else if acts.any (fun a => decide (a.lanes > 1)) then
    some (acts.map fun a => if a.lanes > 1 then { a with lanes := a.lanes - 1 } else a)
  else none

/-- The widths granted: declared ones, lowered until the tag check passes; or the element at which it fails at the last. -/
def grantActs (im : Image) : Nat → List Act → List Act ⊕ (Nat × Nat)
  | 0, acts => (match tagBad im acts with | none => .inl acts | some q => .inr q)
  | n + 1, acts =>
    match tagBad im acts with
    | none => .inl acts
    | some q => match lowerActs acts with | some a => grantActs im n a | none => .inr q

/-! ### The balance check (R166) -/

/-- Hops between two POS as the logical coordinates count them. -/
def logHops (p q : Nat) : Nat :=
  ((logX p : Int) - logX q).natAbs + ((logY p : Int) - logY q).natAbs

/-- Capacities of the paths that a list of edge names stands for, from a node on to the join. A name is unique at its target
only (R204), so two entries of one node may share it; what does not lead to the join is no path of the region. -/
def pathCaps (im : Image) (hops : Nat → Nat → Nat) (joinPos joinNode : Nat) : Nat → Nat → List Nat → List Nat
  | p, n, [] => if p = joinPos ∧ n = joinNode then [0] else []
  | p, n, x :: r =>
    match recAt im.elems p with
    | none => []
    | some e =>
      let w := match e.insts[n]? with | some w => w.toNat | none => 0
      ((nodeEntries e w).filter fun d => entryKind d.1 == 0 && (destKeep d.2).isNone && bitF d.1.toNat 8 0 == x).flatMap fun d =>
        match entryTarget p d.1 with
        | none => []
        | some t => (pathCaps im hops joinPos joinNode t (entryNode d.1) r).map (2 * (hops p t + 1) + ·)

/-- Whether a region fails the balance check. -/
def regionBad (im : Image) (hops : Nat → Nat → Nat) (g : Region) : Bool :=
  let caps := g.paths.map fun p => pathCaps im hops g.joinPos g.joinNode g.forkPos g.forkNode p
  let l := caps.flatten
  caps.any (·.isEmpty) || decide (l.foldl max 0 - l.foldl min (l.foldl max 0) > g.buffering)
    || decide (g.buffering > tabNum im.shares g.joinPos)

/-- The join node reference of the first region that fails. -/
def balanceBad (im : Image) (hops : Nat → Nat → Nat) : Option Nat :=
  im.regions.findSome? fun g => if regionBad im hops g then some (nodeDetail g.joinPos g.joinNode) else none

/-! ### The image (R220) -/

/-- The image as its records give it. -/
def imageOf (v : Env) (part : Nat) : Image where
  part := part
  nfolio := v.nf
  mode := fieldOf v.b (declAt v.b) 1
  strict := fieldOf v.b (declAt v.b + 1) 1 == 1
  acts := v.acts
  markers := v.markers
  shares := (shareWords v.b).foldl (fun t w => tabPut t (bitF w 29 16) (w % 512)) []
  reserves := (resWords v.b).foldl (fun t w => tabPut t (bitF w 29 16) (w % 32768)) []
  regions := (regsOf v.b).1.map fun o => (regionAt v.b o).1
  yields := (yieldWords v.b).map fun w => (bitF w 29 16, w % 256)
  idem := (idemWords v.b).map fun w => (bitF w 29 16, w % 256, bitF w 15 8)
  resident := residentWords v.b
  elems := v.elems
  press := pressIn v.b
  graft := descsIn v.b 4
  riddle := descsIn v.b 5
  tasks := (recsOf v.b 6).map (taskAt v.b)
  tt := (ttIn v.b).map ttOf

/-- The first activation whose chain of tag bits is too wide (R168). -/
def widthBad (acts : List Act) : Option Nat := (List.range acts.length).find? fun i => decide (chainBits acts 64 i > 48)

/-- The placement checks of step 3 of R220, with the widths granted. -/
def placeChecks (v : Env) (im : Image) : Image ⊕ BitVec 128 :=
  match entriesBad v.b im (allEntries im) [] with
  | some r => .inr r
  | none =>
    match drainsBad v.b im with
    | some r => .inr r
    | none =>
      match grantActs im 64 im.acts with
      | .inr (ri, pos) => .inr (cfgRecord 9 (sectIx v.b 2) ri 0 (nodeDetail pos 0))
      | .inl acts =>
        match balanceBad im logHops with
        | some j => .inr (cfgRecord 0xA (sectIx v.b 1) 0 0 j)
        | none =>
          match widthBad im.acts with
          | some i => .inr (cfgRecord 0xB (sectIx v.b 1) 0 (actsAt v.b - declAt v.b + 8 * i + 4) i)
          | none => .inl { im with acts := acts }

/-- The loader (R220): an image, or the fault record of the first check that fails. -/
def checkImage (b : Bytes) (part : Nat) : Image ⊕ BitVec 128 :=
  match structBad b with
  | some r => .inr r
  | none =>
    let v := envOf b
    match recordsBad v with
    | some r => .inr r
    | none => placeChecks v ((imageOf v part).derive v.na)

end Sys2Proof.Machine
end

