-- ==== Sys2Proof/Machine/Crypto.lean ====
section
/-! DEFINITION. SHA-512 and ECDSA over P-521, which R98, R385, R409 and R426 name (FIPS 180-4 and FIPS 186-5;
notes/assumptions/26.md). -/

namespace Sys2Proof.Machine

/-! ### SHA-512 -/

def shaK0 : List (BitVec 64) :=
  [0x428A2F98D728AE22, 0x7137449123EF65CD, 0xB5C0FBCFEC4D3B2F, 0xE9B5DBA58189DBBC, 0x3956C25BF348B538, 0x59F111F1B605D019, 0x923F82A4AF194F9B, 0xAB1C5ED5DA6D8118, 0xD807AA98A3030242, 0x12835B0145706FBE, 0x243185BE4EE4B28C, 0x550C7DC3D5FFB4E2, 0x72BE5D74F27B896F, 0x80DEB1FE3B1696B1, 0x9BDC06A725C71235, 0xC19BF174CF692694]

def shaK1 : List (BitVec 64) :=
  [0xE49B69C19EF14AD2, 0xEFBE4786384F25E3, 0xFC19DC68B8CD5B5, 0x240CA1CC77AC9C65, 0x2DE92C6F592B0275, 0x4A7484AA6EA6E483, 0x5CB0A9DCBD41FBD4, 0x76F988DA831153B5, 0x983E5152EE66DFAB, 0xA831C66D2DB43210, 0xB00327C898FB213F, 0xBF597FC7BEEF0EE4, 0xC6E00BF33DA88FC2, 0xD5A79147930AA725, 0x6CA6351E003826F, 0x142929670A0E6E70]

def shaK2 : List (BitVec 64) :=
  [0x27B70A8546D22FFC, 0x2E1B21385C26C926, 0x4D2C6DFC5AC42AED, 0x53380D139D95B3DF, 0x650A73548BAF63DE, 0x766A0ABB3C77B2A8, 0x81C2C92E47EDAEE6, 0x92722C851482353B, 0xA2BFE8A14CF10364, 0xA81A664BBC423001, 0xC24B8B70D0F89791, 0xC76C51A30654BE30, 0xD192E819D6EF5218, 0xD69906245565A910, 0xF40E35855771202A, 0x106AA07032BBD1B8]

def shaK3 : List (BitVec 64) :=
  [0x19A4C116B8D2D0C8, 0x1E376C085141AB53, 0x2748774CDF8EEB99, 0x34B0BCB5E19B48A8, 0x391C0CB3C5C95A63, 0x4ED8AA4AE3418ACB, 0x5B9CCA4F7763E373, 0x682E6FF3D6B2B8A3, 0x748F82EE5DEFB2FC, 0x78A5636F43172F60, 0x84C87814A1F0AB72, 0x8CC702081A6439EC, 0x90BEFFFA23631E28, 0xA4506CEBDE82BDE9, 0xBEF9A3F7B2C67915, 0xC67178F2E372532B]

def shaK4 : List (BitVec 64) :=
  [0xCA273ECEEA26619C, 0xD186B8C721C0C207, 0xEADA7DD6CDE0EB1E, 0xF57D4F7FEE6ED178, 0x6F067AA72176FBA, 0xA637DC5A2C898A6, 0x113F9804BEF90DAE, 0x1B710B35131C471B, 0x28DB77F523047D84, 0x32CAAB7B40C72493, 0x3C9EBE0A15C9BEBC, 0x431D67C49C100D4C, 0x4CC5D4BECB3E42B6, 0x597F299CFC657E2A, 0x5FCB6FAB3AD6FAEC, 0x6C44198C4A475817]

def shaK : List (BitVec 64) := shaK0 ++ shaK1 ++ shaK2 ++ shaK3 ++ shaK4

def shaInit : List (BitVec 64) :=
  [0x6A09E667F3BCC908, 0xBB67AE8584CAA73B, 0x3C6EF372FE94F82B, 0xA54FF53A5F1D36F1, 0x510E527FADE682D1, 0x9B05688C2B3E6C1F, 0x1F83D9ABFB41BD6B, 0x5BE0CD19137E2179]

def bigSig0 (x : BitVec 64) : BitVec 64 := x.rotateRight 28 ^^^ x.rotateRight 34 ^^^ x.rotateRight 39
def bigSig1 (x : BitVec 64) : BitVec 64 := x.rotateRight 14 ^^^ x.rotateRight 18 ^^^ x.rotateRight 41
def smallSig0 (x : BitVec 64) : BitVec 64 := x.rotateRight 1 ^^^ x.rotateRight 8 ^^^ x >>> 7
def smallSig1 (x : BitVec 64) : BitVec 64 := x.rotateRight 19 ^^^ x.rotateRight 61 ^^^ x >>> 6

/-- A big-endian number from bytes. -/
def numBig (b : Bytes) : Nat := b.foldl (fun n x => 256 * n + x.toNat) 0

/-- The bytes of a number, big-endian. -/
def bytesBig (n v : Nat) : Bytes := (bytesOf n v).reverse

/-- The message schedule, newest word first. -/
def shaSchedule : Nat → List (BitVec 64) → List (BitVec 64)
  | 0, w => w
  | n + 1, w =>
    let at' (i : Nat) : BitVec 64 := (w[i]?).getD 0
    shaSchedule n ((smallSig1 (at' 1) + at' 6 + smallSig0 (at' 14) + at' 15) :: w)

/-- One round on the eight working variables. -/
def shaRound (h : List (BitVec 64)) (kw : BitVec 64) : List (BitVec 64) :=
  match h with
  | [a, b, c, d, e, f, g, x] =>
    let t1 := x + bigSig1 e + ((e &&& f) ^^^ (~~~e &&& g)) + kw
    let t2 := bigSig0 a + ((a &&& b) ^^^ (a &&& c) ^^^ (b &&& c))
    [t1 + t2, a, b, c, d + t1, e, f, g]
  | l => l

/-- One block of 128 bytes. -/
def shaBlock (h : List (BitVec 64)) (b : Bytes) : List (BitVec 64) :=
  let w := (List.range 16).map fun i => BitVec.ofNat 64 (numBig ((b.drop (8 * i)).take 8))
  let ws := (shaSchedule 64 w.reverse).reverse
  let r := (shaK.zipWith (· + ·) ws).foldl shaRound h
  h.zipWith (· + ·) r

def shaBlocks : Nat → List (BitVec 64) → Bytes → List (BitVec 64)
  | 0, h, _ => h
  | n + 1, h, b => shaBlocks n (shaBlock h (b.take 128)) (b.drop 128)

/-- SHA-512 of a byte string: 64 bytes. -/
def sha512 (m : Bytes) : Bytes :=
  let pad := (239 - m.length % 128) % 128
  let b := m ++ [0x80] ++ List.replicate pad 0 ++ bytesBig 16 (8 * m.length)
  (shaBlocks (b.length / 128) shaInit b).flatMap fun x => bytesBig 8 x.toNat

/-! ### P-521 -/

def curveP : Nat := 2 ^ 521 - 1
def curveB : Nat :=
  0x51953EB9618E1C9A1F929A21A0B68540EEA2DA725B99B315F3B8B489918EF109E156193951EC7E937B1652C0BD3BB1BF073573DF883D2C34F1EF451FD46B503F00
def curveN : Nat :=
  0x1FFFFFFFFFFFFFFFFFFFFFFFFFFFFFFFFFFFFFFFFFFFFFFFFFFFFFFFFFFFFFFFFFA51868783BF2F966B7FCC0148F709A5D03BB5C9B8899C47AEBB6FB71E91386409
def curveGx : Nat :=
  0xC6858E06B70404E9CD9E3ECB662395B4429C648139053FB521F828AF606B4D3DBAA14B5E77EFE75928FE1DC127A2FFA8DE3348B3C1856A429BF97E7E31C2E5BD66
def curveGy : Nat :=
  0x11839296A789A3BC0045C8A5FB42C7D1BD998F54449579B446817AFBD17273E662C97EE72995EF42640C550B9013FAD0761353C7086A272C24088BE94769FD16650

/-- A power modulo `m`, over `k` bits of the exponent from bit `i` on. -/
def powMod (m a e : Nat) : Nat → Nat
  | 0 => 1 % m
  | k + 1 =>
    let r := powMod m a e k
    let q := r * r % m
    if e / 2 ^ (520 - k) % 2 = 1 then q * a % m else q

/-- The inverse modulo a prime of 521 bits. -/
def invMod (m a : Nat) : Nat := powMod m (a % m) (m - 2) 521

/-- Points of the curve; none is the point at infinity. -/
abbrev Point := Option (Nat × Nat)

def subMod (a b : Nat) : Nat := (a + curveP - b % curveP) % curveP

/-- Sum of two points. -/
def pointAdd : Point → Point → Point
  | none, q => q
  | p, none => p
  | some (x1, y1), some (x2, y2) =>
    if x1 = x2 ∧ (y1 + y2) % curveP = 0 then none
    else
      let l := if x1 = x2 then (3 * x1 * x1 + curveP - 3) * invMod curveP (2 * y1) % curveP
        else subMod y2 y1 * invMod curveP (subMod x2 x1) % curveP
      let x3 := subMod (l * l) (x1 + x2)
      some (x3, subMod (l * subMod x1 x3) y1)

/-- A multiple of a point, over `k` bits of the factor. -/
def pointMul (e : Nat) (p : Point) : Nat → Point
  | 0 => none
  | k + 1 =>
    let r := pointMul e p k
    let q := pointAdd r r
    if e / 2 ^ (520 - k) % 2 = 1 then pointAdd q p else q

def basePoint : Point := some (curveGx, curveGy)

/-- Whether a point lies on the curve. -/
def onCurve (x y : Nat) : Bool :=
  decide (x < curveP) && decide (y < curveP) && (y * y) % curveP == (x * x * x + (curveP - 3) * x + curveB) % curveP

/-- A public key as 133 bytes: 0x04, then X and Y, big-endian. -/
def keyPoint (k : Bytes) : Nat × Nat := (numBig ((k.drop 1).take 66), numBig ((k.drop 67).take 66))

def keyOk (k : Bytes) : Bool :=
  k.length == 133 && k.take 1 == [4] && onCurve (keyPoint k).1 (keyPoint k).2

/-- Whether a signature of 132 bytes over SHA-512 of a message verifies. -/
def ecdsaVerify (key msg sig : Bytes) : Bool :=
  let r := numBig (sig.take 66)
  let t := numBig ((sig.drop 66).take 66)
  if r = 0 ∨ t = 0 ∨ r ≥ curveN ∨ t ≥ curveN then false
  else
    let w := invMod curveN t
    let e := numBig (sha512 msg)
    match pointAdd (pointMul (e * w % curveN) basePoint 521) (pointMul (r * w % curveN) (some (keyPoint key)) 521) with
    | none => false
    | some (x, _) => x % curveN == r

/-- A signature of a message with a private key and a random number. -/
def ecdsaSign (d k : Nat) (msg : Bytes) : Bytes :=
  let k := k % (curveN - 1) + 1
  let r := match pointMul k basePoint 521 with | some (x, _) => x % curveN | none => 0
  let e := numBig (sha512 msg)
  bytesBig 66 r ++ bytesBig 66 (invMod curveN k * (e + r * d) % curveN)

end Sys2Proof.Machine
end

