-- ==== Sys2Proof/Machine/Plates.lean ====
section
/-! DEFINITION. The Spine's union unit, sweeps, policy submissions and destination owners (R77, R79, R87 to R93, R95 to R102). -/

namespace Sys2Proof.Machine

/-! ### Results written back into a command's record (R86, R293) -/

/-- Fields written into control memory, by offset, size and value. -/
def State.ctlFields (s : State) (q a : Nat) : List (Nat × Nat × Nat) → State
  | [] => s
  | (o, n, v) :: r =>
    ({ s with ctl := memWrite s.ctl (q * 65536 + a + o) n v }.writeErrs .control (q * 65536 + a + o) n).ctlFields q a r

/-- A command writes fields into its record of `n` bytes at `a`: its regions grow by the command's set. A failed union or an
uncorrectable word leaves the record as it was (R89, R275). -/
def State.ctlBack (s : State) (q ctx a n : Nat) (h : Handle) (l : List (Nat × Nat × Nat)) : Sync Unit :=
  match s.regionGrow q h (ctlRegions a n) with
  | .inr (true, x, y) => .fail (s.ovfCode x y) (s.plateOvf x y ctx (s.partOf ctx))
  | .inr (false, x, y) => .wait (s.askUnion x y ctx (s.partOf ctx))
  | .inl none => .wait s
  | .inl (some g) =>
    if l.any fun f => s.partUnc .control (q * 65536 + a + f.1) f.2.1 then .fail 0x20 s
    else .ok () ((g.foldl (fun s x => s.setRegion q x.1 x.2) s).ctlFields q a l)

/-! ### The union unit (R79, R87 to R90) -/

/-- The lowest number from `k` on that is no key of a table with rising keys. -/
def freeFrom {α : Type} : Tab α → Nat → Nat
  | [], k => k
  | (h, _) :: r, k => if h < k then freeFrom r k else if h = k then freeFrom r (k + 1) else k

/-- The lowest free composite handle (R88). -/
def State.freeHandle (s : State) : Option Nat :=
  let h := freeFrom s.sets 0x200
  if h < 0x1000 then some h else none

/-- A new composite handle for a set; one made while a sweep runs is marked (R88, R91, R93). -/
def State.newSet (s : State) (h : Nat) (l : List Nat) : State :=
  { s with sets := tabPut s.sets h { plates := l, mark := s.sweep.isSome } }

/-- Unions in the wait queue (R89). -/
def State.waitingUnions (s : State) : Nat := (s.unions.filter fun u => u.waiting && !u.failed).length

/-- `PLATE_UNION_SPINE` (R87, R88): a union gets its handle, or begins to wait. -/
def execPlateUnionSpine (idx : Nat) (s : State) : Res :=
  match s.unions[idx]? with
  | none => idle s
  | some u =>
    if u.waiting ∨ u.failed then idle s
    else
      let rest := { s with unions := listDrop s.unions idx }
      if (handleIn s.sets u.plates).isSome then .next rest
      else match s.freeHandle with
        | some h => if s.waitingUnions = 0 then .next (rest.newSet h u.plates) else idle s
        | none =>
          if s.waitingUnions ≥ 256 then idle s
          else .next { rest with
            unions := rest.unions ++ [{ u with waiting := true }]
            plateOut := s.plateOut ++ [{ part := u.part, ctx := u.ctx, code := 0x41, ha := u.ha, hb := u.hb,
                                         used := s.waitingUnions + 1 }] }

/-- `PLATE_UNION_WAIT_SERVED` (R89): the oldest waiting union takes a handle that has become free. -/
def execPlateUnionWaitServed (s : State) : Res :=
  match listFind (fun u : UnionReq => u.waiting && !u.failed) s.unions 0, s.freeHandle with
  | some (i, u), some h =>
    let rest := { s with unions := listDrop s.unions i }
    .next (if (handleIn s.sets u.plates).isSome then rest else rest.newSet h u.plates)
  | _, _ => idle s

/-- The handle of a set given by its plates. -/
def State.handleOf (s : State) (l : List Nat) : Option Handle :=
  match l with
  | [] => some 0
  | [n] => some (BitVec.ofNat 12 n)
  | l => (handleIn s.sets l).map (BitVec.ofNat 12 ·)

/-! ### Sweeps (R93) -/

/-- Candidates of a sweep: every composite handle that nothing counts. -/
def State.sweepCands (s : State) : List Nat :=
  (s.sets.filter fun q => s.refCount (BitVec.ofNat 12 q.1) == 0).map (·.1)

/-- Step 1 of a sweep: candidates are noted and MARK is cleared. -/
def State.sweepStart (s : State) (q id : Nat) (failw : Bool) : State :=
  { s with sweep := some { cands := s.sweepCands, failw := failw, cmd := (q, id) }
           sets := s.sets.map fun x => (x.1, { x.2 with mark := false }) }

/-- The fields that a sweep writes into its record, DONE last. -/
def sweepFields (flags status cand freed : Nat) : List (Nat × Nat × Nat) :=
  [(26, 2, status), (20, 4, cand), (16, 4, freed), (28, 1, flags % 256 / 2 * 2 + 1)]

/-- The command of a control core by number. -/
def Qcc.cmd? (k : Qcc) (id : Nat) : Option Cmd := k.cmds.find? fun c => c.id == id

/-- A sweep command writes its record and completes. -/
def State.sweepDone (s : State) (q : Nat) (c : Cmd) (status cand freed : Nat) : Option State :=
  match (s.qcc q).ctx with
  | none => some s
  | some ctx =>
    match s.ctlBack q ctx c.xs.toNat 32 c.set (sweepFields (fieldOf c.record 28 1) status cand freed) with
    | .ok _ s1 => some (s1.cmdDone q c.id status freed)
    | .fail e s1 => some (s1.cmdDone q c.id e freed)
    | .wait _ => none

/-- `SWEEP_MARK_PASS_DONE` (R93): what is held is marked; candidates that are unmarked and still uncounted are freed; the
record is written. The mark pass sees what is held when it ends (notes/assumptions/27.md). -/
def execSweepMarkPassDone (s : State) : Res :=
  match s.sweep with
  | none => idle s
  | some w =>
    let held := s.heldHandles
    let sets := s.sets.map fun q => (q.1, if held.contains (BitVec.ofNat 12 q.1) then { q.2 with mark := true } else q.2)
    let freed := (sets.filter fun q => w.cands.contains q.1 && !q.2.mark && s.refCount (BitVec.ofNat 12 q.1) == 0).map (·.1)
    let s1 := { s with
      sweep := none
      sets := sets.filter fun q => !freed.contains q.1
      unions := if w.failw ∧ freed.isEmpty then s.unions.map fun u => if u.waiting then { u with failed := true } else u
        else s.unions }
    match (s.qcc w.cmd.1).cmd? w.cmd.2 with
    | none => .next s1
    | some c =>
      (match s1.sweepDone w.cmd.1 c 0 w.cands.length freed.length with
       | some s2 => .next s2
       | none =>
         match (s.qcc w.cmd.1).ctx with
         | none => .next s1
         | some ctx =>
           match s.ctlBack w.cmd.1 ctx c.xs.toNat 32 c.set [] with
           | .wait s2 => .next s2
           | _ => idle s)

/-! ### Policies (R97 to R102) -/

/-- A byte of the device identity serial (R424). -/
def devid : Bytes := (List.range 16).map (Config.securityByte 0)

/-- The entries of PLATES: plate, the bits above it, PCTR. -/
def policyPlates (b : Bytes) : List (Nat × Nat × Nat) :=
  (List.range 8).map fun i =>
    let o := 0x30 + 6 * i
    (fieldOf b o 2 % 512, fieldOf b o 2 / 512, fieldOf b (o + 2) 4)

/-- The first failure among the entries of PLATES: status 1, 3 or 5; 0 for none. -/
def State.platesStatus (s : State) : Nat → Nat → List (Nat × Nat × Nat) → Nat
  | _, _, [] => 0
  | n, last, (p, hi, c) :: r =>
    match n with
    | 0 => if p ≠ 0 ∨ hi ≠ 0 ∨ c ≠ 0 then 1 else s.platesStatus 0 last r
    | m + 1 =>
      if p ≤ last ∨ hi ≠ 0 then 1
      else match tabGet s.plates p with
        | none => 5
        | some e => if e.pctr.toNat ≠ c then 3 else s.platesStatus m p r

/-- The status of a body (R97, R98, R102), its fields in rising offset; 0 when it is sound. -/
def State.bodyStatus (s : State) (b : Bytes) (length : Nat) : Nat :=
  let np := fieldOf b 0x20 1
  let lk := fieldOf b 0x21 1
  let d := fieldOf b 0x24 4
  let lim := fieldOf b 0x28 8
  if length ≠ 128 + 132 * np ∨ fieldOf b 0 4 ≠ 1 ∨ fieldOf b 4 4 ≠ 128 then 1
  else if (b.drop 8).take 16 ≠ devid then 2
  else if fieldOf b 0x18 8 ≠ 0 ∨ np = 0 ∨ np > 8 ∨ lk > 2 ∨ fieldOf b 0x22 2 ≠ 0 then 1
  else if !destValid d ∨ (lk = 2 ∧ (d / 2 ^ 14 = 1 ∨ d / 2 ^ 14 = 3)) then 7
  else if (lk < 2 ∧ (lim = 0 ∨ lim ≥ 2 ^ 63)) ∨ (lk = 2 ∧ (lim ≠ 0 ∨ np ≠ 1)) then 1
  else
    let r := s.platesStatus np 0 (policyPlates b)
    if r ≠ 0 then r else if (b.drop 0x60).take 32 ≠ List.replicate 32 0 then 1 else 0

/-- The first signature that fails (R98). -/
def State.badSig (s : State) (b : Bytes) : Nat → List Nat → Option Nat
  | _, [] => none
  | i, p :: r =>
    match tabGet s.plates p with
    | none => some i
    | some e =>
      if ecdsaVerify e.key (b.take 128) ((b.drop (128 + 132 * i)).take 132) then s.badSig b (i + 1) r else some i

/-- PCTR of every named plate advances (R99 step 4). -/
def State.advance (s : State) (l : List Nat) : State :=
  { s with plates := s.plates.map fun q => (q.1, if l.contains q.1 then { q.2 with pctr := q.2.pctr + 1 } else q.2) }

/-- A KIND 5 event with a plate's own handle. -/
def State.ownerEvent (s : State) (d p : Nat) : State :=
  if p = 0 then s else s.eventPlates (plateEvent 5 0xFF (BitVec.ofNat 12 p) d 1 0) [p]

/-- OWNER of a destination changes; the old and the new owner are told (R102). -/
def State.setOwner (s : State) (d p : Nat) : State :=
  let old := (s.dest d).owner
  let s1 := { s with dests := tabPut s.dests d { s.dest d with owner := p } }
  if old = p then s1.ownerEvent d p else (s1.ownerEvent d old).ownerEvent d p

/-- A union for a policy's set goes to the Spine as one request. -/
def State.askSet (s : State) (l : List Nat) (q : Nat) : State :=
  let ctx := ((s.qcc q).ctx).getD 0
  if s.unions.any (fun u => u.plates == l) then s
  else { s with unions := s.unions ++ [{ plates := l, ha := BitVec.ofNat 12 (l.headD 0), hb := BitVec.ofNat 12 ((l.drop 1).headD 0),
                                         ctx := ctx, part := s.partOf ctx, waiting := false, failed := false }] }

/-- A checked submission is installed (R99 steps 2 to 5, R102), or completes with its status. -/
def State.install (s : State) (w : Submission) : State :=
  let b := w.bytes
  let np := fieldOf b 0x20 1
  let pl := ((policyPlates b).take np).map (·.1)
  let d := fieldOf b 0x24 4
  let done (s : State) (status lane1 : Nat) : State :=
    { s with submissions := s.submissions.drop 1 }.cmdDone w.cmd.1 w.cmd.2 status lane1
  let st := s.bodyStatus b w.length
  if st ≠ 0 then done s st 0
  else match s.badSig b 0 pl with
    | some i => done s 4 i
    | none =>
      if fieldOf b 0x21 1 = 2 then done ((s.advance pl).setOwner d (pl.headD 0)) 0 0xFF
      else
        let slot := freeFrom s.policies 0
        if slot ≥ 256 then done s 6 0
        else match s.handleOf pl with
          | some h =>
            let p : Policy := { handle := h, dest := d, limkind := fieldOf b 0x21 1, limit := fieldOf b 0x28 8 }
            let s1 := { s with policies := tabPut s.policies slot p }.advance pl
            done (s1.eventPlates (plateEvent 2 slot h d 1 0) pl) 0 slot
          | none =>
            if s.unions.any (fun u => u.plates == pl && u.failed) then
              done { s with unions := s.unions.filter fun u => !(u.failed && u.plates == pl) } 0x41 0
            else s.askSet pl w.cmd.1

/-- `POLICY_CHECK_DONE` (R98, R99): the oldest submission has been checked. -/
def execPolicyCheckDone (s : State) : Res :=
  match s.submissions with
  | [] => idle s
  | w :: _ => .next (s.install w)

/-- `clasp.revoke` (R99): status 1 when the slot is not live. -/
def State.revoke (s : State) (q id slot : Nat) : State :=
  match tabGet s.policies slot with
  | none => s.cmdDone q id 1 0
  | some p =>
    ({ s with policies := tabDel s.policies slot }.eventPlates (plateEvent 3 slot p.handle p.dest 1 0) (s.setOf p.handle)).cmdDone
      q id 0 slot

end Sys2Proof.Machine
end

