-- ==== Sys2Proof/Machine/LoadCmd.lean ====
section
/-! DEFINITION. Reading an image from memory, `cfg.load`, shadow configurations and `cfg.switch` (R138, R215, R220, R298, R316). -/

namespace Sys2Proof.Machine

/-! ### Reading an image -/

/-- Where the reading of an image stands: its bytes, or what has been read so far, or an access that failed. -/
inductive Fetch where
  | done (b : Bytes) (s : State)
  | more (got : Bytes) (s : State)
  | fail (code : Nat) (s : State)

/-- Eight bytes after another are read, `n` of them. -/
def State.readOn (s : State) (w : Who) (va : Nat) : Nat → Bytes → Fetch
  | 0, got => .done got s
  | n + 1, got =>
    match s.unitReadAt w false (va + got.length) 8 8 0 with
    | .wait s1 => .more got s1
    | .fail c s1 => .fail c s1
    | .ok (v, _) s1 => s1.readOn w va n (got ++ bytesOf 8 v)

/-- An image is read: its header, and when that is sound, LENGTH bytes (R215). -/
def State.fetchImage (s : State) (w : Who) (va : Nat) (got : Bytes) : Fetch :=
  match s.readOn w va ((32 - got.length) / 8) got with
  | .done b s1 =>
    if (firstBad (headerChks b)).isSome then .done b s1 else s1.readOn w va ((fieldOf b 8 8 - b.length) / 8) b
  | r => r

/-- A load handle that names no image yet, from a free number on. -/
def State.unusedHandle (s : State) : Nat → Nat → Nat
  | 0, h => h
  | n + 1, h => if h = 2 ^ 32 - 1 ∨ (tabGet s.images h).isSome then s.unusedHandle n ((h + 1) % 2 ^ 32) else h

/-- The handle that a load gives (R298 gives no number; notes/assumptions/30.md). -/
def State.newLoad (s : State) : Nat := s.unusedHandle (s.images.length + 2) (Config.loadHandle s.tick).toNat

/-- The fault record of an image that cannot be read (notes/assumptions/25.md). -/
def unreadable : BitVec 128 := cfgRecord 1 0xFF 0 0 0

/-! ### Slots and tasks of an image as they are placed -/

/-- The issue weight of a context's slots (R402). -/
def State.weightOf (s : State) (part vf : Nat) : Nat :=
  match (s.vf vf).tweight with
  | some w => w
  | none => match s.part? part with | some p => p.tweight | none => 1

/-- A slot of an image for a context (R217, R365). -/
def State.newSlot (s : State) (im : Image) (e : ElemRec) (ctx part vf : Nat) : Slot :=
  { e.slot ctx with weight := s.weightOf part vf, share := tabNum im.shares e.pos, lastIssue := s.tick }

/-- The code of a task in control memory, and its channel's binding (R218, R274). -/
def State.bindTask (s : State) (q : Nat) (t : TaskRec) : State :=
  let k := s.qcc q
  let a := q * 65536 + t.load
  ({ s with ctl := memWrite s.ctl a t.code.length (numOf t.code) }.writeErrs .control a t.code.length).setQcc q
    { k with
      prio := tabPut k.prio t.chan t.prio
      entry := tabPut k.entry t.chan t.entry
      armed := if k.armed.contains t.chan then k.armed else k.armed ++ [t.chan] }

/-- Physical quires, folios and elements of an image's sections. -/
def State.physQuire (s : State) (part lpos : Nat) : Option Nat := (s.physOf part lpos).map quireOf
def State.physFolio (s : State) (part lpos : Nat) : Option Nat := (s.physOf part lpos).map folioOf

/-- Quires (engine 0 or 1) or folios (engine 2) that an image uses an engine of: those of its section, and those that a KIND 1
entry names (R304, R322, R337). -/
def Image.engines (im : Image) (engine : Nat) : List Nat :=
  let size := if engine = 2 then 64 else 16
  let sect := match engine with
    | 0 => im.press.map (·.1)
    | 1 => im.graft.map (·.1)
    | _ => im.riddle.map (·.1)
  let named := im.elems.flatMap fun e => e.dests.filterMap fun d =>
    if entryKind d.1 = 1 ∧ entryNode d.1 / 32 = engine ∧ (destKeep d.2).isNone then
      some (posOfLog (entryX d.1 (logX e.pos)) (entryY d.1 (logY e.pos)) / size * size)
    else none
  (sect ++ named).eraseDups

/-- Press words of a quire of an image; descriptors of its Graft or Riddle. -/
def Image.pressWords (im : Image) (lpos : Nat) : List (BitVec 64) :=
  match im.press.find? (·.1 == lpos) with | some q => q.2 | none => []
def Image.graftDescs (im : Image) (lpos : Nat) : List (BitVec 512) :=
  match im.graft.find? (·.1 == lpos) with | some q => q.2 | none => []
def Image.riddleDescs (im : Image) (lpos : Nat) : List (BitVec 512) :=
  match im.riddle.find? (·.1 == lpos) with | some q => q.2 | none => []

/-! ### The shadow configuration (R298) -/

/-- Whether a unit serves another context. -/
def takenBy (own : Nat) : Option Nat → Bool
  | some c => c != own
  | none => false

/-- The first section record that cannot be placed as a shadow: section type and record. -/
def State.shadowBlock (s : State) (ctx part : Nat) (im : Image) : Option (Nat × Nat × Nat) :=
  let first {α : Type} (ty : Nat) (l : List α) (pos : α → Nat) (bad : Nat → Bool) : Option (Nat × Nat × Nat) :=
    (l.mapIdx fun i x => (i, pos x)).findSome? fun q =>
      match s.physOf part q.2 with
      | none => some (ty, q.1, q.2)
      | some p => if bad p then some (ty, q.1, q.2) else none
  let full (p : Nat) : Bool :=
    let e := s.elem p
    s.retiredElem p || decide (e.slots.length + (tabDel e.shadow ctx).length ≥ 4)
  match first 2 im.elems (·.pos) full with
  | some r => some r
  | none =>
    match first 3 im.press (·.1) (fun p => takenBy ctx (s.pressOf (quireOf p)).ctx) with
    | some r => some r
    | none =>
      match first 4 im.graft (·.1) (fun p => takenBy ctx (s.graftOf (quireOf p)).ctx) with
      | some r => some r
      | none =>
        match first 5 im.riddle (·.1) (fun p => takenBy ctx (s.riddleOf (folioOf p)).ctx) with
        | some r => some r
        | none => first 6 im.tasks (·.pos) (fun p => takenBy ctx (s.qcc (quireOf p)).ctx)

/-- The fault record when a shadow cannot be placed: reason 0x0D. -/
def State.shadowBad (s : State) (b : Bytes) (ctx : Nat) (c : Ctx) (im : Image) : Option (BitVec 128) :=
  if im.nfolio > c.nfolio then some (cfgRecord 0xD 0xFF 0 0x10 0)
  else match s.shadowBlock ctx c.part im with
    | some (ty, ri, pos) => some (cfgRecord 0xD (sectIx b ty) ri 0 (nodeDetail pos 0))
    | none => none

/-- A context's shadow is taken out of every element and engine. -/
def State.dropShadow (s : State) (ctx : Nat) : State :=
  { s with
    elems := s.elems.map fun q => (q.1, { q.2 with shadow := tabDel q.2.shadow ctx })
    press := s.press.map fun q => (q.1, if q.2.ctx = some ctx then { q.2 with shadow := [] } else q.2)
    graft := s.graft.map fun q => (q.1, if q.2.ctx = some ctx then { q.2 with shadow := [] } else q.2)
    riddle := s.riddle.map fun q => (q.1, if q.2.ctx = some ctx then { q.2 with shadow := [] } else q.2) }

def State.shadowElem (s : State) (ctx : Nat) (c : Ctx) (im : Image) (e : ElemRec) : State :=
  match s.physOf c.part e.pos with
  | none => s
  | some p => s.modElem p fun x => { x with shadow := tabPut x.shadow ctx (s.newSlot im e ctx c.part c.homevf) }

def State.shadowPress (s : State) (ctx part : Nat) (q : Nat × List (BitVec 64)) : State :=
  match s.physQuire part q.1 with
  | none => s
  | some u => s.setPress u { s.pressOf u with ctx := some ctx, shadow := q.2 }

def State.shadowGraft (s : State) (ctx part : Nat) (q : Nat × List (BitVec 512)) : State :=
  match s.physQuire part q.1 with
  | none => s
  | some u => s.setGraft u { s.graftOf u with ctx := some ctx, shadow := q.2 }

def State.shadowRiddle (s : State) (ctx part : Nat) (q : Nat × List (BitVec 512)) : State :=
  match s.physFolio part q.1 with
  | none => s
  | some u => s.setRiddle u { s.riddleOf u with ctx := some ctx, shadow := q.2 }

/-- An image becomes the shadow of a context. -/
def State.placeShadow (s : State) (ctx : Nat) (c : Ctx) (h : Nat) (im : Image) : State :=
  let s1 := im.elems.foldl (fun s e => s.shadowElem ctx c im e) (s.dropShadow ctx)
  let s2 := im.press.foldl (fun s q => s.shadowPress ctx c.part q) s1
  let s3 := im.graft.foldl (fun s q => s.shadowGraft ctx c.part q) s2
  (im.riddle.foldl (fun s q => s.shadowRiddle ctx c.part q) s3).modCtx ctx fun c => { c with shadow := some h }

/-! ### `cfg.load` (R298) -/

/-- The oldest running `cfg.load` of a control core. -/
def Qcc.loading (k : Qcc) : Option Cmd := k.cmds.find? fun c => c.st == .running && kOp c.word == 0x44

/-- A load has been decided: its results are written into its record, and it completes. A refused load also sends its fault
record to the trap channel (R220). -/
def State.loadEnd (s : State) (q ctx : Nat) (c : Cmd) (h : Nat) (rec' : BitVec 128) : Sync Unit :=
  (s.ctlBack q ctx c.xs.toNat 32 c.set [(8, 4, h), (16, 16, rec'.toNat), (12, 1, 1)]).bind fun _ s =>
    let s1 := if rec' = 0 then s else s.sendTrap ctx 6 rec' 0 0xFF c.set
    .ok () (s1.cmdDone q c.id (if rec' = 0 then 0 else 1) h)

/-- A load whose image has been read, or could not be. -/
def State.loadDecide (s : State) (q ctx : Nat) (x : Ctx) (c : Cmd) (b : Option Bytes) : Res :=
  let refuse (r : BitVec 128) : Sync Unit := s.loadEnd q ctx c (Config.loadHandle s.tick).toNat r
  let res := match b with
    | none => refuse unreadable
    | some b =>
      match checkImage b x.part with
      | .inr r => refuse r
      | .inl im =>
        if kCfn c.word = 1 then
          match s.shadowBad b ctx x im with
          | some r => refuse r
          | none =>
            let h := s.newLoad
            ({ s with images := tabPut s.images h im }.placeShadow ctx x h im).loadEnd q ctx c h 0
        else
          let h := s.newLoad
          { s with images := tabPut s.images h im }.loadEnd q ctx c h 0
  match res with
  | .ok _ s1 => .next s1
  | .fail e s1 => .next (s1.cmdDone q c.id e 0)
  | .wait s1 => .next { s with unions := s1.unions }

/-- `CFG_LOAD_COMPLETE` (R298): the image of the oldest running load is read on; once it is whole the load is decided. -/
def execCfgLoadComplete (quire : Nat) (s : State) : Res :=
  let k := s.qcc quire
  match k.ctx, k.loading with
  | some ctx, some c =>
    (match s.ctx? ctx with
    | none => idle s
    | some x =>
      if !s.mayIssue ctx then idle s
      else
        let w : Who := { ctx := ctx, part := x.part, quire := quire, kind := 3, key := unitKey 7 quire c.id, parks := true }
        match s.fetchImage w (fieldOf c.record 0 8) c.got with
        | .more got s1 =>
          let k1 := s1.qcc quire
          .next (s1.setQcc quire { k1 with cmds := k1.cmds.map fun o => if o.id = c.id then { o with got := got } else o })
        | .fail _ s1 => s1.loadDecide quire ctx x c none
        | .done b s1 => s1.loadDecide quire ctx x c (some b))
  | _, _ => idle s

/-! ### `cfg.switch` (R138, R298) -/

/-- Step 1 of a switch: the sequencer's token enters the mesh at its quire; none while the mesh has no room for it. -/
def State.switchStart (s : State) (q ctx : Nat) (c : Cmd) : Option State :=
  let src := fieldOf c.record 0 4
  let lp := src / 2 ^ 16 % 2 ^ 14
  match s.physOf (s.partOf ctx) lp with
  | none => some (s.cmdDone q c.id 0x13 0)
  | some p =>
    let t : Token := { Token.blank ctx with
      die := BitVec.ofNat 4 (dieOf p), x := BitVec.ofNat 7 (logX lp), y := BitVec.ofNat 7 (logY lp),
      node := BitVec.ofNat 8 (src % 256), fmt := .bits }
    match s.inject (q * 16) 5 p t with
    | none => none
    | some s1 =>
      some (s1.modCtx ctx fun x =>
        { x with switch := some { image := fieldOf c.record 8 4, nterm := fieldOf c.record 4 2, count := 0, cmd := (q, c.id) } })

/-- Physical elements of the folios that a context holds. -/
def State.heldElems (s : State) (c : Ctx) : List Nat :=
  (List.range c.nfolio).flatMap fun lf =>
    match s.mapEntry c.part lf with
    | some e => (List.range 64).map fun i => e.gfolio * 64 + i
    | none => []

/-- Whether a slot's nodes have all switched and it has nothing left to issue. -/
def Elem.drained (e : Elem) (ctx : Nat) : Bool :=
  match slotOfCtx e.slots ctx with
  | some (i, sl) =>
    (List.range sl.insts.length).all sl.inputsSwitched && !e.fifo.any (fun q => q.1 == i) && !e.rob.any (fun r => r.slotIx == i)
  | none => match tabGet e.backing ctx with | some sl => (List.range sl.insts.length).all sl.inputsSwitched | none => true

/-- Whether R138 holds for a context's pending switch. -/
def State.switchReady (s : State) (ctx : Nat) (c : Ctx) : Bool :=
  (s.heldElems c).all (fun p => (s.elem p).drained ctx) && !s.accs.any (fun q => q.2.ctx == ctx)
    && !s.outside.any (fun o => o.ctx == ctx)
    && !s.barrow.any (fun q => q.2.running.any fun r => r.ctx == ctx && r.started)
    && !s.graft.any (fun q => q.2.ctx == some ctx && !q.2.scans.isEmpty)
    && !s.riddle.any (fun q => q.2.ctx == some ctx && q.2.runs.any fun r => r.2.tok.isSome)

/-- An element's shadow slot of a context becomes resident in place of its old one. -/
def Elem.switchSlot (e : Elem) (ctx : Nat) : Elem :=
  let old := slotOfCtx e.slots ctx
  let e1 := { e with
    slots := match old with | some (i, _) => tabDel e.slots i | none => e.slots
    shadow := tabDel e.shadow ctx
    backing := tabDel e.backing ctx
    backingOps := tabDel e.backingOps ctx }
  match tabGet e.shadow ctx with
  | none => e1
  | some sl =>
    match (match old with | some (i, _) => some i | none => e1.freeSlot) with
    | some i => { e1 with slots := tabPut e1.slots i sl }
    | none => { e1 with backing := tabPut e1.backing ctx sl }

/-- An engine that no port has switched takes its shadow (R298; notes/assumptions/31.md). -/
def State.switchEngines (s : State) (ctx part : Nat) (im : Image) : State :=
  let nin (engine u size : Nat) : Tab Nat :=
    match s.lfOf part (if size = 64 then u else u / 4), u with
    | lf, u => im.portNin engine (if size = 64 then lf else lf * 4 + u % 4) size
  { s with
    press := s.press.map fun q =>
      (q.1, if q.2.ctx = some ctx ∧ !q.2.shadow.isEmpty then
              { q.2 with words := q.2.shadow, shadow := [], swIn := [], nin := nin 0 q.1 16, sent := [] } else q.2)
    graft := s.graft.map fun q =>
      (q.1, if q.2.ctx = some ctx ∧ !q.2.shadow.isEmpty then
              { q.2 with descs := q.2.shadow, shadow := [], swIn := [], nin := nin 1 q.1 16, sent := [] } else q.2)
    riddle := s.riddle.map fun q =>
      (q.1, if q.2.ctx = some ctx ∧ !q.2.shadow.isEmpty then
              { q.2 with descs := q.2.shadow, shadow := [], swIn := [], nin := nin 2 q.1 64, sent := [] } else q.2) }

/-- Tasks of an image are bound on their control cores. -/
def State.bindTasks (s : State) (part : Nat) : List TaskRec → State
  | [] => s
  | t :: r => (match s.physQuire part t.pos with | some q => s.bindTask q t | none => s).bindTasks part r

/-- `SHADOW_SWITCH` (R138, R298): the shadow becomes resident on every folio of the context, and the switch completes. -/
def execShadowSwitch (ctx : Nat) (s : State) : Res :=
  match s.ctx? ctx with
  | none => idle s
  | some c =>
    match c.switch with
    | none => idle s
    | some w =>
      match tabGet s.images w.image with
      | none => idle s
      | some im =>
        if !s.mayIssue ctx ∨ w.count ≠ w.nterm ∨ !s.switchReady ctx c then idle s
        else
          let s1 := (s.heldElems c).foldl (fun s p => s.setElem p ((s.elem p).switchSlot ctx)) s
          let s2 := (s1.switchEngines ctx c.part im).bindTasks c.part im.tasks
          .next ((s2.setCtx ctx { c with image := w.image, acts := im.acts, shadow := none, switch := none }).cmdDone
            w.cmd.1 w.cmd.2 0 0)

end Sys2Proof.Machine
end

