-- ==== Sys2Proof/Machine/Launch.lean ====
section
/-! DEFINITION. Launch records from their source to placement, and the records that answer them (R357 to R371). -/

namespace Sys2Proof.Machine

/-! ### Fields of a record (R358) -/

def Launch.format (l : Launch) : Nat := fieldOf l.bytes 0 1
def Launch.dq (l : Launch) : Nat := fieldOf l.bytes 2 1
def Launch.flags (l : Launch) : Nat := fieldOf l.bytes 3 1
def Launch.lhandle (l : Launch) : Nat := fieldOf l.bytes 4 4
def Launch.imgva (l : Launch) : Nat := fieldOf l.bytes 8 8
def Launch.entry (l : Launch) : Nat := fieldOf l.bytes 0x10 4
def Launch.kctx (l : Launch) : Nat := fieldOf l.bytes 0x14 2
def Launch.user (l : Launch) : Nat := fieldOf l.bytes 0x1A 2

/-- `0xFFFF_FFFF`: no handle, or no entry. -/
def noWord : Nat := 2 ^ 32 - 1

/-- Bytes of a string replaced by a number, little-endian. -/
def setField8 (b : Bytes) (off n v : Nat) : Bytes := b.take off ++ bytesOf n v ++ b.drop (off + n)

/-- Hardware writes PARENT, HOMEVF and the clamped PRIO (R361). -/
def Launch.stamped (l : Launch) (clamp : Nat) : Launch :=
  let prio := min (fieldOf l.bytes 1 1) clamp
  let b := setField8 (setField8 l.bytes 0x16 2 (l.parent.getD 0xFFFF)) 0x18 2 (destVf l.homevf)
  { l with bytes := if fieldOf l.bytes 1 1 > 7 then b else setField8 b 1 1 prio, prio := if fieldOf l.bytes 1 1 > 7 then 0 else prio }

/-! ### Answers (R359, R371) -/

/-- A completion record. -/
def completion (kind code ctx user reason exit discard cancel parkd strand : Nat) : BitVec 256 :=
  BitVec.ofNat 256 (kind % 256 * 2 ^ 248 + code % 256 * 2 ^ 240 + ctx % 4096 * 2 ^ 228 + user % 65536 * 2 ^ 208
    + reason % 256 * 2 ^ 200 + exit % 2 ^ 32 * 2 ^ 160 + min discard (2 ^ 32 - 1) * 2 ^ 128 + min cancel (2 ^ 32 - 1) * 2 ^ 96
    + min parkd (2 ^ 32 - 1) * 2 ^ 64 + strand % 2 ^ 32 * 2 ^ 32)

/-- A completion record as a token for a delivery queue. -/
def completionToken (ctx dq : Nat) (r : BitVec 256) (h : Handle) : Token :=
  { Token.blank ctx with kind := 3, node := BitVec.ofNat 8 dq, wid := 7, plate := h, pay := BitVec.ofNat 1024 r.toNat }

/-- The context number in the delivery of a record that no context's number waits for. -/
def noCtx : Nat := 4096

/-- A completion record goes to the delivery unit; `ctx` is the number that it holds until it is written. -/
def State.report (s : State) (vf dq ctx : Nat) (r : BitVec 256) (h : Handle) : State :=
  { s with deliveries := s.deliveries ++
      [{ vf := vf, queue := dq, tok := completionToken (if ctx = noCtx then 0 else ctx) dq r h, ctx := ctx, pos := 0, node := 0xFF,
         report := true }] }

/-- The issuer of a record gets its answer: code 0 for a placed context (R359, R365). -/
def State.launchReply (s : State) (l : Launch) (code ctx reason : Nat) : State :=
  match l.elemAcc, l.cmd with
  | some (pos, id), _ => { s with responses := s.responses ++ [(pos, id, code)] }
  | none, some (q, id) => s.cmdDone q id code (if code = 0 then ctx else code)
  | none, none =>
    if code = 0 then s
    else if l.dq = 255 then s.vfCount l.homevf 31 24 code
    else s.report l.homevf l.dq noCtx (completion 2 code 0 l.user reason 0 0 0 0 0) 0

/-! ### Entering the launch channel (R360, R361) -/

/-- A record stands in its partition's channel. -/
def State.enterChannel (s : State) (l : Launch) (clamp : Nat) : State :=
  s.modPart l.part fun p => { p with launches := p.launches ++ [l.stamped clamp] }

/-- Free entries of a partition's launch channel: LCREDIT. -/
def State.launchCredit (s : State) (part : Option Nat) : Nat :=
  match part with
  | none => 0
  | some n => match s.part? n with | some p => 256 - p.launches.length | none => 0

/-- `LAUNCH_WINDOW_WRITE` (R360): a write to a function's launch window. -/
def execLaunchWindowWrite (vf off : Nat) (data : Bytes) (s : State) : Res :=
  let v := s.vf vf
  if !(decide (vf < 384) || vf == pfNum) ∨ off ≥ 4096 ∨ s.hostReqs.any (fun r => r.vf == vf && r.write) then idle s
  else if data.length ≠ 64 ∨ off % 64 ≠ 0 then .next (s.vfCount vf 39 32 0)
  else match v.part with
    | none => .next (s.vfCount vf 31 24 0xC2)
    | some p =>
      let l : Launch := { bytes := data, part := p, parent := none, homevf := vf, prio := 0, plate := s.ingress (destVf vf),
                          hyp := vf == pfNum, elemAcc := none, cmd := none, ctx := 0, resume := false, got := [], image := none,
                          dies := none }
      if s.launchCredit (some p) = 0 then .next (s.launchReply l 0xC5 0 0) else .next (s.enterChannel l v.maxPrio)

/-- `LAUNCH_CHANNEL_ENTRY` (R360): a device record enters its channel behind those before it. -/
def execLaunchChannelEntry (idx : Nat) (s : State) : Res :=
  match s.toSpine[idx]? with
  | none => idle s
  | some l =>
    if (s.toSpine.take idx).any (fun o => o.part == l.part) ∨ s.launchCredit (some l.part) = 0 then idle s
    else
      let prio := match l.parent with | some c => (match s.ctx? c with | some x => x.prio | none => 0) | none => 0
      .next ({ s with toSpine := listDrop s.toSpine idx }.enterChannel l prio)

/-! ### The global dispatcher (R362, R369) -/

/-- Context numbers in use: live contexts, launches under way, and reports still to be written (R370). -/
def State.numbersUsed (s : State) : List Nat :=
  s.ctxs.map (·.1) ++ s.batches.map (·.2.ctx) ++ s.dies.flatMap (fun d => d.2.queue.map (·.ctx))
    ++ (s.deliveries.filter (·.report)).map (·.ctx)

/-- The lowest free context number of a partition's quota. -/
def State.freeNumber (s : State) (p : Partn) : Option Nat :=
  ((List.range p.nctx).map (p.ctxBase + ·)).find? fun n => !s.numbersUsed.contains n

/-- Whether ENTRY names no node of an image. -/
def entryBad (im : Image) (e : Nat) : Bool :=
  e != noWord && (bitF e 31 30 != 0 || bitF e 15 8 != 0
    || (match recAt im.elems (bitF e 29 16) with | some r => decide (e % 256 ≥ r.insts.length) | none => true))

/-- Whether DQ names a queue that takes no record (R401, R416). -/
def State.dqBad (s : State) (vf dq : Nat) : Bool :=
  dq != 255 && (decide (dq ≥ (s.vf vf).ndq) || !((s.vf vf).queue dq).en)

/-- The code that refuses a record at the head of its channel, 0 for none (R358, R359; notes/assumptions/29.md). -/
def State.launchCheck (s : State) (p : Partn) (l : Launch) : Nat :=
  let kill := l.format == 2
  if (l.format ≠ 1 ∧ !kill) ∨ fieldOf l.bytes 1 1 > 7 ∨ l.flags > 3 ∨ fieldOf l.bytes 0x1C 4 ≠ 0 ∨ (!kill ∧ l.kctx ≠ 0)
      ∨ (kill ∧ l.kctx ≥ 4096) then 0xC0
  else if kill then 0
  else
    let im := tabGet s.images l.lhandle
    let known := match im with | some i => i.part == l.part | none => false
    if l.lhandle ≠ noWord ∧ !known then 0xC1
    else if (match im with
        | some i => l.lhandle != noWord && entryBad i l.entry
        | none => l.entry != noWord && (bitF l.entry 31 30 != 0 || bitF l.entry 15 8 != 0)) || s.dqBad l.homevf l.dq then 0xC0
    else if p.nctx = 0 then 0xC2
    else if (tabGet p.fmap 0).isNone then 0xC3
    else 0

/-- A kill record acts (R369). -/
def State.kill (s : State) (l : Launch) : State :=
  let n := l.kctx % 4096
  match s.ctx? n with
  | some c =>
    if c.tear = .alive ∧ ((l.hyp ∧ l.parent.isSome) ∨ c.homevf = l.homevf) then
      (s.beginEnd n 3 0 0 0).launchReply l 0 n 0
    else s.launchReply l 0xC6 0 0
  | none => s.launchReply l 0xC6 0 0

/-- Priority of a record as the dispatcher sees it: 0 while its partition's guarantee is suspended (R408). -/
def Partn.headPrio (p : Partn) (l : Launch) : Nat := if p.susp then 0 else l.prio

/-- Free entries of a die's placement queue, records on their way counted. -/
def State.dieCredit (s : State) (d : Nat) : Nat :=
  64 - (s.dieAt d).queue.length - (s.batches.filter fun b => b.1 == d).length

/-- One partition is served at one priority; whether it was. -/
def State.servePart (s : State) (prio q : Nat) (served : Bool) : Nat → State × Bool
  | 0 => (s, served)
  | n + 1 =>
    match s.part? q with
    | none => (s, served)
    | some p =>
      match p.launches with
      | [] => (s, served)
      | l :: rest =>
        if p.headPrio l ≠ prio ∨ p.status ≠ 1 then (s, served)
        else
          let s1 := s.setPart q { p with launches := rest }
          let code := s.launchCheck p l
          let d := match tabGet p.fmap 0 with | some e => e.gfolio / 16 | none => 0
          if code ≠ 0 then (s1.launchReply l code 0 0).servePart prio q true n
          else if s.dieCredit d = 0 then (s, served)
          else if l.format = 2 then (s1.kill l).servePart prio q true n
          else match s.freeNumber p with
            | none => (s, served)
            | some c => { s1 with batches := s1.batches ++ [(d, { l with ctx := c, prio := p.headPrio l })] }.servePart prio q true n

/-- The partitions at one priority, in round robin. -/
def State.servePrio (s : State) (prio : Nat) : List Nat → State
  | [] => s
  | q :: r =>
    match s.servePart prio q false 257 with
    | (s1, true) => { s1 with lastServed := tabPut s1.lastServed prio q }.servePrio prio r
    | (s1, false) => s1.servePrio prio r

/-- `DISPATCHER_CYCLE` (R362): one cycle of the global dispatcher. -/
def execDispatcherCycle (s : State) : Res :=
  .next ([7, 6, 5, 4, 3, 2, 1, 0].foldl (fun s p =>
    let last := (tabGet s.lastServed p).getD 31
    s.servePrio p ((List.range 32).map fun i => (last + 1 + i) % 32)) s)

/-- `DIE_BATCH_ARRIVAL` (R362, R363): a record of a batch enters its die's placement queue, in the order of the batch. -/
def execDieBatchArrival (idx : Nat) (s : State) : Res :=
  match s.batches[idx]? with
  | none => idle s
  | some (d, l) =>
    if (s.batches.take idx).any (fun b => b.1 == d) ∨ (s.dieAt d).queue.length ≥ 64 then idle s
    else
      let s1 := { s with batches := listDrop s.batches idx }
      .next (s1.setDie d { s1.dieAt d with queue := (s1.dieAt d).queue ++ [l] })

/-! ### Whether a launch fits (R363, R364) -/

/-- What a placement comes to. -/
inductive Fit where
  | fit
  | wait
  | never
  deriving DecidableEq, Repr

/-- Physical hops between two POS of a partition. -/
def State.physHops (s : State) (part p q : Nat) : Nat :=
  match s.physOf part p, s.physOf part q with
  | some a, some b => ((meshX a : Int) - meshX b).natAbs + ((meshY a : Int) - meshY b).natAbs
  | _, _ => 0

/-- Launches that have reserved resources of dies: partition, dies and image (R364). -/
def State.reservers (s : State) (own : Nat) : List (Nat × List Nat × Image) :=
  (s.dies.flatMap fun d => d.2.queue.filterMap fun l =>
    if l.ctx = own then none
    else match l.dies, l.image with
      | some ds, some h => (tabGet s.images h).map fun im => (l.part, ds, im)
      | _, _ => none)

/-- The share that launches under way have reserved on an element. -/
def State.shareReserved (s : State) (own pos : Nat) : Nat :=
  (s.reservers own).foldl (fun n r =>
    if r.2.1.contains (dieOf pos) ∧ s.ownerOf (folioOf pos) = some r.1 then n + tabNum r.2.2.shares (s.logOf r.1 pos) else n) 0

def State.granReserved (s : State) (own q : Nat) : Nat :=
  (s.reservers own).foldl (fun n r =>
    if r.2.1.contains (q / 64) ∧ s.ownerOf (q / 4) = some r.1 then n + tabNum r.2.2.reserves (s.logOf r.1 (q * 16)) else n) 0

/-- Whether a launch under way has reserved a Press, Graft, Riddle or QCC: engine 3 stands for the QCC. -/
def State.unitReserved (s : State) (own engine u : Nat) : Bool :=
  (s.reservers own).any fun r =>
    let folio := if engine = 2 then u else u / 4
    r.2.1.contains (folio / 16) && s.ownerOf folio == some r.1 &&
      (let lp := if engine = 2 then s.lfOf r.1 folio * 64 else s.logOf r.1 (u * 16)
       if engine = 3 then r.2.2.tasks.any (·.pos == lp) else (r.2.2.engines engine).contains lp)

/-- Shares held on an element by every context but one. -/
def Elem.sharesHeld (e : Elem) : Nat :=
  (e.slots ++ e.shadow ++ e.backing).foldl (fun n q => n + q.2.share) 0

/-- Whether the resources of R363 on some dies are free for an image. -/
def State.resourcesFree (s : State) (ctx part : Nat) (im : Image) (dies : Nat → Bool) : Bool :=
  let cap := match s.part? part with | some p => p.ovfCap | none => 0
  im.shares.all (fun q =>
      match s.physOf part q.1 with
      | some p => !dies (dieOf p) || decide ((s.elem p).sharesHeld + s.shareReserved ctx p + q.2 ≤ 256)
      | none => true)
    && im.reserves.all (fun q =>
      match s.physQuire part q.1 with
      | some u => !dies (u / 64) || decide ((s.ovf u).reserve.foldl (fun n r => n + r.2) 0 + s.granReserved ctx u + q.2 ≤ cap)
      | none => true)
    && (im.engines 0).all (fun p =>
      match s.physQuire part p with
      | some u => !dies (u / 64) || ((s.pressOf u).ctx.isNone && !s.unitReserved ctx 0 u)
      | none => true)
    && (im.engines 1).all (fun p =>
      match s.physQuire part p with
      | some u => !dies (u / 64) || ((s.graftOf u).ctx.isNone && !s.unitReserved ctx 1 u)
      | none => true)
    && (im.engines 2).all (fun p =>
      match s.physFolio part p with
      | some u => !dies (u / 16) || ((s.riddleOf u).ctx.isNone && !s.unitReserved ctx 2 u)
      | none => true)
    && im.tasks.all (fun t =>
      match s.physQuire part t.pos with
      | some u => !dies (u / 64) || ((s.qcc u).ctx.isNone && !s.unitReserved ctx 3 u)
      | none => true)
    && (im.tt.isEmpty ||
      match s.mapEntry part 0 with
      | some e => !dies (e.gfolio / 16) || decide ((s.barrowOf (e.gfolio / 16)).tables.length < 64)
      | none => true)

/-- Whether an image can never be placed on its folios as they are (R31, R363, R406). -/
def State.neverFits (s : State) (part : Nat) (im : Image) : Bool :=
  let cap := match s.part? part with | some p => p.ovfCap | none => 0
  (List.range im.nfolio).any (fun lf => (s.mapEntry part lf).isNone)
    || im.elems.any (fun e => match s.physOf part e.pos with | some p => s.retiredElem p | none => true)
    || im.tasks.any (fun t => match s.physOf part t.pos with | some p => s.retired.contains (.quire (quireOf p)) | none => true)
    || [0, 1].any (fun e => (im.engines e).any fun p =>
        match s.physOf part p with | some p => s.retired.contains (.quire (quireOf p)) | none => true)
    || im.shares.any (fun q => decide (q.2 > 256)) || im.reserves.any (fun q => decide (q.2 > cap))
    || (balanceBad im (s.physHops part)).isSome

/-- Whether a launch fits on the dies given. -/
def State.fits (s : State) (ctx part : Nat) (im : Image) (dies : Nat → Bool) : Fit :=
  if s.neverFits part im then .never
  else if (List.range im.nfolio).any (fun lf => match s.mapEntry part lf with | some e => e.st == MapSt.moving | none => false)
      || !s.resourcesFree ctx part im dies || (match s.part? part with | some p => p.status != 1 | none => true) then .wait
  else .fit

/-- The dies of an image's folios. -/
def State.imageDies (s : State) (part : Nat) (im : Image) : List Nat :=
  (List.range 16).filter fun d => (List.range im.nfolio).any fun lf =>
    match s.mapEntry part lf with | some e => e.gfolio / 16 == d | none => false

/-! ### Placement (R22, R165, R274, R365) -/

/-- Every plot of a folio as placement leaves it. -/
def State.placePlots (s : State) (im : Image) (lf g : Nat) : State :=
  (List.range 4096).foldl (fun s i =>
    let n := g * 4096 + i
    let d := s.plot n
    let res := im.mode == 2 || im.resident.contains (lf * 4096 + i)
    { s.setPlot n { res := res, pin := false, zero := true, handle := 0, gen := if res && !d.res then d.gen + 1 else d.gen } with
      zeroRows := tabDel s.zeroRows n }) s

def State.placeFolios (s : State) (part : Nat) (im : Image) : State :=
  (List.range im.nfolio).foldl (fun s lf =>
    match s.mapEntry part lf with | some e => s.placePlots im lf e.gfolio | none => s) s

/-- A slot is installed where the element has a free one, or stands in the backing area. -/
def Elem.placeSlot (e : Elem) (sl : Slot) : Elem :=
  let e1 := if e.slots.isEmpty then { e with cur := 3, used := 0 } else e
  match (if e.slotsUsed < 4 then e.freeSlot else none) with
  | some i => { e1 with slots := tabPut e1.slots i sl }
  | none => { e1 with backing := tabPut e1.backing sl.ctx sl }

def State.placeElems (s : State) (ctx part vf : Nat) (im : Image) : State :=
  im.elems.foldl (fun s e =>
    match s.physOf part e.pos with
    | some p => s.setElem p ((s.elem p).placeSlot (s.newSlot im e ctx part vf))
    | none => s) s

def State.placeReserves (s : State) (ctx part : Nat) (im : Image) : State :=
  im.reserves.foldl (fun s q =>
    match s.physQuire part q.1 with
    | some u => s.setOvf u { s.ovf u with reserve := tabPut (s.ovf u).reserve ctx q.2 }
    | none => s) s

/-- The bytes of an address range removed. -/
def memClear (m : Memory) (a n : Nat) : Memory := m.filter fun c => !(decide (a ≤ c.1) && decide (c.1 < a + n))

/-- A control core as a context's tasks find it (R274): control memory is zero. -/
def State.freshQcc (s : State) (q ctx : Nat) (hyp : Bool) : State :=
  { s with
    ctl := memClear s.ctl (q * 65536) 65536
    ctlRegion := s.ctlRegion.filter fun r => r.1 / 16 != q }.writeErrs .control (q * 65536) 65536
  |>.setQcc q { Qcc.fresh with ctx := some ctx, hyp := hyp }

def State.placeTasks (s : State) (ctx part : Nat) (hyp : Bool) (im : Image) : State :=
  let qs := (im.tasks.filterMap fun t => s.physQuire part t.pos).eraseDups
  (qs.foldl (fun s q => s.freshQcc q ctx hyp) s).bindTasks part im.tasks

def State.placeEngines (s : State) (ctx part : Nat) (im : Image) : State :=
  let s1 := (im.engines 0).foldl (fun s lp =>
    match s.physQuire part lp with
    | some u => s.setPress u { Press.fresh with ctx := some ctx, words := im.pressWords lp, nin := im.portNin 0 (lp / 16) 16 }
    | none => s) s
  let s2 := (im.engines 1).foldl (fun s lp =>
    match s.physQuire part lp with
    | some u => s.setGraft u { Graft.fresh with ctx := some ctx, descs := im.graftDescs lp, nin := im.portNin 1 (lp / 16) 16 }
    | none => s) s1
  (im.engines 2).foldl (fun s lp =>
    match s.physFolio part lp with
    | some u => s.setRiddle u { Riddle.fresh with ctx := some ctx, descs := im.riddleDescs lp, nin := im.portNin 2 (lp / 64) 64 }
    | none => s) s2

/-- Element (16,16) of a die (R422). -/
def dieCentre (die : Nat) : Nat := posOfXY (die % 4 * 32 + 16) (die / 4 * 32 + 16)

/-- The argument token (R365 step 5); none while the mesh has no room for it. -/
def State.sendArgs (s : State) (die : Nat) (l : Launch) : Option State :=
  if l.flags % 2 = 0 ∨ l.entry = noWord then some s
  else
    let lp := bitF l.entry 29 16
    match s.physOf l.part lp with
    | none => some s
    | some p =>
      let t : Token := { Token.blank l.ctx with
        die := BitVec.ofNat 4 (dieOf p), x := BitVec.ofNat 7 (logX lp), y := BitVec.ofNat 7 (logY lp),
        node := BitVec.ofNat 8 (l.entry % 256), wid := 7, plate := l.plate, pay := BitVec.ofNat 1024 (numOf (l.bytes.drop 32)) }
      s.inject (dieCentre die) 5 p t

/-- The start messages (R365 step 6). -/
def State.sendStarts (s : State) (l : Launch) (im : Image) : State :=
  if l.flags / 2 = 0 then s
  else
    let qs := ((im.tasks.filter (·.chan == 14)).filterMap fun t => s.physQuire l.part t.pos).eraseDups
    let t : Token := { Token.blank l.ctx with kind := 2, node := 14, wid := 15, plate := l.plate, pay := BitVec.ofNat 1024 (numOf l.bytes) }
    { s with msgs := s.msgs ++ qs.map fun q =>
        { quire := q, chan := 14, tok := t, sender := none, accepted := false, dx := 31, dy := 31, outTok := t } }

/-- The time-sliced functions of a partition that have a live context. -/
def State.liveVfs (s : State) (part : Nat) : List Nat :=
  (s.vfs.filter fun v => v.2.part == some part && v.2.mode == 2 && v.1 != pfNum
    && s.ctxs.any fun c => c.2.part == part && c.2.homevf == v.1 && c.2.tear == .alive).map (·.1)

/-- A function takes the turn when the one whose turn it is has no live context. -/
def State.joinTurn (s : State) (part vf : Nat) : State :=
  match s.part? part with
  | some p =>
    if (s.vf vf).mode = 2 ∧ vf ≠ pfNum ∧ !(s.liveVfs part).contains p.turn then s.setPart part { p with turn := vf, turnAt := s.tick }
    else s
  | none => s

/-- Whether a time slice gates a function's contexts now (R401). -/
def State.slicedNow (s : State) (part vf : Nat) : Bool :=
  match s.part? part with
  | some p => (s.vf vf).mode == 2 && vf != pfNum && p.turn != vf
      && s.ctxs.any (fun c => c.2.part == part && c.2.homevf == p.turn && c.2.tear == .alive)
  | none => false

/-- The context of a launch. -/
def State.launched (s : State) (l : Launch) (h : Nat) (im : Image) : Ctx where
  part := l.part
  image := h
  parent := l.parent
  homevf := l.homevf
  user := BitVec.ofNat 16 l.user
  dq := l.dq
  prio := l.prio
  hyp := l.hyp
  nfolio := im.nfolio
  acts := im.acts
  fault := FaultRec.fresh
  gated := false
  sliced := s.slicedNow l.part l.homevf
  save := none
  tear := .alive
  ending := { kind := 0, code := 0, exit := 0, plate := 0 }
  discard := 0
  cancel := 0
  parkd := 0
  shadow := none
  switch := none
  placed := true
  deepVa := 0
  deepSize := 0

/-- Every step of R365; none while the argument token has no room. -/
def State.place (s : State) (die : Nat) (l : Launch) (h : Nat) (im : Image) : Option State :=
  let s0 := s.joinTurn l.part l.homevf
  let s1 := s0.setCtx l.ctx (s0.launched l h im)
  let s2 := ((s1.placeFolios l.part im).placeElems l.ctx l.part l.homevf im).placeReserves l.ctx l.part im
  let s3 := (s2.placeTasks l.ctx l.part l.hyp im).placeEngines l.ctx l.part im
  match (s3.launchReply l 0 l.ctx 0).sendArgs die l with
  | some s4 => some (s4.sendStarts l im)
  | none => none

/-! ### The die dispatcher (R364, R365) -/

/-- An entry of a die's queue changed, or taken out. -/
def State.modEntry (s : State) (die i : Nat) (g : Launch → Launch) : State :=
  let d := s.dieAt die
  s.setDie die { d with queue := listMod d.queue i g }

def State.dropEntry (s : State) (die i : Nat) : State :=
  let d := s.dieAt die
  s.setDie die { d with queue := listDrop d.queue i, headWait := if i = 0 then none else d.headWait,
                        blocked := if i = 0 then false else d.blocked }

/-- The unit that reads the image of a launch. -/
def State.loadWho (s : State) (die : Nat) (l : Launch) : Who :=
  let g := match s.mapEntry l.part 0 with | some e => e.gfolio | none => die * 16
  { ctx := l.ctx, part := l.part, quire := g * 4, kind := 3, key := unitKey 9 die l.ctx, parks := true }

/-- The image of an entry is read on (R365 step 1): loaded, refused with NOIMAGE, or refused for its ENTRY. -/
def State.loadEntry (s : State) (die i : Nat) (l : Launch) : State :=
  let refuse (s : State) (code reason : Nat) : State := (s.dropEntry die i).launchReply l code 0 reason
  match s.fetchImage (s.loadWho die l) l.imgva l.got with
  | .more got s1 => s1.modEntry die i fun l => { l with got := got }
  | .fail _ s1 => refuse s1 0xC1 1
  | .done b s1 =>
    match checkImage b l.part with
    | .inr r => refuse s1 0xC1 (bitF r.toNat 119 112)
    | .inl im =>
      if entryBad im l.entry then refuse s1 0xC0 0
      else
        let h := s1.newLoad
        { s1 with images := tabPut s1.images h im }.modEntry die i fun l => { l with image := some h, got := [] }

/-- The dies, other than the home die, whose reservation an entry still needs (R364). -/
def State.diesNeeded (s : State) (die : Nat) (l : Launch) (im : Image) : List Nat :=
  (s.imageDies l.part im).filter fun d => d != die && !(l.dies.getD []).contains d

/-- What a die dispatcher does with one entry; none when it passes on to a later one. -/
def State.serveEntry (s : State) (die i : Nat) (l : Launch) : Option State :=
  let h := match l.image with | some h => some h | none => if l.lhandle = noWord then none else some l.lhandle
  match h with
  | none => some (s.loadEntry die i l)
  | some h =>
    match tabGet s.images h with
    | none => some ((s.dropEntry die i).launchReply l 0xC1 0 0)
    | some im =>
      match s.fits l.ctx l.part im (fun d => d == die || !(l.dies.getD []).contains d) with
      | .never => some ((s.dropEntry die i).launchReply l 0xC3 0 0)
      | .wait => if l.dies.isSome then some (s.modEntry die i fun l => { l with dies := none }) else none
      | .fit =>
        if (s.imageDies l.part im).any (· != die) ∧ l.dies.isNone then
          some (s.modEntry die i fun l => { l with dies := some [], image := some h })
        else if !(s.diesNeeded die l im).isEmpty then some s
        else match (s.dropEntry die i).place die l h im with
          | some s1 => some s1
          | none => some s

/-- The dispatcher looks at the head, then at the entries behind it. -/
def State.serveQueue (s : State) (die : Nat) : Nat → List Launch → Option State
  | _, [] => none
  | i, l :: r =>
    if l.resume then s.serveQueue die (i + 1) r
    else match s.serveEntry die i l with
      | some s1 => some s1
      | none => s.serveQueue die (i + 1) r

/-- Reservations of other dies' launches that a die has still to serve: home die, place in its queue, and launch (R364). -/
def State.reservationsAt (s : State) (die : Nat) : List (Nat × Nat × Launch) :=
  s.dies.flatMap fun q => (q.2.queue.mapIdx fun i l => (q.1, i, l)).filter fun x =>
    q.1 != die && x.2.2.dies.isSome &&
      (match x.2.2.image with
       | some h => (match tabGet s.images h with | some im => (s.diesNeeded q.1 x.2.2 im).head? == some die | none => false)
       | none => false)

/-- The head begins to wait (R364). -/
def State.headWaits (s : State) (die : Nat) : State :=
  let d := s.dieAt die
  s.setDie die { d with headWait := match d.headWait with | some t => some t | none => some s.tick }

/-- Whether a head that waits keeps later entries from being placed (R364). -/
def State.headBlocks (s : State) (die : Nat) : Bool :=
  (s.dieAt die).blocked || (match (s.dieAt die).headWait with | some t => decide (s.cyclesSince die t ≥ 65536) | none => false)

/-- `PLACEMENT` (R364, R365): the die dispatcher serves its queue once; reservations of other dies go first. -/
def execPlacement (die : Nat) (s : State) : Res :=
  if !(s.reservationsAt die).isEmpty then idle s
  else match (s.dieAt die).queue with
    | [] => idle s
    | l :: rest =>
      match s.serveQueue die 0 [l] with
      | some s1 => .next s1
      | none =>
        let s1 := s.headWaits die
        if s1.headBlocks die then .next s1
        else .next ((s1.serveQueue die 1 (rest.take 63)).getD s1)

/-- `HEAD_WAIT_EXPIRY` (R364). -/
def execHeadWaitExpiry (die : Nat) (s : State) : Res :=
  let d := s.dieAt die
  match d.headWait with
  | some t => if s.cyclesSince die t ≥ 65536 ∧ !d.blocked then .next (s.setDie die { d with blocked := true }) else idle s
  | none => idle s

/-- `REMOTE_RESERVATION` (R364): a die serves a reservation for another die's launch, or the launch gives up what it has. -/
def execRemoteReservation (die idx : Nat) (s : State) : Res :=
  match (s.reservationsAt die)[idx]? with
  | none => idle s
  | some (home, i, l) =>
    match l.image with
    | none => idle s
    | some h =>
      match tabGet s.images h with
      | none => idle s
      | some im =>
        match s.fits l.ctx l.part im (· == die) with
        | .fit => .next (s.modEntry home i fun l => { l with dies := l.dies.map (· ++ [die]) })
        | _ => .next (s.modEntry home i fun l => { l with dies := none })

end Sys2Proof.Machine
end

