-- ==== Sys2Proof/Machine/Discard.lean ====
section
/-! DEFINITION. What a tear-down discards, cancels and frees, and its report (R173, R302, R319, R335, R345, R369 to R371). -/

namespace Sys2Proof.Machine

/-! ### Tokens of a context (R370 step 1) -/

/-- Tokens of a pair. -/
def Pair.count (p : Pair) : Nat := (p.opL.toList ++ p.opR.toList ++ p.ordL.toList).length

def Token.of (ctx : Nat) (t : Token) : Bool := t.ctx.toNat == ctx

/-- Slot indexes that a context has on an element. -/
def Elem.slotsOf (e : Elem) (ctx : Nat) : List Nat := (e.slots.filter fun q => q.2.ctx == ctx).map (·.1)

/-- Tokens of a context on an element. -/
def Elem.countOf (e : Elem) (ctx : Nat) : Nat :=
  let ix := e.slotsOf ctx
  (e.mstore.filter fun h => h.tok.of ctx).length + (e.aside.filter fun a => a.tok.of ctx).length
    + ((e.fifo.filter fun q => ix.contains q.1).map fun q => q.2.count).sum
    + (e.out.filter fun o => ix.contains o.slotIx).length
    + (match tabGet e.backingOps ctx with | some l => l.length | none => 0)
    + ((e.rob.filter fun r => ix.contains r.slotIx).map fun r => match r.done with | some l => l.length | none => 0).sum

/-- The element without a context's tokens; reorder-buffer entries whose access is under way stay, unless listed. -/
def Elem.discard (e : Elem) (ctx : Nat) (gone : List Nat) : Elem :=
  let ix := e.slotsOf ctx
  { e with
    mstore := e.mstore.filter fun h => !h.tok.of ctx
    aside := e.aside.filter fun a => !a.tok.of ctx
    fifo := e.fifo.filter fun q => !ix.contains q.1
    out := e.out.filter fun o => !ix.contains o.slotIx
    backingOps := tabDel e.backingOps ctx
    rob := e.rob.filter fun r => !(ix.contains r.slotIx && (r.done.isSome || gone.contains r.acc))
    exh := e.exh.filter fun x => !ix.contains x.1
    fetching := e.fetching.filter (· != ctx)
    stuck := e.stuck.filter fun q => q.1 != ctx }

/-- Whether a flit is a token or a notice of a context. -/
def Flit.of (ctx : Nat) : Flit → Bool
  | .tok _ t => t.of ctx
  | .notice _ c _ _ => c == ctx
  | _ => false

def Flit.isTok : Flit → Bool
  | .tok _ _ => true
  | _ => false

/-- Buffers without a context's flits; empty ones are not listed. -/
def dropFlits (ctx : Nat) (b : Tab (List Flit)) : Tab (List Flit) :=
  (b.map fun q => (q.1, q.2.filter fun f => !f.of ctx)).filter fun q => !q.2.isEmpty

/-- Tokens that an overflow entry stands for. -/
def OvfEntry.count (e : OvfEntry) : Nat :=
  match e.what with
  | .expect => 0
  | .alloc p _ _ => p.count
  | _ => 1

def Overflow.discard (o : Overflow) (ctx : Nat) : Overflow :=
  { o with entries := o.entries.filter fun e => e.ctx != ctx, spilling := o.spilling.filter fun e => e.ctx != ctx }

/-- The number of a running task's channel; 16 for none. -/
def Qcc.taskChan (k : Qcc) : Nat := match k.task with | some t => t.chan | none => 16

/-- Messages of a context among those of a channel; one that a running task has taken stays (R279). -/
def chanSplit (keep : Bool) (ctx : Nat) (l : List Token) : List Token × List Token :=
  if keep then
    match l with
    | [] => ([], [])
    | m :: r => (m :: r.filter fun t => !t.of ctx, r.filter fun t => t.of ctx)
  else (l.filter fun t => !t.of ctx, l.filter fun t => t.of ctx)

/-- A control core without a context's messages and, when it serves the context, without its task and commands. -/
def Qcc.discard (k : Qcc) (ctx : Nat) : Qcc :=
  if k.ctx = some ctx then
    { k with chans := [], outq := [], cmds := [], graph := [], task := none,
             g := k.g.map fun q => (q.1, { q.2 with stream := none }) }
  else
    { k with chans := (k.chans.map fun q => (q.1, (chanSplit (q.1 == k.taskChan) ctx q.2).1)).filter fun q => !q.2.isEmpty }

/-- Messages and commands that go with it. -/
def Qcc.countOf (k : Qcc) (ctx : Nat) : Nat :=
  if k.ctx = some ctx then
    (k.chans.map fun q => q.2.length).sum + k.outq.length + (k.cmds.filter fun c => !c.fence).length
  else (k.chans.map fun q => (chanSplit (q.1 == k.taskChan) ctx q.2).2.length).sum

def Press.discard (p : Press) : Press := { p with tiles := [], scales := [], go := [], drains := [], port18 := [] }
def Press.count (p : Press) : Nat :=
  (p.tiles.map fun t => t.fills.length + t.shifts.length).sum + p.scales.length + p.go.length
    + (p.drains.map fun d => d.toks.length).sum + p.port18.length

def Graft.discard (g : Graft) : Graft := { g with steps := [], shared := [], scans := [], wload := none, yout := [] }
def Graft.count (g : Graft) : Nat := g.steps.length + g.shared.length + g.yout.length

def Riddle.discard (r : Riddle) : Riddle := { r with go := [], runs := [] }
def Riddle.count (r : Riddle) : Nat :=
  (r.go.filter fun g => g.tok.isSome).length + (r.runs.filter fun q => q.2.tok.isSome).length

def Pruner.discard (p : Pruner) (ctx : Nat) : Pruner :=
  { p with steps := p.steps.filter fun x => x.ctx != ctx, commits := p.commits.filter fun q => q.2.ctx != ctx }

/-! ### Parked requests (R74, R117) -/

/-- Whether an access is parked, or attached to a miss list. -/
def Access.parked (a : Access) : Bool :=
  match a.hold with | .parked _ | .missed => true | _ => false

/-- Accesses of a context that a tear-down discards: parked ones, and element `launch` instructions that await their answer. -/
def State.goneAccs (s : State) (ctx : Nat) : List Nat :=
  (s.accs.filter fun q => q.2.ctx == ctx && (q.2.parked || q.2.lanes.isEmpty)).map (·.1)

/-- Whether a waiter of a fault record is a unit that works for a context. -/
def State.keyOf (s : State) (ctx key : Nat) : Bool :=
  let unit := key / 2 ^ 28 % 2 ^ 12
  let sub := key % 2 ^ 28
  match key / 2 ^ 40 with
  | 1 => (s.graftOf unit).ctx == some ctx
  | 2 => (s.riddleOf unit).ctx == some ctx
  | 3 => (s.prunerOf unit).steps.any (fun p => p.ctx == ctx && p.cmd % 2 ^ 28 == sub)
      || (s.prunerOf unit).commits.any fun q => q.2.ctx == ctx && q.2.cmd % 2 ^ 28 == sub
  | 4 => (s.barrowOf unit).running.any fun r => r.ctx == ctx &&
      (match r.plots with | p :: _ => s.physPlot (s.partOf ctx) p == some (unit * 65536 + sub % 65536) | [] => false)
  | 5 | 6 | 7 => (s.qcc unit).ctx == some ctx
  | _ => false

/-- Fault records without a context's units, and how many units that were. -/
def State.unwait (s : State) (ctx : Nat) : State × Nat :=
  let mine (k : Nat) : Bool := s.keyOf ctx k
  let n := (s.parts.map fun q => (q.2.faults.map fun f => (f.waiters.filter mine).length).sum).sum
  ({ s with parts := s.parts.map fun q =>
      (q.1, { q.2 with
        faults := (q.2.faults.map fun f => { f with waiters := f.waiters.filter fun k => !mine k }).filter fun f =>
          !(f.failed && f.waiters.isEmpty) }) }, n)

/-! ### Launches that are not placed (R370 step 1, R372) -/

/-- Whether a launch record was issued by a context. -/
def Launch.from' (ctx : Nat) (l : Launch) : Bool := l.parent == some ctx && !l.resume

/-- LASTCODE of a function (R370, R414). -/
def State.vfLast (s : State) (vf code : Nat) : State :=
  let v := s.vf vf
  let w := v.status.toNat
  s.setVf vf { v with status := BitVec.ofNat 64 (w - bitF w 23 16 * 2 ^ 16 + code % 256 * 2 ^ 16) }

/-- A cancelled launch is reported to its own delivery queue (R371, R372). `num` is its context number, when it has one. -/
def State.reportCancel (s : State) (l : Launch) (num : Option Nat) : State :=
  if l.dq = 255 then s.vfLast l.homevf 0xC4
  else s.report l.homevf l.dq (num.getD noCtx) (completion 4 0xC4 (num.getD 0) l.user 0 0 0 0 0 0) 0

/-- Every launch of a context that has not been placed, with its number when it has one. -/
def State.unplaced (s : State) (ctx : Nat) : List (Launch × Option Nat) :=
  let f (l : List Launch) : List Launch := l.filter (·.from' ctx)
  (f s.toSpine).map (fun l => (l, none)) ++ (s.parts.flatMap fun q => (f q.2.launches).map fun l => (l, none))
    ++ (s.batches.filter fun b => b.2.from' ctx).map (fun b => (b.2, some b.2.ctx))
    ++ s.dies.flatMap fun q => (f q.2.queue).map fun l => (l, some l.ctx)

/-- The entries of a die's queue that a tear-down leaves. -/
def Die.cancel (d : Die) (ctx : Nat) : Die :=
  let gone := match d.queue with | l :: _ => l.from' ctx | [] => false
  { d with queue := d.queue.filter fun l => !l.from' ctx, headWait := if gone then none else d.headWait,
           blocked := if gone then false else d.blocked }

/-- Every unplaced launch of a context is cancelled. -/
def State.cancelAll (s : State) (ctx : Nat) : State :=
  let l := s.unplaced ctx
  let cut (p : Partn) : Partn := { p with launches := p.launches.filter fun l => !l.from' ctx }
  let s1 : State := { s with
    toSpine := s.toSpine.filter fun l => !l.from' ctx
    parts := s.parts.map fun q => (q.1, cut q.2)
    batches := s.batches.filter fun b => !b.2.from' ctx
    dies := s.dies.map fun q => (q.1, q.2.cancel ctx) }
  (l.foldl (fun s x => s.reportCancel x.1 x.2) s1).modCtx ctx fun c => { c with cancel := c.cancel + l.length }

/-! ### The sweep -/

/-- Tokens, messages and commands of a context found anywhere. -/
def State.countOf (s : State) (ctx : Nat) : Nat :=
  (s.elems.map fun q => q.2.countOf ctx).sum + (s.bufs.map fun q => (q.2.filter fun f => f.of ctx && f.isTok).length).sum
    + (s.overflow.map fun q => ((q.2.entries ++ q.2.spilling).filter fun e => e.ctx == ctx).foldl (fun n e => n + e.count) 0).sum
    + (s.qccs.map fun q => q.2.countOf ctx).sum
    + (s.press.map fun q => if q.2.ctx = some ctx then q.2.count else 0).sum
    + (s.graft.map fun q => if q.2.ctx = some ctx then q.2.count else 0).sum
    + (s.riddle.map fun q => if q.2.ctx = some ctx then q.2.count else 0).sum
    + (s.msgs.filter fun m => m.tok.of ctx).length + (s.trapOut.filter fun m => m.ctx == ctx).length
    + (s.marks.filter fun m => m.ctx == ctx).length + (s.deliveries.filter fun d => !d.report && d.ctx == ctx).length

/-- Tokens, messages and commands of a context, wherever they are, are taken out, and its parked requests with them. -/
def State.takeOut (s : State) (ctx : Nat) : State :=
  let gone := s.goneAccs ctx
  let mineQ (q : Nat) : Bool := (s.qcc q).ctx == some ctx
  { s with
    elems := s.elems.map fun q => (q.1, q.2.discard ctx gone)
    bufs := dropFlits ctx s.bufs
    overflow := s.overflow.map fun q => (q.1, q.2.discard ctx)
    accs := s.accs.filter fun q => !gone.contains q.1
    misses := s.misses.map fun m => { m with accs := m.accs.filter fun i => !gone.contains i }
    qccs := s.qccs.map fun q => (q.1, q.2.discard ctx)
    press := s.press.map fun q => (q.1, if q.2.ctx = some ctx then q.2.discard else q.2)
    graft := s.graft.map fun q => (q.1, if q.2.ctx = some ctx then q.2.discard else q.2)
    riddle := s.riddle.map fun q => (q.1, if q.2.ctx = some ctx then q.2.discard else q.2)
    pruner := s.pruner.map fun q => (q.1, q.2.discard ctx)
    barrow := s.barrow.map fun q => (q.1, { q.2 with misses := q.2.misses.filter fun m => m.ctx != ctx })
    msgs := s.msgs.filter fun m => !m.tok.of ctx
    trapOut := s.trapOut.filter fun m => m.ctx != ctx
    marks := s.marks.filter fun m => m.ctx != ctx
    drainNotices := s.drainNotices.filter fun n => n.1 != ctx
    barrRegs := s.barrRegs.filter fun r => !mineQ r.2.2.1 || r.2.2.2.2 == 1
    barrDone := s.barrDone.filter fun r => !mineQ r.1
    responses := s.responses.filter fun r => !gone.contains r.2.1
    unions := s.unions.filter fun u => u.ctx != ctx
    outside := s.outside.filter fun o => !(o.ctx == ctx && o.resp.isSome && (match o.who with | .unit _ => true | _ => false))
    deliveries := s.deliveries.filter fun d => d.report || d.ctx != ctx }

/-- The sweep of a tear-down: what is found is discarded and counted, parked requests are counted, launches cancelled. -/
def State.sweepCtx (s : State) (ctx : Nat) : State :=
  let n := s.countOf ctx
  let p := ((s.goneAccs ctx).filter fun i => match s.acc? i with | some a => a.parked | none => false).length
  let w := s.unwait ctx
  ((w.1.cancelAll ctx).takeOut ctx).modCtx ctx fun c => { c with discard := c.discard + n, parkd := c.parkd + p + w.2 }

/-- A save of a context that a tear-down meets is abandoned (R393): its command completes with status 1 (notes/assumptions/33.md). -/
def State.dropSave (s : State) (ctx : Nat) : State :=
  match s.ctx? ctx with
  | some c =>
    (match c.save with
    | some r => (s.setCtx ctx { c with save := none }).cmdDone r.cmd.1 r.cmd.2 1 0
    | none => s)
  | none => s

/-- Whether a context is in a tear-down that has freed nothing yet. -/
def State.tearing (s : State) (ctx : Nat) : Bool := match s.ctx? ctx with | some c => c.tear == .tearing | none => false

/-- `TEAR_DOWN` (R370 step 1): the context's tokens, messages, commands, parked requests and unplaced launches are discarded. -/
def execTearDown (ctx : Nat) (s : State) : Res :=
  if s.tearing ctx then .next ((s.dropSave ctx).sweepCtx ctx) else idle s

/-! ### Release and report (R370 steps 2 to 4, R371) -/

/-- An element without a context. -/
def Elem.free (e : Elem) (ctx : Nat) : Elem :=
  { e with slots := e.slots.filter fun q => q.2.ctx != ctx, shadow := tabDel e.shadow ctx, backing := tabDel e.backing ctx
           backingOps := tabDel e.backingOps ctx
           rob := e.rob.filter fun r => !(e.slotsOf ctx).contains r.slotIx }

/-- A Press without a context. The values of its accumulators stand until the next placement (R437); their handles and poison
records, and everything else, are discarded (R319). -/
def Press.released (p : Press) : Press := { Press.fresh with tc := p.tc.map fun a => { a with handle := 0, poison := none } }

/-- The resources of a context are free (R363). -/
def State.freeCtx (s : State) (ctx : Nat) : State :=
  { s with
    elems := s.elems.map fun q => (q.1, q.2.free ctx)
    overflow := s.overflow.map fun q => (q.1, { q.2 with reserve := tabDel q.2.reserve ctx })
    qccs := s.qccs.filter fun q => q.2.ctx != some ctx
    press := s.press.map fun q => (q.1, if q.2.ctx = some ctx then q.2.released else q.2)
    graft := s.graft.filter fun q => q.2.ctx != some ctx
    riddle := s.riddle.filter fun q => q.2.ctx != some ctx
    barrow := s.barrow.map fun q =>
      (q.1, { tables := q.2.tables.filter fun t => t.ctx != ctx, running := q.2.running.filter fun r => r.ctx != ctx,
              misses := q.2.misses.filter fun m => m.ctx != ctx }) }

/-- Whether nothing of a context is left on its way. -/
def State.quiet (s : State) (ctx : Nat) : Bool :=
  s.countOf ctx == 0 && (s.unplaced ctx).isEmpty && !s.accs.any (fun q => q.2.ctx == ctx) && !s.outside.any (fun o => o.ctx == ctx)
    && !s.bufs.any (fun q => q.2.any fun f => f.of ctx)

/-- The completion record of a context (R371). -/
def Ctx.record (c : Ctx) (ctx : Nat) : BitVec 256 :=
  completion c.ending.kind c.ending.code ctx c.user.toNat 0 c.ending.exit.toNat c.discard c.cancel c.parkd c.fault.strand.toNat

/-- Step 4: the record goes to the delivery unit, or LASTCODE takes its code. -/
def State.endReport (s : State) (ctx : Nat) (c : Ctx) : State :=
  if c.dq = 255 then
    let s1 := { s with ctxs := tabDel s.ctxs ctx }
    if c.ending.code = 0 then s1 else s1.vfLast c.homevf c.ending.code
  else (s.setCtx ctx { c with tear := .reporting }).report c.homevf c.dq ctx (c.record ctx) (if c.ending.kind = 1 then c.ending.plate else 0)

/-- `TEAR_DOWN_RELEASE` (R370 steps 2 to 4): once everything issued has ended, the resources are freed and the record is sent. -/
def execTearDownRelease (ctx : Nat) (s : State) : Res :=
  match s.ctx? ctx with
  | none => idle s
  | some c =>
    if c.tear ≠ .tearing ∨ c.save.isSome ∨ !s.quiet ctx then idle s
    else .next ((s.freeCtx ctx).endReport ctx c)

end Sys2Proof.Machine
end

