-- ==== Sys2Proof/Machine/Report.lean ====
section
/-! DEFINITION. Trap messages, soft-error records, event queues and delivery queues (R94, R371, R376 to R382, R415 to R417). -/

namespace Sys2Proof.Machine

/-! ### The trap channel (R378, R380) -/

/-- Whether a settle of a context is under way: a full ch15 then holds nothing (R380, R385). -/
def State.settling (s : State) (ctx : Nat) : Bool :=
  match s.ctx? ctx with
  | some c => c.gated && (c.save.isSome || (match s.part? c.part with | some p => p.status == 2 | none => false))
  | none => false

/-- A message is lost to a full ch15 during a settle: NOVF, and FIRST when it is empty (R380). -/
def State.lostTrap (s : State) (m : TrapMsg) : State :=
  s.modCtx m.ctx fun c => { c with fault := FaultRec.note { c.fault with novf := satAdd c.fault.novf 1 } m.record }

/-- The place in ch15 of the message that takes a new one, past the one that a running task has taken. -/
def Qcc.mergeAt (k : Qcc) (m : TrapMsg) : Option Nat :=
  let n := if k.taskChan = 15 then 1 else 0
  (listFind (trapMerges m) ((k.chan 15).drop n) n).map (·.1)

/-- A trap message at ch15 of the trap QCC; none while it is held. -/
def State.trapEnter (s : State) (q : Nat) (m : TrapMsg) : Option State :=
  let k := s.qcc q
  match k.mergeAt m with
  | some i =>
    some ((s.setQcc q (k.setChan 15 (listMod (k.chan 15) i fun t => trapCount t m.count))).modCtx m.ctx fun c =>
      { c with fault := { c.fault with nmerge := satAdd c.fault.nmerge 1 } })
  | none =>
    match s.pushChan q 15 (trapToken m) with
    | some s1 => some s1
    | none => if s.settling m.ctx then some (s.lostTrap m) else none

/-- A trap message of a context that binds no task to ch15 goes to its delivery queue; with DQ 255 it is only counted. -/
def State.trapDeliver (s : State) (m : TrapMsg) : State :=
  match s.ctx? m.ctx with
  | none => s
  | some c =>
    if c.dq = 255 then s
    else { s with deliveries := s.deliveries ++ [m.delivery c.homevf c.dq false] }

/-- `TRAP_CHANNEL_MESSAGE` (R378, R380): a trap message enters ch15, merges, or goes to the delivery unit. Messages of one
source keep their order. -/
def execTrapChannelMessage (idx : Nat) (s : State) : Res :=
  match s.trapOut[idx]? with
  | none => idle s
  | some m =>
    let s1 := { s with trapOut := listDrop s.trapOut idx }
    if (s.trapOut.take idx).any (fun o => o.ctx == m.ctx && o.spos == m.spos && o.snode == m.snode) then idle s
    else if !s.alive m.ctx then .next (s1.discardN m.ctx 1)
    else match s.trapQcc m.ctx with
      | none => .next (s1.trapDeliver m)
      | some q =>
        if !s.awake (q / 4) then idle s
        else match s1.trapEnter q m with
          | some s2 => .next s2
          | none => idle s

/-! ### Event records (R382, R417) -/

/-- `SOFT_ERROR_RECORD` (R382, R417): a die's record goes to the physical function's event queue; a full store holds it. -/
def execSoftErrorRecord (idx : Nat) (s : State) : Res :=
  match s.softErrors[idx]? with
  | none => idle s
  | some (die, e) =>
    let v := s.vf pfNum
    if (s.softErrors.take idx).any (fun o => o.1 == die)
        ∨ (v.events.length ≥ 65536 ∧ !v.events.any (eventMerges e)) then idle s
    else .next ({ s with softErrors := listDrop s.softErrors idx }.event pfNum e)

/-- The vector number of a function's event queue. -/
def eventVector : Nat := 255

/-- A record that waits at its source comes into the store of a function once it has room (R417). -/
def State.eventIn (s : State) (vf : Nat) : State :=
  match listFind (fun q : Nat × EventRec => q.1 == vf) s.eventsOut 0 with
  | some (i, q) => { s with eventsOut := listDrop s.eventsOut i }.event vf q.2
  | none => s

/-- `EVENT_RECORD_WRITE` (R417): the oldest waiting record of a function enters its event queue, if that has room. -/
def execEventRecordWrite (vf : Nat) (s : State) : Res :=
  let v := s.vf vf
  match v.events with
  | [] => idle s
  | e :: rest =>
    if !v.event.en ∨ v.event.full then idle s
    else
      let s1 := s.setVf vf { v with events := rest, event := { v.event with seq := v.event.seq + 1 } }
      .next ((s1.ringWrite vf eventVector v.event (bytesOf 32 e.record.toNat)).eventIn vf)

/-! ### Delivery queues (R94, R371, R416) -/

/-- A context number is free once its report is written (R370). -/
def State.reported (s : State) (d : Delivery) : State :=
  if !d.report then s
  else match s.ctx? d.ctx with
    | some c => if c.tear = .reporting then { s with ctxs := tabDel s.ctxs d.ctx } else s
    | none => s

/-- A delivery queue is a sink for poison (R376). -/
def State.sinkDelivery (s : State) (d : Delivery) : State :=
  if d.report ∨ !d.tok.poison then s
  else s.sink d.ctx d.tok.record (s.logOf (s.partOf d.ctx) d.pos) d.node d.tok.plate

/-- The token as it is written: a poison record that this sink reports, or that is reported already, has RPT = 1 (R376). -/
def Delivery.out (d : Delivery) : Token :=
  if !d.report && d.tok.poison then { d.tok with pay := BitVec.ofNat 1024 (recSetRpt d.tok.record).toNat } else d.tok

/-- A token that the Clasp refuses: a report is sent again without its exit code and handle; the node of any other token
receives poison CLASPREF, which ends there (R94, R371; notes/assumptions/34.md). -/
def State.refusedDelivery (s : State) (idx : Nat) (d : Delivery) : State :=
  if d.report then if d.node = 256 then { s with deliveries := listDrop s.deliveries idx } else
    let n := d.tok.pay.toNat
    let n' := n - bitF n 191 160 * 2 ^ 160 + (2 ^ 32 - 1) * 2 ^ 160
    { s with deliveries := listMod s.deliveries idx fun d => { d with tok := { d.tok with plate := 0, pay := BitVec.ofNat 1024 n' } } }
  else
    let s1 := { s with deliveries := listDrop s.deliveries idx }
    if d.node = 0xFF then s1
    else s1.sink d.ctx (s.nodeRec 0x42 d.ctx d.pos d.node 0) (s.logOf (s.partOf d.ctx) d.pos) d.node d.tok.plate

/-- `DELIVERY_WRITE` (R416): a token's entry is written, then PIDX. A token for a full queue waits; for a disabled one it is
discarded. -/
def execDeliveryWrite (idx : Nat) (s : State) : Res :=
  match s.deliveries[idx]? with
  | none => idle s
  | some d =>
    let rest (s : State) : State := { s with deliveries := listDrop s.deliveries idx }
    if (s.deliveries.take idx).any (fun o => o.vf == d.vf && o.queue == d.queue) then idle s
    else if !d.report ∧ !s.alive d.ctx then .next ((rest s).discardN d.ctx 1)
    else match s.deliver d.vf d.queue d.out with
      | .full => idle s
      | .ok s1 => .next ((rest (s1.sinkDelivery d)).reported d)
      | .off s1 => .next ((rest s1).reported d)
      | .refused s1 => .next (s1.refusedDelivery idx d)

end Sys2Proof.Machine
end

