-- ==== Sys2Proof/Machine/SaveArea.lean ====
section
/-! DEFINITION. What a save records of a context, and the bytes of a save area (R120, R319, R335, R345, R356, R377, R385 to R388). -/

namespace Sys2Proof.Machine

/-! ### Logical numbers (R12, R216) -/

/-- The logical number of a quire in a partition, 4 × LF + quire. -/
def State.logQuire (s : State) (part q : Nat) : Nat := s.lfOf part (q / 4) * 4 + q % 4

/-- The quire of a logical number. -/
def State.quireAt (s : State) (part lq : Nat) : Option Nat := (s.mapEntry part (lq / 4)).map fun e => e.gfolio * 4 + lq % 4

/-- The key of a unit's accesses with its quire or folio renumbered; the Pruner's units keep only their command. -/
def renumber (quire folio : Nat → Nat) (key : Nat) : Nat :=
  let unit := key / 2 ^ 28 % 2 ^ 12
  let sub := key % 2 ^ 28
  match key / 2 ^ 40 with
  | 2 => unitKey 2 (folio unit) sub
  | 3 => unitKey 3 (quire unit) sub
  | k => unitKey k (quire unit) sub

/-! ### An element's share of a context -/

/-- What an element holds of a context, its slot as slot 0. -/
def Elem.only (e : Elem) (ctx : Nat) : Elem :=
  let mine (l : Tab Slot) : Tab Slot := l.filter fun q => q.1 == ctx
  match slotOfCtx e.slots ctx with
  | some (i, sl) =>
    { Elem.fresh with
      slots := [(0, sl)]
      shadow := mine e.shadow
      backing := mine e.backing
      backingOps := e.backingOps.filter fun q => q.1 == ctx
      mstore := e.mstore.filter fun h => h.tok.of ctx
      fifo := (e.fifo.filter fun q => q.1 == i).map fun q => (0, q.2)
      out := (e.out.filter fun o => o.slotIx == i).map fun o => { o with slotIx := 0 }
      rob := (e.rob.filter fun r => r.slotIx == i).map fun r => { r with slotIx := 0 }
      exh := (e.exh.filter fun x => x.1 == i).map fun x => (0, x.2)
      fetching := e.fetching.filter (· == ctx) }
  | none =>
    { Elem.fresh with
      shadow := mine e.shadow
      backing := mine e.backing
      backingOps := e.backingOps.filter fun q => q.1 == ctx
      mstore := e.mstore.filter fun h => h.tok.of ctx
      fetching := e.fetching.filter (· == ctx) }

/-- Whether an element holds anything of a context. -/
def Elem.uses (e : Elem) (ctx : Nat) : Bool :=
  (slotOfCtx e.slots ctx).isSome || (tabGet e.shadow ctx).isSome || (tabGet e.backing ctx).isSome || e.mstore.any fun h => h.tok.of ctx

/-! ### The record of a context -/

/-- Logical plots that a save records (R387). -/
def State.savedPlots (s : State) (c : Ctx) : List Nat :=
  match tabGet s.images c.image with
  | none => []
  | some im =>
    let all := (List.range (c.nfolio * 4096))
    if im.tt.isEmpty ∧ im.resident.isEmpty then all
    else all.filter fun p =>
      (im.resident.contains p || im.tt.any fun e => e.covers p)
        && (match s.physPlot c.part p with | some n => (s.plot n).res | none => false)

/-- A quire's overflow entries of a context, positions as POS. -/
def State.savedOvf (s : State) (ctx part q : Nat) : Overflow :=
  { entries := ((s.ovf q).entries.filter fun e => e.ctx == ctx).map fun e => { e with pos := s.logOf part e.pos }
    spilling := [], reserve := [] }

/-- Tokens of a context that rest in link buffers: target, class and token. -/
def State.savedLinks (s : State) (ctx part : Nat) : List (Nat × Nat × Token) :=
  s.bufs.flatMap fun q => q.2.filterMap fun f => match f with
    | .tok dst t => if t.of ctx then some (s.logOf part dst, q.1 % 4, t) else none
    | _ => none

/-- Control memory and regions of a quire. -/
def State.savedCtl (s : State) (lq q : Nat) : Nat × Memory × Tab Handle :=
  (lq, (s.ctl.filter fun c => decide (q * 65536 ≤ c.1) && decide (c.1 < (q + 1) * 65536)).map fun c => (c.1 - q * 65536, c.2),
   (s.ctlRegion.filter fun r => r.1 / 16 == q).map fun r => (r.1 % 16, r.2))

/-- A context with everything that a save keeps of it; the digest and address are still to come. -/
def State.savedOf (s : State) (ctx : Nat) (c : Ctx) : Saved :=
  let lp (p : Nat) : Nat := s.logOf c.part p
  let lq (q : Nat) : Nat := s.logQuire c.part q
  let quires := ((s.heldElems c).map quireOf).eraseDups
  let folios := ((s.heldElems c).map folioOf).eraseDups
  let lf (g : Nat) : Nat := s.lfOf c.part g
  let regs := s.barrRegs.filter fun r => (s.qcc r.2.2.1).ctx == some ctx
  let done := s.barrDone.filter fun r => (s.qcc r.1).ctx == some ctx
  { digest := []
    va := 0
    ctx := ctx
    context := { c with gated := false, sliced := false, save := none, placed := true }
    elems := ((s.heldElems c).filter fun p => (s.elem p).uses ctx).foldl (fun t p => tabPut t (lp p) ((s.elem p).only ctx)) []
    overflow := quires.foldl (fun t q => tabPut t (lq q) (s.savedOvf ctx c.part q)) []
    qccs := (quires.filter fun q => (s.qcc q).ctx == some ctx).foldl (fun t q => tabPut t (lq q) (s.qcc q)) []
    press := (quires.filter fun q => (s.pressOf q).ctx == some ctx).foldl (fun t q => tabPut t (lq q) (s.pressOf q)) []
    graft := (quires.filter fun q => (s.graftOf q).ctx == some ctx).foldl (fun t q => tabPut t (lq q) (s.graftOf q)) []
    riddle := (folios.filter fun g => (s.riddleOf g).ctx == some ctx).foldl (fun t g => tabPut t (lf g) (s.riddleOf g)) []
    steps := s.pruner.flatMap fun p => (p.2.steps.filter fun x => x.ctx == ctx).map fun x => { x with quire := lq x.quire }
    commits := s.pruner.flatMap fun p => (p.2.commits.filter fun x => x.2.ctx == ctx).map fun x => { x.2 with quire := lq x.2.quire }
    table := s.timetable ctx
    running := s.barrow.flatMap fun b => b.2.running.filter fun r => r.ctx == ctx
    misses := s.barrow.flatMap fun b => b.2.misses.filter fun m => m.ctx == ctx
    accs := (s.accs.filter fun q => q.2.ctx == ctx).map fun q => (q.1, { q.2 with pos := lp q.2.pos, slotIx := 0 })
    plots := (s.savedPlots c).filterMap fun p => (s.physPlot c.part p).map fun n =>
      (p, s.plot n, bytesOf 4096 (memRead s.sram (n * 4096) 4096))
    killed := false
    restarts := []
    links := s.savedLinks ctx c.part
    msgs := (s.msgs.filter fun m => m.tok.of ctx).map fun m =>
      { m with quire := lq m.quire, sender := m.sender.map fun x => (lp x.1, 0, x.2.2) }
    deliveries := (s.deliveries.filter fun d => !d.report && d.ctx == ctx).map fun d => { d with pos := lp d.pos }
    barrs := regs.map (fun r => (r.1, r.2.1, lq r.2.2.1, r.2.2.2.1, r.2.2.2.2)) ++ done.map fun r => (0, r.2.2, lq r.1, r.2.1, 3)
    outs := (s.outside.filter fun o => o.ctx == ctx).map fun o =>
      { o with who := match o.who with | .unit k => .unit (renumber lq lf k) | w => w }
    ctl := (quires.filter fun q => (s.qcc q).ctx == some ctx).map fun q => s.savedCtl (lq q) q
    folios := (List.range c.nfolio).map fun l => match s.mapEntry c.part l with | some e => e.gfolio | none => 256 }

/-! ### Sections (R215, R217, R377, R386 to R388) -/

/-- A piece of a save area: its bytes, and the handles of what it holds. -/
abbrev Piece := Bytes × List Handle

/-- The fault record (R377). -/
def FaultRec.bits (f : FaultRec) : Nat :=
  f.first.toNat * 2 ^ 384 + f.nsink.toNat * 2 ^ 352 + f.nfab.toNat * 2 ^ 320 + f.strand.toNat * 2 ^ 288 + f.excess.toNat * 2 ^ 256
    + f.ntrap.toNat * 2 ^ 224 + f.nmerge.toNat * 2 ^ 192 + f.novf.toNat * 2 ^ 160

def words (n : Nat) (l : List Word) : Bytes := ((List.range n).map fun i => bytesOf 4 ((l[i]?).getD 0).toNat).flatten

/-- A keep register (R217). -/
def Keep.saved (k : Keep) : Bytes :=
  bytesOf 1 (fmtCode k.fmt) ++ bytesOf 1 k.wid.toNat ++ bytesOf 1 (if k.valid then 1 else 0) ++ bytesOf 5 0 ++ bytesOf 128 k.pay.toNat

/-- An element slot record with the keep registers as they are (R217, R387). -/
def Slot.saved (sl : Slot) (lpos : Nat) : Piece :=
  (bytesOf 2 lpos ++ bytesOf 1 (if sl.ftz then 1 else 0) ++ bytesOf 1 sl.lits.length ++ bytesOf 2 sl.insts.length
    ++ bytesOf 1 sl.dests.length ++ bytesOf 9 0 ++ words 256 sl.insts ++ words 16 sl.lits
    ++ words 64 (sl.dests.flatMap fun d => [d.1, d.2]) ++ ((List.range 4).map fun i => (sl.keep i).saved).flatten ++ bytesOf 144 0,
   sl.keepHandles)

/-- A token to be recorded: KIND, POS, NODE, slot, edge name and PLACE of its key, SEQ when the place gives it (R388). -/
structure TokRec where
  kind : Nat
  pos : Nat
  node : Nat
  slotR : Bool
  edge : Nat
  place : Nat
  seq : Option Nat
  body : Bytes
  handle : Handle

/-- Header and payload of a token record. -/
def Token.saved (t : Token) : Bytes :=
  bytesOf 16 ({ t with die := 0 }.header).toNat ++ bytesOf ((t.bytes + 15) / 16 * 16) (t.pay.toNat % 2 ^ (8 * t.bytes))

/-- A token at rest at a node of an element. -/
def restAt (lpos place : Nat) (seq : Option Nat) (t : Token) : TokRec :=
  { kind := 0, pos := lpos, node := t.node.toNat, slotR := t.slotR, edge := t.edge.toNat, place := place, seq := seq,
    body := t.saved, handle := t.plate }

/-- The tokens of a ready-FIFO pair have one SEQ. -/
def pairRecs (lpos place : Nat) (seq : Option Nat) (p : Pair) : List TokRec :=
  (p.opL.toList ++ p.ordL.toList ++ p.opR.toList).map (restAt lpos place seq)

/-- A token on its way. -/
def wayRec (lpos : Nat) (t : Token) : TokRec :=
  { restAt lpos (if t.isSwitch then 9 else 2) none t with kind := t.kind.toNat }

/-- A result in the output stage, with its route. -/
def State.outRec (s : State) (part p : Nat) (sl : Slot) (o : OutTok) : TokRec :=
  let lp := s.logOf part p
  let r := s.route p sl o.node o.dest o.tok
  let x := entryX r.1 (logX lp)
  let y := entryY r.1 (logY lp)
  wayRec (posOfLog x y) (routed r.2 r.1 x y p)

/-- Tokens of an element. -/
def State.elemRecs (s : State) (part ctx p : Nat) : List TokRec :=
  let e := (s.elem p).only ctx
  let lp := s.logOf part p
  e.mstore.map (fun h => restAt lp (match h.role with | .operand => 0 | .held => 5) none h.tok)
    ++ e.backingOps.flatMap (fun q => q.2.map fun h => restAt lp (match h.role with | .operand => 0 | .held => 5) none h.tok)
    ++ (e.fifo.mapIdx fun i q => pairRecs lp 3 (some i) q.2).flatten
    ++ (match tabGet e.slots 0 with | some sl => e.out.map (s.outRec part p sl) | none => [])
    ++ e.rob.flatMap fun r => match r.done, tabGet e.slots 0 with
      | some l, some sl => l.map fun t => s.outRec part p sl { slotIx := 0, node := r.node, dest := t.1, tok := t.2 }
      | _, _ => []

/-- Tokens of an overflow store. -/
def OvfEntry.recs (e : OvfEntry) : List TokRec :=
  match e.what with
  | .operand => [restAt e.pos 1 none e.tok]
  | .held => [restAt e.pos 5 none e.tok]
  | .expect => []
  | .park => [restAt e.pos 4 none e.tok]
  | .alloc p _ _ => pairRecs e.pos 6 none p

/-- A parked request or miss-list attachment; what R54 asks of it is not laid out. -/
def Access.tokRec (tick i : Nat) (a : Access) : TokRec :=
  { kind := 0, pos := a.pos, node := a.node, slotR := false, edge := 0,
    place := (match a.hold with | .missed => 8 | _ => 7), seq := some i,
    body := (List.range 144).map fun j => Config.privateByte tick 3 (144 * i + j), handle := a.handle }

/-- A message of a channel. -/
def chanRec (lq chan : Nat) (t : Token) : TokRec :=
  { kind := 2, pos := lq * 16, node := chan, slotR := false, edge := t.edge.toNat, place := 2, seq := none, body := t.saved, handle := t.plate }

/-- Every token of a context, in some order. -/
def State.tokRecs (s : State) (ctx : Nat) (c : Ctx) (v : Saved) : List TokRec :=
  (s.heldElems c).flatMap (s.elemRecs c.part ctx) ++ v.overflow.flatMap (fun q => q.2.entries.flatMap OvfEntry.recs)
    ++ v.links.map (fun q => wayRec q.1 q.2.2) ++ (v.accs.mapIdx fun i q => q.2.tokRec s.tick i)
    ++ v.qccs.flatMap (fun q => q.2.chans.flatMap fun ch => ch.2.map (chanRec q.1 ch.1))
    ++ v.msgs.map (fun m => chanRec m.quire m.chan m.tok) ++ v.deliveries.map fun d => wayRec d.pos d.tok

/-- The key of a record without its SEQ. -/
def TokRec.key (r : TokRec) : Nat :=
  r.kind % 4 * 2 ^ 62 + r.pos % 16384 * 2 ^ 48 + r.node % 256 * 2 ^ 40 + (if r.slotR then 2 ^ 39 else 0) + r.edge % 512 * 2 ^ 30
    + r.place % 16 * 2 ^ 26

/-- Keys with SEQ: that of the place, or else the order among records of one key. -/
def withSeq : List TokRec → List TokRec → List (Nat × TokRec)
  | _, [] => []
  | seen, r :: l =>
    let n := match r.seq with | some n => n | none => (seen.filter fun o => o.key == r.key).length
    (r.key + n % 2 ^ 24, r) :: withSeq (seen ++ [r]) l

/-- A record put into a list of rising keys, after equal ones. -/
def putRec (x : Nat × TokRec) : List (Nat × TokRec) → List (Nat × TokRec)
  | [] => [x]
  | y :: l => if x.1 < y.1 then x :: y :: l else y :: putRec x l

/-- The TOKENS section. -/
def tokensPiece (l : List TokRec) : List Piece :=
  ((withSeq [] l).foldl (fun acc x => putRec x acc) []).map fun x => (bytesOf 8 x.1 ++ x.2.body, [x.2.handle])

/-- A plot record (R387). -/
def plotPiece (p : Nat) (d : Plot) (b : Bytes) : Piece := (bytesOf 4 p ++ bytesOf 4 d.word ++ b, [d.handle])

/-- A device-private section. -/
def privatePiece (tick ty : Nat) (h : List Handle) : List Piece :=
  [((List.range (8 * Config.privateSize tick ty)).map (Config.privateByte tick ty), h)]

/-- A section: TYPE, number of records and pieces. -/
structure Section where
  type : Nat
  count : Nat
  pieces : List Piece

def Section.size (x : Section) : Nat := (x.pieces.map fun p => p.1.length).sum

def privateSection (tick ty : Nat) (h : List Handle) : Section :=
  { type := ty, count := Config.privateSize tick (64 + ty), pieces := privatePiece tick ty h }

/-- The sections of a save. -/
def State.sections (s : State) (ctx : Nat) (c : Ctx) (v : Saved) : List Section :=
  let recs := s.tokRecs ctx c v
  let slots := v.elems.flatMap fun q => (q.2.slots ++ q.2.backing).map fun x => x.2.saved q.1
  [{ type := 1, count := 1, pieces := [(bytesOf 64 c.fault.bits, [])] },
   { type := 2, count := slots.length, pieces := slots },
   { type := 3, count := recs.length, pieces := tokensPiece recs },
   { type := 4, count := v.plots.length, pieces := v.plots.map fun p => plotPiece p.1 p.2.1 p.2.2 },
   privateSection s.tick 16 [], privateSection s.tick 17 [],
   privateSection s.tick 18 (v.qccs.flatMap (fun q => q.2.tokHandles) ++ v.ctl.flatMap fun q => q.2.2.map (·.2)),
   privateSection s.tick 19 (v.press.flatMap fun q => q.2.regHandles ++ q.2.tokHandles),
   privateSection s.tick 20 (v.graft.flatMap fun q => q.2.regHandles ++ q.2.tokHandles),
   privateSection s.tick 21 (v.riddle.flatMap fun q => q.2.regHandles ++ q.2.tokHandles),
   privateSection s.tick 22 (v.steps.map (·.handle) ++ v.commits.map (·.handle))]

/-- The sections of a kill at a yield point (R391). -/
def killSections (c : Ctx) (v : Saved) : List Section :=
  let recs := v.restarts.map fun q => { restAt q.1 10 none q.2 with pos := q.1 }
  [{ type := 1, count := 1, pieces := [(bytesOf 64 c.fault.bits, [])] },
   { type := 3, count := recs.length, pieces := tokensPiece recs }]

/-! ### The area (R386) -/

/-- The directory from an offset on (R215), each section at a multiple of 8. -/
def directory : Nat → List Section → Bytes
  | _, [] => []
  | off, x :: l =>
    bytesOf 2 x.type ++ bytesOf 2 0 ++ bytesOf 4 x.count ++ bytesOf 8 off ++ directory (off + (x.size + 7) / 8 * 8) l

/-- A section's pieces, padded to a multiple of 8 bytes. -/
def Section.padded (x : Section) : List Piece := x.pieces ++ [(List.replicate ((8 - x.size % 8) % 8) 0, [])]

/-- The pieces of a save area: header, directory and sections. -/
def areaPieces (ctx : Nat) (c : Ctx) (killed : Bool) (strict : Bool) (l : List Section) : List Piece :=
  let body : List Piece := (directory (0x80 + 16 * l.length) l, []) :: l.flatMap Section.padded
  let bytes := body.flatMap (·.1)
  let flags := (if killed then 1 else 0) + (if c.switch.isSome then 2 else 0) + (if strict then 4 else 0)
  (bytesOf 4 0x47585356 ++ bytesOf 4 1 ++ bytesOf 8 (0x80 + bytes.length) ++ bytesOf 2 ctx ++ bytesOf 2 c.nfolio ++ bytesOf 2 l.length
    ++ bytesOf 2 flags ++ bytesOf 4 c.image ++ bytesOf 36 0 ++ sha512 bytes, []) :: body

/-- Pieces cut into words of 8 bytes with the handles of each. -/
def cutWords : Nat → Bytes → List Handle → List Piece → List Piece
  | 0, _, _, _ => []
  | _, b, h, [] => if b.isEmpty then [] else [(b, h)]
  | n + 1, b, h, (c, g) :: l =>
    if b.length + c.length < 8 then cutWords n (b ++ c) (h ++ g) l
    else
      let k := 8 - b.length
      (b ++ c.take k, h ++ g) :: cutWords n [] [] ((c.drop k, g) :: l)

/-- Enough steps to cut pieces into words. -/
def cutSteps (l : List Piece) : Nat := 2 * l.length + (l.map fun p => p.1.length).sum + 2

/-- The hypervisor's unit that writes and reads save areas, through the tables of partition 0 (R385). -/
def State.saveWho (s : State) (q id : Nat) : Who :=
  { ctx := ((s.qcc q).ctx).getD 0, part := 0, quire := q, kind := 3, key := unitKey 8 q id, parks := true }

/-- A save area is written word by word. -/
def State.writeArea (s : State) (w : Who) (va : Nat) : List Piece → Sync Unit
  | [] => .ok () s
  | (b, h) :: l =>
    match s.unionAll 0 (h.filter (· != 0)) with
    | .ovf x y => .fail (s.ovfCode x y) (s.plateOvf x y w.ctx w.part)
    | .wait x y => .wait (s.askUnion x y w.ctx w.part)
    | .ok g => (s.unitWriteAt w false va 8 8 (numOf b) g).bind fun _ s => s.writeArea w (va + 8) l

end Sys2Proof.Machine
end

