-- ==== Sys2Proof/Machine/Status.lean ====
section
/-! DEFINITION. What a partition holds: chains, guarantees, the status block, turns of virtual functions (R395, R401, R404, R407,
R408). -/

namespace Sys2Proof.Machine

/-! ### Folios and channels (R363, R395, R407) -/

/-- Whether two folios are adjacent (R395): neighbours on a die, or facing each other across the edge of two adjacent dies. -/
def adjacent (a b : Nat) : Bool :=
  let step (x y : Nat) : Bool := x + 1 == y || y + 1 == x
  let row (f : Nat) : Nat := f % 16 / 4
  let col (f : Nat) : Nat := f % 4
  let dr (f : Nat) : Nat := f / 64
  let dc (f : Nat) : Nat := f / 16 % 4
  if a / 16 = b / 16 then (row a == row b && step (col a) (col b)) || (col a == col b && step (row a) (row b))
  else if dr a = dr b ∧ dc a + 1 = dc b then row a == row b && col a == 3 && col b == 0
  else if dr a = dr b ∧ dc b + 1 = dc a then row a == row b && col b == 3 && col a == 0
  else if dc a = dc b ∧ dr a + 1 = dr b then col a == col b && row a == 3 && row b == 0
  else if dc a = dc b ∧ dr b + 1 = dr a then col a == col b && row b == 3 && row a == 0
  else false

/-- Whether a live context of a partition holds a logical folio (R363). -/
def State.lfHeld (s : State) (part lf : Nat) : Bool :=
  s.ctxs.any fun c => c.2.part == part && c.2.tear != .reporting && decide (lf < c.2.nfolio)

/-- Whether an element of a folio is retired. -/
def State.folioHurt (s : State) (g : Nat) : Bool := (List.range 64).any fun i => s.retiredElem (g * 64 + i)

/-- `usable(p)` (R407). -/
def State.usable (s : State) (p : Partn) : Nat := (p.fmap.filter fun e => !s.folioHurt e.2.gfolio).length

/-- Whether a folio is spare: no partition maps it, or is moving to it, and it is not retired (R407). -/
def State.spareFolio (s : State) (g : Nat) : Bool := (s.ownerOf g).isNone && !s.retired.contains (.folio g)

/-- Whether a channel is spare (R400, R407). -/
def State.spareChan (s : State) (c : Nat) : Bool := !s.parts.any (fun q => q.2.channels.contains c) && !s.retired.contains (.chan c)

/-- A number put into a rising list. -/
def insertNum (n : Nat) : List Nat → List Nat
  | [] => [n]
  | x :: r => if n = x then x :: r else if n < x then n :: x :: r else x :: insertNum n r

/-- The lowest logical folio that a map leaves unmapped. -/
def freeLf (m : Tab MapEntry) : Option Nat := (List.range 256).find? fun lf => (tabGet m lf).isNone

/-! ### The status block (R404) -/

/-- A count of the last completed period of every die. -/
def State.periodSum (s : State) (f : Die → Tab Nat) (part : Nat) : Nat := (s.dies.map fun d => tabNum (f d.2) part).sum

/-- The status block of a partition; STATE 0 when it does not exist. -/
def State.statusBlock (s : State) (part : Nat) : BitVec 512 :=
  match s.part? part with
  | none => BitVec.ofNat 512 (127 * 2 ^ 500)
  | some p =>
    let free := (p.fmap.filter fun e => !s.lfHeld part e.1).length
    let live := (s.ctxs.filter fun c => c.2.part == part && c.2.tear == .alive).length
    BitVec.ofNat 512 (p.status % 16 * 2 ^ 508 + (if p.susp then 2 ^ 507 else 0) + (p.rank.getD 127) % 128 * 2 ^ 500
      + p.fmap.length % 512 * 2 ^ 491 + s.usable p % 512 * 2 ^ 482 + p.channels.length % 1024 * 2 ^ 472 + free % 512 * 2 ^ 463
      + live % 8192 * 2 ^ 450 + s.periodSum (·.lastIssues) part % 2 ^ 64 * 2 ^ 320 + s.periodSum (·.lastEnergy) part % 2 ^ 64 * 2 ^ 256)

/-- The device rewrites the status block of a partition. -/
def State.writeStatus (s : State) (part : Nat) : State := { s with status := tabPut s.status part (s.statusBlock part) }

/-! ### Guarantees (R407, R408) -/

/-- Spare folios are mapped while a guarantee lacks them. -/
def State.giveFolios (s : State) (part : Nat) : Nat → State
  | 0 => s
  | n + 1 =>
    match s.part? part with
    | none => s
    | some p =>
      if s.usable p ≥ p.gfol then s
      else match (List.range 256).find? (fun g => s.spareFolio g && p.fmap.any fun e => adjacent g e.2.gfolio), freeLf p.fmap with
        | some g, some lf =>
          (s.setPart part { p with fmap := tabPut p.fmap lf { st := .mapped, ro := false, gfolio := g, target := none } }).giveFolios part n
        | _, _ => s

/-- Spare channels are added while a guarantee lacks them. -/
def State.giveChans (s : State) (part : Nat) : Nat → State
  | 0 => s
  | n + 1 =>
    match s.part? part with
    | none => s
    | some p =>
      if p.channels.length ≥ p.gchan then s
      else match (List.range 512).find? s.spareChan with
        | some c => (s.setPart part { p with channels := insertNum c p.channels }).giveChans part n
        | none => s

/-- SUSP of a partition set; a change sends an event of KIND 17 and rewrites the status block. -/
def State.setSusp (s : State) (part : Nat) (v : Bool) : State :=
  match s.part? part with
  | none => s
  | some p =>
    if p.susp = v then s
    else
      let r := BitVec.ofNat 256 (17 * 2 ^ 248 + part * 2 ^ 240 + (if v then 2 ^ 232 else 0) + 2 ^ 160)
      ((s.setPart part { p with susp := v }).event pfNum { record := r, plate := 0 }).writeStatus part

/-- One rank of the procedure of R407. -/
def State.guaranteeRank (s : State) (r : Nat) : State :=
  match s.parts.find? (fun q => q.2.rank == some r) with
  | none => s
  | some q =>
    let s1 := (s.giveFolios q.1 256).giveChans q.1 512
    match s1.part? q.1 with
    | some p => s1.setSusp q.1 (decide (s1.usable p < p.gfol) || decide (p.channels.length < p.gchan))
    | none => s1

/-- The procedure of R407; partitions without a RANK have SUSP = 0. -/
def State.guarantee (s : State) : State :=
  let s1 := (List.range 32).foldl State.guaranteeRank s
  s1.parts.foldl (fun s q => if q.2.rank.isNone then s.setSusp q.1 false else s) s1

/-! ### Turns of virtual functions (R401) -/

/-- The contexts of a partition gated and ungated as the turn says, in one cycle; none is gated while one function is live. -/
def State.applyTurn (s : State) (part : Nat) : State :=
  match s.part? part with
  | none => s
  | some p =>
    let live := s.liveVfs part
    { s with ctxs := s.ctxs.map fun c =>
        (c.1, if c.2.part = part then { c.2 with sliced := decide (live.length > 1) && live.contains c.2.homevf && c.2.homevf != p.turn }
              else c.2) }

/-- The function that comes after the one whose turn it is, in ascending number. -/
def nextVf (turn : Nat) (l : List Nat) : Option Nat :=
  match l.find? fun v => decide (v > turn) with
  | some v => some v
  | none => l.head?

/-- Length of a turn: SLICE, 1 where no `part.budget` names it, times 16,384 cyc. -/
def State.turnLength (s : State) (vf : Nat) : Nat := (s.vf vf).slice.getD 1 * 16384

/-- The die whose counter a partition's turns and status block go by: the one that holds LF 0. -/
def Partn.homeDie (p : Partn) : Nat := match tabGet p.fmap 0 with | some e => e.gfolio / 16 | none => 0

/-- `SLICE_END` (R401): a turn is over, or its function has no live context: the next function's contexts run, the others are
gated. -/
def execSliceEnd (part : Nat) (s : State) : Res :=
  match s.part? part with
  | none => idle s
  | some p =>
    let live := s.liveVfs part
    if live.contains p.turn ∧ s.cyclesSince p.homeDie p.turnAt < s.turnLength p.turn then idle s
    else match nextVf p.turn live with
      | none => idle s
      | some v => .next ((s.setPart part { p with turn := v, turnAt := s.tick }).applyTurn part)

/-! ### Periods (R403, R404) -/

/-- `ENERGY_PERIOD_END` (R403, R404): a period of a die ends; its counts start from zero, and the status blocks of the partitions
whose LF 0 it holds are rewritten. -/
def execEnergyPeriodEnd (die : Nat) (s : State) : Res :=
  let d := s.dieAt die
  let k := s.counter die / 2 ^ 20
  if k = d.period then idle s
  else
    let s1 := s.setDie die { d with period := k, lastEnergy := d.energy, lastIssues := d.issues, energy := [], issues := [] }
    let mine := (s1.parts.filter fun q => (tabGet q.2.fmap 0).isSome && q.2.homeDie == die).map (·.1)
    .next (mine.foldl State.writeStatus s1)

end Sys2Proof.Machine
end

