-- ==== Sys2Proof/Machine/Settle.lean ====
section
/-! DEFINITION. Settling, saving, stopping and killing (R141 to R144, R280, R383 to R385, R391, R393). -/

namespace Sys2Proof.Machine

/-! ### What rests (R384) -/

/-- Whether an event leaves everything as it is. -/
def rests (r : Res) (s : State) : Bool := match r with | .next s1 => decide (s1 = s) | _ => true

/-- Whether the head of a buffer rests: nothing that could take it on does. -/
def State.headRests (s : State) (pos port cls : Nat) : Bool :=
  [execLinkTransfer pos port cls s, execTokenArrival pos port cls s, execSwitchTokenArrival pos port s, execPressFillToken pos port s,
   execPressShiftToken pos port s, execTensorScaleToken pos port s, execPressGoToken pos port s, execGraftUToken pos port s,
   execGraftSharedToken pos port s, execRiddleGoToken pos port s].all fun r => rests r s

/-- Whether every flit of a context in the link buffers is a token that rests. -/
def State.linksRest (s : State) (ctx : Nat) : Bool :=
  s.bufs.all fun q => q.2.all (fun f => !(f.of ctx && !f.isTok))
    && (!q.2.any (fun f => f.of ctx) || s.headRests (q.1 / 24) (q.1 / 4 % 6) (q.1 % 4))

/-- Whether what an element holds of a context rests. -/
def State.elemRests (s : State) (ctx p : Nat) : Bool :=
  let e := s.elem p
  let ix := e.slotsOf ctx
  !e.aside.any (fun a => a.tok.of ctx)
    && (List.range e.out.length).all (fun i =>
      match e.out[i]? with | some o => !ix.contains o.slotIx || rests (execOutputStageDepart p i s) s | none => true)
    && (!e.rob.any (fun r => ix.contains r.slotIx && r.done.isSome) || rests (execRobRelease p s) s)

/-- Whether what a quire holds of a context rests. -/
def State.quireRests (s : State) (ctx q : Nat) : Bool :=
  let k := s.qcc q
  !(s.ovf q).spilling.any (fun e => e.ctx == ctx)
    && (k.ctx != some ctx || (k.task.isNone && rests (execTsendDelivery q s) s))
    && ((s.pressOf q).ctx != some ctx || (s.pressOf q).drains.isEmpty || rests (execPressDrain q s) s)
    && ((s.graftOf q).ctx != some ctx || (s.graftOf q).yout.isEmpty || rests (execGraftYEmit q s) s)

/-- Whether what travels outside the elements of a context rests. -/
def State.waysRest (s : State) (ctx : Nat) : Bool :=
  (List.range s.msgs.length).all (fun i =>
      match s.msgs[i]? with
      | some m => !m.tok.of ctx || (!m.accepted && rests (execChannelMessageEntry i s) s)
      | none => true)
    && (List.range s.deliveries.length).all (fun i =>
      match s.deliveries[i]? with
      | some d => d.report || d.ctx != ctx || rests (execDeliveryWrite i s) s
      | none => true)
    && !s.trapOut.any (fun m => m.ctx == ctx) && !s.marks.any (fun m => m.ctx == ctx) && !s.drainNotices.any (fun n => n.1 == ctx)
    && !s.barrRegs.any (fun r => (s.qcc r.2.2.1).ctx == some ctx && decide (r.2.2.2.2 < 2))

/-- Whether every access of a context is performed, ended or parked, and nothing of it is on its way outside the package. -/
def State.accsRest (s : State) (ctx : Nat) : Bool :=
  s.accs.all (fun q => q.2.ctx != ctx || q.2.parked) && s.outside.all (fun o => o.ctx != ctx || o.resp.isSome)
    && s.barrow.all (fun b => b.2.running.all fun r => r.ctx != ctx || r.parked.isNone)

/-- Whether no task of a context runs (R280). -/
def State.tasksEnded (s : State) (ctx : Nat) : Bool := s.qccs.all fun q => q.2.ctx != some ctx || q.2.task.isNone

/-- A context is settled (R384). -/
def State.settled (s : State) (ctx : Nat) (c : Ctx) : Bool :=
  s.accsRest ctx && s.linksRest ctx && (s.heldElems c).all (s.elemRests ctx)
    && ((s.heldElems c).map quireOf).eraseDups.all (s.quireRests ctx) && s.waysRest ctx

/-! ### The save (R385, R391) -/

/-- Whether a plot that a save records is still to be zeroed: the save waits for it (R22). -/
def State.zeroLeft (s : State) (c : Ctx) : Bool :=
  (s.savedPlots c).any fun p => match s.physPlot c.part p with | some n => (s.plot n).zero | none => false

/-- A context leaves the device for its save area. -/
def State.leave (s : State) (ctx : Nat) : State :=
  let s1 := (s.takeOut ctx).freeCtx ctx
  { s1 with
    ctxs := tabDel s1.ctxs ctx
    accs := s1.accs.filter fun q => q.2.ctx != ctx
    misses := s1.misses.map fun m => { m with accs := m.accs.filter fun i => !(match s.acc? i with | some a => a.ctx == ctx | none => false) }
    outside := s1.outside.filter fun o => o.ctx != ctx
    elems := s1.elems.filter fun q => q.2 != Elem.fresh }

/-- The save area is written; then the context is recorded and gone, and the stop sequence is still to come (R385). A write that
fails ends the context with SAVERR (R381). -/
def State.streamOut' (s : State) (ctx : Nat) (c : Ctx) (r : SaveReq) (v : Saved) (l : List Section) : Res :=
  let pieces := areaPieces ctx c v.killed (s.strict ctx) l
  let size := (pieces.map fun p => p.1.length).sum
  let fail (s : State) : Res :=
    .next (((s.setCtx ctx { c with save := none }).cmdDone r.cmd.1 r.cmd.2 0xD0 0).beginEnd ctx 5 0xD0 0 0)
  if size > r.length then fail s
  else match s.writeArea (s.saveWho r.cmd.1 r.cmd.2) r.va (cutWords (cutSteps pieces) [] [] pieces) with
    | .wait s1 => .next s1
    | .fail _ s1 => fail s1
    | .ok _ s1 =>
      let head := (pieces.headD ([], [])).1
      let v1 := { v with digest := head.drop 0x40, va := r.va }
      let s2 := (s1.leave ctx).modPart c.part fun p => { p with stop := some r }
      .next { s2 with saves := s2.saves.filter (fun o => o.va != r.va) ++ [v1] }

/-- `SETTLE_COMPLETE` (R384, R385, R391): a context that is being saved has settled, or its kill has been taken and its accesses
have ended: its state streams to the save area. -/
def execSettleComplete (ctx : Nat) (s : State) : Res :=
  match s.ctx? ctx with
  | none => idle s
  | some c =>
    match c.save with
    | none => idle s
    | some r =>
      if c.tear ≠ .alive ∨ !c.gated then idle s
      else if r.kill then
        if !s.accsRest ctx ∨ !s.tasksEnded ctx then idle s
        else
          let s1 := s.sweepCtx ctx
          match s1.ctx? ctx with
          | none => idle s
          | some c1 =>
            let c2 := { c1 with discard := c1.discard + (c1.parkd - c.parkd), parkd := c.parkd }
            let v := { s1.savedOf ctx c2 with
              killed := true, restarts := r.taken.map (fun t => (t.1, t.2.2)), elems := [], overflow := [], qccs := [], press := [],
              graft := [], riddle := [], table := none, running := [], misses := [], plots := [], ctl := [] }
            (s1.setCtx ctx c2).streamOut' ctx c2 r v (killSections c2 v)
      else if !s.settled ctx c ∨ s.zeroLeft c then idle s
      else
        let v := s.savedOf ctx c
        s.streamOut' ctx c r v (s.sections ctx c v)

/-- `KILL_TIMEOUT` (R391): no eligible yield within 65,536 cyc: the context is settled and saved instead. -/
def execKillTimeout (ctx : Nat) (s : State) : Res :=
  match s.ctx? ctx with
  | none => idle s
  | some c =>
    match c.save with
    | none => idle s
    | some r =>
      if c.tear ≠ .alive ∨ !r.kill ∨ !r.taken.isEmpty ∨ s.cyclesSince (s.homeDie ctx) r.since < 65536 then idle s
      else
        let r1 := { r with kill := false, lane1 := 0xD4 }
        .next ((s.stopBegin c.part r).setCtx ctx { c with gated := true, save := some r1 })

/-! ### The stop sequence (R141 to R143) -/

/-- The leaves of a table from a level on: VA, entry and whether they map 2 MiB, in rising VA. -/
def State.leaves (s : State) : Nat → Nat → Nat → Nat → List (Nat × Nat × Bool)
  | 0, _, _, _ => []
  | n + 1, lvl, base, va =>
    let shift := match lvl with | 0 => 43 | 1 => 32 | 2 => 21 | _ => 16
    (List.range (ptSize lvl / 8)).flatMap fun i =>
      let e := memRead s.hbm (base + 8 * i) 8
      let a := va + i * 2 ^ shift
      if bitF e 63 63 = 0 then []
      else if bitF e 62 62 = 0 then (if lvl ≥ 3 then [] else s.leaves n (lvl + 1) (bitF e 39 8 * 256) a)
      else if lvl < 2 then [] else [(a, e, lvl == 2)]

/-- A dirty-report entry (R143). -/
def dirtyEntry (x : Nat × Nat × Bool) : Nat :=
  (if x.2.2 then 2 ^ 63 else 0) + bitF x.1 55 16 * 2 ^ 16 + bitF x.2.1 61 60

/-- The report of a partition: an entry for each leaf with D = 1. -/
def State.dirty (s : State) (part : Nat) : List Nat :=
  ((s.leaves 4 0 (s.ptroot part) 0).filter fun x => bitF x.2.1 7 7 == 1).map dirtyEntry

/-- Steps 3 and 4 of R141: the report, then the status word with STATE = 2. -/
def State.stopWrites (s : State) (part : Nat) (p : Partn) (r : SaveReq) : List Pcie :=
  let l := s.dirty part
  let n := min l.length r.reportLen
  ((l.take n).mapIdx fun i e => Pcie.write (r.reportAddr + 8 * i) (bytesOf 8 e))
    ++ [.write r.statusAddr (bytesOf 8 (stopWord 2 (decide (l.length > r.reportLen)) p.stopseq n))]

/-- Whether step 2 of R141 is done for a partition that stops: every context of it is settled. -/
def State.stopSettled (s : State) (part : Nat) : Bool :=
  s.ctxs.all fun q => q.2.part != part || q.2.tear != .alive || s.settled q.1 q.2

/-- `STOP_SEQUENCE` (R141): once the tenant's writes are performed, the dirty report and the status word with STATE = 2 are
written, and the command completes. -/
def execStopSequence (part : Nat) (s : State) : Res :=
  match s.part? part with
  | none => idle s
  | some p =>
    match p.stop with
    | none => idle s
    | some r =>
      if p.status = 2 ∧ !s.stopSettled part then idle s
      else
        let s1 := s.setPart part { p with stop := none, status := if p.status = 2 then 3 else p.status }
        let s2 := if p.status = 2 then s1.writeStatus part else s1
        .next ({ s2 with pcie := s2.pcie ++ s.stopWrites part p r }.cmdDone r.cmd.1 r.cmd.2 0 r.lane1)

end Sys2Proof.Machine
end

