-- ==== Sys2Proof/Machine/Restore.lean ====
section
/-! DEFINITION. The Rebinder: save areas read back, folios assigned, and a context restored (R22, R120, R366, R389 to R391). -/

namespace Sys2Proof.Machine

/-! ### Folios (R389 step 2) -/

/-- A map entry that names a folio. -/
def MapEntry.at' (g : Nat) : MapEntry := { st := .mapped, ro := false, gfolio := g, target := none }

/-- A logical folio takes a folio: the one it has, a spare one, or a free one of the partition, whose logical folio then takes
what this one had. -/
def State.claim (s : State) (part lf g : Nat) : Option State :=
  match s.part? part with
  | none => none
  | some p =>
    let old := tabGet p.fmap lf
    let same := match old with | some e => e.st == MapSt.mapped && e.gfolio == g | none => false
    let moving := match old with | some e => e.st == MapSt.moving | none => false
    if same then some s
    else if s.lfHeld part lf ∨ moving ∨ s.retired.contains (.folio g) ∨ g ≥ 256 then none
    else match s.ownerOf g with
      | none => some (s.setPart part { p with fmap := tabPut p.fmap lf (.at' g) })
      | some q =>
        let l := s.lfOf part g
        let free := match tabGet p.fmap l with | some e => e.st == MapSt.mapped && !s.lfHeld part l | none => false
        if q ≠ part ∨ !free then none
        else
          let m := match old with | some e => tabPut p.fmap l e | none => tabDel p.fmap l
          some (s.setPart part { p with fmap := tabPut m lf (.at' g) })

/-- Folios of a partition that no context holds, in rising number. -/
def State.freeFolios (s : State) (part : Nat) : List Nat :=
  (List.range 256).filter fun g => s.ownerOf g == some part && !s.lfHeld part (s.lfOf part g)

/-- Folios tried for a logical folio: the one named, then its old one, then the free ones. -/
def State.candidates (s : State) (part : Nat) (v : Saved) (named : List (Nat × Nat)) (lf : Nat) : List Nat :=
  ((named.filter fun x => x.1 == lf).map (·.2)) ++ ((v.folios[lf]?).toList) ++ s.freeFolios part

/-- The first assignment of logical folios that passes a test. -/
def assignFolios (part : Nat) (v : Saved) (named : List (Nat × Nat)) (ok : State → Bool) : List Nat → State → Option State
  | [], s => if ok s then some s else none
  | lf :: r, s => (s.candidates part v named lf).findSome? fun g =>
      match s.claim part lf g with
      | some s1 => assignFolios part v named ok r s1
      | none => none

/-! ### Elements and quires (R389 steps 4 and 5) -/

/-- Whether an element can take back what a save recorded of it: pairs, results and entries of the reorder buffer need a slot. -/
def Elem.canTake (e o : Elem) : Bool :=
  (o.fifo.isEmpty && o.out.isEmpty && o.rob.isEmpty && o.exh.isEmpty) || (decide (e.slotsUsed < 4) && e.freeSlot.isSome)

/-- An element with a saved slot put back; its pairs are ahead of every other. -/
def Elem.takeBack (e o : Elem) (ctx weight : Nat) : Elem :=
  let e1 := { e with
    shadow := o.shadow.foldl (fun t q => tabPut t q.1 q.2) e.shadow
    backing := o.backing.foldl (fun t q => tabPut t q.1 q.2) e.backing
    backingOps := o.backingOps.foldl (fun t q => tabPut t q.1 q.2) e.backingOps
    fetching := e.fetching ++ o.fetching }
  match tabGet o.slots 0, (if e.slotsUsed < 4 then e.freeSlot else none) with
  | some sl, some i =>
    { e1 with
      slots := tabPut e1.slots i { sl with weight := weight }
      fifo := o.fifo.map (fun q => (i, q.2)) ++ e1.fifo
      out := e1.out ++ o.out.map fun x => { x with slotIx := i }
      rob := e1.rob ++ o.rob.map fun x => { x with slotIx := i }
      exh := e1.exh ++ o.exh.map fun x => (i, x.2) }
  | some sl, none =>
    { e1 with backing := tabPut e1.backing ctx { sl with weight := weight }, backingOps := tabPut e1.backingOps ctx o.mstore }
  | none, _ => e1

/-- A saved element is put back; stored operands that find no entry spill. -/
def State.elemBack (s : State) (ctx part weight : Nat) (lp : Nat) (o : Elem) : State :=
  match s.physOf part lp with
  | none => s
  | some p =>
    let s1 := s.setElem p ((s.elem p).takeBack o ctx weight)
    if (slotOfCtx (s1.elem p).slots ctx).isSome then
      (s1.putBack p o.mstore).getD (s1.modElem p fun e => { e with mstore := e.mstore ++ o.mstore })
    else s1

/-- The index of the slot that a context has on an element. -/
def State.slotIndex (s : State) (p ctx : Nat) : Nat := match slotOfCtx (s.elem p).slots ctx with | some (i, _) => i | none => 0

def State.ovfBack (s : State) (part : Nat) (lq : Nat) (o : Overflow) : State :=
  match s.quireAt part lq with
  | none => s
  | some q =>
    let v := s.ovf q
    s.setOvf q { v with entries := v.entries ++ o.entries.filterMap fun e => (s.physOf part e.pos).map fun p => { e with pos := p } }

def State.ctlBackAll (s : State) (part : Nat) (c : Nat × Memory × Tab Handle) : State :=
  match s.quireAt part c.1 with
  | none => s
  | some q =>
    let m := c.2.1.foldl (fun m b => memPut m (q * 65536 + b.1) b.2) (memClear s.ctl (q * 65536) 65536)
    let r := c.2.2.foldl (fun t h => tabPut t (q * 16 + h.1) h.2) (s.ctlRegion.filter fun r => r.1 / 16 != q)
    { s with ctl := m, ctlRegion := r }.writeErrs .control (q * 65536) 65536

def State.unitsBack (s : State) (part : Nat) (v : Saved) : State :=
  let s1 := v.qccs.foldl (fun s q => match s.quireAt part q.1 with | some u => s.setQcc u q.2 | none => s) s
  let s2 := v.press.foldl (fun s q => match s.quireAt part q.1 with | some u => s.setPress u q.2 | none => s) s1
  let s3 := v.graft.foldl (fun s q => match s.quireAt part q.1 with | some u => s.setGraft u q.2 | none => s) s2
  let s4 := v.riddle.foldl (fun s q => match s.mapEntry part q.1 with | some e => s.setRiddle e.gfolio q.2 | none => s) s3
  let s5 := v.steps.foldl (fun s x =>
    match s.quireAt part x.quire with
    | some u => let p := s.prunerOf (u / 64); s.setPruner (u / 64) { p with steps := p.steps ++ [{ x with quire := u }] }
    | none => s) s4
  v.commits.foldl (fun s x =>
    match s.quireAt part x.quire with
    | some u =>
      let p := s.prunerOf (u / 64)
      s.setPruner (u / 64) { p with commits := tabPut p.commits (freeFrom p.commits 0) { x with quire := u } }
    | none => s) s5

/-- A saved plot is written back, its descriptor unchanged (R120). -/
def State.plotBack (s : State) (part : Nat) (x : Nat × Plot × Bytes) : State :=
  match s.physPlot part x.1 with
  | none => s
  | some n =>
    let s1 := { s with sram := memWrite s.sram (n * 4096) 4096 (numOf x.2.2) }.writeErrs .bank (n * 4096) 4096
    s1.setPlot n { x.2.1 with zero := false }

/-- A part of a timetable entry goes to the Barrows of the dies that now hold its plots. -/
def State.runBack (s : State) (r : Running) : State :=
  (List.range 16).foldl (fun s d =>
    let mine := r.plots.filter fun p => s.plotDie r.ctx p == d
    if mine.isEmpty then s
    else s.setBarrow d { s.barrowOf d with running := (s.barrowOf d).running ++ [{ r with plots := mine }] }) s

def State.timetableBack (s : State) (v : Saved) : State :=
  let d := s.homeDie v.ctx
  let s1 := match v.table with
    | some t => s.setBarrow d { s.barrowOf d with tables := (s.barrowOf d).tables ++ [t] }
    | none => s
  let s2 := v.running.foldl (fun s r => s.runBack r) s1
  v.misses.foldl (fun s m =>
    let d := s.plotDie v.ctx m.lplot
    s.setBarrow d { s.barrowOf d with misses := (s.barrowOf d).misses ++ [{ m with accs := [] }] }) s2

/-- A token is put at its target's element, in the buffer of its local port. -/
def State.linkBack (s : State) (part : Nat) (x : Nat × Nat × Token) : State :=
  match s.physOf part x.1 with
  | none => s
  | some p => s.setBuf p 4 x.2.1 (s.buf p 4 x.2.1 ++ [.tok p { x.2.2 with die := BitVec.ofNat 4 (dieOf p) }])

/-- Parked accesses are resolved afresh in their order: each parks or is attached again, or is sent (R74, R389). -/
def State.accsBack (s : State) (part ctx : Nat) : List (Nat × Access) → State
  | [] => s
  | (id, a) :: r =>
    match s.physOf part a.pos with
    | none => s.accsBack part ctx r
    | some p =>
      let clear (l : LaneAcc) : LaneAcc := { l with place := none, code := 0, dirty := none }
      let a1 := { a with pos := p, slotIx := s.slotIndex p ctx, lanes := a.lanes.map clear, parts := [], hold := .none }
      ((s.setAcc id a1).accResolve id).accsBack part ctx r

/-- Messages, deliveries, barrier registrations and answers that a save took along. -/
def State.waysBack (s : State) (part ctx : Nat) (v : Saved) : State :=
  let quire (lq : Nat) : Nat := (s.quireAt part lq).getD 0
  let folio (lf : Nat) : Nat := match s.mapEntry part lf with | some e => e.gfolio | none => 0
  let pos (lp : Nat) : Nat := (s.physOf part lp).getD 0
  let key (k : Nat) : Nat :=
    let n := renumber quire folio k
    if n / 2 ^ 40 = 3 then unitKey 3 (n / 2 ^ 28 % 2 ^ 12 / 64) (n % 2 ^ 28) else n
  let regs := v.barrs.filter fun r => r.2.2.2.2 != 3
  let done := v.barrs.filter fun r => r.2.2.2.2 == 3
  { s with
    msgs := s.msgs ++ v.msgs.map fun m =>
      { m with quire := quire m.quire, sender := m.sender.map fun x => (pos x.1, s.slotIndex (pos x.1) ctx, x.2.2) }
    deliveries := s.deliveries ++ v.deliveries.map fun d => { d with pos := pos d.pos }
    barrRegs := s.barrRegs ++ regs.map fun r => (r.1, r.2.1, quire r.2.2.1, r.2.2.2.1, r.2.2.2.2)
    barrDone := s.barrDone ++ done.map fun r => (quire r.2.2.1, r.2.2.2.1, r.2.1)
    outside := s.outside ++ v.outs.map fun o => { o with who := match o.who with | .unit k => .unit (key k) | w => w } }

/-- The state of a saved context is written back (R389 steps 3 to 6). -/
def State.stateBack (s : State) (v : Saved) (im : Image) : State :=
  let part := v.context.part
  let ctx := v.ctx
  let s1 := (s.setCtx ctx { v.context with sliced := s.slicedNow part v.context.homevf }).placeFolios part { im with mode := 0, resident := [] }
  let s2 := v.plots.foldl (fun s x => s.plotBack part x) s1
  let s3 := (v.elems.foldl (fun s q => s.elemBack ctx part (s.weightOf part v.context.homevf) q.1 q.2) s2).placeReserves ctx part im
  let s4 := (v.overflow.foldl (fun s q => s.ovfBack part q.1 q.2) s3).unitsBack part v
  let s5 := (v.ctl.foldl (fun s c => s.ctlBackAll part c) s4).timetableBack v
  ((v.links.foldl (fun s x => s.linkBack part x) s5).waysBack part ctx v).accsBack part ctx v.accs

/-- A context that was killed at yield points starts anew from its image, with its restart tokens (R391). -/
def State.restart (s : State) (v : Saved) (im : Image) : State :=
  let part := v.context.part
  let ctx := v.ctx
  let c := { v.context with switch := none, shadow := none, acts := im.acts, sliced := s.slicedNow part v.context.homevf }
  let s1 := ((s.setCtx ctx c).placeFolios part im).placeElems ctx part c.homevf im
  let s2 := ((s1.placeReserves ctx part im).placeTasks ctx part c.hyp im).placeEngines ctx part im
  v.restarts.foldl (fun s q => s.linkBack part (q.1, (if q.2.net = .pred then 3 else 0), q.2)) s2

/-! ### The resume (R389) -/

/-- The header fields of a save area that a restore refuses (R386). -/
def areaBad (b : Bytes) : Bool :=
  fieldOf b 0 4 != 0x47585356 || fieldOf b 4 4 != 1 || fieldOf b 8 8 % 8 != 0 || decide (fieldOf b 8 8 < 0x80 + 16 * fieldOf b 0x14 2)
    || fieldOf b 0x14 2 == 0 || decide (fieldOf b 0x16 2 > 7) || fieldOf b 0x1C 36 != 0

/-- A save area is read: its header, and when that is sound, LENGTH bytes. -/
def State.fetchArea (s : State) (w : Who) (va : Nat) (got : Bytes) : Fetch :=
  match s.readOn w va ((0x80 - got.length) / 8) got with
  | .done b s1 => if areaBad b then .done b s1 else s1.readOn w va ((fieldOf b 8 8 - b.length) / 8) b
  | r => r

/-- The saved context that a save area stands for: header, digest and image hold (R386; notes/assumptions/32.md). -/
def State.savedIn (s : State) (part : Nat) (b : Bytes) : Option (Saved × Image) :=
  let dig := (b.drop 0x40).take 64
  if areaBad b ∨ sha512 (b.drop 0x80) ≠ dig then none
  else match s.saves.reverse.find? (fun v => v.digest == dig && v.context.part == part) with
    | none => none
    | some v => match tabGet s.images (fieldOf b 0x18 4) with
      | some im => if fieldOf b 0x18 4 = v.context.image then some (v, im) else none
      | none => none

/-- Pairs of LF and GFOLIO that a resume names, after its 64 bytes. -/
def Launch.named (l : Launch) : List (Nat × Nat) :=
  (List.range ((l.bytes.length - 64) / 4)).map fun i => (fieldOf l.bytes (64 + 4 * i) 2, fieldOf l.bytes (66 + 4 * i) 2)

/-- The command of a resume completes, and the form is over (R389, R396). -/
def State.resumeDone (s : State) (l : Launch) (code : Nat) : State :=
  let s1 := s.modPart l.part fun p => { p with form := none }
  match l.cmd with | some (q, id) => s1.cmdDone q id code 0 | none => s1

/-- A restore that fails completes its command with the code, and ends the context when it is known (R381, R389). -/
def State.restoreFail (s : State) (l : Launch) (v : Option Saved) (code : Nat) : State :=
  let s1 := s.resumeDone l code
  match v with
  | none => s1
  | some v =>
    let c : Ctx := { v.context with ending := { kind := 5, code := code, exit := 0, plate := 0 } }
    if c.dq = 255 then s1.vfLast c.homevf code
    else s1.report c.homevf c.dq (if s1.numbersUsed.contains v.ctx then noCtx else v.ctx) (c.record v.ctx) 0

/-- Whether an assignment of folios can take a saved context back. -/
def State.takes (s : State) (v : Saved) (im : Image) : Bool :=
  (s.modPart v.context.part fun p => { p with status := 1 }).fits v.ctx v.context.part im (fun _ => true) == .fit
    && v.elems.all fun q => match s.physOf v.context.part q.1 with | some p => (s.elem p).canTake q.2 | none => false

/-- Resume entries of the die queues: die, place and record. -/
def State.resumes (s : State) : List (Nat × Nat × Launch) :=
  s.dies.flatMap fun q => (q.2.queue.mapIdx fun i l => (q.1, i, l)).filter fun x => x.2.2.resume

/-- STATE of a partition (R404); 0 when it does not exist. -/
def State.partStatus (s : State) (part : Nat) : Nat := match s.part? part with | some p => p.status | none => 0

/-- A resume whose save area has been read: restored, failed, or waiting for its context number. -/
def State.restore (s : State) (die i : Nat) (l : Launch) (b : Bytes) : State :=
  match s.savedIn l.part b with
  | none => (s.dropEntry die i).restoreFail l none 0xD1
  | some (v, im) =>
    if s.numbersUsed.contains v.ctx then
      s.modEntry die i fun l => { l with got := b }
    else
      match assignFolios l.part v l.named (fun s => s.takes v im) (List.range v.context.nfolio) (s.dropEntry die i) with
      | none => (s.dropEntry die i).restoreFail l (some v) 0xD2
      | some s1 =>
        let s2 := s1.joinTurn l.part v.context.homevf
        let v1 := { v with context := { v.context with gated := s1.partStatus l.part != 1 } }
        (if v.killed then s2.restart v1 im else s2.stateBack v1 im).resumeDone l 0

/-- `REBINDER_RESTORE` (R389): a resume entry reads its save area on, and is then placed. -/
def execRebinderRestore (idx : Nat) (s : State) : Res :=
  match s.resumes[idx]? with
  | none => idle s
  | some (die, i, l) =>
    let w := match l.cmd with | some (q, id) => s.saveWho q id | none => s.saveWho 0 0
    match s.fetchArea w l.imgva l.got with
    | .more got s1 => .next (s1.modEntry die i fun l => { l with got := got })
    | .fail _ s1 => .next ((s1.dropEntry die i).restoreFail l none 0xD0)
    | .done b s1 => .next (s1.restore die i l b)

end Sys2Proof.Machine
end

