-- ==== Sys2Proof/Machine/Move.lean ====
section
/-! DEFINITION. Folios moved and unmapped by the Rebinder, and `part.*` forms that end with it (R17, R18, R397, R398). -/

namespace Sys2Proof.Machine

/-! ### Where things of a moved folio go -/

/-- The folio that a chain of moves leads back from. -/
def moveBack (l : List (Nat × Nat)) : Nat → Nat → Nat
  | 0, g => g
  | n + 1, g => match l.find? (fun x => x.2 == g) with | some x => moveBack l n x.1 | none => g

/-- Where a folio's state goes under moves given as (from, to). A folio that is only moved to changes places with the one at the
other end of its chain, so that no two go to one. -/
def moveFolio (l : List (Nat × Nat)) (g : Nat) : Nat :=
  match l.find? (fun x => x.1 == g) with | some x => x.2 | none => moveBack l l.length g

def moveQuire (l : List (Nat × Nat)) (q : Nat) : Nat := moveFolio l (q / 4) * 4 + q % 4
def movePos (l : List (Nat × Nat)) (p : Nat) : Nat := moveFolio l (p / 64) * 64 + p % 64

/-- A table with its keys changed. -/
def tabMove {α : Type} (f : Nat → Nat) (t : Tab α) : Tab α := t.foldl (fun r x => tabPut r (f x.1) x.2) []

/-- Ranges of `n` bytes copied: `n` bytes for each folio from `n` × its number on. -/
def copyRanges (l : List (Nat × Nat)) (n : Nat) (m : Memory) : Memory :=
  let src := l.flatMap fun x => (m.filter fun c => c.1 / n == x.1).map fun c => (x.2 * n + c.1 % n, c.2)
  src.foldl (fun m c => memPut m c.1 c.2) (l.foldl (fun m x => memClear m (x.2 * n) n) m)

/-- Marks of struck words copied with their bytes: `n` words for each folio. -/
def copyMarks (l : List (Nat × Nat)) (st : Store) (n : Nat) (e : List ErrMark) : List ErrMark :=
  let src := l.flatMap fun x => (e.filter fun m => m.store == st && m.addr / n == x.1).map fun m => { m with addr := x.2 * n + m.addr % n }
  (e.filter fun m => !(m.store == st && l.any fun x => m.addr / n == x.2)) ++ src

/-- A flit on its way to a moved folio goes to its new place; a token's DIE with it. -/
def Flit.moved (l : List (Nat × Nat)) (f : Flit) : Flit :=
  match f with
  | .tok d t => .tok (movePos l d) { t with die := BitVec.ofNat 4 (dieOf (movePos l d)) }
  | .notice d c a n => .notice (movePos l d) c a n
  | .req d a p => .req (movePos l d) a p
  | .resp d a p => .resp (movePos l d) a p

def Access.moved (l : List (Nat × Nat)) (a : Access) : Access :=
  let lane (x : LaneAcc) : LaneAcc :=
    match x.place with
    | some (.sram pa) => { x with place := some (.sram (moveFolio l (pa / 2 ^ 24) * 2 ^ 24 + pa % 2 ^ 24)) }
    | _ => x
  { a with pos := movePos l a.pos, lanes := if a.parts.isEmpty then a.lanes.map lane else a.lanes }

def Launch.moved (l : List (Nat × Nat)) (x : Launch) : Launch :=
  { x with elemAcc := x.elemAcc.map fun e => (movePos l e.1, e.2), cmd := x.cmd.map fun c => (moveQuire l c.1, c.2) }

/-- The key of a unit's accesses. -/
def moveKey (l : List (Nat × Nat)) (k : Nat) : Nat :=
  let unit := k / 2 ^ 28 % 2 ^ 12
  let sub := k % 2 ^ 28
  match k / 2 ^ 40 with
  | 2 => unitKey 2 (moveFolio l unit) sub
  | 3 | 4 | 9 | 10 => k
  | n => unitKey n (moveQuire l unit) sub

/-- The home of a barrier object as a number: 2 × an SRAM address, or an odd number for HBM (R299). -/
def moveHome (l : List (Nat × Nat)) (h : Nat) : Nat :=
  if h % 2 = 1 then h else 2 * (movePos l (h / 2 ^ 19) * 2 ^ 18 + h / 2 % 2 ^ 18)

def Outside.moved (l : List (Nat × Nat)) (o : Outside) : Outside :=
  { o with who := match o.who with | .unit k => .unit (moveKey l k) | w => w }

/-- The Pruners with the steps and commits of moved quires at their new dies. -/
def movePruners (l : List (Nat × Nat)) (t : Tab Pruner) : Tab Pruner :=
  let out := t.map fun p => (p.1, { p.2 with
    steps := p.2.steps.filter fun x => moveQuire l x.quire / 64 == p.1
    commits := p.2.commits.filter fun x => moveQuire l x.2.quire / 64 == p.1 })
  let stay := out.map fun p => (p.1, { p.2 with
    steps := p.2.steps.map fun x => { x with quire := moveQuire l x.quire }
    commits := p.2.commits.map fun x => (x.1, { x.2 with quire := moveQuire l x.2.quire }) })
  let goSteps := t.flatMap fun p => (p.2.steps.filter fun x => moveQuire l x.quire / 64 != p.1).map fun x => { x with quire := moveQuire l x.quire }
  let goCommits := t.flatMap fun p =>
    (p.2.commits.filter fun x => moveQuire l x.2.quire / 64 != p.1).map fun x => { x.2 with quire := moveQuire l x.2.quire }
  let get (t : Tab Pruner) (d : Nat) : Pruner := (tabGet t d).getD Pruner.fresh
  let t1 := goSteps.foldl (fun t x => let d := x.quire / 64; tabPut t d { get t d with steps := (get t d).steps ++ [x] }) stay
  goCommits.foldl (fun t x =>
    let d := x.quire / 64
    tabPut t d { get t d with commits := tabPut (get t d).commits (freeFrom (get t d).commits 0) x }) t1

/-- Every place in the machine that names an element, quire or folio of a moved folio, after the move. -/
def State.relocate (s : State) (l : List (Nat × Nat)) : State :=
  let q := moveQuire l
  let p := movePos l
  { s with
    elems := tabMove p s.elems
    bufs := s.bufs.map fun b => (b.1, b.2.map (Flit.moved l))
    accs := s.accs.map fun a => (a.1, a.2.moved l)
    overflow := tabMove q (s.overflow.map fun o => (o.1, { o.2 with
      entries := o.2.entries.map fun e => { e with pos := p e.pos }, spilling := o.2.spilling.map fun e => { e with pos := p e.pos } }))
    invals := s.invals.map fun x => { x with quire := q x.quire }
    qccs := tabMove q s.qccs
    press := tabMove q s.press
    graft := tabMove q s.graft
    riddle := tabMove (moveFolio l) s.riddle
    pruner := movePruners l s.pruner
    msgs := s.msgs.map fun m => { m with quire := q m.quire, sender := m.sender.map fun x => (p x.1, x.2) }
    marks := s.marks.map fun m => { m with node := m.node.map fun n => (p n.1, n.2), cmd := m.cmd.map fun c => (q c.1, c.2) }
    drainNotices := s.drainNotices.map fun n => (n.1, p n.2.1, n.2.2)
    barrRegs := s.barrRegs.map fun r => (moveHome l r.1, r.2.1, q r.2.2.1, r.2.2.2)
    saves := s.saves.map fun v => { v with barrs := v.barrs.map fun r => (moveHome l r.1, r.2) }
    barrDone := s.barrDone.map fun r => (q r.1, r.2)
    parts := s.parts.map fun x => (x.1, { x.2 with
      launches := x.2.launches.map (Launch.moved l)
      faults := x.2.faults.map fun f => { f with waiters := f.waiters.map (moveKey l) } })
    toSpine := s.toSpine.map (Launch.moved l)
    batches := s.batches.map fun b => (b.1, b.2.moved l)
    dies := s.dies.map fun d => (d.1, { d.2 with queue := d.2.queue.map (Launch.moved l) })
    responses := s.responses.map fun r => (p r.1, r.2)
    sweep := s.sweep.map fun w => { w with cmd := (q w.cmd.1, w.cmd.2) }
    submissions := s.submissions.map fun w => { w with cmd := (q w.cmd.1, w.cmd.2) }
    outside := s.outside.map (Outside.moved l)
    deliveries := s.deliveries.map fun d => { d with pos := p d.pos } }

/-- Step 3 of R17: plots and their descriptors are copied, and with them control memory. -/
def State.copyFolios (s : State) (l : List (Nat × Nat)) : State :=
  let s1 := { s with
    sram := copyRanges l (2 ^ 24) s.sram
    ctl := copyRanges l (2 ^ 18) s.ctl
    ctlRegion := tabMove (fun k => moveFolio l (k / 64) * 64 + k % 64) s.ctlRegion
    errs := copyMarks l .control (2 ^ 15) (copyMarks l .bank (2 ^ 21) s.errs) }
  l.foldl (fun t x => (List.range 4096).foldl (fun t i =>
    let n := x.2 * 4096 + i
    let o := x.1 * 4096 + i
    { t.setPlot n (s.plot o) with
      zeroRows := match tabGet s.zeroRows o with | some k => tabPut t.zeroRows n k | none => tabDel t.zeroRows n }) t) s1

/-- Timetables, their entries under way and miss lists of a partition's contexts, taken from their Barrows and given to the Barrows
of the dies that now hold their folios. -/
def State.moveTimetables (s : State) (part : Nat) (old : State) : State :=
  let mine (ctx : Nat) : Bool := s.partOf ctx == part
  let s1 := { s with barrow := s.barrow.map fun b => (b.1,
    { tables := b.2.tables.filter (fun t => !mine t.ctx), running := b.2.running.filter (fun r => !mine r.ctx),
      misses := b.2.misses.filter fun m => !mine m.ctx }) }
  let all := old.barrow.map (·.2)
  let s2 := (all.flatMap fun b => b.tables.filter fun t => mine t.ctx).foldl (fun s t =>
    let d := s.homeDie t.ctx
    s.setBarrow d { s.barrowOf d with tables := (s.barrowOf d).tables ++ [t] }) s1
  let s3 := (all.flatMap fun b => b.running.filter fun r => mine r.ctx).foldl (fun s r => s.runBack r) s2
  (all.flatMap fun b => b.misses.filter fun m => mine m.ctx).foldl (fun s m =>
    let d := s.plotDie m.ctx m.lplot
    s.setBarrow d { s.barrowOf d with misses := (s.barrowOf d).misses ++ [m] }) s3

/-! ### The steps (R17) -/

/-- Entries of a partition's map that are moving, with where they lead. -/
def Partn.moving (p : Partn) : List (Nat × MapEntry) := p.fmap.filter fun e => e.2.st == MapSt.moving

/-- The moves of a map, from folio to folio. -/
def Partn.moves (p : Partn) : List (Nat × Nat) :=
  p.moving.filterMap fun e => match e.2.target with
    | some (some g, _) => if g = e.2.gfolio then none else some (e.2.gfolio, g)
    | _ => none

/-- Step 2: every access that was resolved to a folio is performed. -/
def State.drainedFolio (s : State) (g : Nat) : Bool :=
  s.accs.all fun a => a.2.parts.all fun x =>
    x.st == PartSt.performed || x.st == PartSt.response || x.st == PartSt.done ||
      a.2.lanes.all fun l => !x.lanes.contains l.lane || (match l.place with | some (.sram pa) => pa / 2 ^ 24 != g | _ => true)

/-- Step 4: a moving entry as it is written. -/
def settleEntry (m : Tab MapEntry) (e : Nat × MapEntry) : Tab MapEntry :=
  match e.2.target with
  | some (some g, ro) => tabPut m e.1 { st := .mapped, ro := ro, gfolio := g, target := none }
  | some (none, _) => tabDel m e.1
  | none => m

/-- Steps 3 and 4 for every moving entry of a partition at once. -/
def State.commitMoves (s : State) (part : Nat) : State :=
  match s.part? part with
  | none => s
  | some p =>
    let l := p.moves
    let s1 := if l.isEmpty then s else (s.copyFolios l).relocate l
    let s2 := s1.modPart part fun p => { p with fmap := p.moving.foldl settleEntry p.fmap }
    if l.isEmpty then s2 else s2.moveTimetables part s

/-- The form that is under way is over: its command completes. -/
def State.formDone (s : State) (part status : Nat) : State :=
  match s.part? part with
  | none => s
  | some p =>
    match p.form with
    | some (_, q, id) => (s.setPart part { p with form := none }).cmdDone q id status 0
    | none => s

/-- Entries that a form was changing are as they were (R396, R410). -/
def cancelEntry (m : Tab MapEntry) (e : Nat × MapEntry) : Tab MapEntry :=
  match e.2.target with
  | some (some g, _) => if g = e.2.gfolio then tabDel m e.1 else tabPut m e.1 { e.2 with st := .mapped, target := none }
  | _ => tabPut m e.1 { e.2 with st := .mapped, target := none }

/-- A partition whose contexts are gone and whose folios are unmapped ceases to exist (R397). -/
def State.partGone (s : State) (part : Nat) : State :=
  match s.part? part with
  | none => s
  | some p =>
    let s1 := ({ s with parts := tabDel s.parts part }.writeStatus part).guarantee
    match p.form with | some (_, q, id) => s1.cmdDone q id 0 0 | none => s1

/-- Whether a context of a partition still holds resources. -/
def State.partHeld (s : State) (part : Nat) : Bool := s.ctxs.any fun c => c.2.part == part && c.2.tear != .reporting

/-- `part.destroy` goes on: once no context is left, the folios are unmapped under R17, and the partition is gone. -/
def State.destroyOn (s : State) (part : Nat) (p : Partn) : State :=
  if s.partHeld part then s
  else if p.fmap.isEmpty then s.partGone part
  else if p.fmap.any (fun e => e.2.st != MapSt.moving) then
    s.setPart part { p with fmap := p.fmap.map fun e => (e.1, { e.2 with st := .moving, target := some (none, false) }) }
  else if p.fmap.all (fun e => s.drainedFolio e.2.gfolio) then (s.commitMoves part).partGone part
  else s

/-- `FOLIO_MOVE` (R17): once every access to the folios that a form moves or unmaps is performed, plots are copied and the entries
are written. The entries of one form are written together. -/
def execFolioMove (part lf : Nat) (s : State) : Res :=
  match s.part? part with
  | none => idle s
  | some p =>
    match p.form with
    | some (1, _, _) => .next (s.destroyOn part p)
    | _ =>
      if !p.moving.any (fun e => e.1 == lf) ∨ !p.moving.all (fun e => s.drainedFolio e.2.gfolio) then idle s
      else .next (((s.commitMoves part).guarantee).formDone part 0)

end Sys2Proof.Machine
end

