-- ==== Sys2Proof/Machine/Parts.lean ====
section
/-! DEFINITION. The `part.*` forms (R13, R14, R77, R102, R141, R383, R389, R391, R394 to R403, R407). -/

namespace Sys2Proof.Machine

/-- What performing a form comes to: a status, a form that goes on, or a wait for room. -/
inductive Formed where
  | done (status : Nat) (s : State)
  | runs (s : State)
  | wait

/-- Whether a byte of the first `n` bytes of a record that no field covers is not zero. -/
def reservedBad (b : Bytes) (n : Nat) (fields : List (Nat × Nat)) : Bool :=
  (List.range n).any fun i => fieldOf b i 1 != 0 && !fields.any fun f => decide (f.1 ≤ i) && decide (i < f.1 + f.2)

/-- Whether a stop or save of a partition is in progress (R144), other than a kill of a context that has not been taken. -/
def State.partBusy (s : State) (part : Nat) (p : Partn) (spare : Option Nat) : Bool :=
  p.stop.isSome || s.ctxs.any fun c => c.2.part == part && c.2.save.isSome && !(!c.2.gated && some c.1 == spare)

/-! ### Creation and destruction (R397) -/

def State.partCreate (s : State) (part : Nat) (b : Bytes) : Formed :=
  if (s.part? part).isSome then .done 6 s
  else if reservedBad b 8 [] then .done 1 s
  else .done 0 ((s.setPart part Partn.created).writeStatus part)

/-- A function without its binding (R401, R402). -/
def Vf.unbind (v : Vf) : Vf := { v with part := none, mode := 0, maxPrio := 0, ndq := 0, tweight := none, slice := none }

/-- Every context of a partition that a test picks is torn down. -/
def State.endContexts (s : State) (part code : Nat) (pick : Ctx → Bool) : State :=
  (s.ctxs.filter fun c => c.2.part == part && pick c.2).foldl (fun s c => s.beginEnd c.1 5 code 0 0) s

def State.partDestroy (s : State) (part : Nat) (p : Partn) (b : Bytes) (q id : Nat) : Formed :=
  if part = 0 then .done 6 s
  else if reservedBad b 8 [] then .done 1 s
  else
    let s1 := s.endContexts part 0xE2 fun _ => true
    let s2 : State := { s1 with vfs := s1.vfs.map fun v => (v.1, if v.2.part = some part then v.2.unbind else v.2) }
    let s3 := p.launches.foldl (fun s l => s.launchReply l 0xC2 0 0) s2
    let p1 := { p with form := some (1, q, id), launches := [] }
    .runs ((s3.setPart part p1).destroyOn part p1)

/-! ### The folio map (R13, R14, R395, R398) -/

/-- The chain rule, and R14 within the map: LF 0 to N − 1, no folio twice. -/
def chainOk (m : Tab MapEntry) : Bool :=
  let g (e : Nat × MapEntry) : Nat := match e.2.target with | some (some h, _) => h | _ => e.2.gfolio
  let l : List (Nat × Nat) := (m.filter fun e => match e.2.target with | some (none, _) => false | _ => true).map fun e => (e.1, g e)
  (l.map (·.1) == List.range l.length) && (l.map (·.2)).eraseDups == l.map (·.2)
    && l.all fun x => x.1 == 0 || l.any fun y => decide (y.1 < x.1) && adjacent y.2 x.2

/-- The status of one entry that a map writes, and the map with it. -/
def State.fmapEntry (s : State) (part : Nat) (m : Tab MapEntry) (lf w : Nat) : Nat × Tab MapEntry :=
  let g := w % 256
  let ro := bitF w 29 29 == 1
  let map := bitF w 31 30 == 1
  let old := tabGet m lf
  if (match old with | some e => e.st == MapSt.moving | none => false) = true then (3, m)
  else if map ∧ s.retired.contains (.folio g) then (5, m)
  else if map ∧ (match s.ownerOf g with | some o => o != part | none => false) = true then (4, m)
  else match old with
    | none => (0, if map then tabPut m lf { st := .mapped, ro := ro, gfolio := g, target := none } else m)
    | some e =>
      if !map then (if s.lfHeld part lf then (4, m) else (0, tabPut m lf { e with st := .moving, target := some (none, false) }))
      else if e.gfolio = g then (0, tabPut m lf { e with ro := ro })
      else (0, tabPut m lf { e with st := .moving, target := some (some g, ro) })

def State.fmapEntries (s : State) (part : Nat) : Tab MapEntry → List (Nat × Nat) → Nat × Tab MapEntry
  | m, [] => (0, m)
  | m, (lf, w) :: r =>
    match s.fmapEntry part m lf w with
    | (0, m1) => s.fmapEntries part m1 r
    | (e, _) => (e, m)

/-- New entries of a form that also moves or unmaps are written with those: until then they lead where they are. -/
def withMoves (old m : Tab MapEntry) : Tab MapEntry :=
  m.map fun e => (e.1, if (tabGet old e.1).isSome then e.2 else { e.2 with st := .moving, target := some (some e.2.gfolio, e.2.ro) })

def State.partFmap (s : State) (part : Nat) (p : Partn) (b : Bytes) (q id : Nat) : Formed :=
  let first := fieldOf b 0 1
  let n := fieldOf b 1 1
  let l := (List.range n).map fun i => (first + i, fieldOf b (8 + 4 * i) 4)
  if n = 0 ∨ first + n > 256 ∨ fieldOf b 2 6 ≠ 0 ∨ l.any (fun e => bitF e.2 31 30 ≥ 2 || bitF e.2 28 8 != 0) then .done 1 s
  else match s.fmapEntries part p.fmap l with
    | (0, m) =>
      if !chainOk m then .done 2 s
      else if m.any (fun e => e.2.st == MapSt.moving) then
        .runs (s.setPart part { p with fmap := withMoves p.fmap m, form := some (2, q, id) })
      else .done 0 (s.setPart part { p with fmap := m }).guarantee
    | (e, _) => .done e s

/-! ### Channels, tables and queues (R397, R400) -/

def State.partChan (s : State) (part : Nat) (p : Partn) (b : Bytes) : Formed :=
  let n := fieldOf b 0 64
  let l := (List.range 512).filter fun i => n.testBit i
  if l.any (fun c => s.retired.contains (.chan c)) then .done 5 s
  else if s.parts.any (fun o => o.1 != part && o.2.channels.any fun c => l.contains c) then .done 4 s
  else .done 0 (s.setPart part { p with channels := l }).guarantee

def State.partPtroot (s : State) (part : Nat) (p : Partn) (b : Bytes) : Formed :=
  let a := fieldOf b 0 8
  if a ≥ 2 ^ 40 ∨ a % 65536 ≠ 0 then .done 1 s else .done 0 (s.setPart part { p with ptroot := a })

/-- Whether LF, QUIRE and CHAN name a channel of a partition. -/
def Partn.refOk (p : Partn) (lf quire chan : Nat) : Bool := (tabGet p.fmap lf).isSome && decide (quire ≤ 3) && decide (chan ≤ 13)

def State.partFq (s : State) (part : Nat) (p : Partn) (b : Bytes) : Formed :=
  let a := fieldOf b 0 8
  if a ≥ 2 ^ 40 ∨ a % 65536 ≠ 0 ∨ !p.refOk (fieldOf b 8 1) (fieldOf b 9 1) (fieldOf b 10 1) then .done 1 s
  else .done 0 (s.setPart part { p with fqBase := some a, fqChan := some (fieldOf b 8 1, fieldOf b 9 1, fieldOf b 10 1), seq := 0 })

def State.partEvent (s : State) (part : Nat) (p : Partn) (b : Bytes) : Formed :=
  if !p.refOk (fieldOf b 0 1) (fieldOf b 1 1) (fieldOf b 2 1) then .done 1 s
  else .done 0 (s.setPart part { p with plateChan := some (fieldOf b 0 1, fieldOf b 1 1, fieldOf b 2 1) })

/-! ### Plates and destinations (R77, R95, R102) -/

def State.partPlate (s : State) (b : Bytes) : Formed :=
  let n := fieldOf b 0 2
  let st := fieldOf b 2 1
  let evf := fieldOf b 4 2
  let key := (b.drop 8).take 133
  if n = 0 ∨ n > 511 ∨ st > 1 ∨ evf > 383 ∨ reservedBad b 8 [(0, 2), (2, 1), (4, 2)] ∨ (st = 1 ∧ !keyOk key) then .done 1 s
  else if st = 1 then
    if (tabGet s.plates n).isSome then .done 7 s
    else .done 0 { s with plates := tabPut s.plates n { evf := evf, pctr := 0, key := key } }
  else if s.sets.any (fun h => h.2.plates.contains n) ∨ s.dests.any (fun d => d.2.owner == n) then .done 7 s
  else .done 0 { s with plates := tabDel s.plates n }

def State.partDest (s : State) (b : Bytes) : Formed :=
  let d := fieldOf b 0 2
  let h := fieldOf b 2 2
  if !destValid d ∨ h ≥ 4096 ∨ fieldOf b 4 1 > 1 then .done 1 s
  else
    let s1 := { s with dests := tabPut s.dests d { s.dest d with ingress := BitVec.ofNat 12 h } }
    .done 0 (if fieldOf b 4 1 = 1 then s1.setOwner d 0 else s1)

/-! ### Functions, quotas, budgets, guarantees (R399, R401 to R403, R407) -/

/-- Functions bound to a partition by `part.vf`. -/
def State.boundVfs (s : State) (part : Nat) : List (Nat × Vf) := s.vfs.filter fun v => v.1 != pfNum && v.2.part == some part

def State.partVf (s : State) (part : Nat) (p : Partn) (b : Bytes) : Formed :=
  let n := fieldOf b 0 2
  let mode := fieldOf b 2 1
  let prio := fieldOf b 3 1
  let ndq := fieldOf b 4 1
  let v := s.vf n
  let others := (s.boundVfs part).filter fun o => o.1 != n
  if n > 383 ∨ mode > 2 ∨ reservedBad b 8 [(0, 5)] then .done 1 s
  else if mode = 0 then
    if v.part ≠ some part then .done 6 s
    else .done 0 ((s.endContexts part 0xE2 fun c => c.homevf == n).setVf n v.unbind)
  else if prio > 7 ∨ ndq = 0 then .done 1 s
  else if (v.part.isSome ∧ v.part ≠ some part) ∨ (mode = 1 ∧ !others.isEmpty) ∨ others.any (fun o => o.2.mode == 1) then .done 4 s
  else if v.part.isNone ∧ others.length + 1 > p.maxVf then .done 8 s
  else .done 0 (s.setVf n { v with part := some part, mode := mode, maxPrio := prio, ndq := ndq })

/-- The most granules that any quire's contexts have reserved in a partition. -/
def State.mostReserved (s : State) (part : Nat) : Nat :=
  s.overflow.foldl (fun n o => if s.ownerOf (o.1 / 4) = some part then max n (o.2.reserve.map (·.2)).sum else n) 0

def State.partQuota (s : State) (part : Nat) (p : Partn) (b : Bytes) : Formed :=
  let base := fieldOf b 0 2
  let n := fieldOf b 2 2
  let cap := fieldOf b 4 2
  let maxVf := fieldOf b 6 2
  if base + n > 4096 ∨ cap > 16384 ∨ maxVf > 384 then .done 1 s
  else if s.parts.any (fun o => o.1 != part && meet base n o.2.ctxBase o.2.nctx) then .done 4 s
  else if s.ctxs.any (fun c => c.2.part == part && !(decide (base ≤ c.1) && decide (c.1 < base + n)))
      ∨ s.mostReserved part > cap ∨ (s.boundVfs part).length > maxVf then .done 8 s
  else .done 0 (s.setPart part { p with ctxBase := base, nctx := n, ovfCap := cap, maxVf := maxVf })

/-- The slots of a partition's contexts take their weights anew (R402). -/
def State.reweigh (s : State) (part : Nat) : State :=
  let w (sl : Slot) : Slot :=
    match s.ctx? sl.ctx with
    | some c => if c.part = part then { sl with weight := s.weightOf part c.homevf } else sl
    | none => sl
  let all (t : Tab Slot) : Tab Slot := t.map fun q => (q.1, w q.2)
  { s with elems := s.elems.map fun e =>
      (e.1, { e.2 with slots := all e.2.slots, shadow := all e.2.shadow, backing := all e.2.backing }) }

def State.partBudget (s : State) (part : Nat) (p : Partn) (b : Bytes) : Formed :=
  let n := fieldOf b 0 2
  let w := fieldOf b 2 1
  let slice := fieldOf b 3 1
  let p1 := { p with ebudget := fieldOf b 4 4 }
  if w = 0 ∨ w > 16 then .done 1 s
  else if n = 0xFFFF then .done 0 ((s.setPart part { p1 with tweight := w }).reweigh part)
  else if n ≥ 384 ∨ (s.vf n).part ≠ some part then .done 6 s
  else if slice = 0 then .done 1 s
  else .done 0 (((s.setPart part p1).setVf n { s.vf n with tweight := some w, slice := some slice }).reweigh part)

def State.partGuar (s : State) (part : Nat) (p : Partn) (b : Bytes) : Formed :=
  let r := fieldOf b 0 1
  let rank := if r = 0xFF then none else some r
  if (r > 31 ∧ r ≠ 0xFF) ∨ fieldOf b 1 1 ≠ 0 ∨ (r ≠ 0xFF ∧ s.parts.any fun o => o.1 != part && o.2.rank == rank) then .done 1 s
  else .done 0 ((s.setPart part { p with rank := rank, gfol := fieldOf b 2 2, gchan := fieldOf b 4 2 }).guarantee)

/-! ### Stop, save and resume (R141, R383, R389, R391) -/

/-- The request of a stop or save from 20 bytes of its record. -/
def stopReq (b : Bytes) (off q id tick : Nat) : SaveReq where
  kill := false
  lane1 := 0
  since := tick
  va := 0
  length := 0
  statusAddr := fieldOf b off 8
  reportAddr := fieldOf b (off + 8) 8
  reportLen := fieldOf b (off + 16) 4
  cmd := (q, id)
  taken := []

/-- `part.stop`: step 1 of R141 for every context; the launch channel holds (R372). -/
def State.partStop (s : State) (part : Nat) (b : Bytes) (q id : Nat) : Formed :=
  let r := stopReq b 0 q id s.tick
  let s1 := (s.stopBegin part r).modPart part fun p => { p with status := 2, stop := some r }
  let s2 : State := { s1 with ctxs := s1.ctxs.map fun c => (c.1, if c.2.part = part then { c.2 with gated := true } else c.2) }
  .runs (s2.writeStatus part)

/-- A save area: 64 KiB aligned, in the HBM region (R385). -/
def saveVaOk (va n : Nat) : Bool := va % 65536 == 0 && decide (2 ^ 32 ≤ va) && decide (va + n ≤ 2 ^ 52)

/-- `part.save`: the context is gated, or with KILL a kill is pending; a kill that was pending is withdrawn (R393). -/
def State.partSave (s : State) (part : Nat) (b : Bytes) (q id : Nat) : Formed :=
  let n := fieldOf b 0 2
  let kill := fieldOf b 2 1 == 1
  let r := { stopReq b 24 q id s.tick with kill := kill, va := fieldOf b 8 8, length := fieldOf b 16 8 }
  if reservedBad b 44 [(0, 3), (8, 36)] ∨ fieldOf b 2 1 > 1 ∨ !saveVaOk r.va r.length then .done 1 s
  else match s.ctx? n with
    | none => .done 1 s
    | some c =>
      if c.part ≠ part ∨ c.tear ≠ .alive then .done 1 s
      else
        let s1 := match c.save with | some o => s.cmdDone o.cmd.1 o.cmd.2 3 0 | none => s
        let s2 := s1.setCtx n { c with save := some r, gated := c.gated || !kill }
        .runs (if kill then s2 else s2.stopBegin part r)

/-- The pairs of LF and GFOLIO of a resume record. -/
def resumePairs (b : Bytes) : List (Nat × Nat) :=
  (List.range (fieldOf b 8 2)).map fun i => (fieldOf b (16 + 4 * i) 2, fieldOf b (18 + 4 * i) 2)

/-- The entry of a resume in a die's queue. -/
def resumeEntry (part : Nat) (b : Bytes) (set : Handle) (q id : Nat) : Launch where
  bytes := bytesOf 8 0 ++ bytesOf 8 (fieldOf b 0 8) ++ bytesOf 48 0 ++ (b.drop 16).take (4 * fieldOf b 8 2)
  part := part
  parent := none
  homevf := pfNum
  prio := 0
  plate := set
  hyp := false
  elemAcc := none
  cmd := some (q, id)
  ctx := noCtx
  resume := true
  got := []
  image := none
  dies := none

/-- `part.resume`: a stopped partition is ungated, or a save area is to be restored. -/
def State.partResume (s : State) (part : Nat) (p : Partn) (b : Bytes) (set : Handle) (q id : Nat) : Formed :=
  let l := resumePairs b
  if fieldOf b 8 2 > 255 ∨ fieldOf b 10 6 ≠ 0 ∨ l.any (fun x => decide (x.1 > 255) || decide (x.2 > 255)) then .done 1 s
  else if fieldOf b 0 8 = 0 then
    if p.status ≠ 3 then .done 1 s
    else
      let s1 := s.setPart part { p with status := 1 }
      let s2 : State := { s1 with ctxs := s1.ctxs.map fun c => (c.1, if c.2.part = part ∧ c.2.save.isNone then { c.2 with gated := false } else c.2) }
      .done 0 (s2.writeStatus part)
  else if !saveVaOk (fieldOf b 0 8) 0 then .done 1 s
  else if l.any (fun x => s.retired.contains (.folio x.2)) then .done 5 s
  else if l.any (fun x => match s.ownerOf x.2 with | some o => o != part | none => false) then .done 4 s
  else
    let g := match tabGet p.fmap 0, l.find? (fun x => x.1 == 0) with
      | some e, _ => e.gfolio
      | none, some x => x.2
      | none, none => 0
    let d := g / 16
    if (s.dieAt d).queue.length ≥ 64 then .wait
    else
      let s1 := s.setPart part { p with form := some (14, q, id) }
      .runs (s1.setDie d { s1.dieAt d with queue := (s1.dieAt d).queue ++ [resumeEntry part b set q id] })

/-! ### Performing a form (R396) -/

/-- A `part.*` command is performed. -/
def State.partForm (s : State) (q : Nat) (c : Cmd) : Formed :=
  let part := c.xb.toNat
  let cfn := c.word.toNat % 1024
  let b := c.record
  match cfn, s.part? part with
  | 0, _ => s.partCreate part b
  | _, none => .done 6 s
  | cfn, some p =>
    let spare := if cfn = 13 then some (fieldOf b 0 2) else none
    if s.partBusy part p spare then .done 3 s
    else match cfn with
      | 1 => s.partDestroy part p b q c.id
      | 2 => s.partFmap part p b q c.id
      | 3 => s.partChan part p b
      | 4 => s.partPtroot part p b
      | 5 => s.partFq part p b
      | 6 => s.partPlate b
      | 7 => s.partDest b
      | 8 => s.partVf part p b
      | 9 => s.partQuota part p b
      | 10 => s.partBudget part p b
      | 11 => s.partGuar part p b
      | 12 => s.partStop part b q c.id
      | 13 => s.partSave part b q c.id
      | 14 => s.partResume part p b c.set q c.id
      | _ => s.partEvent part p b

/-- Whether a form must wait for its turn on its partition: a form is under way, or one that was accepted earlier still waits. -/
def State.formWaits (s : State) (c : Cmd) : Bool :=
  (match s.part? c.xb.toNat with | some p => p.form.isSome | none => false)
    || s.qccs.any fun k => k.2.cmds.any fun o => kOp o.word == 0x50 && o.xb == c.xb && !o.fence && o.st == .queued && decide (o.id < c.id)

/-! ### Retirement (R405, R406, R409) -/

/-- A unit of the retirement map by kind: 0 element, 1 quire, 2 folio, 3 channel. -/
def retUnit (kind unit : Nat) : RetUnit :=
  match kind with | 0 => .elem unit | 1 => .quire unit | 2 => .folio unit | _ => .chan unit

def RetUnit.pair : RetUnit → Nat × Nat
  | .elem p => (0, p)
  | .quire q => (1, q)
  | .folio f => (2, f)
  | .chan c => (3, c)

/-- Number of units of a kind. -/
def retCount (kind : Nat) : Nat := match kind with | 0 => 16384 | 1 => 1024 | 2 => 256 | 3 => 512 | _ => 0

/-- Whether a window of 2^22 cyc of a die has seen two uncorrectable errors of a unit. -/
def State.twoErrors (s : State) (die key : Nat) : Bool :=
  let l := (tabGet (s.dieAt die).uncSince key).getD []
  (List.range (l.length - 1)).any fun i =>
    match l[i]?, l[i + 1]? with
    | some a, some b => decide (cyclesFrom die b (a - b) < 2 ^ 22)
    | _, _ => false

/-- Whether R405 retires a unit now: by its errors, or by a self-test while bring-up is in step 2. -/
def State.retires (s : State) (kind unit : Nat) : Bool :=
  s.bringUp == 2 ||
    match kind with
    | 0 => s.twoErrors (unit / 1024) unit
    | 1 => s.twoErrors (unit / 64) (2 ^ 20 + unit)
    | 2 => decide (((List.range 4).filter fun i => s.retired.contains (.quire (4 * unit + i))).length ≥ 2)
    | _ => s.twoErrors (unit / 32) (2 ^ 21 + unit)

/-- The units that retire with one: a folio's quires, and a quire's elements. -/
def retAlso (kind unit : Nat) : List RetUnit :=
  match kind with
  | 1 => (List.range 16).map fun i => .elem (16 * unit + i)
  | 2 => (List.range 4).map (fun i => .quire (4 * unit + i)) ++ (List.range 64).map fun i => .elem (64 * unit + i)
  | _ => []

/-- Whether a context uses an element that is retired now. -/
def State.usesElem (s : State) (ctx : Nat) (c : Ctx) (p : Nat) : Bool :=
  (s.elem p).uses ctx || (match tabGet s.images c.image with
    | some im => decide (tabNum im.shares (s.logOf c.part p) > 0) && s.ownerOf (folioOf p) == some c.part
        && decide (s.lfOf c.part (folioOf p) < c.nfolio)
    | none => false)
    || ((s.timetable ctx).map fun t => t.entries.any fun e => e.plots.any fun pl => match s.physPlot c.part pl with
      | some n => n / 64 == p | none => false).getD false

/-- Whether a context uses a quire that is retired now. -/
def State.usesQuire (s : State) (ctx : Nat) (q : Nat) : Bool :=
  (s.qcc q).ctx == some ctx || (s.pressOf q).ctx == some ctx || (s.graftOf q).ctx == some ctx
    || (tabGet (s.ovf q).reserve ctx).isSome || (s.ovf q).entries.any (fun e => e.ctx == ctx)

/-- Every context that uses what retires is torn down with RETIRED. -/
def State.endUsers (s : State) (l : List RetUnit) : State :=
  (s.ctxs.filter fun c => l.any fun u => match u with
    | .elem p => s.usesElem c.1 c.2 p
    | .quire q => s.usesQuire c.1 q
    | .folio f => (s.riddleOf f).ctx == some c.1
    | .chan _ => false).foldl (fun s c => s.beginEnd c.1 5 0xE0 0 0) s

/-- The 128 bytes of a replace request. -/
def State.replaceBytes (s : State) (seq : Nat) : Bytes :=
  let n (k : Nat) : Nat := (s.retired.filter fun u => u.pair.1 == k).length
  bytesOf 4 2 ++ bytesOf 4 seq ++ devid ++ bytesOf 2 (n 0) ++ bytesOf 2 (n 1) ++ bytesOf 2 (n 2) ++ bytesOf 2 (n 3)
    ++ bytesOf 1 (s.parts.filter fun p => p.2.susp).length ++ bytesOf 31 0
    ++ (List.range 64).map (Config.retirementDigest (s.retired.map RetUnit.pair))

/-- A replace request is written: the next SEQ, signed with the identity key, and an event of KIND 18. -/
def State.replaceRequest (s : State) : State :=
  let n := s.replaceSeq + 1
  let b := s.replaceBytes n
  let r := BitVec.ofNat 256 (18 * 2 ^ 248 + n % 2 ^ 32 * 2 ^ 216 + 2 ^ 160)
  { s with replaceSeq := n, replaceBody := b ++ ecdsaSign Config.identityKey (Config.nonce s.tick) b }.event pfNum { record := r, plate := 0 }

/-- Maps and channel sets without what retires; a form that was changing a map ends with status 3 (R406, R410). -/
def State.dropRetired (s : State) (kind unit : Nat) : State :=
  let s1 := s.parts.foldl (fun s q =>
    match q.2.form with
    | some (2, _, _) => (s.modPart q.1 fun p => { p with fmap := p.moving.foldl cancelEntry p.fmap }).formDone q.1 3
    | _ => s) s
  { s1 with parts := s1.parts.map fun q => (q.1, match kind with
      | 2 => { q.2 with fmap := q.2.fmap.filter fun e => e.2.gfolio != unit }
      | 3 => { q.2 with channels := q.2.channels.filter (· != unit) }
      | _ => q.2) }

/-- `RETIREMENT` (R405 to R409): a unit retires; contexts that use it end, maps and channel sets lose it, guarantees are served, and
a replace request is written. -/
def execRetirement (kind unit : Nat) (s : State) : Res :=
  if unit ≥ retCount kind ∨ s.retired.contains (retUnit kind unit) ∨ !s.retires kind unit then idle s
  else
    let l := retUnit kind unit :: retAlso kind unit
    let s1 := s.endUsers l
    let s2 := { s1 with retired := s1.retired ++ l.filter fun u => !s1.retired.contains u }
    .next (((s2.dropRetired kind unit).guarantee).replaceRequest)

end Sys2Proof.Machine
end

