-- ==== Sys2Proof/Machine/Stream.lean ====
section
/-! DEFINITION. Streams between memory and engine ports (R295, R296). -/

namespace Sys2Proof.Machine

/-- A signed stride. -/
def stride (n : Nat) : Int := sext 32 n

/-- Fields of a pattern record (R295). -/
def patCount (p : BitVec 256) : Nat := bitF p.toNat 191 160 * bitF p.toNat 127 96 * bitF p.toNat 63 32
def patSize (p : BitVec 256) : Nat := 2 ^ bitF p.toNat 199 196

/-- The VA of access `k` of a pattern. -/
def patAddr (p : BitVec 256) (k : Nat) : Nat :=
  let n := p.toNat
  let c0 := bitF n 191 160
  let c1 := bitF n 127 96
  let a : Int := bitF n 255 200 + (k % c0 : Nat) * stride (bitF n 159 128) + (k / c0 % c1 : Nat) * stride (bitF n 95 64)
    + (k / c0 / c1 : Nat) * stride (bitF n 31 0)
  wrapTo 56 a

/-- The token that an input stream delivers: its payload is what the access read (R296, notes/assumptions/22.md). -/
def streamToken (ctx engine port tick size : Nat) (h : Handle) (v : Nat) : Token :=
  let tag := (Config.streamTag tick).toNat
  let fmts := if engine = 0 then pressFmts port else [.fp32]
  let f := (fmts[bitF tag 55 53 % fmts.length]?).getD .bits
  let lanes := 8 * size / fmtWidth f
  let c := if 8 * size % fmtWidth f = 0 ∧ 1 ≤ lanes ∧ lanes ≤ 32 then lanes else bitF tag 52 48 + 1
  { Token.blank ctx with
    kind := 1, node := BitVec.ofNat 8 (engine * 32 + port), nest := BitVec.ofNat 48 tag, fmt := f, wid := BitVec.ofNat 5 (c - 1),
    plate := h, pay := BitVec.ofNat 1024 v }

def State.setSlot (s : State) (q i : Nat) (g : GSlot) : State :=
  let k := s.qcc q
  s.setQcc q { k with g := tabPut k.g i g }

/-- A stream ends and its command completes; lane 1 is the elements moved. -/
def State.streamEnd (s : State) (q i : Nat) (g : GSlot) (st : Stream) (status : Nat) : State :=
  (s.setSlot q i { g with stream := none }).cmdDone q st.cmd status st.moved

/-- One access of a stream is over. -/
def State.streamOn (s : State) (q i : Nat) (g : GSlot) (st : Stream) : State :=
  let st1 := { st with next := st.next + 1, moved := st.moved + 1 }
  if st1.next ≥ patCount g.pattern then s.streamEnd q i g st1 0 else s.setSlot q i { g with stream := some st1 }

/-- The set of the command of a stream. -/
def Qcc.cmdSet (k : Qcc) (id : Nat) : Handle := match k.cmds.find? (fun c => c.id == id) with | some c => c.set | none => 0

/-- The next access of an input stream: its result goes to the port, poison in its place. -/
def State.streamIn (s : State) (q i ctx : Nat) (g : GSlot) (st : Stream) : Res :=
  let w : Who := { ctx := ctx, part := s.partOf ctx, quire := q, kind := 3, key := unitKey 5 q i, parks := true }
  let pos := engineHome st.engine (q * 16)
  let size := patSize g.pattern
  let set := (s.qcc q).cmdSet st.cmd
  let va := patAddr g.pattern st.next
  let deliver (s : State) (t : Token) : Res :=
    match s.inject pos 5 pos t with
    | some s1 => .next (s1.streamOn q i g st)
    | none => idle s
  if (s.buf pos 5 0).length ≥ 2 then idle s
  else match s.unitRead w false va size set with
    | .wait s1 => .next s1
    | .fail c s1 =>
      let t := streamToken ctx st.engine st.port s.tick size set 0
      deliver s1 { t with poison := true, pay := BitVec.ofNat 1024 (s.unitRec c ctx q 5 va).toNat }
    | .ok (v, h) s1 =>
      match s1.union set h with
      | .wait a b => .next { s with unions := (s.askUnion a b ctx w.part).unions }
      | .ovf a b =>
        let t := streamToken ctx st.engine st.port s.tick size set 0
        deliver (s1.plateOvf a b ctx w.part)
          { t with poison := true, pay := BitVec.ofNat 1024 (s.unitRec (s1.ovfCode a b) ctx q 5 0).toNat }
      | .ok g' => deliver s1 (streamToken ctx st.engine st.port s.tick size g' v)

/-- The next token of an output stream is written; poison is not, and a switch token ends the stream (R318). -/
def State.streamOut (s : State) (q i ctx : Nat) (g : GSlot) (st : Stream) : Res :=
  let w : Who := { ctx := ctx, part := s.partOf ctx, quire := q, kind := 3, key := unitKey 5 q i, parks := true }
  match (s.pressOf q).port18 with
  | [] => idle s
  | t :: rest =>
    let take (s : State) : State := s.modPress q fun p => { p with port18 := rest }
    if t.isSwitch then .next ((take s).streamEnd q i g st 0)
    else if t.poison then .next ((take s).streamOn q i g st)
    else
      let size := patSize g.pattern
      match s.union ((s.qcc q).cmdSet st.cmd) t.plate with
      | .wait a b => .next (s.askUnion a b ctx w.part)
      | .ovf a b => .next ((take (s.plateOvf a b ctx w.part)).streamEnd q i g st (s.ovfCode a b))
      | .ok h =>
        match s.unitWrite w false (patAddr g.pattern st.next) size (t.pay.toNat % 2 ^ (8 * size)) h with
        | .wait s1 => .next s1
        | .fail c s1 => .next ((take s1).streamEnd q i g st c)
        | .ok _ s1 => .next ((take s1).streamOn q i g st)

/-- `STREAM_ACCESS` (R296). -/
def execStreamAccess (quire slot : Nat) (s : State) : Res :=
  let k := s.qcc quire
  match tabGet k.g slot, k.ctx with
  | some g, some ctx =>
    (match g.stream with
    | none => idle s
    | some st =>
      if !s.engineMay quire ctx then idle s
      else if st.out then s.streamOut quire slot ctx g st else s.streamIn quire slot ctx g st)
  | _, _ => idle s

end Sys2Proof.Machine
end

