-- ==== Sys2Proof/Machine/CmdUnits.lean ====
section
/-! DEFINITION. Commands leave the command queue for their units, barriers, and completions (R89, R93, R293, R294, R299, R421). -/

namespace Sys2Proof.Machine

/-- The command of a number is with its unit. -/
def Cmd.run (id : Nat) (c : Cmd) : Cmd := if c.id = id then { c with st := .running } else c

def State.cmdRuns (s : State) (q id : Nat) : State :=
  let k := s.qcc q
  s.setQcc q { k with cmds := k.cmds.map (Cmd.run id) }

/-- A command leaves the list of its control core. -/
def State.cmdGone (s : State) (q id : Nat) : State :=
  let k := s.qcc q
  s.setQcc q { k with cmds := k.cmds.filter (·.id != id) }

/-! ### Streams, launches and marks (R296, R294, R109) -/

/-- The stream of a `strm.bind` at its start. -/
def streamOf (c : Cmd) : Stream where
  out := kCfn c.word / 16 % 2 == 1
  engine := bitF c.xb.toNat 10 8
  port := c.xb.toNat % 32
  next := 0
  moved := 0
  cmd := c.id

def State.bindStream (s : State) (q : Nat) (c : Cmd) : State :=
  let i := kCfn c.word % 16
  match tabGet (s.qcc q).g i with
  | some g => s.setSlot q i { g with stream := some (streamOf c) }
  | none => s

/-- The record of a `launch` command on its way to the Spine (R360). -/
def State.launchOf (s : State) (q ctx : Nat) (c : Cmd) : Launch where
  bytes := c.record
  part := s.partOf ctx
  parent := some ctx
  homevf := s.homeVf ctx
  prio := 0
  plate := c.set
  hyp := (s.qcc q).hyp
  elemAcc := none
  cmd := some (q, c.id)
  ctx := 0
  resume := false
  got := []
  image := none
  dies := none

/-- Whether a partition's launch channel has a place that no record on its way is to take. -/
def State.launchRoom (s : State) (part : Nat) : Bool :=
  decide ((s.toSpine.filter fun l => l.part == part).length < s.launchCredit (some part))

/-- The mark of a `mark` command. -/
def markOf (q ctx : Nat) (c : Cmd) : MarkMsg where
  ctx := ctx
  marker := kCfn c.word
  node := none
  cmd := some (q, c.id)
  counted := false
  out := []

/-! ### Engines (R326, R328, R340, R347, R351, R354) -/

def scanOf (c : Cmd) : Scan where
  desc := c.xb.toNat % 4
  rev := bitF (kCfn c.word) 4 4 == 1
  si := bitF (kCfn c.word) 3 3 == 1
  so := bitF (kCfn c.word) 2 2 == 1
  form := kCfn c.word % 4
  steps := fieldOf c.record 0 4
  svb := fieldOf c.record 4 2
  stream := fieldOf c.record 6 2
  siva := fieldOf c.record 8 8
  sova := fieldOf c.record 16 8
  taken := []
  uniform := false
  chunks := 0
  st := .steps
  status := 0
  cmd := c.id
  set := c.set

def wloadOf (c : Cmd) : WLoad where
  ava := fieldOf c.record 0 8
  dva := fieldOf c.record 8 8
  chb := fieldOf c.record 16 2
  nch := fieldOf c.record 18 2
  nw := fieldOf c.record 20 1 + 1
  next := 0
  got := []
  gotH := 0
  cmd := c.id
  set := c.set

/-- A `setx` in the go queue of its folio's Riddle. -/
def riddleGoOf (q ctx : Nat) (c : Cmd) : RiddleGo where
  desc := c.xb.toNat % 4
  tok := none
  cmd := some (q, c.id)
  ctx := ctx
  record := c.record
  set := c.set

/-- A `topk` or `topk.commit` in the step queue of its die's Pruner. -/
def stepOf (q ctx : Nat) (c : Cmd) : PStep where
  quire := q
  cmd := c.id
  ctx := ctx
  record := c.record
  commit := kCfn c.word == 2
  st := .queued
  list := []
  handle := c.set
  set := c.set

/-- The group that a `topk.group` record defines: (accelerator, die) of each member. -/
def groupOf (b : Bytes) : Group where
  members := (List.range (fieldOf b 1 1)).map fun i => (bitF (fieldOf b (8 + 4 * i) 4) 27 16, fieldOf b (8 + 4 * i) 4 % 16)
  stray := 0
  winners := []

/-- A `scan` command is taken, unless its unit has no room. -/
def State.takeScan (s : State) (q : Nat) (c : Cmd) : State :=
  let g := s.graftOf q
  if kCfn c.word / 512 = 1 then
    if g.wload.isSome then s else (s.cmdRuns q c.id).setGraft q { g with wload := some (wloadOf c) }
  else if g.freeSlot.isNone then s
  else (s.cmdRuns q c.id).graftStart q (scanOf c)

def State.takeSetx (s : State) (q ctx : Nat) (c : Cmd) : State :=
  let r := s.riddleOf (q / 4)
  if r.go.length ≥ 16 then s else (s.cmdRuns q c.id).setRiddle (q / 4) { r with go := r.go ++ [riddleGoOf q ctx c] }

def State.takeTopk (s : State) (q ctx : Nat) (c : Cmd) : State :=
  let d := q / 64
  let p := s.prunerOf d
  if kCfn c.word = 1 then
    (s.setPruner d { p with groups := tabPut p.groups (fieldOf c.record 0 1) (groupOf c.record) }).cmdDone q c.id 0 0
  else if p.steps.length ≥ 32 then s
  else (s.cmdRuns q c.id).setPruner d { p with steps := p.steps ++ [stepOf q ctx c] }

/-! ### Sweeps (R93) -/

/-- Whether a reserved bit of a sweep record is set. -/
def sweepBad (b : Bytes) : Bool := fieldOf b 0 16 != 0 || fieldOf b 24 2 != 0 || decide (fieldOf b 28 4 ≥ 4)

/-- A sweep starts, or writes STATUS 2 or 1; the write may have to wait for a union. -/
def State.takeSweep (s : State) (q ctx : Nat) (c : Cmd) : State :=
  if !sweepBad c.record ∧ s.sweep.isNone then (s.cmdRuns q c.id).sweepStart q c.id (bitF (fieldOf c.record 28 1) 1 1 == 1)
  else match s.sweepDone q c (if sweepBad c.record then 2 else 1) 0 0 with
    | some s1 => s1
    | none => match s.ctlBack q ctx c.xs.toNat 32 c.set [] with | .wait s1 => s1 | _ => s

/-! ### Barriers (R299, R421) -/

/-- The home of a barrier object as a number. -/
def barrHome : Place → Nat
  | .sram pa => 2 * pa
  | .hbm pa _ _ => 2 * pa + 1
  | _ => 0

/-- The VA of a barrier object. -/
def barrVa (c : Cmd) : Nat := c.gvahi.toNat * 2 ^ 32 + c.xb.toNat

/-- The read-modify-write of an arrival at its home: the object's set grows as by an atomic; TARGET 0 changes nothing. -/
def State.barrRmw (s : State) (q ctx : Nat) (c : Cmd) (p : Place) : State :=
  let part := s.partOf ctx
  let code := s.readCode p 16
  let s1 := s.meetErrs p 16 ctx
  let v := s1.readPlace p 16
  let count := (bitF v 63 32 + 1) % 2 ^ 32
  let gen := bitF v 95 64
  if code ≠ 0 then s1.cmdDone q c.id code 0
  else if v % 2 ^ 32 = 0 then (s1.spend p part).cmdDone q c.id 2 0
  else match s.grown p c.set with
    | .wait ha hb => s.askUnion ha hb ctx part
    | .ovf ha hb => (s.plateOvf ha hb ctx part).cmdDone q c.id (s.ovfCode ha hb) 0
    | .ok h =>
      let last : Bool := count == v % 2 ^ 32
      let v' := v % 2 ^ 32 + (if last then 0 else count) * 2 ^ 32 + (if last then gen + 1 else gen) % 2 ^ 32 * 2 ^ 64
        + bitF v 127 96 * 2 ^ 96
      let s2 := ((((s1.writePlace p 16 v').setPlace p h).spend p part).cmdRuns q c.id)
      { s2 with barrRegs := s2.barrRegs ++ [(barrHome p, gen, q, c.id, if last then 1 else 0)] }

/-- `barr` arrives: BARRLOC is decided after checks 1 to 3, and a fault is the status; it never parks. -/
def State.takeBarr (s : State) (q ctx : Nat) (c : Cmd) : State :=
  let va := barrVa c
  let w : Who := { ctx := ctx, part := s.partOf ctx, quire := q, kind := 3, key := unitKey 7 q c.id, parks := false }
  if s.barrRegs.length + s.barrDone.length ≥ 4096 then s
  else if va < 2 ^ 56 ∧ va % 16 = 0 ∧ 2 ^ 54 ≤ va then s.cmdDone q c.id 0x86 0
  else match s.unitPlace w false va 16 2 c.set with
    | .wait s1 => s1
    | .fail e s1 => s1.cmdDone q c.id e 0
    | .ok p s1 => s1.barrRmw q ctx c p

/-- A registration by its parts. -/
def regHome (r : Nat × Nat × Nat × Nat × Nat) : Nat := r.1
def regFlag (r : Nat × Nat × Nat × Nat × Nat) : Nat := r.2.2.2.2
def regOf (home gen : Nat) (r : Nat × Nat × Nat × Nat × Nat) : Bool := r.1 == home && r.2.1 == gen && regFlag r == 2

/-- A saved waiter of a generation that has passed: its completion is held (R393). -/
def regPassed (home gen : Nat) (r : Nat × Nat × Nat × Nat × Nat) : Nat × Nat × Nat × Nat × Nat :=
  if regOf home gen r then (r.1, (gen + 1) % 2 ^ 32, r.2.2.1, r.2.2.2.1, 3) else r

/-- A generation has passed: its waiters are to be sent their completions in arrival order; those of saved contexts are held. -/
def State.genPassed (s : State) (home gen : Nat) : State :=
  { s with
    barrDone := s.barrDone ++ (s.barrRegs.filter (regOf home gen)).map fun r => (r.2.2.1, r.2.2.2.1, (gen + 1) % 2 ^ 32)
    barrRegs := s.barrRegs.filter fun r => !regOf home gen r
    saves := s.saves.map fun v => { v with barrs := v.barrs.map (regPassed home gen) } }

/-- `BARRIER_REGISTRATION` (R299, R421): an arrival's registration reaches the barrier unit, in the order of the arrivals. -/
def execBarrierRegistration (idx : Nat) (s : State) : Res :=
  match s.barrRegs[idx]? with
  | none => idle s
  | some r =>
    if regFlag r ≥ 2 ∨ (s.barrRegs.take idx).any (fun o => regHome o == regHome r && decide (regFlag o < 2)) then idle s
    else
      let s1 := { s with barrRegs := listMod s.barrRegs idx fun r => (r.1, r.2.1, r.2.2.1, r.2.2.2.1, 2) }
      .next (if regFlag r = 1 then s1.genPassed r.1 r.2.1 else s1)

/-- `BARRIER_COMPLETION` (R299): the oldest completion of a waiter at its turn; lane 1 is the generation reached. -/
def execBarrierCompletion (idx : Nat) (s : State) : Res :=
  match s.barrDone[idx]? with
  | none => idle s
  | some (q, id, g) =>
    if idx ≠ 0 then idle s else .next ({ s with barrDone := listDrop s.barrDone idx }.cmdDone q id 0 g)

/-! ### Dispatch and completion (R293) -/

/-- The unit of a command takes it, or cannot take it yet. -/
def State.unitTakes (s : State) (q ctx : Nat) (c : Cmd) : State :=
  match kOp c.word with
  | 0x41 => (s.cmdRuns q c.id).bindStream q c
  | 0x43 =>
    if s.launchRoom (s.partOf ctx) then
      let s1 := s.cmdRuns q c.id
      { s1 with toSpine := s1.toSpine ++ [s.launchOf q ctx c] }
    else s
  | 0x44 => s.cmdRuns q c.id
  | 0x45 => (match (s.cmdRuns q c.id).switchStart q ctx c with | some s1 => s1 | none => s)
  | 0x46 => s.takeBarr q ctx c
  | 0x47 =>
    let s1 := s.cmdRuns q c.id
    { s1 with marks := s1.marks ++ [markOf q ctx c] }
  | 0x48 => ((s.ttLoad ctx).2).cmdDone q c.id (s.ttLoad ctx).1 0
  | 0x49 =>
    (match s.timetable ctx with
    | none => s.cmdDone q c.id 2 0
    | some t =>
      if t.arming.isSome then s else (s.cmdRuns q c.id).modTable ctx fun t => { t with arming := some (q, c.id) })
  | 0x4A => s.takeScan q c
  | 0x4B => s.takeSetx q ctx c
  | 0x4C => s.takeTopk q ctx c
  | 0x4D =>
    if kCfn c.word % 2 = 1 then s.revoke q c.id c.xb.toNat
    else
      let s1 := s.cmdRuns q c.id
      { s1 with submissions := s1.submissions ++ [{ bytes := c.record.drop 8, length := fieldOf c.record 0 4, cmd := (q, c.id) }] }
  | 0x4E => s.takeSweep q ctx c
  | 0x50 =>
    if s.formWaits c then s
    else (match (s.cmdRuns q c.id).partForm q c with
      | .done st s1 => s1.cmdDone q c.id st 0
      | .runs s1 => s1
      | .wait => s)
  | _ => s

/-- The commands before the first one that has not left the queue, and that one. -/
def cmdHead : List Cmd → List Cmd → Option (List Cmd × Cmd)
  | _, [] => none
  | l, c :: r => if c.st = .queued then some (l, c) else cmdHead (l ++ [c]) r

/-- `COMMAND_DISPATCH` (R293): the entry at the head of the queue goes to its unit; a `fence` leaves once every earlier command
has completed. -/
def execCommandDispatch (quire : Nat) (s : State) : Res :=
  match cmdHead [] (s.qcc quire).cmds, (s.qcc quire).ctx with
  | some (before, c), some ctx =>
    if !s.mayIssue ctx then idle s
    else if c.fence then
      (if before.all fun o => (match o.st with | .done _ _ => true | _ => false) then .next (s.cmdGone quire c.id) else idle s)
    else .next (s.unitTakes quire ctx c)
  | _, _ => idle s

/-- The graph node of a command learns its status (R297). -/
def State.nodeDone (s : State) (q : Nat) (c : Cmd) (status : Nat) : State :=
  match c.graph with
  | none => s
  | some n =>
    match tabGet (s.qcc q).graph n with
    | some x => s.setNode q n (some { x with result := some status })
    | none => s

/-- `COMMAND_NOTIFY` (R293): a completed command sends its message, with the set of its issuer or, for `barr`, 0 (R80), and is
gone. -/
def execCommandNotify (quire idx : Nat) (s : State) : Res :=
  match (s.qcc quire).cmds[idx]?, (s.qcc quire).ctx with
  | some c, some ctx =>
    (match c.st with
    | .done status lane1 =>
      let gone (s : State) : Res := .next ((s.cmdGone quire c.id).nodeDone quire c status)
      let v := c.xc.toNat
      if !s.alive ctx then idle s
      else if kNotifies (kOp c.word) && notifyOn v then
        match s.pushChan quire (v % 16) (notifyMsg ctx v status lane1 (if kOp c.word = 0x46 then 0 else c.set)) with
        | some s1 => gone s1
        | none => idle s
      else gone s
    | _ => idle s)
  | _, _ => idle s

end Sys2Proof.Machine
end

