-- ==== Sys2Proof/Machine/Convert.lean ====
section
/-! DEFINITION. The conversion and scale opcodes of the elements (R243 to R246). -/

namespace Sys2Proof.Machine

/-- `cvt` (R243): SFMT, DFMT, RM and SAT of its control word; lane `i` of B is the random word under `.rs`. -/
def execCvt (o : ElemOps) (s : State) : Res :=
  match s.fire with
  | none => idle s
  | some f =>
    let cw := f.cw o
    let src := fmtOf (bitF cw 31 29)
    let dst := fmtOf (bitF cw 28 26)
    let rm := rmodeOf (bitF cw 25 23)
    let sat := bitF cw 22 22 == 1
    let a := f.read (srcOf o.sa) (dataLit o true) src
    let b := f.read (if rm = .rs then srcOf o.sb else .none) (dataLit o true) .i32
    let n := colourOf [a, b]
    let sh := Shape.data dst n
    let pay := packLanes (fmtWidth dst) ((List.range n).map fun i => cvtLane src dst rm (b.lane i) sat (a.lane i))
    .next (s.runFire f o [a, b] .all sh sh (a.lane 0) 0 (stdCheck n [(a, [src]), (b, [.i32, .bits])])
      (.toks [(o.dx.toNat, sh, pay), (o.dy.toNat, sh, pay)]))

/-- One lane scaled by 2^e, or +0 when the shift is −128 (R244, R245). -/
def scaleLane (src dst : Fmt) (rm : RMode) (sat : Bool) (sh : Int) (div : Bool) (b : Nat) : Nat :=
  if sh = -128 then 0 else roundTo dst (vscale (decodeLane src b) (if div then -sh else sh)) rm 0 sat

/-- A scaling opcode: the shift is B[0][7:0], of any colour; A has one of the formats `fs` (R244, R245). -/
def State.scaleOp (s : State) (o : ElemOps) (fs : List Fmt) (dst : Nat → Fmt) (rm : Nat → RMode) (sat div : Nat → Bool) :
    Res :=
  match s.fire with
  | none => idle s
  | some f =>
    let cw := f.cw o
    let a := f.read (srcOf o.sa) (dataLit o true) (f.want fs [srcOf o.sa])
    let b := f.read (srcOf o.sb) (dataLit o true) .i32
    let n := colourOf [a, b]
    let sh := Shape.data (dst cw) n
    let e := sext 8 (b.lane 0)
    let pay := packLanes (fmtWidth (dst cw))
      ((List.range n).map fun i => scaleLane a.fmt (dst cw) (rm cw) (sat cw) e (div cw) (a.lane i))
    let ck := match stdCheck n [(a, fs)] with
      | some k => some k
      | none => if b.accepts [.i32, .bits] then none else some 0x70
    .next (s.runFire f o [a, b] .all sh sh (a.lane 0) 0 ck (.toks [(o.dx.toNat, sh, pay), (o.dy.toNat, sh, pay)]))

/-- `qexp` (R244). -/
def execQexp (o : ElemOps) (s : State) : Res :=
  s.scaleOp o [.q4, .q3] (fun cw => fmtOf (bitF cw 31 29)) (fun _ => .rne) (fun cw => bitF cw 28 28 == 1) fun _ => false

/-- `bscale` (R245). -/
def execBscale (o : ElemOps) (s : State) : Res :=
  s.scaleOp o [.fp32, .bf16] (fun cw => fmtOf (bitF cw 30 28)) (fun cw => rmodeOf (bitF cw 27 25))
    (fun cw => bitF cw 24 24 == 1) fun cw => bitF cw 31 31 == 1

/-- The greater of two values without sign. -/
def vabsMax (m : Val) (v : Val) : Val :=
  let a : Val := match v with | .num _ n d => .num false n d | .inf _ => .inf false | .nan => .nan
  if vlt m a then a else m

/-- The block shift of `bmax` (R246). -/
def blockShift (l : List Val) : Int :=
  if l.any (fun v => v.isNan || v.isInf) then 127
  else
    match l.foldl vabsMax (.num false 0 1) with
    | .num _ 0 _ => -128
    | .num _ n d => max (-127) (min 127 (floorLog2 n d))
    | _ => 127

/-- `bmax` (R246): FTZ is ignored. -/
def execBmax (o : ElemOps) (s : State) : Res :=
  s.lanewise o [.fp32, .bf16] false false false (fun _ => .i32) (fun _ _ => none) fun _ a l _ _ =>
    List.replicate l.length (wrapTo 32 (blockShift (l.map (decodeLane a.fmt))))

end Sys2Proof.Machine
end

