-- ==== Sys2Proof/Machine/Float.lean ====
section
/-! DEFINITION. The float opcodes of the elements, in their FP32 and BF16 forms (R239, R241, R242). -/

namespace Sys2Proof.Machine

/-- Exact difference. -/
def vsub (a b : Val) : Val := vadd a (vneg b)

/-- Lesser and greater with −0 < +0; with one NaN, the other operand (R241). -/
def vmin (a b : Val) : Val :=
  if a.isNan then b else if b.isNan then a
  else if vlt a b then a else if vlt b a then b else if a.neg then a else b
def vmax (a b : Val) : Val :=
  if a.isNan then b else if b.isNan then a
  else if vlt a b then b else if vlt b a then a else if a.neg then b else a

/-- Reciprocal (R241). -/
def vrcp (a : Val) : Val := vdiv (.num false 1 1) a

/-- A float opcode of two operands on format `fm`: read, compute exactly, round once (R241, R183, R184). -/
def State.float2 (s : State) (o : ElemOps) (fm : Fmt) (g : Val → Val → Val) : Res :=
  s.lanewise o [fm] true false false (fun _ => fm) (fun _ _ => none) fun f _ a b _ =>
    List.zipWith (fun x y => floatResult f.slot.ftz fm (g (readFloat f.slot.ftz fm x) (readFloat f.slot.ftz fm y))) a b

/-- A float opcode of one operand on format `fm`. -/
def State.float1 (s : State) (o : ElemOps) (fm : Fmt) (g : Val → Val) : Res :=
  s.lanewise o [fm] false false false (fun _ => fm) (fun _ _ => none) fun f _ a _ _ =>
    a.map fun x => floatResult f.slot.ftz fm (g (readFloat f.slot.ftz fm x))

/-- `ffma` on format `fm`: (±A × B) + (±C) with the signs NP and NC of its control word, rounded once (R241). -/
def State.fma (s : State) (o : ElemOps) (fm : Fmt) : Res :=
  s.lanewise o [fm] true true true (fun _ => fm) (fun _ _ => none) fun f _ a b c =>
    let np (v : Val) : Val := if bitF (f.cw o) 28 28 = 1 then vneg v else v
    let nc (v : Val) : Val := if bitF (f.cw o) 27 27 = 1 then vneg v else v
    let rd := readFloat f.slot.ftz fm
    List.zipWith (fun p z => floatResult f.slot.ftz fm (vadd (np p) (nc (rd z))))
      (List.zipWith (fun x y => vmul (rd x) (rd y)) a b) c

/-- `fabs` and `fneg`: the sign bit alone is cleared or flipped (R241). -/
def absBits (fm : Fmt) (b : Nat) : Nat := b % 2 ^ (fmtWidth fm - 1)
def negBits (fm : Fmt) (b : Nat) : Nat := b ^^^ 2 ^ (fmtWidth fm - 1)

/-! ### FP32 forms -/

def execFadd (o : ElemOps) (s : State) : Res := s.float2 o .fp32 vadd
def execFsub (o : ElemOps) (s : State) : Res := s.float2 o .fp32 vsub
def execFmul (o : ElemOps) (s : State) : Res := s.float2 o .fp32 vmul
def execFfma (o : ElemOps) (s : State) : Res := s.fma o .fp32
def execFmin (o : ElemOps) (s : State) : Res := s.float2 o .fp32 vmin
def execFmax (o : ElemOps) (s : State) : Res := s.float2 o .fp32 vmax
def execFabs (o : ElemOps) (s : State) : Res := s.lanewise1 o [.fp32] (fun _ => .fp32) (absBits .fp32)
def execFneg (o : ElemOps) (s : State) : Res := s.lanewise1 o [.fp32] (fun _ => .fp32) (negBits .fp32)
def execFdiv (o : ElemOps) (s : State) : Res := s.float2 o .fp32 vdiv
def execFsqrt (o : ElemOps) (s : State) : Res := s.float1 o .fp32 vsqrt
def execFrcp (o : ElemOps) (s : State) : Res := s.float1 o .fp32 vrcp
def execFrsq (o : ElemOps) (s : State) : Res := s.float1 o .fp32 vrsqrt
def execFexp2 (o : ElemOps) (s : State) : Res := s.float1 o .fp32 vexp2
def execFlog2 (o : ElemOps) (s : State) : Res := s.float1 o .fp32 vlog2
def execFtanh (o : ElemOps) (s : State) : Res := s.float1 o .fp32 vtanh
def execFsigm (o : ElemOps) (s : State) : Res := s.float1 o .fp32 vsigm
def execFspl (o : ElemOps) (s : State) : Res := s.float1 o .fp32 vspl
def execFclass (o : ElemOps) (s : State) : Res := s.lanewise1 o [.fp32] (fun _ => .i32) (fclassMask .fp32)
def execFcmpEq (o : ElemOps) (s : State) : Res := s.fcompare o .fp32 .eq
def execFcmpNe (o : ElemOps) (s : State) : Res := s.fcompare o .fp32 .ne
def execFcmpLt (o : ElemOps) (s : State) : Res := s.fcompare o .fp32 .lt
def execFcmpLe (o : ElemOps) (s : State) : Res := s.fcompare o .fp32 .le
def execFcmpGt (o : ElemOps) (s : State) : Res := s.fcompare o .fp32 .gt
def execFcmpGe (o : ElemOps) (s : State) : Res := s.fcompare o .fp32 .ge
def execFcmpUn (o : ElemOps) (s : State) : Res := s.fcompare o .fp32 .un
def execFcmpNum (o : ElemOps) (s : State) : Res := s.fcompare o .fp32 .num

/-! ### BF16 forms -/

def execFaddBf16 (o : ElemOps) (s : State) : Res := s.float2 o .bf16 vadd
def execFsubBf16 (o : ElemOps) (s : State) : Res := s.float2 o .bf16 vsub
def execFmulBf16 (o : ElemOps) (s : State) : Res := s.float2 o .bf16 vmul
def execFfmaBf16 (o : ElemOps) (s : State) : Res := s.fma o .bf16
def execFminBf16 (o : ElemOps) (s : State) : Res := s.float2 o .bf16 vmin
def execFmaxBf16 (o : ElemOps) (s : State) : Res := s.float2 o .bf16 vmax
def execFabsBf16 (o : ElemOps) (s : State) : Res := s.lanewise1 o [.bf16] (fun _ => .bf16) (absBits .bf16)
def execFnegBf16 (o : ElemOps) (s : State) : Res := s.lanewise1 o [.bf16] (fun _ => .bf16) (negBits .bf16)
def execFdivBf16 (o : ElemOps) (s : State) : Res := s.float2 o .bf16 vdiv
def execFsqrtBf16 (o : ElemOps) (s : State) : Res := s.float1 o .bf16 vsqrt
def execFrcpBf16 (o : ElemOps) (s : State) : Res := s.float1 o .bf16 vrcp
def execFrsqBf16 (o : ElemOps) (s : State) : Res := s.float1 o .bf16 vrsqrt
def execFexp2Bf16 (o : ElemOps) (s : State) : Res := s.float1 o .bf16 vexp2
def execFlog2Bf16 (o : ElemOps) (s : State) : Res := s.float1 o .bf16 vlog2
def execFtanhBf16 (o : ElemOps) (s : State) : Res := s.float1 o .bf16 vtanh
def execFsigmBf16 (o : ElemOps) (s : State) : Res := s.float1 o .bf16 vsigm
def execFsplBf16 (o : ElemOps) (s : State) : Res := s.float1 o .bf16 vspl
def execFclassBf16 (o : ElemOps) (s : State) : Res := s.lanewise1 o [.bf16] (fun _ => .i32) (fclassMask .bf16)
def execFcmpEqBf16 (o : ElemOps) (s : State) : Res := s.fcompare o .bf16 .eq
def execFcmpNeBf16 (o : ElemOps) (s : State) : Res := s.fcompare o .bf16 .ne
def execFcmpLtBf16 (o : ElemOps) (s : State) : Res := s.fcompare o .bf16 .lt
def execFcmpLeBf16 (o : ElemOps) (s : State) : Res := s.fcompare o .bf16 .le
def execFcmpGtBf16 (o : ElemOps) (s : State) : Res := s.fcompare o .bf16 .gt
def execFcmpGeBf16 (o : ElemOps) (s : State) : Res := s.fcompare o .bf16 .ge
def execFcmpUnBf16 (o : ElemOps) (s : State) : Res := s.fcompare o .bf16 .un
def execFcmpNumBf16 (o : ElemOps) (s : State) : Res := s.fcompare o .bf16 .num

end Sys2Proof.Machine
end

