-- ==== Sys2Proof/Machine/Host.lean ====
section
/-! DEFINITION. The host's accesses: apertures, queue controls, status words and registers (R411 to R417, R476, R477). -/

namespace Sys2Proof.Machine

/-! ### Apertures (R413, R414, R476, R477) -/

/-- The die that translates a partition's host accesses (R477): that of LF 0, or beside the stack of its lowest channel. -/
def State.hostDie (s : State) (part : Nat) : Option Nat :=
  match s.mapEntry part 0, s.part? part with
  | some e, _ => some (e.gfolio / 16)
  | none, some p => (p.channels.min?).map (· / 32)
  | none, none => none

/-- Who makes a host access: it never parks (R414). -/
def State.hostWho (s : State) (vf part sub : Nat) : Who where
  ctx := hostCtx vf
  part := part
  quire := (s.hostDie part).getD 0 * 64
  kind := 3
  key := unitKey 10 vf sub
  parks := false

/-- Bytes of the next piece of a request: the largest naturally aligned block within it (R476). -/
def HostReq.piece (r : HostReq) : Nat :=
  [2, 4, 8, 16, 32, 64].foldl (fun b n => if (r.off + r.done) % n = 0 ∧ r.done + n ≤ r.size then n else b) 1

/-- A piece has failed with a code: HWFAULT (bit 0) or CLASPREF (bit 1) is to count once, and the code is the latest (R414). -/
def HostReq.failed (r : HostReq) (code : Nat) : HostReq :=
  let hw := r.fail % 2
  let cl := r.fail / 2 % 2
  { r with fail := if code = 0x42 then hw + 2 + 4 * code else 1 + 2 * cl + 4 * code }

/-- Whether a translated piece finds no die to translate it (R477). -/
def State.noHostDie (s : State) (part va : Nat) : Bool :=
  (s.hostDie part).isNone && (match s.preCheck part false va 1 false with | .trans _ => true | _ => false)

/-- One piece of a read: read at its home, then past the Clasp (R94). -/
def State.hostRead (s : State) (w : Who) (vf va n : Nat) : Sync Nat :=
  if s.noHostDie w.part va then .fail 0x13 s
  else (s.unitRead w false va n 0).bind fun x s =>
    match s.clasp x.2 (destVf vf) n with
    | (true, s) => .ok x.1 s
    | (false, s) => .fail 0x42 s

/-- One piece of a write, with the ingress handle of its function (R84). -/
def State.hostWrite (s : State) (w : Who) (vf va n v : Nat) : Sync Unit :=
  if s.noHostDie w.part va then .fail 0x13 s else s.unitWrite w false va n v (s.ingress (destVf vf))

/-- The next piece of a request. -/
def State.hostPiece (s : State) (w : Who) (base : Nat) (r : HostReq) : Sync Bytes :=
  let va := base + r.off + r.done
  let n := r.piece
  if r.write then (s.hostWrite w r.vf va n (fieldOf r.data r.done n)).bind fun _ s => .ok [] s
  else (s.hostRead w r.vf va n).bind fun v s => .ok (bytesOf n v) s

/-- The pieces of a request in order, until one must wait. -/
def State.hostPieces (w : Who) (base : Nat) : Nat → HostReq → State → HostReq × State
  | 0, r, s => (r, s)
  | fuel + 1, r, s =>
    if r.done ≥ r.size then (r, s)
    else
      let n := r.piece
      match s.hostPiece w base r with
      | .wait s1 => (r, s1)
      | .fail c s1 => s1.hostPieces w base fuel { r.failed c with done := r.done + n, got := r.got ++ List.replicate n 0xFF }
      | .ok b s1 => s1.hostPieces w base fuel { r with done := r.done + n, got := r.got ++ b }

/-- The completion of a host read. -/
def State.hostAnswer (s : State) (tag : Nat) (data : Bytes) (poisoned : Bool) : State :=
  { s with pcie := s.pcie ++ [.completion tag data poisoned] }

/-- A request has ended: its counts, and for a read its completion (R414, R476). -/
def State.hostEnd (s : State) (r : HostReq) : State :=
  let s1 := if r.fail % 2 = 1 then s.vfCount r.vf 47 40 (r.fail / 4) else s
  let s2 := if r.fail / 2 % 2 = 1 then s1.vfCount r.vf 63 48 (r.fail / 4) else s1
  if r.write then s2
  else s2.hostAnswer r.tag (if r.fail = 0 then r.got else List.replicate r.size 0xFF) (r.fail != 0)

/-- Whether two requests are one. -/
def HostReq.same (a b : HostReq) : Bool :=
  a.vf == b.vf && a.write == b.write && a.off == b.off && a.size == b.size && a.tag == b.tag && a.data == b.data

/-- A request goes on from where it stands; nothing passes a write of its function that is under way. -/
def State.hostRequest (s : State) (part : Nat) (r : HostReq) : Res :=
  let now := (s.hostReqs.find? r.same).getD r
  let rest := s.hostReqs.filter fun o => !r.same o
  if rest.any fun o => o.vf == r.vf && o.write then idle s
  else
    let w := s.hostWho r.vf part (if r.write then 2 ^ 27 else r.tag % 2 ^ 27)
    let x := s.hostPieces w (s.vf r.vf).apbase (r.size + 1) now
    if x.1.done ≥ r.size then .next ({ x.2 with hostReqs := rest }.hostEnd x.1)
    else .next { x.2 with hostReqs := rest ++ [x.1] }

/-- Whether an access lies in a virtual function's aperture. -/
def inAperture (vf off size : Nat) : Bool := decide (vf < 384) && decide (0 < size) && decide (off + size ≤ 2 ^ 36)

/-- `HOST_APERTURE_READ` (R413, R476). -/
def execHostApertureRead (vf off size tag : Nat) (s : State) : Res :=
  if !inAperture vf off size then idle s
  else match (s.vf vf).part with
    | none => .next (s.hostAnswer tag (List.replicate size 0xFF) false)
    | some p =>
      s.hostRequest p { vf := vf, write := false, off := off, size := size, tag := tag, data := [], done := 0, got := [], fail := 0 }

/-- `HOST_APERTURE_WRITE` (R413, R476); an unbound function discards it. -/
def execHostApertureWrite (vf off : Nat) (data : Bytes) (s : State) : Res :=
  if !inAperture vf off data.length then idle s
  else match (s.vf vf).part with
    | none => idle s
    | some p =>
      s.hostRequest p { vf := vf, write := true, off := off, size := data.length, tag := 0, data := data, done := 0, got := [], fail := 0 }

/-! ### Queue controls (R415, R417) -/

/-- Whether a number names a function. -/
def vfKnown (vf : Nat) : Bool := decide (vf < 384) || vf == pfNum

/-- The queue control of a number: 0 to 254 a delivery queue, 255 the event queue. -/
def Vf.control (v : Vf) (queue : Nat) : QueueCtl := if queue = 255 then v.event else v.queue queue

def Vf.setControl (v : Vf) (queue : Nat) (c : QueueCtl) : Vf :=
  if queue = 255 then { v with event := c } else { v with queues := tabPut v.queues queue c }

/-- `CIDX_WRITE` (R415): entries below the new CIDX are free. -/
def execCidxWrite (vf queue : Nat) (value : Word) (s : State) : Res :=
  if !vfKnown vf ∨ queue > 255 then idle s
  else .next (s.setVf vf ((s.vf vf).setControl queue { (s.vf vf).control queue with cidx := value }))

/-- Bytes 0x00 to 0x10 of a control, as written last. -/
def QueueCtl.fields (c : QueueCtl) : Bytes := bytesOf 8 c.base ++ bytesOf 8 c.pidxa ++ bytesOf 1 c.log2n

/-- Bytes written over a byte string from an offset on; what falls outside is dropped. -/
def overlay (old : Bytes) (off : Nat) (data : Bytes) : Bytes :=
  (List.range old.length).map fun i => if off ≤ i ∧ i < off + data.length then (data[i - off]?).getD 0 else (old[i]?).getD 0

/-- A control with bytes written to BASE, PIDXA and LOG2N from an offset on. -/
def QueueCtl.put (c : QueueCtl) (off : Nat) (data : Bytes) : QueueCtl :=
  let b := overlay c.fields off data
  { c with base := fieldOf b 0 8, pidxa := fieldOf b 8 8, log2n := fieldOf b 16 1 }

/-- Whether a control may be enabled with a flags byte (R415, R417). -/
def QueueCtl.enableOk (c : QueueCtl) (event : Bool) (flags : Nat) : Bool :=
  c.base % 4096 == 0 && c.pidxa % 8 == 0 && decide (4 ≤ c.log2n) && decide (c.log2n ≤ if event then 12 else 16)
    && flags / 4 == 0

/-- `QUEUE_ENABLE_WRITE` (R415, R417): a write that covers EN, either the control from offset 0 on or the flags byte alone. EN = 1
resets the indices; a bad control leaves EN 0 and counts in BADCFG; a queue at or above NDQ ignores it. -/
def execQueueEnableWrite (vf queue : Nat) (data : Bytes) (s : State) : Res :=
  if !vfKnown vf ∨ queue > 255 then idle s
  else
    let v := s.vf vf
    let whole := decide (data.length ≥ 18)
    let c := if whole then (v.control queue).put 0 (data.take 17) else v.control queue
    let flags := if whole then fieldOf data 17 1 else fieldOf data 0 1
    if data = [] ∨ (flags % 2 = 1 ∧ queue < 255 ∧ queue ≥ v.ndq) then idle s
    else if flags % 2 = 0 then .next (s.setVf vf (v.setControl queue { c with en := false, irq := flags / 2 % 2 == 1 }))
    else if !c.enableOk (queue == 255) flags then
      .next ((s.setVf vf (v.setControl queue { c with en := false, irq := flags / 2 % 2 == 1 })).vfCount vf 7 0 0)
    else .next (s.setVf vf (v.setControl queue { c with en := true, irq := flags / 2 == 1, cidx := 0, seq := 0 }))

/-! ### Status and other registers (R412 to R414) -/

/-- The fields of the VF status word: high and low bit. -/
def statusFields : List (Nat × Nat) := [(63, 48), (47, 40), (39, 32), (31, 24), (23, 16), (15, 8), (7, 0)]

/-- The status word after a host write: a field written with zero is cleared (R414). -/
def statusWritten (old v : Nat) : Nat :=
  statusFields.foldl (fun n f => n + (if bitF v f.1 f.2 = 0 then 0 else bitF old f.1 f.2 * 2 ^ f.2)) 0

/-- `VF_STATUS_WRITE` (R414). -/
def execVfStatusWrite (vf : Nat) (value : BitVec 64) (s : State) : Res :=
  if !vfKnown vf then idle s
  else .next (s.setVf vf { s.vf vf with status := BitVec.ofNat 64 (statusWritten (s.vf vf).status.toNat value.toNat) })

/-- The mailbox with bytes written from an offset on (R412). -/
def mailboxPut (m : Bytes) (off : Nat) (data : Bytes) : Bytes := overlay (m.take 1024 ++ List.replicate (1024 - m.length) 0) off data

/-- `REGISTER_WRITE` (R412, R413, R415): BASE, PIDXA and LOG2N of a queue control, bytes of the status word, APBASE, the
mailbox; every other offset ignores writes. What enables the debug port is not given (notes/assumptions/35.md): a write of the physical function may. -/
def execRegisterWrite (vf off : Nat) (data : Bytes) (s : State) : Res :=
  if !vfKnown vf then idle s
  else
    let v := s.vf vf
    if 0x2000 ≤ off ∧ off < 0x2000 + 32 * 255 then
      let q := (off - 0x2000) / 32
      .next (s.setVf vf (v.setControl q ((v.control q).put (off % 32) data)))
    else if 0x4000 ≤ off ∧ off < 0x4020 then .next (s.setVf vf (v.setControl 255 (v.event.put (off - 0x4000) data)))
    else if 0x1000 ≤ off ∧ off < 0x1008 then
      let w := fieldOf (overlay (bytesOf 8 v.status.toNat) (off - 0x1000) data) 0 8
      .next (s.setVf vf { v with status := BitVec.ofNat 64 (statusWritten v.status.toNat w) })
    else if vf ≠ pfNum ∧ 0x4080 ≤ off ∧ off < 0x4088 then
      let b := fieldOf (overlay (bytesOf 8 v.apbase) (off - 0x4080) data) 0 8
      if b % 2 ^ 36 = 0 then .next (s.setVf vf { v with apbase := b }) else idle s
    else if 0x4100 ≤ off ∧ off < 0x4500 then .next (s.setVf vf { v with mailbox := mailboxPut v.mailbox (off - 0x4100) data })
    else if vf = pfNum then .next { s with debugOn := Config.debugEnabled s.tick }
    else idle s

end Sys2Proof.Machine
end

