-- ==== Sys2Proof/Machine/Lane.lean ====
section
/-! DEFINITION. The lane opcodes of the elements (R247). -/

namespace Sys2Proof.Machine

/-- A lane opcode of operand A alone, on the formats `fs`. -/
def State.laneOp (s : State) (o : ElemOps) (fs : List Fmt) (rfmt : Opnd → Fmt) (g : Fire → List Nat → List Nat) : Res :=
  s.lanewise o fs false false false rfmt (fun _ _ => none) fun f _ a _ _ => g f a

/-- A lane opcode of operands A and B, whose lanes B reads as unsigned integers of its own width. -/
def State.laneOp2 (s : State) (o : ElemOps) (g : List Nat → List Nat → List Nat) : Res :=
  s.lanewise o allFmts true false false fmtLikeA (fun _ _ => none) fun _ _ a b _ => g a b

def execLaneid (o : ElemOps) (s : State) : Res := s.laneOp o allFmts fmtI32 fun _ a => List.range a.length
def execBcast (o : ElemOps) (s : State) : Res := s.laneOp o allFmts fmtLikeA fun _ a => a.map fun _ => (a[0]?).getD 0
def execShuf (o : ElemOps) (s : State) : Res := s.laneOp2 o fun a b => b.map fun i => (a[i]?).getD 0
def execLrot (o : ElemOps) (s : State) : Res :=
  s.laneOp2 o fun a b =>
    (List.range a.length).map fun i => (a[(i + (b[0]?).getD 0 % a.length) % a.length]?).getD 0

/-- The value a fold makes of every lane, in every lane. -/
def foldAll (g : Nat → Nat → Nat) (a : List Nat) : List Nat :=
  match a with
  | [] => []
  | x :: r => List.replicate a.length (r.foldl g x)

/-- The prefixes of a list: `i`-th the first `i + 1` elements. -/
def prefixes (a : List Nat) : List (List Nat) := (List.range a.length).map fun i => a.take (i + 1)

def execRedaddI32 (o : ElemOps) (s : State) : Res :=
  s.laneOp o [.i32] fmtI32 fun _ a => List.replicate a.length (a.sum % 2 ^ 32)
def execRedmaxI32 (o : ElemOps) (s : State) : Res := s.laneOp o [.i32] fmtI32 fun _ a => foldAll smax32 a
def execRedminI32 (o : ElemOps) (s : State) : Res := s.laneOp o [.i32] fmtI32 fun _ a => foldAll smin32 a
def execLscanI32 (o : ElemOps) (s : State) : Res :=
  s.laneOp o [.i32] fmtI32 fun _ a => (prefixes a).map fun p => p.sum % 2 ^ 32

/-- The exact sum of FP32 lanes rounded once (R247); FTZ applies. -/
def fsum32 (ftz : Bool) (a : List Nat) : Nat := floatResult ftz .fp32 (ieeeSum (a.map (readFloat ftz .fp32)))

/-- `fmax` or `fmin` of two FP32 lanes (R241). -/
def fpick32 (ftz : Bool) (g : Val → Val → Val) (a b : Nat) : Nat :=
  floatResult ftz .fp32 (g (readFloat ftz .fp32 a) (readFloat ftz .fp32 b))

/-- The fold of `fmax` or `fmin` over the lanes; a single lane is what the fold of one lane reads. -/
def ffold32 (ftz : Bool) (g : Val → Val → Val) (a : List Nat) : List Nat :=
  foldAll (fpick32 ftz g) (a.map fun x => fpick32 ftz g x x)

def execRedaddF32 (o : ElemOps) (s : State) : Res :=
  s.laneOp o [.fp32] (fun _ => .fp32) fun f a => List.replicate a.length (fsum32 f.slot.ftz a)
def execRedmaxF32 (o : ElemOps) (s : State) : Res :=
  s.laneOp o [.fp32] (fun _ => .fp32) fun f a => ffold32 f.slot.ftz vmax a
def execRedminF32 (o : ElemOps) (s : State) : Res :=
  s.laneOp o [.fp32] (fun _ => .fp32) fun f a => ffold32 f.slot.ftz vmin a
def execLscanF32 (o : ElemOps) (s : State) : Res :=
  s.laneOp o [.fp32] (fun _ => .fp32) fun f a => (prefixes a).map (fsum32 f.slot.ftz)

end Sys2Proof.Machine
end

