-- ==== Sys2Proof/Machine/Link.lean ====
section
/-! DEFINITION. Host-window completions, the Thenoina link, peers and the debug port (R26, R84, R94, R417 to R421). -/

namespace Sys2Proof.Machine

/-! ### Requests outside the package (R54, R418, R420) -/

/-- What came back for a request; a request that has an answer, or none, takes no other. -/
def State.answer (s : State) (tag code v : Nat) : State :=
  { s with outside := s.outside.map fun o => if o.tag = tag ∧ o.resp.isNone then { o with resp := some (code, v) } else o }

/-- Whether a request with a tag waits for the host. -/
def State.waitsHost (s : State) (tag : Nat) : Bool := s.outside.any fun o => o.tag == tag && o.accel.isNone && o.resp.isNone

/-- `HOST_WINDOW_COMPLETION` (R418): status 0 with the data, or any other, poison included, as HOSTERR. -/
def execHostWindowCompletion (tag status : Nat) (data : Bytes) (s : State) : Res :=
  if !s.waitsHost tag then idle s
  else if status = 0 ∧ s.outside.all (fun o => o.tag != tag || data.length == o.size) then .next (s.answer tag 0 (numOf data))
  else .next (s.answer tag 0xF1 0)

/-- `HOST_COMPLETION_TIMEOUT` (R418). -/
def execHostCompletionTimeout (tag : Nat) (s : State) : Res := if s.waitsHost tag then .next (s.answer tag 0xF1 0) else idle s

/-- The die that issued a request. -/
def State.outDie (s : State) (o : Outside) : Nat :=
  match o.who with
  | .lane acc _ _ => (match s.acc? acc with | some a => dieOf a.pos | none => 0)
  | .unit k =>
    let unit := k / 2 ^ 28 % 2 ^ 12
    match k / 2 ^ 40 with
    | 0 => k / 64
    | 2 => unit / 16
    | 3 | 4 | 9 => unit
    | 10 => (match (s.vf unit).part with | some p => (s.hostDie p).getD 0 | none => 0)
    | _ => unit / 64

/-- `PEER_TIMEOUT` (R420): no response within 2^22 cyc of the issuing die, or a link that is down: PEERDOWN. -/
def execPeerTimeout (tag : Nat) (s : State) : Res :=
  match s.outside.find? (fun o => o.tag == tag && o.accel.isSome && o.resp.isNone) with
  | none => idle s
  | some o =>
    if s.cyclesSince (s.outDie o) o.since ≥ 2 ^ 22 ∨ (s.port 0).lanes = 0 then .next (s.answer tag 0xF2 0) else idle s

/-! ### Requests of a peer (R26, R84, R94) -/

/-- A cached leaf that maps an HBM address: where it stands and whether it maps 2 MiB. -/
def State.leafOver (s : State) (pa : Nat) : Nat × Bool :=
  let on (c : Cached) : Bool :=
    bitF c.entry.toNat 61 60 == 0 &&
      (if c.big then ptAddr c.entry.toNat 2 0 / 2 ^ 21 == pa / 2 ^ 21 else ptAddr c.entry.toNat 3 0 / 65536 == pa / 65536)
  match (s.cached.flatMap (·.2)).find? on with
  | some c => (c.pte, c.big)
  | none => (0, false)

/-- The place that a peer's address names. -/
def State.peerPlace (s : State) (pa : Nat) : Place := .hbm pa (s.leafOver pa).1 (s.leafOver pa).2

/-- The code that refuses a peer's request before it is performed; 0 for none. -/
def State.peerCheck (s : State) (pa size : Nat) : Nat :=
  if pa ≥ 2 ^ 40 then 0x10
  else if !([1, 2, 4, 8, 16, 32, 64, 128].contains size) ∨ pa % size ≠ 0 then 0x11
  else if s.chanGone (.hbm pa 0 false) then 0xE1
  else 0

/-- What a peer's request comes to: status, data and state; none while it must wait. -/
def State.peerPerform (s : State) (accel kind aop pa size : Nat) (data : Bytes) : Option (Nat × Nat) × State :=
  let p := s.peerPlace pa
  let code := s.peerCheck pa size
  let ones := 2 ^ (8 * size) - 1
  let h := s.ingress (destPeer accel)
  let out (s : State) (set : Handle) (n v : Nat) : Option (Nat × Nat) × State :=
    match s.clasp set (destPeer accel) n with
    | (true, s1) => (some (0, v), s1)
    | (false, s1) => (some (0x42, ones), s1)
  let write (s : State) (n v : Nat) (done : State → Option (Nat × Nat) × State) : Option (Nat × Nat) × State :=
    match s.grown p h with
    | .wait a b => (none, s.askUnion a b noCtx 32)
    | .ovf a b => (some (s.ovfCode a b, ones), s.plateOvf a b noCtx 32)
    | .ok g => done ((s.writePlace p n v).setPlace p g)
  if code ≠ 0 then (some (code, ones), s)
  else if !s.stackAwake pa then (none, s)
  else if kind = 1 then
    let s1 := s.meetErrs p size noCtx
    if s.readCode p size ≠ 0 then (some (s.readCode p size, ones), s1) else out s1 (s1.placeHandle p) size (s1.readPlace p size)
  else if kind = 3 then
    if s.writeCode p size ≠ 0 then (some (s.writeCode p size, 0), s) else write s size (fieldOf data 0 size) fun s => (some (0, 0), s)
  else
    let s1 := s.meetErrs p 4 noCtx
    if s.readCode p 4 ≠ 0 then (some (s.readCode p 4, ones), s1)
    else
      let old := s1.readPlace p 4
      write s1 4 (atomNew aop old (fieldOf data 0 4) (fieldOf data 4 4)) fun t => out t (s1.placeHandle p) 4 old

/-- A peer's request is performed and its response leaves: kinds 2, 4 and 6 (R419). -/
def State.peerRequest (s : State) (accel kind aop tag pa size : Nat) (data : Bytes) : Option State × State :=
  match s.peerPerform accel kind aop pa size data with
  | (none, s1) => (none, s1)
  | (some (code, v), s1) =>
    let n := if kind = 1 then size else if kind = 5 then 4 else 0
    (some (s1.sendFlit { dest := accel, kind := kind + 1, src := s1.accel, vc := 1, tag := tag, addr := pa, size := size, aop := aop,
                         status := code, data := bytesOf n v }), s1)

/-- `PEER_REQUEST_ARRIVAL` (R94): `kind` is the flit kind (1 read, 3 write, 5 atomic) plus 16 times the AOP. -/
def execPeerRequestArrival (accel kind : Nat) (va : BitVec 64) (size : Nat) (data : Bytes) (s : State) : Res :=
  if accel ≥ 4096 ∨ !([1, 3, 5].contains (kind % 16)) ∨ kind / 16 > 10 ∨ (s.port 0).lanes = 0 then idle s
  else match s.peerRequest accel (kind % 16) (kind / 16) 0 va.toNat size data with
    | (some s1, _) => .next s1
    | (none, s1) => .next s1

/-! ### Flits (R419, R420) -/

/-- Whether a flit's kind, VC and reserved bits are those of the table. -/
def flitOk (b : Bytes) : Bool := decide (fieldOf b 0 2 / 4096 < 8) && decide (fieldOf b 2 2 / 4096 < 3)

/-- What a sound flit does; none while its request must wait. -/
def State.takeFlit (s : State) (m : FlitMsg) : Option State × State :=
  match m.kind with
  | 1 | 3 | 5 => s.peerRequest m.src m.kind m.aop m.tag m.addr m.size m.data
  | 2 | 4 | 6 =>
    let mine (o : Outside) : Bool := o.tag == m.tag && o.accel == some m.src
    let size := match s.outside.find? mine with | some o => o.size | none => 0
    (some (if s.outside.any mine then s.answer m.tag m.status (fieldOf m.data 0 size) else s), s)
  | 7 => (some (s.prunerFlit m.src m.data), s)
  | _ => (some s, s)

/-- `FLIT_RECEIVE` (R419, R420): a flit with a wrong CRC or LSEQ is left for the sender to send again; one with a bad header is
discarded and counted. -/
def execFlitReceive (port : Nat) (data : Bytes) (s : State) : Res :=
  let p := s.port port
  if port ≠ 0 ∨ data.length ≠ 256 ∨ p.lanes = 0 then idle s
  else if fieldOf data 248 8 ≠ (crc64 (data.take 248)).toNat ∨ fieldOf data 4 2 ≠ p.rxSeq.toNat then idle s
  else
    let next (s : State) : State := s.setPort port { s.port port with rxSeq := p.rxSeq + 1 }
    if !flitOk data then .next (next { s with linkErrs := tabPut s.linkErrs port (tabNum s.linkErrs port + 1) })
    else match s.takeFlit (flitMsg data) with
      | (some s1, _) => .next (next s1)
      | (none, s1) => .next s1

/-- A port's lanes change: the flits of its replay buffer are sent again, and the PF is told (R417, R420). -/
def State.retrain (s : State) (port lanes : Nat) : State :=
  let p := s.port port
  let s1 := s.setPort port { p with lanes := lanes }
  let s2 := if lanes = 0 then s1 else { s1 with linkOut := s1.linkOut ++ p.replay.map fun b => (port, b) }
  s2.event pfNum { record := BitVec.ofNat 256 (19 * 2 ^ 248 + port * 2 ^ 240 + lanes * 2 ^ 232 + 2 ^ 160), plate := 0 }

/-- `LINK_LANE_LOSS` (R420): the port goes on with 32, 16 or no lanes. -/
def execLinkLaneLoss (port lanes : Nat) (s : State) : Res :=
  if port = 0 ∧ [0, 16, 32].contains lanes ∧ lanes < (s.port port).lanes then .next (s.retrain port lanes) else idle s

/-- `LINK_LANES_UP` (R420): the port comes up, or trains to more lanes. -/
def execLinkLanesUp (port lanes : Nat) (s : State) : Res :=
  if port = 0 ∧ [16, 32, 64].contains lanes ∧ (s.port port).lanes < lanes then .next (s.retrain port lanes) else idle s

/-- The 520 bytes of the domain configuration (R421). -/
def State.domainBytes (s : State) : Bytes :=
  bytesOf 2 s.accel ++ bytesOf 6 0 ++ (List.range 512).map fun i =>
    BitVec.ofNat 8 (((List.range 8).filter fun j => s.presence.contains (8 * i + j)).foldl (fun n j => n + 2 ^ j) 0)

/-- `DOMAIN_CONFIG_WRITE` (R421). -/
def execDomainConfigWrite (off : Nat) (data : Bytes) (s : State) : Res :=
  let b := overlay s.domainBytes off data
  .next { s with accel := fieldOf b 0 2
                 presence := (List.range 4096).filter fun n => (fieldOf b (8 + n / 8) 1).testBit (n % 8) }

/-! ### The debug port (R94) -/

/-- `DEBUG_READ` (R94): a read through the Clasp for the debug destination; nothing while the port is disabled. -/
def execDebugRead (part : Nat) (va : BitVec 64) (size : Nat) (s : State) : Res :=
  if !s.debugOn ∨ !([1, 2, 4, 8, 16, 32, 64].contains size) ∨ (s.part? part).isNone then idle s
  else
    let w : Who := { s.hostWho pfNum part 0 with key := unitKey 10 0xFFF (va.toNat % 2 ^ 28) }
    let out (s : State) (b : Bytes) (bad : Bool) : Res := .next { s with debugOut := s.debugOut ++ [(b, bad)] }
    let ones := List.replicate size 0xFF
    if s.noHostDie part va.toNat then out s ones true
    else match s.unitRead w false va.toNat size 0 with
      | .wait s1 => .next s1
      | .fail _ s1 => out s1 ones true
      | .ok (v, h) s1 =>
        match s1.clasp h destDebug size with
        | (true, s2) => out s2 (bytesOf size v) false
        | (false, s2) => out s2 ones true

end Sys2Proof.Machine
end

