-- ==== Sys2Proof/Machine/Power.lean ====
section
/-! DEFINITION. Power states, tolerances and the power limit (R429 to R432). -/

namespace Sys2Proof.Machine

/-! ### Idle units (R429) -/

/-- Whether an element holds no token, pair or access. -/
def Elem.idle (e : Elem) : Bool :=
  e.aside.isEmpty && e.fifo.isEmpty && e.out.isEmpty && e.rob.isEmpty && e.mstore.isEmpty && e.fetching.isEmpty && e.exh.isEmpty
    && e.backingOps.all (fun q => q.2.isEmpty)

/-- Whether a quire's control core, Press and Graft hold no task, message, command or operation. -/
def State.quireIdle (s : State) (q : Nat) : Bool :=
  let k := s.qcc q
  let p := s.pressOf q
  let g := s.graftOf q
  k.task.isNone && k.chans.all (fun c => c.2.isEmpty) && k.cmds.isEmpty && k.outq.isEmpty
    && p.go.isEmpty && p.drains.isEmpty && p.tiles.isEmpty && p.scales.isEmpty && p.port18.isEmpty
    && g.scans.isEmpty && g.wload.isNone && g.steps.isEmpty && g.shared.isEmpty && g.yout.isEmpty
    && (s.ovf q).entries.isEmpty && (s.ovf q).spilling.isEmpty

/-- Whether an entry that is still to be performed has a plot in a folio. -/
def State.targeted (s : State) (f : Nat) : Bool :=
  s.barrow.any fun b => b.2.tables.any fun t => (List.range t.entries.length).any fun i =>
    match t.entries[i]?, t.entrySt i with
    | some _, .done => false
    | some _, .failed _ => false
    | some e, _ => e.plots.any fun p => match s.physPlot (s.partOf t.ctx) p with | some n => n / 4096 == f | none => false
    | none, _ => false

/-- Whether a folio is idle. -/
def State.folioIdle (s : State) (f : Nat) : Bool :=
  s.elems.all (fun e => folioOf e.1 != f || e.2.idle) && s.bufs.all (fun b => folioOf (b.1 / 24) != f || b.2.isEmpty)
    && s.accs.all (fun a => folioOf a.2.pos != f) && s.banks.all (fun b => b.1 / 256 != f || (b.2.queue.isEmpty && b.2.zeroing.isNone))
    && (List.range 4).all (fun i => s.quireIdle (4 * f + i)) && (s.riddleOf f).go.isEmpty && (s.riddleOf f).runs.isEmpty
    && !s.targeted f

/-- Whether a die is idle: its folios, the requests to its stack, and the walks of its translation unit. -/
def State.dieIdle (s : State) (d : Nat) : Bool :=
  (List.range 16).all (fun i => s.folioIdle (16 * d + i)) && s.chans.all (fun c => c.1 / 32 != d || c.2.slots.isEmpty)
    && s.misses.all (fun m => m.die != d)

/-- Whether a partition has a folio on a die or a channel of its stack. -/
def Partn.onDie (p : Partn) (d : Nat) : Bool := p.fmap.any (fun e => e.2.gfolio / 16 == d) || p.channels.any fun c => c / 32 == d

/-- Whether every partition that a test picks has at least a tolerance. -/
def State.tolerant (s : State) (ns : Nat) (pick : Partn → Bool) : Bool := s.parts.all fun p => !pick p.2 || decide (tabNum s.pmtol p.1 ≥ ns)

/-- The state that an idle folio takes: the deepest allowed one. -/
def State.folioLevel (s : State) (f : Nat) : PowerSt :=
  match s.ownerOf f with
  | none => .f2
  | some p => if tabNum s.pmtol p ≥ 3000 then .f2 else if tabNum s.pmtol p ≥ 52 then .f1 else .f0

def State.dieMay (s : State) (d : Nat) : Bool := s.dieIdle d && s.tolerant 40000 (·.onDie d)

def State.packageMay (s : State) : Bool :=
  (List.range 16).all (fun d => s.powerOf (256 + d) == .d2) && s.l1 && s.outside.isEmpty && s.hostReqs.isEmpty
    && s.tolerant 2000000 fun _ => true

/-- The states by number. -/
def powerLevel (n : Nat) : PowerSt := match n with | 1 => .f1 | 2 => .f2 | 3 => .d2 | 4 => .k3 | _ => .f0

/-- `POWER_STATE_ENTRY` (R429): `kind` 0 a folio, 1 a die, 2 the package. How long a unit has been idle is not counted
(notes/assumptions/36.md). -/
def execPowerStateEntry (kind unit level : Nat) (s : State) : Res :=
  let enter (k : Nat) (p : PowerSt) : Res := .next { s with power := tabPut s.power k p }
  match kind with
  | 0 =>
    if unit < 256 ∧ s.powerOf unit = .f0 ∧ s.folioIdle unit ∧ s.folioLevel unit = powerLevel level ∧ s.folioLevel unit ≠ .f0 then
      enter unit (powerLevel level)
    else idle s
  | 1 => if unit < 16 ∧ level = 3 ∧ s.powerOf (256 + unit) = .f0 ∧ s.dieMay unit then enter (256 + unit) .d2 else idle s
  | 2 => if unit = 0 ∧ level = 4 ∧ s.powerOf 512 = .f0 ∧ s.packageMay then enter 512 .k3 else idle s
  | _ => idle s

/-- `UNIT_WAKE` (R429): a unit is in F0 again, and what stood at its boundary goes on. -/
def execUnitWake (kind unit : Nat) (s : State) : Res :=
  let k := match kind with | 0 => unit | 1 => 256 + unit | _ => 512
  if (kind = 0 ∧ unit < 256) ∨ (kind = 1 ∧ unit < 16) ∨ (kind = 2 ∧ unit = 0) then
    if s.powerOf k = .f0 then idle s else .next { s with power := tabDel s.power k }
  else idle s

/-- `PCIE_LINK_L1` (R429). -/
def execPcieLinkL1 (entered : Bool) (s : State) : Res := .next { s with l1 := entered }

/-! ### Tolerance and limit (R430, R432) -/

/-- `PMTOL_WRITE` (R430). -/
def execPmtolWrite (part : Nat) (value : Word) (s : State) : Res :=
  if part > 31 then idle s else .next { s with pmtol := tabPut s.pmtol part value.toNat }

/-- `PWRLIM_WRITE` (R432): 500 to 3,400 W. -/
def execPwrlimWrite (value : Word) (s : State) : Res := .next { s with pwrlim := max 500 (min 3400 value.toNat) }

/-- `POWER_WINDOW_END` (R432): the issue rate, in sixteenths, falls above the limit and rises when the window lies more than 5%
below it. -/
def execPowerWindowEnd (watts : Nat) (s : State) : Res :=
  if watts > s.pwrlim then .next { s with issueRate := max 1 (s.issueRate - 1) }
  else if 100 * watts < 95 * s.pwrlim then .next { s with issueRate := min 16 (s.issueRate + 1) }
  else idle s

end Sys2Proof.Machine
end

