-- ==== Sys2Proof/Machine/Reset.lean ====
section
/-! DEFINITION. Identity and attestation, resets and bring-up (R424 to R428). -/

namespace Sys2Proof.Machine

/-! ### The mailbox (R424 to R426) -/

/-- The entries of the assigned plates that PLATEDIG covers: plate, EVF, key. -/
def State.plateEntries (s : State) : Bytes :=
  s.plates.flatMap fun p => bytesOf 2 p.1 ++ bytesOf 2 p.2.evf ++ p.2.key

/-- The 320 bytes of a report. -/
def State.reportBody (s : State) (vf : Nat) (nonce : Bytes) : Bytes :=
  bytesOf 4 3 ++ bytesOf 4 320 ++ devid ++ bytesOf 4 s.fwver ++ bytesOf 2 s.accel ++ bytesOf 2 0 ++ nonce ++ sha512 s.firmware
    ++ sha512 s.plateEntries ++ (List.range 64).map (Config.retirementDigest (s.retired.map RetUnit.pair))
    ++ bytesOf 1 (if vf = pfNum then 0xFF else match (s.vf vf).part with | some p => p | none => 0xFF) ++ bytesOf 31 0

/-- Whether a number names a function. -/
def mailboxOf (vf : Nat) : Bool := decide (vf < 384) || vf == pfNum

/-- `MAILBOX_REPORT` (R426): the report over a nonce of 64 bytes and its signature stand in the mailbox. -/
def execMailboxReport (vf : Nat) (nonce : Bytes) (s : State) : Res :=
  if !mailboxOf vf ∨ nonce.length ≠ 64 then idle s
  else
    let b := s.reportBody vf nonce
    .next (s.setVf vf { s.vf vf with mailbox := b ++ ecdsaSign Config.identityKey (Config.nonce s.tick) b })

/-- `MAILBOX_CERT` (R424): the certificate chain, whose bytes the spec does not give. -/
def execMailboxCert (vf : Nat) (s : State) : Res :=
  if !mailboxOf vf then idle s
  else .next (s.setVf vf { s.vf vf with mailbox := (List.range 1024).map (Config.securityByte 1) })

/-- `MAILBOX_LIST` (R426). -/
def execMailboxList (vf : Nat) (s : State) : Res :=
  if !mailboxOf vf then idle s else .next (s.setVf vf { s.vf vf with mailbox := s.plateEntries })

/-- `FIRMWARE_BUNDLE_WRITE` (R425): a sound bundle, not below the rollback counter, takes effect at the next cold reset. -/
def execFirmwareBundleWrite (version : Word) (bundle sig : Bytes) (s : State) : Res :=
  if Config.bundleSound version bundle sig && decide (s.rollback ≤ version.toNat) then
    .next { s with nextFirmware := some (version.toNat, bundle) }
  else idle s

/-! ### Resets (R427, R428) -/

/-- The machine at the start of a reset: nothing but the retirement map, the rollback counter, the firmware and what has left
the device stays; every die's counter starts again (R405, R423). -/
def State.cleared (s : State) (n : Nat) : State :=
  { State.reset with
    agenda := s.agenda
    tick := s.tick
    nextId := s.nextId
    dies := (List.range 16).map fun d => (d, { Die.fresh with epoch := s.tick })
    pcie := s.pcie
    linkOut := s.linkOut
    debugOut := s.debugOut
    retired := s.retired
    replaceSeq := s.replaceSeq
    replaceBody := s.replaceBody
    fwver := s.fwver
    rollback := s.rollback
    firmware := s.firmware
    nextFirmware := s.nextFirmware
    parts := []
    vfs := []
    status := []
    bringUp := n }

/-- Step 1: the firmware is verified; on failure the device stays there and says so at the debug port. -/
def State.bringUp1 (s : State) : State :=
  let fw := s.nextFirmware.getD (s.fwver, s.firmware)
  if Config.firmwareVerifies s.tick && decide (s.rollback ≤ fw.1) then
    { s with fwver := fw.1, firmware := fw.2, nextFirmware := none, bringUp := 2 }
  else { s with debugOut := s.debugOut ++ [([], true)] }

/-- Step 3: every store is zero and the domain configuration as at reset. -/
def State.bringUp3 (s : State) : State :=
  { s with sram := [], hbm := [], ctl := [], plots := [], pageMap := [], ctlRegion := [], errs := [], overflow := [], accel := 0,
           presence := [], bringUp := 4 }

/-- The lowest number below a bound that is not retired. -/
def lowestUsable (n : Nat) (bad : Nat → Bool) : Option Nat := (List.range n).find? fun i => !bad i

/-- Partition 0 as bring-up makes it. -/
def State.partZero (s : State) : Partn :=
  { Partn.zero with
    fmap := match lowestUsable 256 fun f => s.retired.contains (.folio f) with
      | some f => [(0, { st := .mapped, ro := false, gfolio := f, target := none })]
      | none => []
    channels := (lowestUsable 512 fun c => s.retired.contains (.chan c)).toList }

/-- Steps 4 and 5: partition 0 is made, and the PCI Express link comes up. Events that wait for the host stay. -/
def State.bringUp4 (s : State) : State :=
  ({ s with parts := [(0, s.partZero)], vfs := [(pfNum, { Vf.physical with events := (s.vf pfNum).events })], pmtol := [],
            bringUp := 5 }).writeStatus 0

/-- The step of bring-up that comes next. -/
def State.bringOn (s : State) : State :=
  match s.bringUp with
  | 1 => s.bringUp1
  | 2 => { s with bringUp := 3 }
  | 3 => s.bringUp3
  | _ => s.bringUp4

/-- `COLD_RESET` (R427, R428): the reset, and then each step of bring-up in turn. -/
def execColdReset (s : State) : Res := .next (if s.bringUp ≥ 5 then s.cleared 1 else s.bringOn)

/-- `WARM_RESET` (R427, R428): bring-up from step 3; the link keeps its ports. -/
def execWarmReset (s : State) : Res :=
  if s.bringUp ≥ 5 then .next { s.cleared 3 with ports := s.ports, linkErrs := s.linkErrs }
  else if s.bringUp ≥ 3 then .next s.bringOn
  else idle s

/-- Contexts whose home is a function. -/
def State.homeOf (s : State) (vf : Nat) : List (Nat × Ctx) := s.ctxs.filter fun c => c.2.homevf == vf

/-- Queues and status of a function as at reset; its binding and what waits for its event queue stay. -/
def Vf.flr (v : Vf) : Vf := { v with status := 0, queues := [], event := QueueCtl.reset }

/-- `VF_FLR` (R427): contexts of the function end with FLRESET, its queues and status are cleared; once the last context is gone
a KIND 20 record says how many there were. -/
def execVfFlr (vf : Nat) (s : State) : Res :=
  if vf ≥ 384 then idle s
  else match tabGet s.flr vf with
    | some n =>
      if !(s.homeOf vf).isEmpty then idle s
      else .next ({ s with flr := tabDel s.flr vf }.event vf
        { record := BitVec.ofNat 256 (20 * 2 ^ 248 + n % 2 ^ 32 * 2 ^ 216 + 2 ^ 160), plate := 0 })
    | none =>
      let l := (s.homeOf vf).filter fun c => c.2.tear == .alive
      let s1 := l.foldl (fun s c => s.beginEnd c.1 5 0xE3 0 0) s
      .next { s1.setVf vf (s1.vf vf).flr with flr := tabPut s.flr vf l.length, hostReqs := s.hostReqs.filter fun r => r.vf != vf }

/-- `CONFIGURATION_REQUEST` (R428): before step 5 the answer is Request Retry Status; after it, the PCI Express core's. -/
def execConfigurationRequest (tag : Nat) (s : State) : Res :=
  if s.bringUp < 5 then .next { s with pcie := s.pcie ++ [.retry tag] } else idle s

end Sys2Proof.Machine
end

