-- ==== Sys2Proof/Machine/Dispatch.lean ====
section
/-! DEFINITION. The meaning of every row of spec/opcode_table.json: one arm per constructor. -/

namespace Sys2Proof.Machine

/-- What an instruction or event does to the machine. -/
def exec (i : Instr) (s : State) : Host.Outcome State Fault Refusal :=
  match i with
  | .steer ops => Sys2Proof.Machine.execSteer ops s
  | .merge ops => Sys2Proof.Machine.execMerge ops s
  | .cmerge ops => Sys2Proof.Machine.execCmerge ops s
  | .copy ops => Sys2Proof.Machine.execCopy ops s
  | .sink ops => Sys2Proof.Machine.execSink ops s
  | .gate ops => Sys2Proof.Machine.execGate ops s
  | .pass ops => Sys2Proof.Machine.execPass ops s
  | .reorder ops => Sys2Proof.Machine.execReorder ops s
  | .alloc ops => Sys2Proof.Machine.execAlloc ops s
  | .parkedAllocFire pos idx => Sys2Proof.Machine.execParkedAllocFire pos idx s
  | .free ops => Sys2Proof.Machine.execFree ops s
  | .freeNotice pos port => Sys2Proof.Machine.execFreeNotice pos port s
  | .pack ops => Sys2Proof.Machine.execPack ops s
  | .unpack ops => Sys2Proof.Machine.execUnpack ops s
  | .tagidx ops => Sys2Proof.Machine.execTagidx ops s
  | .chktag ops => Sys2Proof.Machine.execChktag ops s
  | .const ops => Sys2Proof.Machine.execConst ops s
  | .join ops => Sys2Proof.Machine.execJoin ops s
  | .cfgsw ops => Sys2Proof.Machine.execCfgsw ops s
  | .pand ops => Sys2Proof.Machine.execPand ops s
  | .por ops => Sys2Proof.Machine.execPor ops s
  | .pnot ops => Sys2Proof.Machine.execPnot ops s
  | .pxor ops => Sys2Proof.Machine.execPxor ops s
  | .mulhZ ops => Sys2Proof.Machine.execMulhZ ops s
  | .divZ ops => Sys2Proof.Machine.execDivZ ops s
  | .remZ ops => Sys2Proof.Machine.execRemZ ops s
  | .minZ ops => Sys2Proof.Machine.execMinZ ops s
  | .maxZ ops => Sys2Proof.Machine.execMaxZ ops s
  | .add ops => Sys2Proof.Machine.execAdd ops s
  | .sub ops => Sys2Proof.Machine.execSub ops s
  | .mul ops => Sys2Proof.Machine.execMul ops s
  | .mulh ops => Sys2Proof.Machine.execMulh ops s
  | .mad ops => Sys2Proof.Machine.execMad ops s
  | .div ops => Sys2Proof.Machine.execDiv ops s
  | .rem ops => Sys2Proof.Machine.execRem ops s
  | .min ops => Sys2Proof.Machine.execMin ops s
  | .max ops => Sys2Proof.Machine.execMax ops s
  | .abs ops => Sys2Proof.Machine.execAbs ops s
  | .neg ops => Sys2Proof.Machine.execNeg ops s
  | .and ops => Sys2Proof.Machine.execAnd ops s
  | .or ops => Sys2Proof.Machine.execOr ops s
  | .xor ops => Sys2Proof.Machine.execXor ops s
  | .not ops => Sys2Proof.Machine.execNot ops s
  | .andn ops => Sys2Proof.Machine.execAndn ops s
  | .shl ops => Sys2Proof.Machine.execShl ops s
  | .shr ops => Sys2Proof.Machine.execShr ops s
  | .sar ops => Sys2Proof.Machine.execSar ops s
  | .rol ops => Sys2Proof.Machine.execRol ops s
  | .clz ops => Sys2Proof.Machine.execClz ops s
  | .popc ops => Sys2Proof.Machine.execPopc ops s
  | .brev ops => Sys2Proof.Machine.execBrev ops s
  | .sel ops => Sys2Proof.Machine.execSel ops s
  | .cmpEq ops => Sys2Proof.Machine.execCmpEq ops s
  | .cmpNe ops => Sys2Proof.Machine.execCmpNe ops s
  | .cmpLt ops => Sys2Proof.Machine.execCmpLt ops s
  | .cmpGe ops => Sys2Proof.Machine.execCmpGe ops s
  | .cmpLtu ops => Sys2Proof.Machine.execCmpLtu ops s
  | .cmpGeu ops => Sys2Proof.Machine.execCmpGeu ops s
  | .cmpLe ops => Sys2Proof.Machine.execCmpLe ops s
  | .cmpGt ops => Sys2Proof.Machine.execCmpGt ops s
  | .fadd ops => Sys2Proof.Machine.execFadd ops s
  | .fsub ops => Sys2Proof.Machine.execFsub ops s
  | .fmul ops => Sys2Proof.Machine.execFmul ops s
  | .ffma ops => Sys2Proof.Machine.execFfma ops s
  | .fmin ops => Sys2Proof.Machine.execFmin ops s
  | .fmax ops => Sys2Proof.Machine.execFmax ops s
  | .fabs ops => Sys2Proof.Machine.execFabs ops s
  | .fneg ops => Sys2Proof.Machine.execFneg ops s
  | .fdiv ops => Sys2Proof.Machine.execFdiv ops s
  | .fsqrt ops => Sys2Proof.Machine.execFsqrt ops s
  | .frcp ops => Sys2Proof.Machine.execFrcp ops s
  | .frsq ops => Sys2Proof.Machine.execFrsq ops s
  | .fexp2 ops => Sys2Proof.Machine.execFexp2 ops s
  | .flog2 ops => Sys2Proof.Machine.execFlog2 ops s
  | .ftanh ops => Sys2Proof.Machine.execFtanh ops s
  | .fsigm ops => Sys2Proof.Machine.execFsigm ops s
  | .fspl ops => Sys2Proof.Machine.execFspl ops s
  | .fclass ops => Sys2Proof.Machine.execFclass ops s
  | .fcmpEq ops => Sys2Proof.Machine.execFcmpEq ops s
  | .fcmpNe ops => Sys2Proof.Machine.execFcmpNe ops s
  | .fcmpLt ops => Sys2Proof.Machine.execFcmpLt ops s
  | .fcmpLe ops => Sys2Proof.Machine.execFcmpLe ops s
  | .fcmpGt ops => Sys2Proof.Machine.execFcmpGt ops s
  | .fcmpGe ops => Sys2Proof.Machine.execFcmpGe ops s
  | .fcmpUn ops => Sys2Proof.Machine.execFcmpUn ops s
  | .fcmpNum ops => Sys2Proof.Machine.execFcmpNum ops s
  | .faddBf16 ops => Sys2Proof.Machine.execFaddBf16 ops s
  | .fsubBf16 ops => Sys2Proof.Machine.execFsubBf16 ops s
  | .fmulBf16 ops => Sys2Proof.Machine.execFmulBf16 ops s
  | .ffmaBf16 ops => Sys2Proof.Machine.execFfmaBf16 ops s
  | .fminBf16 ops => Sys2Proof.Machine.execFminBf16 ops s
  | .fmaxBf16 ops => Sys2Proof.Machine.execFmaxBf16 ops s
  | .fabsBf16 ops => Sys2Proof.Machine.execFabsBf16 ops s
  | .fnegBf16 ops => Sys2Proof.Machine.execFnegBf16 ops s
  | .fdivBf16 ops => Sys2Proof.Machine.execFdivBf16 ops s
  | .fsqrtBf16 ops => Sys2Proof.Machine.execFsqrtBf16 ops s
  | .frcpBf16 ops => Sys2Proof.Machine.execFrcpBf16 ops s
  | .frsqBf16 ops => Sys2Proof.Machine.execFrsqBf16 ops s
  | .fexp2Bf16 ops => Sys2Proof.Machine.execFexp2Bf16 ops s
  | .flog2Bf16 ops => Sys2Proof.Machine.execFlog2Bf16 ops s
  | .ftanhBf16 ops => Sys2Proof.Machine.execFtanhBf16 ops s
  | .fsigmBf16 ops => Sys2Proof.Machine.execFsigmBf16 ops s
  | .fsplBf16 ops => Sys2Proof.Machine.execFsplBf16 ops s
  | .fclassBf16 ops => Sys2Proof.Machine.execFclassBf16 ops s
  | .fcmpEqBf16 ops => Sys2Proof.Machine.execFcmpEqBf16 ops s
  | .fcmpNeBf16 ops => Sys2Proof.Machine.execFcmpNeBf16 ops s
  | .fcmpLtBf16 ops => Sys2Proof.Machine.execFcmpLtBf16 ops s
  | .fcmpLeBf16 ops => Sys2Proof.Machine.execFcmpLeBf16 ops s
  | .fcmpGtBf16 ops => Sys2Proof.Machine.execFcmpGtBf16 ops s
  | .fcmpGeBf16 ops => Sys2Proof.Machine.execFcmpGeBf16 ops s
  | .fcmpUnBf16 ops => Sys2Proof.Machine.execFcmpUnBf16 ops s
  | .fcmpNumBf16 ops => Sys2Proof.Machine.execFcmpNumBf16 ops s
  | .cvt ops => Sys2Proof.Machine.execCvt ops s
  | .qexp ops => Sys2Proof.Machine.execQexp ops s
  | .bscale ops => Sys2Proof.Machine.execBscale ops s
  | .bmax ops => Sys2Proof.Machine.execBmax ops s
  | .laneid ops => Sys2Proof.Machine.execLaneid ops s
  | .bcast ops => Sys2Proof.Machine.execBcast ops s
  | .shuf ops => Sys2Proof.Machine.execShuf ops s
  | .lrot ops => Sys2Proof.Machine.execLrot ops s
  | .redaddI32 ops => Sys2Proof.Machine.execRedaddI32 ops s
  | .redmaxI32 ops => Sys2Proof.Machine.execRedmaxI32 ops s
  | .redminI32 ops => Sys2Proof.Machine.execRedminI32 ops s
  | .lscanI32 ops => Sys2Proof.Machine.execLscanI32 ops s
  | .redaddF32 ops => Sys2Proof.Machine.execRedaddF32 ops s
  | .redmaxF32 ops => Sys2Proof.Machine.execRedmaxF32 ops s
  | .redminF32 ops => Sys2Proof.Machine.execRedminF32 ops s
  | .lscanF32 ops => Sys2Proof.Machine.execLscanF32 ops s
  | .ld ops => Sys2Proof.Machine.execLd ops s
  | .st ops => Sys2Proof.Machine.execSt ops s
  | .ldg ops => Sys2Proof.Machine.execLdg ops s
  | .sts ops => Sys2Proof.Machine.execSts ops s
  | .wadd ops => Sys2Proof.Machine.execWadd ops s
  | .wrd ops => Sys2Proof.Machine.execWrd ops s
  | .wclr ops => Sys2Proof.Machine.execWclr ops s
  | .zero ops => Sys2Proof.Machine.execZero ops s
  | .ldOrd ops => Sys2Proof.Machine.execLdOrd ops s
  | .stOrd ops => Sys2Proof.Machine.execStOrd ops s
  | .ldgOrd ops => Sys2Proof.Machine.execLdgOrd ops s
  | .stsOrd ops => Sys2Proof.Machine.execStsOrd ops s
  | .waddOrd ops => Sys2Proof.Machine.execWaddOrd ops s
  | .wrdOrd ops => Sys2Proof.Machine.execWrdOrd ops s
  | .wclrOrd ops => Sys2Proof.Machine.execWclrOrd ops s
  | .zeroOrd ops => Sys2Proof.Machine.execZeroOrd ops s
  | .hld ops => Sys2Proof.Machine.execHld ops s
  | .hst ops => Sys2Proof.Machine.execHst ops s
  | .atom ops => Sys2Proof.Machine.execAtom ops s
  | .hldOrd ops => Sys2Proof.Machine.execHldOrd ops s
  | .hstOrd ops => Sys2Proof.Machine.execHstOrd ops s
  | .atomOrd ops => Sys2Proof.Machine.execAtomOrd ops s
  | .fenceScE ops => Sys2Proof.Machine.execFenceScE ops s
  | .fenceScQ ops => Sys2Proof.Machine.execFenceScQ ops s
  | .fenceScF ops => Sys2Proof.Machine.execFenceScF ops s
  | .fenceScD ops => Sys2Proof.Machine.execFenceScD ops s
  | .fenceScK ops => Sys2Proof.Machine.execFenceScK ops s
  | .fenceScX ops => Sys2Proof.Machine.execFenceScX ops s
  | .ordjoin ops => Sys2Proof.Machine.execOrdjoin ops s
  | .mark ops => Sys2Proof.Machine.execMark ops s
  | .trap ops => Sys2Proof.Machine.execTrap ops s
  | .poison ops => Sys2Proof.Machine.execPoison ops s
  | .probe ops => Sys2Proof.Machine.execProbe ops s
  | .yield ops => Sys2Proof.Machine.execYield ops s
  | .exit ops => Sys2Proof.Machine.execExit ops s
  | .send ops => Sys2Proof.Machine.execSend ops s
  | .sendAcceptance idx => Sys2Proof.Machine.execSendAcceptance idx s
  | .launch ops => Sys2Proof.Machine.execLaunch ops s
  | .launchResponse idx => Sys2Proof.Machine.execLaunchResponse idx s
  | .aluAdd rd ra rb => Sys2Proof.Machine.execAluAdd rd ra rb s
  | .aluSub rd ra rb => Sys2Proof.Machine.execAluSub rd ra rb s
  | .aluAnd rd ra rb => Sys2Proof.Machine.execAluAnd rd ra rb s
  | .aluOr rd ra rb => Sys2Proof.Machine.execAluOr rd ra rb s
  | .aluXor rd ra rb => Sys2Proof.Machine.execAluXor rd ra rb s
  | .aluSll rd ra rb => Sys2Proof.Machine.execAluSll rd ra rb s
  | .aluSrl rd ra rb => Sys2Proof.Machine.execAluSrl rd ra rb s
  | .aluSra rd ra rb => Sys2Proof.Machine.execAluSra rd ra rb s
  | .aluSlt rd ra rb => Sys2Proof.Machine.execAluSlt rd ra rb s
  | .aluSltu rd ra rb => Sys2Proof.Machine.execAluSltu rd ra rb s
  | .aluMul rd ra rb => Sys2Proof.Machine.execAluMul rd ra rb s
  | .aluMulh rd ra rb => Sys2Proof.Machine.execAluMulh rd ra rb s
  | .aluMulhu rd ra rb => Sys2Proof.Machine.execAluMulhu rd ra rb s
  | .aluDiv rd ra rb => Sys2Proof.Machine.execAluDiv rd ra rb s
  | .aluDivu rd ra rb => Sys2Proof.Machine.execAluDivu rd ra rb s
  | .aluRem rd ra rb => Sys2Proof.Machine.execAluRem rd ra rb s
  | .aluRemu rd ra rb => Sys2Proof.Machine.execAluRemu rd ra rb s
  | .aluMin rd ra rb => Sys2Proof.Machine.execAluMin rd ra rb s
  | .aluMax rd ra rb => Sys2Proof.Machine.execAluMax rd ra rb s
  | .aluMinu rd ra rb => Sys2Proof.Machine.execAluMinu rd ra rb s
  | .aluMaxu rd ra rb => Sys2Proof.Machine.execAluMaxu rd ra rb s
  | .addi rd ra imm => Sys2Proof.Machine.execAddi rd ra imm s
  | .andi rd ra imm => Sys2Proof.Machine.execAndi rd ra imm s
  | .ori rd ra imm => Sys2Proof.Machine.execOri rd ra imm s
  | .xori rd ra imm => Sys2Proof.Machine.execXori rd ra imm s
  | .slli rd ra sh => Sys2Proof.Machine.execSlli rd ra sh s
  | .srli rd ra sh => Sys2Proof.Machine.execSrli rd ra sh s
  | .srai rd ra sh => Sys2Proof.Machine.execSrai rd ra sh s
  | .slti rd ra imm => Sys2Proof.Machine.execSlti rd ra imm s
  | .sltiu rd ra imm => Sys2Proof.Machine.execSltiu rd ra imm s
  | .lui rd imm => Sys2Proof.Machine.execLui rd imm s
  | .lb rd ra imm => Sys2Proof.Machine.execLb rd ra imm s
  | .lbu rd ra imm => Sys2Proof.Machine.execLbu rd ra imm s
  | .lh rd ra imm => Sys2Proof.Machine.execLh rd ra imm s
  | .lhu rd ra imm => Sys2Proof.Machine.execLhu rd ra imm s
  | .lw rd ra imm => Sys2Proof.Machine.execLw rd ra imm s
  | .sb ra rb off => Sys2Proof.Machine.execSb ra rb off s
  | .sh ra rb off => Sys2Proof.Machine.execSh ra rb off s
  | .sw ra rb off => Sys2Proof.Machine.execSw ra rb off s
  | .lwg rd ra imm => Sys2Proof.Machine.execLwg rd ra imm s
  | .swg ra rb off => Sys2Proof.Machine.execSwg ra rb off s
  | .amo rd ra rb glob aop => Sys2Proof.Machine.execAmo rd ra rb glob aop s
  | .beq ra rb off => Sys2Proof.Machine.execBeq ra rb off s
  | .bne ra rb off => Sys2Proof.Machine.execBne ra rb off s
  | .blt ra rb off => Sys2Proof.Machine.execBlt ra rb off s
  | .bge ra rb off => Sys2Proof.Machine.execBge ra rb off s
  | .bltu ra rb off => Sys2Proof.Machine.execBltu ra rb off s
  | .bgeu ra rb off => Sys2Proof.Machine.execBgeu ra rb off s
  | .jal rd off => Sys2Proof.Machine.execJal rd off s
  | .jalr rd ra imm => Sys2Proof.Machine.execJalr rd ra imm s
  | .tend => Sys2Proof.Machine.execTend s
  | .tarm en chan => Sys2Proof.Machine.execTarm en chan s
  | .tsend rd ra rb len => Sys2Proof.Machine.execTsend rd ra rb len s
  | .tsendDelivery quire => Sys2Proof.Machine.execTsendDelivery quire s
  | .tpoll rd ra rb => Sys2Proof.Machine.execTpoll rd ra rb s
  | .tprio prio chan => Sys2Proof.Machine.execTprio prio chan s
  | .sysr rd ra imm => Sys2Proof.Machine.execSysr rd ra imm s
  | .sysw rd ra imm => Sys2Proof.Machine.execSysw rd ra imm s
  | .qccTrap code => Sys2Proof.Machine.execQccTrap code s
  | .tret => Sys2Proof.Machine.execTret s
  | .qccFence => Sys2Proof.Machine.execQccFence s
  | .invalidationComplete idx => Sys2Proof.Machine.execInvalidationComplete idx s
  | .pat rs slot => Sys2Proof.Machine.execPat rs slot s
  | .strmBindIn rb rc slot => Sys2Proof.Machine.execStrmBindIn rb rc slot s
  | .strmBindOut rb rc slot => Sys2Proof.Machine.execStrmBindOut rb rc slot s
  | .streamAccess quire slot => Sys2Proof.Machine.execStreamAccess quire slot s
  | .cmd rs node => Sys2Proof.Machine.execCmd rs node s
  | .cmdCancel node => Sys2Proof.Machine.execCmdCancel node s
  | .cmdNodeComplete quire node => Sys2Proof.Machine.execCmdNodeComplete quire node s
  | .copyPiece quire node => Sys2Proof.Machine.execCopyPiece quire node s
  | .qccLaunch rs rc => Sys2Proof.Machine.execQccLaunch rs rc s
  | .cfgLoad rs rc => Sys2Proof.Machine.execCfgLoad rs rc s
  | .cfgLoadShadow rs rc => Sys2Proof.Machine.execCfgLoadShadow rs rc s
  | .cfgLoadComplete quire => Sys2Proof.Machine.execCfgLoadComplete quire s
  | .cfgSwitch rs rc => Sys2Proof.Machine.execCfgSwitch rs rc s
  | .drainNotice idx => Sys2Proof.Machine.execDrainNotice idx s
  | .shadowSwitch ctx => Sys2Proof.Machine.execShadowSwitch ctx s
  | .barr rb rc => Sys2Proof.Machine.execBarr rb rc s
  | .barrierRegistration idx => Sys2Proof.Machine.execBarrierRegistration idx s
  | .barrierCompletion idx => Sys2Proof.Machine.execBarrierCompletion idx s
  | .qccMark marker => Sys2Proof.Machine.execQccMark marker s
  | .ttLoad rc => Sys2Proof.Machine.execTtLoad rc s
  | .ttArm rc => Sys2Proof.Machine.execTtArm rc s
  | .ttArmReset ctx => Sys2Proof.Machine.execTtArmReset ctx s
  | .scan rs rb rc dir si so form => Sys2Proof.Machine.execScan rs rb rc dir si so form s
  | .scanWload rs rc dir si so form => Sys2Proof.Machine.execScanWload rs rc dir si so form s
  | .setx rs rb rc => Sys2Proof.Machine.execSetx rs rb rc s
  | .topk rs rc form3 => Sys2Proof.Machine.execTopk rs rc form3 s
  | .topkGroup rs rc => Sys2Proof.Machine.execTopkGroup rs rc s
  | .topkCommit rs rc => Sys2Proof.Machine.execTopkCommit rs rc s
  | .claspReq rs rc => Sys2Proof.Machine.execClaspReq rs rc s
  | .claspRevoke rb rc => Sys2Proof.Machine.execClaspRevoke rb rc s
  | .plateSweep rs rc => Sys2Proof.Machine.execPlateSweep rs rc s
  | .sweepMarkPassDone => Sys2Proof.Machine.execSweepMarkPassDone s
  | .pmTol rb rc => Sys2Proof.Machine.execPmTol rb rc s
  | .partCreate rs rb rc => Sys2Proof.Machine.execPartCreate rs rb rc s
  | .partDestroy rs rb rc => Sys2Proof.Machine.execPartDestroy rs rb rc s
  | .partFmap rs rb rc => Sys2Proof.Machine.execPartFmap rs rb rc s
  | .partChan rs rb rc => Sys2Proof.Machine.execPartChan rs rb rc s
  | .partPtroot rs rb rc => Sys2Proof.Machine.execPartPtroot rs rb rc s
  | .partFq rs rb rc => Sys2Proof.Machine.execPartFq rs rb rc s
  | .partPlate rs rb rc => Sys2Proof.Machine.execPartPlate rs rb rc s
  | .partDest rs rb rc => Sys2Proof.Machine.execPartDest rs rb rc s
  | .partVf rs rb rc => Sys2Proof.Machine.execPartVf rs rb rc s
  | .partQuota rs rb rc => Sys2Proof.Machine.execPartQuota rs rb rc s
  | .partBudget rs rb rc => Sys2Proof.Machine.execPartBudget rs rb rc s
  | .partGuar rs rb rc => Sys2Proof.Machine.execPartGuar rs rb rc s
  | .partStop rs rb rc => Sys2Proof.Machine.execPartStop rs rb rc s
  | .partSave rs rb rc => Sys2Proof.Machine.execPartSave rs rb rc s
  | .partResume rs rb rc => Sys2Proof.Machine.execPartResume rs rb rc s
  | .partEvent rs rb rc => Sys2Proof.Machine.execPartEvent rs rb rc s
  | .commandDispatch quire => Sys2Proof.Machine.execCommandDispatch quire s
  | .commandNotify quire idx => Sys2Proof.Machine.execCommandNotify quire idx s
  | .channelMessageEntry idx => Sys2Proof.Machine.execChannelMessageEntry idx s
  | .taskPick quire => Sys2Proof.Machine.execTaskPick quire s
  | .tasklong quire => Sys2Proof.Machine.execTasklong quire s
  | .pmma word => Sys2Proof.Machine.execPmma word s
  | .pmmac word => Sys2Proof.Machine.execPmmac word s
  | .pmmad word => Sys2Proof.Machine.execPmmad word s
  | .pdrain word => Sys2Proof.Machine.execPdrain word s
  | .pressFillToken pos port => Sys2Proof.Machine.execPressFillToken pos port s
  | .pressShiftToken pos port => Sys2Proof.Machine.execPressShiftToken pos port s
  | .tensorScaleToken pos port => Sys2Proof.Machine.execTensorScaleToken pos port s
  | .pressGoToken pos port => Sys2Proof.Machine.execPressGoToken pos port s
  | .pressDrain quire => Sys2Proof.Machine.execPressDrain quire s
  | .pressSwitch quire => Sys2Proof.Machine.execPressSwitch quire s
  | .graftUToken pos port => Sys2Proof.Machine.execGraftUToken pos port s
  | .graftSharedToken pos port => Sys2Proof.Machine.execGraftSharedToken pos port s
  | .graftStateInDone quire scan => Sys2Proof.Machine.execGraftStateInDone quire scan s
  | .graftStepIssue quire => Sys2Proof.Machine.execGraftStepIssue quire s
  | .graftYEmit quire => Sys2Proof.Machine.execGraftYEmit quire s
  | .graftChunk quire scan => Sys2Proof.Machine.execGraftChunk quire scan s
  | .graftScanComplete quire scan => Sys2Proof.Machine.execGraftScanComplete quire scan s
  | .wloadChannelDone quire => Sys2Proof.Machine.execWloadChannelDone quire s
  | .graftSwitch quire => Sys2Proof.Machine.execGraftSwitch quire s
  | .riddleGoToken pos port => Sys2Proof.Machine.execRiddleGoToken pos port s
  | .riddleRunStart folio => Sys2Proof.Machine.execRiddleRunStart folio s
  | .riddleGranuleReturn folio run cursor => Sys2Proof.Machine.execRiddleGranuleReturn folio run cursor s
  | .riddleLoopStep folio run => Sys2Proof.Machine.execRiddleLoopStep folio run s
  | .riddleResult folio run => Sys2Proof.Machine.execRiddleResult folio run s
  | .riddleSwitch folio => Sys2Proof.Machine.execRiddleSwitch folio s
  | .prunerStepDispatch die => Sys2Proof.Machine.execPrunerStepDispatch die s
  | .prunerIntake die => Sys2Proof.Machine.execPrunerIntake die s
  | .prunerListFinal die => Sys2Proof.Machine.execPrunerListFinal die s
  | .prunerListMerge die idx => Sys2Proof.Machine.execPrunerListMerge die idx s
  | .prunerWinnerArrival die idx => Sys2Proof.Machine.execPrunerWinnerArrival die idx s
  | .prunerResend die idx => Sys2Proof.Machine.execPrunerResend die idx s
  | .prunerWithdrawal die idx => Sys2Proof.Machine.execPrunerWithdrawal die idx s
  | .commitStart die => Sys2Proof.Machine.execCommitStart die s
  | .commitDeliver die slot => Sys2Proof.Machine.execCommitDeliver die slot s
  | .tokenArrival pos port cls => Sys2Proof.Machine.execTokenArrival pos port cls s
  | .spillWrite quire idx => Sys2Proof.Machine.execSpillWrite quire idx s
  | .overflowSearchDone pos idx => Sys2Proof.Machine.execOverflowSearchDone pos idx s
  | .outputStageDepart pos idx => Sys2Proof.Machine.execOutputStageDepart pos idx s
  | .linkTransfer pos port cls => Sys2Proof.Machine.execLinkTransfer pos port cls s
  | .slotEviction pos ctx => Sys2Proof.Machine.execSlotEviction pos ctx s
  | .slotInstall pos ctx => Sys2Proof.Machine.execSlotInstall pos ctx s
  | .parkedTokenReplay pos ctx => Sys2Proof.Machine.execParkedTokenReplay pos ctx s
  | .switchTokenArrival pos port => Sys2Proof.Machine.execSwitchTokenArrival pos port s
  | .memoryNodeSwitchEmit pos slot node => Sys2Proof.Machine.execMemoryNodeSwitchEmit pos slot node s
  | .robRelease pos => Sys2Proof.Machine.execRobRelease pos s
  | .bankRequestEnqueue pos port => Sys2Proof.Machine.execBankRequestEnqueue pos port s
  | .portOperation bank => Sys2Proof.Machine.execPortOperation bank s
  | .multiBankDecision acc => Sys2Proof.Machine.execMultiBankDecision acc s
  | .missReplay die idx => Sys2Proof.Machine.execMissReplay die idx s
  | .placementZeroing bank => Sys2Proof.Machine.execPlacementZeroing bank s
  | .zeroPieceWrite bank => Sys2Proof.Machine.execZeroPieceWrite bank s
  | .scrubRow bank => Sys2Proof.Machine.execScrubRow bank s
  | .scrubForced bank => Sys2Proof.Machine.execScrubForced bank s
  | .eccWriteback idx => Sys2Proof.Machine.execEccWriteback idx s
  | .channelRequestArrival acc part => Sys2Proof.Machine.execChannelRequestArrival acc part s
  | .channelPerform chan idx => Sys2Proof.Machine.execChannelPerform chan idx s
  | .memoryResponseArrival acc part => Sys2Proof.Machine.execMemoryResponseArrival acc part s
  | .walkStart die idx => Sys2Proof.Machine.execWalkStart die idx s
  | .walkTableReadDone die idx => Sys2Proof.Machine.execWalkTableReadDone die idx s
  | .faultChannelMessage part => Sys2Proof.Machine.execFaultChannelMessage part s
  | .dirtyBitOr acc part => Sys2Proof.Machine.execDirtyBitOr acc part s
  | .heldAccessResume acc => Sys2Proof.Machine.execHeldAccessResume acc s
  | .folioMove part lf => Sys2Proof.Machine.execFolioMove part lf s
  | .plateUnionSpine idx => Sys2Proof.Machine.execPlateUnionSpine idx s
  | .plateUnionWaitServed => Sys2Proof.Machine.execPlateUnionWaitServed s
  | .policyCheckDone => Sys2Proof.Machine.execPolicyCheckDone s
  | .eventRecordWrite vf => Sys2Proof.Machine.execEventRecordWrite vf s
  | .markCount idx => Sys2Proof.Machine.execMarkCount idx s
  | .entryHandoff idx => Sys2Proof.Machine.execEntryHandoff idx s
  | .barrowEntryStart die => Sys2Proof.Machine.execBarrowEntryStart die s
  | .earlyFetchStart die => Sys2Proof.Machine.execEarlyFetchStart die s
  | .barrowFetchPlot die idx => Sys2Proof.Machine.execBarrowFetchPlot die idx s
  | .barrowEvictPlot die idx => Sys2Proof.Machine.execBarrowEvictPlot die idx s
  | .barrowPinPlot die idx => Sys2Proof.Machine.execBarrowPinPlot die idx s
  | .barrowDropPlot die idx => Sys2Proof.Machine.execBarrowDropPlot die idx s
  | .launchWindowWrite vf off data => Sys2Proof.Machine.execLaunchWindowWrite vf off data s
  | .launchChannelEntry idx => Sys2Proof.Machine.execLaunchChannelEntry idx s
  | .dispatcherCycle => Sys2Proof.Machine.execDispatcherCycle s
  | .dieBatchArrival idx => Sys2Proof.Machine.execDieBatchArrival idx s
  | .placement die => Sys2Proof.Machine.execPlacement die s
  | .headWaitExpiry die => Sys2Proof.Machine.execHeadWaitExpiry die s
  | .remoteReservation die idx => Sys2Proof.Machine.execRemoteReservation die idx s
  | .tearDown ctx => Sys2Proof.Machine.execTearDown ctx s
  | .tearDownRelease ctx => Sys2Proof.Machine.execTearDownRelease ctx s
  | .trapChannelMessage idx => Sys2Proof.Machine.execTrapChannelMessage idx s
  | .softErrorRecord idx => Sys2Proof.Machine.execSoftErrorRecord idx s
  | .settleComplete ctx => Sys2Proof.Machine.execSettleComplete ctx s
  | .stopSequence part => Sys2Proof.Machine.execStopSequence part s
  | .rebinderRestore idx => Sys2Proof.Machine.execRebinderRestore idx s
  | .killTimeout ctx => Sys2Proof.Machine.execKillTimeout ctx s
  | .retirement kind unit => Sys2Proof.Machine.execRetirement kind unit s
  | .sliceEnd part => Sys2Proof.Machine.execSliceEnd part s
  | .energyPeriodEnd die => Sys2Proof.Machine.execEnergyPeriodEnd die s
  | .hostApertureRead vf off size tag => Sys2Proof.Machine.execHostApertureRead vf off size tag s
  | .hostApertureWrite vf off data => Sys2Proof.Machine.execHostApertureWrite vf off data s
  | .deliveryWrite idx => Sys2Proof.Machine.execDeliveryWrite idx s
  | .cidxWrite vf queue value => Sys2Proof.Machine.execCidxWrite vf queue value s
  | .queueEnableWrite vf queue data => Sys2Proof.Machine.execQueueEnableWrite vf queue data s
  | .vfStatusWrite vf value => Sys2Proof.Machine.execVfStatusWrite vf value s
  | .hostWindowCompletion tag status data => Sys2Proof.Machine.execHostWindowCompletion tag status data s
  | .hostCompletionTimeout tag => Sys2Proof.Machine.execHostCompletionTimeout tag s
  | .peerRequestArrival accel kind va size data => Sys2Proof.Machine.execPeerRequestArrival accel kind va size data s
  | .debugRead part va size => Sys2Proof.Machine.execDebugRead part va size s
  | .flitReceive port data => Sys2Proof.Machine.execFlitReceive port data s
  | .linkLaneLoss port lanes => Sys2Proof.Machine.execLinkLaneLoss port lanes s
  | .peerTimeout tag => Sys2Proof.Machine.execPeerTimeout tag s
  | .domainConfigWrite off data => Sys2Proof.Machine.execDomainConfigWrite off data s
  | .mailboxReport vf nonce => Sys2Proof.Machine.execMailboxReport vf nonce s
  | .mailboxCert vf => Sys2Proof.Machine.execMailboxCert vf s
  | .mailboxList vf => Sys2Proof.Machine.execMailboxList vf s
  | .firmwareBundleWrite version bundle sig => Sys2Proof.Machine.execFirmwareBundleWrite version bundle sig s
  | .coldReset => Sys2Proof.Machine.execColdReset s
  | .warmReset => Sys2Proof.Machine.execWarmReset s
  | .vfFlr vf => Sys2Proof.Machine.execVfFlr vf s
  | .pmtolWrite part value => Sys2Proof.Machine.execPmtolWrite part value s
  | .pwrlimWrite value => Sys2Proof.Machine.execPwrlimWrite value s
  | .powerWindowEnd watts => Sys2Proof.Machine.execPowerWindowEnd watts s
  | .powerStateEntry kind unit level => Sys2Proof.Machine.execPowerStateEntry kind unit level s
  | .unitWake kind unit => Sys2Proof.Machine.execUnitWake kind unit s
  | .registerWrite vf off data => Sys2Proof.Machine.execRegisterWrite vf off data s
  | .markReturn idx => Sys2Proof.Machine.execMarkReturn idx s
  | .illegalInstruction word => Sys2Proof.Machine.execIllegalInstruction word s
  | .fetchFault quire => Sys2Proof.Machine.execFetchFault quire s
  | .softError store addr bits => Sys2Proof.Machine.execSoftError store addr bits s
  | .linkLanesUp port lanes => Sys2Proof.Machine.execLinkLanesUp port lanes s
  | .pcieLinkL1 entered => Sys2Proof.Machine.execPcieLinkL1 entered s
  | .configurationRequest tag => Sys2Proof.Machine.execConfigurationRequest tag s

end Sys2Proof.Machine
end

