-- ==== Sys2Proof/Machine/Turns.lean ====
section
/-! DEFINITION. Whose step is next, the fetch of an instruction, and an instruction placed where a step fetches it (R157,
R208, R275, R282, R314, R368; notes/assumptions/1.md). -/

namespace Sys2Proof

/-- Who moves when the agenda is empty: the spec orders the units of one cycle only in part, so the choice is free. -/
opaque Config.schedule (tick : Nat) : Machine.Turn

namespace Machine

/-- Whether an instruction is an event: it has no word. -/
def Instr.isEvent (i : Instr) : Bool := (encode i).isNone

/-- An element's turn (R157, R368): the arbiter's pair issues; its node's word is decoded and runs. -/
def elemTurn (pos : Nat) (s : State) : Res :=
  match s.arbitrate pos with
  | none => idle s
  | some (i, p) =>
    if p.switch then .next (s.switchIssue pos i p)
    else match tabGet (s.elem pos).slots i with
      | none => idle s
      | some sl =>
        match decodeElem (BitVec.ofNat 32 (sl.word p.node)) with
        | none => idle s
        | some ins => exec ins { s with firing := some { pos := pos, slotIx := i, pair := p } }

/-- Whether the word at the PC of the current control core can be fetched (R275, R282). -/
def State.fetchable (s : State) (r : TaskRun) : Bool :=
  decide (r.k.pc + 4 ≤ 65536) && !s.uncIn .control (r.q * 65536 + r.k.pc) 4

/-- The instruction that a control core runs next: what its word decodes to, or the trap that it takes instead. -/
noncomputable def State.qccInstr (s : State) (r : TaskRun) : Instr :=
  if !s.fetchable r then .fetchFault r.q
  else if r.t.count ≥ 65536 then .tasklong r.q
  else
    let w := BitVec.ofNat 32 (s.ctlWord r.q r.k.pc)
    (decodeQcc w).getD (.illegalInstruction w)

/-- A control core's turn (R277 to R289). -/
noncomputable def qccTurn (q : Nat) (s : State) : Res :=
  let s := { s with cur := q }
  match s.running with
  | none => idle s
  | some r => if s.awake (q / 4) then exec (s.qccInstr r) s else idle s

/-- A Press's turn (R313, R314): the word of its oldest ready operation runs. -/
noncomputable def pressTurn (q : Nat) (s : State) : Res :=
  let s := { s with cur := q }
  match (s.pressOf q).pick with
  | none => idle s
  | some (_, g) =>
    match decodePress ((s.pressOf q).wordOf g) with
    | some i => exec i s
    | none => idle s

/-- The events that happen while bring-up runs (R428). -/
def Instr.inBringUp : Instr → Bool
  | .coldReset | .warmReset | .retirement _ _ | .configurationRequest _ => true
  | _ => false

/-- One turn. An event happens only when its row describes one: an instruction word is never run so. Until bring-up is over
nothing else than its own events happens. -/
noncomputable def turn (t : Turn) (s : State) : Res :=
  match t with
  | .event i => if Instr.isEvent i && (decide (s.bringUp = 5) || Instr.inBringUp i) then exec i s else idle s
  | .elem p => if s.bringUp = 5 then elemTurn p s else idle s
  | .qcc q => if s.bringUp = 5 then qccTurn q s else idle s
  | .press q => if s.bringUp = 5 then pressTurn q s else idle s

/-- Who moves next: the head of the agenda, or else the free schedule. -/
def State.nextTurn (s : State) : Turn × State :=
  match s.agenda with
  | t :: r => (t, { s with agenda := r })
  | [] => (Config.schedule s.tick, s)

/-- The clock of the model moves on by one step. -/
def ticked : Res → Res
  | .next s => .next { s with tick := s.tick + 1 }
  | r => r

/-! ### An instruction where a step fetches it -/

/-- A context with nothing in it, for an instruction on its own. -/
def Ctx.bare : Ctx where
  part := 0
  image := 0
  parent := none
  homevf := pfNum
  user := 0
  dq := 255
  prio := 0
  hyp := true
  nfolio := 1
  acts := []
  fault := FaultRec.fresh
  gated := false
  sliced := false
  save := none
  tear := .alive
  ending := { kind := 0, code := 0, exit := 0, plate := 0 }
  discard := 0
  cancel := 0
  parkd := 0
  shadow := none
  switch := none
  placed := true
  deepVa := 0
  deepSize := 0

/-- A slot whose node 0 holds a word; every destination is node 1 of the same element and takes every format. -/
def Slot.bare (w : Word) : Slot where
  ctx := 0
  ftz := false
  insts := [w]
  lits := []
  dests := List.replicate 31 (0x400#32, 0xFF000000#32 + 31 * 2 ^ 19)
  keeps := []
  nodeAct := []
  weight := 1
  lastIssue := 0
  share := 0
  spill := 0
  nin := []
  switchIn := []
  predIn := []
  switched := []
  sent := []
  live := []
  expects := []

/-- A pair of BITS tokens of one lane for node 0. -/
def Pair.bare : Pair where
  node := 0
  opL := some (Token.blank 0)
  opR := some (Token.blank 0)
  ordL := some (Token.ordering 0 0)
  switch := false

/-- An element word at node 0 of element 0, with a pair for it. -/
def State.withElemWord (s : State) (w : Word) : State :=
  { s.setElem 0 { Elem.fresh with slots := [(0, Slot.bare w)], fifo := [(0, Pair.bare)] } with
    ctxs := tabPut s.ctxs 0 Ctx.bare, agenda := [.elem 0], firing := none }

/-- A control-core word at address 0 of control core 0, with a hypervisor task that runs there. -/
def State.withQccWord (s : State) (w : Word) : State :=
  { s.setQcc 0 { Qcc.fresh with
      ctx := some 0, hyp := true, task := some { chan := 0, msg := Token.blank 0, set := 0, count := 0 } } with
    ctxs := tabPut s.ctxs 0 Ctx.bare, agenda := [.qcc 0], firing := none, ctl := memWrite s.ctl 0 4 w.toNat }

/-- A tile that is full for a word, of blank tokens. -/
def Tile.bare (w : PressWord) (isB : Bool) : Tile where
  reg := if isB then 4 + w.tb.toNat else w.ta.toNat
  ctx := 0
  nest := 0
  fills := List.replicate (w.fillCount (if isB then w.trb == 1 else w.tra == 1)) (Token.blank 0)
  shifts := List.replicate w.shiftCount (Token.blank 0)
  kept := false
  goSeen := true
  poison := none
  handle := 0

/-- A press word in slot 0 of Press 0, with a go token for it and full tiles. -/
def State.withPressWord (s : State) (w : BitVec 64) : State :=
  let f := pressFieldsOf w.toNat
  { s.setPress 0 { Press.fresh with
      ctx := some 0, words := [w], go := [Token.blank 0], tiles := [Tile.bare f false, Tile.bare f true], scales := [Token.blank 0] } with
    ctxs := tabPut s.ctxs 0 Ctx.bare, agenda := [.press 0], firing := none }

/-- An instruction word placed so that the next step fetches and runs it. -/
def State.placed (s : State) (k : WordKind) (w : Nat) : State :=
  match k with
  | .elem => s.withElemWord (BitVec.ofNat 32 w)
  | .qcc => s.withQccWord (BitVec.ofNat 32 w)
  | .press => s.withPressWord (BitVec.ofNat 64 w)

end Machine

end Sys2Proof
end

