-- ==== Sys2Proof/Machine/Step.lean ====
section
/-! DEFINITION. One step of the machine, and an instruction placed where that step fetches it. -/

namespace Sys2Proof.Machine

/-- One step: the next agent or event takes its turn. -/
noncomputable def step (s : State) : Host.Outcome State Fault Refusal :=
  ticked (turn s.nextTurn.1 s.nextTurn.2)

/-- The state with an instruction of the opcode table placed where the next step fetches it (notes/assumptions/1.md). -/
def State.withFetchWord (s : State) (nbits w : Nat) : State := s.placed (tableKind nbits w) w

end Sys2Proof.Machine
end

