-- ==== Sys2Proof/Safety.lean ====
section
/-! DEFINITION. What counts as a sound state and a safe step, and the terms in which the claims speak of a firing. -/

namespace Sys2Proof.Machine

/-- The memories of a state have their canonical form. -/
def State.memOk (s : State) : Bool := s.sram.wf && s.hbm.wf && s.ctl.wf

/-- A step that neither stops in a fault nor is refused. -/
def SafeStep (s : State) : Prop := ∃ s', step s = .next s'

/-! ### Element firings -/

/-- `f` is the pair that fires in `s`, nothing that it consumes is poison, and the union of all that it consumes has the
handle `h` (R81, R225). -/
def State.Fires (s : State) (f : Fire) (ops : List Opnd) (h : Handle) : Prop :=
  s.fire = some f ∧ (∀ x ∈ f.consumed ops, x.poison = false) ∧ s.unionAll 0 ((f.consumed ops).map (·.plate)) = .ok h

/-- The state once the pair has issued and result tokens have left by destination index, with NEST `nest` and handle `h`. -/
def State.results (s : State) (f : Fire) (nest : BitVec 48) (h : Handle) (l : List (Nat × Shape × BitVec 1024)) : State :=
  (s.issued f).emitAll f (l.map fun t => (t.1, resultToken f.ctx nest t.2.1 h t.2.2))

/-- The same token by DX and by DY (R158). -/
def bothOut (o : ElemOps) (sh : Shape) (pay : BitVec 1024) : List (Nat × Shape × BitVec 1024) :=
  [(o.dx.toNat, sh, pay), (o.dy.toNat, sh, pay)]

/-- Instruction `i` completes: one token of shape `sh` leaves by DX and DY, whose first `n` lanes of `w` bits are those of
`lane`. -/
def State.Gives (s : State) (i : Instr) (o : ElemOps) (f : Fire) (nest : BitVec 48) (h : Handle) (sh : Shape) (w n : Nat)
    (lane : Nat → Nat) : Prop :=
  ∃ pay : BitVec 1024, exec i s = .next (s.results f nest h (bothOut o sh pay)) ∧ ∀ k, k < n → laneAt w pay k = lane k

/-- The format of a lane-wise result: the only format that the opcode fires on, or else that of operand A (R240). -/
def resultFmt (fs : List Fmt) (a : Opnd) : Fmt := match fs with | [x] => x | _ => a.fmt

/-- An operand that an opcode which fires on `fs` can read: an ordering token, or one of those formats (R127, R179, R199). -/
def Opnd.fmtIn (fs : List Fmt) (x : Opnd) : Prop := x.ord = true ∨ x.fmt ∈ fs

/-- The 32-bit word in a lane of an operand. -/
def Opnd.word (x : Opnd) (k : Nat) : Word := BitVec.ofNat 32 (x.lane k)

/-- `mk` is an integer opcode of A and B on the formats `fs` whose lanes are those of `g` (R223, R224, R240). -/
def LaneBinary (mk : ElemOps → Instr) (fs : List Fmt) (g : Word → Word → Word) : Prop :=
  ∀ (o : ElemOps) (s : State) (f : Fire) (h : Handle) (nest : BitVec 48),
    let want := f.want fs [srcOf o.sa, srcOf o.sb]
    let a := f.read (srcOf o.sa) o.lx.toNat want
    let b := f.read (srcOf o.sb) o.lx.toNat want
    let n := colourOf [a, b]
    s.Fires f [a, b] h → a.fmtIn fs → b.fmtIn fs → stdCheck n [(a, fs), (b, fs)] = none → resultFmt fs a ∈ fs →
    tagAction f o.ta.toNat (a.lane 0) 0 = some nest →
    s.Gives (mk o) o f nest h (Shape.data (resultFmt fs a) n) 32 n fun k => (g (a.word k) (b.word k)).toNat

/-- `mk` is an integer opcode of A alone (R240). -/
def LaneUnary (mk : ElemOps → Instr) (fs : List Fmt) (g : Word → Word) : Prop :=
  ∀ (o : ElemOps) (s : State) (f : Fire) (h : Handle) (nest : BitVec 48),
    let a := f.read (srcOf o.sa) o.lx.toNat (f.want fs [srcOf o.sa])
    let n := colourOf [a]
    s.Fires f [a] h → a.fmtIn fs → stdCheck n [(a, fs)] = none → resultFmt fs a ∈ fs →
    tagAction f o.ta.toNat (a.lane 0) 0 = some nest →
    s.Gives (mk o) o f nest h (Shape.data (resultFmt fs a) n) 32 n fun k => (g (a.word k)).toNat

/-- `mk` is a compare opcode of A and B: bit `k` of the predicate compares lane `k` (R239). -/
def LaneCompare (mk : ElemOps → Instr) (fs : List Fmt) (g : Bool → Nat → Nat → Bool) : Prop :=
  ∀ (o : ElemOps) (s : State) (f : Fire) (h : Handle) (nest : BitVec 48),
    let want := f.want fs [srcOf o.sa, srcOf o.sb]
    let a := f.read (srcOf o.sa) o.lx.toNat want
    let b := f.read (srcOf o.sb) o.lx.toNat want
    let n := colourOf [a, b]
    s.Fires f [a, b] h → a.fmtIn fs → b.fmtIn fs → stdCheck n [(a, fs), (b, fs)] = none → tagAction f o.ta.toNat (a.lane 0) 0 = some nest →
    s.Gives (mk o) o f nest h (Shape.pred n) 1 n fun k => (g f.slot.ftz (a.lane k) (b.lane k)).toNat

/-- `mk` is a float opcode of A and B on `fm`: the exact value `g` of the lanes, rounded once (R183, R184, R241). -/
def FloatBinary (mk : ElemOps → Instr) (fm : Fmt) (g : Val → Val → Val) : Prop :=
  ∀ (o : ElemOps) (s : State) (f : Fire) (h : Handle) (nest : BitVec 48),
    let a := f.read (srcOf o.sa) o.lx.toNat fm
    let b := f.read (srcOf o.sb) o.lx.toNat fm
    let n := colourOf [a, b]
    s.Fires f [a, b] h → a.fmtIn [fm] → b.fmtIn [fm] → stdCheck n [(a, [fm]), (b, [fm])] = none → tagAction f o.ta.toNat (a.lane 0) 0 = some nest →
    s.Gives (mk o) o f nest h (Shape.data fm n) (fmtWidth fm) n fun k =>
      floatResult f.slot.ftz fm (g (readFloat f.slot.ftz fm (a.lane k)) (readFloat f.slot.ftz fm (b.lane k)))

/-- `mk` is an opcode of A alone on `fm` whose result has format `rf` and lanes `g`. -/
def FloatUnary (mk : ElemOps → Instr) (fm rf : Fmt) (g : Bool → Nat → Nat) : Prop :=
  ∀ (o : ElemOps) (s : State) (f : Fire) (h : Handle) (nest : BitVec 48),
    let a := f.read (srcOf o.sa) o.lx.toNat fm
    let n := colourOf [a]
    s.Fires f [a] h → a.fmtIn [fm] → stdCheck n [(a, [fm])] = none → tagAction f o.ta.toNat (a.lane 0) 0 = some nest →
    s.Gives (mk o) o f nest h (Shape.data rf n) (fmtWidth rf) n fun k => g f.slot.ftz (a.lane k)

end Sys2Proof.Machine
end

