-- ==== Sys2Proof/Certificates/Slice0/Obligations.lean ====
section
/-! DEFINITION. The statements for the provers. Each is made of clauses of the form: in every state that meets these conditions,
the instruction or event completes, and this is the next state, or what holds of it. -/

namespace Sys2Proof.Machine

/-! ### Tables of the opcodes that one statement covers -/

/-- The integer opcodes of A and B: constructor, formats, lane function (R240). -/
def integerBinaryTable : List ((ElemOps → Instr) × List Fmt × (Word → Word → Word)) :=
  [(.add, [.i32, .bits], fun a b => a + b), (.sub, [.i32, .bits], fun a b => a - b), (.mul, [.i32], fun a b => a * b),
   (.mulh, [.i32], fun a b => (((a.signExtend 64 * b.signExtend 64 : BitVec 64)) >>> 32).setWidth 32),
   (.mulhZ, [.i32], fun a b => (((a.setWidth 64 * b.setWidth 64 : BitVec 64)) >>> 32).setWidth 32),
   (.div, [.i32], fun a b => if b = 0 then 0xFFFFFFFF#32 else a.sdiv b),
   (.rem, [.i32], fun a b => if b = 0 then a else a.srem b),
   (.divZ, [.i32], fun a b => if b = 0 then 0xFFFFFFFF#32 else a / b),
   (.remZ, [.i32], fun a b => if b = 0 then a else a % b),
   (.min, [.i32], fun a b => if a.sle b then a else b), (.max, [.i32], fun a b => if a.sle b then b else a),
   (.minZ, [.i32], fun a b => if a.ule b then a else b), (.maxZ, [.i32], fun a b => if a.ule b then b else a),
   (.and, [.i32, .bits], fun a b => a &&& b), (.or, [.i32, .bits], fun a b => a ||| b),
   (.xor, [.i32, .bits], fun a b => a ^^^ b), (.andn, [.i32, .bits], fun a b => a &&& ~~~b),
   (.shl, [.i32, .bits], fun a b => a <<< (b.toNat % 32)), (.shr, [.i32, .bits], fun a b => a >>> (b.toNat % 32)),
   (.sar, [.i32, .bits], fun a b => a.sshiftRight (b.toNat % 32)),
   (.rol, [.i32, .bits], fun a b => a.rotateLeft (b.toNat % 32))]

/-- The integer opcodes of A alone (R240). -/
def integerUnaryTable : List ((ElemOps → Instr) × List Fmt × (Word → Word)) :=
  [(.abs, [.i32], fun a => if a.msb then -a else a), (.neg, [.i32], fun a => -a), (.not, [.i32, .bits], fun a => ~~~a),
   (.clz, [.i32, .bits], fun a => a.clz),
   (.popc, [.i32, .bits], fun a => BitVec.ofNat 32 ((List.range 32).countP fun k => a.getLsbD k)),
   (.brev, [.i32, .bits], fun a => a.reverse)]

/-- The integer comparisons (R239). -/
def integerCompareTable : List ((ElemOps → Instr) × (Word → Word → Bool)) :=
  [(.cmpEq, fun a b => a == b), (.cmpNe, fun a b => a != b), (.cmpLt, fun a b => a.slt b), (.cmpGe, fun a b => b.sle a),
   (.cmpLtu, fun a b => a.ult b), (.cmpGeu, fun a b => b.ule a), (.cmpLe, fun a b => a.sle b), (.cmpGt, fun a b => b.slt a)]

/-- The float comparisons in their FP32 and BF16 forms, on decoded values (R239). -/
def floatCompareTable : List ((ElemOps → Instr) × Fmt × (Val → Val → Bool)) :=
  [(.fcmpEq, .fp32, veq), (.fcmpNe, .fp32, fun a b => !veq a b), (.fcmpLt, .fp32, vlt),
   (.fcmpLe, .fp32, fun a b => vlt a b || veq a b), (.fcmpGt, .fp32, fun a b => vlt b a),
   (.fcmpGe, .fp32, fun a b => vlt b a || veq a b), (.fcmpUn, .fp32, fun a b => a.isNan || b.isNan),
   (.fcmpNum, .fp32, fun a b => !a.isNan && !b.isNan),
   (.fcmpEqBf16, .bf16, veq), (.fcmpNeBf16, .bf16, fun a b => !veq a b), (.fcmpLtBf16, .bf16, vlt),
   (.fcmpLeBf16, .bf16, fun a b => vlt a b || veq a b), (.fcmpGtBf16, .bf16, fun a b => vlt b a),
   (.fcmpGeBf16, .bf16, fun a b => vlt b a || veq a b), (.fcmpUnBf16, .bf16, fun a b => a.isNan || b.isNan),
   (.fcmpNumBf16, .bf16, fun a b => !a.isNan && !b.isNan)]

/-- The float opcodes of A and B with their exact values (R241). -/
def floatBinaryTable : List ((ElemOps → Instr) × Fmt × (Val → Val → Val)) :=
  [(.fadd, .fp32, vadd), (.fsub, .fp32, fun a b => vadd a (vneg b)), (.fmul, .fp32, vmul), (.fdiv, .fp32, vdiv),
   (.fmin, .fp32, vmin), (.fmax, .fp32, vmax), (.faddBf16, .bf16, vadd), (.fsubBf16, .bf16, fun a b => vadd a (vneg b)),
   (.fmulBf16, .bf16, vmul), (.fdivBf16, .bf16, vdiv), (.fminBf16, .bf16, vmin), (.fmaxBf16, .bf16, vmax)]

/-- The float opcodes of A alone with their exact values (R241): quotient of 1, roots and transcendentals. -/
def floatUnaryTable : List ((ElemOps → Instr) × Fmt × (Val → Val)) :=
  [(.frcp, .fp32, fun a => vdiv (.num false 1 1) a), (.fsqrt, .fp32, vsqrt), (.frsq, .fp32, vrsqrt), (.fexp2, .fp32, vexp2),
   (.flog2, .fp32, vlog2), (.ftanh, .fp32, vtanh), (.fsigm, .fp32, vsigm), (.fspl, .fp32, vspl),
   (.frcpBf16, .bf16, fun a => vdiv (.num false 1 1) a), (.fsqrtBf16, .bf16, vsqrt), (.frsqBf16, .bf16, vrsqrt),
   (.fexp2Bf16, .bf16, vexp2), (.flog2Bf16, .bf16, vlog2), (.ftanhBf16, .bf16, vtanh), (.fsigmBf16, .bf16, vsigm),
   (.fsplBf16, .bf16, vspl)]

/-- The float opcodes that act on bits: sign cleared, sign flipped, and the class mask (R241, R242). -/
def floatBitTable : List ((ElemOps → Instr) × Fmt × Fmt × (Nat → Nat)) :=
  [(.fabs, .fp32, .fp32, fun a => a % 2 ^ 31), (.fneg, .fp32, .fp32, fun a => a ^^^ 2 ^ 31),
   (.fclass, .fp32, .i32, fclassMask .fp32), (.fabsBf16, .bf16, .bf16, fun a => a % 2 ^ 15),
   (.fnegBf16, .bf16, .bf16, fun a => a ^^^ 2 ^ 15), (.fclassBf16, .bf16, .i32, fclassMask .bf16)]

end Sys2Proof.Machine

open Sys2Proof Sys2Proof.Machine

/-! ### Integer, float, lane and conversion opcodes (R239 to R247) -/

/-- Each integer opcode of one or two operands completes with its 32-bit function in every lane, `mad` with the low 32 bits of
A × B + C, and `sel` with A or C by the bits of its predicate; C comes through CSEL (R223, R240). -/
def Obligations.IntegerLaneResults : Prop :=
  (∀ p ∈ integerBinaryTable, LaneBinary p.1 p.2.1 p.2.2) ∧ (∀ p ∈ integerUnaryTable, LaneUnary p.1 p.2.1 p.2.2) ∧
  (∀ (o : ElemOps) (s : State) (f : Fire) (h : Handle) (nest : BitVec 48),
    let c := f.read (csrcOf (bitF (f.cw o) 31 29)) (o.lx.toNat + 1) .i32
    let a := f.read (srcOf o.sa) (o.lx.toNat + 1) .i32
    let b := f.read (srcOf o.sb) (o.lx.toNat + 1) .i32
    let n := colourOf [a, b, c]
    s.Fires f [a, b, c] h → stdCheck n [(a, [.i32]), (b, [.i32]), (c, [.i32])] = none →
    tagAction f o.ta.toNat (a.lane 0) 0 = some nest →
    s.Gives (.mad o) o f nest h (Shape.data .i32 n) 32 n fun k => (a.word k * b.word k + c.word k).toNat) ∧
  (∀ (o : ElemOps) (s : State) (f : Fire) (h : Handle) (nest : BitVec 48),
    let c := f.read (csrcOf (bitF (f.cw o) 31 29)) (o.lx.toNat + 1) .i32
    let a := f.read (srcOf o.sa) (o.lx.toNat + 1) .i32
    let p := f.read .slotR 0 .bits
    let n := colourOf [a, p, c]
    s.Fires f [a, p, c] h → (a.fmt = c.fmt ∨ a.ord = true ∨ c.ord = true) → stdCheck n [(a, [.i32]), (p, allFmts), (c, [.i32])] = none →
    tagAction f o.ta.toNat (a.lane 0) 0 = some nest →
    s.Gives (.sel o) o f nest h (Shape.data .i32 n) 32 n fun k => (if p.bit k then a.word k else c.word k).toNat)

/-- Each comparison completes with a predicate whose bit is the comparison of its lanes (R239). -/
def Obligations.CompareResults : Prop :=
  (∀ p ∈ integerCompareTable, LaneCompare p.1 [.i32, .bits] fun _ a b => p.2 (BitVec.ofNat 32 a) (BitVec.ofNat 32 b)) ∧
  (∀ p ∈ floatCompareTable,
    LaneCompare p.1 [p.2.1] fun ftz a b => p.2.2 (readFloat ftz p.2.1 a) (readFloat ftz p.2.1 b))

/-- Each float opcode completes with its exact value rounded once, or with its function of the bits alone; `ffma` with
(±A × B) + (±C), signs from NP and NC, rounded once (R183, R184, R241, R242). -/
def Obligations.FloatLaneResults : Prop :=
  (∀ p ∈ floatBinaryTable, FloatBinary p.1 p.2.1 p.2.2) ∧
  (∀ p ∈ floatUnaryTable, FloatUnary p.1 p.2.1 p.2.1 fun ftz a => floatResult ftz p.2.1 (p.2.2 (readFloat ftz p.2.1 a))) ∧
  (∀ p ∈ floatBitTable, FloatUnary p.1 p.2.1 p.2.2.1 fun _ a => p.2.2.2 a) ∧
  (∀ p ∈ [((Instr.ffma : ElemOps → Instr), Fmt.fp32), (Instr.ffmaBf16, Fmt.bf16)],
    ∀ (o : ElemOps) (s : State) (f : Fire) (h : Handle) (nest : BitVec 48),
      let c := f.read (csrcOf (bitF (f.cw o) 31 29)) (o.lx.toNat + 1) p.2
      let a := f.read (srcOf o.sa) (o.lx.toNat + 1) p.2
      let b := f.read (srcOf o.sb) (o.lx.toNat + 1) p.2
      let n := colourOf [a, b, c]
      let rd := readFloat f.slot.ftz p.2
      let sign (bit : Nat) (v : Val) : Val := if bitF (f.cw o) bit bit = 1 then vneg v else v
      s.Fires f [a, b, c] h → stdCheck n [(a, [p.2]), (b, [p.2]), (c, [p.2])] = none →
      tagAction f o.ta.toNat (a.lane 0) 0 = some nest →
      s.Gives (p.1 o) o f nest h (Shape.data p.2 n) (fmtWidth p.2) n fun k =>
        floatResult f.slot.ftz p.2 (vadd (sign 28 (vmul (rd (a.lane k)) (rd (b.lane k)))) (sign 27 (rd (c.lane k)))))

/-- The lane opcodes complete with the lanes of R247. -/
def Obligations.LaneOpcodeResults : Prop :=
  (∀ (o : ElemOps) (s : State) (f : Fire) (h : Handle) (nest : BitVec 48),
    let a := f.read (srcOf o.sa) o.lx.toNat (f.want allFmts [srcOf o.sa])
    let n := colourOf [a]
    s.Fires f [a] h → stdCheck n [(a, allFmts)] = none → tagAction f o.ta.toNat (a.lane 0) 0 = some nest →
      s.Gives (.laneid o) o f nest h (Shape.data .i32 n) 32 n (fun k => k) ∧
      s.Gives (.bcast o) o f nest h (Shape.data a.fmt n) (fmtWidth a.fmt) n (fun _ => a.lane 0)) ∧
  (∀ (o : ElemOps) (s : State) (f : Fire) (h : Handle) (nest : BitVec 48),
    let want := f.want allFmts [srcOf o.sa, srcOf o.sb]
    let a := f.read (srcOf o.sa) o.lx.toNat want
    let b := f.read (srcOf o.sb) o.lx.toNat want
    let n := colourOf [a, b]
    s.Fires f [a, b] h → stdCheck n [(a, allFmts), (b, allFmts)] = none →
    tagAction f o.ta.toNat (a.lane 0) 0 = some nest →
      s.Gives (.shuf o) o f nest h (Shape.data a.fmt n) (fmtWidth a.fmt) n
        (fun k => if b.lane k < n then a.lane (b.lane k) else 0) ∧
      s.Gives (.lrot o) o f nest h (Shape.data a.fmt n) (fmtWidth a.fmt) n (fun k => a.lane ((k + b.lane 0 % n) % n))) ∧
  (∀ (o : ElemOps) (s : State) (f : Fire) (h : Handle) (nest : BitVec 48),
    let a := f.read (srcOf o.sa) o.lx.toNat .i32
    let n := colourOf [a]
    let upTo (k : Nat) : Nat := ((List.range k).map a.lane).sum % 2 ^ 32
    s.Fires f [a] h → a.fmtIn [.i32] → stdCheck n [(a, [.i32])] = none → tagAction f o.ta.toNat (a.lane 0) 0 = some nest →
      s.Gives (.redaddI32 o) o f nest h (Shape.data .i32 n) 32 n (fun _ => upTo n) ∧
      s.Gives (.lscanI32 o) o f nest h (Shape.data .i32 n) 32 n (fun k => upTo (k + 1)) ∧
      s.Gives (.redmaxI32 o) o f nest h (Shape.data .i32 n) 32 n
        (fun _ => ((List.range n).map a.lane).tail.foldl smax32 (a.lane 0)) ∧
      s.Gives (.redminI32 o) o f nest h (Shape.data .i32 n) 32 n
        (fun _ => ((List.range n).map a.lane).tail.foldl smin32 (a.lane 0))) ∧
  (∀ (o : ElemOps) (s : State) (f : Fire) (h : Handle) (nest : BitVec 48),
    let a := f.read (srcOf o.sa) o.lx.toNat .fp32
    let n := colourOf [a]
    let z := f.slot.ftz
    s.Fires f [a] h → a.fmtIn [.fp32] → stdCheck n [(a, [.fp32])] = none → tagAction f o.ta.toNat (a.lane 0) 0 = some nest →
      s.Gives (.redaddF32 o) o f nest h (Shape.data .fp32 n) 32 n (fun _ => fsum32 z ((List.range n).map a.lane)) ∧
      s.Gives (.lscanF32 o) o f nest h (Shape.data .fp32 n) 32 n (fun k => fsum32 z ((List.range (k + 1)).map a.lane)) ∧
      s.Gives (.redmaxF32 o) o f nest h (Shape.data .fp32 n) 32 n
        (fun _ => (ffold32 z vmax ((List.range n).map a.lane)).headD 0) ∧
      s.Gives (.redminF32 o) o f nest h (Shape.data .fp32 n) 32 n
        (fun _ => (ffold32 z vmin ((List.range n).map a.lane)).headD 0))

/-- The conversion and scale opcodes complete with the lanes of R243 to R246. -/
def Obligations.ConversionResults : Prop :=
  (∀ (o : ElemOps) (s : State) (f : Fire) (h : Handle) (nest : BitVec 48),
    let cw := f.cw o
    let src := fmtOf (bitF cw 31 29)
    let dst := fmtOf (bitF cw 28 26)
    let rm := rmodeOf (bitF cw 25 23)
    let a := f.read (srcOf o.sa) (o.lx.toNat + 1) src
    let b := f.read (if rm = .rs then srcOf o.sb else .none) (o.lx.toNat + 1) .i32
    let n := colourOf [a, b]
    cvtAllowed src dst = true → s.Fires f [a, b] h → a.fmtIn [src] → stdCheck n [(a, [src]), (b, [.i32, .bits])] = none →
    tagAction f o.ta.toNat (a.lane 0) 0 = some nest →
      s.Gives (.cvt o) o f nest h (Shape.data dst n) (fmtWidth dst) n fun k =>
        cvtLane src dst rm (b.lane k) (bitF cw 22 22 == 1) (a.lane k)) ∧
  (∀ (o : ElemOps) (s : State) (f : Fire) (h : Handle) (nest : BitVec 48),
    let cw := f.cw o
    let dst := fmtOf (bitF cw 31 29)
    let a := f.read (srcOf o.sa) (o.lx.toNat + 1) (f.want [.q4, .q3] [srcOf o.sa])
    let b := f.read (srcOf o.sb) (o.lx.toNat + 1) .i32
    let n := colourOf [a, b]
    let e := sext 8 (b.lane 0)
    s.Fires f [a, b] h → a.fmtIn [.q4, .q3] → stdCheck n [(a, [.q4, .q3])] = none → b.accepts [.i32, .bits] = true →
    fmtIsFloat dst = true → tagAction f o.ta.toNat (a.lane 0) 0 = some nest →
      s.Gives (.qexp o) o f nest h (Shape.data dst n) (fmtWidth dst) n fun k =>
        if e = -128 then 0 else roundTo dst (vscale (decodeLane a.fmt (a.lane k)) e) .rne 0 (bitF cw 28 28 == 1)) ∧
  (∀ (o : ElemOps) (s : State) (f : Fire) (h : Handle) (nest : BitVec 48),
    let cw := f.cw o
    let dst := fmtOf (bitF cw 30 28)
    let a := f.read (srcOf o.sa) (o.lx.toNat + 1) (f.want [.fp32, .bf16] [srcOf o.sa])
    let b := f.read (srcOf o.sb) (o.lx.toNat + 1) .i32
    let n := colourOf [a, b]
    let sh := sext 8 (b.lane 0)
    let e := if bitF cw 31 31 = 1 then -sh else sh
    s.Fires f [a, b] h → a.fmtIn [.fp32, .bf16] → stdCheck n [(a, [.fp32, .bf16])] = none → b.accepts [.i32, .bits] = true →
    fmtIsFloat dst = true → tagAction f o.ta.toNat (a.lane 0) 0 = some nest →
      s.Gives (.bscale o) o f nest h (Shape.data dst n) (fmtWidth dst) n fun k =>
        if sh = -128 then 0
        else roundTo dst (vscale (decodeLane a.fmt (a.lane k)) e) (rmodeOf (bitF cw 27 25)) 0 (bitF cw 24 24 == 1)) ∧
  (∀ (o : ElemOps) (s : State) (f : Fire) (h : Handle) (nest : BitVec 48),
    let a := f.read (srcOf o.sa) o.lx.toNat (f.want [.fp32, .bf16] [srcOf o.sa])
    let n := colourOf [a]
    s.Fires f [a] h → a.fmtIn [.fp32, .bf16] → stdCheck n [(a, [.fp32, .bf16])] = none →
    tagAction f o.ta.toNat (a.lane 0) 0 = some nest →
      s.Gives (.bmax o) o f nest h (Shape.data .i32 n) 32 n fun _ =>
        wrapTo 32 (blockShift ((List.range n).map fun k => decodeLane a.fmt (a.lane k))))


/-! ### Steering, predicates, activations and tag fields (R228 to R238) -/

/-- The predicate opcodes complete with their Boolean function of the predicate bits; every other bit is zero (R238). -/
def Obligations.PredicateOpcodeResults : Prop :=
  (∀ p ∈ [((Instr.pand : ElemOps → Instr), fun (a b : Bool) => a && b), (Instr.por, fun a b => a || b),
      (Instr.pxor, fun a b => a ^^ b)],
    ∀ (o : ElemOps) (s : State) (f : Fire) (h : Handle) (nest : BitVec 48),
      let a := f.read (srcOf o.sa) 0 .bits
      let b := f.read (srcOf o.sb) 0 .bits
      let n := colourOf [a, b]
      s.Fires f [a, b] h → stdCheck n [(a, allFmts), (b, allFmts)] = none → tagAction f o.ta.toNat 0 0 = some nest →
      ∃ pay : BitVec 1024, exec (p.1 o) s = .next (s.results f nest h (bothOut o (Shape.pred n) pay)) ∧
        ∀ k, pay.getLsbD k = (decide (k < n) && p.2 (a.bit k) (b.bit k))) ∧
  (∀ (o : ElemOps) (s : State) (f : Fire) (h : Handle) (nest : BitVec 48),
    let a := f.read (srcOf o.sa) 0 .bits
    let n := colourOf [a]
    s.Fires f [a] h → stdCheck n [(a, allFmts)] = none → tagAction f o.ta.toNat 0 0 = some nest →
    ∃ pay : BitVec 1024, exec (.pnot o) s = .next (s.results f nest h (bothOut o (Shape.pred n) pay)) ∧
      ∀ k, pay.getLsbD k = (decide (k < n) && !a.bit k))

/-- `steer`, `merge`, `cmerge` and `gate` complete as R228 says: A by DX or DY, A by both, A by DX and P by DY, the lanes of A
whose bit is 1; `copy` and `pass` send A on with its own handle, `sink` discards it, and `const` and `join` give theirs. -/
def Obligations.SteeringAndPassingResults : Prop :=
  (∀ (o : ElemOps) (s : State) (f : Fire) (h : Handle) (nest : BitVec 48),
    let a := f.readA o false
    let p := f.read .slotR 0 .bits
    let n := colourOf [a, p]
    s.Fires f [a, p] h → stdCheck n [(a, allFmts)] = none → tagAction f o.ta.toNat (a.lane 0) 0 = some nest →
      exec (.steer o) s = .next (s.results f nest h [((if p.bit 0 then o.dx else o.dy).toNat, Shape.like a n, a.pay)]) ∧
      exec (.merge o) s = .next (s.results f nest h (bothOut o (Shape.like a n) a.pay)) ∧
      exec (.cmerge o) s = .next (s.results f nest h [(o.dx.toNat, Shape.like a n, a.pay),
        (o.dy.toNat, { Shape.pred (p.lanes.getD 1) with ord := p.ord }, p.pay)])) ∧
  (∀ (o : ElemOps) (s : State) (f : Fire) (h : Handle) (nest : BitVec 48),
    let a := f.readA o false
    let p := f.read .slotR 0 .bits
    let n := colourOf [a, p]
    s.Fires f [a, p] h → stdCheck n [(a, allFmts), (p, allFmts)] = none → tagAction f o.ta.toNat (a.lane 0) 0 = some nest →
      s.Gives (.gate o) o f nest h (Shape.data a.fmt n) (fmtWidth a.fmt) n fun k => if p.bit k then a.lane k else 0) ∧
  (∀ (o : ElemOps) (s : State) (f : Fire) (nest : BitVec 48),
    let a := f.readA o false
    s.fire = some f → (∀ x ∈ f.consumed [a], x.poison = false) → tagAction f o.ta.toNat (a.lane 0) 0 = some nest →
      exec (.copy o) s = .next (s.results f nest a.plate (bothOut o (Shape.like a (colourOf [a])) a.pay)) ∧
      exec (.pass o) s = .next (s.results f nest a.plate (bothOut o (Shape.like a (colourOf [a])) a.pay))) ∧
  (∀ (o : ElemOps) (s : State) (f : Fire),
    s.fire = some f → (f.readA o false).poison = false → exec (.sink o) s = .next (s.issued f)) ∧
  (∀ (o : ElemOps) (s : State) (f : Fire) (h : Handle) (nest : BitVec 48),
    let a := f.readA o false
    let b := f.read (srcOf o.sb) o.lx.toNat a.fmt
    let n := colourOf [a, b]
    s.Fires f [a, b] h → stdCheck n [(a, allFmts), (b, allFmts)] = none → tagAction f o.ta.toNat (a.lane 0) 0 = some nest →
      s.Gives (.const o) o f nest h (Shape.data a.fmt n) (fmtWidth a.fmt) n fun k => b.lane k % 2 ^ fmtWidth a.fmt) ∧
  (∀ (o : ElemOps) (s : State) (f : Fire) (h : Handle) (nest : BitVec 48),
    let want := f.want allFmts [srcOf o.sa, srcOf o.sb]
    let a := f.read (srcOf o.sa) o.lx.toNat want
    let b := f.read (srcOf o.sb) o.lx.toNat want
    let n := colourOf [a, b]
    s.Fires f [a, b] h → stdCheck n [(a, allFmts), (b, allFmts)] = none → tagAction f o.ta.toNat (a.lane 0) 0 = some nest →
      exec (.join o) s = .next (s.results f nest h (bothOut o (Shape.like a n) a.pay)))

/-- `alloc` below the live bound widens A to the granted lanes under the opened tag and raises the live count by one; `free`
sends A on and the notice to the `alloc` of its activation; `reorder` passes the expected token of an instance and advances the
expected value, and holds every other token (R154, R229 to R231). -/
def Obligations.ActivationOpcodeResults : Prop :=
  (∀ (o : ElemOps) (s : State) (f : Fire) (h : Handle) (nest : BitVec 48),
    let act := bitF (f.cw o) 31 26
    let ac := actAt f.acts act
    let a := f.read (srcOf o.sa) 0 .bits
    s.Fires f [a] h → s.exhOf f ≠ some true → colourOf [a] ≤ ac.lanes → ac.lanes ≤ 32 → a.poison = false →
    tabNum f.slot.live act < ac.live → tagAction f o.ta.toNat 0 ac.width = some nest →
    ∃ pay : BitVec 1024,
      exec (.alloc o) s = .next (((s.results f nest h (bothOut o (Shape.data a.fmt ac.lanes) pay)).modElem f.pos fun e =>
        e.modSlot f.slotIx fun sl => sl.liveSet act (tabNum f.slot.live act + 1)).dropExh f) ∧
      ∀ k, k < ac.lanes → laneAt (fmtWidth a.fmt) pay k = if k < colourOf [a] then a.lane k else 0) ∧
  (∀ (o : ElemOps) (s : State) (f : Fire) (nest : BitVec 48),
    let a := f.readA o false
    s.fire = some f → (∀ x ∈ f.consumed [a], x.poison = false) → tagAction f o.ta.toNat (a.lane 0) 0 = some nest →
      exec (.free o) s = .next
        ((s.results f nest a.plate (bothOut o (Shape.like a (colourOf [a])) a.pay)).notice f.ctx f.pos f.act)) ∧
  (∀ (o : ElemOps) (s : State) (f : Fire) (t : Token),
    let a := actAt f.acts f.act
    let inst := BitVec.ofNat 48 (f.nest.toNat / 2 ^ a.width)
    let exp := f.slot.expected f.node inst
    let nxt := (exp + 1) % 2 ^ a.granted
    s.fire = some f → (if srcOf o.sa = .slotR then f.pair.opR else f.pair.opL) = some t →
    s.heldToken f.pos f.ctx f.node f.nest = none →
    (f.f0 ≠ exp → exec (.reorder o) s = .next ((s.issued f).hold f.pos f.ctx t)) ∧
    (∀ nest, f.f0 = exp →
      tagAction f o.ta.toNat (if t.poison then 0 else (Opnd.ofToken (srcOf o.sa) t).lane 0) 0 = some nest →
      let s2 := (s.issued f).emitAll f [(o.dx.toNat, { t with nest := nest }), (o.dy.toNat, { t with nest := nest })]
      let s3 := s2.modElem f.pos fun e => e.modSlot f.slotIx fun sl =>
        sl.setExpected f.node inst nxt (!(s2.elem f.pos).entryFree f.ctx)
      s3.heldToken f.pos f.ctx f.node (BitVec.ofNat 48 (inst.toNat * 2 ^ a.width + nxt)) = none →
      exec (.reorder o) s = .next s3))

/-- `pack`, `unpack`, `tagidx` and `chktag` complete with the lanes and tokens of R232 and R233; a `chktag` that finds another
value sends poison TAGCHK by both destinations. -/
def Obligations.PartsAndTagFieldResults : Prop :=
  (∀ (o : ElemOps) (s : State) (f : Fire) (h : Handle) (nest : BitVec 48),
    let gl := (actAt f.acts (bitF (f.cw o) 31 26)).lanes
    let k0 := bitF (f.cw o) 25 21 * gl
    let want := f.want allFmts [srcOf o.sa, srcOf o.sb]
    let a := f.read (srcOf o.sa) (o.lx.toNat + 1) want
    let b := f.read (srcOf o.sb) (o.lx.toNat + 1) want
    let c := a.lanes.getD (colourOf [a, b])
    s.Fires f [a, b] h → (b.ord = true ∨ b.lanes.getD gl = gl) → (a.ord = true ∨ b.ord = true ∨ a.fmt = b.fmt) →
    tagAction f o.ta.toNat (a.lane 0) 0 = some nest →
      s.Gives (.pack o) o f nest h (Shape.data a.fmt c) (fmtWidth a.fmt) c fun k =>
        (if k0 ≤ k ∧ k < k0 + gl then b.lane (k - k0) else a.lane k) % 2 ^ fmtWidth a.fmt) ∧
  (∀ (o : ElemOps) (s : State) (f : Fire) (h : Handle) (nest : BitVec 48),
    let gl := (actAt f.acts (bitF (f.cw o) 31 26)).lanes
    let k0 := bitF (f.cw o) 25 21 * gl
    let a := f.readA o true
    let c := a.lanes.getD 1
    s.Fires f [a] h → tagAction f o.ta.toNat (a.lane 0) 0 = some nest → gl ≤ 32 →
      (k0 < c → s.Gives (.unpack o) o f nest h (Shape.data a.fmt gl) (fmtWidth a.fmt) gl fun k =>
        if k0 + k < c then a.lane (k0 + k) else 0) ∧
      (¬ k0 < c → exec (.unpack o) s = .next (s.issued f))) ∧
  (∀ (o : ElemOps) (s : State) (f : Fire) (h : Handle) (nest : BitVec 48),
    let a := f.readA o true
    let n := colourOf [a]
    s.Fires f [a] h → stdCheck n [(a, allFmts)] = none → tagAction f o.ta.toNat (a.lane 0) 0 = some nest →
      s.Gives (.tagidx o) o f nest h (Shape.data .i32 n) 32 n fun _ =>
        (match bitF (f.cw o) 31 30 with
          | 0 => tagField f.acts f.act f.nest.toNat (bitF (f.cw o) 29 26)
          | 1 => (actAt f.acts (bitF (f.cw o) 25 20)).lanes
          | _ => 2 ^ (actAt f.acts (bitF (f.cw o) 25 20)).granted) % 2 ^ 32) ∧
  (∀ (o : ElemOps) (s : State) (f : Fire) (h : Handle) (nest : BitVec 48),
    let useB := bitF (f.cw o) 27 27 = 1
    let a := f.readA o true
    let b := f.read (if useB then srcOf o.sb else .none) (o.lx.toNat + 1) .i32
    let n := colourOf [a, b]
    let sh := Shape.data a.fmt n
    let found := tagField f.acts f.act f.nest.toNat (bitF (f.cw o) 31 28)
    let want := if useB then b.lane 0 else bitF (f.cw o) 15 0
    let bad := poisonToken f.ctx ((tagAction f o.ta.toNat 0 0).getD f.nest) sh h (s.nodeRec 0x67 f.ctx f.pos f.node 0)
    s.Fires f [a, b] h → stdCheck n [(a, allFmts), (b, intFmts)] = none → tagAction f o.ta.toNat (a.lane 0) 0 = some nest →
      exec (.chktag o) s = .next (if found = want then s.results f nest h (bothOut o sh a.pay)
        else (s.issued f).emitAll f [(o.dx.toNat, bad), (o.dy.toNat, bad)]))

/-- The opcodes whose whole effect is their result tokens: steering, predicate, integer, float, conversion and lane opcodes,
fences, `ordjoin`, `poison` and `probe`. -/
def Sys2Proof.Machine.computing (opc : Nat) : Bool :=
  opc ≤ 0x03 || opc == 0x05 || opc == 0x06 || (decide (0x0A ≤ opc) && decide (opc ≤ 0x0F)) || (decide (0x11 ≤ opc) && decide (opc ≤ 0x8F))
    || (decide (0xB0 ≤ opc) && decide (opc ≤ 0xB6)) || opc == 0xB9 || opc == 0xBA

/-- Poison in, poison out (R225, R373, R375): an integer, float or compare opcode of two operands that consumes poison performs
none of its own effect and sends the first poison's record by both destinations, with the union of all consumed handles. -/
def Obligations.PoisonOperandsGivePoison : Prop :=
  ∀ p ∈ integerBinaryTable.map (fun q => (q.1, q.2.1, (false : Bool))) ++ floatBinaryTable.map (fun q => (q.1, [q.2.1], false))
      ++ integerCompareTable.map (fun q => (q.1, intFmts, true)) ++ floatCompareTable.map (fun q => (q.1, [q.2.1], true)),
    ∀ (o : ElemOps) (s : State) (f : Fire) (h : Handle) (x : Opnd),
      let want := f.want p.2.1 [srcOf o.sa, srcOf o.sb]
      let a := f.read (srcOf o.sa) o.lx.toNat want
      let b := f.read (srcOf o.sb) o.lx.toNat want
      let n := colourOf [a, b]
      let sh := if p.2.2 then Shape.pred n else Shape.data (resultFmt p.2.1 a) n
      let t := poisonToken f.ctx ((tagAction f o.ta.toNat 0 0).getD f.nest) sh h x.record
      s.fire = some f → (f.consumed [a, b]).find? (·.poison) = some x →
      s.unionAll 0 ((f.consumed [a, b]).map (·.plate)) = .ok h → 
      exec (p.1 o) s = .next ((s.issued f).emitAll f [(o.dx.toNat, t), (o.dy.toNat, t)])

/-- The frame of the computing opcodes: whatever they come to, they change nothing but their own element, the issue and energy
counts of its die, and at most the unions that wait and the plate messages; every byte of every memory reads as before. -/
def Obligations.ComputingOpcodesFrame : Prop :=
  ∀ (i : Instr) (opc : Nat) (o : ElemOps) (s t : State), elemOpcodeOf i = some (opc, o) → computing opc = true →
    exec i s = .next t →
    t = { s with elems := t.elems, dies := t.dies, firing := t.firing, unions := t.unions, plateOut := t.plateOut } ∧
    (∀ p, s.fire.map (·.pos) ≠ some p → tabGet t.elems p = tabGet s.elems p) ∧
    (∀ a, memByte t.sram a = memByte s.sram a ∧ memByte t.hbm a = memByte s.hbm a ∧ memByte t.ctl a = memByte s.ctl a)

/-- Within the element that issues and emits, only the ready FIFO, the arbiter's turn, the output stage and the firing slot
change, and of that slot only its keep registers, its counts of tokens sent and the moment of its last issue. -/
def Obligations.EmissionFrameWithinTheElement : Prop :=
  ∀ (s : State) (f : Fire) (l : List (Nat × Token)),
    let e := s.elem f.pos
    let e' := ((s.issued f).emitAll f l).elem f.pos
    e' = { e with slots := e'.slots, cur := e'.cur, used := e'.used, fifo := e'.fifo, out := e'.out } ∧
    (∀ j, j ≠ f.slotIx → tabGet e'.slots j = tabGet e.slots j) ∧
    (∀ sl', tabGet e'.slots f.slotIx = some sl' → ∃ sl, tabGet e.slots f.slotIx = some sl ∧
      sl' = { sl with keeps := sl'.keeps, sent := sl'.sent, lastIssue := sl'.lastIssue })

/-! ### Memory and system opcodes of the elements (R248 to R272) -/

/-- The memory opcodes, plain and ordered, by form (R248). -/
def Sys2Proof.Machine.memoryTable : List ((ElemOps → Instr) × MemForm) :=
  [(.ld, .ld), (.st, .st), (.ldg, .ldg), (.sts, .sts), (.wadd, .wadd), (.wrd, .wrd), (.wclr, .wclr), (.zero, .zero),
   (.hld, .hld), (.hst, .hst), (.atom, .atom), (.ldOrd, .ld), (.stOrd, .st), (.ldgOrd, .ldg), (.stsOrd, .sts),
   (.waddOrd, .wadd), (.wrdOrd, .wrd), (.wclrOrd, .wclr), (.zeroOrd, .zero), (.hldOrd, .hld), (.hstOrd, .hst), (.atomOrd, .atom)]

/-- A memory opcode whose firing passes its checks issues, takes a reorder-buffer entry in its stream, and starts one access with
the lanes, addresses and data of its form, and the union of what it consumed (R41, R42, R81, R249 to R260). -/
def Obligations.MemoryOpcodesStartTheirAccess : Prop :=
  ∀ p ∈ memoryTable, ∀ (o : ElemOps) (s : State) (f : Fire) (h : Handle),
    let m := p.2
    let cw := f.cw o
    let dfmt := fmtOf (bitF cw 28 26)
    let aop := bitF cw 12 9
    let cas := decide (m = .atom ∧ aop = 10)
    let a := f.read (srcOf o.sa) (o.lx.toNat + 1) .bits
    let b := f.read (if m.useB then srcOf o.sb else .none) (o.lx.toNat + 1) ((m.bFmts dfmt).headD .bits)
    let hi := f.slot.lit (o.lx.toNat + 1)
    let c := memColour cas a b
    s.Fires f [a, b] h → memCheck m cas dfmt a b c (hi * 2 ^ 32 + a.lane 0) = none →
    ∃ acc : Access, exec (p.1 o) s = .next ((({ (s.issued f).robPush f s.nextId (memStream cw f.nest) with
        nextId := s.nextId + 1 } : State).setAcc s.nextId acc).accResolve s.nextId) ∧
      acc.op = m.op aop ∧ acc.lanes = memLanes m dfmt cas hi a b c ∧ acc.handle = h ∧ acc.readHandle = 0 ∧ acc.parts = [] ∧
      acc.pos = f.pos ∧ acc.slotIx = f.slotIx ∧ acc.ctx = f.ctx ∧ acc.part = f.part ∧ acc.node = f.node ∧
      acc.dx = o.dx.toNat ∧ acc.dy = o.dy.toNat ∧ acc.fail = none ∧ acc.hold = .none ∧
      (acc.tagBad = true ↔ tagAction f o.ta.toNat (a.lane 0) 0 = none)

/-- The bank that the first lane of an access with SRAM places names. -/
def Sys2Proof.Machine.firstBank (ls : List LaneAcc) : Option Nat :=
  match ls with | { place := some (.sram pa), .. } :: _ => some (pa / 65536) | _ => none

/-- An access all of whose lanes pass the checks of R28 with an SRAM place is sent: each lane keeps its place, each bank gets its
part with the row groups of R33, and the request leaves on the request class of the element's own port (R37 to R39). -/
def Obligations.CheckedSramAccessIsSent : Prop :=
  ∀ (s : State) (id : Nat) (a : Access) (pa : LaneAcc → Nat), s.acc? id = some a → a.lanes ≠ [] →
    (∀ l ∈ a.lanes, l.place = none ∧ l.code = 0 ∧
      s.preCheck a.part l.logical l.va l.align a.op.modifies = .place (.sram (pa l))) →
    let ls := a.lanes.map fun l => { l with place := some (.sram (pa l)) }
    let t := s.accResolve id
    (∃ a', t.acc? id = some a' ∧ a' = { a with lanes := ls, parts := partsOf ls, hold := .none }) ∧
    (∃ b, firstBank ls = some b ∧ t.buf a.pos 4 1 = s.buf a.pos 4 1 ++ [.req (b / 4) id 0]) ∧
    t.sram = s.sram ∧ t.hbm = s.hbm ∧ t.elems = s.elems ∧ t.pcie = s.pcie

/-- The fences, `ordjoin` and `yield` complete with one ordering token by DX and DY, of handle 0; `cfgsw` as a source discards A and
sends one switch token by each destination that takes one, and as a terminal only consumes A (R81, R127, R235, R237, R263, R264,
R269). -/
def Obligations.OrderingAndSwitchOpcodeResults : Prop :=
  (∀ mk ∈ [(Instr.fenceScE : ElemOps → Instr), .fenceScQ, .fenceScF, .fenceScD, .fenceScK, .fenceScX],
    ∀ (o : ElemOps) (s : State) (f : Fire) (nest : BitVec 48),
      let a := f.readA o false
      s.fire = some f → (∀ x ∈ f.consumed [a], x.poison = false) → tagAction f o.ta.toNat (a.lane 0) 0 = some nest →
      exec (mk o) s = .next (s.results f nest 0 (bothOut o Shape.ordering 0))) ∧
  (∀ (o : ElemOps) (s : State) (f : Fire) (nest : BitVec 48),
    let a := f.readA o false
    let b := f.read (srcOf o.sb) 0 .bits
    s.fire = some f → (∀ x ∈ f.consumed [a, b], x.poison = false) → tagAction f o.ta.toNat (a.lane 0) 0 = some nest →
    exec (.ordjoin o) s = .next (s.results f nest 0 (bothOut o Shape.ordering 0))) ∧
  (∀ (o : ElemOps) (s : State) (f : Fire) (nest : BitVec 48),
    let a := f.readA o false
    s.fire = some f → (∀ x ∈ f.consumed [a], x.poison = false) → s.killPending f.ctx = none →
    tagAction f o.ta.toNat (a.lane 0) 0 = some nest →
    exec (.yield o) s = .next (s.results f nest 0 (bothOut o Shape.ordering 0))) ∧
  (∀ (o : ElemOps) (s : State) (f : Fire), s.fire = some f →
    (f.slot.terminal f.node = true → exec (.cfgsw o) s = .next (s.issued f)) ∧
    (f.slot.terminal f.node = false → (f.readA o true).poison = false →
      exec (.cfgsw o) s = .next ((s.issued f).emitAll f
        ((f.slot.switchDests (f.slot.word f.node)).map fun q =>
          (q.2, switchToken f.slot.ctx (tabNum f.slot.sent (32 * f.node + q.1)))))))

/-- The system opcodes complete as R265 to R272 say: `mark` sends one mark, `trap` one message of KIND 9 and poison TRAPU, `poison`
poison POISU, `probe` its item in every lane, `exit` begins the end of its context, `send` its message, `launch` its record. -/
def Obligations.SystemOpcodeResults : Prop :=
  (∀ (o : ElemOps) (s : State) (f : Fire),
    let a := f.readA o true
    s.fire = some f → a.poison = false → tagAction f o.ta.toNat (a.lane 0) 0 ≠ none →
    ∃ m : MarkMsg, exec (.mark o) s = .next { s.issued f with marks := (s.issued f).marks ++ [m] } ∧
      m.ctx = f.ctx ∧ m.marker = bitF (f.cw o) 31 22 ∧ m.node = some (f.pos, f.slotIx, f.node) ∧ m.counted = false ∧
      m.out = [(o.dx.toNat, resultToken f.ctx (f.outNest o a) Shape.ordering 0 0),
        (o.dy.toNat, resultToken f.ctx (f.outNest o a) Shape.ordering 0 0)]) ∧
  (∀ (o : ElemOps) (s : State) (f : Fire),
    let a := f.readA o true
    let r := s.nodeRec 0x90 f.ctx f.pos f.node (bitF (f.cw o) 31 24)
    let t := poisonToken f.ctx (f.outNest o a) (Shape.like a (colourOf [a])) a.plate (recSetRpt r)
    s.fire = some f → a.poison = false → tagAction f o.ta.toNat (a.lane 0) 0 ≠ none →
    exec (.trap o) s = .next
      ((((s.issued f).modCtx f.ctx fun c =>
          { c with fault := FaultRec.note { c.fault with ntrap := satAdd c.fault.ntrap 1 } r }).sendTrap f.ctx 9 r
        (s.logOf f.part f.pos) f.node a.plate).emitAll f [(o.dx.toNat, t), (o.dy.toNat, t)])) ∧
  (∀ (o : ElemOps) (s : State) (f : Fire) (h : Handle) (nest : BitVec 48),
    let a := f.readA o false
    let t := poisonToken f.ctx ((tagAction f o.ta.toNat 0 0).getD f.nest) (Shape.like a (colourOf [a])) h
      (s.nodeRec 0x91 f.ctx f.pos f.node (a.lane 0))
    s.Fires f [a] h → tagAction f o.ta.toNat (a.lane 0) 0 = some nest →
    exec (.poison o) s = .next ((s.issued f).emitAll f [(o.dx.toNat, t), (o.dy.toNat, t)])) ∧
  (∀ (o : ElemOps) (s : State) (f : Fire) (h : Handle) (nest : BitVec 48),
    let a := f.readA o true
    let n := colourOf [a]
    s.Fires f [a] h → tagAction f o.ta.toNat (a.lane 0) 0 = some nest →
    s.Gives (.probe o) o f nest h (Shape.data .i32 n) 32 n fun _ => s.probeItem f (f.cw o) % 2 ^ 32) ∧
  (∀ (o : ElemOps) (s : State) (f : Fire),
    let a := f.readA o false
    s.fire = some f → a.poison = false →
    exec (.exit o) s = .next ((s.issued f).beginEnd f.ctx 1 0 (BitVec.ofNat 32 (a.lane 0)) a.plate)) ∧
  (∀ (o : ElemOps) (s : State) (f : Fire) (e : MapEntry) (t : Token),
    let a := f.readA o true
    let cw := f.cw o
    s.fire = some f → a.poison = false → tagAction f o.ta.toNat (a.lane 0) 0 ≠ none →
    (if srcOf o.sa = .slotR then f.pair.opR else f.pair.opL) = some t →
    s.mapEntry f.part (bitF cw 31 24) = some e → e.st = .mapped →
    ∃ m : MsgIn, exec (.send o) s = .next { s.issued f with msgs := (s.issued f).msgs ++ [m] } ∧
      m.quire = e.gfolio * 4 + bitF cw 23 22 ∧ m.chan = bitF cw 21 18 ∧ m.tok = t ∧ m.accepted = false ∧
      m.sender = some (f.pos, f.slotIx, f.node) ∧ m.dx = o.dx.toNat ∧ m.dy = o.dy.toNat ∧
      m.outTok = { t with nest := f.outNest o a }) ∧
  (∀ (o : ElemOps) (s : State) (f : Fire),
    let a := f.readA o false
    s.fire = some f → a.poison = false → a.ord = false → a.lanes = some 16 →
    ∃ (t : State) (l : Launch), exec (.launch o) s = .next t ∧ t.toSpine = s.toSpine ++ [l] ∧
      l.bytes = bytesOf 64 a.pay.toNat ∧ l.part = f.part ∧ l.parent = some f.ctx ∧ l.plate = a.plate ∧
      l.elemAcc = some (f.pos, s.nextId) ∧ l.cmd = none ∧ t.nextId = s.nextId + 1)


/-! ### The fabric, the stores and the life of an access (R22, R32 to R59, R112 to R117, R149 to R172) -/

/-- What an operation on a location of `n` bytes with the value `old` writes there, by lane (R35, R45, R46, R256); none for a
read. -/
def Sys2Proof.Machine.writtenBy (op : AccOp) (l : LaneAcc) (old : Nat) : Option (Nat × Nat) :=
  match op with
  | .store => some (l.size, l.data)
  | .wadd => some (16, wideAdd old l.data)
  | .wclr => some (16, wideClear l.data)
  | .atom n => some (4, atomNew n old l.data l.data2)
  | _ => none

/-- Bytes that an operation of a lane touches. -/
def Sys2Proof.Machine.touches (op : AccOp) (l : LaneAcc) : Nat :=
  match op with | .atom _ => 4 | .wadd | .wclr => 16 | _ => l.size

/-- A bank port performs an admitted access of one lane (R32 to R36, R81, R256): what is read is what the bytes held before,
what is written stands in exactly the bytes of the lane, every other byte of every memory reads as before, and the response
starts on its way. -/
def Obligations.PortPerformsOneLane : Prop :=
  ∀ (s : State) (b id pa : Nat) (a : Access) (p : Part) (l : LaneAcc) (rest : List (Nat × Nat)) (rh wh : Handle),
    s.sram.wf = true → s.errs = [] → (s.bank b).queue = (id, 0) :: rest → s.acc? id = some a → a.op ≠ .zero →
    a.lanes = [l] → a.parts = [p] → p.st = .admitted → p.lanes = [l.lane] → p.groups = [[l.lane]] →
    l.place = some (.sram pa) → s.zeroPending [l] = false →
    (if a.op.reads then s.union a.readHandle (s.placeHandle (.sram pa)) else .ok a.readHandle) = .ok rh →
    (if a.op.modifies then s.grown (.sram pa) a.handle else .ok 0) = .ok wh →
    let n := touches a.op l
    let old := memRead s.sram pa n
    ∃ t a', exec (.portOperation b) s = .next t ∧ t.acc? id = some a' ∧
      a'.lanes = [if a.op.reads then { l with old := old } else l] ∧ a'.readHandle = rh ∧
      a'.parts = [{ p with groups := [], st := .response }] ∧ (t.bank b).queue = rest ∧
      t.buf (b / 4) 4 2 = s.buf (b / 4) 4 2 ++ [.resp a.pos id 0] ∧ t.hbm = s.hbm ∧ t.ctl = s.ctl ∧
      (match writtenBy a.op l old with
        | some (k, v) => (∀ j, j < k → memByte t.sram (pa + j) = BitVec.ofNat 8 (v / 256 ^ j)) ∧
            (∀ x, (x < pa ∨ pa + k ≤ x) → memByte t.sram x = memByte s.sram x)
        | none => t.sram = s.sram)

/-- The port events complete as R22, R37, R117, R260 and R475 say: a request enters every bank queue that it touches, banks that
have all checked admit the access, an attached access is sent again, and zeroing writes the next 64 bytes. -/
def Obligations.BankEventResults : Prop :=
  (∀ (s : State) (pos port id x b : Nat) (rest : List Flit) (a : Access) (p : Part),
    s.buf pos port 1 = .req pos id x :: rest → s.awake (folioOf pos) = true → s.acc? id = some a → a.parts = [p] →
    p.home = .bank b → (s.bank b).queue.length < 8 →
    ∃ t, exec (.bankRequestEnqueue pos port) s = .next t ∧ (t.bank b).queue = (s.bank b).queue ++ [(id, 0)] ∧
      t.acc? id = some { a with parts := [{ p with st := .queued }] } ∧ t.bufs = (s.setBuf pos port 1 rest).bufs ∧
      t.sram = s.sram) ∧
  (∀ (s : State) (id : Nat) (a : Access), s.acc? id = some a → (a.parts.filter Part.isBank).length > 1 →
    (∀ p ∈ a.parts.filter Part.isBank, p.st = .checked) → (∀ l ∈ a.bankLanes, l.code ≠ 0x50) → s.accOvf a = none →
    ∃ t, exec (.multiBankDecision id) s = .next t ∧ t.acc? id = some a.admitted ∧ t.sram = s.sram) ∧
  (∀ (s : State) (die idx n id : Nat) (m : MissPlot) (r : List Nat),
    (s.barrowOf die).misses[idx]? = some m → s.physPlot (s.partOf m.ctx) m.lplot = some n → (s.plot n).res = true →
    m.accs = id :: r → r ≠ [] →
    exec (.missReplay die idx) s = .next (((s.setBarrow die { s.barrowOf die with
      misses := listMod (s.barrowOf die).misses idx fun m => { m with accs := r } }).modAcc id
        fun a => { a with hold := .none }).accSend id)) ∧
  (∀ (s : State) (b n : Nat), (s.bank b).nonQueueFree = true → s.zeroNext b = some n → s.zeroRow n < 64 → s.sram.wf = true →
    ∃ t, exec (.placementZeroing b) s = .next t ∧ (t.bank b).lastNonQueue = true ∧
      (∀ x, memByte t.sram x =
        if n * 4096 + 64 * s.zeroRow n ≤ x ∧ x < n * 4096 + 64 * s.zeroRow n + 64 then 0 else memByte s.sram x) ∧
      (s.zeroRow n = 63 → t.plot n = { s.plot n with zero := false }) ∧
      (s.zeroRow n < 63 → t.plot n = s.plot n ∧ t.zeroRow n = s.zeroRow n + 1)) ∧
  (∀ (s : State) (b id pi pa : Nat) (a : Access) (p : Part) (l : LaneAcc) (ls : List LaneAcc),
    (s.bank b).zeroing = some (id, pi) → (s.bank b).nonQueueFree = true → s.acc? id = some a → a.parts[pi]? = some p →
    a.bankLanes = l :: ls → l.place = some (.sram pa) → pa % 4096 = 0 → l.size = 4096 → p.next < 4096 → p.next % 64 = 0 →
    s.sram.wf = true →
    ∃ t, exec (.zeroPieceWrite b) s = .next t ∧
      (∀ x, memByte t.sram x = if pa + p.next ≤ x ∧ x < pa + p.next + 64 then 0 else memByte s.sram x) ∧
      ((t.bank b).zeroing = if p.next + 64 ≥ 4096 then none else some (id, pi)))

/-- Scrubbing and the words that errors strike (R58, R59): a scrub corrects its row and goes on to the next, a corrected word is
written back, and an error of one or two bits marks its word without changing the data.
That errors come at moments the schedule chooses, and that a reset machine has none, are choices of the model (notes/assumptions/4.md). -/
def Obligations.ErrorCorrectionEvents : Prop :=
  (∀ (s : State) (b : Nat), (s.bank b).queue = [] → (s.bank b).zeroing = none → s.zeroPlot b = none →
    ∃ t, exec (.scrubRow b) s = .next t ∧ (t.bank b).scrub = ((s.bank b).scrub + 1) % 1024 ∧ (t.bank b).lastScrub = s.tick ∧
      t.sram = s.sram ∧ (∀ m ∈ t.errs, m.store = .bank → m.unc = false →
        ¬ (b * 65536 + 64 * (s.bank b).scrub ≤ m.addr * 8 ∧ m.addr * 8 < b * 65536 + 64 * (s.bank b).scrub + 64))) ∧
  (∀ (s : State) (b : Nat), (s.bank b).nonQueueFree = true → s.cyclesSince (b / 4096) (s.bank b).lastScrub ≥ 4096 →
    ∃ t, exec (.scrubForced b) s = .next t ∧ (t.bank b).scrub = ((s.bank b).scrub + 1) % 1024 ∧
      (t.bank b).lastNonQueue = true ∧ t.sram = s.sram) ∧
  (∀ (s : State) (idx : Nat) (m : ErrMark), s.errs[idx]? = some m → m.met = true → m.unc = false →
    exec (.eccWriteback idx) s = .next { s with errs := listDrop s.errs idx }) ∧
  (∀ (s : State) (addr bits : Nat), (bits = 1 ∨ bits = 2) →
    ∃ t, exec (.softError 0 addr bits) s = .next t ∧ t.sram = s.sram ∧
      ({ store := .bank, addr := addr, unc := bits == 2 || (s.errs.find? fun m => m.store == Store.bank && m.addr == addr).isSome,
         met := false } : ErrMark) ∈ t.errs)

/-- The events of the channels and responses (R54, R55, R65, R406): a request takes a slot, a lane is performed there, the D bit
of its leaf is set first, and the last response finishes the access. -/
def Obligations.ChannelEventResults : Prop :=
  (∀ (s : State) (id pi c : Nat) (a : Access) (p : Part), s.acc? id = some a → a.parts[pi]? = some p → p.home = .chan c →
    p.st = .request → s.retired.contains (.chan c) = false → (s.chan c).slots.length < 64 → s.stackAwake (c * 2 ^ 31) = true →
    exec (.channelRequestArrival id pi) s = .next ((s.setChan c { slots := (s.chan c).slots ++ [(id, pi)] }).setAcc id
      (a.modPart pi fun p => { p with st := .queued }))) ∧
  (∀ (s : State) (c id pa pte : Nat) (big : Bool) (a : Access) (p : Part) (l : LaneAcc) (rest : List (Nat × Nat)) (wh : Handle),
    s.hbm.wf = true → s.errs = [] → (s.chan c).slots = (id, 0) :: rest → s.acc? id = some a → a.op = .store → a.lanes = [l] →
    a.parts = [p] → p.lanes = [l.lane] → p.groups = [[l.lane]] → l.place = some (.hbm pa pte big) → l.dirty = none →
    s.chanYields c a.part = false → s.grown (.hbm pa pte big) a.handle = .ok wh →
    ∃ t, exec (.channelPerform c 0) s = .next t ∧ t.sram = s.sram ∧
      (∀ x, ¬ (pte ≤ x ∧ x < pte + 8) → memByte t.hbm x =
        if pa ≤ x ∧ x < pa + l.size then BitVec.ofNat 8 (l.data / 256 ^ (x - pa)) else memByte s.hbm x) ∧
      t.acc? id = some { a with parts := [{ p with groups := [], st := .response }] }) ∧
  (∀ (s : State) (id pi pte : Nat) (a : Access) (p : Part) (l : LaneAcc), s.acc? id = some a → a.parts[pi]? = some p →
    a.lanes = [l] → p.lanes.contains l.lane = true → l.dirty = some pte →
    exec (.dirtyBitOr id pi) s = .next ((s.modLeaf pte fun e => e ||| 2 ^ 7).setAcc id { a with lanes := [{ l with dirty := none }] })) ∧
  (∀ (s : State) (id b port : Nat) (a : Access) (p : Part) (h : Handle), s.acc? id = some a → a.parts = [p] →
    p.home = .bank b → s.respPort a.pos id 0 = some port → a.fail = none → a.tagBad = false →
    (if a.op.orders then .ok 0 else s.union a.handle a.readHandle) = .ok h →
    let tok := resultToken a.ctx a.nest a.shape h (if a.op.orders then 0 else a.result)
    ∃ t, exec (.memoryResponseArrival id 0) s = .next t ∧ (t.elem a.pos).rob = (s.elem a.pos).rob.map fun r =>
      if r.acc = id then { r with done := some [(a.dx, tok), (a.dy, tok)] } else r) ∧
  (∀ (s : State) (id : Nat) (a : Access), s.acc? id = some a → a.hold = .walk →
    (∀ m ∈ s.misses, m.accs.contains id = false) → exec (.heldAccessResume id) s = .next (s.accResolve id))

/-- The token events complete as R39, R47, R156 to R158 and R236 say: an operand waits in a matching entry for its partner, the
second one makes a ready pair, a node of one slot is ready at once, a switch token is counted, and the head of a buffer crosses one
link. -/
def Obligations.TokenArrivalResults : Prop :=
  (∀ (s : State) (pos port cls i : Nat) (t : Token) (rest : List Flit) (sl : Slot), (cls = 0 ∨ cls = 3) →
    s.awake (folioOf pos) = true → s.buf pos port cls = .tok pos t :: rest → t.kind = 0 → t.isSwitch = false →
    s.alive t.ctx.toNat = true → slotOfCtx (s.elem pos).slots t.ctx.toNat = some (i, sl) →
    tabGet (s.elem pos).slots i = some sl → s.parked pos t.ctx.toNat = false → (s.elem pos).firstStuck t.ctx.toNat = none → sl.twoSlot t.node.toNat = false → s.arriveForm pos sl t = t →
    t.net = .data → (s.elem pos).fifo.length < 16 → sl.nodeSwitched t.node.toNat = false →
    ∃ u, exec (.tokenArrival pos port cls) s = .next u ∧ (u.elem pos).fifo = (s.elem pos).fifo ++ [(i,
        { node := t.node.toNat, opL := if t.slotR then none else some t, opR := if t.slotR then some t else none,
          ordL := none, switch := false })] ∧
      (u.elem pos).mstore = (s.elem pos).mstore ∧ u.bufs = (s.setBuf pos port cls rest).bufs) ∧
  (∀ (s : State) (pos port cls i : Nat) (t : Token) (rest : List Flit) (sl : Slot), (cls = 0 ∨ cls = 3) →
    s.awake (folioOf pos) = true → s.buf pos port cls = .tok pos t :: rest → t.kind = 0 → t.isSwitch = false →
    s.alive t.ctx.toNat = true → slotOfCtx (s.elem pos).slots t.ctx.toNat = some (i, sl) →
    tabGet (s.elem pos).slots i = some sl → s.parked pos t.ctx.toNat = false → (s.elem pos).firstStuck t.ctx.toNat = none → sl.twoSlot t.node.toNat = true → s.arriveForm pos sl t = t →
    t.net = .data → s.inStore pos sl t = [] → sl.spill = 0 → (s.elem pos).entryFree t.ctx.toNat = true →
    sl.nodeSwitched t.node.toNat = false →
    (sl.needs t.node.toNat).all (fun q => (partIn [(sl.partOf t, t)] q).isSome) = false →
    ∃ u, exec (.tokenArrival pos port cls) s = .next u ∧
      (u.elem pos).mstore = (s.elem pos).mstore ++ [{ tok := t, role := .operand, bad := false }] ∧
      (u.elem pos).fifo = (s.elem pos).fifo) ∧
  (∀ (s : State) (pos port i : Nat) (t : Token) (rest : List Flit) (sl : Slot),
    s.awake (folioOf pos) = true → s.buf pos port 0 = .tok pos t :: rest → t.kind = 0 → t.isSwitch = true →
    s.alive t.ctx.toNat = true → slotOfCtx (s.elem pos).slots t.ctx.toNat = some (i, sl) →
    tabGet (s.elem pos).slots i = some sl → s.parked pos t.ctx.toNat = false → (s.elem pos).firstStuck t.ctx.toNat = none →
    let k := 2 * t.node.toNat + (if t.slotR then 1 else 0)
    sl.tokensIn k = false → (sl.switchesIn k).tokens + 1 ≠ tabNum sl.nin k → sl.nodeSwitched t.node.toNat = false →
    ∃ u sl', exec (.switchTokenArrival pos port) s = .next u ∧ tabGet (u.elem pos).slots i = some sl' ∧
      sl'.switchesIn k = { tokens := (sl.switchesIn k).tokens + 1,
                           sum := ((sl.switchesIn k).sum + laneAt 32 t.pay 0) % 2 ^ 32 }) ∧
  (∀ (s : State) (pos port cls : Nat) (f : Flit) (rest : List Flit), s.buf pos port cls = f :: rest →
    s.wantsLink pos port cls (nextDir pos f.dst) = true → s.linkTurn pos cls (nextDir pos f.dst) = true →
    ∃ u, exec (.linkTransfer pos port cls) s = .next u ∧
      u.buf (neighbour pos (nextDir pos f.dst)) ((nextDir pos f.dst + 2) % 4) cls =
        s.buf (neighbour pos (nextDir pos f.dst)) ((nextDir pos f.dst + 2) % 4) cls ++ [f] ∧ u.elems = s.elems)

/-- The output stage and the reorder buffer (R42, R158, R202): a result leaves for the element that its entry names, the oldest
deliverable entry emits its tokens, an acceptance releases A, and a launch response finishes its access; a routed result enters the
mesh at its own element for the element that its destination entry names, with that entry's node, slot and edge (R146, R150). -/
def Obligations.OutputAndReorderResults : Prop :=
  (∀ (s : State) (pos idx : Nat) (o : OutTok) (sl : Slot) (u : State), (s.elem pos).out[idx]? = some o →
    tabGet (s.elem pos).slots o.slotIx = some sl →
    (∀ q ∈ (s.elem pos).out.take idx, q.slotIx ≠ o.slotIx ∨ q.node ≠ o.node ∨ q.dest ≠ o.dest) → s.alive sl.ctx = true →
    (s.setElem pos { s.elem pos with out := listDrop (s.elem pos).out idx }).sendBy pos 4 sl.ctx o.node
      (s.route pos sl o.node o.dest o.tok).1 (s.route pos sl o.node o.dest o.tok).2 = some u →
    exec (.outputStageDepart pos idx) s = .next u) ∧
  (∀ (s : State) (pos : Nat) (r : RobEntry) (sl : Slot) (l : List (Nat × Token)), robPick [] (s.elem pos).rob = some r →
    tabGet (s.elem pos).slots r.slotIx = some sl → r.done = some l →
    ∃ f, exec (.robRelease pos) s = .next ((s.modElem pos fun e =>
        { e with rob := dropFirst (fun q => q.acc == r.acc) e.rob }).emitAll f l) ∧
      f.pos = pos ∧ f.slotIx = r.slotIx ∧ f.node = r.node) ∧
  (∀ (s : State) (idx pos slotIx node : Nat) (m : MsgIn) (f : Fire), s.msgs[idx]? = some m → m.accepted = true →
    m.sender = some (pos, slotIx, node) → s.fireAt pos slotIx node = some f → s.alive m.outTok.ctx.toNat = true →
    exec (.sendAcceptance idx) s = .next
      (({ s with msgs := listDrop s.msgs idx } : State).emitAll f [(m.dx, m.outTok), (m.dy, m.outTok)])) ∧
  (∀ (s : State) (idx pos id code : Nat) (a : Access), s.responses[idx]? = some (pos, id, code) → s.acc? id = some a →
    (code = 0 → ∀ t, ({ s with responses := listDrop s.responses idx } : State).accFinish id = some t →
      exec (.launchResponse idx) s = .next t) ∧
    (code ≠ 0 → exec (.launchResponse idx) s = .next (({ s with responses := listDrop s.responses idx } : State).accFail id
      (s.nodeRec code a.ctx pos a.node 0)))) ∧
  (∀ (s : State) (pos port ctx node : Nat) (w : Word) (t : Token) (e : MapEntry),
    let lp := s.logOf (s.partOf ctx) pos
    let x := entryX w (logX lp)
    let y := entryY w (logY lp)
    let target := posOfLog x y
    let p := e.gfolio * 64 + target % 64
    entryKind w = 0 → s.mapEntry (s.partOf ctx) (target / 64) = some e → e.st = .mapped →
    (s.buf pos port (if t.net = .pred then 3 else 0)).length < 2 →
    ∃ u t', s.sendBy pos port ctx node w t = some u ∧
      u.buf pos port (if t.net = .pred then 3 else 0) = s.buf pos port (if t.net = .pred then 3 else 0) ++ [.tok p t'] ∧
      t'.node.toNat = entryNode w ∧ t'.slotR = (bitF w.toNat 9 9 == 1) ∧ t'.edge.toNat = bitF w.toNat 8 0 ∧
      t'.die.toNat = dieOf p % 16 ∧ t'.pay = t.pay ∧ t'.plate = t.plate ∧ t'.nest = t.nest)

/-- The configuration cache and the overflow store (R50, R51, R154, R169 to R172, R262): a spill is written, a search pairs or
stores its operand, a victim leaves for the backing area, a fetched slot comes back, a parked token matches, a notice lowers the
live count, a parked `alloc` fires, and a switched memory node emits once it has no access left.
The union of a slot fetched from the backing area is a free value (notes/assumptions/48.md). -/
def Obligations.CacheAndOverflowEvents : Prop :=
  (∀ (s : State) (q idx : Nat) (e : OvfEntry), (s.ovf q).spilling[idx]? = some e →
    exec (.spillWrite q idx) s = .next (s.setOvf q { s.ovf q with
      entries := (s.ovf q).entries ++ [e], spilling := listDrop (s.ovf q).spilling idx })) ∧
  (∀ (s u : State) (pos idx i : Nat) (a : Aside) (sl : Slot), (s.elem pos).aside[idx]? = some a →
    slotOfCtx (s.elem pos).slots a.tok.ctx.toNat = some (i, sl) →
    let s1 := s.modElem pos fun e => { e with aside := listDrop e.aside idx }
    s1.matchOperand pos i sl a.tok (s1.inStore pos sl a.tok ++ s1.inOvf pos sl a.tok) true false a.port = some u →
    exec (.overflowSearchDone pos idx) s = .next u) ∧
  (∀ (s : State) (pos i : Nat) (sl : Slot), (s.elem pos).oldestVictim = some (i, sl) → (s.elem pos).fetching ≠ [] →
    4 ≤ (s.elem pos).slotsUsed → (∀ a ∈ (s.elem pos).aside, a.tok.ctx.toNat ≠ sl.ctx) →
    ∃ t, exec (.slotEviction pos sl.ctx) s = .next t ∧ tabGet (t.elem pos).backing sl.ctx = some sl ∧
      (t.elem pos).slots = tabDel (s.elem pos).slots i ∧
      tabGet (t.elem pos).backingOps sl.ctx = some ((s.elem pos).mstore.filter fun h => h.tok.ctx.toNat == sl.ctx) ∧
      (t.elem pos).mstore = (s.elem pos).mstore.filter fun h => !(h.tok.ctx.toNat == sl.ctx)) ∧
  (∀ (s : State) (pos ctx i : Nat) (sl : Slot), (s.elem pos).fetching.contains ctx = true →
    tabGet (s.elem pos).backing ctx = some sl → (s.elem pos).freeSlot = some i → (s.elem pos).slotsUsed < 4 →
    (tabGet (s.elem pos).backingOps ctx).getD [] = [] →
    ∃ t, exec (.slotInstall pos ctx) s = .next t ∧ (t.elem pos).fetching = (s.elem pos).fetching.filter (· != ctx) ∧
      (Config.fetchPoison s.tick = false → tabGet (t.elem pos).slots i = some sl) ∧
      (Config.fetchPoison s.tick = true → (t.elem pos).slots = (s.elem pos).slots ∧
        (t.ctx? ctx).map (·.fault.nfab) = (s.ctx? ctx).map fun c => satAdd c.fault.nfab 1)) ∧
  (∀ (s u : State) (pos ctx i k : Nat) (sl : Slot) (e : OvfEntry), slotOfCtx (s.elem pos).slots ctx = some (i, sl) →
    listFind (fun e => e.isPark pos ctx) (s.ovf (quireOf pos)).entries 0 = some (k, e) → e.upset = 0 →
    (s.setOvf (quireOf pos) { s.ovf (quireOf pos) with entries := listDrop (s.ovf (quireOf pos)).entries k }).take pos i sl e.tok 4
      = some u → exec (.parkedTokenReplay pos ctx) s = .next u) ∧
  (∀ (s : State) (pos port ctx act node i : Nat) (rest : List Flit) (sl : Slot),
    s.buf pos port 0 = .notice pos ctx act node :: rest → s.awake (folioOf pos) = true →
    slotOfCtx (s.elem pos).slots ctx = some (i, sl) → tabGet (s.elem pos).slots i = some sl → 0 < tabNum sl.live act →
    ∃ t sl', exec (.freeNotice pos port) s = .next t ∧ tabGet (t.elem pos).slots i = some sl' ∧
      tabNum sl'.live act = tabNum sl.live act - 1) ∧
  (∀ (s : State) (pos idx i : Nat) (e : OvfEntry) (p : Pair) (tr : Bool) (sl : Slot), (s.ovf (quireOf pos)).entries[idx]? = some e →
    e.pos = pos → e.what = .alloc p tr false → e.upset = 0 → e.tok.poison = false →
    slotOfCtx (s.elem pos).slots e.ctx = some (i, sl) → tabGet (s.elem pos).slots i = some sl → s.mayIssue e.ctx = true →
    p.opL = some e.tok → p.opR = none → p.ordL = none → wSa (sl.word p.node) = 0 →
    s.staged pos + emitCount (sl.word p.node) ≤ 8 →
    let act := bitF (sl.lit (wLx (sl.word p.node))) 31 26
    let ac := actAt (match s.ctx? e.ctx with | some c => c.acts | none => []) act
    tabNum sl.live act < ac.live → e.tok.colour ≤ ac.lanes → bitF (sl.word p.node) 7 4 = 5 → e.tok.plate = 0 →
    ∃ t sl', exec (.parkedAllocFire pos idx) s = .next t ∧ tabGet (t.elem pos).slots i = some sl' ∧
      tabNum sl'.live act = tabNum sl.live act + 1 ∧ (t.ovf (quireOf pos)).entries = listDrop (s.ovf (quireOf pos)).entries idx) ∧
  (∀ (s : State) (pos slot node : Nat) (p : Pair) (sl : Slot),
    (s.elem pos).fifo.find? (fun q => q.1 == slot && q.2.switch && q.2.node == node) = some (slot, p) →
    tabGet (s.elem pos).slots slot = some sl → opcRob (wOpc (sl.word node)) = true → s.mayIssue sl.ctx = true →
    (∀ r ∈ (s.elem pos).rob, r.slotIx ≠ slot ∨ r.node ≠ node) → s.staged pos + (sl.switchOut node).length ≤ 8 →
    exec (.memoryNodeSwitchEmit pos slot node) s = .next (s.switchIssue pos slot p))

/-! ### The control cores (R274 to R301) -/

/-- The state once the instruction of the current control core has ended: register `rd` holds `v`, but writes to x0 are discarded,
PC is `pc`, and the task has issued one instruction more (R274, R279). -/
def Sys2Proof.Machine.State.afterInstr (s : State) (rd : BitVec 5) (v : Word) (pc : Nat) : State :=
  let k := s.qcc s.cur
  s.setQcc s.cur { k with
    x := if rd = 0 then k.x else k.x.set rd.toNat v, pc := pc, task := k.task.map fun t => { t with count := t.count + 1 } }

/-- The R-form operations of the control core (R285). -/
def Sys2Proof.Machine.aluTable : List ((BitVec 5 → BitVec 5 → BitVec 5 → Instr) × (Word → Word → Word)) :=
  [(.aluAdd, fun a b => a + b), (.aluSub, fun a b => a - b), (.aluAnd, fun a b => a &&& b), (.aluOr, fun a b => a ||| b),
   (.aluXor, fun a b => a ^^^ b), (.aluSll, fun a b => a <<< (b.toNat % 32)), (.aluSrl, fun a b => a >>> (b.toNat % 32)),
   (.aluSra, fun a b => a.sshiftRight (b.toNat % 32)), (.aluSlt, fun a b => if a.slt b then 1 else 0),
   (.aluSltu, fun a b => if a.ult b then 1 else 0), (.aluMul, fun a b => a * b),
   (.aluMulh, fun a b => (((a.signExtend 64 * b.signExtend 64 : BitVec 64)) >>> 32).setWidth 32),
   (.aluMulhu, fun a b => (((a.setWidth 64 * b.setWidth 64 : BitVec 64)) >>> 32).setWidth 32),
   (.aluDiv, fun a b => if b = 0 then 0xFFFFFFFF#32 else a.sdiv b), (.aluDivu, fun a b => if b = 0 then 0xFFFFFFFF#32 else a / b),
   (.aluRem, fun a b => if b = 0 then a else a.srem b), (.aluRemu, fun a b => if b = 0 then a else a % b),
   (.aluMin, fun a b => if a.sle b then a else b), (.aluMax, fun a b => if a.sle b then b else a),
   (.aluMinu, fun a b => if a.ule b then a else b), (.aluMaxu, fun a b => if a.ule b then b else a)]

/-- The I-form operations with a 15-bit immediate (R285). -/
def Sys2Proof.Machine.aluImmTable : List ((BitVec 5 → BitVec 5 → BitVec 15 → Instr) × (Word → Word → Word)) :=
  [(.addi, fun a b => a + b), (.andi, fun a b => a &&& b), (.ori, fun a b => a ||| b), (.xori, fun a b => a ^^^ b),
   (.slti, fun a b => if a.slt b then 1 else 0), (.sltiu, fun a b => if a.ult b then 1 else 0)]

/-- The shifts by a 5-bit count (R285). -/
def Sys2Proof.Machine.shiftImmTable : List ((BitVec 5 → BitVec 5 → BitVec 5 → Instr) × (Word → BitVec 5 → Word)) :=
  [(.slli, fun a n => a <<< n.toNat), (.srli, fun a n => a >>> n.toNat), (.srai, fun a n => a.sshiftRight n.toNat)]

/-- The branches of two registers (R289). -/
def Sys2Proof.Machine.branchTable : List ((BitVec 5 → BitVec 5 → BitVec 15 → Instr) × (Word → Word → Bool)) :=
  [(.beq, fun a b => a == b), (.bne, fun a b => a != b), (.blt, fun a b => a.slt b), (.bge, fun a b => b.sle a),
   (.bltu, fun a b => a.ult b), (.bgeu, fun a b => b.ule a)]

/-- The arithmetic, branches and jumps of the control core complete in every state with a running task: rd takes the 32-bit result,
a write of x0 is discarded, PC goes to the next word or where R289 says, and nothing else of the machine changes; a `jalr` to an
address that is not a multiple of 4 traps with ALIGN (R274, R285, R289). -/
def Obligations.ControlCoreResults : Prop :=
  ∀ (s : State) (r : TaskRun), s.running = some r →
    let next := (r.k.pc + 4) % 2 ^ 32
    (∀ p ∈ aluTable, ∀ rd ra rb, exec (p.1 rd ra rb) s = .next (s.afterInstr rd (p.2 (r.k.reg ra) (r.k.reg rb)) next)) ∧
    (∀ p ∈ aluImmTable, ∀ rd ra (imm : BitVec 15),
      exec (p.1 rd ra imm) s = .next (s.afterInstr rd (p.2 (r.k.reg ra) (imm.signExtend 32)) next)) ∧
    (∀ p ∈ shiftImmTable, ∀ rd ra sh, exec (p.1 rd ra sh) s = .next (s.afterInstr rd (p.2 (r.k.reg ra) sh) next)) ∧
    (∀ rd (imm : BitVec 20), exec (.lui rd imm) s = .next (s.afterInstr rd (imm.setWidth 32 <<< 12) next)) ∧
    (let pc := BitVec.ofNat 32 r.k.pc
    (∀ p ∈ branchTable, ∀ ra rb (off : BitVec 15), exec (p.1 ra rb off) s = .next (s.afterInstr 0 0
      (if p.2 (r.k.reg ra) (r.k.reg rb) then (pc + off.signExtend 32 <<< 2).toNat else next))) ∧
    (∀ rd (off : BitVec 20), exec (.jal rd off) s = .next (s.afterInstr rd (pc + 4) (pc + off.signExtend 32 <<< 2).toNat)) ∧
    (∀ rd ra (imm : BitVec 15),
      let t := r.k.reg ra + imm.signExtend 32
      exec (.jalr rd ra imm) s = .next (if t.toNat % 4 = 0 then s.afterInstr rd (pc + 4) t.toNat
        else s.qccTrap r 0x11 (s.ctlWord r.q r.k.pc) t.toNat)))

/-- The loads of control memory: bytes, and how the value is extended (R286). -/
def Sys2Proof.Machine.ctlLoads : List ((BitVec 5 → BitVec 5 → BitVec 15 → Instr) × Nat × (Nat → Word)) :=
  [(.lb, 1, fun v => (BitVec.ofNat 8 v).signExtend 32), (.lbu, 1, fun v => BitVec.ofNat 32 v),
   (.lh, 2, fun v => (BitVec.ofNat 16 v).signExtend 32), (.lhu, 2, fun v => BitVec.ofNat 32 v), (.lw, 4, fun v => BitVec.ofNat 32 v)]

/-- The stores to control memory and their bytes (R286). -/
def Sys2Proof.Machine.ctlStores : List ((BitVec 5 → BitVec 5 → BitVec 15 → Instr) × Nat) := [(.sb, 1), (.sh, 2), (.sw, 4)]

/-- Loads, stores and `amo` on control memory complete at an aligned address inside it: rd takes the bytes, the task set grows by
the region of a load, and a store changes the bytes that it names and no other (R86, R274, R286, R287). -/
def Obligations.ControlMemoryResults : Prop :=
  ∀ (s : State) (r : TaskRun) (h : Handle), s.running = some r → s.errs = [] →
    let next := (r.k.pc + 4) % 2 ^ 32
    let after (h : Handle) := r.k.task.map fun t => { t with set := h, count := t.count + 1 }
    (∀ p ∈ ctlLoads, ∀ rd ra (imm : BitVec 15),
      let a := (r.k.reg ra + imm.signExtend 32).toNat
      a < 65536 → a % p.2.1 = 0 → s.union r.t.set (s.regionSet r.q (a / 4096)) = .ok h →
      ∃ t, exec (p.1 rd ra imm) s = .next t ∧ t = { s with qccs := t.qccs } ∧ (∀ q, q ≠ s.cur → t.qcc q = s.qcc q) ∧
        t.qcc s.cur = { r.k with
          x := if rd = 0 then r.k.x else r.k.x.set rd.toNat (p.2.2 (memRead s.ctl (r.q * 65536 + a) p.2.1)), pc := next, task := after h }) ∧
    (∀ p ∈ ctlStores, ∀ ra rb (off : BitVec 15),
      let a := (r.k.reg ra + off.signExtend 32).toNat
      a < 65536 → a % p.2 = 0 → s.union (s.regionSet r.q (a / 4096)) r.t.set = .ok h → s.ctl.wf = true →
      ∃ t, exec (p.1 ra rb off) s = .next t ∧ t = { s with qccs := t.qccs, ctl := t.ctl, ctlRegion := t.ctlRegion } ∧
        (∀ q, q ≠ s.cur → t.qcc q = s.qcc q) ∧ t.qcc s.cur = { r.k with pc := next, task := after r.t.set } ∧
        ∀ x, memByte t.ctl x = if r.q * 65536 + a ≤ x ∧ x < r.q * 65536 + a + p.2
          then BitVec.ofNat 8 ((r.k.reg rb).toNat / 256 ^ (x - (r.q * 65536 + a))) else memByte s.ctl x) ∧
    (∀ rd ra rb (aop : BitVec 4) (g : Handle),
      let a := (r.k.reg ra).toNat
      let old := memRead s.ctl (r.q * 65536 + a) 4
      let new := atomNew aop.toNat old (if aop = 10 then r.k.reg rd else r.k.reg rb).toNat (r.k.reg rb).toNat
      a < 65536 → a % 4 = 0 → aop.toNat ≤ 10 → s.union r.t.set (s.regionSet r.q (a / 4096)) = .ok h →
      s.union (s.regionSet r.q (a / 4096)) h = .ok g → s.ctl.wf = true →
      ∃ t, exec (.amo rd ra rb 0 aop) s = .next t ∧ t = { s with qccs := t.qccs, ctl := t.ctl, ctlRegion := t.ctlRegion } ∧
        (∀ q, q ≠ s.cur → t.qcc q = s.qcc q) ∧
        t.qcc s.cur = { r.k with
          x := if rd = 0 then r.k.x else r.k.x.set rd.toNat (BitVec.ofNat 32 old), pc := next, task := after h } ∧
        ∀ x, memByte t.ctl x = if r.q * 65536 + a ≤ x ∧ x < r.q * 65536 + a + 4
          then BitVec.ofNat 8 (new / 256 ^ (x - (r.q * 65536 + a))) else memByte s.ctl x)

/-- `lwg`, `swg` and a global `amo` on a resident word of the SRAM complete: rd takes the word, the task set grows by its plot's
handle, and a store changes the four bytes and no other (R28, R81, R86, R286, R287). -/
def Obligations.GlobalAccessResults : Prop :=
  ∀ (s : State) (r : TaskRun) (pa va : Nat) (h g : Handle), s.running = some r → s.errs = [] → s.sram.wf = true →
    s.awake (pa / 2 ^ 24) = true → (s.plot (pa / 4096)).res = true → (s.plot (pa / 4096)).zero = false →
    let next := (r.k.pc + 4) % 2 ^ 32
    let after (h : Handle) := r.k.task.map fun t => { t with set := h, count := t.count + 1 }
    let old := memRead s.sram pa 4
    let pl := s.placeHandle (.sram pa)
    (∀ rd ra (imm : BitVec 15), va = r.k.gvahi.toNat * 2 ^ 32 + (r.k.reg ra + imm.signExtend 32).toNat →
      s.preCheck r.part false va 4 false = .place (.sram pa) → s.union r.t.set pl = .ok h →
      ∃ t, exec (.lwg rd ra imm) s = .next t ∧ t.sram = s.sram ∧ t.hbm = s.hbm ∧ t.ctl = s.ctl ∧ t.elems = s.elems ∧
        (∀ q, q ≠ s.cur → t.qcc q = s.qcc q) ∧
        t.qcc s.cur = { r.k with
          x := if rd = 0 then r.k.x else r.k.x.set rd.toNat (BitVec.ofNat 32 old), pc := next, task := after h }) ∧
    (∀ ra rb (off : BitVec 15), va = r.k.gvahi.toNat * 2 ^ 32 + (r.k.reg ra + off.signExtend 32).toNat →
      s.preCheck r.part false va 4 true = .place (.sram pa) → s.grown (.sram pa) r.t.set = .ok g →
      ∃ t, exec (.swg ra rb off) s = .next t ∧ t.hbm = s.hbm ∧ t.ctl = s.ctl ∧ t.elems = s.elems ∧
        (∀ q, q ≠ s.cur → t.qcc q = s.qcc q) ∧ t.qcc s.cur = { r.k with pc := next, task := after r.t.set } ∧
        ∀ x, memByte t.sram x = if pa ≤ x ∧ x < pa + 4 then BitVec.ofNat 8 ((r.k.reg rb).toNat / 256 ^ (x - pa)) else memByte s.sram x) ∧
    (∀ rd ra rb (aop : BitVec 4), va = r.k.gvahi.toNat * 2 ^ 32 + (r.k.reg ra).toNat → aop.toNat ≤ 10 →
      s.preCheck r.part false va 4 true = .place (.sram pa) → s.grown (.sram pa) r.t.set = .ok g → s.union r.t.set pl = .ok h →
      let new := atomNew aop.toNat old (if aop = 10 then r.k.reg rd else r.k.reg rb).toNat (r.k.reg rb).toNat
      ∃ t, exec (.amo rd ra rb 1 aop) s = .next t ∧ t.hbm = s.hbm ∧ t.ctl = s.ctl ∧ t.elems = s.elems ∧
        (∀ q, q ≠ s.cur → t.qcc q = s.qcc q) ∧
        t.qcc s.cur = { r.k with
          x := if rd = 0 then r.k.x else r.k.x.set rd.toNat (BitVec.ofNat 32 old), pc := next, task := after h } ∧
        ∀ x, memByte t.sram x = if pa ≤ x ∧ x < pa + 4 then BitVec.ofNat 8 (new / 256 ^ (x - pa)) else memByte s.sram x)

/-- `tend` and `tret` end the task, `tend` with its message removed; `tarm` and `tprio` change their channel; `trap` sends one message
of KIND 2 and goes on; `tsend` and `tpoll` complete with their status, and `fence` takes a place in the command queue (R279, R281,
R290, R293). -/
def Obligations.TaskInstructionResults : Prop :=
  ∀ (s : State) (r : TaskRun), s.running = some r →
    let next := (r.k.pc + 4) % 2 ^ 32
    let k0 : Qcc := { r.k with pc := next, task := r.k.task.map fun t => { t with count := t.count + 1 } }
    exec .tend s = .next (s.setQcc s.cur (({ r.k with task := none } : Qcc).setChan r.t.chan ((r.k.chan r.t.chan).drop 1))) ∧
    exec .tret s = .next (s.setQcc s.cur { r.k with task := none }) ∧
    (∀ (en : BitVec 1) (c : BitVec 4), ∃ t, exec (.tarm en c) s = .next t ∧ t = { s with qccs := t.qccs } ∧
      t.qcc s.cur = { k0 with armed := (t.qcc s.cur).armed } ∧ (∀ q, q ≠ s.cur → t.qcc q = s.qcc q) ∧
      ∀ n, n ∈ (t.qcc s.cur).armed ↔ (if n = c.toNat then en = 1 else n ∈ r.k.armed)) ∧
    (∀ (p : BitVec 3) (c : BitVec 4), ∃ t, exec (.tprio p c) s = .next t ∧ t = { s with qccs := t.qccs } ∧
      t.qcc s.cur = { k0 with prio := (t.qcc s.cur).prio } ∧ (∀ q, q ≠ s.cur → t.qcc q = s.qcc q) ∧
      ∀ n, tabGet (t.qcc s.cur).prio n = if n = c.toNat then some p.toNat else tabGet r.k.prio n) ∧
    (∀ code : BitVec 8, exec (.qccTrap code) s = .next
      ((s.sendQccTrap r.ctx (s.trapRec r 0x90 (s.ctlWord r.q r.k.pc) code.toNat) r.t.set).afterInstr 0 0 next)) ∧
    (∀ rd ra rb (len : BitVec 5) (h : Handle),
      let n := 4 * (len.toNat + 1)
      let a := (r.k.reg rb).toNat
      let w := (r.k.reg ra).toNat
      a % 4 = 0 → a + n ≤ 65536 →
      (s.tsendTo r w = none → exec (.tsend rd ra rb len) s = .next (s.afterInstr rd 2 next)) ∧
      (∀ q, s.tsendTo r w = some (some q) → r.k.outq.length ≥ 8 → exec (.tsend rd ra rb len) s = .next (s.afterInstr rd 1 next)) ∧
      (∀ q, s.tsendTo r w = some (some q) → r.k.outq.length < 8 → a / 4096 = (a + n - 1) / 4096 → s.errs = [] →
        s.union r.t.set (s.regionSet r.q (a / 4096)) = .ok h →
        ∃ t m, exec (.tsend rd ra rb len) s = .next t ∧ t = { s with qccs := t.qccs } ∧
          (t.qcc s.cur).outq = r.k.outq ++ [(q, bitF w 21 18, m)] ∧ m.plate = h ∧ m.kind = 2 ∧ m.wid = len ∧
          m.ctx.toNat = r.ctx % 4096 ∧ m.pay.toNat = memRead s.ctl (r.q * 65536 + a) n ∧
          (t.qcc s.cur).x = (if rd = 0 then r.k.x else r.k.x.set rd.toNat 0) ∧ (t.qcc s.cur).pc = next)) ∧
    (∀ rd ra rb (m : Token) (h g : Handle),
      let c := (r.k.reg ra).toNat % 16
      let i := if c = r.t.chan then 1 else 0
      let a := (r.k.reg rb).toNat
      ((r.k.reg ra).toNat ≥ 16 ∨ (r.k.chan c)[i]? = none → exec (.tpoll rd ra rb) s = .next (s.afterInstr rd 0 next)) ∧
      ((r.k.reg ra).toNat < 16 → (r.k.chan c)[i]? = some m → 0 < m.bytes → a % 4 = 0 → a + m.bytes ≤ 65536 →
        a / 4096 = (a + m.bytes - 1) / 4096 → s.errs = [] → s.union r.t.set m.plate = .ok h →
        s.union (s.regionSet r.q (a / 4096)) h = .ok g → s.ctl.wf = true →
        ∃ t, exec (.tpoll rd ra rb) s = .next t ∧ t.sram = s.sram ∧ t.hbm = s.hbm ∧ (t.qcc s.cur).pmh = m.header ∧
          (t.qcc s.cur).chans = (r.k.setChan c (listDrop (r.k.chan c) i)).chans ∧ (t.qcc s.cur).pc = next ∧
          (t.qcc s.cur).x = (if rd = 0 then r.k.x else r.k.x.set rd.toNat (BitVec.ofNat 32 (m.bytes / 4))) ∧
          ∀ x, memByte t.ctl x = if r.q * 65536 + a ≤ x ∧ x < r.q * 65536 + a + m.bytes
            then BitVec.ofNat 8 (m.pay.toNat / 256 ^ (x - (r.q * 65536 + a))) else memByte s.ctl x)) ∧
    (exec .qccFence s = .next (if r.k.queued ≥ 32 then s.setQcc s.cur { k0 with cmdst := 1 }
      else
        let e : Cmd := { id := s.nextId, word := 0, xs := 0, xb := 0, xc := 0, gvahi := 0, record := [], set := 0,
                         fence := true, graph := none, st := .queued, got := [] }
        { (s.setQcc s.cur { k0 with cmds := r.k.cmds ++ [e] }) with nextId := s.nextId + 1 }))

/-- `sysr` and `sysw` complete on the system words that R292 allows: the words of the current message (zero beyond its payload), CMDST,
GVAHI, the die counter and CTXID are read, GVAHI, XINVLO and PLOTSEL are written; every other number, HYP words of a task that
is not a hypervisor's among them, traps with SYSNA (R291, R292). -/
def Obligations.SystemWordResults : Prop :=
  ∀ (s : State) (r : TaskRun) (rd ra : BitVec 5) (imm : BitVec 15), s.running = some r →
    let next := (r.k.pc + 4) % 2 ^ 32
    let n := (r.k.reg ra + imm.signExtend 32).toNat
    let na := s.qccTrap r 0x83 (s.ctlWord r.q r.k.pc) n
    let k0 : Qcc := { r.k with pc := next, task := r.k.task.map fun t => { t with count := t.count + 1 } }
    (n ≤ 0x1F → exec (.sysr rd ra imm) s = .next (s.afterInstr rd
      (if 4 * n < r.t.msg.bytes then BitVec.ofNat 32 (laneAt 32 r.t.msg.pay n) else 0) next)) ∧
    (n = 0x30 → exec (.sysr rd ra imm) s = .next (s.afterInstr rd (BitVec.ofNat 32 r.k.cmdst) next)) ∧
    (n = 0x31 → exec (.sysr rd ra imm) s = .next (s.afterInstr rd r.k.gvahi next)) ∧
    (n = 0x32 → exec (.sysr rd ra imm) s = .next (s.afterInstr rd (BitVec.ofNat 32 (s.counter (r.q / 64))) next)) ∧
    (n = 0x34 → exec (.sysr rd ra imm) s = .next (s.afterInstr rd
      (BitVec.ofNat 32 (r.ctx + s.lfOf r.part (r.q / 4) * 2 ^ 12 + r.q % 4 * 2 ^ 20)) next)) ∧
    (0x71 ≤ n → n ≤ 0x74 → exec (.sysr rd ra imm) s = .next (if r.k.hyp then s.afterInstr rd
      (BitVec.ofNat 32 (bitF (s.handleEntry r.k.hsel) (32 * (n - 0x71) + 31) (32 * (n - 0x71)))) next else na)) ∧
    (n ∉ List.range 0x28 ++ [0x30, 0x31, 0x32, 0x33, 0x34, 0x42, 0x55, 0x61, 0x71, 0x72, 0x73, 0x74] →
      exec (.sysr rd ra imm) s = .next na) ∧
    (n = 0x31 → exec (.sysw rd ra imm) s = .next (s.setQcc s.cur { k0 with gvahi := r.k.reg rd })) ∧
    (n = 0x40 → exec (.sysw rd ra imm) s = .next (s.setQcc s.cur { k0 with xinvlo := r.k.reg rd })) ∧
    (n = 0x60 → exec (.sysw rd ra imm) s = .next (s.setQcc s.cur { k0 with plotsel := (r.k.reg rd).toNat % 2 ^ 20 })) ∧
    (n = 0x70 → exec (.sysw rd ra imm) s = .next (if r.k.hyp then
      s.setQcc s.cur { k0 with hsel := (r.k.reg rd).toNat % 4096 } else na)) ∧
    (n ∉ [0x31, 0x40, 0x41, 0x43, 0x48, 0x49, 0x50, 0x51, 0x52, 0x53, 0x54, 0x60, 0x70] →
      exec (.sysw rd ra imm) s = .next na)

/-- The state after a trap other than TRAPU and CMDFAIL has ended the running task (R279, R281): one message of KIND 2 waits for the
trap channel, the task is gone with its message, and no register and no byte of any memory has changed. -/
def Sys2Proof.Machine.TrapTaken (s t : State) (r : TaskRun) (code word aux : Nat) : Prop :=
  t.qcc s.cur = ({ r.k with task := none } : Qcc).setChan r.t.chan ((r.k.chan r.t.chan).drop 1) ∧
  t.trapOut = s.trapOut ++ [{ ctx := r.ctx, kind := 2, record := s.trapRec r code word aux, spos := 0, snode := 0xFF,
                              count := 1, plate := r.t.set }] ∧
  t.sram = s.sram ∧ t.hbm = s.hbm ∧ t.ctl = s.ctl ∧ t.elems = s.elems ∧ (∀ q, q ≠ s.cur → t.qcc q = s.qcc q) ∧
  (r.t.chan ≠ 15 → t.ctx? r.ctx = (s.ctx? r.ctx).map fun c => { c with fault := { c.fault with ntrap := satAdd c.fault.ntrap 1 } })

/-- The traps of the control core: an instruction with no meaning, a fetch outside control memory, the 65,537th instruction, an
address outside control memory or not aligned, and an atomic that does not exist (R208, R275, R279, R281 to R283, R286, R287). -/
def Obligations.ControlCoreTraps : Prop :=
  ∀ (s : State) (r : TaskRun), s.running = some r →
    let w := s.ctlWord r.q r.k.pc
    (∀ word, ∃ t, exec (.illegalInstruction word) s = .next t ∧ TrapTaken s t r 0x81 word.toNat 0) ∧
    (r.k.pc + 4 > 65536 → ∃ t, exec (.fetchFault s.cur) s = .next t ∧ TrapTaken s t r 0x82 0 r.k.pc) ∧
    (r.t.count ≥ 65536 → ∃ t, exec (.tasklong s.cur) s = .next t ∧ TrapTaken s t r 0x84 w 0) ∧
    (∀ p ∈ ctlLoads.map (fun p => (p.1, p.2.1)) ++ ctlStores, ∀ x y (imm : BitVec 15),
      let base := if (p.1 x y imm) = .sb x y imm ∨ (p.1 x y imm) = .sh x y imm ∨ (p.1 x y imm) = .sw x y imm then x else y
      let a := (r.k.reg base + imm.signExtend 32).toNat
      (a ≥ 65536 → ∃ t, exec (p.1 x y imm) s = .next t ∧ TrapTaken s t r 0x82 w a) ∧
      (a < 65536 → a % p.2 ≠ 0 → ∃ t, exec (p.1 x y imm) s = .next t ∧ TrapTaken s t r 0x11 w a)) ∧
    (∀ rd ra rb g (aop : BitVec 4), aop.toNat > 10 → ∃ t, exec (.amo rd ra rb g aop) s = .next t ∧ TrapTaken s t r 0x81 w 0)

/-- The events of the control cores: an idle core picks, among the channels that are armed, bound and not empty, the highest priority,
and within it the first channel above the last one picked at it; a task starts with the head message of its channel, an outbound message and a message of
another unit enter their channels (R276 to R278, R290). -/
def Obligations.ControlCoreEventResults : Prop :=
  (∀ (s : State) (q c p n : Nat) (m : Token) (l : List Token), (s.qcc q).ctx = some c → (s.qcc q).task = none →
    (s.qcc q).pick = some (p, n) → (s.qcc q).chan n = m :: l → s.mayIssue c = true → s.awake (q / 4) = true →
    exec (.taskPick q) s = .next (s.setQcc q { s.qcc q with
      x := [0, BitVec.ofNat 32 n, BitVec.ofNat 32 m.bytes] ++ List.replicate 29 0, pc := (tabGet (s.qcc q).entry n).getD 0,
      gvahi := 0, cmdst := 0, xinvpid := s.partOf c, lastPick := tabPut (s.qcc q).lastPick p n,
      task := some { chan := n, msg := m, set := m.plate, count := 0 } })) ∧
  (∀ (s : State) (quire q c : Nat) (m : Token) (rest : List (Nat × Nat × Token)), (s.qcc quire).outq = (q, c, m) :: rest →
    s.alive m.ctx.toNat = true → s.awake (q / 4) = true → ((s.qcc q).chan c).length < chanCap c →
    ∃ t, exec (.tsendDelivery quire) s = .next t ∧ t = { s with qccs := t.qccs } ∧ (t.qcc quire).outq = rest ∧
      (t.qcc q).chan c = (s.qcc q).chan c ++ [{ m with kind := 2, node := BitVec.ofNat 8 c }]) ∧
  (∀ (s : State) (idx : Nat) (m : MsgIn), s.msgs[idx]? = some m → m.accepted = false → s.awake (m.quire / 4) = true →
    (∀ o ∈ s.msgs.take idx, o.quire ≠ m.quire ∨ o.chan ≠ m.chan ∨ o.sender ≠ m.sender ∨ o.tok.edge ≠ m.tok.edge) →
    s.alive m.tok.ctx.toNat = true → m.tok.poison = false → ((s.qcc m.quire).chan m.chan).length < chanCap m.chan →
    ∃ t, exec (.channelMessageEntry idx) s = .next t ∧
      (t.qcc m.quire).chan m.chan = (s.qcc m.quire).chan m.chan ++ [{ m.tok with kind := 2, node := BitVec.ofNat 8 m.chan }] ∧
      t.msgs = (if m.sender.isSome then listMod s.msgs idx fun m => { m with accepted := true } else listDrop s.msgs idx)) ∧
  (∀ (k : Qcc) (p n : Nat), k.pick = some (p, n) → (∀ m, tabNum k.prio m ≤ 7) →
    let last := (tabGet k.lastPick p).getD 15
    let distance (m : Nat) := (m + 15 - last % 16) % 16
    n < 16 ∧ k.ready n = true ∧ tabNum k.prio n = p ∧
    ∀ m, m < 16 → k.ready m = true → tabNum k.prio m ≤ p ∧ (tabNum k.prio m = p → distance n ≤ distance m))

/-- The op and cfn of each command instruction and the registers that it reads as rs, rb and rc (R293, R294, R397). -/
def Sys2Proof.Machine.cmdForm : Instr → Option (Nat × Nat × BitVec 5 × BitVec 5 × BitVec 5)
  | .pat rs slot => some (0x40, slot.toNat, rs, 0, 0)
  | .strmBindIn rb rc slot => some (0x41, slot.toNat, 0, rb, rc)
  | .strmBindOut rb rc slot => some (0x41, 16 + slot.toNat, 0, rb, rc)
  | .cmd rs node => some (0x42, node.toNat, rs, 0, 0)
  | .cmdCancel node => some (0x42, 512 + node.toNat, 0, 0, 0)
  | .qccLaunch rs rc => some (0x43, 0, rs, 0, rc)
  | .cfgLoad rs rc => some (0x44, 0, rs, 0, rc)
  | .cfgLoadShadow rs rc => some (0x44, 1, rs, 0, rc)
  | .cfgSwitch rs rc => some (0x45, 0, rs, 0, rc)
  | .barr rb rc => some (0x46, 0, 0, rb, rc)
  | .qccMark marker => some (0x47, marker.toNat, 0, 0, 0)
  | .ttLoad rc => some (0x48, 0, 0, 0, rc)
  | .ttArm rc => some (0x49, 0, 0, 0, rc)
  | .scan rs rb rc dir si so form => some (0x4A, 16 * dir.toNat + 8 * si.toNat + 4 * so.toNat + form.toNat, rs, rb, rc)
  | .scanWload rs rc dir si so form =>
    some (0x4A, 512 + 16 * dir.toNat + 8 * si.toNat + 4 * so.toNat + form.toNat, rs, 0, rc)
  | .setx rs rb rc => some (0x4B, 0, rs, rb, rc)
  | .topk rs rc form3 => some (0x4C, 3 * form3.toNat, rs, 0, rc)
  | .topkGroup rs rc => some (0x4C, 1, rs, 0, rc)
  | .topkCommit rs rc => some (0x4C, 2, rs, 0, rc)
  | .claspReq rs rc => some (0x4D, 0, rs, 0, rc)
  | .claspRevoke rb rc => some (0x4D, 1, 0, rb, rc)
  | .plateSweep rs rc => some (0x4E, 0, rs, 0, rc)
  | .pmTol rb rc => some (0x4F, 0, 0, rb, rc)
  | .partCreate rs rb rc => some (0x50, 0, rs, rb, rc)
  | .partDestroy rs rb rc => some (0x50, 1, rs, rb, rc)
  | .partFmap rs rb rc => some (0x50, 2, rs, rb, rc)
  | .partChan rs rb rc => some (0x50, 3, rs, rb, rc)
  | .partPtroot rs rb rc => some (0x50, 4, rs, rb, rc)
  | .partFq rs rb rc => some (0x50, 5, rs, rb, rc)
  | .partPlate rs rb rc => some (0x50, 6, rs, rb, rc)
  | .partDest rs rb rc => some (0x50, 7, rs, rb, rc)
  | .partVf rs rb rc => some (0x50, 8, rs, rb, rc)
  | .partQuota rs rb rc => some (0x50, 9, rs, rb, rc)
  | .partBudget rs rb rc => some (0x50, 10, rs, rb, rc)
  | .partGuar rs rb rc => some (0x50, 11, rs, rb, rc)
  | .partStop rs rb rc => some (0x50, 12, rs, rb, rc)
  | .partSave rs rb rc => some (0x50, 13, rs, rb, rc)
  | .partResume rs rb rc => some (0x50, 14, rs, rb, rc)
  | .partEvent rs rb rc => some (0x50, 15, rs, rb, rc)
  | _ => none

/-- The operand values that a command instruction of the running task has. -/
def Sys2Proof.Machine.TaskRun.cmdIn (r : TaskRun) (op cfn : Nat) (rs rb rc : BitVec 5) : CmdIn where
  q := r.q
  ctx := r.ctx
  part := r.part
  word := BitVec.ofNat 32 (numR op rs rb rc cfn)
  xs := (r.k.reg rs).toNat
  xb := (r.k.reg rb).toNat
  xc := (r.k.reg rc).toNat
  gvahi := r.k.gvahi
  set := r.t.set
  graph := none

/-- The record of a command can be read: a multiple of 8, inside control memory, no word with an error; the notify is well formed. -/
def Sys2Proof.Machine.State.recordFit (s : State) (c : CmdIn) : Prop :=
  (kNotifies (kOp c.word) = true → notifyOk c.xc = true) ∧ s.errs = [] ∧
  (s.recSize c ≠ 0 → c.xs % 8 = 0 ∧ c.xs + s.recSize c ≤ 65536)

/-- Each command instruction completes at issue (R279, R293, R294): an accepted one takes the next place of the command queue with
its record, operands and set, CMDST 0; malformed operands, a full queue and a busy resource give CMDST 2, 1 and 3 and no entry;
a command of the hypervisor is an illegal instruction in any other task.
The order of the three checks of CMDST is a choice of the model (notes/assumptions/21.md). -/
def Obligations.CommandAcceptanceResults : Prop :=
  ∀ (i : Instr) (op cfn : Nat) (rs rb rc : BitVec 5), cmdForm i = some (op, cfn, rs, rb, rc) →
    ∀ (s : State) (r : TaskRun) (h : Handle), s.running = some r →
    let c := r.cmdIn op cfn rs rb rc
    let b := s.ctlBytes c.q c.xs (s.recSize c)
    let k0 : Qcc := { r.k with
      pc := (r.k.pc + 4) % 2 ^ 32, task := r.k.task.map fun t => { t with count := t.count + 1 }, cmdst := 0 }
    let sets := if s.recSize c = 0 then [] else (ctlRegions c.xs (s.recSize c)).map (s.regionSet c.q)
    (op < 0x4D ∨ r.k.hyp = true →
      (s.recordFit c → s.cmdMalformed c b = false → s.cmdBusy c b = false → r.k.queued < 32 → kImmediate op = false →
        s.unionAll r.t.set sets = .ok h →
        exec i s = .next { (s.setQcc s.cur { k0 with cmds := r.k.cmds ++
            [{ id := s.nextId, word := c.word, xs := r.k.reg rs, xb := r.k.reg rb, xc := r.k.reg rc, gvahi := c.gvahi,
               record := b, set := h, fence := false, graph := none, st := .queued, got := [] }] }) with
          nextId := s.nextId + 1 }) ∧
      ((kNotifies op = true ∧ notifyOk c.xc = false) ∨ (s.recSize c ≠ 0 ∧ (c.xs % 8 ≠ 0 ∨ 65536 < c.xs + s.recSize c)) →
        exec i s = .next (s.setQcc s.cur { k0 with cmdst := 2 })) ∧
      (s.recordFit c → s.cmdMalformed c b = true → exec i s = .next (s.setQcc s.cur { k0 with cmdst := 2 })) ∧
      (s.recordFit c → s.cmdMalformed c b = false → r.k.queued ≥ 32 → kImmediate op = false →
        exec i s = .next (s.setQcc s.cur { k0 with cmdst := 1 })) ∧
      (s.recordFit c → s.cmdMalformed c b = false → r.k.queued < 32 → s.cmdBusy c b = true →
        exec i s = .next (s.setQcc s.cur { k0 with cmdst := 3 }))) ∧
    (0x4D ≤ op → r.k.hyp = false → ∃ t, exec i s = .next t ∧ TrapTaken s t r 0x81 (s.ctlWord r.q r.k.pc) 0)

/-- The commands that act at acceptance (R294, R295, R297, R430): `pat` fills a pattern slot, `cmd` a node of the command graph with
PRED predecessors to come, `cmd.cancel` frees one, and `pm.tol` sets a partition's PMTOL. -/
def Obligations.ImmediateCommandResults : Prop :=
  ∀ (s : State) (r : TaskRun) (h : Handle) (rs rb rc : BitVec 5), s.running = some r →
    let k0 : Qcc := { r.k with
      pc := (r.k.pc + 4) % 2 ^ 32, task := r.k.task.map fun t => { t with count := t.count + 1 }, cmdst := 0 }
    let a := (r.k.reg rs).toNat
    let b := numOf (s.ctlBytes r.q a 32)
    (∀ slot : BitVec 4, let c := r.cmdIn 0x40 slot.toNat rs 0 0
      s.recordFit c → patBad (s.ctlBytes r.q a 32) = false → r.k.slotBusy slot.toNat = false →
      s.unionAll r.t.set ((ctlRegions a 32).map (s.regionSet r.q)) = .ok h →
      exec (.pat rs slot) s = .next (s.setQcc s.cur { k0 with
        g := tabPut r.k.g slot.toNat { pattern := BitVec.ofNat 256 b, stream := none } })) ∧
    (∀ node : BitVec 6, let c := r.cmdIn 0x42 node.toNat rs 0 0
      s.recordFit c → nodeBad b = false → tabGet r.k.graph node.toNat = none → bitF b 247 240 ≠ 0 →
      s.unionAll r.t.set ((ctlRegions a 32).map (s.regionSet r.q)) = .ok h →
      exec (.cmd rs node) s = .next (s.setQcc s.cur { k0 with
        graph := tabPut r.k.graph node.toNat { record := BitVec.ofNat 256 b, pred := bitF b 247 240, launched := false, copied := 0,
                                               got := none, set := h, gvahi := r.k.gvahi, result := none } })) ∧
    (∀ (node : BitVec 6) (n : GNode), tabGet r.k.graph node.toNat = some n → n.launched = false →
      exec (.cmdCancel node) s = .next (s.setQcc s.cur { k0 with graph := tabDel r.k.graph node.toNat })) ∧
    (r.k.hyp = true → (r.k.reg rb).toNat < 32 →
      exec (.pmTol rb rc) s = .next { (s.setQcc s.cur k0) with
        pmtol := tabPut s.pmtol (r.k.reg rb).toNat (r.k.reg rc).toNat })

/-! ### The units of the commands, streams, barriers and timetables (R93 to R120, R293 to R300, R421) -/

/-- An access of a unit passes every check and names a resident place of the SRAM (R22, R28, R113). -/
def Sys2Proof.Machine.State.sramFit (s : State) (part : Nat) (logical : Bool) (va align pa : Nat) (modifies : Bool) : Prop :=
  s.preCheck part logical va align modifies = .place (.sram pa) ∧ s.awake (pa / 2 ^ 24) = true ∧
  (s.plot (pa / 4096)).res = true ∧ (s.plot (pa / 4096)).zero = false ∧ s.errs = []

/-- The head of a command queue goes to its unit: a `fence` leaves once every earlier command is done, a `strm.bind` starts a stream
in its slot, `launch` sends its record to the Spine, `mark` its mark, `setx` enters the go queue of its folio's Riddle, and
`clasp.req` submits its report (R109, R293, R294, R296, R299, R300, R340). -/
def Obligations.CommandDispatchResults : Prop :=
  ∀ (s : State) (q ctx : Nat) (before : List Cmd) (c : Cmd), (s.qcc q).ctx = some ctx → s.mayIssue ctx = true →
    cmdHead [] (s.qcc q).cmds = some (before, c) →
    (c.fence = true → (∀ o ∈ before, ∃ x y, o.st = .done x y) → exec (.commandDispatch q) s =
      .next (s.setQcc q { s.qcc q with cmds := (s.qcc q).cmds.filter (·.id != c.id) })) ∧
    (c.fence = false →
      let cmds := (s.qcc q).cmds.map fun o => if o.id = c.id then { o with st := .running } else o
      let s1 := s.setQcc q { s.qcc q with cmds := cmds }
      let slot := c.word.toNat % 16
      (∀ g, kOp c.word = 0x41 → tabGet (s.qcc q).g slot = some g → ∃ st : Stream,
        exec (.commandDispatch q) s =
          .next (s.setQcc q { s.qcc q with cmds := cmds, g := tabPut (s.qcc q).g slot { g with stream := some st } }) ∧
        st.out = c.word.toNat.testBit 4 ∧ st.engine = bitF c.xb.toNat 10 8 ∧ st.port = c.xb.toNat % 32 ∧ st.next = 0 ∧
        st.moved = 0 ∧ st.cmd = c.id) ∧
      (kOp c.word = 0x43 → (s.toSpine.filter fun l => l.part == s.partOf ctx).length < s.launchCredit (some (s.partOf ctx)) →
        ∃ l : Launch, exec (.commandDispatch q) s = .next { s1 with toSpine := s.toSpine ++ [l] } ∧ l.bytes = c.record ∧
          l.part = s.partOf ctx ∧ l.parent = some ctx ∧ l.hyp = (s.qcc q).hyp ∧ l.plate = c.set ∧ l.cmd = some (q, c.id)) ∧
      (kOp c.word = 0x44 → exec (.commandDispatch q) s = .next s1) ∧
      (kOp c.word = 0x47 → ∃ m : MarkMsg, exec (.commandDispatch q) s = .next { s1 with marks := s.marks ++ [m] } ∧
        m.ctx = ctx ∧ m.marker = c.word.toNat % 1024 ∧ m.cmd = some (q, c.id) ∧ m.counted = false) ∧
      (kOp c.word = 0x4B → (s.riddleOf (q / 4)).go.length < 16 → ∃ g : RiddleGo,
        exec (.commandDispatch q) s = .next (s1.setRiddle (q / 4) { s.riddleOf (q / 4) with go := (s.riddleOf (q / 4)).go ++ [g] }) ∧
        g.desc = c.xb.toNat % 4 ∧ g.record = c.record ∧ g.cmd = some (q, c.id) ∧ g.set = c.set) ∧
      (kOp c.word = 0x4D → c.word.toNat % 2 = 0 → ∃ u : Submission,
        exec (.commandDispatch q) s = .next { s1 with submissions := s.submissions ++ [u] } ∧ u.bytes = c.record.drop 8 ∧
        u.length = fieldOf c.record 0 4 ∧ u.cmd = (q, c.id)))

/-- Completions (R293, R297, R299): a finished command sends the message its notify names and is gone, a graph node that has ended
frees itself or raises CMDFAIL, and a waiter of a passed barrier gets status 0 and the generation reached. -/
def Obligations.CompletionEventResults : Prop :=
  (∀ (s : State) (q idx ctx status lane1 : Nat) (c : Cmd), (s.qcc q).ctx = some ctx → s.alive ctx = true →
    (s.qcc q).cmds[idx]? = some c → c.st = .done status lane1 → c.graph = none →
    let v := c.xc.toNat
    let left := (s.qcc q).cmds.filter (·.id != c.id)
    (kNotifies (kOp c.word) = false ∨ notifyOn v = false →
      exec (.commandNotify q idx) s = .next (s.setQcc q { s.qcc q with cmds := left })) ∧
    (kNotifies (kOp c.word) = true → notifyOn v = true → ((s.qcc q).chan (v % 16)).length < chanCap (v % 16) →
      ∃ t m, exec (.commandNotify q idx) s = .next t ∧ t = { s with qccs := t.qccs } ∧ (t.qcc q).cmds = left ∧
        (t.qcc q).chan (v % 16) = (s.qcc q).chan (v % 16) ++ [m] ∧ laneAt 32 m.pay 0 = bitF v 31 16 * 2 ^ 16 + status % 2 ^ 16 ∧
        laneAt 32 m.pay 1 = lane1 % 2 ^ 32 ∧ m.plate = (if kOp c.word = 0x46 then 0 else c.set))) ∧
  (∀ (s : State) (q node ctx st : Nat) (n : GNode), tabGet (s.qcc q).graph node = some n → (s.qcc q).ctx = some ctx →
    s.alive ctx = true → n.launched = true → n.result = some st →
    (st = 0 → n.succ = [] → exec (.cmdNodeComplete q node) s =
      .next (s.setQcc q { s.qcc q with graph := tabDel (s.qcc q).graph node })) ∧
    (st ≠ 0 → ∃ t m, exec (.cmdNodeComplete q node) s = .next t ∧ (t.qcc q).graph = tabDel (s.qcc q).graph node ∧
      t.trapOut = s.trapOut ++ [m] ∧ m.kind = 2 ∧ m.ctx = ctx ∧ m.plate = n.set ∧ bitF m.record.toNat 127 120 = 0x85 ∧
      bitF m.record.toNat 17 12 = node % 64 ∧ bitF m.record.toNat 43 28 = st % 2 ^ 16)) ∧
  (∀ (s : State) (idx home gen q id : Nat), s.barrRegs[idx]? = some (home, gen, q, id, 0) →
    (∀ o ∈ s.barrRegs.take idx, o.1 ≠ home ∨ 2 ≤ o.2.2.2.2) →
    exec (.barrierRegistration idx) s = .next { s with
      barrRegs := listMod s.barrRegs idx fun r => (r.1, r.2.1, r.2.2.1, r.2.2.2.1, 2) }) ∧
  (∀ (s : State) (home gen q id : Nat), s.barrRegs = [(home, gen, q, id, 1)] → 
    ∃ t, exec (.barrierRegistration 0) s = .next t ∧ t.barrRegs = [] ∧ t.barrDone = s.barrDone ++ [(q, id, (gen + 1) % 2 ^ 32)]) ∧
  (∀ (s : State) (q id g : Nat) (rest : List (Nat × Nat × Nat)), s.barrDone = (q, id, g) :: rest →
    (∃ c ∈ (s.qcc q).cmds, c.id = id) →
    exec (.barrierCompletion 0) s = .next { (s.setQcc q { s.qcc q with cmds := (s.qcc q).cmds.map fun c =>
      if c.id = id then { c with st := .done 0 (g % 2 ^ 32) } else c }) with barrDone := rest })

/-- A copy node moves 64 bytes at a time and a stream one access at a time (R81, R85, R295 to R297): what is read goes on with its
place's handle, and a write changes exactly its bytes. -/
def Obligations.CopyAndStreamResults : Prop :=
  (∀ (s : State) (q node ctx pa : Nat) (n : GNode) (h : Handle), tabGet (s.qcc q).graph node = some n → (s.qcc q).ctx = some ctx →
    s.mayIssue ctx = true → n.launched = true → n.kind = 0 → n.result = none → n.copied < bitF n.record.toNat 79 48 →
    (n.got = none → s.sramFit (s.partOf ctx) false (bitF n.record.toNat 191 136 + n.copied) 64 pa false →
      s.union n.set (s.plot (pa / 4096)).handle = .ok h →
      ∃ t, exec (.copyPiece q node) s = .next t ∧ t.sram = s.sram ∧ t.hbm = s.hbm ∧ t.ctl = s.ctl ∧
        tabGet (t.qcc q).graph node = some { n with got := some (memRead s.sram pa 64, h) }) ∧
    (∀ v g, n.got = some (v, g) → s.sramFit (s.partOf ctx) false (bitF n.record.toNat 135 80 + n.copied) 64 pa true →
      s.grown (.sram pa) g = .ok h → s.sram.wf = true →
      ∃ t, exec (.copyPiece q node) s = .next t ∧ t.hbm = s.hbm ∧ t.ctl = s.ctl ∧
        (∀ x, memByte t.sram x = if pa ≤ x ∧ x < pa + 64 then BitVec.ofNat 8 (v / 256 ^ (x - pa)) else memByte s.sram x) ∧
        tabGet (t.qcc q).graph node = some { n with
          copied := n.copied + 64, got := none, result := if n.copied + 64 ≥ bitF n.record.toNat 79 48 then some 0 else none })) ∧
  (∀ (s : State) (q i ctx pa : Nat) (g : GSlot) (st : Stream) (set h : Handle), tabGet (s.qcc q).g i = some g →
    (s.qcc q).ctx = some ctx → g.stream = some st → s.engineMay q ctx = true → (s.qcc q).cmdSet st.cmd = set →
    st.next + 1 < patCount g.pattern →
    let on : GSlot := { g with stream := some { st with next := st.next + 1, moved := st.moved + 1 } }
    (st.out = false → st.engine ≤ 1 → (s.buf (q * 16) 5 0).length < 2 →
      s.sramFit (s.partOf ctx) false (patAddr g.pattern st.next) (patSize g.pattern) pa false →
      s.union set (s.plot (pa / 4096)).handle = .ok h →
      ∃ t m, exec (.streamAccess q i) s = .next t ∧ t.sram = s.sram ∧ tabGet (t.qcc q).g i = some on ∧
        t.buf (q * 16) 5 0 = s.buf (q * 16) 5 0 ++ [.tok (q * 16) m] ∧ m.kind = 1 ∧ m.node.toNat = (st.engine * 32 + st.port) % 256 ∧
        m.plate = h ∧ m.poison = false ∧ m.pay.toNat = memRead s.sram pa (patSize g.pattern) % 2 ^ 1024) ∧
    (∀ m rest, st.out = true → (s.pressOf q).port18 = m :: rest → m.isSwitch = false → m.poison = false →
      s.union set m.plate = .ok h → s.sramFit (s.partOf ctx) false (patAddr g.pattern st.next) (patSize g.pattern) pa true →
      (∃ k, s.grown (.sram pa) h = .ok k) → s.sram.wf = true →
      ∃ t, exec (.streamAccess q i) s = .next t ∧ tabGet (t.qcc q).g i = some on ∧ (t.pressOf q).port18 = rest ∧
        ∀ x, memByte t.sram x = if pa ≤ x ∧ x < pa + patSize g.pattern
          then BitVec.ofNat 8 (m.pay.toNat / 256 ^ (x - pa)) else memByte s.sram x))

/-- Marks, arming and hand-off (R108 to R111, R265): a mark of an armed timetable is counted and, at the marker's arity, makes its
entries ready; its return emits at the node; arming clears the counts; a ready entry reaches its Barrow and starts. -/
def Obligations.TimetableEventResults : Prop :=
  (∀ (s : State) (idx : Nat) (m : MarkMsg) (t : Timetable), s.marks[idx]? = some m → m.counted = false → s.alive m.ctx = true →
    m.cmd = none → s.timetable m.ctx = some t → t.armed = true → s.reached t m.marker = false →
    let n := tabNum t.counts m.marker + 1
    exec (.markCount idx) s = .next { (s.modTable m.ctx fun u =>
        let u1 := { u with counts := tabPut u.counts m.marker n }
        if n = s.arity m.ctx m.marker then u1.reach m.marker else u1) with
      marks := listMod s.marks idx fun m => { m with counted := true } }) ∧
  (∀ (s : State) (idx pos slotIx node : Nat) (m : MarkMsg) (f : Fire), s.marks[idx]? = some m → m.counted = true →
    m.node = some (pos, slotIx, node) → s.fireAt pos slotIx node = some f → s.alive m.ctx = true →
    exec (.markReturn idx) s = .next (({ s with marks := listDrop s.marks idx } : State).emitAll f m.out)) ∧
  (∀ (s : State) (ctx q id : Nat) (t : Timetable), s.timetable ctx = some t → t.arming = some (q, id) → s.mayIssue ctx = true →
    (∀ d b, (d, b) ∈ s.barrow → ∀ r ∈ b.running, r.ctx ≠ ctx) → (∃ c ∈ (s.qcc q).cmds, c.id = id) →
    ∃ u v, exec (.ttArmReset ctx) s = .next u ∧ u.timetable ctx = some v ∧ v.armed = true ∧ v.counts = [] ∧ v.arming = none ∧
      v.entries = t.entries ∧ (∃ c ∈ (u.qcc q).cmds, c.id = id ∧ c.st = .done 0 0)) ∧
  (∀ (s : State) (idx ctx i : Nat) (t : Timetable) (e : TtEntry), s.handoffs[idx]? = some (ctx, i) → s.timetable ctx = some t →
    t.entries[i]? = some e → s.mayIssue ctx = true →
    exec (.entryHandoff idx) s = .next ((s.modTable ctx fun t => { t with handoff := t.handoff.filter (· != i) }).handEntry ctx i
      e.plots false 16)) ∧
  (∀ (s : State) (die k i : Nat) (r : Running), (s.barrowOf die).startedCount < 16 →
    bestStart s (s.barrowOf die) (s.barrowOf die).running 0 = some (k, i) → (s.barrowOf die).running[i]? = some r →
    ∃ t, exec (.barrowEntryStart die) s = .next t ∧ (t.barrowOf die).running[i]? = some { r with started := true } ∧ r.started = false) ∧
  (∀ (s : State) (die ctx i : Nat) (e : TtEntry), (s.barrowOf die).startedCount < 16 →
    (∀ r ∈ (s.barrowOf die).running, r.started = true) → s.earlyEntry die = some (ctx, i) → s.ttEntry ctx i = some e →
    let s1 := (s.setEntry ctx i .running).handEntry ctx i e.plots false 16
    exec (.earlyFetchStart die) s = .next (s1.startRun die ((s1.barrowOf die).running.length - 1)))

/-- A Barrow moves plots as R112 says: a fetch fills the plot from its source and sets RES, raises GEN and takes the union of what it
read; a resident plot is skipped; an evict copies the plot out and clears RES; pin and drop change their bit, and a pinned plot
is neither evicted nor dropped. -/
def Obligations.BarrowPlotResults : Prop :=
  ∀ (s : State) (die i : Nat) (x : PlotWork),
    let d := s.plot x.n
    (s.plotWork die i .fetch = some (.inl x) → d.res = true → exec (.barrowFetchPlot die i) s = .next (s.nextPlot die i)) ∧
    (∀ (src : Nat) (h : Handle), s.plotWork die i .fetch = some (.inl x) → d.res = false → x.r.parked = none → x.r.failed = none →
      s.sram.wf = true → (∀ k, k < 64 → s.sramFit x.w.part false (x.far + 64 * k) 64 (src * 4096 + 64 * k) false) →
      s.union x.r.handle (s.plot src).handle = .ok h → s.union h (s.plot src).handle = .ok h →
      ∃ t, exec (.barrowFetchPlot die i) s = .next t ∧
        t.plot x.n = { d with res := true, zero := false, handle := h, gen := d.gen + 1 } ∧
        (∀ m, m ≠ x.n → t.plot m = s.plot m) ∧ t.hbm = s.hbm ∧ t.ctl = s.ctl ∧
        ∀ a, memByte t.sram a = if a / 4096 = x.n then memByte s.sram (src * 4096 + a % 4096) else memByte s.sram a) ∧
    (s.plotWork die i .evict = some (.inl x) → x.r.parked = none → (d.res = false ∨ d.pin = true) →
      exec (.barrowEvictPlot die i) s = .next (s.nextPlot die i)) ∧
    (∀ (dst : Nat) (h : Handle), s.plotWork die i .evict = some (.inl x) → d.res = true → d.pin = false → x.r.parked = none →
      x.r.failed = none → s.sram.wf = true → dst ≠ x.n → s.sramFit x.w.part false x.far 4096 (dst * 4096) true →
      s.grown (.sram (dst * 4096)) d.handle = .ok h →
      ∃ t, exec (.barrowEvictPlot die i) s = .next t ∧ t.plot x.n = { d with res := false } ∧ t.hbm = s.hbm ∧ t.ctl = s.ctl ∧
        ∀ a, memByte t.sram a = if a / 4096 = dst then memByte s.sram (x.n * 4096 + a % 4096) else memByte s.sram a) ∧
    (s.plotWork die i .pin = some (.inl x) → x.r.failed = none → ∃ t, exec (.barrowPinPlot die i) s = .next t ∧
      t.plot x.n = { d with pin := !x.e.clr } ∧ (∀ m, m ≠ x.n → t.plot m = s.plot m) ∧ t.sram = s.sram ∧ t.hbm = s.hbm) ∧
    (s.plotWork die i .drop = some (.inl x) → x.r.failed = none → ∃ t, exec (.barrowDropPlot die i) s = .next t ∧
      t.plot x.n = (if d.pin then d else { d with res := false }) ∧ (∀ m, m ≠ x.n → t.plot m = s.plot m) ∧
      t.sram = s.sram ∧ t.hbm = s.hbm)

/-- Configurations (R138, R298): a load that has been read and found sound names its image by a new handle and completes; a drain
notice of the pending switch is counted and any other raises DUPOP; once all have come the shadow becomes the configuration; an
invalidation that nothing waits for is complete. -/
def Obligations.ConfigurationEventResults : Prop :=
  (∀ (s s1 : State) (q ctx : Nat) (x : Ctx) (c : Cmd) (b : Bytes) (im : Image) (g : List (Nat × Handle)),
    (s.qcc q).ctx = some ctx → (s.qcc q).loading = some c → s.ctx? ctx = some x → s.mayIssue ctx = true →
    s.fetchImage { ctx := ctx, part := x.part, quire := q, kind := 3, key := unitKey 7 q c.id, parks := true }
      (fieldOf c.record 0 8) c.got = .done b s1 →
    checkImage b x.part = .inl im → kCfn c.word = 0 → s1.regionGrow q c.set (ctlRegions c.xs.toNat 32) = .inl (some g) →
    s1.errs = [] → (∃ o ∈ (s1.qcc q).cmds, o.id = c.id) →
    ∃ t, exec (.cfgLoadComplete q) s = .next t ∧ tabGet t.images s1.newLoad = some im ∧
      ∃ o ∈ (t.qcc q).cmds, o.id = c.id ∧ o.st = .done 0 (s1.newLoad % 2 ^ 32)) ∧
  (∀ (s : State) (idx ctx pos node : Nat) (c : Ctx), s.drainNotices[idx]? = some (ctx, pos, node) → s.ctx? ctx = some c →
    let s1 : State := { s with drainNotices := listDrop s.drainNotices idx }
    (∀ w, c.switch = some w → w.count < w.nterm → exec (.drainNotice idx) s =
      .next (s1.setCtx ctx { c with switch := some { w with count := w.count + 1 } })) ∧
    (c.switch = none → exec (.drainNotice idx) s =
      .next (s1.fabricFault ctx (s.nodeRec 0x61 ctx pos node 0) (s.logOf c.part pos) node 0))) ∧
  (∀ (s : State) (ctx : Nat) (c : Ctx) (w : SwitchReq) (im : Image), s.ctx? ctx = some c → c.switch = some w →
    tabGet s.images w.image = some im → s.mayIssue ctx = true → w.count = w.nterm → s.switchReady ctx c = true →
    ∃ t, exec (.shadowSwitch ctx) s = .next t ∧
      t.ctx? ctx = some { c with image := w.image, acts := im.acts, shadow := none, switch := none } ∧
      (∀ p, p ∉ s.heldElems c → t.elem p = s.elem p) ∧ t.sram = s.sram ∧ t.hbm = s.hbm) ∧
  (∀ (s : State) (idx : Nat) (v : Inval), s.invals[idx]? = some v → (∀ id ∈ v.waits, s.acc? id = none) →
    exec (.invalidationComplete idx) s = .next { s with invals := listDrop s.invals idx })

/-- Translation (R17, R64 to R67, R72): a walk starts at the root or at a cached table; a table entry leads it on, a leaf ends it with A,
and D for a write, set in memory; the oldest unsent fault record enters the fault channel; a drained folio that is moved takes its
bytes along, and one that is unmapped is gone. -/
def Obligations.TranslationEventResults : Prop :=
  (∀ (s : State) (die idx : Nat) (m : Miss), (s.missesOf die WalkSt.waits)[idx]? = some m → m.st = .pending →
    (s.missesOf die WalkSt.isReading).length < 16 →
    exec (.walkStart die idx) s = .next { s with misses := s.misses.map fun x => if x = m then
      { x with st := (match s.pointer die m.part (m.page * 65536) with
                      | some c => .reading c.level c.base
                      | none => .reading 0 (s.ptroot m.part)), restart := false } else x }) ∧
  (∀ (s : State) (die idx lvl base : Nat) (m : Miss), (s.missesOf die WalkSt.isReading)[idx]? = some m → m.st = .reading lvl base →
    s.stackAwake base = true → m.restart = false → m.accs = [] →
    (∀ b, s.walkRead lvl base m.who.va m.kind = .next b → ∃ t, exec (.walkTableReadDone die idx) s = .next t ∧
      t.misses = s.misses.map (fun x => if x = m then { x with st := .reading (lvl + 1) b } else x) ∧ t.hbm = s.hbm) ∧
    (∀ pte e l, s.walkRead lvl base m.who.va m.kind = .leaf pte e l → bitF e 59 48 = 0 → s.hbm.wf = true →
      ∃ t, exec (.walkTableReadDone die idx) s = .next t ∧ t.misses = s.misses.filter (· ≠ m) ∧
        memRead t.hbm pte 8 = (if m.kind = 0 then e ||| 2 ^ 6 else e ||| 2 ^ 6 ||| 2 ^ 7) ∧
        (∀ a, (a < pte ∨ pte + 8 ≤ a) → memByte t.hbm a = memByte s.hbm a) ∧ t.sram = s.sram) ∧
    (∀ c l e, s.walkRead lvl base m.who.va m.kind = .fault c l e false →
      exec (.walkTableReadDone die idx) s = .next { s with misses := s.misses.filter (· ≠ m) })) ∧
  (∀ (s : State) (part lf q ch k : Nat) (p : Partn) (f : FaultOut), s.part? part = some p →
    p.faults.find? (fun f => !f.sent) = some f → p.fqChan = some (lf, q, ch) → s.quireOfRef part lf q = some k →
    ((s.qcc k).chan ch).length < chanCap ch →
    ∃ t m, exec (.faultChannelMessage part) s = .next t ∧ (t.qcc k).chan ch = (s.qcc k).chan ch ++ [m] ∧
      m.plate = f.plate ∧ laneAt 32 m.pay 0 = bitF f.record.toNat 255 224 ∧
      t.part? part = some { p with faults := p.faults.map fun x => if x.seq = f.seq then { x with sent := true } else x }) ∧
  (∀ (s : State) (part lf : Nat) (p : Partn) (e : MapEntry) (ro : Bool), s.part? part = some p → p.fmap = [(lf, e)] →
    e.st = .moving → p.form = none → s.drainedFolio e.gfolio = true → (∀ q ∈ s.parts, q.2.rank = none) → s.sram.wf = true →
    (e.target = some (none, ro) → ∃ t, exec (.folioMove part lf) s = .next t ∧ t.mapEntry part lf = none ∧ t.sram = s.sram) ∧
    (∀ g, e.target = some (some g, ro) → g ≠ e.gfolio → ∃ t, exec (.folioMove part lf) s = .next t ∧
      t.mapEntry part lf = some { st := .mapped, ro := ro, gfolio := g, target := none } ∧
      ∀ a, memByte t.sram a = if a / 2 ^ 24 = g then memByte s.sram (e.gfolio * 2 ^ 24 + a % 2 ^ 24) else memByte s.sram a))

/-! ### The engines (R303 to R356) -/

/-- A token for a port of an engine that serves its context has been taken from its buffer: port `p`, token `t` of a format that
the port accepts, the rest of the buffer (R179, R234, R305). -/
def Sys2Proof.Machine.State.TakesAt (s : State) (pos port engine lo hi : Nat) (fmts : List Fmt) (served : Option Nat) (p : Nat)
    (t : Token) (rest : List Flit) : Prop :=
  s.enginePort pos port engine lo hi = some (p, t, rest) ∧ served = some t.ctx.toNat ∧ s.alive t.ctx.toNat = true ∧
  t.isSwitch = false ∧ t.poison = false ∧ t.ord = false ∧ fmts.contains t.fmt = true

/-- The port events of the Press (R305 to R309, R312, R315, R318): fill, shift, scale and go tokens enter their tile or FIFO, a drain
token leaves for the stream bound to port o, and a switch strands what is left and takes the shadow's words. -/
def Obligations.PressEventResults : Prop :=
  (∀ (s : State) (pos port p : Nat) (t : Token) (rest : List Flit),
    let q := quireOf pos
    let k := s.pressOf q
    let b : Tile := { reg := p % 8, ctx := t.ctx.toNat, nest := t.nest, fills := if p < 8 then [t] else [], shifts := if p < 8 then [] else [t],
                      kept := false, goSeen := false, poison := none, handle := t.plate }
    let done := fun (k' : Press) u => u = { s with press := u.press, bufs := (s.setBuf pos port 0 rest).bufs } ∧ u.pressOf q = k'
    (s.TakesAt pos port 0 0 15 (pressFmts p) k.ctx p t rest → k.tile (p % 8) t.nest = none → k.tiles.length < 16 →
      k.goFor (p % 8) t.nest = none →
      ∃ u, (if p < 8 then exec (.pressFillToken pos port) s else exec (.pressShiftToken pos port) s) = .next u ∧
        done { k with tiles := k.tiles ++ [b] } u) ∧
    (s.TakesAt pos port 0 16 16 (pressFmts 16) k.ctx p t rest → k.scales.length < 16 → t.colour = 2 →
      ∃ u, exec (.tensorScaleToken pos port) s = .next u ∧ done { k with scales := k.scales ++ [t] } u) ∧
    (s.TakesAt pos port 0 17 17 (pressFmts 17) k.ctx p t rest → k.badGo t = false → k.go.length < 32 →
      ∃ u, exec (.pressGoToken pos port) s = .next u ∧ done { k with go := k.go ++ [t] } u)) ∧
  (∀ (s : State) (q : Nat) (d : Drain) (ds : List Drain) (t t2 : Token) (ts : List Token) (sl : Slot),
    (s.pressOf q).drains = d :: ds → d.toks = t :: t2 :: ts → (s.elem (q * 16 + d.del)).slotFor t.ctx.toNat = some sl →
    entryKind (sl.dest d.didx).1 = 1 → entryNode (sl.dest d.didx).1 = 18 → s.outBound 0 18 q 1 = true →
    (s.pressOf q).port18.length < 2 →
    ∃ u, exec (.pressDrain q) s = .next u ∧ (u.pressOf q).drains = { d with toks := t2 :: ts } :: ds ∧
      (u.pressOf q).port18 = (s.pressOf q).port18 ++ [t] ∧ u = { s with press := u.press }) ∧
  (∀ (s : State) (q ctx : Nat), let k := s.pressOf q
    k.ctx = some ctx → allSwitched k.swIn k.nin = true → k.drains = [] →
    ∃ u, exec (.pressSwitch q) s = .next u ∧ (u.pressOf q).words = k.shadow ∧ (u.pressOf q).tiles = [] ∧ (u.pressOf q).go = [] ∧
      (u.pressOf q).scales = [] ∧ (u.pressOf q).tc = List.replicate 4 Accum.fresh ∧ u.sram = s.sram ∧ u.hbm = s.hbm)

/-- The four Press operations by POP (R310, R314). -/
noncomputable def Sys2Proof.Machine.pressOp : Nat → PressWord → Instr
  | 0, w => .pmma w
  | 1, w => .pmmac w
  | 2, w => .pmmad w
  | _, w => .pdrain w

/-- A Press operation that may enter the array completes (R313 to R315): a product goes into its accumulator, cleared first by `pmma`,
with the union of what it consumed; a drain sends eight tokens of 32 lanes, each lane the accumulator times the tensor scales,
and leaves the accumulator; the other accumulators keep their values. -/
def Obligations.PressOperationResults : Prop :=
  ∀ (s : State) (pop i : Nat) (w : PressWord) (g : Token) (a b : Tile) (h : Handle), pop ≤ 3 →
    let k := s.pressOf s.cur
    let old := if pop = 0 then Accum.fresh else (k.tc[w.tc.toNat]?).getD Accum.fresh
    k.pick = some (i, g) → (k.wordOf g).toNat = pressNum pop w → s.pressReady s.cur = true →
    ((s.graftOf s.cur).pressLast && s.graftReady s.cur) = false → k.tc.length = 4 → old.poison = none →
    (pop ≤ 2 → k.tile w.ta.toNat g.nest = some a ∧ k.tile (4 + w.tb.toNat) g.nest = some b ∧
      s.tileFault s.cur w false a = none ∧ s.tileFault s.cur w true b = none ∧
      s.unionAll old.handle (g.plate :: ((a.fills ++ a.shifts ++ b.fills ++ b.shifts).map (·.plate))) = .ok h) →
    let c : Accum := if pop = 3 then old else { acc := w.product a b old.acc, handle := h, poison := none }
    (pop ≤ 1 → ∃ t, exec (pressOp pop w) s = .next t ∧ (t.pressOf s.cur).tc[w.tc.toNat]? = some c ∧
      (∀ n, n ≠ w.tc.toNat → (t.pressOf s.cur).tc[n]? = k.tc[n]?) ∧ (t.pressOf s.cur).go = listDrop k.go i ∧
      (t.pressOf s.cur).drains = k.drains ∧ t.sram = s.sram ∧ t.hbm = s.hbm ∧ t.ctl = s.ctl ∧ t.elems = s.elems) ∧
    (∀ (j : Nat) (ts : Token) (h2 : Handle), 2 ≤ pop → listFind (fun t => t.nest == g.nest) k.scales 0 = some (j, ts) →
      ts.poison = false → g.nest.toNat % 8 = 0 → s.unionAll c.handle [ts.plate] = .ok h2 →
      let p := decodeLane .fp32 (rne32 (vmul (decodeLane .fp32 (laneAt 32 ts.pay 0)) (decodeLane .fp32 (laneAt 32 ts.pay 1))))
      ∃ t toks, exec (pressOp pop w) s = .next t ∧ (t.pressOf s.cur).tc[w.tc.toNat]? = some { c with handle := h2 } ∧
        (∀ n, n ≠ w.tc.toNat → (t.pressOf s.cur).tc[n]? = k.tc[n]?) ∧ (t.pressOf s.cur).scales = listDrop k.scales j ∧
        (t.pressOf s.cur).drains = k.drains ++ [{ del := w.del.toNat, didx := w.didx.toNat, toks := toks }] ∧ toks.length = 8 ∧
        (∀ m u, toks[m]? = some u → u.nest = g.nest + BitVec.ofNat 48 m ∧ u.plate = h2 ∧ u.poison = false ∧
          u.fmt = fmtOf w.ofmt.toNat ∧ ∀ l, l < 32 → laneAt (fmtWidth (fmtOf w.ofmt.toNat)) u.pay l =
            roundTo (fmtOf w.ofmt.toNat) (vmul (decodeLane .fp32 ((c.acc[32 * m + l]?).getD 0)) p) .rne 0 (w.sat == 1) %
              2 ^ fmtWidth (fmtOf w.ofmt.toNat)) ∧
        t.sram = s.sram ∧ t.hbm = s.hbm ∧ t.ctl = s.ctl ∧ t.elems = s.elems)

/-- The events of the Graft (R321 to R335): tokens enter their buffers, state-in and weight words are read, a ready channel-step gives
its new state vector and y token, a chunk runs on the array, a finished scan completes, and a switch takes the shadow. -/
def Obligations.GraftEventResults : Prop :=
  (∀ (s : State) (pos port p : Nat) (t : Token) (rest : List Flit), let q := quireOf pos
    let k := s.graftOf q
    let ds := k.desc (p / 5)
    s.TakesAt pos port 1 0 19 [.fp32] k.ctx p t rest → t.colour = ds.colour (p % 5) →
    (p % 5 = 0 → ds.chan t < ds.nch → k.uTok (p / 5) (ds.stream t) (ds.chan t) (ds.step t) = none → k.steps.length < 4096 →
      exec (.graftUToken pos port) s = .next ((s.setBuf pos port 0 rest).setGraft q { k with steps := k.steps ++ [(p / 5, t)] })) ∧
    (p % 5 ≠ 0 → k.sharedTok (p / 5) (ds.stream t) (ds.step t) (p % 5) = none → k.sharedUsed.length < 256 →
      exec (.graftSharedToken pos port) s =
        .next ((s.setBuf pos port 0 rest).setGraft q { k with shared := k.shared ++ [(p / 5, p % 5, t)] }))) ∧
  (∀ (s : State) (q ctx i n pa : Nat) (sc : Scan) (h : Handle), let k := s.graftOf q
    let ds := k.desc sc.desc
    let v := sc.svb + n / ds.n
    let old := if n % ds.n = 0 then StateVec.fresh else k.vec v
    k.ctx = some ctx → tabGet k.scans i = some sc → sc.st = .stateIn n → s.engineMay q ctx = true →
    s.sramFit (s.partOf ctx) false ((sc.siva + 4 * n) % 2 ^ 64) 4 pa false →
    s.unionAll old.handle [(s.plot (pa / 4096)).handle] = .ok h →
    ∃ t, exec (.graftStateInDone q i) s = .next t ∧ t.sram = s.sram ∧
      (t.graftOf q).vec v = { old with h := listMod old.h (n % ds.n) fun _ => memRead s.sram pa 4, handle := h } ∧
      tabGet (t.graftOf q).scans i = some { sc with st := if n + 1 = ds.n * ds.nch then .steps else .stateIn (n + 1) }) ∧
  (∀ (s : State) (q ctx i c : Nat) (sc : Scan) (u : Token) (sh : List Token) (h : Handle), let k := s.graftOf q
    let ds := k.desc sc.desc
    let old := k.vec (sc.svb + c)
    let hv := stepState ds.n (k.rowA (ds.chb + c)) old.h u sh
    k.ctx = some ctx → k.readyStep k.steps = some (i, sc, c, u, sh) → s.engineMay q ctx = true → allSwitched k.swIn k.nin = false →
    old.poison = none → (∀ t ∈ u :: sh, t.poison = false) →
    s.unionAll old.handle (u.plate :: (sh.map (·.plate)) ++ [k.wHandle (ds.chb + c)]) = .ok h →
    ∃ t y, exec (.graftStepIssue q) s = .next t ∧ t.sram = s.sram ∧
      (t.graftOf q).vec (sc.svb + c) = { old with h := hv, handle := h } ∧
      (t.graftOf q).yout = k.yout ++ [(i, ds.dest, y)] ∧ y.nest = u.nest ∧ y.plate = h ∧ y.poison = false ∧
      laneAt 32 y.pay 0 = stepY ds.n (tabNum k.d (ds.chb + c)) hv u sh % 2 ^ 32 ∧
      tabGet (t.graftOf q).scans i = some { sc with taken := tabPut sc.taken c (sc.of c + 1) }) ∧
  (∀ (s u : State) (q i d : Nat) (t : Token) (rest : List (Nat × Nat × Token)), (s.graftOf q).yout = (i, d, t) :: rest →
    (s.setGraft q { s.graftOf q with yout := rest }).engineSend (q * 16 + d / 32) t.ctx.toNat (d % 32) t = some u →
    exec (.graftYEmit q) s = .next u) ∧
  (∀ (s s1 : State) (q ctx i k : Nat) (sc : Scan), let g := s.graftOf q
    let ds := g.desc sc.desc
    let steps := (List.range (g.chunkLen sc k)).map fun j => g.stepAt sc (k * ds.chunk + j)
    let shs := steps.map fun t => (g.sharedAll sc.desc sc.stream t).getD []
    g.ctx = some ctx → tabGet g.scans i = some sc → s.engineMay q ctx = true → allSwitched g.swIn g.nin = false →
    (g.pressLast = true ∨ s.pressReady q = false) → g.nextChunk sc = some k →
    s.chunkChans q ctx i k steps (fun t j => chunkM ds.n ((shs[t]?).getD []) ((shs[j]?).getD [])) (List.range ds.nch) = .inl s1 →
    ∃ t, exec (.graftChunk q i) s = .next t ∧ (t.graftOf q).pressLast = false ∧ (t.graftOf q).yout = (s1.graftOf q).yout ∧
      (t.graftOf q).vecs = (s1.graftOf q).vecs ∧
      (tabGet (t.graftOf q).scans i).map (·.chunks) = (tabGet (s1.graftOf q).scans i).map fun x => x.chunks + 1) ∧
  (∀ (s : State) (q ctx i : Nat) (sc : Scan), let k := s.graftOf q
    k.ctx = some ctx → tabGet k.scans i = some sc → s.engineMay q ctx = true → sc.st = .steps →
    allSwitched k.swIn k.nin = false → k.stepsDone i sc = true → (∃ c ∈ (s.qcc q).cmds, c.id = sc.cmd) →
    exec (.graftScanComplete q i) s = .next (if sc.so then s.setScan q i { sc with st := .stateOut 0, status := 0 }
      else (s.setGraft q { k with scans := tabDel k.scans i }).setQcc q { s.qcc q with cmds := (s.qcc q).cmds.map fun c =>
        if c.id = sc.cmd then { c with st := .done 0 (sc.chunks % 2 ^ 32) } else c })) ∧
  (∀ (s : State) (q ctx pa : Nat) (l : WLoad) (h : Handle), let k := s.graftOf q
    let j := l.got.length
    k.ctx = some ctx → k.wload = some l → s.engineMay q ctx = true →
    s.unionAll l.gotH [(s.plot (pa / 4096)).handle] = .ok h →
    (j < l.nw → s.sramFit (s.partOf ctx) false ((l.ava + 4 * (l.nw * l.next + j)) % 2 ^ 64) 4 pa false →
      ∃ t, exec (.wloadChannelDone q) s = .next t ∧
        (t.graftOf q).wload = some { l with got := l.got ++ [memRead s.sram pa 4], gotH := h } ∧ t.sram = s.sram) ∧
    (j = l.nw → l.next + 1 ≠ l.nch → s.sramFit (s.partOf ctx) false ((l.dva + 4 * l.next) % 2 ^ 64) 4 pa false →
      ∃ t, exec (.wloadChannelDone q) s = .next t ∧
        (t.graftOf q).rowA (l.chb + l.next) = l.got ++ List.replicate (64 - l.nw) 0 ∧
        tabGet (t.graftOf q).d (l.chb + l.next) = some (memRead s.sram pa 4) ∧ (t.graftOf q).wHandle (l.chb + l.next) = h ∧
        (t.graftOf q).wload = some { l with next := l.next + 1, got := [], gotH := 0 } ∧ t.sram = s.sram)) ∧
  (∀ (s : State) (q ctx : Nat), let k := s.graftOf q
    k.ctx = some ctx → allSwitched k.swIn k.nin = true → k.scans = [] → k.yout = [] →
    ∃ t, exec (.graftSwitch q) s = .next t ∧ (t.graftOf q).descs = k.shadow ∧ (t.graftOf q).steps = [] ∧
      (t.graftOf q).shared = [] ∧ (t.graftOf q).vecs = [] ∧ t.sram = s.sram)

/-- The events of the Riddle (R337 to R345): a go token or `setx` starts a run, a granule is read into its cursor's buffer, the run whose
turn it is retires up to 16 steps, a finished run sends its count or completes its command, and a switch takes the shadow. -/
def Obligations.RiddleEventResults : Prop :=
  (∀ (s : State) (pos port p : Nat) (t : Token) (rest : List Flit), let f := folioOf pos
    let k := s.riddleOf f
    s.TakesAt pos port 2 0 31 [.bits] k.ctx p t rest → t.colour = 8 → k.go.length < 16 →
    exec (.riddleGoToken pos port) s = .next ((s.setBuf pos port 0 rest).setRiddle f { k with go := k.go ++
      [{ desc := p, tok := some t, cmd := none, ctx := t.ctx.toNat, record := bytesOf 32 t.pay.toNat, set := t.plate }] })) ∧
  (∀ (s : State) (f i : Nat) (g : RiddleGo) (rest : List RiddleGo), let k := s.riddleOf f
    k.go = g :: rest → (List.range 4).find? (fun i => (tabGet k.runs i).isNone) = some i → s.riddleMay f g.ctx = true →
    (g.tok = none ∨ allSwitched k.swIn k.nin = false) →
    exec (.riddleRunStart f) s = .next (s.setRiddle f { k with go := rest, runs := tabPut k.runs i g.run })) ∧
  (∀ (s : State) (f i pa : Nat) (r : Run) (h : Handle) (x y : Bool), let k := s.riddleOf f
    let va := (r.ava + 4 * (r.i + r.abuf.length)) % 2 ^ 64
    let n := min ((64 - va % 64) / 4) (r.alen - (r.i + r.abuf.length))
    tabGet k.runs i = some r → r.finished = false → s.riddleMay f r.ctx = true → r.step (k.form r.desc) = .need x y → x = true →
    r.i + r.abuf.length < r.alen → va % 4 = 0 → s.sramFit (s.partOf r.ctx) false va 4 pa false →
    s.unionAll r.handle [(s.plot (pa / 4096)).handle] = .ok h →
    ∃ t, exec (.riddleGranuleReturn f i 0) s = .next t ∧ t.sram = s.sram ∧
      tabGet (t.riddleOf f).runs i = some { r with abuf := r.abuf ++ wordsOf n (memRead s.sram pa (4 * n)), handle := h }) ∧
  (∀ (s : State) (f i : Nat) (r : Run), let k := s.riddleOf f
    let y := r.steps (k.form r.desc) 16
    tabGet k.runs i = some r → r.finished = false → s.riddleMay f r.ctx = true → r.outp = [] → r.pieceFull = false → k.pick = some i →
    ∃ t, exec (.riddleLoopStep f i) s = .next t ∧ (t.riddleOf f).turn = i ∧ t.sram = s.sram ∧
      tabGet (t.riddleOf f).runs i = some (match y.2 with
        | .exit => { y.1 with finished := true }
        | .order => { y.1 with finished := true, fail := some (0xB0, 0), outp := [], piece := [] }
        | _ => y.1)) ∧
  (∀ (s : State) (f i : Nat) (r : Run), let k := s.riddleOf f
    tabGet k.runs i = some r → r.finished = true → s.riddleMay f r.ctx = true → r.outp = [] → r.piece = [] →
    (∀ q id, r.tok = none → r.cmd = some (q, id) → exec (.riddleResult f i) s =
      .next ((s.setRiddle f { k with runs := tabDel k.runs i }).cmdDone q id (match r.fail with | some (c, _) => c | none => 0) r.n)) ∧
    (∀ t u, r.tok = some t →
      (s.setRiddle f { k with runs := tabDel k.runs i, sent := tabAdd k.sent (k.dest r.desc) 1 }).engineSend
        (f * 64 + k.dest r.desc / 32) r.ctx (k.dest r.desc % 32) (s.riddleToken f r t) = some u →
      exec (.riddleResult f i) s = .next u)) ∧
  (∀ (s : State) (f ctx : Nat), let k := s.riddleOf f
    k.ctx = some ctx → allSwitched k.swIn k.nin = true → k.runs = [] → k.descs = [] →
    ∃ t, exec (.riddleSwitch f) s = .next t ∧ (t.riddleOf f).descs = k.shadow ∧
      (t.riddleOf f).go = k.go.filter (·.tok.isNone) ∧ t.sram = s.sram)

/-- The events of the Pruner and the commit unit (R346 to R355): the oldest step begins, a logit joins the K best, a winner's four words are
written, lists of a group merge at its leader, a winner, a resent list and a withdrawal do what R351 and R352 say, and a commit
takes a slot and delivers its tokens. -/
def Obligations.PrunerEventResults : Prop :=
  (∀ (s : State) (d i : Nat) (p : PStep), let l := (s.prunerOf d).steps
    listFind (fun p => !p.commit && p.st == .queued) l 0 = some (i, p) → (∀ q ∈ l, q.isIntake = false) → s.mayIssue p.ctx = true →
    exec (.prunerStepDispatch d) s = .next (s.setPruner d { s.prunerOf d with
      steps := listMod l i fun p => { p with st := .intake 0, handle := p.set } })) ∧
  (∀ (s : State) (d i pos pa : Nat) (p : PStep) (h : Handle), let size := if p.bf16 then 2 else 4
    let v := memRead s.sram pa size
    listFind (·.isIntake) (s.prunerOf d).steps 0 = some (i, p) → s.mayIssue p.ctx = true → p.st = .intake pos → pos + 1 = p.v →
    s.sramFit (s.partOf p.ctx) false ((fieldOf p.record 0 8 + size * pos) % 2 ^ 64) size pa false →
    s.unionAll p.handle [(s.plot (pa / 4096)).handle] = .ok h →
    ∃ t, exec (.prunerIntake d) s = .next t ∧ t.sram = s.sram ∧ (t.prunerOf d).steps[i]? = some { p with
      list := mergeCands p.k p.list [((p.ibase + pos) % 2 ^ 32, v, if p.bf16 then v * 2 ^ 16 else v)], handle := h, st := .final }) ∧
  (∀ (s : State) (d i pa : Nat) (p : PStep) (h : Handle), let w := winnerOf (stepParams p.record) p.list p.handle
    listFind (·.isFinal) (s.prunerOf d).steps 0 = some (i, p) → s.mayIssue p.ctx = true → p.st = .final → p.grp = 0xFF → p.mode ≠ 2 →
    s.sram.wf = true → pa % 4096 ≤ 4080 →
    (∀ k, k < 4 → s.sramFit (s.partOf p.ctx) false ((p.rva + 4 * k) % 2 ^ 64) 4 (pa + 4 * k) true) →
    s.union p.handle (s.plot (pa / 4096)).handle = .ok h → s.union p.handle h = .ok h →
    ∃ t, exec (.prunerListFinal d) s = .next t ∧ (t.prunerOf d).steps = listDrop (s.prunerOf d).steps i ∧
      memRead t.sram pa 4 = w.index % 2 ^ 32 ∧ memRead t.sram (pa + 4) 4 = w.bits % 2 ^ 32 ∧
      memRead t.sram (pa + 8) 4 = w.j % 2 ^ 32 ∧ memRead t.sram (pa + 12) 4 = w.status % 2 ^ 32 ∧
      ∀ a, (a < pa ∨ pa + 16 ≤ a) → memByte t.sram a = memByte s.sram a) ∧
  (∀ (s : State) (d idx gid seq : Nat) (src : Nat × Nat) (params : Bytes) (cands : List Cand) (h : Handle) (g : Group),
    let p := s.prunerOf d
    p.inbox[idx]? = some (.list gid seq src params cands 0 h) → tabGet p.groups gid = some g → g.members.contains src = true →
    g.winners.find? (fun w => w.seq == seq) = none → p.merges.find? (fun m => m.gid == gid && m.seq == seq) = none →
    (∃ x ∈ g.members, x ≠ src) →
    exec (.prunerListMerge d idx) s = .next (s.setPruner d { p with
      inbox := listDrop p.inbox idx
      merges := p.merges ++ [{ gid := gid, seq := seq, from' := [src], params := params,
                               list := mergeCands (paramK params) [] cands, handle := h, code := 0 }] })) ∧
  (∀ (s : State) (d idx gid i : Nat) (w : Winner) (q : PStep), let p := s.prunerOf d
    p.inbox[idx]? = some (.winner gid w) → w.want = 0 → w.code ≠ 0 →
    listFind (fun q => !q.commit && q.grp == gid && q.seq == w.seq && (match q.st with | .sent _ => true | _ => false)) p.steps 0
      = some (i, q) → s.mayIssue q.ctx = true →
    exec (.prunerWinnerArrival d idx) s = .next ((s.setPruner d { p with
      inbox := listDrop p.inbox idx, steps := listDrop p.steps i }).cmdDone q.quire q.cmd w.code 0)) ∧
  (∀ (s : State) (d idx tk e : Nat) (p : PStep) (g : Group) (r : List (Nat × Nat)), (s.prunerOf d).steps[idx]? = some p →
    p.st = .sent tk → s.mayIssue p.ctx = true → s.cyclesSince d tk ≥ 65536 → tabGet (s.prunerOf d).groups p.grp = some g →
    g.members = (s.accel, e) :: r →
    ∃ t, exec (.prunerResend d idx) s = .next t ∧
      (t.prunerOf e).inbox = (s.prunerOf e).inbox ++ [.list p.grp p.seq (s.accel, d) (stepParams p.record) p.list 0 p.handle] ∧
      (t.prunerOf d).steps[idx]? = some { p with st := .sent s.tick }) ∧
  (∀ (s : State) (d idx gid seq : Nat) (src : Nat × Nat) (g : Group), let p := s.prunerOf d
    p.inbox[idx]? = some (.withdraw gid seq src) → tabGet p.groups gid = some g → g.members.contains src = false →
    exec (.prunerWithdrawal d idx) s = .next (s.setPruner d { p with
      inbox := listDrop p.inbox idx, groups := tabPut p.groups gid { g with stray := g.stray + 1 } })) ∧
  (∀ (s : State) (d i slot : Nat) (q : PStep), let p := s.prunerOf d
    listFind (·.commit) p.steps 0 = some (i, q) → (List.range 64).find? (fun i => (tabGet p.commits i).isNone) = some slot →
    s.mayIssue q.ctx = true → s.commitOn (s.partOf q.ctx) (fieldOf q.record 0 8) = false →
    exec (.commitStart d) s = .next (s.setPruner d { p with
      steps := listDrop p.steps i, commits := tabPut p.commits slot q.commitOf })) ∧
  (∀ (s s1 : State) (d slot : Nat) (c : Commit), tabGet (s.prunerOf d).commits slot = some c → s.mayIssue c.ctx = true →
    c.st = .delivering → c.q ≤ accepted c.drafts c.toks → c.state = 0 → c.pos ≠ c.maxlen →
    s.deliver (s.homeVf c.ctx) c.dq c.token = .ok s1 →
    ∃ t, exec (.commitDeliver d slot) s = .next t ∧ tabGet (t.prunerOf d).commits slot = some { c with
      pos := c.pos + 1, delivered := c.delivered + 1, q := c.q + 1,
      state := if c.stopid ≠ 2 ^ 32 - 1 ∧ c.toks[c.q]? = some c.stopid then 1 else 0 })

/-! ### Plates, the Clasp and the event queues (R76 to R102, R417) -/

/-- The union unit, the sweep, the policy check and the event queue (R87 to R89, R93, R98 to R100, R417): a union without a handle
takes the lowest free one or waits with a message PLATEFULL, a handle that has become free serves the oldest waiting union, a sweep
frees the candidates that nothing holds and writes its record, a submission is installed in the lowest free policy slot or refused
with its status, and the oldest record of a function is written to its event queue. -/
def Obligations.PlateAndEventQueueResults : Prop :=
  (∀ (s : State) (idx : Nat) (u : UnionReq), s.unions[idx]? = some u → u.waiting = false → u.failed = false →
    handleIn s.sets u.plates = none →
    (∀ h, s.freeHandle = some h → s.waitingUnions = 0 → exec (.plateUnionSpine idx) s = .next { s with
        unions := listDrop s.unions idx, sets := tabPut s.sets h { plates := u.plates, mark := s.sweep.isSome } } ∧
      (s.sets.Pairwise (fun a b => a.1 < b.1) →
        0x200 ≤ h ∧ h < 0x1000 ∧ tabGet s.sets h = none ∧ ∀ k, 0x200 ≤ k → k < h → tabGet s.sets k ≠ none)) ∧
    (s.freeHandle = none → s.waitingUnions < 256 → ∃ m, exec (.plateUnionSpine idx) s = .next { s with
        unions := listDrop s.unions idx ++ [{ u with waiting := true }], plateOut := s.plateOut ++ [m] } ∧
      m.part = u.part ∧ m.ctx = u.ctx ∧ m.code = 0x41 ∧ m.ha = u.ha ∧ m.hb = u.hb)) ∧
  (∀ (s : State) (i h : Nat) (u : UnionReq), listFind (fun u : UnionReq => u.waiting && !u.failed) s.unions 0 = some (i, u) →
    s.freeHandle = some h → handleIn s.sets u.plates = none → exec .plateUnionWaitServed s = .next { s with
      unions := listDrop s.unions i, sets := tabPut s.sets h { plates := u.plates, mark := s.sweep.isSome } }) ∧
  (∀ (s : State) (w : Sweep) (c : Cmd) (ctx : Nat) (g : List (Nat × Handle)), s.sweep = some w →
    let q := w.cmd.1
    let a := q * 65536 + c.xs.toNat
    let marked := s.sets.map fun p => (p.1, if s.heldHandles.contains (BitVec.ofNat 12 p.1) then { p.2 with mark := true } else p.2)
    let freed := (marked.filter fun p => w.cands.contains p.1 && !p.2.mark && s.refCount (BitVec.ofNat 12 p.1) == 0).map (·.1)
    (s.qcc q).cmds.find? (fun c => c.id == w.cmd.2) = some c → (s.qcc q).ctx = some ctx → s.errs = [] → s.ctl.wf = true →
    s.unions = [] → ({ s with sets := marked.filter fun p => !freed.contains p.1 } : State).regionGrow q c.set
      (ctlRegions c.xs.toNat 32) = .inl (some g) →
    ∃ t, exec .sweepMarkPassDone s = .next t ∧ t.sweep = none ∧ t.sets = marked.filter (fun p => !freed.contains p.1) ∧
      memRead t.ctl (a + 16) 4 = freed.length % 2 ^ 32 ∧ memRead t.ctl (a + 20) 4 = w.cands.length % 2 ^ 32 ∧
      memRead t.ctl (a + 26) 2 = 0 ∧ memRead t.ctl (a + 28) 1 % 2 = 1 ∧ t.sram = s.sram ∧ t.hbm = s.hbm ∧
      (∃ o ∈ (t.qcc q).cmds, o.id = c.id ∧ o.st = .done 0 (freed.length % 2 ^ 32))) ∧
  (∀ (s : State) (w : Submission) (r : List Submission), s.submissions = w :: r →
    let b := w.bytes
    let pl := ((policyPlates b).take (fieldOf b 0x20 1)).map (·.1)
    let slot := freeFrom s.policies 0
    (s.bodyStatus b w.length ≠ 0 → exec .policyCheckDone s =
      .next (({ s with submissions := r } : State).cmdDone w.cmd.1 w.cmd.2 (s.bodyStatus b w.length) 0)) ∧
    (∀ h, s.bodyStatus b w.length = 0 → fieldOf b 0x21 1 ≠ 2 → slot < 256 → s.handleOf pl = some h →
      (∃ c ∈ (s.qcc w.cmd.1).cmds, c.id = w.cmd.2) →
      ∃ t, exec .policyCheckDone s = .next t ∧ t.submissions = r ∧ t.sram = s.sram ∧ t.hbm = s.hbm ∧ t.ctl = s.ctl ∧
        (∀ i, s.badSig b 0 pl = some i → t.policies = s.policies ∧ t.plates = s.plates ∧
          ∃ c ∈ (t.qcc w.cmd.1).cmds, c.id = w.cmd.2 ∧ c.st = .done 4 (i % 2 ^ 32)) ∧
        (s.badSig b 0 pl = none →
          tabGet t.policies slot = some { handle := h, dest := fieldOf b 0x24 4, limkind := fieldOf b 0x21 1, limit := fieldOf b 0x28 8 } ∧
          t.plates = s.plates.map (fun p => (p.1, if pl.contains p.1 then { p.2 with pctr := p.2.pctr + 1 } else p.2)) ∧
          ∃ c ∈ (t.qcc w.cmd.1).cmds, c.id = w.cmd.2 ∧ c.st = .done 0 (slot % 2 ^ 32)))) ∧
  (∀ (s : State) (vf : Nat) (e : EventRec) (r : List EventRec), let v := s.vf vf
    let c := v.event
    v.events = e :: r → c.en = true → c.full = false → s.eventsOut = [] →
    ∃ t, exec (.eventRecordWrite vf) s = .next t ∧ t.vf vf = { v with events := r, event := { c with seq := c.seq + 1 } } ∧
      t.pcie = s.pcie ++ [.write (c.base + 32 * (c.seq.toNat % 2 ^ c.log2n)) (bytesOf 32 e.record.toNat),
        .write c.pidxa (bytesOf 8 ((c.seq.toNat + 1) % 2 ^ 32))] ++ (if c.irq then [.msix vf 255] else []))

/-! ### Launches (R357 to R365) -/

/-- A record written to a launch window or issued by a context enters its partition's launch channel with its priority clamped; the
dispatcher gives it the lowest free context number and sends it to the die of logical folio 0; it enters that die's queue; placement
makes the context, or its head waits and after 65,536 cyc blocks those behind it; and other dies reserve for it (R357 to R365).
The order of the checks of a launch record is a choice of the model (notes/assumptions/29.md), and so is the handling of elapsed time (notes/assumptions/2.md). -/
def Obligations.LaunchResults : Prop :=
  (∀ (s : State) (vf off p : Nat) (data : Bytes) (x : Partn), (vf < 384 ∨ vf = pfNum) → off < 4096 →
    (∀ r ∈ s.hostReqs, r.vf ≠ vf ∨ r.write = false) → (s.vf vf).part = some p → s.part? p = some x →
    (data.length ≠ 64 ∨ off % 64 ≠ 0 → exec (.launchWindowWrite vf off data) s = .next (s.vfCount vf 39 32 0)) ∧
    (data.length = 64 → off % 64 = 0 → x.launches.length < 256 →
      ∃ l : Launch, exec (.launchWindowWrite vf off data) s = .next (s.setPart p { x with launches := x.launches ++ [l] }) ∧
        l.part = p ∧ l.parent = none ∧ l.homevf = vf ∧ l.plate = s.ingress (destVf vf) ∧ l.hyp = (vf == pfNum) ∧
        (fieldOf data 1 1 ≤ 7 → l.prio = min (fieldOf data 1 1) (s.vf vf).maxPrio)) ∧
    (data.length = 64 → off % 64 = 0 → x.launches.length = 256 → fieldOf data 2 1 = 255 →
      exec (.launchWindowWrite vf off data) s = .next (s.vfCount vf 31 24 0xC5))) ∧
  (∀ (s : State) (idx c : Nat) (l : Launch) (x : Partn) (y : Ctx), s.toSpine[idx]? = some l →
    (∀ o ∈ s.toSpine.take idx, o.part ≠ l.part) → s.part? l.part = some x → x.launches.length < 256 → l.parent = some c →
    s.ctx? c = some y →
    ∃ m : Launch, exec (.launchChannelEntry idx) s = .next { (s.setPart l.part { x with launches := x.launches ++ [m] }) with
        toSpine := listDrop s.toSpine idx } ∧ m.part = l.part ∧ m.parent = some c ∧ m.homevf = l.homevf ∧ m.plate = l.plate ∧
      (fieldOf l.bytes 1 1 ≤ 7 → m.prio = min (fieldOf l.bytes 1 1) y.prio)) ∧
  (∀ (s : State), (∀ q p, s.part? q = some p → p.launches = []) → exec .dispatcherCycle s = .next s) ∧
  (∀ (s : State) (q c : Nat) (p : Partn) (l : Launch) (e : MapEntry), s.parts = [(q, p)] → q < 32 → p.launches = [l] →
    p.status = 1 → l.prio ≤ 7 → l.format = 1 → s.launchCheck p l = 0 → tabGet p.fmap 0 = some e →
    s.dieCredit (e.gfolio / 16) ≠ 0 → s.freeNumber p = some c →
    let prio := if p.susp then 0 else l.prio
    exec .dispatcherCycle s = .next { s with
      parts := [(q, { p with launches := [] })], batches := s.batches ++ [(e.gfolio / 16, { l with ctx := c, prio := prio })],
      lastServed := tabPut s.lastServed prio q }) ∧
  (∀ (s : State) (idx d : Nat) (l : Launch), s.batches[idx]? = some (d, l) → (∀ b ∈ s.batches.take idx, b.1 ≠ d) →
    (s.dieAt d).queue.length < 64 → exec (.dieBatchArrival idx) s =
      .next { (s.setDie d { s.dieAt d with queue := (s.dieAt d).queue ++ [l] }) with batches := listDrop s.batches idx }) ∧
  (∀ (s : State) (die h : Nat) (l : Launch) (r : List Launch) (im : Image), s.reservationsAt die = [] →
    (s.dieAt die).queue = l :: r → l.resume = false → (l.image = some h ∨ (l.image = none ∧ l.lhandle = h ∧ h ≠ noWord)) →
    tabGet s.images h = some im →
    (∀ t, s.fits l.ctx l.part im (fun d => d == die || !(l.dies.getD []).contains d) = .fit →
      (∀ d ∈ s.imageDies l.part im, d = die) → (s.dropEntry die 0).place die l h im = some t →
      exec (.placement die) s = .next t ∧ ∃ c, t.ctx? l.ctx = some c ∧ c.part = l.part ∧ c.image = h ∧ c.parent = l.parent ∧
        c.homevf = l.homevf ∧ c.prio = l.prio ∧ c.nfolio = im.nfolio ∧ c.acts = im.acts ∧ c.tear = .alive ∧ c.gated = false) ∧
    (s.fits l.ctx l.part im (fun d => d == die || !(l.dies.getD []).contains d) = .wait → l.dies = none → r = [] →
      exec (.placement die) s = .next (s.setDie die { s.dieAt die with
        headWait := some (((s.dieAt die).headWait).getD s.tick) })) ∧
    (s.fits l.ctx l.part im (fun d => d == die || !(l.dies.getD []).contains d) = .never →
      exec (.placement die) s = .next ((s.dropEntry die 0).launchReply l 0xC3 0 0))) ∧
  (∀ (s : State) (die t : Nat), (s.dieAt die).headWait = some t → s.cyclesSince die t ≥ 65536 → (s.dieAt die).blocked = false →
    exec (.headWaitExpiry die) s = .next (s.setDie die { s.dieAt die with blocked := true })) ∧
  (∀ (s : State) (die idx home i h : Nat) (l : Launch) (im : Image), (s.reservationsAt die)[idx]? = some (home, i, l) →
    l.image = some h → tabGet s.images h = some im →
    exec (.remoteReservation die idx) s = .next (s.modEntry home i fun x => { x with
      dies := if s.fits l.ctx l.part im (· == die) = .fit then x.dies.map (· ++ [die]) else none }))

/-! ### Tear-down, traps, saves, restores, retirement and turns (R141 to R144, R368 to R409) -/

/-- The tear-down and the records of faults (R370, R371, R378, R382): the first phase discards and counts what a context holds and
cancels its launches, the release frees its units and sends its record, a trap message enters channel 15 of the trap core, and a
die's record goes to the physical function. -/
def Obligations.TearDownAndRecordResults : Prop :=
  (∀ (s : State) (ctx : Nat) (c : Ctx), s.ctx? ctx = some c → c.tear = .tearing → c.save = none →
    ∃ t d, exec (.tearDown ctx) s = .next t ∧ t.ctx? ctx = some d ∧ d.tear = .tearing ∧ d.ending = c.ending ∧
      d.discard = c.discard + s.countOf ctx ∧ d.cancel = c.cancel + (s.unplaced ctx).length ∧
      (∀ m ∈ t.msgs, m.tok.ctx.toNat ≠ ctx) ∧ (∀ m ∈ t.trapOut, m.ctx ≠ ctx) ∧ (∀ m ∈ t.marks, m.ctx ≠ ctx) ∧
      (∀ l ∈ t.toSpine, l.parent ≠ some ctx ∨ l.resume = true) ∧ (∀ x ∈ t.deliveries, x.report = true ∨ x.ctx ≠ ctx) ∧
      t.sram = s.sram ∧ t.hbm = s.hbm ∧ t.ctl = s.ctl) ∧
  (∀ (s : State) (ctx : Nat) (c : Ctx), s.ctx? ctx = some c → c.tear = .tearing → c.save = none → s.quiet ctx = true →
    ∃ t, exec (.tearDownRelease ctx) s = .next t ∧ (∀ q ∈ t.qccs, q.2.ctx ≠ some ctx) ∧ (∀ q ∈ t.press, q.2.ctx ≠ some ctx) ∧
      (∀ q ∈ t.graft, q.2.ctx ≠ some ctx) ∧ (∀ q ∈ t.riddle, q.2.ctx ≠ some ctx) ∧ t.sram = s.sram ∧ t.hbm = s.hbm ∧ t.ctl = s.ctl ∧
      (c.dq = 255 → t.ctxs = tabDel s.ctxs ctx ∧ t.deliveries = s.deliveries) ∧
      (c.dq ≠ 255 → t.ctx? ctx = some { c with tear := .reporting } ∧ ∃ d, t.deliveries = s.deliveries ++ [d] ∧ d.vf = c.homevf ∧
        d.queue = c.dq ∧ d.report = true ∧ d.tok.pay.toNat = (c.record ctx).toNat ∧
        d.tok.plate = (if c.ending.kind = 1 then c.ending.plate else 0))) ∧
  (∀ (s : State) (idx q : Nat) (m : TrapMsg), s.trapOut[idx]? = some m →
    (∀ o ∈ s.trapOut.take idx, o.ctx ≠ m.ctx ∨ o.spos ≠ m.spos ∨ o.snode ≠ m.snode) → s.alive m.ctx = true →
    s.trapQcc m.ctx = some q → s.awake (q / 4) = true → (s.qcc q).mergeAt m = none → ((s.qcc q).chan 15).length < chanCap 15 →
    ∃ t, exec (.trapChannelMessage idx) s = .next t ∧ t = { s with qccs := t.qccs, trapOut := listDrop s.trapOut idx } ∧
      (t.qcc q).chan 15 = (s.qcc q).chan 15 ++ [{ trapToken m with kind := 2, node := 15 }]) ∧
  (∀ (s : State) (idx die : Nat) (e : EventRec), s.softErrors[idx]? = some (die, e) → (∀ o ∈ s.softErrors.take idx, o.1 ≠ die) →
    (s.vf pfNum).events.length < 65536 → bitF e.record.toNat 255 248 ≠ 1 →
    exec (.softErrorRecord idx) s = .next { (s.setVf pfNum { s.vf pfNum with events := (s.vf pfNum).events ++ [e] }) with
      softErrors := listDrop s.softErrors idx })

/-- Saves, stops, restores, retirement, turns and periods (R141, R384, R385, R389, R391, R401, R403 to R406): a settled context
leaves for its save area or ends with SAVERR, the stop sequence writes its report and STATUS = 2, a kill that no yield has taken
becomes a save, a restored context is live again, a retired unit ends its users and leaves every map, and a slice or period ends.
The places within a save area are a choice of the model (notes/assumptions/32.md). -/
def Obligations.SaveRestoreAndRetirementResults : Prop :=
  (∀ (s : State) (ctx : Nat) (c : Ctx) (r : SaveReq), s.ctx? ctx = some c → c.save = some r → c.tear = .alive → c.gated = true →
    r.kill = false → s.settled ctx c = true → s.zeroLeft c = false →
    let v := s.savedOf ctx c
    let pieces := areaPieces ctx c v.killed (s.strict ctx) (s.sections ctx c v)
    let size := (pieces.map fun p => p.1.length).sum
    (size > r.length → exec (.settleComplete ctx) s = .next
      (((s.setCtx ctx { c with save := none }).cmdDone r.cmd.1 r.cmd.2 0xD0 0).beginEnd ctx 5 0xD0 0 0)) ∧
    (size ≤ r.length → match s.writeArea (s.saveWho r.cmd.1 r.cmd.2) r.va (cutWords (cutSteps pieces) [] [] pieces) with
      | .ok _ s1 => ∃ t w, exec (.settleComplete ctx) s = .next t ∧ t.ctxs = tabDel s1.ctxs ctx ∧ t.sram = s1.sram ∧
          t.hbm = s1.hbm ∧ w ∈ t.saves ∧ w.ctx = ctx ∧ w.va = r.va ∧ w.context = v.context ∧ (∀ q ∈ t.qccs, q.2.ctx ≠ some ctx)
      | .fail _ s1 => exec (.settleComplete ctx) s = .next
          (((s1.setCtx ctx { c with save := none }).cmdDone r.cmd.1 r.cmd.2 0xD0 0).beginEnd ctx 5 0xD0 0 0)
      | .wait s1 => exec (.settleComplete ctx) s = .next s1)) ∧
  (∀ (s : State) (part : Nat) (p : Partn) (r : SaveReq), s.part? part = some p → p.stop = some r →
    (p.status ≠ 2 ∨ s.stopSettled part = true) →
    ∃ t l, exec (.stopSequence part) s = .next t ∧
      t.part? part = some { p with stop := none, status := if p.status = 2 then 3 else p.status } ∧
      t.pcie = s.pcie ++ l ++ [.write r.statusAddr (bytesOf 8 (stopWord 2 (decide ((s.dirty part).length > r.reportLen)) p.stopseq
        l.length))] ∧ l.length = min (s.dirty part).length r.reportLen ∧
      (∀ i e, (s.dirty part)[i]? = some e → i < r.reportLen → l[i]? = some (.write (r.reportAddr + 8 * i) (bytesOf 8 e)))) ∧
  (∀ (s : State) (ctx : Nat) (c : Ctx) (r : SaveReq), s.ctx? ctx = some c → c.save = some r → c.tear = .alive → r.kill = true →
    r.taken = [] → s.cyclesSince (s.homeDie ctx) r.since ≥ 65536 → exec (.killTimeout ctx) s = .next
      ((s.stopBegin c.part r).setCtx ctx { c with gated := true, save := some { r with kill := false, lane1 := 0xD4 } })) ∧
  (∀ (s s1 : State) (idx die i q id : Nat) (l : Launch) (b : Bytes), s.resumes[idx]? = some (die, i, l) → l.cmd = some (q, id) →
    s.fetchArea (s.saveWho q id) l.imgva l.got = .done b s1 →
    (s1.savedIn l.part b = none → exec (.rebinderRestore idx) s = .next ((s1.dropEntry die i).restoreFail l none 0xD1)) ∧
    (∀ v im s2, s1.savedIn l.part b = some (v, im) → s1.numbersUsed.contains v.ctx = false →
      assignFolios l.part v l.named (fun s => s.takes v im) (List.range v.context.nfolio) (s1.dropEntry die i) = some s2 →
      v.killed = false → v.accs = [] →
      ∃ t c, exec (.rebinderRestore idx) s = .next t ∧ t.ctx? v.ctx = some c ∧
        c = { v.context with sliced := c.sliced, gated := s2.partStatus l.part != 1 })) ∧
  (∀ (s : State) (kind unit : Nat), unit < retCount kind → s.retired.contains (retUnit kind unit) = false →
    s.retires kind unit = true →
    ∃ t, exec (.retirement kind unit) s = .next t ∧ t.sram = s.sram ∧ t.hbm = s.hbm ∧ t.replaceSeq = s.replaceSeq + 1 ∧
      (∀ u, u ∈ t.retired ↔ u ∈ s.retired ∨ u ∈ retUnit kind unit :: retAlso kind unit) ∧
      (kind = 2 → ∀ q p, t.part? q = some p → ∀ e ∈ p.fmap, e.2.gfolio ≠ unit) ∧
      (kind = 0 → ∀ c x, s.ctx? c = some x → x.tear = .alive → s.usesElem c x unit = true →
        ∃ y, t.ctx? c = some y ∧ y.tear = .tearing ∧ y.ending.kind = 5 ∧ y.ending.code = 0xE0)) ∧
  (∀ (s : State) (part v : Nat) (p : Partn), s.part? part = some p →
    let live := s.liveVfs part
    nextVf p.turn live = some v →
    (live.contains p.turn = false ∨ s.cyclesSince p.homeDie p.turnAt ≥ s.turnLength p.turn) →
    ∃ t, exec (.sliceEnd part) s = .next t ∧ t.part? part = some { p with turn := v, turnAt := s.tick } ∧
      ∀ c x, s.ctx? c = some x → t.ctx? c = some (if x.part = part then
        { x with sliced := decide (live.length > 1) && live.contains x.homevf && x.homevf != v } else x)) ∧
  (∀ (s : State) (die : Nat), let d := s.dieAt die
    s.counter die / 2 ^ 20 ≠ d.period →
    ∃ t, exec (.energyPeriodEnd die) s = .next t ∧ t = { s with dies := t.dies, status := t.status } ∧
      t.dieAt die = { d with period := s.counter die / 2 ^ 20, lastEnergy := d.energy, lastIssues := d.issues, energy := [], issues := [] })

/-! ### The host, the link and the debug port (R94, R411 to R421) -/

/-- An access of the host to its function's aperture, of one piece of `n` bytes that stands in SRAM at `pa`. -/
def Sys2Proof.Machine.State.hostFit (s : State) (vf off n p pa : Nat) (modifies : Bool) : Prop :=
  vf < 384 ∧ n ∈ [1, 2, 4, 8, 16, 32, 64] ∧ off % n = 0 ∧ off + n ≤ 2 ^ 36 ∧ (s.vf vf).part = some p ∧ s.hostReqs = [] ∧
  s.hostDie p ≠ none ∧ (s.vf vf).apbase % 2 ^ 36 = 0 ∧ s.sramFit p false ((s.vf vf).apbase + off) n pa modifies

/-- What the host does (R94, R413 to R418, R476): an aperture read answers with the bytes at its address past the Clasp, or with ones
and poison; an aperture write changes those bytes; a delivery writes its entry and its index; queue, status and register writes
change their fields; and a completion or its timeout answers the request of its tag.
The order in which a request of the host is worked off is a choice of the model (notes/assumptions/37.md). -/
def Obligations.HostAccessResults : Prop :=
  (∀ (s : State) (vf off n tag : Nat), vf < 384 → 0 < n → off + n ≤ 2 ^ 36 → (s.vf vf).part = none →
    exec (.hostApertureRead vf off n tag) s =
      .next { s with pcie := s.pcie ++ [.completion tag (List.replicate n 0xFF) false] }) ∧
  (∀ (s : State) (vf off n tag p pa : Nat), s.hostFit vf off n p pa false →
    let h := (s.plot (pa / 4096)).handle
    ∃ t, exec (.hostApertureRead vf off n tag) s = .next t ∧ t.sram = s.sram ∧ t.hbm = s.hbm ∧ t.hostReqs = [] ∧
      t.pcie = s.pcie ++ [if (s.clasp h (destVf vf) n).1 = true then .completion tag (bytesOf n (memRead s.sram pa n)) false
        else .completion tag (List.replicate n 0xFF) true]) ∧
  (∀ (s : State) (vf off p pa : Nat) (data : Bytes) (g : Handle), s.hostFit vf off data.length p pa true → s.sram.wf = true →
    s.grown (.sram pa) (s.ingress (destVf vf)) = .ok g →
    ∃ t, exec (.hostApertureWrite vf off data) s = .next t ∧ t.hbm = s.hbm ∧ t.ctl = s.ctl ∧ t.pcie = s.pcie ∧ t.hostReqs = [] ∧
      (t.plot (pa / 4096)).handle = g ∧
      ∀ x, memByte t.sram x = if pa ≤ x ∧ x < pa + data.length then (data[x - pa]?).getD 0 else memByte s.sram x) ∧
  (∀ (s : State) (idx : Nat) (d : Delivery), s.deliveries[idx]? = some d →
    (∀ o ∈ s.deliveries.take idx, o.vf ≠ d.vf ∨ o.queue ≠ d.queue) → s.alive d.ctx = true → d.report = false →
    let c := (s.vf d.vf).queue d.queue
    (c.en = false → exec (.deliveryWrite idx) s =
      .next { (s.vfCount d.vf 15 8 0) with deliveries := listDrop s.deliveries idx }) ∧
    (c.en = true → c.full = false → d.tok.poison = false → (s.clasp d.tok.plate (destVf d.vf) d.tok.bytes).1 = true →
      ∃ t, exec (.deliveryWrite idx) s = .next t ∧ t.deliveries = listDrop s.deliveries idx ∧
        (t.vf d.vf).queue d.queue = { c with seq := c.seq + 1 } ∧
        t.pcie = s.pcie ++ [.write (c.base + 160 * (c.seq.toNat % 2 ^ c.log2n)) (deliveryEntry d.tok c.seq),
          .write c.pidxa (bytesOf 8 ((c.seq.toNat + 1) % 2 ^ 32))] ++ (if c.irq then [.msix d.vf d.queue] else []))) ∧
  (∀ (s : State) (vf queue : Nat), (vf < 384 ∨ vf = pfNum) → queue ≤ 255 →
    let v := s.vf vf
    let c := v.control queue
    (∀ value, exec (.cidxWrite vf queue value) s = .next (s.setVf vf (v.setControl queue { c with cidx := value }))) ∧
    (∀ data : Bytes, data ≠ [] →
      let c1 := if data.length ≥ 18 then c.put 0 (data.take 17) else c
      let flags := if data.length ≥ 18 then fieldOf data 17 1 else fieldOf data 0 1
      let off := v.setControl queue { c1 with en := false, irq := flags / 2 % 2 == 1 }
      (flags % 2 = 0 → exec (.queueEnableWrite vf queue data) s = .next (s.setVf vf off)) ∧
      (flags % 2 = 1 → (queue = 255 ∨ queue < v.ndq) → c1.enableOk (queue == 255) flags = false →
        exec (.queueEnableWrite vf queue data) s = .next ((s.setVf vf off).vfCount vf 7 0 0)) ∧
      (flags % 2 = 1 → (queue = 255 ∨ queue < v.ndq) → c1.enableOk (queue == 255) flags = true →
        exec (.queueEnableWrite vf queue data) s =
          .next (s.setVf vf (v.setControl queue { c1 with en := true, irq := flags / 2 == 1, cidx := 0, seq := 0 })))) ∧
    (∀ (off : Nat) (data : Bytes), queue < 255 → off < 32 → exec (.registerWrite vf (0x2000 + 32 * queue + off) data) s =
      .next (s.setVf vf (v.setControl queue (c.put off data))))) ∧
  (∀ (s : State) (vf : Nat) (data : Bytes), vf < 384 → data.length = 8 → numOf data % 2 ^ 36 = 0 →
    exec (.registerWrite vf 0x4080 data) s = .next (s.setVf vf { s.vf vf with apbase := numOf data })) ∧
  (∀ (s : State) (vf : Nat) (value : BitVec 64), (vf < 384 ∨ vf = pfNum) →
    ∃ w, exec (.vfStatusWrite vf value) s = .next (s.setVf vf { s.vf vf with status := w }) ∧
      ∀ f ∈ [(63, 48), (47, 40), (39, 32), (31, 24), (23, 16), (15, 8), (7, 0)],
        bitF w.toNat f.1 f.2 = if bitF value.toNat f.1 f.2 = 0 then 0 else bitF (s.vf vf).status.toNat f.1 f.2) ∧
  (∀ (s : State) (tag : Nat), (∃ o ∈ s.outside, o.tag = tag ∧ o.accel = none ∧ o.resp = none) →
    let answered (r : Nat × Nat) : State :=
      { s with outside := s.outside.map fun o => if o.tag = tag ∧ o.resp.isNone then { o with resp := some r } else o }
    (∀ data : Bytes, (∀ o ∈ s.outside, o.tag = tag → data.length = o.size) →
      exec (.hostWindowCompletion tag 0 data) s = .next (answered (0, numOf data))) ∧
    (∀ status data, status ≠ 0 → exec (.hostWindowCompletion tag status data) s = .next (answered (0xF1, 0))) ∧
    exec (.hostCompletionTimeout tag) s = .next (answered (0xF1, 0)))

/-- What the link and the debug port do (R26, R84, R94, R417 to R421): a peer's read answers with the bytes of HBM past the Clasp and
its write changes them; a sound flit that answers a request completes it and the next LSEQ is expected, one with a wrong CRC or LSEQ
changes nothing; a change of lanes sends the replay buffer again; a peer that is silent gives PEERDOWN; and a debug read answers.
The field order of a flit's payload, the address of a peer's access and the one link port are choices of the model (notes/assumptions/20.md, notes/assumptions/42.md, notes/assumptions/43.md). -/
def Obligations.LinkAndDebugResults : Prop :=
  (∀ (s : State) (accel size : Nat) (pa : BitVec 64), accel < 4096 → (s.port 0).lanes ≠ 0 → pa.toNat < 2 ^ 40 →
    size ∈ [1, 2, 4, 8, 16, 32, 64, 128] → pa.toNat % size = 0 → s.retired.contains (.chan (pa.toNat / 2 ^ 31)) = false →
    s.stackAwake pa.toNat = true → s.errs = [] →
    let pte := (s.leafOver pa.toNat).1
    let flit (kind status : Nat) (b : Bytes) : FlitMsg :=
      { dest := accel, kind := kind, src := s.accel, vc := 1, tag := 0, addr := pa.toNat, size := size, aop := 0, status := status, data := b }
    let answer (kind status : Nat) (b : Bytes) : Nat × Bytes := (0, (flit kind status b).bytes (s.port 0).txSeq.toNat)
    (∀ data, ∃ t, exec (.peerRequestArrival accel 1 pa size data) s = .next t ∧ t.hbm = s.hbm ∧ t.sram = s.sram ∧
      t.linkOut = s.linkOut ++ [if (s.clasp (s.mapHandle pa.toNat) (destPeer accel) size).1 = true then
        answer 2 0 (bytesOf size (memRead s.hbm pa.toNat size)) else answer 2 0x42 (List.replicate size 0xFF)]) ∧
    (∀ (data : Bytes) (g : Handle), data.length = size → s.hbm.wf = true →
      s.union (s.ingress (destPeer accel)) (s.mapHandle pa.toNat) = .ok g →
      ∃ t, exec (.peerRequestArrival accel 3 pa size data) s = .next t ∧ t.sram = s.sram ∧ t.linkOut = s.linkOut ++ [answer 4 0 []] ∧
        ∀ x, ¬ (pte ≤ x ∧ x < pte + 8) → memByte t.hbm x =
          if pa.toNat ≤ x ∧ x < pa.toNat + size then (data[x - pa.toNat]?).getD 0 else memByte s.hbm x)) ∧
  (∀ (s : State) (b : Bytes), b.length = 256 → (s.port 0).lanes ≠ 0 →
    (fieldOf b 248 8 ≠ (crc64 (b.take 248)).toNat ∨ fieldOf b 4 2 ≠ (s.port 0).rxSeq.toNat → exec (.flitReceive 0 b) s = .next s) ∧
    (fieldOf b 248 8 = (crc64 (b.take 248)).toNat → fieldOf b 4 2 = (s.port 0).rxSeq.toNat → flitOk b = true →
      ((flitMsg b).kind = 2 ∨ (flitMsg b).kind = 4 ∨ (flitMsg b).kind = 6) →
      ∀ o, s.outside = [o] → o.tag = (flitMsg b).tag → o.accel = some (flitMsg b).src → o.resp = none →
      exec (.flitReceive 0 b) s = .next { (s.setPort 0 { s.port 0 with rxSeq := (s.port 0).rxSeq + 1 }) with
        outside := [{ o with resp := some ((flitMsg b).status, fieldOf (flitMsg b).data 0 o.size) }] })) ∧
  (∀ (s : State) (lanes : Nat), let p := s.port 0
    (lanes ∈ [16, 32] → lanes < p.lanes → ∃ t, exec (.linkLaneLoss 0 lanes) s = .next t ∧ t.port 0 = { p with lanes := lanes } ∧
      t.linkOut = s.linkOut ++ p.replay.map fun b => (0, b)) ∧
    (0 < p.lanes → ∃ t, exec (.linkLaneLoss 0 0) s = .next t ∧ t.port 0 = { p with lanes := 0 } ∧ t.linkOut = s.linkOut) ∧
    (lanes ∈ [16, 32, 64] → p.lanes < lanes → ∃ t, exec (.linkLanesUp 0 lanes) s = .next t ∧ t.port 0 = { p with lanes := lanes } ∧
      t.linkOut = s.linkOut ++ p.replay.map fun b => (0, b))) ∧
  (∀ (s : State) (tag : Nat) (o : Outside), s.outside = [o] → o.tag = tag → o.accel ≠ none → o.resp = none →
    (s.cyclesSince (s.outDie o) o.since ≥ 2 ^ 22 ∨ (s.port 0).lanes = 0) →
    exec (.peerTimeout tag) s = .next { s with outside := [{ o with resp := some (0xF2, 0) }] }) ∧
  (∀ (s : State) (off : Nat) (data : Bytes), s.accel < 2 ^ 16 → off + data.length ≤ 520 →
    ∃ t, exec (.domainConfigWrite off data) s = .next t ∧ t = { s with accel := t.accel, presence := t.presence } ∧
      (2 ≤ off → t.accel = s.accel) ∧ (off = 0 → data.length = 2 → t.accel = fieldOf data 0 2) ∧
      ∀ n, n ∈ t.presence ↔ n < 4096 ∧ (if off ≤ 8 + n / 8 ∧ 8 + n / 8 < off + data.length
        then (fieldOf data (8 + n / 8 - off) 1).testBit (n % 8) = true else n ∈ s.presence)) ∧
  (∀ (s : State) (part n pa : Nat) (va : BitVec 64), s.debugOn = true → n ∈ [1, 2, 4, 8, 16, 32, 64] → s.part? part ≠ none →
    s.hostDie part ≠ none → s.sramFit part false va.toNat n pa false →
    ∃ t, exec (.debugRead part va n) s = .next t ∧ t.sram = s.sram ∧ t.hbm = s.hbm ∧
      t.debugOut = s.debugOut ++ [if (s.clasp (s.plot (pa / 4096)).handle destDebug n).1 = true
        then (bytesOf n (memRead s.sram pa n), false) else (List.replicate n 0xFF, true)])

/-! ### Security, resets and power (R405, R424 to R432) -/

/-- The security processor and the resets (R405, R421, R424 to R428): a report, the certificate and the plate list stand in the
mailbox; a sound bundle waits for the next cold reset and one below the rollback counter does nothing; a cold or warm reset clears
the machine but for the retirement map and the rollback counter, bring-up zeroes the stores and makes partition 0; and the reset of
a function ends its contexts and clears its queues and status.
Whether a bundle is sound, and what a report holds, are free (notes/assumptions/5.md, notes/assumptions/18.md, notes/assumptions/38.md). -/
def Obligations.SecurityAndResetResults : Prop :=
  (∀ (s : State) (vf : Nat), (vf < 384 ∨ vf = pfNum) →
    let stands (m : Bytes) : Res := .next (s.setVf vf { s.vf vf with mailbox := m })
    (∀ nonce : Bytes, nonce.length = 64 → ∃ b sig, exec (.mailboxReport vf nonce) s = stands (b ++ sig) ∧ b.length = 320 ∧
      fieldOf b 0 4 = 3 ∧ fieldOf b 4 4 = 320 ∧ (b.drop 8).take 16 = devid ∧ fieldOf b 0x18 4 = s.fwver % 2 ^ 32 ∧
      fieldOf b 0x1C 2 = s.accel % 2 ^ 16 ∧ (b.drop 0x20).take 64 = nonce ∧ (b.drop 0x60).take 64 = sha512 s.firmware ∧
      (b.drop 0xA0).take 64 = sha512 s.plateEntries ∧
      fieldOf b 0x120 1 = (if vf = pfNum then 0xFF else ((s.vf vf).part).getD 0xFF) % 256) ∧
    (∃ m, exec (.mailboxCert vf) s = stands m ∧ m.length = 1024) ∧
    exec (.mailboxList vf) s = stands (s.plates.flatMap fun p => bytesOf 2 p.1 ++ bytesOf 2 p.2.evf ++ p.2.key)) ∧
  (∀ (s : State) (version : Word) (b sig : Bytes),
    (s.rollback ≤ version.toNat → exec (.firmwareBundleWrite version b sig) s =
      .next (if Config.bundleSound version b sig then { s with nextFirmware := some (version.toNat, b) } else s)) ∧
    (version.toNat < s.rollback → exec (.firmwareBundleWrite version b sig) s = .next s)) ∧
  (∀ (s : State), s.bringUp = 5 →
    (∃ t, exec .coldReset s = .next t ∧ t.bringUp = 1 ∧ t.ctxs = [] ∧ t.parts = [] ∧ t.sram = [] ∧ t.hbm = [] ∧ t.ctl = [] ∧
      t.retired = s.retired ∧ t.rollback = s.rollback ∧ t.pwrlim = 3400) ∧
    (∃ t, exec .warmReset s = .next t ∧ t.bringUp = 3 ∧ t.ctxs = [] ∧ t.parts = [] ∧ t.plates = [] ∧ t.sets = [] ∧ t.dests = [] ∧
      t.policies = [] ∧ t.retired = s.retired ∧ t.rollback = s.rollback ∧ t.fwver = s.fwver ∧ t.firmware = s.firmware)) ∧
  (∀ (s : State), s.bringUp = 3 → ∃ t, exec .coldReset s = .next t ∧ exec .warmReset s = .next t ∧ t.bringUp = 4 ∧ t.sram = [] ∧
    t.hbm = [] ∧ t.ctl = [] ∧ t.plots = [] ∧ t.pageMap = [] ∧ t.overflow = [] ∧ t.accel = 0 ∧ t.presence = []) ∧
  (∀ (s : State), s.bringUp = 4 → ∃ t p, exec .coldReset s = .next t ∧ exec .warmReset s = .next t ∧ t.bringUp = 5 ∧
    t.parts = [(0, p)] ∧ p.nctx = 16 ∧ p.ctxBase = 0 ∧ p.ovfCap = 16384 ∧ t.pmtol = [] ∧ (t.vf pfNum).part = some 0 ∧
    (∀ lf e, (lf, e) ∈ p.fmap → lf = 0 ∧ e.st = .mapped ∧ s.retired.contains (.folio e.gfolio) = false ∧
      ∀ g, g < e.gfolio → s.retired.contains (.folio g) = true) ∧
    (∀ c ∈ p.channels, s.retired.contains (.chan c) = false ∧ ∀ g, g < c → s.retired.contains (.chan g) = true)) ∧
  (∀ (s : State) (vf : Nat), vf < 384 →
    (tabGet s.flr vf = none → ∃ t, exec (.vfFlr vf) s = .next t ∧
      t.vf vf = { s.vf vf with status := 0, queues := [], event := QueueCtl.reset } ∧
      (∀ c x, s.ctx? c = some x → x.homevf = vf → x.tear = .alive → ∃ y, t.ctx? c = some y ∧ y.tear = .tearing ∧
        y.ending.kind = 5 ∧ y.ending.code = 0xE3) ∧
      (s.ctxs.Pairwise (fun a b => a.1 < b.1) → ∀ c x, s.ctx? c = some x → x.homevf ≠ vf → t.ctx? c = some x) ∧ t.sram = s.sram ∧ t.hbm = s.hbm ∧ t.ctl = s.ctl) ∧
    (∀ n, tabGet s.flr vf = some n → (∀ c ∈ s.ctxs, c.2.homevf ≠ vf) → (s.vf vf).events = [] →
      ∃ t e, exec (.vfFlr vf) s = .next t ∧ (t.vf vf).events = [e] ∧ bitF e.record.toNat 255 248 = 20 ∧ t.flr = tabDel s.flr vf)) ∧
  (∀ (s : State) (tag : Nat), s.bringUp < 5 →
    exec (.configurationRequest tag) s = .next { s with pcie := s.pcie ++ [.retry tag] })

/-- The power manager (R429, R430, R432): PMTOL and PWRLIM take what is written, PWRLIM between 500 and 3,400; the issue rate falls
when a window lies above PWRLIM and rises when it lies more than 5% below; an idle folio, die or package enters the state that
its tolerances allow; a wake brings it back; and the link says whether it is in L1.
When a unit counts as idle is a choice of the model (notes/assumptions/36.md). -/
def Obligations.PowerResults : Prop :=
  ∀ (s : State),
    (∀ (part : Nat) (value : Word), part < 32 →
      exec (.pmtolWrite part value) s = .next { s with pmtol := tabPut s.pmtol part value.toNat }) ∧
    (∀ value : Word, ∃ n, exec (.pwrlimWrite value) s = .next { s with pwrlim := n } ∧
      n = if value.toNat > 3400 then 3400 else if value.toNat < 500 then 500 else value.toNat) ∧
    (∀ watts,
      (watts > s.pwrlim → 1 < s.issueRate →
        exec (.powerWindowEnd watts) s = .next { s with issueRate := s.issueRate - 1 }) ∧
      (100 * watts < 95 * s.pwrlim → s.issueRate < 16 →
        exec (.powerWindowEnd watts) s = .next { s with issueRate := s.issueRate + 1 }) ∧
      (watts ≤ s.pwrlim → 95 * s.pwrlim ≤ 100 * watts → exec (.powerWindowEnd watts) s = .next s)) ∧
    (∀ f p, f < 256 → s.powerOf f = .f0 → s.folioIdle f = true → s.ownerOf f = some p →
      (3000 ≤ tabNum s.pmtol p → exec (.powerStateEntry 0 f 2) s = .next { s with power := tabPut s.power f .f2 }) ∧
      (52 ≤ tabNum s.pmtol p → tabNum s.pmtol p < 3000 →
        exec (.powerStateEntry 0 f 1) s = .next { s with power := tabPut s.power f .f1 }) ∧
      (tabNum s.pmtol p < 52 → ∀ level, exec (.powerStateEntry 0 f level) s = .next s)) ∧
    (∀ d, d < 16 → s.powerOf (256 + d) = .f0 → s.dieIdle d = true →
      (∀ q p, (q, p) ∈ s.parts → p.onDie d = true → 40000 ≤ tabNum s.pmtol q) →
      exec (.powerStateEntry 1 d 3) s = .next { s with power := tabPut s.power (256 + d) .d2 }) ∧
    (s.powerOf 512 = .f0 → s.packageMay = true →
      exec (.powerStateEntry 2 0 4) s = .next { s with power := tabPut s.power 512 .k3 }) ∧
    (∀ kind unit k, (kind = 0 ∧ unit < 256 ∧ k = unit) ∨ (kind = 1 ∧ unit < 16 ∧ k = 256 + unit) ∨ (kind = 2 ∧ unit = 0 ∧ k = 512) →
      exec (.unitWake kind unit) s = .next (if s.powerOf k = .f0 then s else { s with power := tabDel s.power k })) ∧
    (∀ entered, exec (.pcieLinkL1 entered) s = .next { s with l1 := entered })

/-! ### Stated rules of the float opcodes (R242, R246) -/

/-- R242: `fclass` sets exactly one bit of each I32 result lane, by the sign, exponent and mantissa of the lane; bits 9 to 31 are
zero, and FTZ has no effect. -/
def Obligations.FclassSetsTheBitOfTheClass : Prop :=
  ∀ p ∈ [((Instr.fclass : ElemOps → Instr), Fmt.fp32, 32, 23), (Instr.fclassBf16, Fmt.bf16, 16, 7)],
    ∀ (o : ElemOps) (s : State) (f : Fire) (h : Handle) (nest : BitVec 48),
      let a := f.read (srcOf o.sa) o.lx.toNat p.2.1
      let n := colourOf [a]
      let negative (k : Nat) : Bool := (a.lane k).testBit (p.2.2.1 - 1)
      let exponent (k : Nat) : Nat := a.lane k / 2 ^ p.2.2.2 % 256
      let mantissa (k : Nat) : Nat := a.lane k % 2 ^ p.2.2.2
      s.Fires f [a] h → a.fmtIn [p.2.1] → stdCheck n [(a, [p.2.1])] = none → tagAction f o.ta.toNat (a.lane 0) 0 = some nest →
      s.Gives (p.1 o) o f nest h (Shape.data .i32 n) 32 n fun k => 2 ^
        (if exponent k = 255 then (if mantissa k ≠ 0 then 8 else if negative k then 0 else 7)
        else if exponent k = 0 then
          (if mantissa k = 0 then (if negative k then 3 else 4) else (if negative k then 2 else 5))
        else (if negative k then 1 else 6))

/-- A magnitude of `n / d` is at least 2 to the power `e`. -/
def Sys2Proof.Machine.atLeast (e : Int) : Val → Prop
  | .num _ n d => 2 ^ e.toNat * d ≤ n * 2 ^ (-e).toNat
  | _ => False

/-- R246: `bmax` gives every lane the block shift of A: 127 when a lane is NaN or infinite, -128 when all are zero, or else the
exponent of the largest magnitude, held between -127 and 127; FTZ has no effect. -/
def Obligations.BmaxGivesTheBlockShift : Prop :=
  ∀ (o : ElemOps) (s : State) (f : Fire) (h : Handle) (nest : BitVec 48),
    let a := f.read (srcOf o.sa) o.lx.toNat (f.want [.fp32, .bf16] [srcOf o.sa])
    let n := colourOf [a]
    let v (k : Nat) : Val := decodeLane a.fmt (a.lane k)
    let finite (k : Nat) : Prop := ∃ neg x d, v k = .num neg x d
    let zero (k : Nat) : Prop := ∃ neg d, v k = .num neg 0 d
    s.Fires f [a] h → a.fmtIn [.fp32, .bf16] → stdCheck n [(a, [.fp32, .bf16])] = none →
    tagAction f o.ta.toNat (a.lane 0) 0 = some nest →
    ∃ sh : Int, s.Gives (.bmax o) o f nest h (Shape.data .i32 n) 32 n (fun _ => (BitVec.ofInt 32 sh).toNat) ∧
      ((∃ k, k < n ∧ ¬ finite k) → sh = 127) ∧
      ((∀ k, k < n → zero k) → sh = -128) ∧
      ∀ e : Int, (∀ k, k < n → finite k) → (∃ k, k < n ∧ atLeast e (v k)) → (∀ k, k < n → ¬ atLeast (e + 1) (v k)) →
        sh = max (-127) (min 127 e)

/-! ### Words, steps and the whole machine -/

/-- Words written out from the tables of R195 to R209, one at least of each family, decode to what they stand for.
That a word which both tables know is read as an element word is a choice of the model (notes/assumptions/6.md). -/
def Obligations.WordsOfTheTablesDecode : Prop :=
  let o (sa sb : BitVec 3) (dx dy : BitVec 5) (ta lx : BitVec 4) : ElemOps := { sa := sa, sb := sb, dx := dx, dy := dy, ta := ta, lx := lx }
  ∀ p ∈ ([(32, 0b01000000_000_100_00001_00010_0000_0000, .fadd (o 0 4 1 2 0 0)),
      (32, 0b10000000_000_001_00000_11111_0000_0000, .cvt (o 0 1 0 31 0 0)),
      (32, 0b00100100_000_001_00000_11111_0000_0000, .mad (o 0 1 0 31 0 0)),
      (32, 0b00001000_000_110_00000_11111_0101_0000, .alloc (o 0 6 0 31 5 0)),
      (32, 0b10010000_000_110_00000_11111_0000_0000, .ld (o 0 6 0 31 0 0)),
      (32, 0b10011001_000_001_00000_11111_0000_0000, .stOrd (o 0 1 0 31 0 0)),
      (32, 0b10110010_000_110_00000_11111_0000_0000, .fenceScF (o 0 6 0 31 0 0)),
      (32, 0b10111101_000_110_00000_11111_0000_0000, .send (o 0 6 0 31 0 0)),
      (32, 0b0000000_00110_00110_00101_0000000000, .aluAdd 6 6 5), (32, 0b0000001_00101_00000_111111111111101, .addi 5 0 0x7FFD),
      (32, 0b0001010_01110_00000101000000010000, .lui 14 0x05010), (32, 0b0010100_00110_00000_001000000000000, .lw 6 0 0x1000),
      (32, 0b0010111_00000_00110_001000000000000, .sw 0 6 0x1000), (32, 0b0110000_0000000000000000000000000, .tend),
      (32, 0b0110101_00101_00000_000000000000000, .sysr 5 0 0), (32, 0b1000011_01010_00000_01100_0000000000, .qccLaunch 10 12),
      (32, 0b1001011_01010_01011_01100_0000000000, .setx 10 11 12), (32, 0b1001111_00000_01010_01111_0000000000, .pmTol 10 15),
      (32, 0b1010000_11011_01010_10110_0000001011, .partGuar 27 10 22),
      (64, 0b0011_00_00_00_000_000_0_0_000_0_00000000_00000_0000_00001_00000000000000000000,
        .pdrain { ta := 0, tb := 0, tc := 0, afmt := 0, bfmt := 0, tra := 0, trb := 0, ofmt := 0, sat := 0, ksm1 := 0, lastn := 0, del := 0,
                  didx := 1 })] : List (Nat × Nat × Instr)), decodeTableWord p.1 p.2.1 = some p.2.2

/-- Decoding and encoding agree: the word of every well-formed instruction decodes to it with every operand at every value, and
every word that decodes is the word of the instruction that it decodes to (R195 to R209).
Reading a bare word as an element word first is a choice of the model (notes/assumptions/6.md); here each table has its own decoder. -/
def Obligations.EncodingAndDecodingAgree : Prop :=
  (∀ (i : Instr) (k : WordKind) (n : Nat), i.wf = true → encode i = some (k, n) → decode k n = some i) ∧
  (∀ (i : Instr) (k : WordKind) (n : Nat), n < 2 ^ (if k = .press then 64 else 32) → decode k n = some i → encode i = some (k, n))

/-- A step runs the decoded instruction: at the head of the agenda, an element runs the word of the node whose pair the arbiter
picks, a control core the word at its PC, a Press the word of its oldest ready operation, and an event its own row; the clock
of the model moves on by one; with an empty agenda the schedule says who moves.
That events stand in an agenda, that a schedule picks the mover once it is empty, and that withElemWord and its like place a word are choices of the model (notes/assumptions/1.md, notes/assumptions/2.md). -/
def Obligations.StepRunsTheDecodedInstruction : Prop :=
  (∀ u : State, u.agenda = [] → step u = step { u with agenda := [Config.schedule u.tick] }) ∧
  ∀ (s s' : State) (t : Turn) (r : List Turn), s.agenda = t :: r → s.bringUp = 5 →
    let s0 : State := { s with agenda := r }
    (∀ p i pr sl ins, t = .elem p → s0.arbitrate p = some (i, pr) → pr.switch = false → tabGet (s0.elem p).slots i = some sl →
      decodeElem (BitVec.ofNat 32 (sl.word pr.node)) = some ins →
      exec ins { s0 with firing := some { pos := p, slotIx := i, pair := pr } } = .next s' →
      step s = .next { s' with tick := s'.tick + 1 }) ∧
    (∀ q x ins, t = .qcc q → ({ s0 with cur := q } : State).running = some x → s.awake (q / 4) = true → x.k.pc + 4 ≤ 65536 →
      s.errs = [] → x.t.count < 65536 → decodeQcc (BitVec.ofNat 32 (memRead s.ctl (q * 65536 + x.k.pc) 4)) = some ins →
      exec ins { s0 with cur := q } = .next s' → step s = .next { s' with tick := s'.tick + 1 }) ∧
    (∀ q i g ins, t = .press q → (s.pressOf q).pick = some (i, g) → decodePress ((s.pressOf q).wordOf g) = some ins →
      exec ins { s0 with cur := q } = .next s' → step s = .next { s' with tick := s'.tick + 1 }) ∧
    (∀ ins, t = .event ins → encode ins = none → exec ins s0 = .next s' → step s = .next { s' with tick := s'.tick + 1 })

/-- What reset leaves (R20, R22, R394, R421, R427, R428, R432): every byte of every store zero, every plot not resident, not pinned,
with handle and GEN zero, partition 0 with the folio, channel, contexts and OVFCAP that bring-up gives it, bound to the physical
function, no context, PWRLIM 3,400, and memories in their canonical form.
The values that the spec does not state are choices of the model (notes/assumptions/3.md, notes/assumptions/4.md). -/
def Obligations.ResetLeavesTheMachineAsBringUpDoes : Prop :=
  let s := State.reset
  (∀ a, memByte s.sram a = 0 ∧ memByte s.hbm a = 0 ∧ memByte s.ctl a = 0) ∧
  (∀ n, s.plot n = { res := false, pin := false, zero := false, handle := 0, gen := 0 }) ∧
  (∃ p, s.parts = [(0, p)] ∧ p.fmap = [(0, { st := .mapped, ro := false, gfolio := 0, target := none })] ∧ p.channels = [0] ∧
    p.ctxBase = 0 ∧ p.nctx = 16 ∧ p.ovfCap = 16384 ∧ p.status = 1) ∧
  (s.vf pfNum).part = some 0 ∧ s.ctxs = [] ∧ s.pwrlim = 3400 ∧ s.accel = 0 ∧ s.presence = [] ∧ tabNum s.pmtol 0 = 0 ∧
  s.bringUp = 5 ∧ (∀ q n, (s.qcc q).reg n = 0) ∧ s.memOk = true

/-- Every step keeps the three memories in their canonical form: addresses rising, and no byte listed that is zero. -/
def Obligations.EveryStepKeepsTheMemoriesCanonical : Prop :=
  ∀ (s t : State), s.memOk = true → step s = .next t → t.memOk = true

/-- No step stops: from every state, a step answers a next state, since the spec describes what happens at every event.
That each event is a step of its own is a choice of the model (notes/assumptions/1.md). -/
def Obligations.EveryStepAnswersANextState : Prop := ∀ s : State, SafeStep s
end

