-- ==== Sys2Proof/Laws/Cycles.lean ====
section
/-! SUPPORT. Cycles pass: enough steps of the machine make any number of them (notes/assumptions/2.md). -/

namespace Sys2Proof.Machine

theorem cyclesFrom_add (die t n m : Nat) : cyclesFrom die t (n + m) = cyclesFrom die t n + cyclesFrom die (t + n) m := by
  induction n generalizing t with
  | zero => simp [cyclesFrom]
  | succ n ih =>
    rw [show n + 1 + m = (n + m) + 1 by omega, cyclesFrom, cyclesFrom, ih, show t + 1 + n = t + (n + 1) by omega]
    omega

/-- A step at the end of a stretch of `Config.pace` counts one cycle. -/
theorem cyclesFrom_hit (die t n : Nat) (k : Nat) (hk : k < n) (h : (t + k) % (Config.pace + 1) = Config.pace) :
    1 ≤ cyclesFrom die t n := by
  obtain ⟨m, rfl⟩ : ∃ m, n = k + (m + 1) := ⟨n - k - 1, by omega⟩
  rw [cyclesFrom_add, cyclesFrom, if_pos h]
  omega

/-- Each stretch of `Config.pace + 1` steps lasts a cycle at least. -/
theorem cyclesFrom_ge (die : Nat) : ∀ k t : Nat, k ≤ cyclesFrom die t (k * (Config.pace + 1))
  | 0, _ => Nat.zero_le _
  | k + 1, t => by
    rw [Nat.succ_mul, Nat.add_comm (k * _) _, cyclesFrom_add]
    have h1 := cyclesFrom_ge die k (t + (Config.pace + 1))
    have hlt : t % (Config.pace + 1) < Config.pace + 1 := Nat.mod_lt _ (by omega)
    have h2 : 1 ≤ cyclesFrom die t (Config.pace + 1) := by
      refine cyclesFrom_hit die t _ (Config.pace - t % (Config.pace + 1)) (by omega) ?_
      have hd := Nat.div_add_mod t (Config.pace + 1)
      rw [show t + (Config.pace - t % (Config.pace + 1)) = Config.pace + (Config.pace + 1) * (t / (Config.pace + 1)) by omega,
        Nat.add_mul_mod_self_left, Nat.mod_eq_of_lt (by omega)]
    omega

/-- A moment `k` stretches later is at least `k` cycles later. -/
theorem State.cyclesSince_ge (s : State) (die t k : Nat) (h : s.tick = t + k * (Config.pace + 1)) : k ≤ s.cyclesSince die t := by
  rw [State.cyclesSince, h, Nat.add_sub_cancel_left]
  exact cyclesFrom_ge die k t

end Sys2Proof.Machine
end

