-- ==== Sys2Proof/Laws/Memory.lean ====
section
/-! SUPPORT. Tables by number and memories in their canonical form: reads after writes, frames, and the canonical form. -/

namespace Sys2Proof.Machine

/-! ### Tables -/

theorem tabGet_tabPut_same {α : Type} (t : Tab α) (k : Nat) (x : α) : tabGet (tabPut t k x) k = some x := by
  induction t with
  | nil => simp [tabPut, tabGet]
  | cons p r ih =>
    obtain ⟨i, v⟩ := p
    simp only [tabPut]
    split
    · simp [tabGet]
    · split
      · simp [tabGet]
      · simp [tabGet, *]

theorem tabGet_tabPut_other {α : Type} (t : Tab α) {k j : Nat} (x : α) (h : j ≠ k) :
    tabGet (tabPut t k x) j = tabGet t j := by
  have hk : ¬ k = j := fun e => h e.symm
  induction t with
  | nil => simp [tabPut, tabGet, hk]
  | cons p r ih =>
    obtain ⟨i, v⟩ := p
    simp only [tabPut]
    split
    · subst_vars; simp [tabGet, hk]
    · split
      · rename_i h1 h2
        by_cases hj : j < k
        · have : ¬ i = j := by omega
          have : j < i := by omega
          simp [tabGet, *]
        · simp [tabGet, hk, hj]
      · simp [tabGet, ih]

theorem tabGet_tabPut {α : Type} (t : Tab α) (k j : Nat) (x : α) :
    tabGet (tabPut t k x) j = if j = k then some x else tabGet t j := by
  split
  · next h => rw [h, tabGet_tabPut_same]
  · next h => exact tabGet_tabPut_other t x h

/-- Keys strictly rising. -/
def Tab.rising {α : Type} (t : Tab α) : Prop := t.Pairwise fun p q => p.1 < q.1

theorem tabGet_eq_none_of_below {α : Type} {t : Tab α} {k : Nat} (h : ∀ p ∈ t, k < p.1) : tabGet t k = none := by
  cases t with
  | nil => rfl
  | cons p r =>
    have := h p (by simp)
    have : ¬ p.1 = k := by omega
    simp [tabGet, *]

theorem tabGet_tabDel {α : Type} (t : Tab α) (k j : Nat) (ht : Tab.rising t) :
    tabGet (tabDel t k) j = if j = k then none else tabGet t j := by
  induction t with
  | nil => simp [tabDel, tabGet]
  | cons p r ih =>
    obtain ⟨i, v⟩ := p
    have hr := List.pairwise_cons.mp ht
    simp only [tabDel]
    split
    · next h =>
      subst h
      by_cases hj : j = i
      · subst hj
        simpa using tabGet_eq_none_of_below hr.1
      · simp only [hj, if_false, tabGet, Ne.symm hj]
        by_cases h2 : j < i
        · simp only [h2, if_true]
          exact tabGet_eq_none_of_below fun p hp => Nat.lt_trans h2 (hr.1 p hp)
        · simp [h2]
    · next h =>
      split
      · next h2 =>
        by_cases hj : j = k
        · subst hj; simp [tabGet, h, h2]
        · simp [hj]
      · next h2 =>
        by_cases hj : j = k
        · subst hj; simp [tabGet, h, h2, ih hr.2]
        · simp [tabGet, ih hr.2, hj]

theorem mem_tabPut {α : Type} {t : Tab α} {k : Nat} {x : α} {p : Nat × α} (h : p ∈ tabPut t k x) :
    p = (k, x) ∨ p ∈ t := by
  induction t with
  | nil => simpa [tabPut] using h
  | cons q r ih =>
    obtain ⟨i, v⟩ := q
    simp only [tabPut] at h
    split at h
    · rcases List.mem_cons.mp h with h | h <;> simp [h]
    · split at h
      · rcases List.mem_cons.mp h with h | h
        · exact .inl h
        · exact .inr h
      · rcases List.mem_cons.mp h with h | h
        · simp [h]
        · rcases ih h with h | h <;> simp [h]

theorem mem_of_mem_tabDel {α : Type} {t : Tab α} {k : Nat} {p : Nat × α} (h : p ∈ tabDel t k) : p ∈ t := by
  induction t with
  | nil => simp [tabDel] at h
  | cons q r ih =>
    obtain ⟨i, v⟩ := q
    simp only [tabDel] at h
    split at h
    · exact List.mem_cons_of_mem _ h
    · split at h
      · exact h
      · rcases List.mem_cons.mp h with h | h
        · simp [h]
        · exact List.mem_cons_of_mem _ (ih h)

theorem tabPut_rising {α : Type} {t : Tab α} (k : Nat) (x : α) (h : Tab.rising t) : Tab.rising (tabPut t k x) := by
  unfold Tab.rising at *
  induction t with
  | nil => simp [tabPut]
  | cons q r ih =>
    obtain ⟨i, v⟩ := q
    have hr := List.pairwise_cons.mp h
    simp only [tabPut]
    split
    · next e => subst e; exact List.pairwise_cons.mpr ⟨fun p hp => hr.1 p hp, hr.2⟩
    · split
      · next h1 h2 =>
        refine List.pairwise_cons.mpr ⟨fun p hp => ?_, h⟩
        rcases List.mem_cons.mp hp with e | e
        · simpa [e] using h2
        · exact Nat.lt_trans h2 (hr.1 p e)
      · next h1 h2 =>
        refine List.pairwise_cons.mpr ⟨fun p hp => ?_, ih hr.2⟩
        rcases mem_tabPut hp with e | e
        · subst e; show i < k; omega
        · exact hr.1 p e

theorem tabDel_rising {α : Type} {t : Tab α} (k : Nat) (h : Tab.rising t) : Tab.rising (tabDel t k) := by
  unfold Tab.rising at *
  induction t with
  | nil => simp [tabDel]
  | cons q r ih =>
    obtain ⟨i, v⟩ := q
    have hr := List.pairwise_cons.mp h
    simp only [tabDel]
    split
    · exact hr.2
    · split
      · exact h
      · exact List.pairwise_cons.mpr ⟨fun p hp => hr.1 p (mem_of_mem_tabDel hp), ih hr.2⟩

/-! ### Memories -/

theorem Memory.wf_iff (m : Memory) : m.wf = true ↔ Tab.rising m ∧ ∀ p ∈ m, p.2 ≠ 0 := by
  unfold Tab.rising
  induction m with
  | nil => simp [Memory.wf]
  | cons p r ih =>
    obtain ⟨a, b⟩ := p
    cases r with
    | nil => simp [Memory.wf]
    | cons q r =>
      obtain ⟨a', b'⟩ := q
      simp only [Memory.wf, Bool.and_eq_true, decide_eq_true_eq, bne_iff_ne, ih]
      constructor
      · rintro ⟨⟨hb, hl⟩, hp, hz⟩
        refine ⟨List.pairwise_cons.mpr ⟨fun p hm => ?_, hp⟩, fun p hm => ?_⟩
        · rcases List.mem_cons.mp hm with e | e
          · simpa [e] using hl
          · exact Nat.lt_trans hl ((List.pairwise_cons.mp hp).1 p e)
        · rcases List.mem_cons.mp hm with e | e
          · simpa [e] using hb
          · exact hz p e
      · rintro ⟨hp, hz⟩
        have hc := List.pairwise_cons.mp hp
        exact ⟨⟨hz (a, b) (by simp), hc.1 (a', b') (by simp)⟩, hc.2, fun p hm => hz p (List.mem_cons_of_mem _ hm)⟩

/-- A write keeps the canonical form. -/
theorem memPut_wf {m : Memory} (a : Nat) (b : Byte) (h : m.wf = true) : (memPut m a b).wf = true := by
  rw [Memory.wf_iff] at *
  unfold memPut
  split
  · exact ⟨tabDel_rising a h.1, fun p hp => h.2 p (mem_of_mem_tabDel hp)⟩
  · next hb =>
    refine ⟨tabPut_rising a b h.1, fun p hp => ?_⟩
    rcases mem_tabPut hp with e | e
    · simpa [e] using hb
    · exact h.2 p e

/-- A read after a write: the byte written there, and what stood before everywhere else. -/
theorem memByte_memPut {m : Memory} (a j : Nat) (b : Byte) (h : m.wf = true) :
    memByte (memPut m a b) j = if j = a then b else memByte m j := by
  have hr := ((Memory.wf_iff m).mp h).1
  unfold memByte memPut
  split
  · next hb => rw [tabGet_tabDel m a j hr]; split <;> simp [hb]
  · rw [tabGet_tabPut]; split <;> simp

theorem memWrite_wf {m : Memory} (a n v : Nat) (h : m.wf = true) : (memWrite m a n v).wf = true := by
  induction n generalizing m a v with
  | zero => exact h
  | succ n ih => exact ih _ _ (memPut_wf _ _ h)

/-- A write of `n` bytes leaves every byte outside them as it was. -/
theorem memByte_memWrite_outside {m : Memory} {a n v j : Nat} (h : m.wf = true) (hj : j < a ∨ a + n ≤ j) :
    memByte (memWrite m a n v) j = memByte m j := by
  induction n generalizing m a v with
  | zero => rfl
  | succ n ih =>
    have hne : ¬ j = a := by omega
    rw [memWrite, ih (memPut_wf _ _ h) (by omega), memByte_memPut _ _ _ h]
    simp [hne]

/-- Byte `i` of a write of `n` bytes is byte `i` of its value (R8). -/
theorem memByte_memWrite_inside {m : Memory} {a n v i : Nat} (h : m.wf = true) (hi : i < n) :
    memByte (memWrite m a n v) (a + i) = BitVec.ofNat 8 (v / 256 ^ i) := by
  induction n generalizing m a v i with
  | zero => omega
  | succ n ih =>
    rw [memWrite]
    cases i with
    | zero =>
      rw [memByte_memWrite_outside (memPut_wf _ _ h) (by omega), memByte_memPut _ _ _ h]
      simp
    | succ i =>
      have := ih (m := memPut m a (BitVec.ofNat 8 v)) (a := a + 1) (v := v / 256) (i := i) (memPut_wf _ _ h) (by omega)
      rw [show a + (i + 1) = a + 1 + i by omega, this, Nat.div_div_eq_div_mul, Nat.pow_succ, Nat.mul_comm 256]

theorem memRead_lt (m : Memory) (a n : Nat) : memRead m a n < 256 ^ n := by
  induction n generalizing a with
  | zero => simp [memRead]
  | succ n ih =>
    have h := ih (a + 1)
    have hb := (memByte m a).isLt
    rw [memRead, Nat.pow_succ]
    omega

/-- A read of the bytes just written gives the value written (R8). -/
theorem memRead_memWrite {m : Memory} (a n v : Nat) (h : m.wf = true) :
    memRead (memWrite m a n v) a n = v % 256 ^ n := by
  induction n generalizing m a v with
  | zero => simp [memRead, Nat.mod_one]
  | succ n ih =>
    have h0 : memByte (memWrite m a (n + 1) v) a = BitVec.ofNat 8 v := by
      simpa using memByte_memWrite_inside (m := m) (a := a) (n := n + 1) (v := v) (i := 0) h (by omega)
    rw [memRead, h0, memWrite, ih (a + 1) (v / 256) (memPut_wf _ _ h)]
    rw [Nat.pow_succ, Nat.mul_comm (256 ^ n) 256, Nat.mod_mul]
    simp

theorem memRead_congr {m m' : Memory} {a n : Nat} (h : ∀ j, a ≤ j → j < a + n → memByte m j = memByte m' j) :
    memRead m a n = memRead m' a n := by
  induction n generalizing a with
  | zero => rfl
  | succ n ih =>
    rw [memRead, memRead, h a (Nat.le_refl a) (by omega), ih fun j h1 h2 => h j (by omega) (by omega)]

end Sys2Proof.Machine
end

