-- ==== Sys2Proof/Laws/State.lean ====
section
/-! SUPPORT. What each named update of the state leaves in every field: one lemma per field and update. -/

namespace Sys2Proof.Machine

variable (s : State)

/-! ### `State.setElem` -/

@[simp] theorem State.setElem_agenda (p : Nat) (e : Elem) : (s.setElem p e).agenda = s.agenda := rfl
@[simp] theorem State.setElem_tick (p : Nat) (e : Elem) : (s.setElem p e).tick = s.tick := rfl
@[simp] theorem State.setElem_firing (p : Nat) (e : Elem) : (s.setElem p e).firing = s.firing := rfl
@[simp] theorem State.setElem_cur (p : Nat) (e : Elem) : (s.setElem p e).cur = s.cur := rfl
@[simp] theorem State.setElem_nextId (p : Nat) (e : Elem) : (s.setElem p e).nextId = s.nextId := rfl
@[simp] theorem State.setElem_sram (p : Nat) (e : Elem) : (s.setElem p e).sram = s.sram := rfl
@[simp] theorem State.setElem_hbm (p : Nat) (e : Elem) : (s.setElem p e).hbm = s.hbm := rfl
@[simp] theorem State.setElem_ctl (p : Nat) (e : Elem) : (s.setElem p e).ctl = s.ctl := rfl
@[simp] theorem State.setElem_plots (p : Nat) (e : Elem) : (s.setElem p e).plots = s.plots := rfl
@[simp] theorem State.setElem_pageMap (p : Nat) (e : Elem) : (s.setElem p e).pageMap = s.pageMap := rfl
@[simp] theorem State.setElem_ctlRegion (p : Nat) (e : Elem) : (s.setElem p e).ctlRegion = s.ctlRegion := rfl
@[simp] theorem State.setElem_errs (p : Nat) (e : Elem) : (s.setElem p e).errs = s.errs := rfl
@[simp] theorem State.setElem_zeroRows (p : Nat) (e : Elem) : (s.setElem p e).zeroRows = s.zeroRows := rfl
@[simp] theorem State.setElem_elems (p : Nat) (e : Elem) : (s.setElem p e).elems = tabPut s.elems p e := rfl
@[simp] theorem State.setElem_bufs (p : Nat) (e : Elem) : (s.setElem p e).bufs = s.bufs := rfl
@[simp] theorem State.setElem_linkLast (p : Nat) (e : Elem) : (s.setElem p e).linkLast = s.linkLast := rfl
@[simp] theorem State.setElem_banks (p : Nat) (e : Elem) : (s.setElem p e).banks = s.banks := rfl
@[simp] theorem State.setElem_chans (p : Nat) (e : Elem) : (s.setElem p e).chans = s.chans := rfl
@[simp] theorem State.setElem_overflow (p : Nat) (e : Elem) : (s.setElem p e).overflow = s.overflow := rfl
@[simp] theorem State.setElem_accs (p : Nat) (e : Elem) : (s.setElem p e).accs = s.accs := rfl
@[simp] theorem State.setElem_cached (p : Nat) (e : Elem) : (s.setElem p e).cached = s.cached := rfl
@[simp] theorem State.setElem_pointers (p : Nat) (e : Elem) : (s.setElem p e).pointers = s.pointers := rfl
@[simp] theorem State.setElem_misses (p : Nat) (e : Elem) : (s.setElem p e).misses = s.misses := rfl
@[simp] theorem State.setElem_invals (p : Nat) (e : Elem) : (s.setElem p e).invals = s.invals := rfl
@[simp] theorem State.setElem_qccs (p : Nat) (e : Elem) : (s.setElem p e).qccs = s.qccs := rfl
@[simp] theorem State.setElem_press (p : Nat) (e : Elem) : (s.setElem p e).press = s.press := rfl
@[simp] theorem State.setElem_graft (p : Nat) (e : Elem) : (s.setElem p e).graft = s.graft := rfl
@[simp] theorem State.setElem_riddle (p : Nat) (e : Elem) : (s.setElem p e).riddle = s.riddle := rfl
@[simp] theorem State.setElem_pruner (p : Nat) (e : Elem) : (s.setElem p e).pruner = s.pruner := rfl
@[simp] theorem State.setElem_barrow (p : Nat) (e : Elem) : (s.setElem p e).barrow = s.barrow := rfl
@[simp] theorem State.setElem_dies (p : Nat) (e : Elem) : (s.setElem p e).dies = s.dies := rfl
@[simp] theorem State.setElem_msgs (p : Nat) (e : Elem) : (s.setElem p e).msgs = s.msgs := rfl
@[simp] theorem State.setElem_trapOut (p : Nat) (e : Elem) : (s.setElem p e).trapOut = s.trapOut := rfl
@[simp] theorem State.setElem_plateOut (p : Nat) (e : Elem) : (s.setElem p e).plateOut = s.plateOut := rfl
@[simp] theorem State.setElem_marks (p : Nat) (e : Elem) : (s.setElem p e).marks = s.marks := rfl
@[simp] theorem State.setElem_drainNotices (p : Nat) (e : Elem) : (s.setElem p e).drainNotices = s.drainNotices := rfl
@[simp] theorem State.setElem_barrRegs (p : Nat) (e : Elem) : (s.setElem p e).barrRegs = s.barrRegs := rfl
@[simp] theorem State.setElem_barrDone (p : Nat) (e : Elem) : (s.setElem p e).barrDone = s.barrDone := rfl
@[simp] theorem State.setElem_softErrors (p : Nat) (e : Elem) : (s.setElem p e).softErrors = s.softErrors := rfl
@[simp] theorem State.setElem_ctxs (p : Nat) (e : Elem) : (s.setElem p e).ctxs = s.ctxs := rfl
@[simp] theorem State.setElem_images (p : Nat) (e : Elem) : (s.setElem p e).images = s.images := rfl
@[simp] theorem State.setElem_parts (p : Nat) (e : Elem) : (s.setElem p e).parts = s.parts := rfl
@[simp] theorem State.setElem_vfs (p : Nat) (e : Elem) : (s.setElem p e).vfs = s.vfs := rfl
@[simp] theorem State.setElem_lastServed (p : Nat) (e : Elem) : (s.setElem p e).lastServed = s.lastServed := rfl
@[simp] theorem State.setElem_toSpine (p : Nat) (e : Elem) : (s.setElem p e).toSpine = s.toSpine := rfl
@[simp] theorem State.setElem_batches (p : Nat) (e : Elem) : (s.setElem p e).batches = s.batches := rfl
@[simp] theorem State.setElem_responses (p : Nat) (e : Elem) : (s.setElem p e).responses = s.responses := rfl
@[simp] theorem State.setElem_sets (p : Nat) (e : Elem) : (s.setElem p e).sets = s.sets := rfl
@[simp] theorem State.setElem_plates (p : Nat) (e : Elem) : (s.setElem p e).plates = s.plates := rfl
@[simp] theorem State.setElem_dests (p : Nat) (e : Elem) : (s.setElem p e).dests = s.dests := rfl
@[simp] theorem State.setElem_policies (p : Nat) (e : Elem) : (s.setElem p e).policies = s.policies := rfl
@[simp] theorem State.setElem_unions (p : Nat) (e : Elem) : (s.setElem p e).unions = s.unions := rfl
@[simp] theorem State.setElem_sweep (p : Nat) (e : Elem) : (s.setElem p e).sweep = s.sweep := rfl
@[simp] theorem State.setElem_submissions (p : Nat) (e : Elem) : (s.setElem p e).submissions = s.submissions := rfl
@[simp] theorem State.setElem_eventsOut (p : Nat) (e : Elem) : (s.setElem p e).eventsOut = s.eventsOut := rfl
@[simp] theorem State.setElem_pcie (p : Nat) (e : Elem) : (s.setElem p e).pcie = s.pcie := rfl
@[simp] theorem State.setElem_outside (p : Nat) (e : Elem) : (s.setElem p e).outside = s.outside := rfl
@[simp] theorem State.setElem_deliveries (p : Nat) (e : Elem) : (s.setElem p e).deliveries = s.deliveries := rfl
@[simp] theorem State.setElem_accel (p : Nat) (e : Elem) : (s.setElem p e).accel = s.accel := rfl
@[simp] theorem State.setElem_presence (p : Nat) (e : Elem) : (s.setElem p e).presence = s.presence := rfl
@[simp] theorem State.setElem_ports (p : Nat) (e : Elem) : (s.setElem p e).ports = s.ports := rfl
@[simp] theorem State.setElem_linkOut (p : Nat) (e : Elem) : (s.setElem p e).linkOut = s.linkOut := rfl
@[simp] theorem State.setElem_retired (p : Nat) (e : Elem) : (s.setElem p e).retired = s.retired := rfl
@[simp] theorem State.setElem_replaceSeq (p : Nat) (e : Elem) : (s.setElem p e).replaceSeq = s.replaceSeq := rfl
@[simp] theorem State.setElem_replaceBody (p : Nat) (e : Elem) : (s.setElem p e).replaceBody = s.replaceBody := rfl
@[simp] theorem State.setElem_fwver (p : Nat) (e : Elem) : (s.setElem p e).fwver = s.fwver := rfl
@[simp] theorem State.setElem_rollback (p : Nat) (e : Elem) : (s.setElem p e).rollback = s.rollback := rfl
@[simp] theorem State.setElem_firmware (p : Nat) (e : Elem) : (s.setElem p e).firmware = s.firmware := rfl
@[simp] theorem State.setElem_nextFirmware (p : Nat) (e : Elem) : (s.setElem p e).nextFirmware = s.nextFirmware := rfl
@[simp] theorem State.setElem_debugOn (p : Nat) (e : Elem) : (s.setElem p e).debugOn = s.debugOn := rfl
@[simp] theorem State.setElem_debugOut (p : Nat) (e : Elem) : (s.setElem p e).debugOut = s.debugOut := rfl
@[simp] theorem State.setElem_bringUp (p : Nat) (e : Elem) : (s.setElem p e).bringUp = s.bringUp := rfl
@[simp] theorem State.setElem_l1 (p : Nat) (e : Elem) : (s.setElem p e).l1 = s.l1 := rfl
@[simp] theorem State.setElem_pwrlim (p : Nat) (e : Elem) : (s.setElem p e).pwrlim = s.pwrlim := rfl
@[simp] theorem State.setElem_issueRate (p : Nat) (e : Elem) : (s.setElem p e).issueRate = s.issueRate := rfl
@[simp] theorem State.setElem_power (p : Nat) (e : Elem) : (s.setElem p e).power = s.power := rfl
@[simp] theorem State.setElem_status (p : Nat) (e : Elem) : (s.setElem p e).status = s.status := rfl
@[simp] theorem State.setElem_pmtol (p : Nat) (e : Elem) : (s.setElem p e).pmtol = s.pmtol := rfl
@[simp] theorem State.setElem_hostReqs (p : Nat) (e : Elem) : (s.setElem p e).hostReqs = s.hostReqs := rfl
@[simp] theorem State.setElem_linkErrs (p : Nat) (e : Elem) : (s.setElem p e).linkErrs = s.linkErrs := rfl
@[simp] theorem State.setElem_flr (p : Nat) (e : Elem) : (s.setElem p e).flr = s.flr := rfl
@[simp] theorem State.setElem_saves (p : Nat) (e : Elem) : (s.setElem p e).saves = s.saves := rfl

/-! ### `State.setBuf` -/

@[simp] theorem State.setBuf_agenda (p port cls : Nat) (l : List Flit) : (s.setBuf p port cls l).agenda = s.agenda := rfl
@[simp] theorem State.setBuf_tick (p port cls : Nat) (l : List Flit) : (s.setBuf p port cls l).tick = s.tick := rfl
@[simp] theorem State.setBuf_firing (p port cls : Nat) (l : List Flit) : (s.setBuf p port cls l).firing = s.firing := rfl
@[simp] theorem State.setBuf_cur (p port cls : Nat) (l : List Flit) : (s.setBuf p port cls l).cur = s.cur := rfl
@[simp] theorem State.setBuf_nextId (p port cls : Nat) (l : List Flit) : (s.setBuf p port cls l).nextId = s.nextId := rfl
@[simp] theorem State.setBuf_sram (p port cls : Nat) (l : List Flit) : (s.setBuf p port cls l).sram = s.sram := rfl
@[simp] theorem State.setBuf_hbm (p port cls : Nat) (l : List Flit) : (s.setBuf p port cls l).hbm = s.hbm := rfl
@[simp] theorem State.setBuf_ctl (p port cls : Nat) (l : List Flit) : (s.setBuf p port cls l).ctl = s.ctl := rfl
@[simp] theorem State.setBuf_plots (p port cls : Nat) (l : List Flit) : (s.setBuf p port cls l).plots = s.plots := rfl
@[simp] theorem State.setBuf_pageMap (p port cls : Nat) (l : List Flit) : (s.setBuf p port cls l).pageMap = s.pageMap := rfl
@[simp] theorem State.setBuf_ctlRegion (p port cls : Nat) (l : List Flit) : (s.setBuf p port cls l).ctlRegion = s.ctlRegion := rfl
@[simp] theorem State.setBuf_errs (p port cls : Nat) (l : List Flit) : (s.setBuf p port cls l).errs = s.errs := rfl
@[simp] theorem State.setBuf_zeroRows (p port cls : Nat) (l : List Flit) : (s.setBuf p port cls l).zeroRows = s.zeroRows := rfl
@[simp] theorem State.setBuf_elems (p port cls : Nat) (l : List Flit) : (s.setBuf p port cls l).elems = s.elems := rfl
@[simp] theorem State.setBuf_linkLast (p port cls : Nat) (l : List Flit) : (s.setBuf p port cls l).linkLast = s.linkLast := rfl
@[simp] theorem State.setBuf_banks (p port cls : Nat) (l : List Flit) : (s.setBuf p port cls l).banks = s.banks := rfl
@[simp] theorem State.setBuf_chans (p port cls : Nat) (l : List Flit) : (s.setBuf p port cls l).chans = s.chans := rfl
@[simp] theorem State.setBuf_overflow (p port cls : Nat) (l : List Flit) : (s.setBuf p port cls l).overflow = s.overflow := rfl
@[simp] theorem State.setBuf_accs (p port cls : Nat) (l : List Flit) : (s.setBuf p port cls l).accs = s.accs := rfl
@[simp] theorem State.setBuf_cached (p port cls : Nat) (l : List Flit) : (s.setBuf p port cls l).cached = s.cached := rfl
@[simp] theorem State.setBuf_pointers (p port cls : Nat) (l : List Flit) : (s.setBuf p port cls l).pointers = s.pointers := rfl
@[simp] theorem State.setBuf_misses (p port cls : Nat) (l : List Flit) : (s.setBuf p port cls l).misses = s.misses := rfl
@[simp] theorem State.setBuf_invals (p port cls : Nat) (l : List Flit) : (s.setBuf p port cls l).invals = s.invals := rfl
@[simp] theorem State.setBuf_qccs (p port cls : Nat) (l : List Flit) : (s.setBuf p port cls l).qccs = s.qccs := rfl
@[simp] theorem State.setBuf_press (p port cls : Nat) (l : List Flit) : (s.setBuf p port cls l).press = s.press := rfl
@[simp] theorem State.setBuf_graft (p port cls : Nat) (l : List Flit) : (s.setBuf p port cls l).graft = s.graft := rfl
@[simp] theorem State.setBuf_riddle (p port cls : Nat) (l : List Flit) : (s.setBuf p port cls l).riddle = s.riddle := rfl
@[simp] theorem State.setBuf_pruner (p port cls : Nat) (l : List Flit) : (s.setBuf p port cls l).pruner = s.pruner := rfl
@[simp] theorem State.setBuf_barrow (p port cls : Nat) (l : List Flit) : (s.setBuf p port cls l).barrow = s.barrow := rfl
@[simp] theorem State.setBuf_dies (p port cls : Nat) (l : List Flit) : (s.setBuf p port cls l).dies = s.dies := rfl
@[simp] theorem State.setBuf_msgs (p port cls : Nat) (l : List Flit) : (s.setBuf p port cls l).msgs = s.msgs := rfl
@[simp] theorem State.setBuf_trapOut (p port cls : Nat) (l : List Flit) : (s.setBuf p port cls l).trapOut = s.trapOut := rfl
@[simp] theorem State.setBuf_plateOut (p port cls : Nat) (l : List Flit) : (s.setBuf p port cls l).plateOut = s.plateOut := rfl
@[simp] theorem State.setBuf_marks (p port cls : Nat) (l : List Flit) : (s.setBuf p port cls l).marks = s.marks := rfl
@[simp] theorem State.setBuf_drainNotices (p port cls : Nat) (l : List Flit) : (s.setBuf p port cls l).drainNotices = s.drainNotices := rfl
@[simp] theorem State.setBuf_barrRegs (p port cls : Nat) (l : List Flit) : (s.setBuf p port cls l).barrRegs = s.barrRegs := rfl
@[simp] theorem State.setBuf_barrDone (p port cls : Nat) (l : List Flit) : (s.setBuf p port cls l).barrDone = s.barrDone := rfl
@[simp] theorem State.setBuf_softErrors (p port cls : Nat) (l : List Flit) : (s.setBuf p port cls l).softErrors = s.softErrors := rfl
@[simp] theorem State.setBuf_ctxs (p port cls : Nat) (l : List Flit) : (s.setBuf p port cls l).ctxs = s.ctxs := rfl
@[simp] theorem State.setBuf_images (p port cls : Nat) (l : List Flit) : (s.setBuf p port cls l).images = s.images := rfl
@[simp] theorem State.setBuf_parts (p port cls : Nat) (l : List Flit) : (s.setBuf p port cls l).parts = s.parts := rfl
@[simp] theorem State.setBuf_vfs (p port cls : Nat) (l : List Flit) : (s.setBuf p port cls l).vfs = s.vfs := rfl
@[simp] theorem State.setBuf_lastServed (p port cls : Nat) (l : List Flit) : (s.setBuf p port cls l).lastServed = s.lastServed := rfl
@[simp] theorem State.setBuf_toSpine (p port cls : Nat) (l : List Flit) : (s.setBuf p port cls l).toSpine = s.toSpine := rfl
@[simp] theorem State.setBuf_batches (p port cls : Nat) (l : List Flit) : (s.setBuf p port cls l).batches = s.batches := rfl
@[simp] theorem State.setBuf_responses (p port cls : Nat) (l : List Flit) : (s.setBuf p port cls l).responses = s.responses := rfl
@[simp] theorem State.setBuf_sets (p port cls : Nat) (l : List Flit) : (s.setBuf p port cls l).sets = s.sets := rfl
@[simp] theorem State.setBuf_plates (p port cls : Nat) (l : List Flit) : (s.setBuf p port cls l).plates = s.plates := rfl
@[simp] theorem State.setBuf_dests (p port cls : Nat) (l : List Flit) : (s.setBuf p port cls l).dests = s.dests := rfl
@[simp] theorem State.setBuf_policies (p port cls : Nat) (l : List Flit) : (s.setBuf p port cls l).policies = s.policies := rfl
@[simp] theorem State.setBuf_unions (p port cls : Nat) (l : List Flit) : (s.setBuf p port cls l).unions = s.unions := rfl
@[simp] theorem State.setBuf_sweep (p port cls : Nat) (l : List Flit) : (s.setBuf p port cls l).sweep = s.sweep := rfl
@[simp] theorem State.setBuf_submissions (p port cls : Nat) (l : List Flit) : (s.setBuf p port cls l).submissions = s.submissions := rfl
@[simp] theorem State.setBuf_eventsOut (p port cls : Nat) (l : List Flit) : (s.setBuf p port cls l).eventsOut = s.eventsOut := rfl
@[simp] theorem State.setBuf_pcie (p port cls : Nat) (l : List Flit) : (s.setBuf p port cls l).pcie = s.pcie := rfl
@[simp] theorem State.setBuf_outside (p port cls : Nat) (l : List Flit) : (s.setBuf p port cls l).outside = s.outside := rfl
@[simp] theorem State.setBuf_deliveries (p port cls : Nat) (l : List Flit) : (s.setBuf p port cls l).deliveries = s.deliveries := rfl
@[simp] theorem State.setBuf_accel (p port cls : Nat) (l : List Flit) : (s.setBuf p port cls l).accel = s.accel := rfl
@[simp] theorem State.setBuf_presence (p port cls : Nat) (l : List Flit) : (s.setBuf p port cls l).presence = s.presence := rfl
@[simp] theorem State.setBuf_ports (p port cls : Nat) (l : List Flit) : (s.setBuf p port cls l).ports = s.ports := rfl
@[simp] theorem State.setBuf_linkOut (p port cls : Nat) (l : List Flit) : (s.setBuf p port cls l).linkOut = s.linkOut := rfl
@[simp] theorem State.setBuf_retired (p port cls : Nat) (l : List Flit) : (s.setBuf p port cls l).retired = s.retired := rfl
@[simp] theorem State.setBuf_replaceSeq (p port cls : Nat) (l : List Flit) : (s.setBuf p port cls l).replaceSeq = s.replaceSeq := rfl
@[simp] theorem State.setBuf_replaceBody (p port cls : Nat) (l : List Flit) : (s.setBuf p port cls l).replaceBody = s.replaceBody := rfl
@[simp] theorem State.setBuf_fwver (p port cls : Nat) (l : List Flit) : (s.setBuf p port cls l).fwver = s.fwver := rfl
@[simp] theorem State.setBuf_rollback (p port cls : Nat) (l : List Flit) : (s.setBuf p port cls l).rollback = s.rollback := rfl
@[simp] theorem State.setBuf_firmware (p port cls : Nat) (l : List Flit) : (s.setBuf p port cls l).firmware = s.firmware := rfl
@[simp] theorem State.setBuf_nextFirmware (p port cls : Nat) (l : List Flit) : (s.setBuf p port cls l).nextFirmware = s.nextFirmware := rfl
@[simp] theorem State.setBuf_debugOn (p port cls : Nat) (l : List Flit) : (s.setBuf p port cls l).debugOn = s.debugOn := rfl
@[simp] theorem State.setBuf_debugOut (p port cls : Nat) (l : List Flit) : (s.setBuf p port cls l).debugOut = s.debugOut := rfl
@[simp] theorem State.setBuf_bringUp (p port cls : Nat) (l : List Flit) : (s.setBuf p port cls l).bringUp = s.bringUp := rfl
@[simp] theorem State.setBuf_l1 (p port cls : Nat) (l : List Flit) : (s.setBuf p port cls l).l1 = s.l1 := rfl
@[simp] theorem State.setBuf_pwrlim (p port cls : Nat) (l : List Flit) : (s.setBuf p port cls l).pwrlim = s.pwrlim := rfl
@[simp] theorem State.setBuf_issueRate (p port cls : Nat) (l : List Flit) : (s.setBuf p port cls l).issueRate = s.issueRate := rfl
@[simp] theorem State.setBuf_power (p port cls : Nat) (l : List Flit) : (s.setBuf p port cls l).power = s.power := rfl
@[simp] theorem State.setBuf_status (p port cls : Nat) (l : List Flit) : (s.setBuf p port cls l).status = s.status := rfl
@[simp] theorem State.setBuf_pmtol (p port cls : Nat) (l : List Flit) : (s.setBuf p port cls l).pmtol = s.pmtol := rfl
@[simp] theorem State.setBuf_hostReqs (p port cls : Nat) (l : List Flit) : (s.setBuf p port cls l).hostReqs = s.hostReqs := rfl
@[simp] theorem State.setBuf_linkErrs (p port cls : Nat) (l : List Flit) : (s.setBuf p port cls l).linkErrs = s.linkErrs := rfl
@[simp] theorem State.setBuf_flr (p port cls : Nat) (l : List Flit) : (s.setBuf p port cls l).flr = s.flr := rfl
@[simp] theorem State.setBuf_saves (p port cls : Nat) (l : List Flit) : (s.setBuf p port cls l).saves = s.saves := rfl

/-! ### `State.setBank` -/

@[simp] theorem State.setBank_agenda (b : Nat) (v : Bank) : (s.setBank b v).agenda = s.agenda := rfl
@[simp] theorem State.setBank_tick (b : Nat) (v : Bank) : (s.setBank b v).tick = s.tick := rfl
@[simp] theorem State.setBank_firing (b : Nat) (v : Bank) : (s.setBank b v).firing = s.firing := rfl
@[simp] theorem State.setBank_cur (b : Nat) (v : Bank) : (s.setBank b v).cur = s.cur := rfl
@[simp] theorem State.setBank_nextId (b : Nat) (v : Bank) : (s.setBank b v).nextId = s.nextId := rfl
@[simp] theorem State.setBank_sram (b : Nat) (v : Bank) : (s.setBank b v).sram = s.sram := rfl
@[simp] theorem State.setBank_hbm (b : Nat) (v : Bank) : (s.setBank b v).hbm = s.hbm := rfl
@[simp] theorem State.setBank_ctl (b : Nat) (v : Bank) : (s.setBank b v).ctl = s.ctl := rfl
@[simp] theorem State.setBank_plots (b : Nat) (v : Bank) : (s.setBank b v).plots = s.plots := rfl
@[simp] theorem State.setBank_pageMap (b : Nat) (v : Bank) : (s.setBank b v).pageMap = s.pageMap := rfl
@[simp] theorem State.setBank_ctlRegion (b : Nat) (v : Bank) : (s.setBank b v).ctlRegion = s.ctlRegion := rfl
@[simp] theorem State.setBank_errs (b : Nat) (v : Bank) : (s.setBank b v).errs = s.errs := rfl
@[simp] theorem State.setBank_zeroRows (b : Nat) (v : Bank) : (s.setBank b v).zeroRows = s.zeroRows := rfl
@[simp] theorem State.setBank_elems (b : Nat) (v : Bank) : (s.setBank b v).elems = s.elems := rfl
@[simp] theorem State.setBank_bufs (b : Nat) (v : Bank) : (s.setBank b v).bufs = s.bufs := rfl
@[simp] theorem State.setBank_linkLast (b : Nat) (v : Bank) : (s.setBank b v).linkLast = s.linkLast := rfl
@[simp] theorem State.setBank_banks (b : Nat) (v : Bank) : (s.setBank b v).banks = tabPut s.banks b v := rfl
@[simp] theorem State.setBank_chans (b : Nat) (v : Bank) : (s.setBank b v).chans = s.chans := rfl
@[simp] theorem State.setBank_overflow (b : Nat) (v : Bank) : (s.setBank b v).overflow = s.overflow := rfl
@[simp] theorem State.setBank_accs (b : Nat) (v : Bank) : (s.setBank b v).accs = s.accs := rfl
@[simp] theorem State.setBank_cached (b : Nat) (v : Bank) : (s.setBank b v).cached = s.cached := rfl
@[simp] theorem State.setBank_pointers (b : Nat) (v : Bank) : (s.setBank b v).pointers = s.pointers := rfl
@[simp] theorem State.setBank_misses (b : Nat) (v : Bank) : (s.setBank b v).misses = s.misses := rfl
@[simp] theorem State.setBank_invals (b : Nat) (v : Bank) : (s.setBank b v).invals = s.invals := rfl
@[simp] theorem State.setBank_qccs (b : Nat) (v : Bank) : (s.setBank b v).qccs = s.qccs := rfl
@[simp] theorem State.setBank_press (b : Nat) (v : Bank) : (s.setBank b v).press = s.press := rfl
@[simp] theorem State.setBank_graft (b : Nat) (v : Bank) : (s.setBank b v).graft = s.graft := rfl
@[simp] theorem State.setBank_riddle (b : Nat) (v : Bank) : (s.setBank b v).riddle = s.riddle := rfl
@[simp] theorem State.setBank_pruner (b : Nat) (v : Bank) : (s.setBank b v).pruner = s.pruner := rfl
@[simp] theorem State.setBank_barrow (b : Nat) (v : Bank) : (s.setBank b v).barrow = s.barrow := rfl
@[simp] theorem State.setBank_dies (b : Nat) (v : Bank) : (s.setBank b v).dies = s.dies := rfl
@[simp] theorem State.setBank_msgs (b : Nat) (v : Bank) : (s.setBank b v).msgs = s.msgs := rfl
@[simp] theorem State.setBank_trapOut (b : Nat) (v : Bank) : (s.setBank b v).trapOut = s.trapOut := rfl
@[simp] theorem State.setBank_plateOut (b : Nat) (v : Bank) : (s.setBank b v).plateOut = s.plateOut := rfl
@[simp] theorem State.setBank_marks (b : Nat) (v : Bank) : (s.setBank b v).marks = s.marks := rfl
@[simp] theorem State.setBank_drainNotices (b : Nat) (v : Bank) : (s.setBank b v).drainNotices = s.drainNotices := rfl
@[simp] theorem State.setBank_barrRegs (b : Nat) (v : Bank) : (s.setBank b v).barrRegs = s.barrRegs := rfl
@[simp] theorem State.setBank_barrDone (b : Nat) (v : Bank) : (s.setBank b v).barrDone = s.barrDone := rfl
@[simp] theorem State.setBank_softErrors (b : Nat) (v : Bank) : (s.setBank b v).softErrors = s.softErrors := rfl
@[simp] theorem State.setBank_ctxs (b : Nat) (v : Bank) : (s.setBank b v).ctxs = s.ctxs := rfl
@[simp] theorem State.setBank_images (b : Nat) (v : Bank) : (s.setBank b v).images = s.images := rfl
@[simp] theorem State.setBank_parts (b : Nat) (v : Bank) : (s.setBank b v).parts = s.parts := rfl
@[simp] theorem State.setBank_vfs (b : Nat) (v : Bank) : (s.setBank b v).vfs = s.vfs := rfl
@[simp] theorem State.setBank_lastServed (b : Nat) (v : Bank) : (s.setBank b v).lastServed = s.lastServed := rfl
@[simp] theorem State.setBank_toSpine (b : Nat) (v : Bank) : (s.setBank b v).toSpine = s.toSpine := rfl
@[simp] theorem State.setBank_batches (b : Nat) (v : Bank) : (s.setBank b v).batches = s.batches := rfl
@[simp] theorem State.setBank_responses (b : Nat) (v : Bank) : (s.setBank b v).responses = s.responses := rfl
@[simp] theorem State.setBank_sets (b : Nat) (v : Bank) : (s.setBank b v).sets = s.sets := rfl
@[simp] theorem State.setBank_plates (b : Nat) (v : Bank) : (s.setBank b v).plates = s.plates := rfl
@[simp] theorem State.setBank_dests (b : Nat) (v : Bank) : (s.setBank b v).dests = s.dests := rfl
@[simp] theorem State.setBank_policies (b : Nat) (v : Bank) : (s.setBank b v).policies = s.policies := rfl
@[simp] theorem State.setBank_unions (b : Nat) (v : Bank) : (s.setBank b v).unions = s.unions := rfl
@[simp] theorem State.setBank_sweep (b : Nat) (v : Bank) : (s.setBank b v).sweep = s.sweep := rfl
@[simp] theorem State.setBank_submissions (b : Nat) (v : Bank) : (s.setBank b v).submissions = s.submissions := rfl
@[simp] theorem State.setBank_eventsOut (b : Nat) (v : Bank) : (s.setBank b v).eventsOut = s.eventsOut := rfl
@[simp] theorem State.setBank_pcie (b : Nat) (v : Bank) : (s.setBank b v).pcie = s.pcie := rfl
@[simp] theorem State.setBank_outside (b : Nat) (v : Bank) : (s.setBank b v).outside = s.outside := rfl
@[simp] theorem State.setBank_deliveries (b : Nat) (v : Bank) : (s.setBank b v).deliveries = s.deliveries := rfl
@[simp] theorem State.setBank_accel (b : Nat) (v : Bank) : (s.setBank b v).accel = s.accel := rfl
@[simp] theorem State.setBank_presence (b : Nat) (v : Bank) : (s.setBank b v).presence = s.presence := rfl
@[simp] theorem State.setBank_ports (b : Nat) (v : Bank) : (s.setBank b v).ports = s.ports := rfl
@[simp] theorem State.setBank_linkOut (b : Nat) (v : Bank) : (s.setBank b v).linkOut = s.linkOut := rfl
@[simp] theorem State.setBank_retired (b : Nat) (v : Bank) : (s.setBank b v).retired = s.retired := rfl
@[simp] theorem State.setBank_replaceSeq (b : Nat) (v : Bank) : (s.setBank b v).replaceSeq = s.replaceSeq := rfl
@[simp] theorem State.setBank_replaceBody (b : Nat) (v : Bank) : (s.setBank b v).replaceBody = s.replaceBody := rfl
@[simp] theorem State.setBank_fwver (b : Nat) (v : Bank) : (s.setBank b v).fwver = s.fwver := rfl
@[simp] theorem State.setBank_rollback (b : Nat) (v : Bank) : (s.setBank b v).rollback = s.rollback := rfl
@[simp] theorem State.setBank_firmware (b : Nat) (v : Bank) : (s.setBank b v).firmware = s.firmware := rfl
@[simp] theorem State.setBank_nextFirmware (b : Nat) (v : Bank) : (s.setBank b v).nextFirmware = s.nextFirmware := rfl
@[simp] theorem State.setBank_debugOn (b : Nat) (v : Bank) : (s.setBank b v).debugOn = s.debugOn := rfl
@[simp] theorem State.setBank_debugOut (b : Nat) (v : Bank) : (s.setBank b v).debugOut = s.debugOut := rfl
@[simp] theorem State.setBank_bringUp (b : Nat) (v : Bank) : (s.setBank b v).bringUp = s.bringUp := rfl
@[simp] theorem State.setBank_l1 (b : Nat) (v : Bank) : (s.setBank b v).l1 = s.l1 := rfl
@[simp] theorem State.setBank_pwrlim (b : Nat) (v : Bank) : (s.setBank b v).pwrlim = s.pwrlim := rfl
@[simp] theorem State.setBank_issueRate (b : Nat) (v : Bank) : (s.setBank b v).issueRate = s.issueRate := rfl
@[simp] theorem State.setBank_power (b : Nat) (v : Bank) : (s.setBank b v).power = s.power := rfl
@[simp] theorem State.setBank_status (b : Nat) (v : Bank) : (s.setBank b v).status = s.status := rfl
@[simp] theorem State.setBank_pmtol (b : Nat) (v : Bank) : (s.setBank b v).pmtol = s.pmtol := rfl
@[simp] theorem State.setBank_hostReqs (b : Nat) (v : Bank) : (s.setBank b v).hostReqs = s.hostReqs := rfl
@[simp] theorem State.setBank_linkErrs (b : Nat) (v : Bank) : (s.setBank b v).linkErrs = s.linkErrs := rfl
@[simp] theorem State.setBank_flr (b : Nat) (v : Bank) : (s.setBank b v).flr = s.flr := rfl
@[simp] theorem State.setBank_saves (b : Nat) (v : Bank) : (s.setBank b v).saves = s.saves := rfl

/-! ### `State.setChan` -/

@[simp] theorem State.setChan_agenda (c : Nat) (v : Chan) : (s.setChan c v).agenda = s.agenda := rfl
@[simp] theorem State.setChan_tick (c : Nat) (v : Chan) : (s.setChan c v).tick = s.tick := rfl
@[simp] theorem State.setChan_firing (c : Nat) (v : Chan) : (s.setChan c v).firing = s.firing := rfl
@[simp] theorem State.setChan_cur (c : Nat) (v : Chan) : (s.setChan c v).cur = s.cur := rfl
@[simp] theorem State.setChan_nextId (c : Nat) (v : Chan) : (s.setChan c v).nextId = s.nextId := rfl
@[simp] theorem State.setChan_sram (c : Nat) (v : Chan) : (s.setChan c v).sram = s.sram := rfl
@[simp] theorem State.setChan_hbm (c : Nat) (v : Chan) : (s.setChan c v).hbm = s.hbm := rfl
@[simp] theorem State.setChan_ctl (c : Nat) (v : Chan) : (s.setChan c v).ctl = s.ctl := rfl
@[simp] theorem State.setChan_plots (c : Nat) (v : Chan) : (s.setChan c v).plots = s.plots := rfl
@[simp] theorem State.setChan_pageMap (c : Nat) (v : Chan) : (s.setChan c v).pageMap = s.pageMap := rfl
@[simp] theorem State.setChan_ctlRegion (c : Nat) (v : Chan) : (s.setChan c v).ctlRegion = s.ctlRegion := rfl
@[simp] theorem State.setChan_errs (c : Nat) (v : Chan) : (s.setChan c v).errs = s.errs := rfl
@[simp] theorem State.setChan_zeroRows (c : Nat) (v : Chan) : (s.setChan c v).zeroRows = s.zeroRows := rfl
@[simp] theorem State.setChan_elems (c : Nat) (v : Chan) : (s.setChan c v).elems = s.elems := rfl
@[simp] theorem State.setChan_bufs (c : Nat) (v : Chan) : (s.setChan c v).bufs = s.bufs := rfl
@[simp] theorem State.setChan_linkLast (c : Nat) (v : Chan) : (s.setChan c v).linkLast = s.linkLast := rfl
@[simp] theorem State.setChan_banks (c : Nat) (v : Chan) : (s.setChan c v).banks = s.banks := rfl
@[simp] theorem State.setChan_chans (c : Nat) (v : Chan) : (s.setChan c v).chans = tabPut s.chans c v := rfl
@[simp] theorem State.setChan_overflow (c : Nat) (v : Chan) : (s.setChan c v).overflow = s.overflow := rfl
@[simp] theorem State.setChan_accs (c : Nat) (v : Chan) : (s.setChan c v).accs = s.accs := rfl
@[simp] theorem State.setChan_cached (c : Nat) (v : Chan) : (s.setChan c v).cached = s.cached := rfl
@[simp] theorem State.setChan_pointers (c : Nat) (v : Chan) : (s.setChan c v).pointers = s.pointers := rfl
@[simp] theorem State.setChan_misses (c : Nat) (v : Chan) : (s.setChan c v).misses = s.misses := rfl
@[simp] theorem State.setChan_invals (c : Nat) (v : Chan) : (s.setChan c v).invals = s.invals := rfl
@[simp] theorem State.setChan_qccs (c : Nat) (v : Chan) : (s.setChan c v).qccs = s.qccs := rfl
@[simp] theorem State.setChan_press (c : Nat) (v : Chan) : (s.setChan c v).press = s.press := rfl
@[simp] theorem State.setChan_graft (c : Nat) (v : Chan) : (s.setChan c v).graft = s.graft := rfl
@[simp] theorem State.setChan_riddle (c : Nat) (v : Chan) : (s.setChan c v).riddle = s.riddle := rfl
@[simp] theorem State.setChan_pruner (c : Nat) (v : Chan) : (s.setChan c v).pruner = s.pruner := rfl
@[simp] theorem State.setChan_barrow (c : Nat) (v : Chan) : (s.setChan c v).barrow = s.barrow := rfl
@[simp] theorem State.setChan_dies (c : Nat) (v : Chan) : (s.setChan c v).dies = s.dies := rfl
@[simp] theorem State.setChan_msgs (c : Nat) (v : Chan) : (s.setChan c v).msgs = s.msgs := rfl
@[simp] theorem State.setChan_trapOut (c : Nat) (v : Chan) : (s.setChan c v).trapOut = s.trapOut := rfl
@[simp] theorem State.setChan_plateOut (c : Nat) (v : Chan) : (s.setChan c v).plateOut = s.plateOut := rfl
@[simp] theorem State.setChan_marks (c : Nat) (v : Chan) : (s.setChan c v).marks = s.marks := rfl
@[simp] theorem State.setChan_drainNotices (c : Nat) (v : Chan) : (s.setChan c v).drainNotices = s.drainNotices := rfl
@[simp] theorem State.setChan_barrRegs (c : Nat) (v : Chan) : (s.setChan c v).barrRegs = s.barrRegs := rfl
@[simp] theorem State.setChan_barrDone (c : Nat) (v : Chan) : (s.setChan c v).barrDone = s.barrDone := rfl
@[simp] theorem State.setChan_softErrors (c : Nat) (v : Chan) : (s.setChan c v).softErrors = s.softErrors := rfl
@[simp] theorem State.setChan_ctxs (c : Nat) (v : Chan) : (s.setChan c v).ctxs = s.ctxs := rfl
@[simp] theorem State.setChan_images (c : Nat) (v : Chan) : (s.setChan c v).images = s.images := rfl
@[simp] theorem State.setChan_parts (c : Nat) (v : Chan) : (s.setChan c v).parts = s.parts := rfl
@[simp] theorem State.setChan_vfs (c : Nat) (v : Chan) : (s.setChan c v).vfs = s.vfs := rfl
@[simp] theorem State.setChan_lastServed (c : Nat) (v : Chan) : (s.setChan c v).lastServed = s.lastServed := rfl
@[simp] theorem State.setChan_toSpine (c : Nat) (v : Chan) : (s.setChan c v).toSpine = s.toSpine := rfl
@[simp] theorem State.setChan_batches (c : Nat) (v : Chan) : (s.setChan c v).batches = s.batches := rfl
@[simp] theorem State.setChan_responses (c : Nat) (v : Chan) : (s.setChan c v).responses = s.responses := rfl
@[simp] theorem State.setChan_sets (c : Nat) (v : Chan) : (s.setChan c v).sets = s.sets := rfl
@[simp] theorem State.setChan_plates (c : Nat) (v : Chan) : (s.setChan c v).plates = s.plates := rfl
@[simp] theorem State.setChan_dests (c : Nat) (v : Chan) : (s.setChan c v).dests = s.dests := rfl
@[simp] theorem State.setChan_policies (c : Nat) (v : Chan) : (s.setChan c v).policies = s.policies := rfl
@[simp] theorem State.setChan_unions (c : Nat) (v : Chan) : (s.setChan c v).unions = s.unions := rfl
@[simp] theorem State.setChan_sweep (c : Nat) (v : Chan) : (s.setChan c v).sweep = s.sweep := rfl
@[simp] theorem State.setChan_submissions (c : Nat) (v : Chan) : (s.setChan c v).submissions = s.submissions := rfl
@[simp] theorem State.setChan_eventsOut (c : Nat) (v : Chan) : (s.setChan c v).eventsOut = s.eventsOut := rfl
@[simp] theorem State.setChan_pcie (c : Nat) (v : Chan) : (s.setChan c v).pcie = s.pcie := rfl
@[simp] theorem State.setChan_outside (c : Nat) (v : Chan) : (s.setChan c v).outside = s.outside := rfl
@[simp] theorem State.setChan_deliveries (c : Nat) (v : Chan) : (s.setChan c v).deliveries = s.deliveries := rfl
@[simp] theorem State.setChan_accel (c : Nat) (v : Chan) : (s.setChan c v).accel = s.accel := rfl
@[simp] theorem State.setChan_presence (c : Nat) (v : Chan) : (s.setChan c v).presence = s.presence := rfl
@[simp] theorem State.setChan_ports (c : Nat) (v : Chan) : (s.setChan c v).ports = s.ports := rfl
@[simp] theorem State.setChan_linkOut (c : Nat) (v : Chan) : (s.setChan c v).linkOut = s.linkOut := rfl
@[simp] theorem State.setChan_retired (c : Nat) (v : Chan) : (s.setChan c v).retired = s.retired := rfl
@[simp] theorem State.setChan_replaceSeq (c : Nat) (v : Chan) : (s.setChan c v).replaceSeq = s.replaceSeq := rfl
@[simp] theorem State.setChan_replaceBody (c : Nat) (v : Chan) : (s.setChan c v).replaceBody = s.replaceBody := rfl
@[simp] theorem State.setChan_fwver (c : Nat) (v : Chan) : (s.setChan c v).fwver = s.fwver := rfl
@[simp] theorem State.setChan_rollback (c : Nat) (v : Chan) : (s.setChan c v).rollback = s.rollback := rfl
@[simp] theorem State.setChan_firmware (c : Nat) (v : Chan) : (s.setChan c v).firmware = s.firmware := rfl
@[simp] theorem State.setChan_nextFirmware (c : Nat) (v : Chan) : (s.setChan c v).nextFirmware = s.nextFirmware := rfl
@[simp] theorem State.setChan_debugOn (c : Nat) (v : Chan) : (s.setChan c v).debugOn = s.debugOn := rfl
@[simp] theorem State.setChan_debugOut (c : Nat) (v : Chan) : (s.setChan c v).debugOut = s.debugOut := rfl
@[simp] theorem State.setChan_bringUp (c : Nat) (v : Chan) : (s.setChan c v).bringUp = s.bringUp := rfl
@[simp] theorem State.setChan_l1 (c : Nat) (v : Chan) : (s.setChan c v).l1 = s.l1 := rfl
@[simp] theorem State.setChan_pwrlim (c : Nat) (v : Chan) : (s.setChan c v).pwrlim = s.pwrlim := rfl
@[simp] theorem State.setChan_issueRate (c : Nat) (v : Chan) : (s.setChan c v).issueRate = s.issueRate := rfl
@[simp] theorem State.setChan_power (c : Nat) (v : Chan) : (s.setChan c v).power = s.power := rfl
@[simp] theorem State.setChan_status (c : Nat) (v : Chan) : (s.setChan c v).status = s.status := rfl
@[simp] theorem State.setChan_pmtol (c : Nat) (v : Chan) : (s.setChan c v).pmtol = s.pmtol := rfl
@[simp] theorem State.setChan_hostReqs (c : Nat) (v : Chan) : (s.setChan c v).hostReqs = s.hostReqs := rfl
@[simp] theorem State.setChan_linkErrs (c : Nat) (v : Chan) : (s.setChan c v).linkErrs = s.linkErrs := rfl
@[simp] theorem State.setChan_flr (c : Nat) (v : Chan) : (s.setChan c v).flr = s.flr := rfl
@[simp] theorem State.setChan_saves (c : Nat) (v : Chan) : (s.setChan c v).saves = s.saves := rfl

/-! ### `State.setOvf` -/

@[simp] theorem State.setOvf_agenda (q : Nat) (v : Overflow) : (s.setOvf q v).agenda = s.agenda := rfl
@[simp] theorem State.setOvf_tick (q : Nat) (v : Overflow) : (s.setOvf q v).tick = s.tick := rfl
@[simp] theorem State.setOvf_firing (q : Nat) (v : Overflow) : (s.setOvf q v).firing = s.firing := rfl
@[simp] theorem State.setOvf_cur (q : Nat) (v : Overflow) : (s.setOvf q v).cur = s.cur := rfl
@[simp] theorem State.setOvf_nextId (q : Nat) (v : Overflow) : (s.setOvf q v).nextId = s.nextId := rfl
@[simp] theorem State.setOvf_sram (q : Nat) (v : Overflow) : (s.setOvf q v).sram = s.sram := rfl
@[simp] theorem State.setOvf_hbm (q : Nat) (v : Overflow) : (s.setOvf q v).hbm = s.hbm := rfl
@[simp] theorem State.setOvf_ctl (q : Nat) (v : Overflow) : (s.setOvf q v).ctl = s.ctl := rfl
@[simp] theorem State.setOvf_plots (q : Nat) (v : Overflow) : (s.setOvf q v).plots = s.plots := rfl
@[simp] theorem State.setOvf_pageMap (q : Nat) (v : Overflow) : (s.setOvf q v).pageMap = s.pageMap := rfl
@[simp] theorem State.setOvf_ctlRegion (q : Nat) (v : Overflow) : (s.setOvf q v).ctlRegion = s.ctlRegion := rfl
@[simp] theorem State.setOvf_errs (q : Nat) (v : Overflow) : (s.setOvf q v).errs = s.errs := rfl
@[simp] theorem State.setOvf_zeroRows (q : Nat) (v : Overflow) : (s.setOvf q v).zeroRows = s.zeroRows := rfl
@[simp] theorem State.setOvf_elems (q : Nat) (v : Overflow) : (s.setOvf q v).elems = s.elems := rfl
@[simp] theorem State.setOvf_bufs (q : Nat) (v : Overflow) : (s.setOvf q v).bufs = s.bufs := rfl
@[simp] theorem State.setOvf_linkLast (q : Nat) (v : Overflow) : (s.setOvf q v).linkLast = s.linkLast := rfl
@[simp] theorem State.setOvf_banks (q : Nat) (v : Overflow) : (s.setOvf q v).banks = s.banks := rfl
@[simp] theorem State.setOvf_chans (q : Nat) (v : Overflow) : (s.setOvf q v).chans = s.chans := rfl
@[simp] theorem State.setOvf_overflow (q : Nat) (v : Overflow) : (s.setOvf q v).overflow = tabPut s.overflow q v := rfl
@[simp] theorem State.setOvf_accs (q : Nat) (v : Overflow) : (s.setOvf q v).accs = s.accs := rfl
@[simp] theorem State.setOvf_cached (q : Nat) (v : Overflow) : (s.setOvf q v).cached = s.cached := rfl
@[simp] theorem State.setOvf_pointers (q : Nat) (v : Overflow) : (s.setOvf q v).pointers = s.pointers := rfl
@[simp] theorem State.setOvf_misses (q : Nat) (v : Overflow) : (s.setOvf q v).misses = s.misses := rfl
@[simp] theorem State.setOvf_invals (q : Nat) (v : Overflow) : (s.setOvf q v).invals = s.invals := rfl
@[simp] theorem State.setOvf_qccs (q : Nat) (v : Overflow) : (s.setOvf q v).qccs = s.qccs := rfl
@[simp] theorem State.setOvf_press (q : Nat) (v : Overflow) : (s.setOvf q v).press = s.press := rfl
@[simp] theorem State.setOvf_graft (q : Nat) (v : Overflow) : (s.setOvf q v).graft = s.graft := rfl
@[simp] theorem State.setOvf_riddle (q : Nat) (v : Overflow) : (s.setOvf q v).riddle = s.riddle := rfl
@[simp] theorem State.setOvf_pruner (q : Nat) (v : Overflow) : (s.setOvf q v).pruner = s.pruner := rfl
@[simp] theorem State.setOvf_barrow (q : Nat) (v : Overflow) : (s.setOvf q v).barrow = s.barrow := rfl
@[simp] theorem State.setOvf_dies (q : Nat) (v : Overflow) : (s.setOvf q v).dies = s.dies := rfl
@[simp] theorem State.setOvf_msgs (q : Nat) (v : Overflow) : (s.setOvf q v).msgs = s.msgs := rfl
@[simp] theorem State.setOvf_trapOut (q : Nat) (v : Overflow) : (s.setOvf q v).trapOut = s.trapOut := rfl
@[simp] theorem State.setOvf_plateOut (q : Nat) (v : Overflow) : (s.setOvf q v).plateOut = s.plateOut := rfl
@[simp] theorem State.setOvf_marks (q : Nat) (v : Overflow) : (s.setOvf q v).marks = s.marks := rfl
@[simp] theorem State.setOvf_drainNotices (q : Nat) (v : Overflow) : (s.setOvf q v).drainNotices = s.drainNotices := rfl
@[simp] theorem State.setOvf_barrRegs (q : Nat) (v : Overflow) : (s.setOvf q v).barrRegs = s.barrRegs := rfl
@[simp] theorem State.setOvf_barrDone (q : Nat) (v : Overflow) : (s.setOvf q v).barrDone = s.barrDone := rfl
@[simp] theorem State.setOvf_softErrors (q : Nat) (v : Overflow) : (s.setOvf q v).softErrors = s.softErrors := rfl
@[simp] theorem State.setOvf_ctxs (q : Nat) (v : Overflow) : (s.setOvf q v).ctxs = s.ctxs := rfl
@[simp] theorem State.setOvf_images (q : Nat) (v : Overflow) : (s.setOvf q v).images = s.images := rfl
@[simp] theorem State.setOvf_parts (q : Nat) (v : Overflow) : (s.setOvf q v).parts = s.parts := rfl
@[simp] theorem State.setOvf_vfs (q : Nat) (v : Overflow) : (s.setOvf q v).vfs = s.vfs := rfl
@[simp] theorem State.setOvf_lastServed (q : Nat) (v : Overflow) : (s.setOvf q v).lastServed = s.lastServed := rfl
@[simp] theorem State.setOvf_toSpine (q : Nat) (v : Overflow) : (s.setOvf q v).toSpine = s.toSpine := rfl
@[simp] theorem State.setOvf_batches (q : Nat) (v : Overflow) : (s.setOvf q v).batches = s.batches := rfl
@[simp] theorem State.setOvf_responses (q : Nat) (v : Overflow) : (s.setOvf q v).responses = s.responses := rfl
@[simp] theorem State.setOvf_sets (q : Nat) (v : Overflow) : (s.setOvf q v).sets = s.sets := rfl
@[simp] theorem State.setOvf_plates (q : Nat) (v : Overflow) : (s.setOvf q v).plates = s.plates := rfl
@[simp] theorem State.setOvf_dests (q : Nat) (v : Overflow) : (s.setOvf q v).dests = s.dests := rfl
@[simp] theorem State.setOvf_policies (q : Nat) (v : Overflow) : (s.setOvf q v).policies = s.policies := rfl
@[simp] theorem State.setOvf_unions (q : Nat) (v : Overflow) : (s.setOvf q v).unions = s.unions := rfl
@[simp] theorem State.setOvf_sweep (q : Nat) (v : Overflow) : (s.setOvf q v).sweep = s.sweep := rfl
@[simp] theorem State.setOvf_submissions (q : Nat) (v : Overflow) : (s.setOvf q v).submissions = s.submissions := rfl
@[simp] theorem State.setOvf_eventsOut (q : Nat) (v : Overflow) : (s.setOvf q v).eventsOut = s.eventsOut := rfl
@[simp] theorem State.setOvf_pcie (q : Nat) (v : Overflow) : (s.setOvf q v).pcie = s.pcie := rfl
@[simp] theorem State.setOvf_outside (q : Nat) (v : Overflow) : (s.setOvf q v).outside = s.outside := rfl
@[simp] theorem State.setOvf_deliveries (q : Nat) (v : Overflow) : (s.setOvf q v).deliveries = s.deliveries := rfl
@[simp] theorem State.setOvf_accel (q : Nat) (v : Overflow) : (s.setOvf q v).accel = s.accel := rfl
@[simp] theorem State.setOvf_presence (q : Nat) (v : Overflow) : (s.setOvf q v).presence = s.presence := rfl
@[simp] theorem State.setOvf_ports (q : Nat) (v : Overflow) : (s.setOvf q v).ports = s.ports := rfl
@[simp] theorem State.setOvf_linkOut (q : Nat) (v : Overflow) : (s.setOvf q v).linkOut = s.linkOut := rfl
@[simp] theorem State.setOvf_retired (q : Nat) (v : Overflow) : (s.setOvf q v).retired = s.retired := rfl
@[simp] theorem State.setOvf_replaceSeq (q : Nat) (v : Overflow) : (s.setOvf q v).replaceSeq = s.replaceSeq := rfl
@[simp] theorem State.setOvf_replaceBody (q : Nat) (v : Overflow) : (s.setOvf q v).replaceBody = s.replaceBody := rfl
@[simp] theorem State.setOvf_fwver (q : Nat) (v : Overflow) : (s.setOvf q v).fwver = s.fwver := rfl
@[simp] theorem State.setOvf_rollback (q : Nat) (v : Overflow) : (s.setOvf q v).rollback = s.rollback := rfl
@[simp] theorem State.setOvf_firmware (q : Nat) (v : Overflow) : (s.setOvf q v).firmware = s.firmware := rfl
@[simp] theorem State.setOvf_nextFirmware (q : Nat) (v : Overflow) : (s.setOvf q v).nextFirmware = s.nextFirmware := rfl
@[simp] theorem State.setOvf_debugOn (q : Nat) (v : Overflow) : (s.setOvf q v).debugOn = s.debugOn := rfl
@[simp] theorem State.setOvf_debugOut (q : Nat) (v : Overflow) : (s.setOvf q v).debugOut = s.debugOut := rfl
@[simp] theorem State.setOvf_bringUp (q : Nat) (v : Overflow) : (s.setOvf q v).bringUp = s.bringUp := rfl
@[simp] theorem State.setOvf_l1 (q : Nat) (v : Overflow) : (s.setOvf q v).l1 = s.l1 := rfl
@[simp] theorem State.setOvf_pwrlim (q : Nat) (v : Overflow) : (s.setOvf q v).pwrlim = s.pwrlim := rfl
@[simp] theorem State.setOvf_issueRate (q : Nat) (v : Overflow) : (s.setOvf q v).issueRate = s.issueRate := rfl
@[simp] theorem State.setOvf_power (q : Nat) (v : Overflow) : (s.setOvf q v).power = s.power := rfl
@[simp] theorem State.setOvf_status (q : Nat) (v : Overflow) : (s.setOvf q v).status = s.status := rfl
@[simp] theorem State.setOvf_pmtol (q : Nat) (v : Overflow) : (s.setOvf q v).pmtol = s.pmtol := rfl
@[simp] theorem State.setOvf_hostReqs (q : Nat) (v : Overflow) : (s.setOvf q v).hostReqs = s.hostReqs := rfl
@[simp] theorem State.setOvf_linkErrs (q : Nat) (v : Overflow) : (s.setOvf q v).linkErrs = s.linkErrs := rfl
@[simp] theorem State.setOvf_flr (q : Nat) (v : Overflow) : (s.setOvf q v).flr = s.flr := rfl
@[simp] theorem State.setOvf_saves (q : Nat) (v : Overflow) : (s.setOvf q v).saves = s.saves := rfl

/-! ### `State.setPlot` -/

@[simp] theorem State.setPlot_agenda (n : Nat) (v : Plot) : (s.setPlot n v).agenda = s.agenda := rfl
@[simp] theorem State.setPlot_tick (n : Nat) (v : Plot) : (s.setPlot n v).tick = s.tick := rfl
@[simp] theorem State.setPlot_firing (n : Nat) (v : Plot) : (s.setPlot n v).firing = s.firing := rfl
@[simp] theorem State.setPlot_cur (n : Nat) (v : Plot) : (s.setPlot n v).cur = s.cur := rfl
@[simp] theorem State.setPlot_nextId (n : Nat) (v : Plot) : (s.setPlot n v).nextId = s.nextId := rfl
@[simp] theorem State.setPlot_sram (n : Nat) (v : Plot) : (s.setPlot n v).sram = s.sram := rfl
@[simp] theorem State.setPlot_hbm (n : Nat) (v : Plot) : (s.setPlot n v).hbm = s.hbm := rfl
@[simp] theorem State.setPlot_ctl (n : Nat) (v : Plot) : (s.setPlot n v).ctl = s.ctl := rfl
@[simp] theorem State.setPlot_plots (n : Nat) (v : Plot) : (s.setPlot n v).plots = tabPut s.plots n v := rfl
@[simp] theorem State.setPlot_pageMap (n : Nat) (v : Plot) : (s.setPlot n v).pageMap = s.pageMap := rfl
@[simp] theorem State.setPlot_ctlRegion (n : Nat) (v : Plot) : (s.setPlot n v).ctlRegion = s.ctlRegion := rfl
@[simp] theorem State.setPlot_errs (n : Nat) (v : Plot) : (s.setPlot n v).errs = s.errs := rfl
@[simp] theorem State.setPlot_zeroRows (n : Nat) (v : Plot) : (s.setPlot n v).zeroRows = s.zeroRows := rfl
@[simp] theorem State.setPlot_elems (n : Nat) (v : Plot) : (s.setPlot n v).elems = s.elems := rfl
@[simp] theorem State.setPlot_bufs (n : Nat) (v : Plot) : (s.setPlot n v).bufs = s.bufs := rfl
@[simp] theorem State.setPlot_linkLast (n : Nat) (v : Plot) : (s.setPlot n v).linkLast = s.linkLast := rfl
@[simp] theorem State.setPlot_banks (n : Nat) (v : Plot) : (s.setPlot n v).banks = s.banks := rfl
@[simp] theorem State.setPlot_chans (n : Nat) (v : Plot) : (s.setPlot n v).chans = s.chans := rfl
@[simp] theorem State.setPlot_overflow (n : Nat) (v : Plot) : (s.setPlot n v).overflow = s.overflow := rfl
@[simp] theorem State.setPlot_accs (n : Nat) (v : Plot) : (s.setPlot n v).accs = s.accs := rfl
@[simp] theorem State.setPlot_cached (n : Nat) (v : Plot) : (s.setPlot n v).cached = s.cached := rfl
@[simp] theorem State.setPlot_pointers (n : Nat) (v : Plot) : (s.setPlot n v).pointers = s.pointers := rfl
@[simp] theorem State.setPlot_misses (n : Nat) (v : Plot) : (s.setPlot n v).misses = s.misses := rfl
@[simp] theorem State.setPlot_invals (n : Nat) (v : Plot) : (s.setPlot n v).invals = s.invals := rfl
@[simp] theorem State.setPlot_qccs (n : Nat) (v : Plot) : (s.setPlot n v).qccs = s.qccs := rfl
@[simp] theorem State.setPlot_press (n : Nat) (v : Plot) : (s.setPlot n v).press = s.press := rfl
@[simp] theorem State.setPlot_graft (n : Nat) (v : Plot) : (s.setPlot n v).graft = s.graft := rfl
@[simp] theorem State.setPlot_riddle (n : Nat) (v : Plot) : (s.setPlot n v).riddle = s.riddle := rfl
@[simp] theorem State.setPlot_pruner (n : Nat) (v : Plot) : (s.setPlot n v).pruner = s.pruner := rfl
@[simp] theorem State.setPlot_barrow (n : Nat) (v : Plot) : (s.setPlot n v).barrow = s.barrow := rfl
@[simp] theorem State.setPlot_dies (n : Nat) (v : Plot) : (s.setPlot n v).dies = s.dies := rfl
@[simp] theorem State.setPlot_msgs (n : Nat) (v : Plot) : (s.setPlot n v).msgs = s.msgs := rfl
@[simp] theorem State.setPlot_trapOut (n : Nat) (v : Plot) : (s.setPlot n v).trapOut = s.trapOut := rfl
@[simp] theorem State.setPlot_plateOut (n : Nat) (v : Plot) : (s.setPlot n v).plateOut = s.plateOut := rfl
@[simp] theorem State.setPlot_marks (n : Nat) (v : Plot) : (s.setPlot n v).marks = s.marks := rfl
@[simp] theorem State.setPlot_drainNotices (n : Nat) (v : Plot) : (s.setPlot n v).drainNotices = s.drainNotices := rfl
@[simp] theorem State.setPlot_barrRegs (n : Nat) (v : Plot) : (s.setPlot n v).barrRegs = s.barrRegs := rfl
@[simp] theorem State.setPlot_barrDone (n : Nat) (v : Plot) : (s.setPlot n v).barrDone = s.barrDone := rfl
@[simp] theorem State.setPlot_softErrors (n : Nat) (v : Plot) : (s.setPlot n v).softErrors = s.softErrors := rfl
@[simp] theorem State.setPlot_ctxs (n : Nat) (v : Plot) : (s.setPlot n v).ctxs = s.ctxs := rfl
@[simp] theorem State.setPlot_images (n : Nat) (v : Plot) : (s.setPlot n v).images = s.images := rfl
@[simp] theorem State.setPlot_parts (n : Nat) (v : Plot) : (s.setPlot n v).parts = s.parts := rfl
@[simp] theorem State.setPlot_vfs (n : Nat) (v : Plot) : (s.setPlot n v).vfs = s.vfs := rfl
@[simp] theorem State.setPlot_lastServed (n : Nat) (v : Plot) : (s.setPlot n v).lastServed = s.lastServed := rfl
@[simp] theorem State.setPlot_toSpine (n : Nat) (v : Plot) : (s.setPlot n v).toSpine = s.toSpine := rfl
@[simp] theorem State.setPlot_batches (n : Nat) (v : Plot) : (s.setPlot n v).batches = s.batches := rfl
@[simp] theorem State.setPlot_responses (n : Nat) (v : Plot) : (s.setPlot n v).responses = s.responses := rfl
@[simp] theorem State.setPlot_sets (n : Nat) (v : Plot) : (s.setPlot n v).sets = s.sets := rfl
@[simp] theorem State.setPlot_plates (n : Nat) (v : Plot) : (s.setPlot n v).plates = s.plates := rfl
@[simp] theorem State.setPlot_dests (n : Nat) (v : Plot) : (s.setPlot n v).dests = s.dests := rfl
@[simp] theorem State.setPlot_policies (n : Nat) (v : Plot) : (s.setPlot n v).policies = s.policies := rfl
@[simp] theorem State.setPlot_unions (n : Nat) (v : Plot) : (s.setPlot n v).unions = s.unions := rfl
@[simp] theorem State.setPlot_sweep (n : Nat) (v : Plot) : (s.setPlot n v).sweep = s.sweep := rfl
@[simp] theorem State.setPlot_submissions (n : Nat) (v : Plot) : (s.setPlot n v).submissions = s.submissions := rfl
@[simp] theorem State.setPlot_eventsOut (n : Nat) (v : Plot) : (s.setPlot n v).eventsOut = s.eventsOut := rfl
@[simp] theorem State.setPlot_pcie (n : Nat) (v : Plot) : (s.setPlot n v).pcie = s.pcie := rfl
@[simp] theorem State.setPlot_outside (n : Nat) (v : Plot) : (s.setPlot n v).outside = s.outside := rfl
@[simp] theorem State.setPlot_deliveries (n : Nat) (v : Plot) : (s.setPlot n v).deliveries = s.deliveries := rfl
@[simp] theorem State.setPlot_accel (n : Nat) (v : Plot) : (s.setPlot n v).accel = s.accel := rfl
@[simp] theorem State.setPlot_presence (n : Nat) (v : Plot) : (s.setPlot n v).presence = s.presence := rfl
@[simp] theorem State.setPlot_ports (n : Nat) (v : Plot) : (s.setPlot n v).ports = s.ports := rfl
@[simp] theorem State.setPlot_linkOut (n : Nat) (v : Plot) : (s.setPlot n v).linkOut = s.linkOut := rfl
@[simp] theorem State.setPlot_retired (n : Nat) (v : Plot) : (s.setPlot n v).retired = s.retired := rfl
@[simp] theorem State.setPlot_replaceSeq (n : Nat) (v : Plot) : (s.setPlot n v).replaceSeq = s.replaceSeq := rfl
@[simp] theorem State.setPlot_replaceBody (n : Nat) (v : Plot) : (s.setPlot n v).replaceBody = s.replaceBody := rfl
@[simp] theorem State.setPlot_fwver (n : Nat) (v : Plot) : (s.setPlot n v).fwver = s.fwver := rfl
@[simp] theorem State.setPlot_rollback (n : Nat) (v : Plot) : (s.setPlot n v).rollback = s.rollback := rfl
@[simp] theorem State.setPlot_firmware (n : Nat) (v : Plot) : (s.setPlot n v).firmware = s.firmware := rfl
@[simp] theorem State.setPlot_nextFirmware (n : Nat) (v : Plot) : (s.setPlot n v).nextFirmware = s.nextFirmware := rfl
@[simp] theorem State.setPlot_debugOn (n : Nat) (v : Plot) : (s.setPlot n v).debugOn = s.debugOn := rfl
@[simp] theorem State.setPlot_debugOut (n : Nat) (v : Plot) : (s.setPlot n v).debugOut = s.debugOut := rfl
@[simp] theorem State.setPlot_bringUp (n : Nat) (v : Plot) : (s.setPlot n v).bringUp = s.bringUp := rfl
@[simp] theorem State.setPlot_l1 (n : Nat) (v : Plot) : (s.setPlot n v).l1 = s.l1 := rfl
@[simp] theorem State.setPlot_pwrlim (n : Nat) (v : Plot) : (s.setPlot n v).pwrlim = s.pwrlim := rfl
@[simp] theorem State.setPlot_issueRate (n : Nat) (v : Plot) : (s.setPlot n v).issueRate = s.issueRate := rfl
@[simp] theorem State.setPlot_power (n : Nat) (v : Plot) : (s.setPlot n v).power = s.power := rfl
@[simp] theorem State.setPlot_status (n : Nat) (v : Plot) : (s.setPlot n v).status = s.status := rfl
@[simp] theorem State.setPlot_pmtol (n : Nat) (v : Plot) : (s.setPlot n v).pmtol = s.pmtol := rfl
@[simp] theorem State.setPlot_hostReqs (n : Nat) (v : Plot) : (s.setPlot n v).hostReqs = s.hostReqs := rfl
@[simp] theorem State.setPlot_linkErrs (n : Nat) (v : Plot) : (s.setPlot n v).linkErrs = s.linkErrs := rfl
@[simp] theorem State.setPlot_flr (n : Nat) (v : Plot) : (s.setPlot n v).flr = s.flr := rfl
@[simp] theorem State.setPlot_saves (n : Nat) (v : Plot) : (s.setPlot n v).saves = s.saves := rfl

/-! ### `State.setQcc` -/

@[simp] theorem State.setQcc_agenda (q : Nat) (v : Qcc) : (s.setQcc q v).agenda = s.agenda := rfl
@[simp] theorem State.setQcc_tick (q : Nat) (v : Qcc) : (s.setQcc q v).tick = s.tick := rfl
@[simp] theorem State.setQcc_firing (q : Nat) (v : Qcc) : (s.setQcc q v).firing = s.firing := rfl
@[simp] theorem State.setQcc_cur (q : Nat) (v : Qcc) : (s.setQcc q v).cur = s.cur := rfl
@[simp] theorem State.setQcc_nextId (q : Nat) (v : Qcc) : (s.setQcc q v).nextId = s.nextId := rfl
@[simp] theorem State.setQcc_sram (q : Nat) (v : Qcc) : (s.setQcc q v).sram = s.sram := rfl
@[simp] theorem State.setQcc_hbm (q : Nat) (v : Qcc) : (s.setQcc q v).hbm = s.hbm := rfl
@[simp] theorem State.setQcc_ctl (q : Nat) (v : Qcc) : (s.setQcc q v).ctl = s.ctl := rfl
@[simp] theorem State.setQcc_plots (q : Nat) (v : Qcc) : (s.setQcc q v).plots = s.plots := rfl
@[simp] theorem State.setQcc_pageMap (q : Nat) (v : Qcc) : (s.setQcc q v).pageMap = s.pageMap := rfl
@[simp] theorem State.setQcc_ctlRegion (q : Nat) (v : Qcc) : (s.setQcc q v).ctlRegion = s.ctlRegion := rfl
@[simp] theorem State.setQcc_errs (q : Nat) (v : Qcc) : (s.setQcc q v).errs = s.errs := rfl
@[simp] theorem State.setQcc_zeroRows (q : Nat) (v : Qcc) : (s.setQcc q v).zeroRows = s.zeroRows := rfl
@[simp] theorem State.setQcc_elems (q : Nat) (v : Qcc) : (s.setQcc q v).elems = s.elems := rfl
@[simp] theorem State.setQcc_bufs (q : Nat) (v : Qcc) : (s.setQcc q v).bufs = s.bufs := rfl
@[simp] theorem State.setQcc_linkLast (q : Nat) (v : Qcc) : (s.setQcc q v).linkLast = s.linkLast := rfl
@[simp] theorem State.setQcc_banks (q : Nat) (v : Qcc) : (s.setQcc q v).banks = s.banks := rfl
@[simp] theorem State.setQcc_chans (q : Nat) (v : Qcc) : (s.setQcc q v).chans = s.chans := rfl
@[simp] theorem State.setQcc_overflow (q : Nat) (v : Qcc) : (s.setQcc q v).overflow = s.overflow := rfl
@[simp] theorem State.setQcc_accs (q : Nat) (v : Qcc) : (s.setQcc q v).accs = s.accs := rfl
@[simp] theorem State.setQcc_cached (q : Nat) (v : Qcc) : (s.setQcc q v).cached = s.cached := rfl
@[simp] theorem State.setQcc_pointers (q : Nat) (v : Qcc) : (s.setQcc q v).pointers = s.pointers := rfl
@[simp] theorem State.setQcc_misses (q : Nat) (v : Qcc) : (s.setQcc q v).misses = s.misses := rfl
@[simp] theorem State.setQcc_invals (q : Nat) (v : Qcc) : (s.setQcc q v).invals = s.invals := rfl
@[simp] theorem State.setQcc_qccs (q : Nat) (v : Qcc) : (s.setQcc q v).qccs = tabPut s.qccs q v := rfl
@[simp] theorem State.setQcc_press (q : Nat) (v : Qcc) : (s.setQcc q v).press = s.press := rfl
@[simp] theorem State.setQcc_graft (q : Nat) (v : Qcc) : (s.setQcc q v).graft = s.graft := rfl
@[simp] theorem State.setQcc_riddle (q : Nat) (v : Qcc) : (s.setQcc q v).riddle = s.riddle := rfl
@[simp] theorem State.setQcc_pruner (q : Nat) (v : Qcc) : (s.setQcc q v).pruner = s.pruner := rfl
@[simp] theorem State.setQcc_barrow (q : Nat) (v : Qcc) : (s.setQcc q v).barrow = s.barrow := rfl
@[simp] theorem State.setQcc_dies (q : Nat) (v : Qcc) : (s.setQcc q v).dies = s.dies := rfl
@[simp] theorem State.setQcc_msgs (q : Nat) (v : Qcc) : (s.setQcc q v).msgs = s.msgs := rfl
@[simp] theorem State.setQcc_trapOut (q : Nat) (v : Qcc) : (s.setQcc q v).trapOut = s.trapOut := rfl
@[simp] theorem State.setQcc_plateOut (q : Nat) (v : Qcc) : (s.setQcc q v).plateOut = s.plateOut := rfl
@[simp] theorem State.setQcc_marks (q : Nat) (v : Qcc) : (s.setQcc q v).marks = s.marks := rfl
@[simp] theorem State.setQcc_drainNotices (q : Nat) (v : Qcc) : (s.setQcc q v).drainNotices = s.drainNotices := rfl
@[simp] theorem State.setQcc_barrRegs (q : Nat) (v : Qcc) : (s.setQcc q v).barrRegs = s.barrRegs := rfl
@[simp] theorem State.setQcc_barrDone (q : Nat) (v : Qcc) : (s.setQcc q v).barrDone = s.barrDone := rfl
@[simp] theorem State.setQcc_softErrors (q : Nat) (v : Qcc) : (s.setQcc q v).softErrors = s.softErrors := rfl
@[simp] theorem State.setQcc_ctxs (q : Nat) (v : Qcc) : (s.setQcc q v).ctxs = s.ctxs := rfl
@[simp] theorem State.setQcc_images (q : Nat) (v : Qcc) : (s.setQcc q v).images = s.images := rfl
@[simp] theorem State.setQcc_parts (q : Nat) (v : Qcc) : (s.setQcc q v).parts = s.parts := rfl
@[simp] theorem State.setQcc_vfs (q : Nat) (v : Qcc) : (s.setQcc q v).vfs = s.vfs := rfl
@[simp] theorem State.setQcc_lastServed (q : Nat) (v : Qcc) : (s.setQcc q v).lastServed = s.lastServed := rfl
@[simp] theorem State.setQcc_toSpine (q : Nat) (v : Qcc) : (s.setQcc q v).toSpine = s.toSpine := rfl
@[simp] theorem State.setQcc_batches (q : Nat) (v : Qcc) : (s.setQcc q v).batches = s.batches := rfl
@[simp] theorem State.setQcc_responses (q : Nat) (v : Qcc) : (s.setQcc q v).responses = s.responses := rfl
@[simp] theorem State.setQcc_sets (q : Nat) (v : Qcc) : (s.setQcc q v).sets = s.sets := rfl
@[simp] theorem State.setQcc_plates (q : Nat) (v : Qcc) : (s.setQcc q v).plates = s.plates := rfl
@[simp] theorem State.setQcc_dests (q : Nat) (v : Qcc) : (s.setQcc q v).dests = s.dests := rfl
@[simp] theorem State.setQcc_policies (q : Nat) (v : Qcc) : (s.setQcc q v).policies = s.policies := rfl
@[simp] theorem State.setQcc_unions (q : Nat) (v : Qcc) : (s.setQcc q v).unions = s.unions := rfl
@[simp] theorem State.setQcc_sweep (q : Nat) (v : Qcc) : (s.setQcc q v).sweep = s.sweep := rfl
@[simp] theorem State.setQcc_submissions (q : Nat) (v : Qcc) : (s.setQcc q v).submissions = s.submissions := rfl
@[simp] theorem State.setQcc_eventsOut (q : Nat) (v : Qcc) : (s.setQcc q v).eventsOut = s.eventsOut := rfl
@[simp] theorem State.setQcc_pcie (q : Nat) (v : Qcc) : (s.setQcc q v).pcie = s.pcie := rfl
@[simp] theorem State.setQcc_outside (q : Nat) (v : Qcc) : (s.setQcc q v).outside = s.outside := rfl
@[simp] theorem State.setQcc_deliveries (q : Nat) (v : Qcc) : (s.setQcc q v).deliveries = s.deliveries := rfl
@[simp] theorem State.setQcc_accel (q : Nat) (v : Qcc) : (s.setQcc q v).accel = s.accel := rfl
@[simp] theorem State.setQcc_presence (q : Nat) (v : Qcc) : (s.setQcc q v).presence = s.presence := rfl
@[simp] theorem State.setQcc_ports (q : Nat) (v : Qcc) : (s.setQcc q v).ports = s.ports := rfl
@[simp] theorem State.setQcc_linkOut (q : Nat) (v : Qcc) : (s.setQcc q v).linkOut = s.linkOut := rfl
@[simp] theorem State.setQcc_retired (q : Nat) (v : Qcc) : (s.setQcc q v).retired = s.retired := rfl
@[simp] theorem State.setQcc_replaceSeq (q : Nat) (v : Qcc) : (s.setQcc q v).replaceSeq = s.replaceSeq := rfl
@[simp] theorem State.setQcc_replaceBody (q : Nat) (v : Qcc) : (s.setQcc q v).replaceBody = s.replaceBody := rfl
@[simp] theorem State.setQcc_fwver (q : Nat) (v : Qcc) : (s.setQcc q v).fwver = s.fwver := rfl
@[simp] theorem State.setQcc_rollback (q : Nat) (v : Qcc) : (s.setQcc q v).rollback = s.rollback := rfl
@[simp] theorem State.setQcc_firmware (q : Nat) (v : Qcc) : (s.setQcc q v).firmware = s.firmware := rfl
@[simp] theorem State.setQcc_nextFirmware (q : Nat) (v : Qcc) : (s.setQcc q v).nextFirmware = s.nextFirmware := rfl
@[simp] theorem State.setQcc_debugOn (q : Nat) (v : Qcc) : (s.setQcc q v).debugOn = s.debugOn := rfl
@[simp] theorem State.setQcc_debugOut (q : Nat) (v : Qcc) : (s.setQcc q v).debugOut = s.debugOut := rfl
@[simp] theorem State.setQcc_bringUp (q : Nat) (v : Qcc) : (s.setQcc q v).bringUp = s.bringUp := rfl
@[simp] theorem State.setQcc_l1 (q : Nat) (v : Qcc) : (s.setQcc q v).l1 = s.l1 := rfl
@[simp] theorem State.setQcc_pwrlim (q : Nat) (v : Qcc) : (s.setQcc q v).pwrlim = s.pwrlim := rfl
@[simp] theorem State.setQcc_issueRate (q : Nat) (v : Qcc) : (s.setQcc q v).issueRate = s.issueRate := rfl
@[simp] theorem State.setQcc_power (q : Nat) (v : Qcc) : (s.setQcc q v).power = s.power := rfl
@[simp] theorem State.setQcc_status (q : Nat) (v : Qcc) : (s.setQcc q v).status = s.status := rfl
@[simp] theorem State.setQcc_pmtol (q : Nat) (v : Qcc) : (s.setQcc q v).pmtol = s.pmtol := rfl
@[simp] theorem State.setQcc_hostReqs (q : Nat) (v : Qcc) : (s.setQcc q v).hostReqs = s.hostReqs := rfl
@[simp] theorem State.setQcc_linkErrs (q : Nat) (v : Qcc) : (s.setQcc q v).linkErrs = s.linkErrs := rfl
@[simp] theorem State.setQcc_flr (q : Nat) (v : Qcc) : (s.setQcc q v).flr = s.flr := rfl
@[simp] theorem State.setQcc_saves (q : Nat) (v : Qcc) : (s.setQcc q v).saves = s.saves := rfl

/-! ### `State.setPress` -/

@[simp] theorem State.setPress_agenda (q : Nat) (v : Press) : (s.setPress q v).agenda = s.agenda := rfl
@[simp] theorem State.setPress_tick (q : Nat) (v : Press) : (s.setPress q v).tick = s.tick := rfl
@[simp] theorem State.setPress_firing (q : Nat) (v : Press) : (s.setPress q v).firing = s.firing := rfl
@[simp] theorem State.setPress_cur (q : Nat) (v : Press) : (s.setPress q v).cur = s.cur := rfl
@[simp] theorem State.setPress_nextId (q : Nat) (v : Press) : (s.setPress q v).nextId = s.nextId := rfl
@[simp] theorem State.setPress_sram (q : Nat) (v : Press) : (s.setPress q v).sram = s.sram := rfl
@[simp] theorem State.setPress_hbm (q : Nat) (v : Press) : (s.setPress q v).hbm = s.hbm := rfl
@[simp] theorem State.setPress_ctl (q : Nat) (v : Press) : (s.setPress q v).ctl = s.ctl := rfl
@[simp] theorem State.setPress_plots (q : Nat) (v : Press) : (s.setPress q v).plots = s.plots := rfl
@[simp] theorem State.setPress_pageMap (q : Nat) (v : Press) : (s.setPress q v).pageMap = s.pageMap := rfl
@[simp] theorem State.setPress_ctlRegion (q : Nat) (v : Press) : (s.setPress q v).ctlRegion = s.ctlRegion := rfl
@[simp] theorem State.setPress_errs (q : Nat) (v : Press) : (s.setPress q v).errs = s.errs := rfl
@[simp] theorem State.setPress_zeroRows (q : Nat) (v : Press) : (s.setPress q v).zeroRows = s.zeroRows := rfl
@[simp] theorem State.setPress_elems (q : Nat) (v : Press) : (s.setPress q v).elems = s.elems := rfl
@[simp] theorem State.setPress_bufs (q : Nat) (v : Press) : (s.setPress q v).bufs = s.bufs := rfl
@[simp] theorem State.setPress_linkLast (q : Nat) (v : Press) : (s.setPress q v).linkLast = s.linkLast := rfl
@[simp] theorem State.setPress_banks (q : Nat) (v : Press) : (s.setPress q v).banks = s.banks := rfl
@[simp] theorem State.setPress_chans (q : Nat) (v : Press) : (s.setPress q v).chans = s.chans := rfl
@[simp] theorem State.setPress_overflow (q : Nat) (v : Press) : (s.setPress q v).overflow = s.overflow := rfl
@[simp] theorem State.setPress_accs (q : Nat) (v : Press) : (s.setPress q v).accs = s.accs := rfl
@[simp] theorem State.setPress_cached (q : Nat) (v : Press) : (s.setPress q v).cached = s.cached := rfl
@[simp] theorem State.setPress_pointers (q : Nat) (v : Press) : (s.setPress q v).pointers = s.pointers := rfl
@[simp] theorem State.setPress_misses (q : Nat) (v : Press) : (s.setPress q v).misses = s.misses := rfl
@[simp] theorem State.setPress_invals (q : Nat) (v : Press) : (s.setPress q v).invals = s.invals := rfl
@[simp] theorem State.setPress_qccs (q : Nat) (v : Press) : (s.setPress q v).qccs = s.qccs := rfl
@[simp] theorem State.setPress_press (q : Nat) (v : Press) : (s.setPress q v).press = tabPut s.press q v := rfl
@[simp] theorem State.setPress_graft (q : Nat) (v : Press) : (s.setPress q v).graft = s.graft := rfl
@[simp] theorem State.setPress_riddle (q : Nat) (v : Press) : (s.setPress q v).riddle = s.riddle := rfl
@[simp] theorem State.setPress_pruner (q : Nat) (v : Press) : (s.setPress q v).pruner = s.pruner := rfl
@[simp] theorem State.setPress_barrow (q : Nat) (v : Press) : (s.setPress q v).barrow = s.barrow := rfl
@[simp] theorem State.setPress_dies (q : Nat) (v : Press) : (s.setPress q v).dies = s.dies := rfl
@[simp] theorem State.setPress_msgs (q : Nat) (v : Press) : (s.setPress q v).msgs = s.msgs := rfl
@[simp] theorem State.setPress_trapOut (q : Nat) (v : Press) : (s.setPress q v).trapOut = s.trapOut := rfl
@[simp] theorem State.setPress_plateOut (q : Nat) (v : Press) : (s.setPress q v).plateOut = s.plateOut := rfl
@[simp] theorem State.setPress_marks (q : Nat) (v : Press) : (s.setPress q v).marks = s.marks := rfl
@[simp] theorem State.setPress_drainNotices (q : Nat) (v : Press) : (s.setPress q v).drainNotices = s.drainNotices := rfl
@[simp] theorem State.setPress_barrRegs (q : Nat) (v : Press) : (s.setPress q v).barrRegs = s.barrRegs := rfl
@[simp] theorem State.setPress_barrDone (q : Nat) (v : Press) : (s.setPress q v).barrDone = s.barrDone := rfl
@[simp] theorem State.setPress_softErrors (q : Nat) (v : Press) : (s.setPress q v).softErrors = s.softErrors := rfl
@[simp] theorem State.setPress_ctxs (q : Nat) (v : Press) : (s.setPress q v).ctxs = s.ctxs := rfl
@[simp] theorem State.setPress_images (q : Nat) (v : Press) : (s.setPress q v).images = s.images := rfl
@[simp] theorem State.setPress_parts (q : Nat) (v : Press) : (s.setPress q v).parts = s.parts := rfl
@[simp] theorem State.setPress_vfs (q : Nat) (v : Press) : (s.setPress q v).vfs = s.vfs := rfl
@[simp] theorem State.setPress_lastServed (q : Nat) (v : Press) : (s.setPress q v).lastServed = s.lastServed := rfl
@[simp] theorem State.setPress_toSpine (q : Nat) (v : Press) : (s.setPress q v).toSpine = s.toSpine := rfl
@[simp] theorem State.setPress_batches (q : Nat) (v : Press) : (s.setPress q v).batches = s.batches := rfl
@[simp] theorem State.setPress_responses (q : Nat) (v : Press) : (s.setPress q v).responses = s.responses := rfl
@[simp] theorem State.setPress_sets (q : Nat) (v : Press) : (s.setPress q v).sets = s.sets := rfl
@[simp] theorem State.setPress_plates (q : Nat) (v : Press) : (s.setPress q v).plates = s.plates := rfl
@[simp] theorem State.setPress_dests (q : Nat) (v : Press) : (s.setPress q v).dests = s.dests := rfl
@[simp] theorem State.setPress_policies (q : Nat) (v : Press) : (s.setPress q v).policies = s.policies := rfl
@[simp] theorem State.setPress_unions (q : Nat) (v : Press) : (s.setPress q v).unions = s.unions := rfl
@[simp] theorem State.setPress_sweep (q : Nat) (v : Press) : (s.setPress q v).sweep = s.sweep := rfl
@[simp] theorem State.setPress_submissions (q : Nat) (v : Press) : (s.setPress q v).submissions = s.submissions := rfl
@[simp] theorem State.setPress_eventsOut (q : Nat) (v : Press) : (s.setPress q v).eventsOut = s.eventsOut := rfl
@[simp] theorem State.setPress_pcie (q : Nat) (v : Press) : (s.setPress q v).pcie = s.pcie := rfl
@[simp] theorem State.setPress_outside (q : Nat) (v : Press) : (s.setPress q v).outside = s.outside := rfl
@[simp] theorem State.setPress_deliveries (q : Nat) (v : Press) : (s.setPress q v).deliveries = s.deliveries := rfl
@[simp] theorem State.setPress_accel (q : Nat) (v : Press) : (s.setPress q v).accel = s.accel := rfl
@[simp] theorem State.setPress_presence (q : Nat) (v : Press) : (s.setPress q v).presence = s.presence := rfl
@[simp] theorem State.setPress_ports (q : Nat) (v : Press) : (s.setPress q v).ports = s.ports := rfl
@[simp] theorem State.setPress_linkOut (q : Nat) (v : Press) : (s.setPress q v).linkOut = s.linkOut := rfl
@[simp] theorem State.setPress_retired (q : Nat) (v : Press) : (s.setPress q v).retired = s.retired := rfl
@[simp] theorem State.setPress_replaceSeq (q : Nat) (v : Press) : (s.setPress q v).replaceSeq = s.replaceSeq := rfl
@[simp] theorem State.setPress_replaceBody (q : Nat) (v : Press) : (s.setPress q v).replaceBody = s.replaceBody := rfl
@[simp] theorem State.setPress_fwver (q : Nat) (v : Press) : (s.setPress q v).fwver = s.fwver := rfl
@[simp] theorem State.setPress_rollback (q : Nat) (v : Press) : (s.setPress q v).rollback = s.rollback := rfl
@[simp] theorem State.setPress_firmware (q : Nat) (v : Press) : (s.setPress q v).firmware = s.firmware := rfl
@[simp] theorem State.setPress_nextFirmware (q : Nat) (v : Press) : (s.setPress q v).nextFirmware = s.nextFirmware := rfl
@[simp] theorem State.setPress_debugOn (q : Nat) (v : Press) : (s.setPress q v).debugOn = s.debugOn := rfl
@[simp] theorem State.setPress_debugOut (q : Nat) (v : Press) : (s.setPress q v).debugOut = s.debugOut := rfl
@[simp] theorem State.setPress_bringUp (q : Nat) (v : Press) : (s.setPress q v).bringUp = s.bringUp := rfl
@[simp] theorem State.setPress_l1 (q : Nat) (v : Press) : (s.setPress q v).l1 = s.l1 := rfl
@[simp] theorem State.setPress_pwrlim (q : Nat) (v : Press) : (s.setPress q v).pwrlim = s.pwrlim := rfl
@[simp] theorem State.setPress_issueRate (q : Nat) (v : Press) : (s.setPress q v).issueRate = s.issueRate := rfl
@[simp] theorem State.setPress_power (q : Nat) (v : Press) : (s.setPress q v).power = s.power := rfl
@[simp] theorem State.setPress_status (q : Nat) (v : Press) : (s.setPress q v).status = s.status := rfl
@[simp] theorem State.setPress_pmtol (q : Nat) (v : Press) : (s.setPress q v).pmtol = s.pmtol := rfl
@[simp] theorem State.setPress_hostReqs (q : Nat) (v : Press) : (s.setPress q v).hostReqs = s.hostReqs := rfl
@[simp] theorem State.setPress_linkErrs (q : Nat) (v : Press) : (s.setPress q v).linkErrs = s.linkErrs := rfl
@[simp] theorem State.setPress_flr (q : Nat) (v : Press) : (s.setPress q v).flr = s.flr := rfl
@[simp] theorem State.setPress_saves (q : Nat) (v : Press) : (s.setPress q v).saves = s.saves := rfl

/-! ### `State.setGraft` -/

@[simp] theorem State.setGraft_agenda (q : Nat) (v : Graft) : (s.setGraft q v).agenda = s.agenda := rfl
@[simp] theorem State.setGraft_tick (q : Nat) (v : Graft) : (s.setGraft q v).tick = s.tick := rfl
@[simp] theorem State.setGraft_firing (q : Nat) (v : Graft) : (s.setGraft q v).firing = s.firing := rfl
@[simp] theorem State.setGraft_cur (q : Nat) (v : Graft) : (s.setGraft q v).cur = s.cur := rfl
@[simp] theorem State.setGraft_nextId (q : Nat) (v : Graft) : (s.setGraft q v).nextId = s.nextId := rfl
@[simp] theorem State.setGraft_sram (q : Nat) (v : Graft) : (s.setGraft q v).sram = s.sram := rfl
@[simp] theorem State.setGraft_hbm (q : Nat) (v : Graft) : (s.setGraft q v).hbm = s.hbm := rfl
@[simp] theorem State.setGraft_ctl (q : Nat) (v : Graft) : (s.setGraft q v).ctl = s.ctl := rfl
@[simp] theorem State.setGraft_plots (q : Nat) (v : Graft) : (s.setGraft q v).plots = s.plots := rfl
@[simp] theorem State.setGraft_pageMap (q : Nat) (v : Graft) : (s.setGraft q v).pageMap = s.pageMap := rfl
@[simp] theorem State.setGraft_ctlRegion (q : Nat) (v : Graft) : (s.setGraft q v).ctlRegion = s.ctlRegion := rfl
@[simp] theorem State.setGraft_errs (q : Nat) (v : Graft) : (s.setGraft q v).errs = s.errs := rfl
@[simp] theorem State.setGraft_zeroRows (q : Nat) (v : Graft) : (s.setGraft q v).zeroRows = s.zeroRows := rfl
@[simp] theorem State.setGraft_elems (q : Nat) (v : Graft) : (s.setGraft q v).elems = s.elems := rfl
@[simp] theorem State.setGraft_bufs (q : Nat) (v : Graft) : (s.setGraft q v).bufs = s.bufs := rfl
@[simp] theorem State.setGraft_linkLast (q : Nat) (v : Graft) : (s.setGraft q v).linkLast = s.linkLast := rfl
@[simp] theorem State.setGraft_banks (q : Nat) (v : Graft) : (s.setGraft q v).banks = s.banks := rfl
@[simp] theorem State.setGraft_chans (q : Nat) (v : Graft) : (s.setGraft q v).chans = s.chans := rfl
@[simp] theorem State.setGraft_overflow (q : Nat) (v : Graft) : (s.setGraft q v).overflow = s.overflow := rfl
@[simp] theorem State.setGraft_accs (q : Nat) (v : Graft) : (s.setGraft q v).accs = s.accs := rfl
@[simp] theorem State.setGraft_cached (q : Nat) (v : Graft) : (s.setGraft q v).cached = s.cached := rfl
@[simp] theorem State.setGraft_pointers (q : Nat) (v : Graft) : (s.setGraft q v).pointers = s.pointers := rfl
@[simp] theorem State.setGraft_misses (q : Nat) (v : Graft) : (s.setGraft q v).misses = s.misses := rfl
@[simp] theorem State.setGraft_invals (q : Nat) (v : Graft) : (s.setGraft q v).invals = s.invals := rfl
@[simp] theorem State.setGraft_qccs (q : Nat) (v : Graft) : (s.setGraft q v).qccs = s.qccs := rfl
@[simp] theorem State.setGraft_press (q : Nat) (v : Graft) : (s.setGraft q v).press = s.press := rfl
@[simp] theorem State.setGraft_graft (q : Nat) (v : Graft) : (s.setGraft q v).graft = tabPut s.graft q v := rfl
@[simp] theorem State.setGraft_riddle (q : Nat) (v : Graft) : (s.setGraft q v).riddle = s.riddle := rfl
@[simp] theorem State.setGraft_pruner (q : Nat) (v : Graft) : (s.setGraft q v).pruner = s.pruner := rfl
@[simp] theorem State.setGraft_barrow (q : Nat) (v : Graft) : (s.setGraft q v).barrow = s.barrow := rfl
@[simp] theorem State.setGraft_dies (q : Nat) (v : Graft) : (s.setGraft q v).dies = s.dies := rfl
@[simp] theorem State.setGraft_msgs (q : Nat) (v : Graft) : (s.setGraft q v).msgs = s.msgs := rfl
@[simp] theorem State.setGraft_trapOut (q : Nat) (v : Graft) : (s.setGraft q v).trapOut = s.trapOut := rfl
@[simp] theorem State.setGraft_plateOut (q : Nat) (v : Graft) : (s.setGraft q v).plateOut = s.plateOut := rfl
@[simp] theorem State.setGraft_marks (q : Nat) (v : Graft) : (s.setGraft q v).marks = s.marks := rfl
@[simp] theorem State.setGraft_drainNotices (q : Nat) (v : Graft) : (s.setGraft q v).drainNotices = s.drainNotices := rfl
@[simp] theorem State.setGraft_barrRegs (q : Nat) (v : Graft) : (s.setGraft q v).barrRegs = s.barrRegs := rfl
@[simp] theorem State.setGraft_barrDone (q : Nat) (v : Graft) : (s.setGraft q v).barrDone = s.barrDone := rfl
@[simp] theorem State.setGraft_softErrors (q : Nat) (v : Graft) : (s.setGraft q v).softErrors = s.softErrors := rfl
@[simp] theorem State.setGraft_ctxs (q : Nat) (v : Graft) : (s.setGraft q v).ctxs = s.ctxs := rfl
@[simp] theorem State.setGraft_images (q : Nat) (v : Graft) : (s.setGraft q v).images = s.images := rfl
@[simp] theorem State.setGraft_parts (q : Nat) (v : Graft) : (s.setGraft q v).parts = s.parts := rfl
@[simp] theorem State.setGraft_vfs (q : Nat) (v : Graft) : (s.setGraft q v).vfs = s.vfs := rfl
@[simp] theorem State.setGraft_lastServed (q : Nat) (v : Graft) : (s.setGraft q v).lastServed = s.lastServed := rfl
@[simp] theorem State.setGraft_toSpine (q : Nat) (v : Graft) : (s.setGraft q v).toSpine = s.toSpine := rfl
@[simp] theorem State.setGraft_batches (q : Nat) (v : Graft) : (s.setGraft q v).batches = s.batches := rfl
@[simp] theorem State.setGraft_responses (q : Nat) (v : Graft) : (s.setGraft q v).responses = s.responses := rfl
@[simp] theorem State.setGraft_sets (q : Nat) (v : Graft) : (s.setGraft q v).sets = s.sets := rfl
@[simp] theorem State.setGraft_plates (q : Nat) (v : Graft) : (s.setGraft q v).plates = s.plates := rfl
@[simp] theorem State.setGraft_dests (q : Nat) (v : Graft) : (s.setGraft q v).dests = s.dests := rfl
@[simp] theorem State.setGraft_policies (q : Nat) (v : Graft) : (s.setGraft q v).policies = s.policies := rfl
@[simp] theorem State.setGraft_unions (q : Nat) (v : Graft) : (s.setGraft q v).unions = s.unions := rfl
@[simp] theorem State.setGraft_sweep (q : Nat) (v : Graft) : (s.setGraft q v).sweep = s.sweep := rfl
@[simp] theorem State.setGraft_submissions (q : Nat) (v : Graft) : (s.setGraft q v).submissions = s.submissions := rfl
@[simp] theorem State.setGraft_eventsOut (q : Nat) (v : Graft) : (s.setGraft q v).eventsOut = s.eventsOut := rfl
@[simp] theorem State.setGraft_pcie (q : Nat) (v : Graft) : (s.setGraft q v).pcie = s.pcie := rfl
@[simp] theorem State.setGraft_outside (q : Nat) (v : Graft) : (s.setGraft q v).outside = s.outside := rfl
@[simp] theorem State.setGraft_deliveries (q : Nat) (v : Graft) : (s.setGraft q v).deliveries = s.deliveries := rfl
@[simp] theorem State.setGraft_accel (q : Nat) (v : Graft) : (s.setGraft q v).accel = s.accel := rfl
@[simp] theorem State.setGraft_presence (q : Nat) (v : Graft) : (s.setGraft q v).presence = s.presence := rfl
@[simp] theorem State.setGraft_ports (q : Nat) (v : Graft) : (s.setGraft q v).ports = s.ports := rfl
@[simp] theorem State.setGraft_linkOut (q : Nat) (v : Graft) : (s.setGraft q v).linkOut = s.linkOut := rfl
@[simp] theorem State.setGraft_retired (q : Nat) (v : Graft) : (s.setGraft q v).retired = s.retired := rfl
@[simp] theorem State.setGraft_replaceSeq (q : Nat) (v : Graft) : (s.setGraft q v).replaceSeq = s.replaceSeq := rfl
@[simp] theorem State.setGraft_replaceBody (q : Nat) (v : Graft) : (s.setGraft q v).replaceBody = s.replaceBody := rfl
@[simp] theorem State.setGraft_fwver (q : Nat) (v : Graft) : (s.setGraft q v).fwver = s.fwver := rfl
@[simp] theorem State.setGraft_rollback (q : Nat) (v : Graft) : (s.setGraft q v).rollback = s.rollback := rfl
@[simp] theorem State.setGraft_firmware (q : Nat) (v : Graft) : (s.setGraft q v).firmware = s.firmware := rfl
@[simp] theorem State.setGraft_nextFirmware (q : Nat) (v : Graft) : (s.setGraft q v).nextFirmware = s.nextFirmware := rfl
@[simp] theorem State.setGraft_debugOn (q : Nat) (v : Graft) : (s.setGraft q v).debugOn = s.debugOn := rfl
@[simp] theorem State.setGraft_debugOut (q : Nat) (v : Graft) : (s.setGraft q v).debugOut = s.debugOut := rfl
@[simp] theorem State.setGraft_bringUp (q : Nat) (v : Graft) : (s.setGraft q v).bringUp = s.bringUp := rfl
@[simp] theorem State.setGraft_l1 (q : Nat) (v : Graft) : (s.setGraft q v).l1 = s.l1 := rfl
@[simp] theorem State.setGraft_pwrlim (q : Nat) (v : Graft) : (s.setGraft q v).pwrlim = s.pwrlim := rfl
@[simp] theorem State.setGraft_issueRate (q : Nat) (v : Graft) : (s.setGraft q v).issueRate = s.issueRate := rfl
@[simp] theorem State.setGraft_power (q : Nat) (v : Graft) : (s.setGraft q v).power = s.power := rfl
@[simp] theorem State.setGraft_status (q : Nat) (v : Graft) : (s.setGraft q v).status = s.status := rfl
@[simp] theorem State.setGraft_pmtol (q : Nat) (v : Graft) : (s.setGraft q v).pmtol = s.pmtol := rfl
@[simp] theorem State.setGraft_hostReqs (q : Nat) (v : Graft) : (s.setGraft q v).hostReqs = s.hostReqs := rfl
@[simp] theorem State.setGraft_linkErrs (q : Nat) (v : Graft) : (s.setGraft q v).linkErrs = s.linkErrs := rfl
@[simp] theorem State.setGraft_flr (q : Nat) (v : Graft) : (s.setGraft q v).flr = s.flr := rfl
@[simp] theorem State.setGraft_saves (q : Nat) (v : Graft) : (s.setGraft q v).saves = s.saves := rfl

/-! ### `State.setRiddle` -/

@[simp] theorem State.setRiddle_agenda (f : Nat) (v : Riddle) : (s.setRiddle f v).agenda = s.agenda := rfl
@[simp] theorem State.setRiddle_tick (f : Nat) (v : Riddle) : (s.setRiddle f v).tick = s.tick := rfl
@[simp] theorem State.setRiddle_firing (f : Nat) (v : Riddle) : (s.setRiddle f v).firing = s.firing := rfl
@[simp] theorem State.setRiddle_cur (f : Nat) (v : Riddle) : (s.setRiddle f v).cur = s.cur := rfl
@[simp] theorem State.setRiddle_nextId (f : Nat) (v : Riddle) : (s.setRiddle f v).nextId = s.nextId := rfl
@[simp] theorem State.setRiddle_sram (f : Nat) (v : Riddle) : (s.setRiddle f v).sram = s.sram := rfl
@[simp] theorem State.setRiddle_hbm (f : Nat) (v : Riddle) : (s.setRiddle f v).hbm = s.hbm := rfl
@[simp] theorem State.setRiddle_ctl (f : Nat) (v : Riddle) : (s.setRiddle f v).ctl = s.ctl := rfl
@[simp] theorem State.setRiddle_plots (f : Nat) (v : Riddle) : (s.setRiddle f v).plots = s.plots := rfl
@[simp] theorem State.setRiddle_pageMap (f : Nat) (v : Riddle) : (s.setRiddle f v).pageMap = s.pageMap := rfl
@[simp] theorem State.setRiddle_ctlRegion (f : Nat) (v : Riddle) : (s.setRiddle f v).ctlRegion = s.ctlRegion := rfl
@[simp] theorem State.setRiddle_errs (f : Nat) (v : Riddle) : (s.setRiddle f v).errs = s.errs := rfl
@[simp] theorem State.setRiddle_zeroRows (f : Nat) (v : Riddle) : (s.setRiddle f v).zeroRows = s.zeroRows := rfl
@[simp] theorem State.setRiddle_elems (f : Nat) (v : Riddle) : (s.setRiddle f v).elems = s.elems := rfl
@[simp] theorem State.setRiddle_bufs (f : Nat) (v : Riddle) : (s.setRiddle f v).bufs = s.bufs := rfl
@[simp] theorem State.setRiddle_linkLast (f : Nat) (v : Riddle) : (s.setRiddle f v).linkLast = s.linkLast := rfl
@[simp] theorem State.setRiddle_banks (f : Nat) (v : Riddle) : (s.setRiddle f v).banks = s.banks := rfl
@[simp] theorem State.setRiddle_chans (f : Nat) (v : Riddle) : (s.setRiddle f v).chans = s.chans := rfl
@[simp] theorem State.setRiddle_overflow (f : Nat) (v : Riddle) : (s.setRiddle f v).overflow = s.overflow := rfl
@[simp] theorem State.setRiddle_accs (f : Nat) (v : Riddle) : (s.setRiddle f v).accs = s.accs := rfl
@[simp] theorem State.setRiddle_cached (f : Nat) (v : Riddle) : (s.setRiddle f v).cached = s.cached := rfl
@[simp] theorem State.setRiddle_pointers (f : Nat) (v : Riddle) : (s.setRiddle f v).pointers = s.pointers := rfl
@[simp] theorem State.setRiddle_misses (f : Nat) (v : Riddle) : (s.setRiddle f v).misses = s.misses := rfl
@[simp] theorem State.setRiddle_invals (f : Nat) (v : Riddle) : (s.setRiddle f v).invals = s.invals := rfl
@[simp] theorem State.setRiddle_qccs (f : Nat) (v : Riddle) : (s.setRiddle f v).qccs = s.qccs := rfl
@[simp] theorem State.setRiddle_press (f : Nat) (v : Riddle) : (s.setRiddle f v).press = s.press := rfl
@[simp] theorem State.setRiddle_graft (f : Nat) (v : Riddle) : (s.setRiddle f v).graft = s.graft := rfl
@[simp] theorem State.setRiddle_riddle (f : Nat) (v : Riddle) : (s.setRiddle f v).riddle = tabPut s.riddle f v := rfl
@[simp] theorem State.setRiddle_pruner (f : Nat) (v : Riddle) : (s.setRiddle f v).pruner = s.pruner := rfl
@[simp] theorem State.setRiddle_barrow (f : Nat) (v : Riddle) : (s.setRiddle f v).barrow = s.barrow := rfl
@[simp] theorem State.setRiddle_dies (f : Nat) (v : Riddle) : (s.setRiddle f v).dies = s.dies := rfl
@[simp] theorem State.setRiddle_msgs (f : Nat) (v : Riddle) : (s.setRiddle f v).msgs = s.msgs := rfl
@[simp] theorem State.setRiddle_trapOut (f : Nat) (v : Riddle) : (s.setRiddle f v).trapOut = s.trapOut := rfl
@[simp] theorem State.setRiddle_plateOut (f : Nat) (v : Riddle) : (s.setRiddle f v).plateOut = s.plateOut := rfl
@[simp] theorem State.setRiddle_marks (f : Nat) (v : Riddle) : (s.setRiddle f v).marks = s.marks := rfl
@[simp] theorem State.setRiddle_drainNotices (f : Nat) (v : Riddle) : (s.setRiddle f v).drainNotices = s.drainNotices := rfl
@[simp] theorem State.setRiddle_barrRegs (f : Nat) (v : Riddle) : (s.setRiddle f v).barrRegs = s.barrRegs := rfl
@[simp] theorem State.setRiddle_barrDone (f : Nat) (v : Riddle) : (s.setRiddle f v).barrDone = s.barrDone := rfl
@[simp] theorem State.setRiddle_softErrors (f : Nat) (v : Riddle) : (s.setRiddle f v).softErrors = s.softErrors := rfl
@[simp] theorem State.setRiddle_ctxs (f : Nat) (v : Riddle) : (s.setRiddle f v).ctxs = s.ctxs := rfl
@[simp] theorem State.setRiddle_images (f : Nat) (v : Riddle) : (s.setRiddle f v).images = s.images := rfl
@[simp] theorem State.setRiddle_parts (f : Nat) (v : Riddle) : (s.setRiddle f v).parts = s.parts := rfl
@[simp] theorem State.setRiddle_vfs (f : Nat) (v : Riddle) : (s.setRiddle f v).vfs = s.vfs := rfl
@[simp] theorem State.setRiddle_lastServed (f : Nat) (v : Riddle) : (s.setRiddle f v).lastServed = s.lastServed := rfl
@[simp] theorem State.setRiddle_toSpine (f : Nat) (v : Riddle) : (s.setRiddle f v).toSpine = s.toSpine := rfl
@[simp] theorem State.setRiddle_batches (f : Nat) (v : Riddle) : (s.setRiddle f v).batches = s.batches := rfl
@[simp] theorem State.setRiddle_responses (f : Nat) (v : Riddle) : (s.setRiddle f v).responses = s.responses := rfl
@[simp] theorem State.setRiddle_sets (f : Nat) (v : Riddle) : (s.setRiddle f v).sets = s.sets := rfl
@[simp] theorem State.setRiddle_plates (f : Nat) (v : Riddle) : (s.setRiddle f v).plates = s.plates := rfl
@[simp] theorem State.setRiddle_dests (f : Nat) (v : Riddle) : (s.setRiddle f v).dests = s.dests := rfl
@[simp] theorem State.setRiddle_policies (f : Nat) (v : Riddle) : (s.setRiddle f v).policies = s.policies := rfl
@[simp] theorem State.setRiddle_unions (f : Nat) (v : Riddle) : (s.setRiddle f v).unions = s.unions := rfl
@[simp] theorem State.setRiddle_sweep (f : Nat) (v : Riddle) : (s.setRiddle f v).sweep = s.sweep := rfl
@[simp] theorem State.setRiddle_submissions (f : Nat) (v : Riddle) : (s.setRiddle f v).submissions = s.submissions := rfl
@[simp] theorem State.setRiddle_eventsOut (f : Nat) (v : Riddle) : (s.setRiddle f v).eventsOut = s.eventsOut := rfl
@[simp] theorem State.setRiddle_pcie (f : Nat) (v : Riddle) : (s.setRiddle f v).pcie = s.pcie := rfl
@[simp] theorem State.setRiddle_outside (f : Nat) (v : Riddle) : (s.setRiddle f v).outside = s.outside := rfl
@[simp] theorem State.setRiddle_deliveries (f : Nat) (v : Riddle) : (s.setRiddle f v).deliveries = s.deliveries := rfl
@[simp] theorem State.setRiddle_accel (f : Nat) (v : Riddle) : (s.setRiddle f v).accel = s.accel := rfl
@[simp] theorem State.setRiddle_presence (f : Nat) (v : Riddle) : (s.setRiddle f v).presence = s.presence := rfl
@[simp] theorem State.setRiddle_ports (f : Nat) (v : Riddle) : (s.setRiddle f v).ports = s.ports := rfl
@[simp] theorem State.setRiddle_linkOut (f : Nat) (v : Riddle) : (s.setRiddle f v).linkOut = s.linkOut := rfl
@[simp] theorem State.setRiddle_retired (f : Nat) (v : Riddle) : (s.setRiddle f v).retired = s.retired := rfl
@[simp] theorem State.setRiddle_replaceSeq (f : Nat) (v : Riddle) : (s.setRiddle f v).replaceSeq = s.replaceSeq := rfl
@[simp] theorem State.setRiddle_replaceBody (f : Nat) (v : Riddle) : (s.setRiddle f v).replaceBody = s.replaceBody := rfl
@[simp] theorem State.setRiddle_fwver (f : Nat) (v : Riddle) : (s.setRiddle f v).fwver = s.fwver := rfl
@[simp] theorem State.setRiddle_rollback (f : Nat) (v : Riddle) : (s.setRiddle f v).rollback = s.rollback := rfl
@[simp] theorem State.setRiddle_firmware (f : Nat) (v : Riddle) : (s.setRiddle f v).firmware = s.firmware := rfl
@[simp] theorem State.setRiddle_nextFirmware (f : Nat) (v : Riddle) : (s.setRiddle f v).nextFirmware = s.nextFirmware := rfl
@[simp] theorem State.setRiddle_debugOn (f : Nat) (v : Riddle) : (s.setRiddle f v).debugOn = s.debugOn := rfl
@[simp] theorem State.setRiddle_debugOut (f : Nat) (v : Riddle) : (s.setRiddle f v).debugOut = s.debugOut := rfl
@[simp] theorem State.setRiddle_bringUp (f : Nat) (v : Riddle) : (s.setRiddle f v).bringUp = s.bringUp := rfl
@[simp] theorem State.setRiddle_l1 (f : Nat) (v : Riddle) : (s.setRiddle f v).l1 = s.l1 := rfl
@[simp] theorem State.setRiddle_pwrlim (f : Nat) (v : Riddle) : (s.setRiddle f v).pwrlim = s.pwrlim := rfl
@[simp] theorem State.setRiddle_issueRate (f : Nat) (v : Riddle) : (s.setRiddle f v).issueRate = s.issueRate := rfl
@[simp] theorem State.setRiddle_power (f : Nat) (v : Riddle) : (s.setRiddle f v).power = s.power := rfl
@[simp] theorem State.setRiddle_status (f : Nat) (v : Riddle) : (s.setRiddle f v).status = s.status := rfl
@[simp] theorem State.setRiddle_pmtol (f : Nat) (v : Riddle) : (s.setRiddle f v).pmtol = s.pmtol := rfl
@[simp] theorem State.setRiddle_hostReqs (f : Nat) (v : Riddle) : (s.setRiddle f v).hostReqs = s.hostReqs := rfl
@[simp] theorem State.setRiddle_linkErrs (f : Nat) (v : Riddle) : (s.setRiddle f v).linkErrs = s.linkErrs := rfl
@[simp] theorem State.setRiddle_flr (f : Nat) (v : Riddle) : (s.setRiddle f v).flr = s.flr := rfl
@[simp] theorem State.setRiddle_saves (f : Nat) (v : Riddle) : (s.setRiddle f v).saves = s.saves := rfl

/-! ### `State.setPruner` -/

@[simp] theorem State.setPruner_agenda (d : Nat) (v : Pruner) : (s.setPruner d v).agenda = s.agenda := rfl
@[simp] theorem State.setPruner_tick (d : Nat) (v : Pruner) : (s.setPruner d v).tick = s.tick := rfl
@[simp] theorem State.setPruner_firing (d : Nat) (v : Pruner) : (s.setPruner d v).firing = s.firing := rfl
@[simp] theorem State.setPruner_cur (d : Nat) (v : Pruner) : (s.setPruner d v).cur = s.cur := rfl
@[simp] theorem State.setPruner_nextId (d : Nat) (v : Pruner) : (s.setPruner d v).nextId = s.nextId := rfl
@[simp] theorem State.setPruner_sram (d : Nat) (v : Pruner) : (s.setPruner d v).sram = s.sram := rfl
@[simp] theorem State.setPruner_hbm (d : Nat) (v : Pruner) : (s.setPruner d v).hbm = s.hbm := rfl
@[simp] theorem State.setPruner_ctl (d : Nat) (v : Pruner) : (s.setPruner d v).ctl = s.ctl := rfl
@[simp] theorem State.setPruner_plots (d : Nat) (v : Pruner) : (s.setPruner d v).plots = s.plots := rfl
@[simp] theorem State.setPruner_pageMap (d : Nat) (v : Pruner) : (s.setPruner d v).pageMap = s.pageMap := rfl
@[simp] theorem State.setPruner_ctlRegion (d : Nat) (v : Pruner) : (s.setPruner d v).ctlRegion = s.ctlRegion := rfl
@[simp] theorem State.setPruner_errs (d : Nat) (v : Pruner) : (s.setPruner d v).errs = s.errs := rfl
@[simp] theorem State.setPruner_zeroRows (d : Nat) (v : Pruner) : (s.setPruner d v).zeroRows = s.zeroRows := rfl
@[simp] theorem State.setPruner_elems (d : Nat) (v : Pruner) : (s.setPruner d v).elems = s.elems := rfl
@[simp] theorem State.setPruner_bufs (d : Nat) (v : Pruner) : (s.setPruner d v).bufs = s.bufs := rfl
@[simp] theorem State.setPruner_linkLast (d : Nat) (v : Pruner) : (s.setPruner d v).linkLast = s.linkLast := rfl
@[simp] theorem State.setPruner_banks (d : Nat) (v : Pruner) : (s.setPruner d v).banks = s.banks := rfl
@[simp] theorem State.setPruner_chans (d : Nat) (v : Pruner) : (s.setPruner d v).chans = s.chans := rfl
@[simp] theorem State.setPruner_overflow (d : Nat) (v : Pruner) : (s.setPruner d v).overflow = s.overflow := rfl
@[simp] theorem State.setPruner_accs (d : Nat) (v : Pruner) : (s.setPruner d v).accs = s.accs := rfl
@[simp] theorem State.setPruner_cached (d : Nat) (v : Pruner) : (s.setPruner d v).cached = s.cached := rfl
@[simp] theorem State.setPruner_pointers (d : Nat) (v : Pruner) : (s.setPruner d v).pointers = s.pointers := rfl
@[simp] theorem State.setPruner_misses (d : Nat) (v : Pruner) : (s.setPruner d v).misses = s.misses := rfl
@[simp] theorem State.setPruner_invals (d : Nat) (v : Pruner) : (s.setPruner d v).invals = s.invals := rfl
@[simp] theorem State.setPruner_qccs (d : Nat) (v : Pruner) : (s.setPruner d v).qccs = s.qccs := rfl
@[simp] theorem State.setPruner_press (d : Nat) (v : Pruner) : (s.setPruner d v).press = s.press := rfl
@[simp] theorem State.setPruner_graft (d : Nat) (v : Pruner) : (s.setPruner d v).graft = s.graft := rfl
@[simp] theorem State.setPruner_riddle (d : Nat) (v : Pruner) : (s.setPruner d v).riddle = s.riddle := rfl
@[simp] theorem State.setPruner_pruner (d : Nat) (v : Pruner) : (s.setPruner d v).pruner = tabPut s.pruner d v := rfl
@[simp] theorem State.setPruner_barrow (d : Nat) (v : Pruner) : (s.setPruner d v).barrow = s.barrow := rfl
@[simp] theorem State.setPruner_dies (d : Nat) (v : Pruner) : (s.setPruner d v).dies = s.dies := rfl
@[simp] theorem State.setPruner_msgs (d : Nat) (v : Pruner) : (s.setPruner d v).msgs = s.msgs := rfl
@[simp] theorem State.setPruner_trapOut (d : Nat) (v : Pruner) : (s.setPruner d v).trapOut = s.trapOut := rfl
@[simp] theorem State.setPruner_plateOut (d : Nat) (v : Pruner) : (s.setPruner d v).plateOut = s.plateOut := rfl
@[simp] theorem State.setPruner_marks (d : Nat) (v : Pruner) : (s.setPruner d v).marks = s.marks := rfl
@[simp] theorem State.setPruner_drainNotices (d : Nat) (v : Pruner) : (s.setPruner d v).drainNotices = s.drainNotices := rfl
@[simp] theorem State.setPruner_barrRegs (d : Nat) (v : Pruner) : (s.setPruner d v).barrRegs = s.barrRegs := rfl
@[simp] theorem State.setPruner_barrDone (d : Nat) (v : Pruner) : (s.setPruner d v).barrDone = s.barrDone := rfl
@[simp] theorem State.setPruner_softErrors (d : Nat) (v : Pruner) : (s.setPruner d v).softErrors = s.softErrors := rfl
@[simp] theorem State.setPruner_ctxs (d : Nat) (v : Pruner) : (s.setPruner d v).ctxs = s.ctxs := rfl
@[simp] theorem State.setPruner_images (d : Nat) (v : Pruner) : (s.setPruner d v).images = s.images := rfl
@[simp] theorem State.setPruner_parts (d : Nat) (v : Pruner) : (s.setPruner d v).parts = s.parts := rfl
@[simp] theorem State.setPruner_vfs (d : Nat) (v : Pruner) : (s.setPruner d v).vfs = s.vfs := rfl
@[simp] theorem State.setPruner_lastServed (d : Nat) (v : Pruner) : (s.setPruner d v).lastServed = s.lastServed := rfl
@[simp] theorem State.setPruner_toSpine (d : Nat) (v : Pruner) : (s.setPruner d v).toSpine = s.toSpine := rfl
@[simp] theorem State.setPruner_batches (d : Nat) (v : Pruner) : (s.setPruner d v).batches = s.batches := rfl
@[simp] theorem State.setPruner_responses (d : Nat) (v : Pruner) : (s.setPruner d v).responses = s.responses := rfl
@[simp] theorem State.setPruner_sets (d : Nat) (v : Pruner) : (s.setPruner d v).sets = s.sets := rfl
@[simp] theorem State.setPruner_plates (d : Nat) (v : Pruner) : (s.setPruner d v).plates = s.plates := rfl
@[simp] theorem State.setPruner_dests (d : Nat) (v : Pruner) : (s.setPruner d v).dests = s.dests := rfl
@[simp] theorem State.setPruner_policies (d : Nat) (v : Pruner) : (s.setPruner d v).policies = s.policies := rfl
@[simp] theorem State.setPruner_unions (d : Nat) (v : Pruner) : (s.setPruner d v).unions = s.unions := rfl
@[simp] theorem State.setPruner_sweep (d : Nat) (v : Pruner) : (s.setPruner d v).sweep = s.sweep := rfl
@[simp] theorem State.setPruner_submissions (d : Nat) (v : Pruner) : (s.setPruner d v).submissions = s.submissions := rfl
@[simp] theorem State.setPruner_eventsOut (d : Nat) (v : Pruner) : (s.setPruner d v).eventsOut = s.eventsOut := rfl
@[simp] theorem State.setPruner_pcie (d : Nat) (v : Pruner) : (s.setPruner d v).pcie = s.pcie := rfl
@[simp] theorem State.setPruner_outside (d : Nat) (v : Pruner) : (s.setPruner d v).outside = s.outside := rfl
@[simp] theorem State.setPruner_deliveries (d : Nat) (v : Pruner) : (s.setPruner d v).deliveries = s.deliveries := rfl
@[simp] theorem State.setPruner_accel (d : Nat) (v : Pruner) : (s.setPruner d v).accel = s.accel := rfl
@[simp] theorem State.setPruner_presence (d : Nat) (v : Pruner) : (s.setPruner d v).presence = s.presence := rfl
@[simp] theorem State.setPruner_ports (d : Nat) (v : Pruner) : (s.setPruner d v).ports = s.ports := rfl
@[simp] theorem State.setPruner_linkOut (d : Nat) (v : Pruner) : (s.setPruner d v).linkOut = s.linkOut := rfl
@[simp] theorem State.setPruner_retired (d : Nat) (v : Pruner) : (s.setPruner d v).retired = s.retired := rfl
@[simp] theorem State.setPruner_replaceSeq (d : Nat) (v : Pruner) : (s.setPruner d v).replaceSeq = s.replaceSeq := rfl
@[simp] theorem State.setPruner_replaceBody (d : Nat) (v : Pruner) : (s.setPruner d v).replaceBody = s.replaceBody := rfl
@[simp] theorem State.setPruner_fwver (d : Nat) (v : Pruner) : (s.setPruner d v).fwver = s.fwver := rfl
@[simp] theorem State.setPruner_rollback (d : Nat) (v : Pruner) : (s.setPruner d v).rollback = s.rollback := rfl
@[simp] theorem State.setPruner_firmware (d : Nat) (v : Pruner) : (s.setPruner d v).firmware = s.firmware := rfl
@[simp] theorem State.setPruner_nextFirmware (d : Nat) (v : Pruner) : (s.setPruner d v).nextFirmware = s.nextFirmware := rfl
@[simp] theorem State.setPruner_debugOn (d : Nat) (v : Pruner) : (s.setPruner d v).debugOn = s.debugOn := rfl
@[simp] theorem State.setPruner_debugOut (d : Nat) (v : Pruner) : (s.setPruner d v).debugOut = s.debugOut := rfl
@[simp] theorem State.setPruner_bringUp (d : Nat) (v : Pruner) : (s.setPruner d v).bringUp = s.bringUp := rfl
@[simp] theorem State.setPruner_l1 (d : Nat) (v : Pruner) : (s.setPruner d v).l1 = s.l1 := rfl
@[simp] theorem State.setPruner_pwrlim (d : Nat) (v : Pruner) : (s.setPruner d v).pwrlim = s.pwrlim := rfl
@[simp] theorem State.setPruner_issueRate (d : Nat) (v : Pruner) : (s.setPruner d v).issueRate = s.issueRate := rfl
@[simp] theorem State.setPruner_power (d : Nat) (v : Pruner) : (s.setPruner d v).power = s.power := rfl
@[simp] theorem State.setPruner_status (d : Nat) (v : Pruner) : (s.setPruner d v).status = s.status := rfl
@[simp] theorem State.setPruner_pmtol (d : Nat) (v : Pruner) : (s.setPruner d v).pmtol = s.pmtol := rfl
@[simp] theorem State.setPruner_hostReqs (d : Nat) (v : Pruner) : (s.setPruner d v).hostReqs = s.hostReqs := rfl
@[simp] theorem State.setPruner_linkErrs (d : Nat) (v : Pruner) : (s.setPruner d v).linkErrs = s.linkErrs := rfl
@[simp] theorem State.setPruner_flr (d : Nat) (v : Pruner) : (s.setPruner d v).flr = s.flr := rfl
@[simp] theorem State.setPruner_saves (d : Nat) (v : Pruner) : (s.setPruner d v).saves = s.saves := rfl

/-! ### `State.setBarrow` -/

@[simp] theorem State.setBarrow_agenda (d : Nat) (v : Barrow) : (s.setBarrow d v).agenda = s.agenda := rfl
@[simp] theorem State.setBarrow_tick (d : Nat) (v : Barrow) : (s.setBarrow d v).tick = s.tick := rfl
@[simp] theorem State.setBarrow_firing (d : Nat) (v : Barrow) : (s.setBarrow d v).firing = s.firing := rfl
@[simp] theorem State.setBarrow_cur (d : Nat) (v : Barrow) : (s.setBarrow d v).cur = s.cur := rfl
@[simp] theorem State.setBarrow_nextId (d : Nat) (v : Barrow) : (s.setBarrow d v).nextId = s.nextId := rfl
@[simp] theorem State.setBarrow_sram (d : Nat) (v : Barrow) : (s.setBarrow d v).sram = s.sram := rfl
@[simp] theorem State.setBarrow_hbm (d : Nat) (v : Barrow) : (s.setBarrow d v).hbm = s.hbm := rfl
@[simp] theorem State.setBarrow_ctl (d : Nat) (v : Barrow) : (s.setBarrow d v).ctl = s.ctl := rfl
@[simp] theorem State.setBarrow_plots (d : Nat) (v : Barrow) : (s.setBarrow d v).plots = s.plots := rfl
@[simp] theorem State.setBarrow_pageMap (d : Nat) (v : Barrow) : (s.setBarrow d v).pageMap = s.pageMap := rfl
@[simp] theorem State.setBarrow_ctlRegion (d : Nat) (v : Barrow) : (s.setBarrow d v).ctlRegion = s.ctlRegion := rfl
@[simp] theorem State.setBarrow_errs (d : Nat) (v : Barrow) : (s.setBarrow d v).errs = s.errs := rfl
@[simp] theorem State.setBarrow_zeroRows (d : Nat) (v : Barrow) : (s.setBarrow d v).zeroRows = s.zeroRows := rfl
@[simp] theorem State.setBarrow_elems (d : Nat) (v : Barrow) : (s.setBarrow d v).elems = s.elems := rfl
@[simp] theorem State.setBarrow_bufs (d : Nat) (v : Barrow) : (s.setBarrow d v).bufs = s.bufs := rfl
@[simp] theorem State.setBarrow_linkLast (d : Nat) (v : Barrow) : (s.setBarrow d v).linkLast = s.linkLast := rfl
@[simp] theorem State.setBarrow_banks (d : Nat) (v : Barrow) : (s.setBarrow d v).banks = s.banks := rfl
@[simp] theorem State.setBarrow_chans (d : Nat) (v : Barrow) : (s.setBarrow d v).chans = s.chans := rfl
@[simp] theorem State.setBarrow_overflow (d : Nat) (v : Barrow) : (s.setBarrow d v).overflow = s.overflow := rfl
@[simp] theorem State.setBarrow_accs (d : Nat) (v : Barrow) : (s.setBarrow d v).accs = s.accs := rfl
@[simp] theorem State.setBarrow_cached (d : Nat) (v : Barrow) : (s.setBarrow d v).cached = s.cached := rfl
@[simp] theorem State.setBarrow_pointers (d : Nat) (v : Barrow) : (s.setBarrow d v).pointers = s.pointers := rfl
@[simp] theorem State.setBarrow_misses (d : Nat) (v : Barrow) : (s.setBarrow d v).misses = s.misses := rfl
@[simp] theorem State.setBarrow_invals (d : Nat) (v : Barrow) : (s.setBarrow d v).invals = s.invals := rfl
@[simp] theorem State.setBarrow_qccs (d : Nat) (v : Barrow) : (s.setBarrow d v).qccs = s.qccs := rfl
@[simp] theorem State.setBarrow_press (d : Nat) (v : Barrow) : (s.setBarrow d v).press = s.press := rfl
@[simp] theorem State.setBarrow_graft (d : Nat) (v : Barrow) : (s.setBarrow d v).graft = s.graft := rfl
@[simp] theorem State.setBarrow_riddle (d : Nat) (v : Barrow) : (s.setBarrow d v).riddle = s.riddle := rfl
@[simp] theorem State.setBarrow_pruner (d : Nat) (v : Barrow) : (s.setBarrow d v).pruner = s.pruner := rfl
@[simp] theorem State.setBarrow_barrow (d : Nat) (v : Barrow) : (s.setBarrow d v).barrow = tabPut s.barrow d v := rfl
@[simp] theorem State.setBarrow_dies (d : Nat) (v : Barrow) : (s.setBarrow d v).dies = s.dies := rfl
@[simp] theorem State.setBarrow_msgs (d : Nat) (v : Barrow) : (s.setBarrow d v).msgs = s.msgs := rfl
@[simp] theorem State.setBarrow_trapOut (d : Nat) (v : Barrow) : (s.setBarrow d v).trapOut = s.trapOut := rfl
@[simp] theorem State.setBarrow_plateOut (d : Nat) (v : Barrow) : (s.setBarrow d v).plateOut = s.plateOut := rfl
@[simp] theorem State.setBarrow_marks (d : Nat) (v : Barrow) : (s.setBarrow d v).marks = s.marks := rfl
@[simp] theorem State.setBarrow_drainNotices (d : Nat) (v : Barrow) : (s.setBarrow d v).drainNotices = s.drainNotices := rfl
@[simp] theorem State.setBarrow_barrRegs (d : Nat) (v : Barrow) : (s.setBarrow d v).barrRegs = s.barrRegs := rfl
@[simp] theorem State.setBarrow_barrDone (d : Nat) (v : Barrow) : (s.setBarrow d v).barrDone = s.barrDone := rfl
@[simp] theorem State.setBarrow_softErrors (d : Nat) (v : Barrow) : (s.setBarrow d v).softErrors = s.softErrors := rfl
@[simp] theorem State.setBarrow_ctxs (d : Nat) (v : Barrow) : (s.setBarrow d v).ctxs = s.ctxs := rfl
@[simp] theorem State.setBarrow_images (d : Nat) (v : Barrow) : (s.setBarrow d v).images = s.images := rfl
@[simp] theorem State.setBarrow_parts (d : Nat) (v : Barrow) : (s.setBarrow d v).parts = s.parts := rfl
@[simp] theorem State.setBarrow_vfs (d : Nat) (v : Barrow) : (s.setBarrow d v).vfs = s.vfs := rfl
@[simp] theorem State.setBarrow_lastServed (d : Nat) (v : Barrow) : (s.setBarrow d v).lastServed = s.lastServed := rfl
@[simp] theorem State.setBarrow_toSpine (d : Nat) (v : Barrow) : (s.setBarrow d v).toSpine = s.toSpine := rfl
@[simp] theorem State.setBarrow_batches (d : Nat) (v : Barrow) : (s.setBarrow d v).batches = s.batches := rfl
@[simp] theorem State.setBarrow_responses (d : Nat) (v : Barrow) : (s.setBarrow d v).responses = s.responses := rfl
@[simp] theorem State.setBarrow_sets (d : Nat) (v : Barrow) : (s.setBarrow d v).sets = s.sets := rfl
@[simp] theorem State.setBarrow_plates (d : Nat) (v : Barrow) : (s.setBarrow d v).plates = s.plates := rfl
@[simp] theorem State.setBarrow_dests (d : Nat) (v : Barrow) : (s.setBarrow d v).dests = s.dests := rfl
@[simp] theorem State.setBarrow_policies (d : Nat) (v : Barrow) : (s.setBarrow d v).policies = s.policies := rfl
@[simp] theorem State.setBarrow_unions (d : Nat) (v : Barrow) : (s.setBarrow d v).unions = s.unions := rfl
@[simp] theorem State.setBarrow_sweep (d : Nat) (v : Barrow) : (s.setBarrow d v).sweep = s.sweep := rfl
@[simp] theorem State.setBarrow_submissions (d : Nat) (v : Barrow) : (s.setBarrow d v).submissions = s.submissions := rfl
@[simp] theorem State.setBarrow_eventsOut (d : Nat) (v : Barrow) : (s.setBarrow d v).eventsOut = s.eventsOut := rfl
@[simp] theorem State.setBarrow_pcie (d : Nat) (v : Barrow) : (s.setBarrow d v).pcie = s.pcie := rfl
@[simp] theorem State.setBarrow_outside (d : Nat) (v : Barrow) : (s.setBarrow d v).outside = s.outside := rfl
@[simp] theorem State.setBarrow_deliveries (d : Nat) (v : Barrow) : (s.setBarrow d v).deliveries = s.deliveries := rfl
@[simp] theorem State.setBarrow_accel (d : Nat) (v : Barrow) : (s.setBarrow d v).accel = s.accel := rfl
@[simp] theorem State.setBarrow_presence (d : Nat) (v : Barrow) : (s.setBarrow d v).presence = s.presence := rfl
@[simp] theorem State.setBarrow_ports (d : Nat) (v : Barrow) : (s.setBarrow d v).ports = s.ports := rfl
@[simp] theorem State.setBarrow_linkOut (d : Nat) (v : Barrow) : (s.setBarrow d v).linkOut = s.linkOut := rfl
@[simp] theorem State.setBarrow_retired (d : Nat) (v : Barrow) : (s.setBarrow d v).retired = s.retired := rfl
@[simp] theorem State.setBarrow_replaceSeq (d : Nat) (v : Barrow) : (s.setBarrow d v).replaceSeq = s.replaceSeq := rfl
@[simp] theorem State.setBarrow_replaceBody (d : Nat) (v : Barrow) : (s.setBarrow d v).replaceBody = s.replaceBody := rfl
@[simp] theorem State.setBarrow_fwver (d : Nat) (v : Barrow) : (s.setBarrow d v).fwver = s.fwver := rfl
@[simp] theorem State.setBarrow_rollback (d : Nat) (v : Barrow) : (s.setBarrow d v).rollback = s.rollback := rfl
@[simp] theorem State.setBarrow_firmware (d : Nat) (v : Barrow) : (s.setBarrow d v).firmware = s.firmware := rfl
@[simp] theorem State.setBarrow_nextFirmware (d : Nat) (v : Barrow) : (s.setBarrow d v).nextFirmware = s.nextFirmware := rfl
@[simp] theorem State.setBarrow_debugOn (d : Nat) (v : Barrow) : (s.setBarrow d v).debugOn = s.debugOn := rfl
@[simp] theorem State.setBarrow_debugOut (d : Nat) (v : Barrow) : (s.setBarrow d v).debugOut = s.debugOut := rfl
@[simp] theorem State.setBarrow_bringUp (d : Nat) (v : Barrow) : (s.setBarrow d v).bringUp = s.bringUp := rfl
@[simp] theorem State.setBarrow_l1 (d : Nat) (v : Barrow) : (s.setBarrow d v).l1 = s.l1 := rfl
@[simp] theorem State.setBarrow_pwrlim (d : Nat) (v : Barrow) : (s.setBarrow d v).pwrlim = s.pwrlim := rfl
@[simp] theorem State.setBarrow_issueRate (d : Nat) (v : Barrow) : (s.setBarrow d v).issueRate = s.issueRate := rfl
@[simp] theorem State.setBarrow_power (d : Nat) (v : Barrow) : (s.setBarrow d v).power = s.power := rfl
@[simp] theorem State.setBarrow_status (d : Nat) (v : Barrow) : (s.setBarrow d v).status = s.status := rfl
@[simp] theorem State.setBarrow_pmtol (d : Nat) (v : Barrow) : (s.setBarrow d v).pmtol = s.pmtol := rfl
@[simp] theorem State.setBarrow_hostReqs (d : Nat) (v : Barrow) : (s.setBarrow d v).hostReqs = s.hostReqs := rfl
@[simp] theorem State.setBarrow_linkErrs (d : Nat) (v : Barrow) : (s.setBarrow d v).linkErrs = s.linkErrs := rfl
@[simp] theorem State.setBarrow_flr (d : Nat) (v : Barrow) : (s.setBarrow d v).flr = s.flr := rfl
@[simp] theorem State.setBarrow_saves (d : Nat) (v : Barrow) : (s.setBarrow d v).saves = s.saves := rfl

/-! ### `State.setDie` -/

@[simp] theorem State.setDie_agenda (d : Nat) (v : Die) : (s.setDie d v).agenda = s.agenda := rfl
@[simp] theorem State.setDie_tick (d : Nat) (v : Die) : (s.setDie d v).tick = s.tick := rfl
@[simp] theorem State.setDie_firing (d : Nat) (v : Die) : (s.setDie d v).firing = s.firing := rfl
@[simp] theorem State.setDie_cur (d : Nat) (v : Die) : (s.setDie d v).cur = s.cur := rfl
@[simp] theorem State.setDie_nextId (d : Nat) (v : Die) : (s.setDie d v).nextId = s.nextId := rfl
@[simp] theorem State.setDie_sram (d : Nat) (v : Die) : (s.setDie d v).sram = s.sram := rfl
@[simp] theorem State.setDie_hbm (d : Nat) (v : Die) : (s.setDie d v).hbm = s.hbm := rfl
@[simp] theorem State.setDie_ctl (d : Nat) (v : Die) : (s.setDie d v).ctl = s.ctl := rfl
@[simp] theorem State.setDie_plots (d : Nat) (v : Die) : (s.setDie d v).plots = s.plots := rfl
@[simp] theorem State.setDie_pageMap (d : Nat) (v : Die) : (s.setDie d v).pageMap = s.pageMap := rfl
@[simp] theorem State.setDie_ctlRegion (d : Nat) (v : Die) : (s.setDie d v).ctlRegion = s.ctlRegion := rfl
@[simp] theorem State.setDie_errs (d : Nat) (v : Die) : (s.setDie d v).errs = s.errs := rfl
@[simp] theorem State.setDie_zeroRows (d : Nat) (v : Die) : (s.setDie d v).zeroRows = s.zeroRows := rfl
@[simp] theorem State.setDie_elems (d : Nat) (v : Die) : (s.setDie d v).elems = s.elems := rfl
@[simp] theorem State.setDie_bufs (d : Nat) (v : Die) : (s.setDie d v).bufs = s.bufs := rfl
@[simp] theorem State.setDie_linkLast (d : Nat) (v : Die) : (s.setDie d v).linkLast = s.linkLast := rfl
@[simp] theorem State.setDie_banks (d : Nat) (v : Die) : (s.setDie d v).banks = s.banks := rfl
@[simp] theorem State.setDie_chans (d : Nat) (v : Die) : (s.setDie d v).chans = s.chans := rfl
@[simp] theorem State.setDie_overflow (d : Nat) (v : Die) : (s.setDie d v).overflow = s.overflow := rfl
@[simp] theorem State.setDie_accs (d : Nat) (v : Die) : (s.setDie d v).accs = s.accs := rfl
@[simp] theorem State.setDie_cached (d : Nat) (v : Die) : (s.setDie d v).cached = s.cached := rfl
@[simp] theorem State.setDie_pointers (d : Nat) (v : Die) : (s.setDie d v).pointers = s.pointers := rfl
@[simp] theorem State.setDie_misses (d : Nat) (v : Die) : (s.setDie d v).misses = s.misses := rfl
@[simp] theorem State.setDie_invals (d : Nat) (v : Die) : (s.setDie d v).invals = s.invals := rfl
@[simp] theorem State.setDie_qccs (d : Nat) (v : Die) : (s.setDie d v).qccs = s.qccs := rfl
@[simp] theorem State.setDie_press (d : Nat) (v : Die) : (s.setDie d v).press = s.press := rfl
@[simp] theorem State.setDie_graft (d : Nat) (v : Die) : (s.setDie d v).graft = s.graft := rfl
@[simp] theorem State.setDie_riddle (d : Nat) (v : Die) : (s.setDie d v).riddle = s.riddle := rfl
@[simp] theorem State.setDie_pruner (d : Nat) (v : Die) : (s.setDie d v).pruner = s.pruner := rfl
@[simp] theorem State.setDie_barrow (d : Nat) (v : Die) : (s.setDie d v).barrow = s.barrow := rfl
@[simp] theorem State.setDie_dies (d : Nat) (v : Die) : (s.setDie d v).dies = tabPut s.dies d v := rfl
@[simp] theorem State.setDie_msgs (d : Nat) (v : Die) : (s.setDie d v).msgs = s.msgs := rfl
@[simp] theorem State.setDie_trapOut (d : Nat) (v : Die) : (s.setDie d v).trapOut = s.trapOut := rfl
@[simp] theorem State.setDie_plateOut (d : Nat) (v : Die) : (s.setDie d v).plateOut = s.plateOut := rfl
@[simp] theorem State.setDie_marks (d : Nat) (v : Die) : (s.setDie d v).marks = s.marks := rfl
@[simp] theorem State.setDie_drainNotices (d : Nat) (v : Die) : (s.setDie d v).drainNotices = s.drainNotices := rfl
@[simp] theorem State.setDie_barrRegs (d : Nat) (v : Die) : (s.setDie d v).barrRegs = s.barrRegs := rfl
@[simp] theorem State.setDie_barrDone (d : Nat) (v : Die) : (s.setDie d v).barrDone = s.barrDone := rfl
@[simp] theorem State.setDie_softErrors (d : Nat) (v : Die) : (s.setDie d v).softErrors = s.softErrors := rfl
@[simp] theorem State.setDie_ctxs (d : Nat) (v : Die) : (s.setDie d v).ctxs = s.ctxs := rfl
@[simp] theorem State.setDie_images (d : Nat) (v : Die) : (s.setDie d v).images = s.images := rfl
@[simp] theorem State.setDie_parts (d : Nat) (v : Die) : (s.setDie d v).parts = s.parts := rfl
@[simp] theorem State.setDie_vfs (d : Nat) (v : Die) : (s.setDie d v).vfs = s.vfs := rfl
@[simp] theorem State.setDie_lastServed (d : Nat) (v : Die) : (s.setDie d v).lastServed = s.lastServed := rfl
@[simp] theorem State.setDie_toSpine (d : Nat) (v : Die) : (s.setDie d v).toSpine = s.toSpine := rfl
@[simp] theorem State.setDie_batches (d : Nat) (v : Die) : (s.setDie d v).batches = s.batches := rfl
@[simp] theorem State.setDie_responses (d : Nat) (v : Die) : (s.setDie d v).responses = s.responses := rfl
@[simp] theorem State.setDie_sets (d : Nat) (v : Die) : (s.setDie d v).sets = s.sets := rfl
@[simp] theorem State.setDie_plates (d : Nat) (v : Die) : (s.setDie d v).plates = s.plates := rfl
@[simp] theorem State.setDie_dests (d : Nat) (v : Die) : (s.setDie d v).dests = s.dests := rfl
@[simp] theorem State.setDie_policies (d : Nat) (v : Die) : (s.setDie d v).policies = s.policies := rfl
@[simp] theorem State.setDie_unions (d : Nat) (v : Die) : (s.setDie d v).unions = s.unions := rfl
@[simp] theorem State.setDie_sweep (d : Nat) (v : Die) : (s.setDie d v).sweep = s.sweep := rfl
@[simp] theorem State.setDie_submissions (d : Nat) (v : Die) : (s.setDie d v).submissions = s.submissions := rfl
@[simp] theorem State.setDie_eventsOut (d : Nat) (v : Die) : (s.setDie d v).eventsOut = s.eventsOut := rfl
@[simp] theorem State.setDie_pcie (d : Nat) (v : Die) : (s.setDie d v).pcie = s.pcie := rfl
@[simp] theorem State.setDie_outside (d : Nat) (v : Die) : (s.setDie d v).outside = s.outside := rfl
@[simp] theorem State.setDie_deliveries (d : Nat) (v : Die) : (s.setDie d v).deliveries = s.deliveries := rfl
@[simp] theorem State.setDie_accel (d : Nat) (v : Die) : (s.setDie d v).accel = s.accel := rfl
@[simp] theorem State.setDie_presence (d : Nat) (v : Die) : (s.setDie d v).presence = s.presence := rfl
@[simp] theorem State.setDie_ports (d : Nat) (v : Die) : (s.setDie d v).ports = s.ports := rfl
@[simp] theorem State.setDie_linkOut (d : Nat) (v : Die) : (s.setDie d v).linkOut = s.linkOut := rfl
@[simp] theorem State.setDie_retired (d : Nat) (v : Die) : (s.setDie d v).retired = s.retired := rfl
@[simp] theorem State.setDie_replaceSeq (d : Nat) (v : Die) : (s.setDie d v).replaceSeq = s.replaceSeq := rfl
@[simp] theorem State.setDie_replaceBody (d : Nat) (v : Die) : (s.setDie d v).replaceBody = s.replaceBody := rfl
@[simp] theorem State.setDie_fwver (d : Nat) (v : Die) : (s.setDie d v).fwver = s.fwver := rfl
@[simp] theorem State.setDie_rollback (d : Nat) (v : Die) : (s.setDie d v).rollback = s.rollback := rfl
@[simp] theorem State.setDie_firmware (d : Nat) (v : Die) : (s.setDie d v).firmware = s.firmware := rfl
@[simp] theorem State.setDie_nextFirmware (d : Nat) (v : Die) : (s.setDie d v).nextFirmware = s.nextFirmware := rfl
@[simp] theorem State.setDie_debugOn (d : Nat) (v : Die) : (s.setDie d v).debugOn = s.debugOn := rfl
@[simp] theorem State.setDie_debugOut (d : Nat) (v : Die) : (s.setDie d v).debugOut = s.debugOut := rfl
@[simp] theorem State.setDie_bringUp (d : Nat) (v : Die) : (s.setDie d v).bringUp = s.bringUp := rfl
@[simp] theorem State.setDie_l1 (d : Nat) (v : Die) : (s.setDie d v).l1 = s.l1 := rfl
@[simp] theorem State.setDie_pwrlim (d : Nat) (v : Die) : (s.setDie d v).pwrlim = s.pwrlim := rfl
@[simp] theorem State.setDie_issueRate (d : Nat) (v : Die) : (s.setDie d v).issueRate = s.issueRate := rfl
@[simp] theorem State.setDie_power (d : Nat) (v : Die) : (s.setDie d v).power = s.power := rfl
@[simp] theorem State.setDie_status (d : Nat) (v : Die) : (s.setDie d v).status = s.status := rfl
@[simp] theorem State.setDie_pmtol (d : Nat) (v : Die) : (s.setDie d v).pmtol = s.pmtol := rfl
@[simp] theorem State.setDie_hostReqs (d : Nat) (v : Die) : (s.setDie d v).hostReqs = s.hostReqs := rfl
@[simp] theorem State.setDie_linkErrs (d : Nat) (v : Die) : (s.setDie d v).linkErrs = s.linkErrs := rfl
@[simp] theorem State.setDie_flr (d : Nat) (v : Die) : (s.setDie d v).flr = s.flr := rfl
@[simp] theorem State.setDie_saves (d : Nat) (v : Die) : (s.setDie d v).saves = s.saves := rfl

/-! ### `State.setPort` -/

@[simp] theorem State.setPort_agenda (p : Nat) (v : LinkPort) : (s.setPort p v).agenda = s.agenda := rfl
@[simp] theorem State.setPort_tick (p : Nat) (v : LinkPort) : (s.setPort p v).tick = s.tick := rfl
@[simp] theorem State.setPort_firing (p : Nat) (v : LinkPort) : (s.setPort p v).firing = s.firing := rfl
@[simp] theorem State.setPort_cur (p : Nat) (v : LinkPort) : (s.setPort p v).cur = s.cur := rfl
@[simp] theorem State.setPort_nextId (p : Nat) (v : LinkPort) : (s.setPort p v).nextId = s.nextId := rfl
@[simp] theorem State.setPort_sram (p : Nat) (v : LinkPort) : (s.setPort p v).sram = s.sram := rfl
@[simp] theorem State.setPort_hbm (p : Nat) (v : LinkPort) : (s.setPort p v).hbm = s.hbm := rfl
@[simp] theorem State.setPort_ctl (p : Nat) (v : LinkPort) : (s.setPort p v).ctl = s.ctl := rfl
@[simp] theorem State.setPort_plots (p : Nat) (v : LinkPort) : (s.setPort p v).plots = s.plots := rfl
@[simp] theorem State.setPort_pageMap (p : Nat) (v : LinkPort) : (s.setPort p v).pageMap = s.pageMap := rfl
@[simp] theorem State.setPort_ctlRegion (p : Nat) (v : LinkPort) : (s.setPort p v).ctlRegion = s.ctlRegion := rfl
@[simp] theorem State.setPort_errs (p : Nat) (v : LinkPort) : (s.setPort p v).errs = s.errs := rfl
@[simp] theorem State.setPort_zeroRows (p : Nat) (v : LinkPort) : (s.setPort p v).zeroRows = s.zeroRows := rfl
@[simp] theorem State.setPort_elems (p : Nat) (v : LinkPort) : (s.setPort p v).elems = s.elems := rfl
@[simp] theorem State.setPort_bufs (p : Nat) (v : LinkPort) : (s.setPort p v).bufs = s.bufs := rfl
@[simp] theorem State.setPort_linkLast (p : Nat) (v : LinkPort) : (s.setPort p v).linkLast = s.linkLast := rfl
@[simp] theorem State.setPort_banks (p : Nat) (v : LinkPort) : (s.setPort p v).banks = s.banks := rfl
@[simp] theorem State.setPort_chans (p : Nat) (v : LinkPort) : (s.setPort p v).chans = s.chans := rfl
@[simp] theorem State.setPort_overflow (p : Nat) (v : LinkPort) : (s.setPort p v).overflow = s.overflow := rfl
@[simp] theorem State.setPort_accs (p : Nat) (v : LinkPort) : (s.setPort p v).accs = s.accs := rfl
@[simp] theorem State.setPort_cached (p : Nat) (v : LinkPort) : (s.setPort p v).cached = s.cached := rfl
@[simp] theorem State.setPort_pointers (p : Nat) (v : LinkPort) : (s.setPort p v).pointers = s.pointers := rfl
@[simp] theorem State.setPort_misses (p : Nat) (v : LinkPort) : (s.setPort p v).misses = s.misses := rfl
@[simp] theorem State.setPort_invals (p : Nat) (v : LinkPort) : (s.setPort p v).invals = s.invals := rfl
@[simp] theorem State.setPort_qccs (p : Nat) (v : LinkPort) : (s.setPort p v).qccs = s.qccs := rfl
@[simp] theorem State.setPort_press (p : Nat) (v : LinkPort) : (s.setPort p v).press = s.press := rfl
@[simp] theorem State.setPort_graft (p : Nat) (v : LinkPort) : (s.setPort p v).graft = s.graft := rfl
@[simp] theorem State.setPort_riddle (p : Nat) (v : LinkPort) : (s.setPort p v).riddle = s.riddle := rfl
@[simp] theorem State.setPort_pruner (p : Nat) (v : LinkPort) : (s.setPort p v).pruner = s.pruner := rfl
@[simp] theorem State.setPort_barrow (p : Nat) (v : LinkPort) : (s.setPort p v).barrow = s.barrow := rfl
@[simp] theorem State.setPort_dies (p : Nat) (v : LinkPort) : (s.setPort p v).dies = s.dies := rfl
@[simp] theorem State.setPort_msgs (p : Nat) (v : LinkPort) : (s.setPort p v).msgs = s.msgs := rfl
@[simp] theorem State.setPort_trapOut (p : Nat) (v : LinkPort) : (s.setPort p v).trapOut = s.trapOut := rfl
@[simp] theorem State.setPort_plateOut (p : Nat) (v : LinkPort) : (s.setPort p v).plateOut = s.plateOut := rfl
@[simp] theorem State.setPort_marks (p : Nat) (v : LinkPort) : (s.setPort p v).marks = s.marks := rfl
@[simp] theorem State.setPort_drainNotices (p : Nat) (v : LinkPort) : (s.setPort p v).drainNotices = s.drainNotices := rfl
@[simp] theorem State.setPort_barrRegs (p : Nat) (v : LinkPort) : (s.setPort p v).barrRegs = s.barrRegs := rfl
@[simp] theorem State.setPort_barrDone (p : Nat) (v : LinkPort) : (s.setPort p v).barrDone = s.barrDone := rfl
@[simp] theorem State.setPort_softErrors (p : Nat) (v : LinkPort) : (s.setPort p v).softErrors = s.softErrors := rfl
@[simp] theorem State.setPort_ctxs (p : Nat) (v : LinkPort) : (s.setPort p v).ctxs = s.ctxs := rfl
@[simp] theorem State.setPort_images (p : Nat) (v : LinkPort) : (s.setPort p v).images = s.images := rfl
@[simp] theorem State.setPort_parts (p : Nat) (v : LinkPort) : (s.setPort p v).parts = s.parts := rfl
@[simp] theorem State.setPort_vfs (p : Nat) (v : LinkPort) : (s.setPort p v).vfs = s.vfs := rfl
@[simp] theorem State.setPort_lastServed (p : Nat) (v : LinkPort) : (s.setPort p v).lastServed = s.lastServed := rfl
@[simp] theorem State.setPort_toSpine (p : Nat) (v : LinkPort) : (s.setPort p v).toSpine = s.toSpine := rfl
@[simp] theorem State.setPort_batches (p : Nat) (v : LinkPort) : (s.setPort p v).batches = s.batches := rfl
@[simp] theorem State.setPort_responses (p : Nat) (v : LinkPort) : (s.setPort p v).responses = s.responses := rfl
@[simp] theorem State.setPort_sets (p : Nat) (v : LinkPort) : (s.setPort p v).sets = s.sets := rfl
@[simp] theorem State.setPort_plates (p : Nat) (v : LinkPort) : (s.setPort p v).plates = s.plates := rfl
@[simp] theorem State.setPort_dests (p : Nat) (v : LinkPort) : (s.setPort p v).dests = s.dests := rfl
@[simp] theorem State.setPort_policies (p : Nat) (v : LinkPort) : (s.setPort p v).policies = s.policies := rfl
@[simp] theorem State.setPort_unions (p : Nat) (v : LinkPort) : (s.setPort p v).unions = s.unions := rfl
@[simp] theorem State.setPort_sweep (p : Nat) (v : LinkPort) : (s.setPort p v).sweep = s.sweep := rfl
@[simp] theorem State.setPort_submissions (p : Nat) (v : LinkPort) : (s.setPort p v).submissions = s.submissions := rfl
@[simp] theorem State.setPort_eventsOut (p : Nat) (v : LinkPort) : (s.setPort p v).eventsOut = s.eventsOut := rfl
@[simp] theorem State.setPort_pcie (p : Nat) (v : LinkPort) : (s.setPort p v).pcie = s.pcie := rfl
@[simp] theorem State.setPort_outside (p : Nat) (v : LinkPort) : (s.setPort p v).outside = s.outside := rfl
@[simp] theorem State.setPort_deliveries (p : Nat) (v : LinkPort) : (s.setPort p v).deliveries = s.deliveries := rfl
@[simp] theorem State.setPort_accel (p : Nat) (v : LinkPort) : (s.setPort p v).accel = s.accel := rfl
@[simp] theorem State.setPort_presence (p : Nat) (v : LinkPort) : (s.setPort p v).presence = s.presence := rfl
@[simp] theorem State.setPort_ports (p : Nat) (v : LinkPort) : (s.setPort p v).ports = tabPut s.ports p v := rfl
@[simp] theorem State.setPort_linkOut (p : Nat) (v : LinkPort) : (s.setPort p v).linkOut = s.linkOut := rfl
@[simp] theorem State.setPort_retired (p : Nat) (v : LinkPort) : (s.setPort p v).retired = s.retired := rfl
@[simp] theorem State.setPort_replaceSeq (p : Nat) (v : LinkPort) : (s.setPort p v).replaceSeq = s.replaceSeq := rfl
@[simp] theorem State.setPort_replaceBody (p : Nat) (v : LinkPort) : (s.setPort p v).replaceBody = s.replaceBody := rfl
@[simp] theorem State.setPort_fwver (p : Nat) (v : LinkPort) : (s.setPort p v).fwver = s.fwver := rfl
@[simp] theorem State.setPort_rollback (p : Nat) (v : LinkPort) : (s.setPort p v).rollback = s.rollback := rfl
@[simp] theorem State.setPort_firmware (p : Nat) (v : LinkPort) : (s.setPort p v).firmware = s.firmware := rfl
@[simp] theorem State.setPort_nextFirmware (p : Nat) (v : LinkPort) : (s.setPort p v).nextFirmware = s.nextFirmware := rfl
@[simp] theorem State.setPort_debugOn (p : Nat) (v : LinkPort) : (s.setPort p v).debugOn = s.debugOn := rfl
@[simp] theorem State.setPort_debugOut (p : Nat) (v : LinkPort) : (s.setPort p v).debugOut = s.debugOut := rfl
@[simp] theorem State.setPort_bringUp (p : Nat) (v : LinkPort) : (s.setPort p v).bringUp = s.bringUp := rfl
@[simp] theorem State.setPort_l1 (p : Nat) (v : LinkPort) : (s.setPort p v).l1 = s.l1 := rfl
@[simp] theorem State.setPort_pwrlim (p : Nat) (v : LinkPort) : (s.setPort p v).pwrlim = s.pwrlim := rfl
@[simp] theorem State.setPort_issueRate (p : Nat) (v : LinkPort) : (s.setPort p v).issueRate = s.issueRate := rfl
@[simp] theorem State.setPort_power (p : Nat) (v : LinkPort) : (s.setPort p v).power = s.power := rfl
@[simp] theorem State.setPort_status (p : Nat) (v : LinkPort) : (s.setPort p v).status = s.status := rfl
@[simp] theorem State.setPort_pmtol (p : Nat) (v : LinkPort) : (s.setPort p v).pmtol = s.pmtol := rfl
@[simp] theorem State.setPort_hostReqs (p : Nat) (v : LinkPort) : (s.setPort p v).hostReqs = s.hostReqs := rfl
@[simp] theorem State.setPort_linkErrs (p : Nat) (v : LinkPort) : (s.setPort p v).linkErrs = s.linkErrs := rfl
@[simp] theorem State.setPort_flr (p : Nat) (v : LinkPort) : (s.setPort p v).flr = s.flr := rfl
@[simp] theorem State.setPort_saves (p : Nat) (v : LinkPort) : (s.setPort p v).saves = s.saves := rfl

/-! ### `State.setCtx` -/

@[simp] theorem State.setCtx_agenda (c : Nat) (v : Ctx) : (s.setCtx c v).agenda = s.agenda := rfl
@[simp] theorem State.setCtx_tick (c : Nat) (v : Ctx) : (s.setCtx c v).tick = s.tick := rfl
@[simp] theorem State.setCtx_firing (c : Nat) (v : Ctx) : (s.setCtx c v).firing = s.firing := rfl
@[simp] theorem State.setCtx_cur (c : Nat) (v : Ctx) : (s.setCtx c v).cur = s.cur := rfl
@[simp] theorem State.setCtx_nextId (c : Nat) (v : Ctx) : (s.setCtx c v).nextId = s.nextId := rfl
@[simp] theorem State.setCtx_sram (c : Nat) (v : Ctx) : (s.setCtx c v).sram = s.sram := rfl
@[simp] theorem State.setCtx_hbm (c : Nat) (v : Ctx) : (s.setCtx c v).hbm = s.hbm := rfl
@[simp] theorem State.setCtx_ctl (c : Nat) (v : Ctx) : (s.setCtx c v).ctl = s.ctl := rfl
@[simp] theorem State.setCtx_plots (c : Nat) (v : Ctx) : (s.setCtx c v).plots = s.plots := rfl
@[simp] theorem State.setCtx_pageMap (c : Nat) (v : Ctx) : (s.setCtx c v).pageMap = s.pageMap := rfl
@[simp] theorem State.setCtx_ctlRegion (c : Nat) (v : Ctx) : (s.setCtx c v).ctlRegion = s.ctlRegion := rfl
@[simp] theorem State.setCtx_errs (c : Nat) (v : Ctx) : (s.setCtx c v).errs = s.errs := rfl
@[simp] theorem State.setCtx_zeroRows (c : Nat) (v : Ctx) : (s.setCtx c v).zeroRows = s.zeroRows := rfl
@[simp] theorem State.setCtx_elems (c : Nat) (v : Ctx) : (s.setCtx c v).elems = s.elems := rfl
@[simp] theorem State.setCtx_bufs (c : Nat) (v : Ctx) : (s.setCtx c v).bufs = s.bufs := rfl
@[simp] theorem State.setCtx_linkLast (c : Nat) (v : Ctx) : (s.setCtx c v).linkLast = s.linkLast := rfl
@[simp] theorem State.setCtx_banks (c : Nat) (v : Ctx) : (s.setCtx c v).banks = s.banks := rfl
@[simp] theorem State.setCtx_chans (c : Nat) (v : Ctx) : (s.setCtx c v).chans = s.chans := rfl
@[simp] theorem State.setCtx_overflow (c : Nat) (v : Ctx) : (s.setCtx c v).overflow = s.overflow := rfl
@[simp] theorem State.setCtx_accs (c : Nat) (v : Ctx) : (s.setCtx c v).accs = s.accs := rfl
@[simp] theorem State.setCtx_cached (c : Nat) (v : Ctx) : (s.setCtx c v).cached = s.cached := rfl
@[simp] theorem State.setCtx_pointers (c : Nat) (v : Ctx) : (s.setCtx c v).pointers = s.pointers := rfl
@[simp] theorem State.setCtx_misses (c : Nat) (v : Ctx) : (s.setCtx c v).misses = s.misses := rfl
@[simp] theorem State.setCtx_invals (c : Nat) (v : Ctx) : (s.setCtx c v).invals = s.invals := rfl
@[simp] theorem State.setCtx_qccs (c : Nat) (v : Ctx) : (s.setCtx c v).qccs = s.qccs := rfl
@[simp] theorem State.setCtx_press (c : Nat) (v : Ctx) : (s.setCtx c v).press = s.press := rfl
@[simp] theorem State.setCtx_graft (c : Nat) (v : Ctx) : (s.setCtx c v).graft = s.graft := rfl
@[simp] theorem State.setCtx_riddle (c : Nat) (v : Ctx) : (s.setCtx c v).riddle = s.riddle := rfl
@[simp] theorem State.setCtx_pruner (c : Nat) (v : Ctx) : (s.setCtx c v).pruner = s.pruner := rfl
@[simp] theorem State.setCtx_barrow (c : Nat) (v : Ctx) : (s.setCtx c v).barrow = s.barrow := rfl
@[simp] theorem State.setCtx_dies (c : Nat) (v : Ctx) : (s.setCtx c v).dies = s.dies := rfl
@[simp] theorem State.setCtx_msgs (c : Nat) (v : Ctx) : (s.setCtx c v).msgs = s.msgs := rfl
@[simp] theorem State.setCtx_trapOut (c : Nat) (v : Ctx) : (s.setCtx c v).trapOut = s.trapOut := rfl
@[simp] theorem State.setCtx_plateOut (c : Nat) (v : Ctx) : (s.setCtx c v).plateOut = s.plateOut := rfl
@[simp] theorem State.setCtx_marks (c : Nat) (v : Ctx) : (s.setCtx c v).marks = s.marks := rfl
@[simp] theorem State.setCtx_drainNotices (c : Nat) (v : Ctx) : (s.setCtx c v).drainNotices = s.drainNotices := rfl
@[simp] theorem State.setCtx_barrRegs (c : Nat) (v : Ctx) : (s.setCtx c v).barrRegs = s.barrRegs := rfl
@[simp] theorem State.setCtx_barrDone (c : Nat) (v : Ctx) : (s.setCtx c v).barrDone = s.barrDone := rfl
@[simp] theorem State.setCtx_softErrors (c : Nat) (v : Ctx) : (s.setCtx c v).softErrors = s.softErrors := rfl
@[simp] theorem State.setCtx_ctxs (c : Nat) (v : Ctx) : (s.setCtx c v).ctxs = tabPut s.ctxs c v := rfl
@[simp] theorem State.setCtx_images (c : Nat) (v : Ctx) : (s.setCtx c v).images = s.images := rfl
@[simp] theorem State.setCtx_parts (c : Nat) (v : Ctx) : (s.setCtx c v).parts = s.parts := rfl
@[simp] theorem State.setCtx_vfs (c : Nat) (v : Ctx) : (s.setCtx c v).vfs = s.vfs := rfl
@[simp] theorem State.setCtx_lastServed (c : Nat) (v : Ctx) : (s.setCtx c v).lastServed = s.lastServed := rfl
@[simp] theorem State.setCtx_toSpine (c : Nat) (v : Ctx) : (s.setCtx c v).toSpine = s.toSpine := rfl
@[simp] theorem State.setCtx_batches (c : Nat) (v : Ctx) : (s.setCtx c v).batches = s.batches := rfl
@[simp] theorem State.setCtx_responses (c : Nat) (v : Ctx) : (s.setCtx c v).responses = s.responses := rfl
@[simp] theorem State.setCtx_sets (c : Nat) (v : Ctx) : (s.setCtx c v).sets = s.sets := rfl
@[simp] theorem State.setCtx_plates (c : Nat) (v : Ctx) : (s.setCtx c v).plates = s.plates := rfl
@[simp] theorem State.setCtx_dests (c : Nat) (v : Ctx) : (s.setCtx c v).dests = s.dests := rfl
@[simp] theorem State.setCtx_policies (c : Nat) (v : Ctx) : (s.setCtx c v).policies = s.policies := rfl
@[simp] theorem State.setCtx_unions (c : Nat) (v : Ctx) : (s.setCtx c v).unions = s.unions := rfl
@[simp] theorem State.setCtx_sweep (c : Nat) (v : Ctx) : (s.setCtx c v).sweep = s.sweep := rfl
@[simp] theorem State.setCtx_submissions (c : Nat) (v : Ctx) : (s.setCtx c v).submissions = s.submissions := rfl
@[simp] theorem State.setCtx_eventsOut (c : Nat) (v : Ctx) : (s.setCtx c v).eventsOut = s.eventsOut := rfl
@[simp] theorem State.setCtx_pcie (c : Nat) (v : Ctx) : (s.setCtx c v).pcie = s.pcie := rfl
@[simp] theorem State.setCtx_outside (c : Nat) (v : Ctx) : (s.setCtx c v).outside = s.outside := rfl
@[simp] theorem State.setCtx_deliveries (c : Nat) (v : Ctx) : (s.setCtx c v).deliveries = s.deliveries := rfl
@[simp] theorem State.setCtx_accel (c : Nat) (v : Ctx) : (s.setCtx c v).accel = s.accel := rfl
@[simp] theorem State.setCtx_presence (c : Nat) (v : Ctx) : (s.setCtx c v).presence = s.presence := rfl
@[simp] theorem State.setCtx_ports (c : Nat) (v : Ctx) : (s.setCtx c v).ports = s.ports := rfl
@[simp] theorem State.setCtx_linkOut (c : Nat) (v : Ctx) : (s.setCtx c v).linkOut = s.linkOut := rfl
@[simp] theorem State.setCtx_retired (c : Nat) (v : Ctx) : (s.setCtx c v).retired = s.retired := rfl
@[simp] theorem State.setCtx_replaceSeq (c : Nat) (v : Ctx) : (s.setCtx c v).replaceSeq = s.replaceSeq := rfl
@[simp] theorem State.setCtx_replaceBody (c : Nat) (v : Ctx) : (s.setCtx c v).replaceBody = s.replaceBody := rfl
@[simp] theorem State.setCtx_fwver (c : Nat) (v : Ctx) : (s.setCtx c v).fwver = s.fwver := rfl
@[simp] theorem State.setCtx_rollback (c : Nat) (v : Ctx) : (s.setCtx c v).rollback = s.rollback := rfl
@[simp] theorem State.setCtx_firmware (c : Nat) (v : Ctx) : (s.setCtx c v).firmware = s.firmware := rfl
@[simp] theorem State.setCtx_nextFirmware (c : Nat) (v : Ctx) : (s.setCtx c v).nextFirmware = s.nextFirmware := rfl
@[simp] theorem State.setCtx_debugOn (c : Nat) (v : Ctx) : (s.setCtx c v).debugOn = s.debugOn := rfl
@[simp] theorem State.setCtx_debugOut (c : Nat) (v : Ctx) : (s.setCtx c v).debugOut = s.debugOut := rfl
@[simp] theorem State.setCtx_bringUp (c : Nat) (v : Ctx) : (s.setCtx c v).bringUp = s.bringUp := rfl
@[simp] theorem State.setCtx_l1 (c : Nat) (v : Ctx) : (s.setCtx c v).l1 = s.l1 := rfl
@[simp] theorem State.setCtx_pwrlim (c : Nat) (v : Ctx) : (s.setCtx c v).pwrlim = s.pwrlim := rfl
@[simp] theorem State.setCtx_issueRate (c : Nat) (v : Ctx) : (s.setCtx c v).issueRate = s.issueRate := rfl
@[simp] theorem State.setCtx_power (c : Nat) (v : Ctx) : (s.setCtx c v).power = s.power := rfl
@[simp] theorem State.setCtx_status (c : Nat) (v : Ctx) : (s.setCtx c v).status = s.status := rfl
@[simp] theorem State.setCtx_pmtol (c : Nat) (v : Ctx) : (s.setCtx c v).pmtol = s.pmtol := rfl
@[simp] theorem State.setCtx_hostReqs (c : Nat) (v : Ctx) : (s.setCtx c v).hostReqs = s.hostReqs := rfl
@[simp] theorem State.setCtx_linkErrs (c : Nat) (v : Ctx) : (s.setCtx c v).linkErrs = s.linkErrs := rfl
@[simp] theorem State.setCtx_flr (c : Nat) (v : Ctx) : (s.setCtx c v).flr = s.flr := rfl
@[simp] theorem State.setCtx_saves (c : Nat) (v : Ctx) : (s.setCtx c v).saves = s.saves := rfl

/-! ### `State.setPart` -/

@[simp] theorem State.setPart_agenda (p : Nat) (v : Partn) : (s.setPart p v).agenda = s.agenda := rfl
@[simp] theorem State.setPart_tick (p : Nat) (v : Partn) : (s.setPart p v).tick = s.tick := rfl
@[simp] theorem State.setPart_firing (p : Nat) (v : Partn) : (s.setPart p v).firing = s.firing := rfl
@[simp] theorem State.setPart_cur (p : Nat) (v : Partn) : (s.setPart p v).cur = s.cur := rfl
@[simp] theorem State.setPart_nextId (p : Nat) (v : Partn) : (s.setPart p v).nextId = s.nextId := rfl
@[simp] theorem State.setPart_sram (p : Nat) (v : Partn) : (s.setPart p v).sram = s.sram := rfl
@[simp] theorem State.setPart_hbm (p : Nat) (v : Partn) : (s.setPart p v).hbm = s.hbm := rfl
@[simp] theorem State.setPart_ctl (p : Nat) (v : Partn) : (s.setPart p v).ctl = s.ctl := rfl
@[simp] theorem State.setPart_plots (p : Nat) (v : Partn) : (s.setPart p v).plots = s.plots := rfl
@[simp] theorem State.setPart_pageMap (p : Nat) (v : Partn) : (s.setPart p v).pageMap = s.pageMap := rfl
@[simp] theorem State.setPart_ctlRegion (p : Nat) (v : Partn) : (s.setPart p v).ctlRegion = s.ctlRegion := rfl
@[simp] theorem State.setPart_errs (p : Nat) (v : Partn) : (s.setPart p v).errs = s.errs := rfl
@[simp] theorem State.setPart_zeroRows (p : Nat) (v : Partn) : (s.setPart p v).zeroRows = s.zeroRows := rfl
@[simp] theorem State.setPart_elems (p : Nat) (v : Partn) : (s.setPart p v).elems = s.elems := rfl
@[simp] theorem State.setPart_bufs (p : Nat) (v : Partn) : (s.setPart p v).bufs = s.bufs := rfl
@[simp] theorem State.setPart_linkLast (p : Nat) (v : Partn) : (s.setPart p v).linkLast = s.linkLast := rfl
@[simp] theorem State.setPart_banks (p : Nat) (v : Partn) : (s.setPart p v).banks = s.banks := rfl
@[simp] theorem State.setPart_chans (p : Nat) (v : Partn) : (s.setPart p v).chans = s.chans := rfl
@[simp] theorem State.setPart_overflow (p : Nat) (v : Partn) : (s.setPart p v).overflow = s.overflow := rfl
@[simp] theorem State.setPart_accs (p : Nat) (v : Partn) : (s.setPart p v).accs = s.accs := rfl
@[simp] theorem State.setPart_cached (p : Nat) (v : Partn) : (s.setPart p v).cached = s.cached := rfl
@[simp] theorem State.setPart_pointers (p : Nat) (v : Partn) : (s.setPart p v).pointers = s.pointers := rfl
@[simp] theorem State.setPart_misses (p : Nat) (v : Partn) : (s.setPart p v).misses = s.misses := rfl
@[simp] theorem State.setPart_invals (p : Nat) (v : Partn) : (s.setPart p v).invals = s.invals := rfl
@[simp] theorem State.setPart_qccs (p : Nat) (v : Partn) : (s.setPart p v).qccs = s.qccs := rfl
@[simp] theorem State.setPart_press (p : Nat) (v : Partn) : (s.setPart p v).press = s.press := rfl
@[simp] theorem State.setPart_graft (p : Nat) (v : Partn) : (s.setPart p v).graft = s.graft := rfl
@[simp] theorem State.setPart_riddle (p : Nat) (v : Partn) : (s.setPart p v).riddle = s.riddle := rfl
@[simp] theorem State.setPart_pruner (p : Nat) (v : Partn) : (s.setPart p v).pruner = s.pruner := rfl
@[simp] theorem State.setPart_barrow (p : Nat) (v : Partn) : (s.setPart p v).barrow = s.barrow := rfl
@[simp] theorem State.setPart_dies (p : Nat) (v : Partn) : (s.setPart p v).dies = s.dies := rfl
@[simp] theorem State.setPart_msgs (p : Nat) (v : Partn) : (s.setPart p v).msgs = s.msgs := rfl
@[simp] theorem State.setPart_trapOut (p : Nat) (v : Partn) : (s.setPart p v).trapOut = s.trapOut := rfl
@[simp] theorem State.setPart_plateOut (p : Nat) (v : Partn) : (s.setPart p v).plateOut = s.plateOut := rfl
@[simp] theorem State.setPart_marks (p : Nat) (v : Partn) : (s.setPart p v).marks = s.marks := rfl
@[simp] theorem State.setPart_drainNotices (p : Nat) (v : Partn) : (s.setPart p v).drainNotices = s.drainNotices := rfl
@[simp] theorem State.setPart_barrRegs (p : Nat) (v : Partn) : (s.setPart p v).barrRegs = s.barrRegs := rfl
@[simp] theorem State.setPart_barrDone (p : Nat) (v : Partn) : (s.setPart p v).barrDone = s.barrDone := rfl
@[simp] theorem State.setPart_softErrors (p : Nat) (v : Partn) : (s.setPart p v).softErrors = s.softErrors := rfl
@[simp] theorem State.setPart_ctxs (p : Nat) (v : Partn) : (s.setPart p v).ctxs = s.ctxs := rfl
@[simp] theorem State.setPart_images (p : Nat) (v : Partn) : (s.setPart p v).images = s.images := rfl
@[simp] theorem State.setPart_parts (p : Nat) (v : Partn) : (s.setPart p v).parts = tabPut s.parts p v := rfl
@[simp] theorem State.setPart_vfs (p : Nat) (v : Partn) : (s.setPart p v).vfs = s.vfs := rfl
@[simp] theorem State.setPart_lastServed (p : Nat) (v : Partn) : (s.setPart p v).lastServed = s.lastServed := rfl
@[simp] theorem State.setPart_toSpine (p : Nat) (v : Partn) : (s.setPart p v).toSpine = s.toSpine := rfl
@[simp] theorem State.setPart_batches (p : Nat) (v : Partn) : (s.setPart p v).batches = s.batches := rfl
@[simp] theorem State.setPart_responses (p : Nat) (v : Partn) : (s.setPart p v).responses = s.responses := rfl
@[simp] theorem State.setPart_sets (p : Nat) (v : Partn) : (s.setPart p v).sets = s.sets := rfl
@[simp] theorem State.setPart_plates (p : Nat) (v : Partn) : (s.setPart p v).plates = s.plates := rfl
@[simp] theorem State.setPart_dests (p : Nat) (v : Partn) : (s.setPart p v).dests = s.dests := rfl
@[simp] theorem State.setPart_policies (p : Nat) (v : Partn) : (s.setPart p v).policies = s.policies := rfl
@[simp] theorem State.setPart_unions (p : Nat) (v : Partn) : (s.setPart p v).unions = s.unions := rfl
@[simp] theorem State.setPart_sweep (p : Nat) (v : Partn) : (s.setPart p v).sweep = s.sweep := rfl
@[simp] theorem State.setPart_submissions (p : Nat) (v : Partn) : (s.setPart p v).submissions = s.submissions := rfl
@[simp] theorem State.setPart_eventsOut (p : Nat) (v : Partn) : (s.setPart p v).eventsOut = s.eventsOut := rfl
@[simp] theorem State.setPart_pcie (p : Nat) (v : Partn) : (s.setPart p v).pcie = s.pcie := rfl
@[simp] theorem State.setPart_outside (p : Nat) (v : Partn) : (s.setPart p v).outside = s.outside := rfl
@[simp] theorem State.setPart_deliveries (p : Nat) (v : Partn) : (s.setPart p v).deliveries = s.deliveries := rfl
@[simp] theorem State.setPart_accel (p : Nat) (v : Partn) : (s.setPart p v).accel = s.accel := rfl
@[simp] theorem State.setPart_presence (p : Nat) (v : Partn) : (s.setPart p v).presence = s.presence := rfl
@[simp] theorem State.setPart_ports (p : Nat) (v : Partn) : (s.setPart p v).ports = s.ports := rfl
@[simp] theorem State.setPart_linkOut (p : Nat) (v : Partn) : (s.setPart p v).linkOut = s.linkOut := rfl
@[simp] theorem State.setPart_retired (p : Nat) (v : Partn) : (s.setPart p v).retired = s.retired := rfl
@[simp] theorem State.setPart_replaceSeq (p : Nat) (v : Partn) : (s.setPart p v).replaceSeq = s.replaceSeq := rfl
@[simp] theorem State.setPart_replaceBody (p : Nat) (v : Partn) : (s.setPart p v).replaceBody = s.replaceBody := rfl
@[simp] theorem State.setPart_fwver (p : Nat) (v : Partn) : (s.setPart p v).fwver = s.fwver := rfl
@[simp] theorem State.setPart_rollback (p : Nat) (v : Partn) : (s.setPart p v).rollback = s.rollback := rfl
@[simp] theorem State.setPart_firmware (p : Nat) (v : Partn) : (s.setPart p v).firmware = s.firmware := rfl
@[simp] theorem State.setPart_nextFirmware (p : Nat) (v : Partn) : (s.setPart p v).nextFirmware = s.nextFirmware := rfl
@[simp] theorem State.setPart_debugOn (p : Nat) (v : Partn) : (s.setPart p v).debugOn = s.debugOn := rfl
@[simp] theorem State.setPart_debugOut (p : Nat) (v : Partn) : (s.setPart p v).debugOut = s.debugOut := rfl
@[simp] theorem State.setPart_bringUp (p : Nat) (v : Partn) : (s.setPart p v).bringUp = s.bringUp := rfl
@[simp] theorem State.setPart_l1 (p : Nat) (v : Partn) : (s.setPart p v).l1 = s.l1 := rfl
@[simp] theorem State.setPart_pwrlim (p : Nat) (v : Partn) : (s.setPart p v).pwrlim = s.pwrlim := rfl
@[simp] theorem State.setPart_issueRate (p : Nat) (v : Partn) : (s.setPart p v).issueRate = s.issueRate := rfl
@[simp] theorem State.setPart_power (p : Nat) (v : Partn) : (s.setPart p v).power = s.power := rfl
@[simp] theorem State.setPart_status (p : Nat) (v : Partn) : (s.setPart p v).status = s.status := rfl
@[simp] theorem State.setPart_pmtol (p : Nat) (v : Partn) : (s.setPart p v).pmtol = s.pmtol := rfl
@[simp] theorem State.setPart_hostReqs (p : Nat) (v : Partn) : (s.setPart p v).hostReqs = s.hostReqs := rfl
@[simp] theorem State.setPart_linkErrs (p : Nat) (v : Partn) : (s.setPart p v).linkErrs = s.linkErrs := rfl
@[simp] theorem State.setPart_flr (p : Nat) (v : Partn) : (s.setPart p v).flr = s.flr := rfl
@[simp] theorem State.setPart_saves (p : Nat) (v : Partn) : (s.setPart p v).saves = s.saves := rfl

/-! ### `State.setVf` -/

@[simp] theorem State.setVf_agenda (n : Nat) (v : Vf) : (s.setVf n v).agenda = s.agenda := rfl
@[simp] theorem State.setVf_tick (n : Nat) (v : Vf) : (s.setVf n v).tick = s.tick := rfl
@[simp] theorem State.setVf_firing (n : Nat) (v : Vf) : (s.setVf n v).firing = s.firing := rfl
@[simp] theorem State.setVf_cur (n : Nat) (v : Vf) : (s.setVf n v).cur = s.cur := rfl
@[simp] theorem State.setVf_nextId (n : Nat) (v : Vf) : (s.setVf n v).nextId = s.nextId := rfl
@[simp] theorem State.setVf_sram (n : Nat) (v : Vf) : (s.setVf n v).sram = s.sram := rfl
@[simp] theorem State.setVf_hbm (n : Nat) (v : Vf) : (s.setVf n v).hbm = s.hbm := rfl
@[simp] theorem State.setVf_ctl (n : Nat) (v : Vf) : (s.setVf n v).ctl = s.ctl := rfl
@[simp] theorem State.setVf_plots (n : Nat) (v : Vf) : (s.setVf n v).plots = s.plots := rfl
@[simp] theorem State.setVf_pageMap (n : Nat) (v : Vf) : (s.setVf n v).pageMap = s.pageMap := rfl
@[simp] theorem State.setVf_ctlRegion (n : Nat) (v : Vf) : (s.setVf n v).ctlRegion = s.ctlRegion := rfl
@[simp] theorem State.setVf_errs (n : Nat) (v : Vf) : (s.setVf n v).errs = s.errs := rfl
@[simp] theorem State.setVf_zeroRows (n : Nat) (v : Vf) : (s.setVf n v).zeroRows = s.zeroRows := rfl
@[simp] theorem State.setVf_elems (n : Nat) (v : Vf) : (s.setVf n v).elems = s.elems := rfl
@[simp] theorem State.setVf_bufs (n : Nat) (v : Vf) : (s.setVf n v).bufs = s.bufs := rfl
@[simp] theorem State.setVf_linkLast (n : Nat) (v : Vf) : (s.setVf n v).linkLast = s.linkLast := rfl
@[simp] theorem State.setVf_banks (n : Nat) (v : Vf) : (s.setVf n v).banks = s.banks := rfl
@[simp] theorem State.setVf_chans (n : Nat) (v : Vf) : (s.setVf n v).chans = s.chans := rfl
@[simp] theorem State.setVf_overflow (n : Nat) (v : Vf) : (s.setVf n v).overflow = s.overflow := rfl
@[simp] theorem State.setVf_accs (n : Nat) (v : Vf) : (s.setVf n v).accs = s.accs := rfl
@[simp] theorem State.setVf_cached (n : Nat) (v : Vf) : (s.setVf n v).cached = s.cached := rfl
@[simp] theorem State.setVf_pointers (n : Nat) (v : Vf) : (s.setVf n v).pointers = s.pointers := rfl
@[simp] theorem State.setVf_misses (n : Nat) (v : Vf) : (s.setVf n v).misses = s.misses := rfl
@[simp] theorem State.setVf_invals (n : Nat) (v : Vf) : (s.setVf n v).invals = s.invals := rfl
@[simp] theorem State.setVf_qccs (n : Nat) (v : Vf) : (s.setVf n v).qccs = s.qccs := rfl
@[simp] theorem State.setVf_press (n : Nat) (v : Vf) : (s.setVf n v).press = s.press := rfl
@[simp] theorem State.setVf_graft (n : Nat) (v : Vf) : (s.setVf n v).graft = s.graft := rfl
@[simp] theorem State.setVf_riddle (n : Nat) (v : Vf) : (s.setVf n v).riddle = s.riddle := rfl
@[simp] theorem State.setVf_pruner (n : Nat) (v : Vf) : (s.setVf n v).pruner = s.pruner := rfl
@[simp] theorem State.setVf_barrow (n : Nat) (v : Vf) : (s.setVf n v).barrow = s.barrow := rfl
@[simp] theorem State.setVf_dies (n : Nat) (v : Vf) : (s.setVf n v).dies = s.dies := rfl
@[simp] theorem State.setVf_msgs (n : Nat) (v : Vf) : (s.setVf n v).msgs = s.msgs := rfl
@[simp] theorem State.setVf_trapOut (n : Nat) (v : Vf) : (s.setVf n v).trapOut = s.trapOut := rfl
@[simp] theorem State.setVf_plateOut (n : Nat) (v : Vf) : (s.setVf n v).plateOut = s.plateOut := rfl
@[simp] theorem State.setVf_marks (n : Nat) (v : Vf) : (s.setVf n v).marks = s.marks := rfl
@[simp] theorem State.setVf_drainNotices (n : Nat) (v : Vf) : (s.setVf n v).drainNotices = s.drainNotices := rfl
@[simp] theorem State.setVf_barrRegs (n : Nat) (v : Vf) : (s.setVf n v).barrRegs = s.barrRegs := rfl
@[simp] theorem State.setVf_barrDone (n : Nat) (v : Vf) : (s.setVf n v).barrDone = s.barrDone := rfl
@[simp] theorem State.setVf_softErrors (n : Nat) (v : Vf) : (s.setVf n v).softErrors = s.softErrors := rfl
@[simp] theorem State.setVf_ctxs (n : Nat) (v : Vf) : (s.setVf n v).ctxs = s.ctxs := rfl
@[simp] theorem State.setVf_images (n : Nat) (v : Vf) : (s.setVf n v).images = s.images := rfl
@[simp] theorem State.setVf_parts (n : Nat) (v : Vf) : (s.setVf n v).parts = s.parts := rfl
@[simp] theorem State.setVf_vfs (n : Nat) (v : Vf) : (s.setVf n v).vfs = tabPut s.vfs n v := rfl
@[simp] theorem State.setVf_lastServed (n : Nat) (v : Vf) : (s.setVf n v).lastServed = s.lastServed := rfl
@[simp] theorem State.setVf_toSpine (n : Nat) (v : Vf) : (s.setVf n v).toSpine = s.toSpine := rfl
@[simp] theorem State.setVf_batches (n : Nat) (v : Vf) : (s.setVf n v).batches = s.batches := rfl
@[simp] theorem State.setVf_responses (n : Nat) (v : Vf) : (s.setVf n v).responses = s.responses := rfl
@[simp] theorem State.setVf_sets (n : Nat) (v : Vf) : (s.setVf n v).sets = s.sets := rfl
@[simp] theorem State.setVf_plates (n : Nat) (v : Vf) : (s.setVf n v).plates = s.plates := rfl
@[simp] theorem State.setVf_dests (n : Nat) (v : Vf) : (s.setVf n v).dests = s.dests := rfl
@[simp] theorem State.setVf_policies (n : Nat) (v : Vf) : (s.setVf n v).policies = s.policies := rfl
@[simp] theorem State.setVf_unions (n : Nat) (v : Vf) : (s.setVf n v).unions = s.unions := rfl
@[simp] theorem State.setVf_sweep (n : Nat) (v : Vf) : (s.setVf n v).sweep = s.sweep := rfl
@[simp] theorem State.setVf_submissions (n : Nat) (v : Vf) : (s.setVf n v).submissions = s.submissions := rfl
@[simp] theorem State.setVf_eventsOut (n : Nat) (v : Vf) : (s.setVf n v).eventsOut = s.eventsOut := rfl
@[simp] theorem State.setVf_pcie (n : Nat) (v : Vf) : (s.setVf n v).pcie = s.pcie := rfl
@[simp] theorem State.setVf_outside (n : Nat) (v : Vf) : (s.setVf n v).outside = s.outside := rfl
@[simp] theorem State.setVf_deliveries (n : Nat) (v : Vf) : (s.setVf n v).deliveries = s.deliveries := rfl
@[simp] theorem State.setVf_accel (n : Nat) (v : Vf) : (s.setVf n v).accel = s.accel := rfl
@[simp] theorem State.setVf_presence (n : Nat) (v : Vf) : (s.setVf n v).presence = s.presence := rfl
@[simp] theorem State.setVf_ports (n : Nat) (v : Vf) : (s.setVf n v).ports = s.ports := rfl
@[simp] theorem State.setVf_linkOut (n : Nat) (v : Vf) : (s.setVf n v).linkOut = s.linkOut := rfl
@[simp] theorem State.setVf_retired (n : Nat) (v : Vf) : (s.setVf n v).retired = s.retired := rfl
@[simp] theorem State.setVf_replaceSeq (n : Nat) (v : Vf) : (s.setVf n v).replaceSeq = s.replaceSeq := rfl
@[simp] theorem State.setVf_replaceBody (n : Nat) (v : Vf) : (s.setVf n v).replaceBody = s.replaceBody := rfl
@[simp] theorem State.setVf_fwver (n : Nat) (v : Vf) : (s.setVf n v).fwver = s.fwver := rfl
@[simp] theorem State.setVf_rollback (n : Nat) (v : Vf) : (s.setVf n v).rollback = s.rollback := rfl
@[simp] theorem State.setVf_firmware (n : Nat) (v : Vf) : (s.setVf n v).firmware = s.firmware := rfl
@[simp] theorem State.setVf_nextFirmware (n : Nat) (v : Vf) : (s.setVf n v).nextFirmware = s.nextFirmware := rfl
@[simp] theorem State.setVf_debugOn (n : Nat) (v : Vf) : (s.setVf n v).debugOn = s.debugOn := rfl
@[simp] theorem State.setVf_debugOut (n : Nat) (v : Vf) : (s.setVf n v).debugOut = s.debugOut := rfl
@[simp] theorem State.setVf_bringUp (n : Nat) (v : Vf) : (s.setVf n v).bringUp = s.bringUp := rfl
@[simp] theorem State.setVf_l1 (n : Nat) (v : Vf) : (s.setVf n v).l1 = s.l1 := rfl
@[simp] theorem State.setVf_pwrlim (n : Nat) (v : Vf) : (s.setVf n v).pwrlim = s.pwrlim := rfl
@[simp] theorem State.setVf_issueRate (n : Nat) (v : Vf) : (s.setVf n v).issueRate = s.issueRate := rfl
@[simp] theorem State.setVf_power (n : Nat) (v : Vf) : (s.setVf n v).power = s.power := rfl
@[simp] theorem State.setVf_status (n : Nat) (v : Vf) : (s.setVf n v).status = s.status := rfl
@[simp] theorem State.setVf_pmtol (n : Nat) (v : Vf) : (s.setVf n v).pmtol = s.pmtol := rfl
@[simp] theorem State.setVf_hostReqs (n : Nat) (v : Vf) : (s.setVf n v).hostReqs = s.hostReqs := rfl
@[simp] theorem State.setVf_linkErrs (n : Nat) (v : Vf) : (s.setVf n v).linkErrs = s.linkErrs := rfl
@[simp] theorem State.setVf_flr (n : Nat) (v : Vf) : (s.setVf n v).flr = s.flr := rfl
@[simp] theorem State.setVf_saves (n : Nat) (v : Vf) : (s.setVf n v).saves = s.saves := rfl

end Sys2Proof.Machine
end

