-- ==== Sys2Proof/Laws/Emit.lean ====
section
/-! SUPPORT. What the shared course of an element firing can do: what it leaves alone, and what it answers when nothing stands
in its way. -/

namespace Sys2Proof.Machine

/-- The state differs only in one element, in the die's counts, the current firing, the pending unions and the plate messages. -/
def ElemFrame (pos : Nat) (s t : State) : Prop :=
  t = { s with elems := t.elems, dies := t.dies, firing := t.firing, unions := t.unions, plateOut := t.plateOut } ∧
    ∀ p, p ≠ pos → tabGet t.elems p = tabGet s.elems p

theorem ElemFrame.refl (pos : Nat) (s : State) : ElemFrame pos s s := ⟨rfl, fun _ _ => rfl⟩

theorem ElemFrame.trans {pos : Nat} {s t u : State} (h : ElemFrame pos s t) (h' : ElemFrame pos t u) : ElemFrame pos s u := by
  refine ⟨?_, fun p hp => (h'.2 p hp).trans (h.2 p hp)⟩
  obtain ⟨h, -⟩ := h
  obtain ⟨h', -⟩ := h'
  rw [h']
  conv => lhs; rw [h]

theorem ElemFrame.setElem (pos : Nat) (s : State) (e : Elem) : ElemFrame pos s (s.setElem pos e) :=
  ⟨rfl, fun _ hp => tabGet_tabPut_other _ _ hp⟩

theorem ElemFrame.modElem (pos : Nat) (s : State) (g : Elem → Elem) : ElemFrame pos s (s.modElem pos g) :=
  ElemFrame.setElem pos s _

theorem ElemFrame.emit1 (s : State) (f : Fire) (d : Nat) (t : Token) : ElemFrame f.pos s (s.emit1 f d t) := by
  unfold State.emit1
  split
  · exact .refl _ _
  · dsimp only
    split <;> exact .modElem _ _ _

theorem ElemFrame.emitAll (f : Fire) (l : List (Nat × Token)) (s : State) : ElemFrame f.pos s (s.emitAll f l) := by
  induction l generalizing s with
  | nil => exact .refl _ _
  | cons p r ih => exact (ElemFrame.emit1 s f p.1 p.2).trans (ih _)

theorem ElemFrame.issued (s : State) (f : Fire) : ElemFrame f.pos s (s.issued f) := by
  refine ⟨rfl, fun p hp => ?_⟩
  simp only [State.issued, State.charge, State.setDie_elems, State.modElem, State.setElem_elems]
  exact tabGet_tabPut_other _ _ hp

theorem ElemFrame.yieldTurn (pos : Nat) (s : State) : ElemFrame pos s s.yieldTurn := ⟨rfl, fun _ _ => rfl⟩

theorem ElemFrame.askUnion (pos : Nat) (s : State) (ha hb : Handle) (c p : Nat) : ElemFrame pos s (s.askUnion ha hb c p) := by
  unfold State.askUnion
  dsimp only
  split
  · exact .refl _ _
  · exact ⟨rfl, fun _ _ => rfl⟩

theorem ElemFrame.plateOvf (pos : Nat) (s : State) (ha hb : Handle) (c p : Nat) : ElemFrame pos s (s.plateOvf ha hb c p) := by
  unfold State.plateOvf
  split <;> exact ⟨rfl, fun _ _ => rfl⟩

/-- Whatever a firing comes to, it changes its own element, the counts of its die, and at most the pending unions and plate
messages. -/
theorem ElemFrame.runFire (s : State) (f : Fire) (o : ElemOps) (ops : List Opnd) (hr : HandleRule) (sh shY : Shape)
    (a0 bn : Nat) (chk : Option Nat) (eff : Effect) :
    ElemFrame f.pos s (s.runFire f o ops hr sh shY a0 bn chk eff) := by
  have go (s : State) (l) : ElemFrame f.pos s ((s.issued f).emitAll f l) := (ElemFrame.issued s f).trans (.emitAll f l _)
  unfold State.runFire
  dsimp only
  split
  · split
    · exact go _ _
    · exact go _ _
    · exact (ElemFrame.askUnion _ _ _ _ _ _).trans (.yieldTurn _ _)
  · split
    · exact (ElemFrame.askUnion _ _ _ _ _ _).trans (.yieldTurn _ _)
    · split
      · exact go _ _
      · exact (ElemFrame.plateOvf _ _ _ _ _ _).trans (go _ _)
    · split
      · exact go _ _
      · split
        · exact go _ _
        · split <;> exact go _ _

/-- The firing goes through: nothing that it consumes is poison, and its results have a handle. -/
theorem State.runFire_ok {s : State} {f : Fire} {o : ElemOps} {ops : List Opnd} {hr : HandleRule} {sh shY : Shape}
    {a0 bn : Nat} {h : Handle} {nest : BitVec 48} (l : List (Nat × Shape × BitVec 1024))
    (hp : (f.consumed ops).find? (·.poison) = none) (hh : s.resultHandle f ops hr = .ok h)
    (hn : tagAction f o.ta.toNat a0 bn = some nest) :
    s.runFire f o ops hr sh shY a0 bn none (.toks l)
      = (s.issued f).emitAll f (l.map fun t => (t.1, resultToken f.ctx nest t.2.1 h t.2.2)) := by
  unfold State.runFire
  simp only [hp, hh, hn]

/-- Poison in, poison out: the first poison operand's record leaves by both destinations with the union of all handles (R225,
R375). -/
theorem State.runFire_poison {s : State} {f : Fire} {o : ElemOps} {ops : List Opnd} {hr : HandleRule} {sh shY : Shape}
    {a0 bn : Nat} {chk : Option Nat} {eff : Effect} {h : Handle} {p : Opnd}
    (hp : (f.consumed ops).find? (·.poison) = some p)
    (hh : s.unionAll 0 ((f.consumed ops).map (·.plate)) = .ok h) :
    s.runFire f o ops hr sh shY a0 bn chk eff
      = (s.issued f).emitAll f
          [(o.dx.toNat, poisonToken f.ctx ((tagAction f o.ta.toNat 0 bn).getD f.nest) sh h p.record),
           (o.dy.toNat, poisonToken f.ctx ((tagAction f o.ta.toNat 0 bn).getD f.nest) shY h p.record)] := by
  unfold State.runFire
  simp only [hp, hh, List.map]

end Sys2Proof.Machine
end

