-- ==== Sys2Proof/Laws/Lanes.lean ====
section
/-! SUPPORT. Payloads by lane (R147), and the colour of a firing (R224). -/

namespace Sys2Proof.Machine

/-- Lane `i` of packed lanes. -/
theorem packNat_lane (w : Nat) (l : List Nat) (i : Nat) :
    packNat w l / 2 ^ (w * i) % 2 ^ w = (l[i]?).getD 0 % 2 ^ w := by
  induction l generalizing i with
  | nil => simp [packNat]
  | cons x r ih =>
    have hw : 0 < 2 ^ w := Nat.two_pow_pos w
    cases i with
    | zero => simp [packNat, Nat.add_mul_mod_self_left]
    | succ i =>
      have h : packNat w (x :: r) / 2 ^ w = packNat w r := by
        rw [packNat, Nat.add_mul_div_left _ _ hw, Nat.div_eq_of_lt (Nat.mod_lt _ hw), Nat.zero_add]
      rw [Nat.mul_succ, Nat.add_comm, Nat.pow_add, ← Nat.div_div_eq_div_mul, h, ih]
      simp

theorem mod_div_mod_pow (n a b c : Nat) (h : a + b ≤ c) : n % 2 ^ c / 2 ^ a % 2 ^ b = n / 2 ^ a % 2 ^ b := by
  apply Nat.eq_of_testBit_eq
  intro i
  simp only [Nat.testBit_mod_two_pow, Nat.testBit_div_two_pow]
  by_cases hi : i < b
  · have : i + a < c := by omega
    simp [hi, this]
  · simp [hi]

/-- Lane `i` of a payload of packed lanes, as long as it fits into the payload. -/
theorem laneAt_packLanes {w i : Nat} (l : List Nat) (h : w * (i + 1) ≤ 1024) :
    laneAt w (packLanes w l) i = (l[i]?).getD 0 % 2 ^ w := by
  have e : w * i + w ≤ 1024 := by rw [Nat.mul_succ] at h; exact h
  rw [laneAt, packLanes, BitVec.toNat_ofNat, mod_div_mod_pow _ _ _ _ e, packNat_lane]

theorem laneAt_lt (w : Nat) (p : BitVec 1024) (i : Nat) : laneAt w p i < 2 ^ w :=
  Nat.mod_lt _ (Nat.two_pow_pos w)

theorem fmtWidth_le (f : Fmt) : fmtWidth f ≤ 32 := by cases f <;> decide

theorem fmtWidth_pos (f : Fmt) : 0 < fmtWidth f := by cases f <;> decide

theorem Opnd.lane_lt (o : Opnd) (i : Nat) : o.lane i < 2 ^ fmtWidth o.fmt := by
  unfold Opnd.lane
  split
  · exact Nat.two_pow_pos _
  · exact laneAt_lt _ _ _

/-- The lane count of an operand is at most 32. -/
def Opnd.narrow (o : Opnd) : Prop := ∀ n, o.lanes = some n → n ≤ 32

theorem Opnd.ofToken_narrow (src : OpSrc) (t : Token) : (Opnd.ofToken src t).narrow := by
  intro n h
  simp only [Opnd.ofToken, Token.colour, Option.some.injEq] at h
  have := t.wid.isLt
  omega

theorem Opnd.const_narrow (src : OpSrc) (f : Fmt) (v : Nat) : (Opnd.const src f v).narrow := by
  intro n h
  simp [Opnd.const] at h

/-- Every operand that a firing reads has at most 32 lanes. -/
theorem Fire.read_narrow (f : Fire) (src : OpSrc) (lx : Nat) (want : Fmt) : (f.read src lx want).narrow := by
  cases src with
  | slotL =>
    dsimp only [Fire.read]
    split
    · exact Opnd.ofToken_narrow _ _
    · exact Opnd.const_narrow _ _ _
  | slotR =>
    dsimp only [Fire.read]
    split
    · exact Opnd.ofToken_narrow _ _
    · exact Opnd.const_narrow _ _ _
  | lit => exact Opnd.const_narrow _ _ _
  | tagField => exact Opnd.const_narrow _ _ _
  | keep n =>
    dsimp only [Fire.read, Opnd.ofKeep]
    split
    · intro m h
      simp only [Option.some.injEq] at h
      have := (f.slot.keep n).wid.isLt
      omega
    · exact Opnd.const_narrow _ _ _
  | none => exact Opnd.const_narrow _ _ _

/-- A firing has at most 32 lanes (R147, R224). -/
theorem colourOf_le (l : List Opnd) (h : ∀ o ∈ l, o.narrow) : colourOf l ≤ 32 := by
  induction l with
  | nil => decide
  | cons o r ih =>
    simp only [colourOf]
    split
    · cases hl : o.lanes with
      | none => decide
      | some n => exact h o (by simp) n hl
    · exact ih fun x hx => h x (by simp [hx])

end Sys2Proof.Machine
end

