-- ==== Sys2Proof/Laws/Lanewise.lean ====
section
/-! SUPPORT. What a lane-wise firing answers when nothing stands in its way (R223, R224). -/

namespace Sys2Proof.Machine

/-- Operands that come from no keep register are not consumed as one. -/
theorem Fire.consumed_append (f : Fire) (l : List Opnd) (c : Opnd) (h : ∀ n, c.src ≠ .keep n) :
    f.consumed (l ++ [c]) = f.consumed l := by
  have k (n : Nat) : (l ++ [c]).find? (fun o => o.src == .keep n) = l.find? fun o => o.src == .keep n := by
    rw [List.find?_append]
    cases l.find? (fun o => o.src == .keep n) <;> simp [h n]
  simp only [Fire.consumed, k]

theorem State.Fires.find {s : State} {f : Fire} {ops : List Opnd} {h : Handle} (hf : s.Fires f ops h) :
    (f.consumed ops).find? (·.poison) = none := by
  rw [List.find?_eq_none]
  intro x hx
  simp [hf.2.1 x hx]

/-- The results of a firing that goes through. -/
theorem State.runFire_results {s : State} {f : Fire} {o : ElemOps} {ops : List Opnd} {sh shY : Shape} {a0 bn : Nat}
    {h : Handle} {nest : BitVec 48} (l : List (Nat × Shape × BitVec 1024)) (hf : s.Fires f ops h)
    (hn : tagAction f o.ta.toNat a0 bn = some nest) :
    s.runFire f o ops .all sh shY a0 bn none (.toks l) = s.results f nest h l :=
  State.runFire_ok l (State.Fires.find hf) hf.2.2 hn

/-- A lane-wise instruction that goes through sends one token by DX and DY. -/
theorem State.lanewise_next {s : State} {o : ElemOps} {fs : List Fmt} {useB cw useC : Bool} {rfmt : Opnd → Fmt}
    {chk : Opnd → Opnd → Option Nat} {res : Fire → Opnd → List Nat → List Nat → List Nat → List Nat} {f : Fire}
    {h : Handle} {nest : BitVec 48} {a b c : Opnd} {sb sc : OpSrc}
    (hb : sb = if useB then srcOf o.sb else .none)
    (hc : sc = if useC then csrcOf (bitF (f.cw o) 31 29) else .none)
    (ea : a = f.read (srcOf o.sa) (dataLit o cw) (f.want fs [srcOf o.sa, sb, sc]))
    (eb : b = f.read sb (dataLit o cw) (f.want fs [srcOf o.sa, sb, sc]))
    (ec : c = f.read sc (dataLit o cw) (f.want fs [srcOf o.sa, sb, sc]))
    (hf : s.Fires f [a, b, c] h) (hs : stdCheck (colourOf [a, b, c]) [(a, fs), (b, fs), (c, fs)] = none)
    (hk : chk a c = none) (hn : tagAction f o.ta.toNat (a.lane 0) 0 = some nest) :
    s.lanewise o fs useB cw useC rfmt chk res =
      .next (s.results f nest h (bothOut o (Shape.data (rfmt a) (colourOf [a, b, c]))
        (packLanes (fmtWidth (rfmt a)) (res f a ((List.range (colourOf [a, b, c])).map a.lane)
          ((List.range (colourOf [a, b, c])).map b.lane) ((List.range (colourOf [a, b, c])).map c.lane))))) := by
  subst ea eb ec hb hc
  unfold State.lanewise
  simp only [hf.1]
  simp only [hs, hk]
  rw [State.runFire_results _ hf hn]
  rfl

theorem Fire.read_none (f : Fire) (lx : Nat) (want : Fmt) : f.read .none lx want = Opnd.const .none want 0 := rfl

theorem Opnd.const_none_src (want : Fmt) (v n : Nat) : (Opnd.const .none want v).src ≠ .keep n := by
  simp [Opnd.const]

theorem colourOf_append_none (l : List Opnd) (want : Fmt) (v : Nat) :
    colourOf (l ++ [Opnd.const .none want v]) = colourOf l := by
  induction l with
  | nil => simp [colourOf, Opnd.isTok, Opnd.const]
  | cons o r ih => simp only [List.cons_append, colourOf, ih]

theorem stdCheck_append_none (n : Nat) (l : List (Opnd × List Fmt)) (want : Fmt) (v : Nat) (fs : List Fmt) :
    stdCheck n (l ++ [(Opnd.const .none want v, fs)]) = stdCheck n l := by
  have h1 : (!(Opnd.const .none want v).fits n) = false := by simp [Opnd.fits, Opnd.const]
  have h2 : (!(Opnd.const .none want v).accepts fs) = false := by simp [Opnd.accepts, Opnd.const]
  simp only [stdCheck, List.any_append, List.any_cons, List.any_nil, h1, h2, Bool.or_false]

theorem Fire.want_append_none (f : Fire) (fs : List Fmt) (l : List OpSrc) :
    f.want fs (l ++ [.none]) = f.want fs l := by
  unfold Fire.want
  split <;> simp

theorem Fires.append_none {s : State} {f : Fire} {l : List Opnd} {h : Handle} (want : Fmt) (v : Nat) (hf : s.Fires f l h) :
    s.Fires f (l ++ [Opnd.const .none want v]) h := by
  unfold State.Fires
  rw [Fire.consumed_append f l _ (Opnd.const_none_src want v)]
  exact hf

/-- A lane-wise instruction of two operands that goes through (R223, R224). -/
theorem State.lanewise2_next {s : State} {o : ElemOps} {fs : List Fmt} {rfmt : Opnd → Fmt}
    {res : Fire → Opnd → List Nat → List Nat → List Nat} {f : Fire} {h : Handle} {nest : BitVec 48} {a b : Opnd}
    (ea : a = f.read (srcOf o.sa) o.lx.toNat (f.want fs [srcOf o.sa, srcOf o.sb]))
    (eb : b = f.read (srcOf o.sb) o.lx.toNat (f.want fs [srcOf o.sa, srcOf o.sb]))
    (hf : s.Fires f [a, b] h) (hs : stdCheck (colourOf [a, b]) [(a, fs), (b, fs)] = none)
    (hn : tagAction f o.ta.toNat (a.lane 0) 0 = some nest) :
    s.lanewise o fs true false false rfmt (fun _ _ => none) (fun f x a b _ => res f x a b) =
      .next (s.results f nest h (bothOut o (Shape.data (rfmt a) (colourOf [a, b]))
        (packLanes (fmtWidth (rfmt a)) (res f a ((List.range (colourOf [a, b])).map a.lane)
          ((List.range (colourOf [a, b])).map b.lane))))) := by
  have hw : f.want fs [srcOf o.sa, srcOf o.sb, .none] = f.want fs [srcOf o.sa, srcOf o.sb] :=
    f.want_append_none fs [srcOf o.sa, srcOf o.sb]
  have h3 := Fires.append_none (f.want fs [srcOf o.sa, srcOf o.sb]) 0 hf
  have hcol : colourOf [a, b, Opnd.const .none (f.want fs [srcOf o.sa, srcOf o.sb]) 0] = colourOf [a, b] :=
    colourOf_append_none [a, b] _ _
  rw [State.lanewise_next (f := f) (a := a) (b := b) (c := Opnd.const .none (f.want fs [srcOf o.sa, srcOf o.sb]) 0)
    (sb := srcOf o.sb) (sc := .none) (nest := nest) (h := h) rfl rfl (by rw [hw]; exact ea) (by rw [hw]; exact eb)
    (by rw [hw]; rfl) h3 (by rw [hcol]; exact (stdCheck_append_none _ [(a, fs), (b, fs)] _ _ fs).trans hs) rfl hn, hcol]

/-- A lane-wise instruction of one operand that goes through (R223, R224). -/
theorem State.lanewise1_next {s : State} {o : ElemOps} {fs : List Fmt} {rfmt : Opnd → Fmt}
    {res : Fire → Opnd → List Nat → List Nat} {f : Fire} {h : Handle} {nest : BitVec 48} {a : Opnd}
    (ea : a = f.read (srcOf o.sa) o.lx.toNat (f.want fs [srcOf o.sa]))
    (hf : s.Fires f [a] h) (hs : stdCheck (colourOf [a]) [(a, fs)] = none)
    (hn : tagAction f o.ta.toNat (a.lane 0) 0 = some nest) :
    s.lanewise o fs false false false rfmt (fun _ _ => none) (fun f x a _ _ => res f x a) =
      .next (s.results f nest h (bothOut o (Shape.data (rfmt a) (colourOf [a]))
        (packLanes (fmtWidth (rfmt a)) (res f a ((List.range (colourOf [a])).map a.lane))))) := by
  let w := f.want fs [srcOf o.sa]
  have hw : f.want fs [srcOf o.sa, .none, .none] = w :=
    (f.want_append_none fs [srcOf o.sa, .none]).trans (f.want_append_none fs [srcOf o.sa])
  have h3 := Fires.append_none w 0 (Fires.append_none w 0 hf)
  have hcol : colourOf [a, Opnd.const .none w 0, Opnd.const .none w 0] = colourOf [a] :=
    (colourOf_append_none [a, Opnd.const .none w 0] _ _).trans (colourOf_append_none [a] _ _)
  rw [State.lanewise_next (f := f) (a := a) (b := Opnd.const .none w 0) (c := Opnd.const .none w 0)
    (sb := .none) (sc := .none) (nest := nest) (h := h) rfl rfl (by rw [hw]; exact ea) (by rw [hw]; rfl)
    (by rw [hw]; rfl) h3
    (by rw [hcol]
        exact ((stdCheck_append_none _ [(a, fs), (Opnd.const .none w 0, fs)] _ _ fs).trans
          (stdCheck_append_none _ [(a, fs)] _ _ fs)).trans hs) rfl hn, hcol]

/-- A comparison that goes through sends one predicate (R239). -/
theorem State.compare_next {s : State} {o : ElemOps} {fs : List Fmt} {g : Bool → Nat → Nat → Bool} {f : Fire} {h : Handle}
    {nest : BitVec 48} {a b : Opnd} (ea : a = f.read (srcOf o.sa) o.lx.toNat (f.want fs [srcOf o.sa, srcOf o.sb]))
    (eb : b = f.read (srcOf o.sb) o.lx.toNat (f.want fs [srcOf o.sa, srcOf o.sb]))
    (hf : s.Fires f [a, b] h) (hs : stdCheck (colourOf [a, b]) [(a, fs), (b, fs)] = none)
    (hn : tagAction f o.ta.toNat (a.lane 0) 0 = some nest) :
    s.compare o fs g = .next (s.results f nest h (bothOut o (Shape.pred (colourOf [a, b]))
      (packLanes 1 ((List.range (colourOf [a, b])).map fun i => if g f.slot.ftz (a.lane i) (b.lane i) then 1 else 0)))) := by
  subst ea eb
  unfold State.compare
  simp only [hf.1, dataLit, Bool.false_eq_true, if_false]
  rw [hs, State.runFire_results _ hf hn]
  rfl

end Sys2Proof.Machine
end

