-- ==== Sys2Proof/Laws/PerInstr.lean ====
section
/-! SUPPORT. Statements made per instruction: one family, one lemma per constructor. -/

namespace Sys2Proof.Laws.WordFits

/-- The word of an instruction fits its unit's word: 32 bits for an element or a control core, 64 for a Press (R195, R205,
R209). -/
def Statement (i : Instr) : Prop :=
  ∀ k n, encode i = some (k, n) → n < 2 ^ (match k with | .elem => 32 | .qcc => 32 | .press => 64)

theorem of_any (i : Instr) : Statement i := by
  intro k n h
  unfold encode at h
  split at h
  · next w _ => cases h; exact w.isLt
  · split at h
    · next w _ => cases h; exact w.isLt
    · cases hp : encodePress i with
      | none => simp [hp] at h
      | some w =>
        rw [hp] at h
        cases h
        exact w.isLt

theorem steer (ops : ElemOps) : Statement (Instr.steer ops) := of_any _
theorem merge (ops : ElemOps) : Statement (Instr.merge ops) := of_any _
theorem cmerge (ops : ElemOps) : Statement (Instr.cmerge ops) := of_any _
theorem copy (ops : ElemOps) : Statement (Instr.copy ops) := of_any _
theorem sink (ops : ElemOps) : Statement (Instr.sink ops) := of_any _
theorem gate (ops : ElemOps) : Statement (Instr.gate ops) := of_any _
theorem pass (ops : ElemOps) : Statement (Instr.pass ops) := of_any _
theorem reorder (ops : ElemOps) : Statement (Instr.reorder ops) := of_any _
theorem alloc (ops : ElemOps) : Statement (Instr.alloc ops) := of_any _
theorem free (ops : ElemOps) : Statement (Instr.free ops) := of_any _
theorem pack (ops : ElemOps) : Statement (Instr.pack ops) := of_any _
theorem unpack (ops : ElemOps) : Statement (Instr.unpack ops) := of_any _
theorem tagidx (ops : ElemOps) : Statement (Instr.tagidx ops) := of_any _
theorem chktag (ops : ElemOps) : Statement (Instr.chktag ops) := of_any _
theorem const (ops : ElemOps) : Statement (Instr.const ops) := of_any _
theorem join (ops : ElemOps) : Statement (Instr.join ops) := of_any _
theorem cfgsw (ops : ElemOps) : Statement (Instr.cfgsw ops) := of_any _
theorem pand (ops : ElemOps) : Statement (Instr.pand ops) := of_any _
theorem por (ops : ElemOps) : Statement (Instr.por ops) := of_any _
theorem pnot (ops : ElemOps) : Statement (Instr.pnot ops) := of_any _
theorem pxor (ops : ElemOps) : Statement (Instr.pxor ops) := of_any _
theorem mulhZ (ops : ElemOps) : Statement (Instr.mulhZ ops) := of_any _
theorem divZ (ops : ElemOps) : Statement (Instr.divZ ops) := of_any _
theorem remZ (ops : ElemOps) : Statement (Instr.remZ ops) := of_any _
theorem minZ (ops : ElemOps) : Statement (Instr.minZ ops) := of_any _
theorem maxZ (ops : ElemOps) : Statement (Instr.maxZ ops) := of_any _
theorem add (ops : ElemOps) : Statement (Instr.add ops) := of_any _
theorem sub (ops : ElemOps) : Statement (Instr.sub ops) := of_any _
theorem mul (ops : ElemOps) : Statement (Instr.mul ops) := of_any _
theorem mulh (ops : ElemOps) : Statement (Instr.mulh ops) := of_any _
theorem mad (ops : ElemOps) : Statement (Instr.mad ops) := of_any _
theorem div (ops : ElemOps) : Statement (Instr.div ops) := of_any _
theorem rem (ops : ElemOps) : Statement (Instr.rem ops) := of_any _
theorem min (ops : ElemOps) : Statement (Instr.min ops) := of_any _
theorem max (ops : ElemOps) : Statement (Instr.max ops) := of_any _
theorem abs (ops : ElemOps) : Statement (Instr.abs ops) := of_any _
theorem neg (ops : ElemOps) : Statement (Instr.neg ops) := of_any _
theorem and (ops : ElemOps) : Statement (Instr.and ops) := of_any _
theorem or (ops : ElemOps) : Statement (Instr.or ops) := of_any _
theorem xor (ops : ElemOps) : Statement (Instr.xor ops) := of_any _
theorem not (ops : ElemOps) : Statement (Instr.not ops) := of_any _
theorem andn (ops : ElemOps) : Statement (Instr.andn ops) := of_any _
theorem shl (ops : ElemOps) : Statement (Instr.shl ops) := of_any _
theorem shr (ops : ElemOps) : Statement (Instr.shr ops) := of_any _
theorem sar (ops : ElemOps) : Statement (Instr.sar ops) := of_any _
theorem rol (ops : ElemOps) : Statement (Instr.rol ops) := of_any _
theorem clz (ops : ElemOps) : Statement (Instr.clz ops) := of_any _
theorem popc (ops : ElemOps) : Statement (Instr.popc ops) := of_any _
theorem brev (ops : ElemOps) : Statement (Instr.brev ops) := of_any _
theorem sel (ops : ElemOps) : Statement (Instr.sel ops) := of_any _
theorem cmpEq (ops : ElemOps) : Statement (Instr.cmpEq ops) := of_any _
theorem cmpNe (ops : ElemOps) : Statement (Instr.cmpNe ops) := of_any _
theorem cmpLt (ops : ElemOps) : Statement (Instr.cmpLt ops) := of_any _
theorem cmpGe (ops : ElemOps) : Statement (Instr.cmpGe ops) := of_any _
theorem cmpLtu (ops : ElemOps) : Statement (Instr.cmpLtu ops) := of_any _
theorem cmpGeu (ops : ElemOps) : Statement (Instr.cmpGeu ops) := of_any _
theorem cmpLe (ops : ElemOps) : Statement (Instr.cmpLe ops) := of_any _
theorem cmpGt (ops : ElemOps) : Statement (Instr.cmpGt ops) := of_any _
theorem fadd (ops : ElemOps) : Statement (Instr.fadd ops) := of_any _
theorem fsub (ops : ElemOps) : Statement (Instr.fsub ops) := of_any _
theorem fmul (ops : ElemOps) : Statement (Instr.fmul ops) := of_any _
theorem ffma (ops : ElemOps) : Statement (Instr.ffma ops) := of_any _
theorem fmin (ops : ElemOps) : Statement (Instr.fmin ops) := of_any _
theorem fmax (ops : ElemOps) : Statement (Instr.fmax ops) := of_any _
theorem fabs (ops : ElemOps) : Statement (Instr.fabs ops) := of_any _
theorem fneg (ops : ElemOps) : Statement (Instr.fneg ops) := of_any _
theorem fdiv (ops : ElemOps) : Statement (Instr.fdiv ops) := of_any _
theorem fsqrt (ops : ElemOps) : Statement (Instr.fsqrt ops) := of_any _
theorem frcp (ops : ElemOps) : Statement (Instr.frcp ops) := of_any _
theorem frsq (ops : ElemOps) : Statement (Instr.frsq ops) := of_any _
theorem fexp2 (ops : ElemOps) : Statement (Instr.fexp2 ops) := of_any _
theorem flog2 (ops : ElemOps) : Statement (Instr.flog2 ops) := of_any _
theorem ftanh (ops : ElemOps) : Statement (Instr.ftanh ops) := of_any _
theorem fsigm (ops : ElemOps) : Statement (Instr.fsigm ops) := of_any _
theorem fspl (ops : ElemOps) : Statement (Instr.fspl ops) := of_any _
theorem fclass (ops : ElemOps) : Statement (Instr.fclass ops) := of_any _
theorem fcmpEq (ops : ElemOps) : Statement (Instr.fcmpEq ops) := of_any _
theorem fcmpNe (ops : ElemOps) : Statement (Instr.fcmpNe ops) := of_any _
theorem fcmpLt (ops : ElemOps) : Statement (Instr.fcmpLt ops) := of_any _
theorem fcmpLe (ops : ElemOps) : Statement (Instr.fcmpLe ops) := of_any _
theorem fcmpGt (ops : ElemOps) : Statement (Instr.fcmpGt ops) := of_any _
theorem fcmpGe (ops : ElemOps) : Statement (Instr.fcmpGe ops) := of_any _
theorem fcmpUn (ops : ElemOps) : Statement (Instr.fcmpUn ops) := of_any _
theorem fcmpNum (ops : ElemOps) : Statement (Instr.fcmpNum ops) := of_any _
theorem faddBf16 (ops : ElemOps) : Statement (Instr.faddBf16 ops) := of_any _
theorem fsubBf16 (ops : ElemOps) : Statement (Instr.fsubBf16 ops) := of_any _
theorem fmulBf16 (ops : ElemOps) : Statement (Instr.fmulBf16 ops) := of_any _
theorem ffmaBf16 (ops : ElemOps) : Statement (Instr.ffmaBf16 ops) := of_any _
theorem fminBf16 (ops : ElemOps) : Statement (Instr.fminBf16 ops) := of_any _
theorem fmaxBf16 (ops : ElemOps) : Statement (Instr.fmaxBf16 ops) := of_any _
theorem fabsBf16 (ops : ElemOps) : Statement (Instr.fabsBf16 ops) := of_any _
theorem fnegBf16 (ops : ElemOps) : Statement (Instr.fnegBf16 ops) := of_any _
theorem fdivBf16 (ops : ElemOps) : Statement (Instr.fdivBf16 ops) := of_any _
theorem fsqrtBf16 (ops : ElemOps) : Statement (Instr.fsqrtBf16 ops) := of_any _
theorem frcpBf16 (ops : ElemOps) : Statement (Instr.frcpBf16 ops) := of_any _
theorem frsqBf16 (ops : ElemOps) : Statement (Instr.frsqBf16 ops) := of_any _
theorem fexp2Bf16 (ops : ElemOps) : Statement (Instr.fexp2Bf16 ops) := of_any _
theorem flog2Bf16 (ops : ElemOps) : Statement (Instr.flog2Bf16 ops) := of_any _
theorem ftanhBf16 (ops : ElemOps) : Statement (Instr.ftanhBf16 ops) := of_any _
theorem fsigmBf16 (ops : ElemOps) : Statement (Instr.fsigmBf16 ops) := of_any _
theorem fsplBf16 (ops : ElemOps) : Statement (Instr.fsplBf16 ops) := of_any _
theorem fclassBf16 (ops : ElemOps) : Statement (Instr.fclassBf16 ops) := of_any _
theorem fcmpEqBf16 (ops : ElemOps) : Statement (Instr.fcmpEqBf16 ops) := of_any _
theorem fcmpNeBf16 (ops : ElemOps) : Statement (Instr.fcmpNeBf16 ops) := of_any _
theorem fcmpLtBf16 (ops : ElemOps) : Statement (Instr.fcmpLtBf16 ops) := of_any _
theorem fcmpLeBf16 (ops : ElemOps) : Statement (Instr.fcmpLeBf16 ops) := of_any _
theorem fcmpGtBf16 (ops : ElemOps) : Statement (Instr.fcmpGtBf16 ops) := of_any _
theorem fcmpGeBf16 (ops : ElemOps) : Statement (Instr.fcmpGeBf16 ops) := of_any _
theorem fcmpUnBf16 (ops : ElemOps) : Statement (Instr.fcmpUnBf16 ops) := of_any _
theorem fcmpNumBf16 (ops : ElemOps) : Statement (Instr.fcmpNumBf16 ops) := of_any _
theorem cvt (ops : ElemOps) : Statement (Instr.cvt ops) := of_any _
theorem qexp (ops : ElemOps) : Statement (Instr.qexp ops) := of_any _
theorem bscale (ops : ElemOps) : Statement (Instr.bscale ops) := of_any _
theorem bmax (ops : ElemOps) : Statement (Instr.bmax ops) := of_any _
theorem laneid (ops : ElemOps) : Statement (Instr.laneid ops) := of_any _
theorem bcast (ops : ElemOps) : Statement (Instr.bcast ops) := of_any _
theorem shuf (ops : ElemOps) : Statement (Instr.shuf ops) := of_any _
theorem lrot (ops : ElemOps) : Statement (Instr.lrot ops) := of_any _
theorem redaddI32 (ops : ElemOps) : Statement (Instr.redaddI32 ops) := of_any _
theorem redmaxI32 (ops : ElemOps) : Statement (Instr.redmaxI32 ops) := of_any _
theorem redminI32 (ops : ElemOps) : Statement (Instr.redminI32 ops) := of_any _
theorem lscanI32 (ops : ElemOps) : Statement (Instr.lscanI32 ops) := of_any _
theorem redaddF32 (ops : ElemOps) : Statement (Instr.redaddF32 ops) := of_any _
theorem redmaxF32 (ops : ElemOps) : Statement (Instr.redmaxF32 ops) := of_any _
theorem redminF32 (ops : ElemOps) : Statement (Instr.redminF32 ops) := of_any _
theorem lscanF32 (ops : ElemOps) : Statement (Instr.lscanF32 ops) := of_any _
theorem ld (ops : ElemOps) : Statement (Instr.ld ops) := of_any _
theorem st (ops : ElemOps) : Statement (Instr.st ops) := of_any _
theorem ldg (ops : ElemOps) : Statement (Instr.ldg ops) := of_any _
theorem sts (ops : ElemOps) : Statement (Instr.sts ops) := of_any _
theorem wadd (ops : ElemOps) : Statement (Instr.wadd ops) := of_any _
theorem wrd (ops : ElemOps) : Statement (Instr.wrd ops) := of_any _
theorem wclr (ops : ElemOps) : Statement (Instr.wclr ops) := of_any _
theorem zero (ops : ElemOps) : Statement (Instr.zero ops) := of_any _
theorem ldOrd (ops : ElemOps) : Statement (Instr.ldOrd ops) := of_any _
theorem stOrd (ops : ElemOps) : Statement (Instr.stOrd ops) := of_any _
theorem ldgOrd (ops : ElemOps) : Statement (Instr.ldgOrd ops) := of_any _
theorem stsOrd (ops : ElemOps) : Statement (Instr.stsOrd ops) := of_any _
theorem waddOrd (ops : ElemOps) : Statement (Instr.waddOrd ops) := of_any _
theorem wrdOrd (ops : ElemOps) : Statement (Instr.wrdOrd ops) := of_any _
theorem wclrOrd (ops : ElemOps) : Statement (Instr.wclrOrd ops) := of_any _
theorem zeroOrd (ops : ElemOps) : Statement (Instr.zeroOrd ops) := of_any _
theorem hld (ops : ElemOps) : Statement (Instr.hld ops) := of_any _
theorem hst (ops : ElemOps) : Statement (Instr.hst ops) := of_any _
theorem atom (ops : ElemOps) : Statement (Instr.atom ops) := of_any _
theorem hldOrd (ops : ElemOps) : Statement (Instr.hldOrd ops) := of_any _
theorem hstOrd (ops : ElemOps) : Statement (Instr.hstOrd ops) := of_any _
theorem atomOrd (ops : ElemOps) : Statement (Instr.atomOrd ops) := of_any _
theorem fenceScE (ops : ElemOps) : Statement (Instr.fenceScE ops) := of_any _
theorem fenceScQ (ops : ElemOps) : Statement (Instr.fenceScQ ops) := of_any _
theorem fenceScF (ops : ElemOps) : Statement (Instr.fenceScF ops) := of_any _
theorem fenceScD (ops : ElemOps) : Statement (Instr.fenceScD ops) := of_any _
theorem fenceScK (ops : ElemOps) : Statement (Instr.fenceScK ops) := of_any _
theorem fenceScX (ops : ElemOps) : Statement (Instr.fenceScX ops) := of_any _
theorem ordjoin (ops : ElemOps) : Statement (Instr.ordjoin ops) := of_any _
theorem mark (ops : ElemOps) : Statement (Instr.mark ops) := of_any _
theorem trap (ops : ElemOps) : Statement (Instr.trap ops) := of_any _
theorem poison (ops : ElemOps) : Statement (Instr.poison ops) := of_any _
theorem probe (ops : ElemOps) : Statement (Instr.probe ops) := of_any _
theorem yield (ops : ElemOps) : Statement (Instr.yield ops) := of_any _
theorem exit (ops : ElemOps) : Statement (Instr.exit ops) := of_any _
theorem send (ops : ElemOps) : Statement (Instr.send ops) := of_any _
theorem launch (ops : ElemOps) : Statement (Instr.launch ops) := of_any _
theorem aluAdd (rd : BitVec 5) (ra : BitVec 5) (rb : BitVec 5) : Statement (Instr.aluAdd rd ra rb) := of_any _
theorem aluSub (rd : BitVec 5) (ra : BitVec 5) (rb : BitVec 5) : Statement (Instr.aluSub rd ra rb) := of_any _
theorem aluAnd (rd : BitVec 5) (ra : BitVec 5) (rb : BitVec 5) : Statement (Instr.aluAnd rd ra rb) := of_any _
theorem aluOr (rd : BitVec 5) (ra : BitVec 5) (rb : BitVec 5) : Statement (Instr.aluOr rd ra rb) := of_any _
theorem aluXor (rd : BitVec 5) (ra : BitVec 5) (rb : BitVec 5) : Statement (Instr.aluXor rd ra rb) := of_any _
theorem aluSll (rd : BitVec 5) (ra : BitVec 5) (rb : BitVec 5) : Statement (Instr.aluSll rd ra rb) := of_any _
theorem aluSrl (rd : BitVec 5) (ra : BitVec 5) (rb : BitVec 5) : Statement (Instr.aluSrl rd ra rb) := of_any _
theorem aluSra (rd : BitVec 5) (ra : BitVec 5) (rb : BitVec 5) : Statement (Instr.aluSra rd ra rb) := of_any _
theorem aluSlt (rd : BitVec 5) (ra : BitVec 5) (rb : BitVec 5) : Statement (Instr.aluSlt rd ra rb) := of_any _
theorem aluSltu (rd : BitVec 5) (ra : BitVec 5) (rb : BitVec 5) : Statement (Instr.aluSltu rd ra rb) := of_any _
theorem aluMul (rd : BitVec 5) (ra : BitVec 5) (rb : BitVec 5) : Statement (Instr.aluMul rd ra rb) := of_any _
theorem aluMulh (rd : BitVec 5) (ra : BitVec 5) (rb : BitVec 5) : Statement (Instr.aluMulh rd ra rb) := of_any _
theorem aluMulhu (rd : BitVec 5) (ra : BitVec 5) (rb : BitVec 5) : Statement (Instr.aluMulhu rd ra rb) := of_any _
theorem aluDiv (rd : BitVec 5) (ra : BitVec 5) (rb : BitVec 5) : Statement (Instr.aluDiv rd ra rb) := of_any _
theorem aluDivu (rd : BitVec 5) (ra : BitVec 5) (rb : BitVec 5) : Statement (Instr.aluDivu rd ra rb) := of_any _
theorem aluRem (rd : BitVec 5) (ra : BitVec 5) (rb : BitVec 5) : Statement (Instr.aluRem rd ra rb) := of_any _
theorem aluRemu (rd : BitVec 5) (ra : BitVec 5) (rb : BitVec 5) : Statement (Instr.aluRemu rd ra rb) := of_any _
theorem aluMin (rd : BitVec 5) (ra : BitVec 5) (rb : BitVec 5) : Statement (Instr.aluMin rd ra rb) := of_any _
theorem aluMax (rd : BitVec 5) (ra : BitVec 5) (rb : BitVec 5) : Statement (Instr.aluMax rd ra rb) := of_any _
theorem aluMinu (rd : BitVec 5) (ra : BitVec 5) (rb : BitVec 5) : Statement (Instr.aluMinu rd ra rb) := of_any _
theorem aluMaxu (rd : BitVec 5) (ra : BitVec 5) (rb : BitVec 5) : Statement (Instr.aluMaxu rd ra rb) := of_any _
theorem addi (rd : BitVec 5) (ra : BitVec 5) (imm : BitVec 15) : Statement (Instr.addi rd ra imm) := of_any _
theorem andi (rd : BitVec 5) (ra : BitVec 5) (imm : BitVec 15) : Statement (Instr.andi rd ra imm) := of_any _
theorem ori (rd : BitVec 5) (ra : BitVec 5) (imm : BitVec 15) : Statement (Instr.ori rd ra imm) := of_any _
theorem xori (rd : BitVec 5) (ra : BitVec 5) (imm : BitVec 15) : Statement (Instr.xori rd ra imm) := of_any _
theorem slli (rd : BitVec 5) (ra : BitVec 5) (sh : BitVec 5) : Statement (Instr.slli rd ra sh) := of_any _
theorem srli (rd : BitVec 5) (ra : BitVec 5) (sh : BitVec 5) : Statement (Instr.srli rd ra sh) := of_any _
theorem srai (rd : BitVec 5) (ra : BitVec 5) (sh : BitVec 5) : Statement (Instr.srai rd ra sh) := of_any _
theorem slti (rd : BitVec 5) (ra : BitVec 5) (imm : BitVec 15) : Statement (Instr.slti rd ra imm) := of_any _
theorem sltiu (rd : BitVec 5) (ra : BitVec 5) (imm : BitVec 15) : Statement (Instr.sltiu rd ra imm) := of_any _
theorem lui (rd : BitVec 5) (imm : BitVec 20) : Statement (Instr.lui rd imm) := of_any _
theorem lb (rd : BitVec 5) (ra : BitVec 5) (imm : BitVec 15) : Statement (Instr.lb rd ra imm) := of_any _
theorem lbu (rd : BitVec 5) (ra : BitVec 5) (imm : BitVec 15) : Statement (Instr.lbu rd ra imm) := of_any _
theorem lh (rd : BitVec 5) (ra : BitVec 5) (imm : BitVec 15) : Statement (Instr.lh rd ra imm) := of_any _
theorem lhu (rd : BitVec 5) (ra : BitVec 5) (imm : BitVec 15) : Statement (Instr.lhu rd ra imm) := of_any _
theorem lw (rd : BitVec 5) (ra : BitVec 5) (imm : BitVec 15) : Statement (Instr.lw rd ra imm) := of_any _
theorem sb (ra : BitVec 5) (rb : BitVec 5) (off : BitVec 15) : Statement (Instr.sb ra rb off) := of_any _
theorem sh (ra : BitVec 5) (rb : BitVec 5) (off : BitVec 15) : Statement (Instr.sh ra rb off) := of_any _
theorem sw (ra : BitVec 5) (rb : BitVec 5) (off : BitVec 15) : Statement (Instr.sw ra rb off) := of_any _
theorem lwg (rd : BitVec 5) (ra : BitVec 5) (imm : BitVec 15) : Statement (Instr.lwg rd ra imm) := of_any _
theorem swg (ra : BitVec 5) (rb : BitVec 5) (off : BitVec 15) : Statement (Instr.swg ra rb off) := of_any _
theorem amo (rd : BitVec 5) (ra : BitVec 5) (rb : BitVec 5) (glob : BitVec 1) (aop : BitVec 4) : Statement (Instr.amo rd ra rb glob aop) := of_any _
theorem beq (ra : BitVec 5) (rb : BitVec 5) (off : BitVec 15) : Statement (Instr.beq ra rb off) := of_any _
theorem bne (ra : BitVec 5) (rb : BitVec 5) (off : BitVec 15) : Statement (Instr.bne ra rb off) := of_any _
theorem blt (ra : BitVec 5) (rb : BitVec 5) (off : BitVec 15) : Statement (Instr.blt ra rb off) := of_any _
theorem bge (ra : BitVec 5) (rb : BitVec 5) (off : BitVec 15) : Statement (Instr.bge ra rb off) := of_any _
theorem bltu (ra : BitVec 5) (rb : BitVec 5) (off : BitVec 15) : Statement (Instr.bltu ra rb off) := of_any _
theorem bgeu (ra : BitVec 5) (rb : BitVec 5) (off : BitVec 15) : Statement (Instr.bgeu ra rb off) := of_any _
theorem jal (rd : BitVec 5) (off : BitVec 20) : Statement (Instr.jal rd off) := of_any _
theorem jalr (rd : BitVec 5) (ra : BitVec 5) (imm : BitVec 15) : Statement (Instr.jalr rd ra imm) := of_any _
theorem tend : Statement (Instr.tend) := of_any _
theorem tarm (en : BitVec 1) (chan : BitVec 4) : Statement (Instr.tarm en chan) := of_any _
theorem tsend (rd : BitVec 5) (ra : BitVec 5) (rb : BitVec 5) (len : BitVec 5) : Statement (Instr.tsend rd ra rb len) := of_any _
theorem tpoll (rd : BitVec 5) (ra : BitVec 5) (rb : BitVec 5) : Statement (Instr.tpoll rd ra rb) := of_any _
theorem tprio (prio : BitVec 3) (chan : BitVec 4) : Statement (Instr.tprio prio chan) := of_any _
theorem sysr (rd : BitVec 5) (ra : BitVec 5) (imm : BitVec 15) : Statement (Instr.sysr rd ra imm) := of_any _
theorem sysw (rd : BitVec 5) (ra : BitVec 5) (imm : BitVec 15) : Statement (Instr.sysw rd ra imm) := of_any _
theorem qccTrap (code : BitVec 8) : Statement (Instr.qccTrap code) := of_any _
theorem tret : Statement (Instr.tret) := of_any _
theorem qccFence : Statement (Instr.qccFence) := of_any _
theorem pat (rs : BitVec 5) (slot : BitVec 4) : Statement (Instr.pat rs slot) := of_any _
theorem strmBindIn (rb : BitVec 5) (rc : BitVec 5) (slot : BitVec 4) : Statement (Instr.strmBindIn rb rc slot) := of_any _
theorem strmBindOut (rb : BitVec 5) (rc : BitVec 5) (slot : BitVec 4) : Statement (Instr.strmBindOut rb rc slot) := of_any _
theorem cmd (rs : BitVec 5) (node : BitVec 6) : Statement (Instr.cmd rs node) := of_any _
theorem cmdCancel (node : BitVec 6) : Statement (Instr.cmdCancel node) := of_any _
theorem qccLaunch (rs : BitVec 5) (rc : BitVec 5) : Statement (Instr.qccLaunch rs rc) := of_any _
theorem cfgLoad (rs : BitVec 5) (rc : BitVec 5) : Statement (Instr.cfgLoad rs rc) := of_any _
theorem cfgLoadShadow (rs : BitVec 5) (rc : BitVec 5) : Statement (Instr.cfgLoadShadow rs rc) := of_any _
theorem cfgSwitch (rs : BitVec 5) (rc : BitVec 5) : Statement (Instr.cfgSwitch rs rc) := of_any _
theorem barr (rb : BitVec 5) (rc : BitVec 5) : Statement (Instr.barr rb rc) := of_any _
theorem qccMark (marker : BitVec 10) : Statement (Instr.qccMark marker) := of_any _
theorem ttLoad (rc : BitVec 5) : Statement (Instr.ttLoad rc) := of_any _
theorem ttArm (rc : BitVec 5) : Statement (Instr.ttArm rc) := of_any _
theorem scan (rs : BitVec 5) (rb : BitVec 5) (rc : BitVec 5) (dir : BitVec 1) (si : BitVec 1) (so : BitVec 1) (form : BitVec 2) : Statement (Instr.scan rs rb rc dir si so form) := of_any _
theorem scanWload (rs : BitVec 5) (rc : BitVec 5) (dir : BitVec 1) (si : BitVec 1) (so : BitVec 1) (form : BitVec 2) : Statement (Instr.scanWload rs rc dir si so form) := of_any _
theorem setx (rs : BitVec 5) (rb : BitVec 5) (rc : BitVec 5) : Statement (Instr.setx rs rb rc) := of_any _
theorem topk (rs : BitVec 5) (rc : BitVec 5) (form3 : BitVec 1) : Statement (Instr.topk rs rc form3) := of_any _
theorem topkGroup (rs : BitVec 5) (rc : BitVec 5) : Statement (Instr.topkGroup rs rc) := of_any _
theorem topkCommit (rs : BitVec 5) (rc : BitVec 5) : Statement (Instr.topkCommit rs rc) := of_any _
theorem claspReq (rs : BitVec 5) (rc : BitVec 5) : Statement (Instr.claspReq rs rc) := of_any _
theorem claspRevoke (rb : BitVec 5) (rc : BitVec 5) : Statement (Instr.claspRevoke rb rc) := of_any _
theorem plateSweep (rs : BitVec 5) (rc : BitVec 5) : Statement (Instr.plateSweep rs rc) := of_any _
theorem pmTol (rb : BitVec 5) (rc : BitVec 5) : Statement (Instr.pmTol rb rc) := of_any _
theorem partCreate (rs : BitVec 5) (rb : BitVec 5) (rc : BitVec 5) : Statement (Instr.partCreate rs rb rc) := of_any _
theorem partDestroy (rs : BitVec 5) (rb : BitVec 5) (rc : BitVec 5) : Statement (Instr.partDestroy rs rb rc) := of_any _
theorem partFmap (rs : BitVec 5) (rb : BitVec 5) (rc : BitVec 5) : Statement (Instr.partFmap rs rb rc) := of_any _
theorem partChan (rs : BitVec 5) (rb : BitVec 5) (rc : BitVec 5) : Statement (Instr.partChan rs rb rc) := of_any _
theorem partPtroot (rs : BitVec 5) (rb : BitVec 5) (rc : BitVec 5) : Statement (Instr.partPtroot rs rb rc) := of_any _
theorem partFq (rs : BitVec 5) (rb : BitVec 5) (rc : BitVec 5) : Statement (Instr.partFq rs rb rc) := of_any _
theorem partPlate (rs : BitVec 5) (rb : BitVec 5) (rc : BitVec 5) : Statement (Instr.partPlate rs rb rc) := of_any _
theorem partDest (rs : BitVec 5) (rb : BitVec 5) (rc : BitVec 5) : Statement (Instr.partDest rs rb rc) := of_any _
theorem partVf (rs : BitVec 5) (rb : BitVec 5) (rc : BitVec 5) : Statement (Instr.partVf rs rb rc) := of_any _
theorem partQuota (rs : BitVec 5) (rb : BitVec 5) (rc : BitVec 5) : Statement (Instr.partQuota rs rb rc) := of_any _
theorem partBudget (rs : BitVec 5) (rb : BitVec 5) (rc : BitVec 5) : Statement (Instr.partBudget rs rb rc) := of_any _
theorem partGuar (rs : BitVec 5) (rb : BitVec 5) (rc : BitVec 5) : Statement (Instr.partGuar rs rb rc) := of_any _
theorem partStop (rs : BitVec 5) (rb : BitVec 5) (rc : BitVec 5) : Statement (Instr.partStop rs rb rc) := of_any _
theorem partSave (rs : BitVec 5) (rb : BitVec 5) (rc : BitVec 5) : Statement (Instr.partSave rs rb rc) := of_any _
theorem partResume (rs : BitVec 5) (rb : BitVec 5) (rc : BitVec 5) : Statement (Instr.partResume rs rb rc) := of_any _
theorem partEvent (rs : BitVec 5) (rb : BitVec 5) (rc : BitVec 5) : Statement (Instr.partEvent rs rb rc) := of_any _
theorem pmma (word : PressWord) : Statement (Instr.pmma word) := of_any _
theorem pmmac (word : PressWord) : Statement (Instr.pmmac word) := of_any _
theorem pmmad (word : PressWord) : Statement (Instr.pmmad word) := of_any _
theorem pdrain (word : PressWord) : Statement (Instr.pdrain word) := of_any _
theorem parkedAllocFire (pos : Nat) (idx : Nat) : Statement (Instr.parkedAllocFire pos idx) := of_any _
theorem freeNotice (pos : Nat) (port : Nat) : Statement (Instr.freeNotice pos port) := of_any _
theorem sendAcceptance (idx : Nat) : Statement (Instr.sendAcceptance idx) := of_any _
theorem launchResponse (idx : Nat) : Statement (Instr.launchResponse idx) := of_any _
theorem tsendDelivery (quire : Nat) : Statement (Instr.tsendDelivery quire) := of_any _
theorem invalidationComplete (idx : Nat) : Statement (Instr.invalidationComplete idx) := of_any _
theorem streamAccess (quire : Nat) (slot : Nat) : Statement (Instr.streamAccess quire slot) := of_any _
theorem cmdNodeComplete (quire : Nat) (node : Nat) : Statement (Instr.cmdNodeComplete quire node) := of_any _
theorem copyPiece (quire : Nat) (node : Nat) : Statement (Instr.copyPiece quire node) := of_any _
theorem cfgLoadComplete (quire : Nat) : Statement (Instr.cfgLoadComplete quire) := of_any _
theorem drainNotice (idx : Nat) : Statement (Instr.drainNotice idx) := of_any _
theorem shadowSwitch (ctx : Nat) : Statement (Instr.shadowSwitch ctx) := of_any _
theorem barrierRegistration (idx : Nat) : Statement (Instr.barrierRegistration idx) := of_any _
theorem barrierCompletion (idx : Nat) : Statement (Instr.barrierCompletion idx) := of_any _
theorem ttArmReset (ctx : Nat) : Statement (Instr.ttArmReset ctx) := of_any _
theorem sweepMarkPassDone : Statement (Instr.sweepMarkPassDone) := of_any _
theorem commandDispatch (quire : Nat) : Statement (Instr.commandDispatch quire) := of_any _
theorem commandNotify (quire : Nat) (idx : Nat) : Statement (Instr.commandNotify quire idx) := of_any _
theorem channelMessageEntry (idx : Nat) : Statement (Instr.channelMessageEntry idx) := of_any _
theorem taskPick (quire : Nat) : Statement (Instr.taskPick quire) := of_any _
theorem tasklong (quire : Nat) : Statement (Instr.tasklong quire) := of_any _
theorem pressFillToken (pos : Nat) (port : Nat) : Statement (Instr.pressFillToken pos port) := of_any _
theorem pressShiftToken (pos : Nat) (port : Nat) : Statement (Instr.pressShiftToken pos port) := of_any _
theorem tensorScaleToken (pos : Nat) (port : Nat) : Statement (Instr.tensorScaleToken pos port) := of_any _
theorem pressGoToken (pos : Nat) (port : Nat) : Statement (Instr.pressGoToken pos port) := of_any _
theorem pressDrain (quire : Nat) : Statement (Instr.pressDrain quire) := of_any _
theorem pressSwitch (quire : Nat) : Statement (Instr.pressSwitch quire) := of_any _
theorem graftUToken (pos : Nat) (port : Nat) : Statement (Instr.graftUToken pos port) := of_any _
theorem graftSharedToken (pos : Nat) (port : Nat) : Statement (Instr.graftSharedToken pos port) := of_any _
theorem graftStateInDone (quire : Nat) (scan : Nat) : Statement (Instr.graftStateInDone quire scan) := of_any _
theorem graftStepIssue (quire : Nat) : Statement (Instr.graftStepIssue quire) := of_any _
theorem graftYEmit (quire : Nat) : Statement (Instr.graftYEmit quire) := of_any _
theorem graftChunk (quire : Nat) (scan : Nat) : Statement (Instr.graftChunk quire scan) := of_any _
theorem graftScanComplete (quire : Nat) (scan : Nat) : Statement (Instr.graftScanComplete quire scan) := of_any _
theorem wloadChannelDone (quire : Nat) : Statement (Instr.wloadChannelDone quire) := of_any _
theorem graftSwitch (quire : Nat) : Statement (Instr.graftSwitch quire) := of_any _
theorem riddleGoToken (pos : Nat) (port : Nat) : Statement (Instr.riddleGoToken pos port) := of_any _
theorem riddleRunStart (folio : Nat) : Statement (Instr.riddleRunStart folio) := of_any _
theorem riddleGranuleReturn (folio : Nat) (run : Nat) (cursor : Nat) : Statement (Instr.riddleGranuleReturn folio run cursor) := of_any _
theorem riddleLoopStep (folio : Nat) (run : Nat) : Statement (Instr.riddleLoopStep folio run) := of_any _
theorem riddleResult (folio : Nat) (run : Nat) : Statement (Instr.riddleResult folio run) := of_any _
theorem riddleSwitch (folio : Nat) : Statement (Instr.riddleSwitch folio) := of_any _
theorem prunerStepDispatch (die : Nat) : Statement (Instr.prunerStepDispatch die) := of_any _
theorem prunerIntake (die : Nat) : Statement (Instr.prunerIntake die) := of_any _
theorem prunerListFinal (die : Nat) : Statement (Instr.prunerListFinal die) := of_any _
theorem prunerListMerge (die : Nat) (idx : Nat) : Statement (Instr.prunerListMerge die idx) := of_any _
theorem prunerWinnerArrival (die : Nat) (idx : Nat) : Statement (Instr.prunerWinnerArrival die idx) := of_any _
theorem prunerResend (die : Nat) (idx : Nat) : Statement (Instr.prunerResend die idx) := of_any _
theorem prunerWithdrawal (die : Nat) (idx : Nat) : Statement (Instr.prunerWithdrawal die idx) := of_any _
theorem commitStart (die : Nat) : Statement (Instr.commitStart die) := of_any _
theorem commitDeliver (die : Nat) (slot : Nat) : Statement (Instr.commitDeliver die slot) := of_any _
theorem tokenArrival (pos : Nat) (port : Nat) (cls : Nat) : Statement (Instr.tokenArrival pos port cls) := of_any _
theorem spillWrite (quire : Nat) (idx : Nat) : Statement (Instr.spillWrite quire idx) := of_any _
theorem overflowSearchDone (pos : Nat) (idx : Nat) : Statement (Instr.overflowSearchDone pos idx) := of_any _
theorem outputStageDepart (pos : Nat) (idx : Nat) : Statement (Instr.outputStageDepart pos idx) := of_any _
theorem linkTransfer (pos : Nat) (port : Nat) (cls : Nat) : Statement (Instr.linkTransfer pos port cls) := of_any _
theorem slotEviction (pos : Nat) (ctx : Nat) : Statement (Instr.slotEviction pos ctx) := of_any _
theorem slotInstall (pos : Nat) (ctx : Nat) : Statement (Instr.slotInstall pos ctx) := of_any _
theorem parkedTokenReplay (pos : Nat) (ctx : Nat) : Statement (Instr.parkedTokenReplay pos ctx) := of_any _
theorem switchTokenArrival (pos : Nat) (port : Nat) : Statement (Instr.switchTokenArrival pos port) := of_any _
theorem memoryNodeSwitchEmit (pos : Nat) (slot : Nat) (node : Nat) : Statement (Instr.memoryNodeSwitchEmit pos slot node) := of_any _
theorem robRelease (pos : Nat) : Statement (Instr.robRelease pos) := of_any _
theorem bankRequestEnqueue (pos : Nat) (port : Nat) : Statement (Instr.bankRequestEnqueue pos port) := of_any _
theorem portOperation (bank : Nat) : Statement (Instr.portOperation bank) := of_any _
theorem multiBankDecision (acc : Nat) : Statement (Instr.multiBankDecision acc) := of_any _
theorem missReplay (die : Nat) (idx : Nat) : Statement (Instr.missReplay die idx) := of_any _
theorem placementZeroing (bank : Nat) : Statement (Instr.placementZeroing bank) := of_any _
theorem zeroPieceWrite (bank : Nat) : Statement (Instr.zeroPieceWrite bank) := of_any _
theorem scrubRow (bank : Nat) : Statement (Instr.scrubRow bank) := of_any _
theorem scrubForced (bank : Nat) : Statement (Instr.scrubForced bank) := of_any _
theorem eccWriteback (idx : Nat) : Statement (Instr.eccWriteback idx) := of_any _
theorem channelRequestArrival (acc : Nat) (part : Nat) : Statement (Instr.channelRequestArrival acc part) := of_any _
theorem channelPerform (chan : Nat) (idx : Nat) : Statement (Instr.channelPerform chan idx) := of_any _
theorem memoryResponseArrival (acc : Nat) (part : Nat) : Statement (Instr.memoryResponseArrival acc part) := of_any _
theorem walkStart (die : Nat) (idx : Nat) : Statement (Instr.walkStart die idx) := of_any _
theorem walkTableReadDone (die : Nat) (idx : Nat) : Statement (Instr.walkTableReadDone die idx) := of_any _
theorem faultChannelMessage (part : Nat) : Statement (Instr.faultChannelMessage part) := of_any _
theorem dirtyBitOr (acc : Nat) (part : Nat) : Statement (Instr.dirtyBitOr acc part) := of_any _
theorem heldAccessResume (acc : Nat) : Statement (Instr.heldAccessResume acc) := of_any _
theorem folioMove (part : Nat) (lf : Nat) : Statement (Instr.folioMove part lf) := of_any _
theorem plateUnionSpine (idx : Nat) : Statement (Instr.plateUnionSpine idx) := of_any _
theorem plateUnionWaitServed : Statement (Instr.plateUnionWaitServed) := of_any _
theorem policyCheckDone : Statement (Instr.policyCheckDone) := of_any _
theorem eventRecordWrite (vf : Nat) : Statement (Instr.eventRecordWrite vf) := of_any _
theorem markCount (idx : Nat) : Statement (Instr.markCount idx) := of_any _
theorem entryHandoff (idx : Nat) : Statement (Instr.entryHandoff idx) := of_any _
theorem barrowEntryStart (die : Nat) : Statement (Instr.barrowEntryStart die) := of_any _
theorem earlyFetchStart (die : Nat) : Statement (Instr.earlyFetchStart die) := of_any _
theorem barrowFetchPlot (die : Nat) (idx : Nat) : Statement (Instr.barrowFetchPlot die idx) := of_any _
theorem barrowEvictPlot (die : Nat) (idx : Nat) : Statement (Instr.barrowEvictPlot die idx) := of_any _
theorem barrowPinPlot (die : Nat) (idx : Nat) : Statement (Instr.barrowPinPlot die idx) := of_any _
theorem barrowDropPlot (die : Nat) (idx : Nat) : Statement (Instr.barrowDropPlot die idx) := of_any _
theorem launchWindowWrite (vf : Nat) (off : Nat) (data : Bytes) : Statement (Instr.launchWindowWrite vf off data) := of_any _
theorem launchChannelEntry (idx : Nat) : Statement (Instr.launchChannelEntry idx) := of_any _
theorem dispatcherCycle : Statement (Instr.dispatcherCycle) := of_any _
theorem dieBatchArrival (idx : Nat) : Statement (Instr.dieBatchArrival idx) := of_any _
theorem placement (die : Nat) : Statement (Instr.placement die) := of_any _
theorem headWaitExpiry (die : Nat) : Statement (Instr.headWaitExpiry die) := of_any _
theorem remoteReservation (die : Nat) (idx : Nat) : Statement (Instr.remoteReservation die idx) := of_any _
theorem tearDown (ctx : Nat) : Statement (Instr.tearDown ctx) := of_any _
theorem tearDownRelease (ctx : Nat) : Statement (Instr.tearDownRelease ctx) := of_any _
theorem trapChannelMessage (idx : Nat) : Statement (Instr.trapChannelMessage idx) := of_any _
theorem softErrorRecord (idx : Nat) : Statement (Instr.softErrorRecord idx) := of_any _
theorem settleComplete (ctx : Nat) : Statement (Instr.settleComplete ctx) := of_any _
theorem stopSequence (part : Nat) : Statement (Instr.stopSequence part) := of_any _
theorem rebinderRestore (idx : Nat) : Statement (Instr.rebinderRestore idx) := of_any _
theorem killTimeout (ctx : Nat) : Statement (Instr.killTimeout ctx) := of_any _
theorem retirement (kind : Nat) (unit : Nat) : Statement (Instr.retirement kind unit) := of_any _
theorem sliceEnd (part : Nat) : Statement (Instr.sliceEnd part) := of_any _
theorem energyPeriodEnd (die : Nat) : Statement (Instr.energyPeriodEnd die) := of_any _
theorem hostApertureRead (vf : Nat) (off : Nat) (size : Nat) (tag : Nat) : Statement (Instr.hostApertureRead vf off size tag) := of_any _
theorem hostApertureWrite (vf : Nat) (off : Nat) (data : Bytes) : Statement (Instr.hostApertureWrite vf off data) := of_any _
theorem deliveryWrite (idx : Nat) : Statement (Instr.deliveryWrite idx) := of_any _
theorem cidxWrite (vf : Nat) (queue : Nat) (value : Word) : Statement (Instr.cidxWrite vf queue value) := of_any _
theorem queueEnableWrite (vf : Nat) (queue : Nat) (data : Bytes) : Statement (Instr.queueEnableWrite vf queue data) := of_any _
theorem vfStatusWrite (vf : Nat) (value : (BitVec 64)) : Statement (Instr.vfStatusWrite vf value) := of_any _
theorem hostWindowCompletion (tag : Nat) (status : Nat) (data : Bytes) : Statement (Instr.hostWindowCompletion tag status data) := of_any _
theorem hostCompletionTimeout (tag : Nat) : Statement (Instr.hostCompletionTimeout tag) := of_any _
theorem peerRequestArrival (accel : Nat) (kind : Nat) (va : (BitVec 64)) (size : Nat) (data : Bytes) : Statement (Instr.peerRequestArrival accel kind va size data) := of_any _
theorem debugRead (part : Nat) (va : (BitVec 64)) (size : Nat) : Statement (Instr.debugRead part va size) := of_any _
theorem flitReceive (port : Nat) (data : Bytes) : Statement (Instr.flitReceive port data) := of_any _
theorem linkLaneLoss (port : Nat) (lanes : Nat) : Statement (Instr.linkLaneLoss port lanes) := of_any _
theorem peerTimeout (tag : Nat) : Statement (Instr.peerTimeout tag) := of_any _
theorem domainConfigWrite (off : Nat) (data : Bytes) : Statement (Instr.domainConfigWrite off data) := of_any _
theorem mailboxReport (vf : Nat) (nonce : Bytes) : Statement (Instr.mailboxReport vf nonce) := of_any _
theorem mailboxCert (vf : Nat) : Statement (Instr.mailboxCert vf) := of_any _
theorem mailboxList (vf : Nat) : Statement (Instr.mailboxList vf) := of_any _
theorem firmwareBundleWrite (version : Word) (bundle : Bytes) (sig : Bytes) : Statement (Instr.firmwareBundleWrite version bundle sig) := of_any _
theorem coldReset : Statement (Instr.coldReset) := of_any _
theorem warmReset : Statement (Instr.warmReset) := of_any _
theorem vfFlr (vf : Nat) : Statement (Instr.vfFlr vf) := of_any _
theorem pmtolWrite (part : Nat) (value : Word) : Statement (Instr.pmtolWrite part value) := of_any _
theorem pwrlimWrite (value : Word) : Statement (Instr.pwrlimWrite value) := of_any _
theorem powerWindowEnd (watts : Nat) : Statement (Instr.powerWindowEnd watts) := of_any _
theorem powerStateEntry (kind : Nat) (unit : Nat) (level : Nat) : Statement (Instr.powerStateEntry kind unit level) := of_any _
theorem unitWake (kind : Nat) (unit : Nat) : Statement (Instr.unitWake kind unit) := of_any _
theorem registerWrite (vf : Nat) (off : Nat) (data : Bytes) : Statement (Instr.registerWrite vf off data) := of_any _
theorem markReturn (idx : Nat) : Statement (Instr.markReturn idx) := of_any _
theorem illegalInstruction (word : Word) : Statement (Instr.illegalInstruction word) := of_any _
theorem fetchFault (quire : Nat) : Statement (Instr.fetchFault quire) := of_any _
theorem softError (store : Nat) (addr : Nat) (bits : Nat) : Statement (Instr.softError store addr bits) := of_any _
theorem linkLanesUp (port : Nat) (lanes : Nat) : Statement (Instr.linkLanesUp port lanes) := of_any _
theorem pcieLinkL1 (entered : Bool) : Statement (Instr.pcieLinkL1 entered) := of_any _
theorem configurationRequest (tag : Nat) : Statement (Instr.configurationRequest tag) := of_any _

end Sys2Proof.Laws.WordFits
end

