-- ==== Sys2Proof/Tests/Slice0.lean ====
section
/-! SUPPORT. The model's own tests: for every obligation states that meet its hypotheses, with what the step gives there; words of
every family written out from the tables of the spec; and ill-formed words that the checks refuse. -/

set_option Elab.async false

namespace Sys2Proof.Tests

open Sys2Proof Sys2Proof.Machine

/-! ### Small states -/

/-- The next state of an outcome. -/
def nextOf (r : Res) : Option State := match r with | .next s => some s | _ => none

/-- A data token of context 0 with the given lanes. -/
def dataTok (fm : Fmt) (vals : List Nat) : Token :=
  { Token.blank 0 with fmt := fm, wid := BitVec.ofNat 5 (vals.length - 1), pay := packLanes (fmtWidth fm) vals }

/-- A predicate token of `n` bits. -/
def predTok (n bits : Nat) : Token :=
  { Token.blank 0 with net := .pred, wid := BitVec.ofNat 5 (n - 1), pay := BitVec.ofNat 1024 bits }

/-- Element 0 with one slot and one ready pair, which fires: word, literals, the pair's two tokens. -/
def firingState (w : Word) (lits : List Nat) (l r : Option Token) : State :=
  let p : Pair := { node := 0, opL := l, opR := r, ordL := none, switch := false };
  { State.reset.setElem 0 { Elem.fresh with
      slots := [(0, { Slot.bare w with lits := lits.map (BitVec.ofNat 32) })], fifo := [(0, p)] } with
    ctxs := [(0, Ctx.bare)], firing := some { pos := 0, slotIx := 0, pair := p } }

/-- The pair that fires. -/
def fireOf (s : State) : Fire :=
  s.fire.getD { pos := 0, slotIx := 0, slot := Slot.bare 0, pair := Pair.bare, ctx := 0, part := 0, node := 0, nest := 0, acts := [],
                act := 64 }

/-- Operand fields: A from slot L, B from slot R, results by destinations 0 and 1, no tag action, literals from 0 on. -/
def opsLR : ElemOps := { sa := 0, sb := 1, dx := 0, dy := 1, ta := 0, lx := 0 }

/-- The same without B. -/
def opsL : ElemOps := { opsLR with sb := 7 }

/-- The same with B from the literal table. -/
def opsLL : ElemOps := { opsLR with sb := 2 }

/-- Whether the instruction ends with one token of shape `sh` on both destinations whose lanes are those of `lane`. -/
def given (s : State) (i : Instr) (o : ElemOps) (f : Fire) (nest : BitVec 48) (h : Handle) (sh : Shape) (w n : Nat)
    (lane : Nat → Nat) : Bool :=
  nextOf (exec i s) == some (s.results f nest h (bothOut o sh (packLanes w ((List.range n).map lane))))

/-- A state at a moment by which every die has counted `k` cycles since moment 0. -/
def later (s : State) (k : Nat) : State := { s with tick := k * (Config.pace + 1) }

theorem later_ge (s : State) (die k : Nat) : (later s k).cyclesSince die 0 ≥ k :=
  State.cyclesSince_ge _ _ _ _ (by simp [later])

/-- The word of an element instruction. -/
def wordOf (i : Instr) : Word := match encode i with | some (_, w) => BitVec.ofNat 32 w | none => 0

/-- A live context 0 with a slot on element 0 whose node 0 holds an instruction; each slot of node 0 has one edge in. -/
def slotState (i : Instr) (f : Slot → Slot) : State :=
  { State.reset.setElem 0 { Elem.fresh with slots := [(0, f { Slot.bare (wordOf i) with nin := [(0, 1), (1, 1)] })] } with
    ctxs := [(0, Ctx.bare)] }

/-- The slot there. -/
def slotAt (s : State) : Slot := ((tabGet (s.elem 0).slots 0)).getD (Slot.bare 0)

/-- A task of context 0 on control core 0: registers `x1`, `x2`, … as listed, at PC 8, after `count` instructions. -/
def taskState (regs : List Nat) (f : Qcc → Qcc) : State :=
  let xs := (0 :: regs).map (BitVec.ofNat 32);
  { State.reset.setQcc 0 (f { Qcc.fresh with
      ctx := some 0, x := xs ++ List.replicate (32 - xs.length) 0, pc := 8
      task := some { chan := 1, msg := dataTok .i32 [0x11, 0x22], set := 0, count := 5 } }) with ctxs := [(0, Ctx.bare)] }

/-- The running task. -/
def runOf (s : State) : TaskRun :=
  s.running.getD { q := 0, k := Qcc.fresh, t := { chan := 0, msg := Token.blank 0, set := 0, count := 0 }, ctx := 0, part := 0 }

/-! ### Lane opcodes: states that meet the hypotheses, and what follows there -/

/-- Two I32 lanes at the edges of the range meet the hypotheses of every integer opcode of A and B; they complete. -/
theorem witness_IntegerLaneResults_binary :
    ∀ p ∈ integerBinaryTable,
      let s := firingState 0 [] (some (dataTok .i32 [0x80000000, 7])) (some (dataTok .i32 [0xFFFFFFFF, 0]));
      let f := fireOf s;
      let want := f.want p.2.1 [.slotL, .slotR];
      let a := f.read .slotL 0 want;
      let b := f.read .slotR 0 want;
      s.Fires f [a, b] 0 ∧ a.fmtIn p.2.1 ∧ b.fmtIn p.2.1 ∧ stdCheck (colourOf [a, b]) [(a, p.2.1), (b, p.2.1)] = none ∧
      resultFmt p.2.1 a ∈ p.2.1 ∧ tagAction f 0 (a.lane 0) 0 = some 0 ∧
      given s (p.1 opsLR) opsLR f 0 0 (Shape.data (resultFmt p.2.1 a) 2) 32 2 (fun k => (p.2.2 (a.word k) (b.word k)).toNat) := by
  unfold State.Fires Opnd.fmtIn
  decide +kernel

/-- The opcodes of A alone, `mad` with C from slot L and `sel`, on 32 lanes and on two. -/
theorem witness_IntegerLaneResults_others :
    (∀ p ∈ integerUnaryTable,
      let s := firingState 0 [] (some (dataTok .i32 (List.replicate 32 0x80000000))) none;
      let f := fireOf s;
      let a := f.read .slotL 0 (f.want p.2.1 [.slotL]);
      s.Fires f [a] 0 ∧ a.fmtIn p.2.1 ∧ stdCheck 32 [(a, p.2.1)] = none ∧ resultFmt p.2.1 a ∈ p.2.1 ∧
      tagAction f 0 (a.lane 0) 0 = some 0 ∧
      given s (p.1 opsLR) opsLR f 0 0 (Shape.data (resultFmt p.2.1 a) 32) 32 32 (fun k => (p.2.2 (a.word k)).toNat)) ∧
    (let s := firingState 0 [0] (some (dataTok .i32 [0x80000000, 7])) (some (dataTok .i32 [0xFFFFFFFF, 3]));
      let f := fireOf s;
      let c := f.read .slotL 1 .i32;
      let a := f.read .slotL 1 .i32;
      let b := f.read .slotR 1 .i32;
      csrcOf (bitF (f.cw opsLR) 31 29) = .slotL ∧ s.Fires f [a, b, c] 0 ∧
      stdCheck (colourOf [a, b, c]) [(a, [.i32]), (b, [.i32]), (c, [.i32])] = none ∧ tagAction f 0 (a.lane 0) 0 = some 0 ∧
      given s (.mad opsLR) opsLR f 0 0 (Shape.data .i32 2) 32 2 (fun k => (a.word k * b.word k + c.word k).toNat)) ∧
    (let s := firingState 0 [0x40000000, 9] (some (dataTok .i32 [5, 7])) (some (predTok 2 2));
      let f := fireOf s;
      let c := f.read .lit 1 .i32;
      let a := f.read .slotL 1 .i32;
      let p := f.read .slotR 0 .bits;
      csrcOf (bitF (f.cw opsLR) 31 29) = .lit ∧ s.Fires f [a, p, c] 0 ∧ (a.fmt = c.fmt ∨ a.ord = true ∨ c.ord = true) ∧
      stdCheck (colourOf [a, p, c]) [(a, [.i32]), (p, allFmts), (c, [.i32])] = none ∧ tagAction f 0 (a.lane 0) 0 = some 0 ∧
      given s (.sel opsLR) opsLR f 0 0 (Shape.data .i32 2) 32 2 (fun k => if k = 0 then 9 else 7)) := by
  unfold State.Fires Opnd.fmtIn
  decide +kernel

/-- Comparisons of equal, unequal and extreme lanes, of zeros of both signs and of NaN. -/
theorem witness_CompareResults :
    (∀ p ∈ integerCompareTable,
      let s := firingState 0 [] (some (dataTok .i32 [0x80000000, 7, 5])) (some (dataTok .i32 [0x7FFFFFFF, 7, 6]));
      let f := fireOf s;
      let a := f.read .slotL 0 .i32;
      let b := f.read .slotR 0 .i32;
      s.Fires f [a, b] 0 ∧ f.want intFmts [.slotL, .slotR] = .i32 ∧ a.fmtIn [.i32, .bits] ∧ b.fmtIn [.i32, .bits] ∧
      stdCheck 3 [(a, [.i32, .bits]), (b, [.i32, .bits])] = none ∧ tagAction f 0 (a.lane 0) 0 = some 0 ∧
      given s (p.1 opsLR) opsLR f 0 0 (Shape.pred 3) 1 3
        (fun k => (p.2 (BitVec.ofNat 32 (a.lane k)) (BitVec.ofNat 32 (b.lane k))).toNat)) ∧
    (∀ p ∈ floatCompareTable,
      let z := if p.2.1 = .fp32 then [0x80000000, 0x7FC00000, 0x3F800000, 0x00000001] else [0x8000, 0x7FC0, 0x3F80, 1];
      let w := if p.2.1 = .fp32 then [0, 0x3F800000, 0xBF800000, 0x00000000] else [0, 0x3F80, 0xBF80, 0];
      let s := firingState 0 [] (some (dataTok p.2.1 z)) (some (dataTok p.2.1 w));
      let f := fireOf s;
      let a := f.read .slotL 0 p.2.1;
      let b := f.read .slotR 0 p.2.1;
      s.Fires f [a, b] 0 ∧ a.fmtIn [p.2.1] ∧ b.fmtIn [p.2.1] ∧ stdCheck 4 [(a, [p.2.1]), (b, [p.2.1])] = none ∧
      tagAction f 0 (a.lane 0) 0 = some 0 ∧
      given s (p.1 opsLR) opsLR f 0 0 (Shape.pred 4) 1 4
        (fun k => (p.2.2 (readFloat false p.2.1 (a.lane k)) (readFloat false p.2.1 (b.lane k))).toNat)) := by
  unfold State.Fires Opnd.fmtIn
  decide +kernel

/-- Float opcodes on 1.5 and -2, and `ffma` with NP set and C from slot L. -/
theorem witness_FloatLaneResults :
    (∀ p ∈ floatBinaryTable,
      let s := firingState 0 [] (some (dataTok p.2.1 (if p.2.1 = .fp32 then [0x3FC00000] else [0x3FC0])))
        (some (dataTok p.2.1 (if p.2.1 = .fp32 then [0xC0000000] else [0xC000])));
      let f := fireOf s;
      let a := f.read .slotL 0 p.2.1;
      let b := f.read .slotR 0 p.2.1;
      s.Fires f [a, b] 0 ∧ a.fmtIn [p.2.1] ∧ b.fmtIn [p.2.1] ∧ stdCheck 1 [(a, [p.2.1]), (b, [p.2.1])] = none ∧
      tagAction f 0 (a.lane 0) 0 = some 0 ∧
      given s (p.1 opsLR) opsLR f 0 0 (Shape.data p.2.1 1) (fmtWidth p.2.1) 1
        (fun k => floatResult false p.2.1 (p.2.2 (readFloat false p.2.1 (a.lane k)) (readFloat false p.2.1 (b.lane k))))) ∧
    (∀ p ∈ floatUnaryTable,
      let s := firingState 0 [] (some (dataTok p.2.1 (if p.2.1 = .fp32 then [0x3FC00000] else [0x3FC0]))) none;
      let f := fireOf s;
      let a := f.read .slotL 0 p.2.1;
      s.Fires f [a] 0 ∧ a.fmtIn [p.2.1] ∧ stdCheck 1 [(a, [p.2.1])] = none ∧ tagAction f 0 (a.lane 0) 0 = some 0 ∧
      given s (p.1 opsLR) opsLR f 0 0 (Shape.data p.2.1 1) (fmtWidth p.2.1) 1
        (fun k => floatResult false p.2.1 (p.2.2 (readFloat false p.2.1 (a.lane k))))) ∧
    (∀ p ∈ floatBitTable,
      let s := firingState 0 [] (some (dataTok p.2.1 (if p.2.1 = .fp32 then [0xBFC00000] else [0xBFC0]))) none;
      let f := fireOf s;
      let a := f.read .slotL 0 p.2.1;
      s.Fires f [a] 0 ∧ a.fmtIn [p.2.1] ∧ stdCheck 1 [(a, [p.2.1])] = none ∧ tagAction f 0 (a.lane 0) 0 = some 0 ∧
      given s (p.1 opsLR) opsLR f 0 0 (Shape.data p.2.2.1 1) (fmtWidth p.2.2.1) 1 (fun k => p.2.2.2 (a.lane k))) ∧
    (∀ p ∈ [((Instr.ffma : ElemOps → Instr), Fmt.fp32), (Instr.ffmaBf16, Fmt.bf16)],
      let s := firingState 0 [0x10000000] (some (dataTok p.2 (if p.2 = .fp32 then [0x3FC00000] else [0x3FC0])))
        (some (dataTok p.2 (if p.2 = .fp32 then [0xC0000000] else [0xC000])));
      let f := fireOf s;
      let a := f.read .slotL 1 p.2;
      let b := f.read .slotR 1 p.2;
      csrcOf (bitF (f.cw opsLR) 31 29) = .slotL ∧ s.Fires f [a, b, a] 0 ∧
      stdCheck 1 [(a, [p.2]), (b, [p.2]), (a, [p.2])] = none ∧ tagAction f 0 (a.lane 0) 0 = some 0 ∧
      -- -(1.5 × -2) + 1.5 = 4.5
      given s (p.1 opsLR) opsLR f 0 0 (Shape.data p.2 1) (fmtWidth p.2) 1
        (fun _ => if p.2 = .fp32 then 0x40900000 else 0x4090)) := by
  unfold State.Fires Opnd.fmtIn
  decide +kernel

/-- Lane opcodes: lane numbers, lane 0 everywhere, a shuffle with a lane out of range, a rotation, sums and extremes. -/
theorem witness_LaneOpcodeResults :
    (let s := firingState 0 [] (some (dataTok .i32 [5, 6, 7, 8])) none;
      let f := fireOf s;
      let a := f.read .slotL 0 (f.want allFmts [.slotL]);
      s.Fires f [a] 0 ∧ a.fmtIn [.i32] ∧ stdCheck 4 [(a, allFmts)] = none ∧ stdCheck 4 [(a, [.i32])] = none ∧
      tagAction f 0 (a.lane 0) 0 = some 0 ∧
      given s (.laneid opsLR) opsLR f 0 0 (Shape.data .i32 4) 32 4 (fun k => k) ∧
      given s (.bcast opsLR) opsLR f 0 0 (Shape.data .i32 4) 32 4 (fun _ => 5) ∧
      given s (.redaddI32 opsLR) opsLR f 0 0 (Shape.data .i32 4) 32 4 (fun _ => 26) ∧
      given s (.lscanI32 opsLR) opsLR f 0 0 (Shape.data .i32 4) 32 4 (fun k => [5, 11, 18, 26].getD k 0) ∧
      given s (.redmaxI32 opsLR) opsLR f 0 0 (Shape.data .i32 4) 32 4 (fun _ => 8) ∧
      given s (.redminI32 opsLR) opsLR f 0 0 (Shape.data .i32 4) 32 4 (fun _ => 5)) ∧
    (let s := firingState 0 [] (some (dataTok .i32 [5, 6, 7, 8])) (some (dataTok .i32 [3, 4, 0, 1]));
      let f := fireOf s;
      let a := f.read .slotL 0 .i32;
      let b := f.read .slotR 0 .i32;
      f.want allFmts [.slotL, .slotR] = .i32 ∧ s.Fires f [a, b] 0 ∧ stdCheck 4 [(a, allFmts), (b, allFmts)] = none ∧
      tagAction f 0 (a.lane 0) 0 = some 0 ∧
      given s (.shuf opsLR) opsLR f 0 0 (Shape.data .i32 4) 32 4 (fun k => [8, 0, 5, 6].getD k 0) ∧
      given s (.lrot opsLR) opsLR f 0 0 (Shape.data .i32 4) 32 4 (fun k => [8, 5, 6, 7].getD k 0)) ∧
    (let s := firingState 0 [] (some (dataTok .fp32 [0x3F800000, 0x40000000])) none;
      let f := fireOf s;
      let a := f.read .slotL 0 .fp32;
      s.Fires f [a] 0 ∧ a.fmtIn [.fp32] ∧ stdCheck 2 [(a, [.fp32])] = none ∧ tagAction f 0 (a.lane 0) 0 = some 0 ∧
      given s (.redaddF32 opsLR) opsLR f 0 0 (Shape.data .fp32 2) 32 2 (fun _ => 0x40400000) ∧
      given s (.lscanF32 opsLR) opsLR f 0 0 (Shape.data .fp32 2) 32 2 (fun k => [0x3F800000, 0x40400000].getD k 0) ∧
      given s (.redmaxF32 opsLR) opsLR f 0 0 (Shape.data .fp32 2) 32 2 (fun _ => 0x40000000) ∧
      given s (.redminF32 opsLR) opsLR f 0 0 (Shape.data .fp32 2) 32 2 (fun _ => 0x3F800000)) := by
  unfold State.Fires Opnd.fmtIn
  decide +kernel

/-- Conversions and scales: 1.5 to BF16, a Q4 code times 2, 1.5 by a block shift of 1, and the block shift of 1.5. -/
theorem witness_ConversionResults :
    (let s := firingState 0 [0x04000000] (some (dataTok .fp32 [0x3FC00000])) none;
      let f := fireOf s;
      let a := f.read .slotL 1 .fp32;
      let b := f.read .none 1 .i32;
      fmtOf (bitF (f.cw opsLR) 31 29) = .fp32 ∧ fmtOf (bitF (f.cw opsLR) 28 26) = .bf16 ∧
      rmodeOf (bitF (f.cw opsLR) 25 23) = .rne ∧ cvtAllowed .fp32 .bf16 = true ∧ s.Fires f [a, b] 0 ∧ a.fmtIn [.fp32] ∧
      stdCheck 1 [(a, [.fp32]), (b, [.i32, .bits])] = none ∧ tagAction f 0 (a.lane 0) 0 = some 0 ∧
      given s (.cvt opsLR) opsLR f 0 0 (Shape.data .bf16 1) 16 1 (fun _ => 0x3FC0)) ∧
    (let s := firingState 0 [0, 1] (some (dataTok .q4 [1])) none;
      let f := fireOf s;
      let a := f.read .slotL 1 .q4;
      let b := f.read .lit 1 .i32;
      f.want [.q4, .q3] [.slotL] = .q4 ∧ s.Fires f [a, b] 0 ∧ a.fmtIn [.q4, .q3] ∧ stdCheck 1 [(a, [.q4, .q3])] = none ∧
      b.accepts [.i32, .bits] = true ∧ fmtIsFloat (fmtOf (bitF (f.cw opsLL) 31 29)) = true ∧ tagAction f 0 (a.lane 0) 0 = some 0 ∧
      given s (.qexp opsLL) opsLL f 0 0 (Shape.data .fp32 1) 32 1
        (fun k => roundTo .fp32 (vscale (decodeLane .q4 (a.lane k)) 1) .rne 0 false)) ∧
    (let s := firingState 0 [0, 1] (some (dataTok .fp32 [0x3FC00000])) none;
      let f := fireOf s;
      let a := f.read .slotL 1 .fp32;
      let b := f.read .lit 1 .i32;
      f.want [.fp32, .bf16] [.slotL] = .fp32 ∧ s.Fires f [a, b] 0 ∧ a.fmtIn [.fp32, .bf16] ∧
      stdCheck 1 [(a, [.fp32, .bf16])] = none ∧ b.accepts [.i32, .bits] = true ∧
      fmtIsFloat (fmtOf (bitF (f.cw opsLL) 30 28)) = true ∧ tagAction f 0 (a.lane 0) 0 = some 0 ∧
      given s (.bscale opsLL) opsLL f 0 0 (Shape.data .fp32 1) 32 1 (fun _ => 0x40400000)) ∧
    (let s := firingState 0 [] (some (dataTok .fp32 [0x3FC00000, 0x41000000])) none;
      let f := fireOf s;
      let a := f.read .slotL 0 .fp32;
      f.want [.fp32, .bf16] [.slotL] = .fp32 ∧ s.Fires f [a] 0 ∧ a.fmtIn [.fp32, .bf16] ∧
      stdCheck 2 [(a, [.fp32, .bf16])] = none ∧ tagAction f 0 (a.lane 0) 0 = some 0 ∧
      given s (.bmax opsLR) opsLR f 0 0 (Shape.data .i32 2) 32 2 (fun _ => 3)) := by
  unfold State.Fires Opnd.fmtIn
  decide +kernel

/-! ### Steering, predicates, activations and tag fields -/

/-- Predicates 0b110 and 0b011 of three bits. -/
theorem witness_PredicateOpcodeResults :
    (∀ p ∈ [((Instr.pand : ElemOps → Instr), (2 : Nat)), (Instr.por, 7), (Instr.pxor, 5)],
      let s := firingState 0 [] (some (predTok 3 6)) (some (predTok 3 3));
      let f := fireOf s;
      let a := f.read .slotL 0 .bits;
      let b := f.read .slotR 0 .bits;
      s.Fires f [a, b] 0 ∧ stdCheck 3 [(a, allFmts), (b, allFmts)] = none ∧ tagAction f 0 0 0 = some 0 ∧
      nextOf (exec (p.1 opsLR) s) = some (s.results f 0 0 (bothOut opsLR (Shape.pred 3) (BitVec.ofNat 1024 p.2)))) ∧
    (let s := firingState 0 [] (some (predTok 3 6)) none;
      let f := fireOf s;
      let a := f.read .slotL 0 .bits;
      s.Fires f [a] 0 ∧ stdCheck 3 [(a, allFmts)] = none ∧ tagAction f 0 0 0 = some 0 ∧
      nextOf (exec (.pnot opsLR) s) = some (s.results f 0 0 (bothOut opsLR (Shape.pred 3) 1))) := by
  unfold State.Fires
  decide +kernel

/-- A two-lane token with predicate 0b10, and for `const` and `join` a literal and a second token. -/
theorem witness_SteeringAndPassingResults :
    (let s := firingState 0 [] (some (dataTok .i32 [5, 6])) (some (predTok 2 2));
      let f := fireOf s;
      let a := f.readA opsLR false;
      let p := f.read .slotR 0 .bits;
      s.Fires f [a, p] 0 ∧ stdCheck 2 [(a, allFmts)] = none ∧ stdCheck 2 [(a, allFmts), (p, allFmts)] = none ∧
      tagAction f 0 (a.lane 0) 0 = some 0 ∧
      nextOf (exec (.steer opsLR) s) = some (s.results f 0 0 [(1, Shape.data .i32 2, a.pay)]) ∧
      nextOf (exec (.merge opsLR) s) = some (s.results f 0 0 (bothOut opsLR (Shape.data .i32 2) a.pay)) ∧
      nextOf (exec (.cmerge opsLR) s) = some (s.results f 0 0 [(0, Shape.data .i32 2, a.pay), (1, Shape.pred 2, 2)]) ∧
      given s (.gate opsLR) opsLR f 0 0 (Shape.data .i32 2) 32 2 (fun k => if k = 0 then 0 else 6)) ∧
    (let s := firingState 0 [9] (some (dataTok .i32 [5, 6])) none;
      let f := fireOf s;
      let a := f.readA opsLL false;
      let b := f.read .lit 0 a.fmt;
      s.fire = some f ∧ (∀ x ∈ f.consumed [a], x.poison = false) ∧ tagAction f 0 (a.lane 0) 0 = some 0 ∧
      s.Fires f [a, b] 0 ∧ stdCheck 2 [(a, allFmts), (b, allFmts)] = none ∧
      nextOf (exec (.copy opsLL) s) = some (s.results f 0 0 (bothOut opsLL (Shape.data .i32 2) a.pay)) ∧
      nextOf (exec (.pass opsLL) s) = some (s.results f 0 0 (bothOut opsLL (Shape.data .i32 2) a.pay)) ∧
      nextOf (exec (.sink opsLL) s) = some (s.issued f) ∧
      given s (.const opsLL) opsLL f 0 0 (Shape.data .i32 2) 32 2 (fun _ => 9)) ∧
    (let s := firingState 0 [] (some (dataTok .i32 [5, 6])) (some (dataTok .i32 [7, 8]));
      let f := fireOf s;
      let a := f.read .slotL 0 .i32;
      let b := f.read .slotR 0 .i32;
      f.want allFmts [.slotL, .slotR] = .i32 ∧ s.Fires f [a, b] 0 ∧ stdCheck 2 [(a, allFmts), (b, allFmts)] = none ∧
      tagAction f 0 (a.lane 0) 0 = some 0 ∧
      nextOf (exec (.join opsLR) s) = some (s.results f 0 0 (bothOut opsLR (Shape.data .i32 2) a.pay))) := by
  unfold State.Fires
  decide +kernel

/-- A context with two activations: the outer one 4 bits wide with two lanes and a live bound of 2, and one inside it. -/
def actCtx : Ctx :=
  { Ctx.bare with
    acts := [{ parent := 63, width := 4, granted := 3, declLanes := 2, lanes := 2, live := 2, recursive := false, deep := false },
             { parent := 0, width := 4, granted := 4, declLanes := 4, lanes := 4, live := 2, recursive := false, deep := false }] }

/-- `firingState` in that context, node 0 in activation 0. -/
def actState (w : Word) (lits : List Nat) (l r : Option Token) : State :=
  let s := firingState w lits l r;
  { s.modElem 0 fun e => e.modSlot 0 fun sl => { sl with nodeAct := [0] } with ctxs := [(0, actCtx)] }

/-- `alloc` of activation 1 with one instance live, `free`, and `reorder` in order and out of order. -/
theorem witness_ActivationOpcodeResults :
    (let s := (actState 0 [0x04000000] (some (dataTok .i32 [5, 6])) none).modElem 0 fun e =>
        e.modSlot 0 fun sl => { sl with live := [(1, 1)] };
      let o := { opsLR with ta := 5 };
      let f := fireOf s;
      let a := f.read .slotL 0 .bits;
      bitF (f.cw o) 31 26 = 1 ∧ s.Fires f [a] 0 ∧ s.exhOf f ≠ some true ∧ colourOf [a] ≤ (actAt f.acts 1).lanes ∧
      (actAt f.acts 1).lanes ≤ 32 ∧ a.poison = false ∧ tabNum f.slot.live 1 < (actAt f.acts 1).live ∧
      tagAction f 5 0 4 = some 0 ∧
      nextOf (exec (.alloc o) s) = some (((s.results f 0 0 (bothOut o (Shape.data .i32 4) (packLanes 32 [5, 6, 0, 0]))).modElem 0 fun e =>
        e.modSlot 0 fun sl => sl.liveSet 1 2).dropExh f)) ∧
    (let s := actState 0 [] (some (dataTok .i32 [5, 6])) none;
      let f := fireOf s;
      let a := f.readA opsLR false;
      s.fire = some f ∧ (∀ x ∈ f.consumed [a], x.poison = false) ∧ tagAction f 0 (a.lane 0) 0 = some 0 ∧
      nextOf (exec (.free opsLR) s) = some ((s.results f 0 0 (bothOut opsLR (Shape.data .i32 2) a.pay)).notice 0 0 0)) ∧
    (∀ n ∈ [(0 : Nat), 1],
      let t := { dataTok .i32 [5, 6] with nest := BitVec.ofNat 48 n };
      let s := actState 0 [] (some t) none;
      let f := fireOf s;
      s.fire = some f ∧ f.pair.opL = some t ∧ s.heldToken 0 0 0 f.nest = none ∧ f.slot.expected 0 0 = 0 ∧ f.f0 = n ∧
      tagAction f 0 5 0 = some (BitVec.ofNat 48 n) ∧
      (let s2 := (s.issued f).emitAll f [(0, t), (1, t)];
       let s3 := s2.modElem 0 fun e => e.modSlot 0 fun sl => sl.setExpected 0 0 1 (!(s2.elem 0).entryFree 0);
       s3.heldToken 0 0 0 1 = none ∧
       nextOf (exec (.reorder opsLR) s) = some (if n = 0 then s3 else (s.issued f).hold 0 0 t))) := by
  unfold State.Fires
  decide +kernel

/-- `pack` of part 1, `unpack` inside and beyond the token, `tagidx` of each kind, `chktag` of the right and a wrong value. -/
theorem witness_PartsAndTagFieldResults :
    (let s := actState 0 [0x00200000] (some (dataTok .i32 [1, 2, 3, 4])) (some (dataTok .i32 [7, 8]));
      let f := fireOf s;
      let a := f.read .slotL 1 .i32;
      let b := f.read .slotR 1 .i32;
      f.want allFmts [.slotL, .slotR] = .i32 ∧ bitF (f.cw opsLR) 31 26 = 0 ∧ bitF (f.cw opsLR) 25 21 = 1 ∧
      s.Fires f [a, b] 0 ∧ b.lanes.getD 2 = 2 ∧ a.fmt = b.fmt ∧ tagAction f 0 (a.lane 0) 0 = some 0 ∧
      given s (.pack opsLR) opsLR f 0 0 (Shape.data .i32 4) 32 4 (fun k => [1, 2, 7, 8].getD k 0)) ∧
    (∀ k ∈ [(1 : Nat), 2],
      let s := actState 0 [k * 2 ^ 21] (some (dataTok .i32 [1, 2, 3, 4])) none;
      let f := fireOf s;
      let a := f.readA opsLR true;
      s.Fires f [a] 0 ∧ tagAction f 0 (a.lane 0) 0 = some 0 ∧ (actAt f.acts 0).lanes ≤ 32 ∧
      (if k = 1 then given s (.unpack opsLR) opsLR f 0 0 (Shape.data .i32 2) 32 2 (fun j => j + 3) = true
       else nextOf (exec (.unpack opsLR) s) = some (s.issued f))) ∧
    (∀ k ∈ [(0x00000000, (9 : Nat)), (0x40100000, 4), (0x80000000, 8)],
      let s := actState 0 [k.1] (some { dataTok .i32 [1, 2] with nest := 9 }) none;
      let f := fireOf s;
      let a := f.readA opsLR true;
      s.Fires f [a] 0 ∧ stdCheck 2 [(a, allFmts)] = none ∧ tagAction f 0 (a.lane 0) 0 = some 9 ∧
      given s (.tagidx opsLR) opsLR f 9 0 (Shape.data .i32 2) 32 2 (fun _ => k.2)) ∧
    (∀ k ∈ [(9 : Nat), 8],
      let s := actState 0 [k] (some { dataTok .i32 [1, 2] with nest := 9 }) none;
      let f := fireOf s;
      let a := f.readA opsLR true;
      let b := f.read .none 1 .i32;
      let bad := poisonToken 0 9 (Shape.data .i32 2) 0 (s.nodeRec 0x67 0 0 0 0);
      bitF (f.cw opsLR) 27 27 = 0 ∧ s.Fires f [a, b] 0 ∧ stdCheck 2 [(a, allFmts), (b, intFmts)] = none ∧
      tagAction f 0 (a.lane 0) 0 = some 9 ∧
      nextOf (exec (.chktag opsLR) s) = some (if k = 9 then s.results f 9 0 (bothOut opsLR (Shape.data .i32 2) a.pay)
        else (s.issued f).emitAll f [(0, bad), (1, bad)])) := by
  unfold State.Fires
  decide +kernel

/-- Poison in slot R beside a good token in slot L. -/
theorem witness_PoisonOperandsGivePoison :
    ∀ p ∈ integerBinaryTable.map (fun q => (q.1, q.2.1, (false : Bool))) ++ floatBinaryTable.map (fun q => (q.1, [q.2.1], false))
        ++ integerCompareTable.map (fun q => (q.1, intFmts, true)) ++ floatCompareTable.map (fun q => (q.1, [q.2.1], true)),
      let fm := p.2.1.headD .bits;
      let s := firingState 0 [] (some (dataTok fm [1, 2])) (some { dataTok fm [0x1234] with poison := true });
      let f := fireOf s;
      let want := f.want p.2.1 [.slotL, .slotR];
      let a := f.read .slotL 0 want;
      let b := f.read .slotR 0 want;
      let sh := if p.2.2 then Shape.pred 2 else Shape.data (resultFmt p.2.1 a) 2;
      let t := poisonToken 0 0 sh 0 b.record;
      s.fire = some f ∧ (f.consumed [a, b]).find? (·.poison) = some b ∧
      s.unionAll 0 ((f.consumed [a, b]).map (·.plate)) = .ok 0 ∧
      nextOf (exec (p.1 opsLR) s) = some ((s.issued f).emitAll f [(0, t), (1, t)]) := by
  decide +kernel

/-- `add` is a computing opcode that goes on. -/
theorem witness_ComputingOpcodesFrame :
    elemOpcodeOf (.add opsLR) = some (0x20, opsLR) ∧ computing 0x20 = true ∧
    (nextOf (exec (.add opsLR) (firingState 0 [] (some (dataTok .i32 [1])) (some (dataTok .i32 [2]))))).isSome = true := by
  decide +kernel

/-! ### Memory, fence and system opcodes -/

/-- Two addresses (0 and 64) and the data of each form; `atom` adds. Literal 0 is the control word, literal 1 the upper half. -/
def memFire (m : MemForm) : State :=
  let data : Option Token :=
    match m with
    | .zero => some (dataTok .bits [64])
    | .atom => some (dataTok .i32 [1, 2])
    | .st | .sts | .hst | .wadd | .wclr => some (dataTok .fp32 [0x3F800000, 0x40000000])
    | _ => none;
  firingState 0 [if m = .atom then 0x18000000 else 0, 0] (some (dataTok .i32 (if m = .zero then [0] else [0, 64]))) data

/-- Every memory opcode passes its checks on those operands and starts its access; `atom` also as `cas`. -/
theorem witness_MemoryOpcodesStartTheirAccess :
    (∀ p ∈ memoryTable,
      let s := memFire p.2;
      let f := fireOf s;
      let cw := f.cw opsLR;
      let dfmt := fmtOf (bitF cw 28 26);
      let a := f.read .slotL 1 .bits;
      let b := f.read (if p.2.useB then .slotR else .none) 1 ((p.2.bFmts dfmt).headD .bits);
      let c := memColour false a b;
      s.Fires f [a, b] 0 ∧ memCheck p.2 false dfmt a b c (a.lane 0) = none ∧
      ∃ t ∈ nextOf (exec (p.1 opsLR) s), ∃ acc ∈ t.acc? s.nextId,
        t = ((({ (s.issued f).robPush f s.nextId (memStream cw f.nest) with nextId := s.nextId + 1 } : State).setAcc s.nextId
          { acc with lanes := memLanes p.2 dfmt false 0 a b c, parts := [], hold := .none, fail := none }).accResolve s.nextId) ∧
        acc.op = p.2.op 0 ∧ acc.handle = 0 ∧ acc.parts ≠ []) ∧
    (let s := firingState 0 [0x18001400, 0] (some (dataTok .i32 [0])) (some (dataTok .i32 [7, 9]));
      let f := fireOf s;
      let a := f.read .slotL 1 .bits;
      let b := f.read .slotR 1 .i32;
      fmtOf (bitF (f.cw opsLR) 28 26) = .i32 ∧ bitF (f.cw opsLR) 12 9 = 10 ∧ s.Fires f [a, b] 0 ∧
      memCheck .atom true .i32 a b 1 0 = none) := by
  unfold State.Fires
  decide +kernel

/-- An access of two lanes in one row of bank 0, whose checks are still to be made. -/
def sramAccess : State :=
  let a : Access :=
    { op := .load, pos := 0, slotIx := 0, ctx := 0, part := 0, node := 0, nest := 0, fmt := .fp32, lanesN := 2, dx := 0, dy := 31,
      handle := 0, readHandle := 0, lanes := [newLane 0 0 true 4 4 0 0, newLane 1 0xFFFFFC true 4 4 0 0], parts := [], hold := .none,
      fail := none, tagBad := false };
  { State.reset.setAcc 3 a with ctxs := [(0, Ctx.bare)] }

/-- Both lanes, at the two ends of folio 0, pass the checks of R28, and the access is sent. -/
theorem witness_CheckedSramAccessIsSent :
    ∃ a ∈ sramAccess.acc? 3, a.lanes ≠ [] ∧
      (∀ l ∈ a.lanes, l.place = none ∧ l.code = 0 ∧
        sramAccess.preCheck a.part l.logical l.va l.align a.op.modifies = .place (.sram l.va)) ∧
      (let t := sramAccess.accResolve 3;
       t.acc? 3 = some { a with lanes := a.lanes.map (fun l => { l with place := some (.sram l.va) }),
                                parts := partsOf (a.lanes.map fun l => { l with place := some (.sram l.va) }), hold := .none } ∧
       t.buf 0 4 1 = [.req 0 3 0]) := by
  decide +kernel

/-- Fences, `ordjoin`, `yield`, and `cfgsw` as a source and as a terminal. -/
theorem witness_OrderingAndSwitchOpcodeResults :
    (∀ mk ∈ [(Instr.fenceScE : ElemOps → Instr), .fenceScQ, .fenceScF, .fenceScD, .fenceScK, .fenceScX, .yield, .ordjoin],
      let s := firingState 0 [] (some (Token.ordering 0 0)) (some (dataTok .i32 [1]));
      let f := fireOf s;
      let a := f.readA opsLR false;
      let b := f.read .slotR 0 .bits;
      s.fire = some f ∧ (∀ x ∈ f.consumed [a], x.poison = false) ∧ (∀ x ∈ f.consumed [a, b], x.poison = false) ∧
      s.killPending f.ctx = none ∧ tagAction f 0 (a.lane 0) 0 = some 0 ∧
      nextOf (exec (mk opsLR) s) = some (s.results f 0 0 (bothOut opsLR Shape.ordering 0))) ∧
    (let s := firingState 0x10000000 [0] (some (dataTok .i32 [1])) none;
      let f := fireOf s;
      s.fire = some f ∧ f.slot.terminal 0 = false ∧ (f.readA opsLR true).poison = false ∧
      nextOf (exec (.cfgsw opsLR) s) = some ((s.issued f).emitAll f
        ((f.slot.switchDests (f.slot.word 0)).map fun q => (q.2, switchToken 0 0)))) ∧
    (let s := firingState 0x10000000 [0x80000000] (some (dataTok .i32 [1])) none;
      let f := fireOf s;
      s.fire = some f ∧ f.slot.terminal 0 = true ∧ nextOf (exec (.cfgsw opsLR) s) = some (s.issued f)) := by
  decide +kernel

/-- The system opcodes on a good operand: `mark` of marker 1, `trap` with report 5, `poison`, `probe`, `exit`, `send` to folio 0
and `launch` of a 64-byte record. -/
theorem witness_SystemOpcodeResults :
    (let s := firingState 0 [0x00400000] (some (dataTok .i32 [1, 2])) none;
      let f := fireOf s;
      let a := f.readA opsLR true;
      s.fire = some f ∧ a.poison = false ∧ tagAction f 0 (a.lane 0) 0 = some 0 ∧ s.Fires f [a] 0 ∧
      (nextOf (exec (.mark opsLR) s)).map (fun t => t.marks.map fun m => (m.marker, m.node)) = some [(1, some (0, 0, 0))] ∧
      given s (.probe opsLR) opsLR f 0 0 (Shape.data .i32 2) 32 2 (fun _ => s.probeItem f (f.cw opsLR) % 2 ^ 32) ∧
      nextOf (exec (.exit opsLR) s) = some ((s.issued f).beginEnd 0 1 0 1 0)) ∧
    (let s := firingState 0 [0x05000000] (some (dataTok .i32 [1, 2])) none;
      let f := fireOf s;
      let a := f.readA opsLR true;
      let r := s.nodeRec 0x90 0 0 0 5;
      let t := poisonToken 0 0 (Shape.data .i32 2) 0 (recSetRpt r);
      let u := poisonToken 0 0 (Shape.data .i32 2) 0 (s.nodeRec 0x91 0 0 0 1);
      s.fire = some f ∧ a.poison = false ∧ tagAction f 0 (a.lane 0) 0 = some 0 ∧ s.Fires f [a] 0 ∧
      nextOf (exec (.trap opsLR) s) = some ((((s.issued f).modCtx 0 fun c =>
          { c with fault := FaultRec.note { c.fault with ntrap := satAdd c.fault.ntrap 1 } r }).sendTrap 0 9 r
        (s.logOf 0 0) 0 0).emitAll f [(0, t), (1, t)]) ∧
      nextOf (exec (.poison opsLR) s) = some ((s.issued f).emitAll f [(0, u), (1, u)])) ∧
    (let t := dataTok .i32 [1, 2];
      let s := firingState 0 [0x00C40000] (some t) none;
      let f := fireOf s;
      s.fire = some f ∧ (f.readA opsLR true).poison = false ∧ tagAction f 0 1 0 = some 0 ∧ f.pair.opL = some t ∧
      s.mapEntry f.part (bitF (f.cw opsLR) 31 24) = some { st := .mapped, ro := false, gfolio := 0, target := none } ∧
      (nextOf (exec (.send opsLR) s)).map (fun u => u.msgs.map fun m => (m.quire, m.chan)) = some [(3, 1)] ∧
      (nextOf (exec (.send opsLR) s)).map (fun u => u.msgs.map fun m => (m.sender, m.tok)) = some [(some (0, 0, 0), t)]) ∧
    (let s := firingState 0 [] (some (dataTok .i32 [1, 2, 3, 4, 5, 6, 7, 8, 9, 10, 11, 12, 13, 14, 15, 16])) none;
      let f := fireOf s;
      let a := f.readA opsLR false;
      s.fire = some f ∧ a.poison = false ∧ a.ord = false ∧ a.lanes = some 16 ∧
      (nextOf (exec (.launch opsLR) s)).map (fun t => t.toSpine.map fun l => (l.part, l.bytes.length)) = some [(0, 64)] ∧
      (nextOf (exec (.launch opsLR) s)).map (fun t => t.toSpine.map fun l => (l.parent, l.elemAcc)) = some [(some 0, some (0, 0))]) := by
  unfold State.Fires
  refine ⟨?_, ?_, ?_, ?_⟩ <;> decide +kernel

/-! ### Bank ports, channels and error correction -/

/-- The reset machine with a live context 0 and access 3 of that context, of `lanes` and `parts`. -/
def accState (op : AccOp) (lanes : List LaneAcc) (parts : List Part) (hold : Hold) : State :=
  let a : Access :=
    { op := op, pos := 0, slotIx := 0, ctx := 0, part := 0, node := 0, nest := 0, fmt := .fp32, lanesN := 1, dx := 0, dy := 31,
      handle := 0, readHandle := 0, lanes := lanes, parts := parts, hold := hold, fail := none, tagBad := false };
  { State.reset.setAcc 3 a with ctxs := [(0, Ctx.bare)] }

/-- Lane 0 of `size` bytes at a place, with data. -/
def laneAtPlace (pl : Place) (size data : Nat) : LaneAcc :=
  { newLane 0 0 true 4 size data 0 with place := some pl }

/-- The part of lane 0 at a home. -/
def partAt (h : Home) (st : PartSt) : Part := { home := h, lanes := [0], groups := [[0]], next := 0, st := st }

/-- The two neighbouring bytes, 0x11 below and 0x22 above, of the place that is written. -/
def fenced (m : Memory) (a n : Nat) : Bool := memByte m (a - 1) == 0x11 && memByte m (a + n) == 0x22

/-- Each operation of one lane at the last bytes of a plot of bank 0, between two bytes that stay. -/
theorem witness_PortPerformsOneLane :
    ∀ p ∈ [(AccOp.load, (4 : Nat), (0 : Nat), (0 : Nat)), (.store, 4, 0xDDCCBBAA, 0xDDCCBBAA), (.wrd, 16, 0, 0),
        (.wclr, 16, 0, wideClear 0), (.wadd, 16, 0x3F800000, wideAdd 0 0x3F800000), (.atom 0, 4, 5, atomNew 0 0 5 0)],
      let a := 8192 - 32;
      let l := laneAtPlace (.sram a) p.2.1 p.2.2.1;
      let s0 := accState p.1 [l] [partAt (.bank 0) .admitted] .none;
      let s := { s0.setBank 0 { s0.bank 0 with queue := [(3, 0), (4, 0)] } with sram := [(a - 1, 0x11), (a + p.2.1, 0x22)] };
      s.sram.wf = true ∧ s.errs = [] ∧ (s.bank 0).queue = [(3, 0), (4, 0)] ∧ p.1 ≠ .zero ∧ s.zeroPending [l] = false ∧
      s.placeHandle (.sram a) = 0 ∧ s.union 0 0 = .ok 0 ∧ s.grown (.sram a) 0 = .ok 0 ∧
      (∃ t ∈ nextOf (exec (.portOperation 0) s), ∃ a' ∈ t.acc? 3, a'.parts.map (·.st) = [.response] ∧
        (t.bank 0).queue = [(4, 0)] ∧ t.buf 0 4 2 = [.resp 0 3 0] ∧ t.hbm = s.hbm ∧ t.ctl = s.ctl ∧ fenced t.sram a p.2.1 = true ∧
        memRead t.sram a p.2.1 = p.2.2.2) := by
  decide +kernel

/-- A request in a link's buffer, banks that have checked, a replay, and zeroing at the last row and piece. -/
theorem witness_BankEventResults :
    (let l := laneAtPlace (.sram 0) 4 0;
      let s0 := accState .load [l] [partAt (.bank 0) .request] .none;
      let s := (s0.setBuf 0 1 1 [.req 0 3 0]).setBank 0 { s0.bank 0 with queue := List.replicate 7 (9, 0) };
      s.buf 0 1 1 = .req 0 3 0 :: [] ∧ s.awake 0 = true ∧ (s.bank 0).queue.length < 8 ∧
      (∃ t ∈ nextOf (exec (.bankRequestEnqueue 0 1) s), (t.bank 0).queue = (s.bank 0).queue ++ [(3, 0)] ∧
        (∃ a ∈ s.acc? 3, t.acc? 3 = some { a with parts := [{ partAt (.bank 0) .request with st := .queued }] }) ∧
        t.bufs = (s.setBuf 0 1 1 []).bufs)) ∧
    (let ls := [laneAtPlace (.sram 0) 4 0, { laneAtPlace (.sram 65536) 4 0 with lane := 1 }];
      let s := accState .load ls [partAt (.bank 0) .checked, { partAt (.bank 1) .checked with lanes := [1] }] .none;
      ∃ a ∈ s.acc? 3, (a.parts.filter Part.isBank).length > 1 ∧ (∀ p ∈ a.parts.filter Part.isBank, p.st = .checked) ∧
        (∀ l ∈ a.bankLanes, l.code ≠ 0x50) ∧ s.accOvf a = none ∧
        (∃ t ∈ nextOf (exec (.multiBankDecision 3) s), t.acc? 3 = some a.admitted)) ∧
    (let s0 := accState .load [laneAtPlace (.sram 0) 4 0] [] .missed;
      let s := (s0.setPlot 0 { s0.plot 0 with res := true }).setBarrow 0
        { tables := [], running := [], misses := [{ ctx := 0, lplot := 0, accs := [3, 4] }] };
      s.physPlot (s.partOf 0) 0 = some 0 ∧ (s.plot 0).res = true ∧
      nextOf (exec (.missReplay 0 0) s) = some (((s.setBarrow 0
        { tables := [], running := [], misses := [{ ctx := 0, lplot := 0, accs := [4] }] }).modAcc 3
          fun a => { a with hold := .none }).accSend 3)) ∧
    (∀ r ∈ [(63 : Nat), 62],
      let s0 := State.reset.setPlot 2 { State.reset.plot 2 with zero := true };
      let s := { s0 with zeroRows := [(2, r)], sram := [(8192 + 64 * r - 1, 0x11), (8192 + 64 * r, 1), (8192 + 64 * r + 64, 0x22)] };
      (s.bank 0).nonQueueFree = true ∧ s.zeroNext 0 = some 2 ∧ s.zeroRow 2 < 64 ∧ s.sram.wf = true ∧
      (∃ t ∈ nextOf (exec (.placementZeroing 0) s), (t.bank 0).lastNonQueue = true ∧
        t.sram = [(8192 + 64 * r - 1, 0x11), (8192 + 64 * r + 64, 0x22)] ∧
        (if r = 63 then t.plot 2 = { s.plot 2 with zero := false } else t.plot 2 = s.plot 2 ∧ t.zeroRow 2 = 63))) ∧
    (∀ n ∈ [(0 : Nat), 4032],
      let l := { laneAtPlace (.sram 4096) 4096 0 with align := 64 };
      let s0 := accState .zero [l] [{ partAt (.bank 0) .admitted with next := n }] .none;
      let s := { s0.setBank 0 { s0.bank 0 with zeroing := some (3, 0) } with sram := [(4096 + n, 7), (4096 + n + 64, 0x22)] };
      (s.bank 0).zeroing = some (3, 0) ∧ (s.bank 0).nonQueueFree = true ∧ s.sram.wf = true ∧
      (∃ a ∈ s.acc? 3, a.bankLanes = l :: [] ∧ a.parts.map (·.next) = [n]) ∧
      (∃ t ∈ nextOf (exec (.zeroPieceWrite 0) s), t.sram = [(4096 + n + 64, 0x22)] ∧
        (t.bank 0).zeroing = if n = 0 then some (3, 0) else none)) := by
  refine ⟨?_, ?_, ?_, ?_, ?_⟩ <;> decide +kernel

/-- Scrubbing in a quiet machine, a corrected word that a read has met, and single and double errors. -/
theorem witness_ErrorCorrectionEvents :
    ((State.reset.bank 0).queue = [] ∧ (State.reset.bank 0).zeroing = none ∧ State.reset.zeroPlot 0 = none ∧
      (∃ t ∈ nextOf (exec (.scrubRow 0) State.reset), (t.bank 0).scrub = 1 ∧ t.errs = [])) ∧
    (let s := later State.reset 4096;
      (s.bank 0).nonQueueFree = true ∧ s.cyclesSince (0 / 4096) (s.bank 0).lastScrub ≥ 4096) ∧
    (let s := { State.reset with errs := [{ store := .bank, addr := 1, unc := false, met := true }] };
      nextOf (exec (.eccWriteback 0) s) = some State.reset) ∧
    (∀ n ∈ [(1 : Nat), 2], (nextOf (exec (.softError 0 5 n) State.reset)).map (fun t => t.errs) =
      some [{ store := .bank, addr := 5, unc := n == 2, met := false }]) := by
  refine ⟨by decide +kernel, ⟨by decide +kernel, ?_⟩, by decide +kernel, by decide +kernel⟩
  exact later_ge _ _ _

/-- A request at its channel, a store performed there, the D bit of a leaf, the last response, and a walk that has ended. -/
theorem witness_ChannelEventResults :
    (let s := accState .load [laneAtPlace (.hbm 0 64 false) 4 0] [partAt (.chan 0) .request] .none;
      ∃ a ∈ s.acc? 3, s.retired.contains (.chan 0) = false ∧ (s.chan 0).slots.length < 64 ∧ s.stackAwake (0 * 2 ^ 31) = true ∧
        nextOf (exec (.channelRequestArrival 3 0) s) = some ((s.setChan 0 { slots := [(3, 0)] }).setAcc 3
          (a.modPart 0 fun p => { p with st := .queued }))) ∧
    (let s0 := accState .store [laneAtPlace (.hbm 128 64 false) 4 0xDDCCBBAA] [partAt (.chan 0) .queued] .none;
      let s := { s0.setChan 0 { slots := [(3, 0)] } with hbm := [(127, 0x11), (132, 0x22)] };
      s.hbm.wf = true ∧ s.errs = [] ∧ (∃ a ∈ s.acc? 3, s.chanYields 0 a.part = false ∧ s.grown (.hbm 128 64 false) a.handle = .ok 0) ∧
      (∃ t ∈ nextOf (exec (.channelPerform 0 0) s), t.sram = [] ∧ memRead t.hbm 127 6 = 0x22DDCCBBAA11 ∧
        (t.acc? 3).map (·.parts) = some [{ partAt (.chan 0) .response with groups := [] }])) ∧
    (let l := { laneAtPlace (.hbm 128 64 false) 4 0 with dirty := some 64 };
      let s := accState .store [l] [partAt (.chan 0) .queued] .none;
      ∃ a ∈ s.acc? 3, nextOf (exec (.dirtyBitOr 3 0) s) =
        some ((s.modLeaf 64 fun e => e ||| 2 ^ 7).setAcc 3 { a with lanes := [{ l with dirty := none }] })) ∧
    (let s0 := accState .load [{ laneAtPlace (.sram 0) 4 0 with old := 7 }] [partAt (.bank 0) .response] .none;
      let s := (s0.setBuf 0 1 2 [.resp 0 3 0]).setElem 0
        { Elem.fresh with rob := [{ slotIx := 0, node := 0, acc := 3, stream := 0, done := none }] };
      ∃ a ∈ s.acc? 3, s.respPort 0 3 0 = some 1 ∧ s.union a.handle a.readHandle = .ok 0 ∧
        (let tok := resultToken 0 0 a.shape 0 a.result;
         (nextOf (exec (.memoryResponseArrival 3 0) s)).map (fun t => (t.elem 0).rob.map (·.done)) = some [some [(0, tok), (31, tok)]])) ∧
    (let s := accState .load [newLane 0 0 true 4 4 0 0] [] .walk;
      (∃ a ∈ s.acc? 3, a.hold = .walk) ∧ (∀ m ∈ s.misses, m.accs.contains 3 = false) ∧
      nextOf (exec (.heldAccessResume 3) s) = some (s.accResolve 3)) := by
  refine ⟨?_, ?_, ?_, ?_, ?_⟩ <;> decide +kernel

/-! ### Tokens, the output stage and the caches of the fabric -/

/-- A token for a node of one slot, one for a node of two whose partner is missing, a switch token with one still to come, and a
token that crosses a link to the east. -/
theorem witness_TokenArrivalResults :
    (let t := dataTok .i32 [7];
      let s := (slotState (.copy opsL) id).setBuf 0 4 0 [.tok 0 t];
      let sl := slotAt s;
      s.awake 0 = true ∧ s.buf 0 4 0 = .tok 0 t :: [] ∧ t.kind = 0 ∧ t.isSwitch = false ∧ s.alive 0 = true ∧
      slotOfCtx (s.elem 0).slots 0 = some (0, sl) ∧ tabGet (s.elem 0).slots 0 = some sl ∧ s.parked 0 0 = false ∧
      (s.elem 0).firstStuck 0 = none ∧ sl.twoSlot 0 = false ∧ s.arriveForm 0 sl t = t ∧ t.net = .data ∧
      (s.elem 0).fifo.length < 16 ∧ sl.nodeSwitched 0 = false ∧
      (∃ u ∈ nextOf (exec (.tokenArrival 0 4 0) s), (u.elem 0).fifo =
          [(0, { node := 0, opL := some t, opR := none, ordL := none, switch := false })] ∧ u.bufs = [])) ∧
    (let t := dataTok .i32 [7];
      let s := (slotState (.add opsLR) id).setBuf 0 4 0 [.tok 0 t];
      let sl := slotAt s;
      s.awake 0 = true ∧ s.alive 0 = true ∧ slotOfCtx (s.elem 0).slots 0 = some (0, sl) ∧
      tabGet (s.elem 0).slots 0 = some sl ∧ s.parked 0 0 = false ∧ (s.elem 0).firstStuck 0 = none ∧ sl.twoSlot 0 = true ∧
      s.arriveForm 0 sl t = t ∧ s.inStore 0 sl t = [] ∧ sl.spill = 0 ∧ (s.elem 0).entryFree 0 = true ∧
      sl.nodeSwitched 0 = false ∧ (sl.needs 0).all (fun q => (partIn [(sl.partOf t, t)] q).isSome) = false ∧
      (∃ u ∈ nextOf (exec (.tokenArrival 0 4 0) s), (u.elem 0).mstore = [{ tok := t, role := .operand, bad := false }] ∧
        (u.elem 0).fifo = [])) ∧
    (let t := { switchToken 0 5 with slotR := true };
      let s := (slotState (.add opsLR) fun sl => { sl with nin := [(0, 1), (1, 2)] }).setBuf 0 4 0 [.tok 0 t];
      let sl := slotAt s;
      s.awake 0 = true ∧ t.kind = 0 ∧ t.isSwitch = true ∧ s.alive 0 = true ∧ slotOfCtx (s.elem 0).slots 0 = some (0, sl) ∧
      tabGet (s.elem 0).slots 0 = some sl ∧ s.parked 0 0 = false ∧ (s.elem 0).firstStuck 0 = none ∧
      sl.tokensIn 1 = false ∧ (sl.switchesIn 1).tokens + 1 ≠ tabNum sl.nin 1 ∧ sl.nodeSwitched 0 = false ∧
      (∃ u ∈ nextOf (exec (.switchTokenArrival 0 4) s), (slotAt u).switchesIn 1 = { tokens := 1, sum := 5 })) ∧
    (let f := Flit.tok 1 (dataTok .i32 [7]);
      let s := State.reset.setBuf 0 4 0 [f];
      nextDir 0 1 = 1 ∧ s.wantsLink 0 4 0 1 = true ∧ s.linkTurn 0 0 1 = true ∧
      (∃ u ∈ nextOf (exec (.linkTransfer 0 4 0) s), u.buf (neighbour 0 1) 3 0 = [f] ∧ u.elems = s.elems)) := by
  refine ⟨?_, ?_, ?_, ?_⟩ <;> decide +kernel

/-- A result that leaves, a deliverable entry, an accepted message, a launch response, and a routed result. -/
theorem witness_OutputAndReorderResults :
    (let o : OutTok := { slotIx := 0, node := 0, dest := 0, tok := dataTok .i32 [7] };
      let s := (slotState (.copy opsL) id).modElem 0 fun e => { e with out := [o] };
      let sl := slotAt s;
      (s.elem 0).out[0]? = some o ∧ tabGet (s.elem 0).slots 0 = some sl ∧ s.alive sl.ctx = true ∧
      (∃ u ∈ (s.setElem 0 { s.elem 0 with out := [] }).sendBy 0 4 0 0 (s.route 0 sl 0 0 o.tok).1 (s.route 0 sl 0 0 o.tok).2,
        nextOf (exec (.outputStageDepart 0 0) s) = some u ∧ (u.buf 0 4 0).length = 1)) ∧
    (let t := dataTok .i32 [7];
      let r : RobEntry := { slotIx := 0, node := 0, acc := 3, stream := 0, done := some [(0, t)] };
      let s := (slotState (.ld opsL) id).modElem 0 fun e => { e with rob := [r] };
      robPick [] (s.elem 0).rob = some r ∧ (tabGet (s.elem 0).slots r.slotIx).isSome = true ∧
      (∃ f ∈ s.fireAt 0 0 0, nextOf (exec (.robRelease 0) s) =
        some ((s.modElem 0 fun e => { e with rob := [] }).emitAll f [(0, t)]))) ∧
    (let t := dataTok .i32 [7];
      let m : MsgIn := { quire := 0, chan := 1, tok := t, sender := some (0, 0, 0), accepted := true, dx := 0, dy := 31, outTok := t };
      let s := { slotState (.send opsL) id with msgs := [m] };
      s.msgs[0]? = some m ∧ s.alive 0 = true ∧
      (∃ f ∈ s.fireAt 0 0 0, nextOf (exec (.sendAcceptance 0) s) =
        some (({ s with msgs := [] } : State).emitAll f [(0, t), (31, t)]))) ∧
    (∀ code ∈ [(0 : Nat), 0xC2],
      let s0 := accState .load [newLane 0 0 true 4 4 0 0] [] .none;
      let s := { (s0.setElem 0 { Elem.fresh with rob := [{ slotIx := 0, node := 0, acc := 3, stream := 0, done := none }] }) with
                 responses := [(0, 3, code)] };
      ∃ a ∈ s.acc? 3,
        (code = 0 → nextOf (exec (.launchResponse 0) s) = ({ s with responses := [] } : State).accFinish 3 ∧
          (({ s with responses := [] } : State).accFinish 3).isSome = true) ∧
        (code ≠ 0 → nextOf (exec (.launchResponse 0) s) = some (({ s with responses := [] } : State).accFail 3
          (s.nodeRec code a.ctx 0 a.node 0)))) ∧
    (let t := dataTok .i32 [7];
      let s := { State.reset with ctxs := [(0, Ctx.bare)] };
      let w := (Slot.bare 0).dests.headD (0, 0);
      entryKind w.1 = 0 ∧ s.mapEntry (s.partOf 0) 0 = some { st := .mapped, ro := false, gfolio := 0, target := none } ∧
      posOfLog (entryX w.1 0) (entryY w.1 0) = 0 ∧ (s.buf 0 4 0).length < 2 ∧
      (∃ u ∈ s.sendBy 0 4 0 0 w.1 t, (u.buf 0 4 0).length = 1)) := by
  refine ⟨?_, ?_, ?_, ?_, ?_⟩ <;> decide +kernel

/-- A spill, a search that finds the partner, a victim, a slot that comes back, a parked token, a notice, a parked `alloc` and a
switched memory node. -/
theorem witness_CacheAndOverflowEvents :
    (let e : OvfEntry := { pos := 0, ctx := 0, tok := dataTok .i32 [7], what := .operand, deep := false, upset := 0 };
      let s := State.reset.setOvf 0 { State.reset.ovf 0 with spilling := [e] };
      (s.ovf 0).spilling[0]? = some e ∧
      nextOf (exec (.spillWrite 0 0) s) = some (s.setOvf 0 { s.ovf 0 with entries := [e], spilling := [] })) ∧
    (let t := dataTok .i32 [7];
      let u := { dataTok .i32 [8] with slotR := true };
      let a : Aside := { tok := t, port := 4 };
      let e : OvfEntry := { pos := 0, ctx := 0, tok := u, what := .operand, deep := false, upset := 0 };
      let s0 := (slotState (.add opsLR) fun sl => { sl with spill := 1 }).modElem 0 fun e => { e with aside := [a] };
      let s := s0.setOvf 0 { s0.ovf 0 with entries := [e] };
      let sl := slotAt s;
      let s1 := s.modElem 0 fun e => { e with aside := [] };
      (s.elem 0).aside[0]? = some a ∧ slotOfCtx (s.elem 0).slots 0 = some (0, sl) ∧
      (∃ v ∈ s1.matchOperand 0 0 sl t (s1.inStore 0 sl t ++ s1.inOvf 0 sl t) true false 4,
        nextOf (exec (.overflowSearchDone 0 0) s) = some v ∧ (v.elem 0).fifo.length = 1)) ∧
    (let s := (slotState (.add opsLR) id).modElem 0 fun e =>
        { e with fetching := [9], slots := e.slots ++ [(1, { Slot.bare 0 with ctx := 1, lastIssue := 5 }), (2, { Slot.bare 0 with ctx := 2, lastIssue := 6 }),
                                                     (3, { Slot.bare 0 with ctx := 3, lastIssue := 7 })]
                 mstore := [{ tok := dataTok .i32 [7], role := .operand, bad := false }] };
      (s.elem 0).oldestVictim = some (0, slotAt s) ∧ (s.elem 0).fetching ≠ [] ∧ 4 ≤ (s.elem 0).slotsUsed ∧ (s.elem 0).aside = [] ∧
      (∃ t ∈ nextOf (exec (.slotEviction 0 0) s), tabGet (t.elem 0).backing 0 = some (slotAt s) ∧
        (t.elem 0).slots.map (·.1) = [1, 2, 3] ∧ (t.elem 0).mstore = [])) ∧
    (let s := State.reset.setElem 0 { Elem.fresh with fetching := [0], backing := [(0, Slot.bare 0)] };
      (s.elem 0).fetching.contains 0 = true ∧ tabGet (s.elem 0).backing 0 = some (Slot.bare 0) ∧ (s.elem 0).freeSlot = some 0 ∧
      (s.elem 0).slotsUsed < 4 ∧ (tabGet (s.elem 0).backingOps 0).getD [] = []) ∧
    (let e : OvfEntry := { pos := 0, ctx := 0, tok := dataTok .i32 [7], what := .park, deep := false, upset := 0 };
      let s0 := slotState (.copy opsL) id;
      let s := s0.setOvf 0 { s0.ovf 0 with entries := [e] };
      let sl := slotAt s;
      slotOfCtx (s.elem 0).slots 0 = some (0, sl) ∧ listFind (fun e => e.isPark 0 0) (s.ovf 0).entries 0 = some (0, e) ∧
      (∃ u ∈ (s.setOvf 0 { s.ovf 0 with entries := [] }).take 0 0 sl e.tok 4,
        nextOf (exec (.parkedTokenReplay 0 0) s) = some u)) ∧
    (let s := (slotState (.alloc opsL) fun sl => { sl with live := [(1, 1)] }).setBuf 0 4 0 [.notice 0 0 1 0];
      let sl := slotAt s;
      s.awake 0 = true ∧ slotOfCtx (s.elem 0).slots 0 = some (0, sl) ∧ tabGet (s.elem 0).slots 0 = some sl ∧ 0 < tabNum sl.live 1 ∧
      (∃ t ∈ nextOf (exec (.freeNotice 0 4) s), tabNum (slotAt t).live 1 = 0)) ∧
    (let o := { opsL with ta := 5 };
      let p : Pair := { node := 0, opL := some (dataTok .i32 [5, 6]), opR := none, ordL := none, switch := false };
      let e : OvfEntry := { pos := 0, ctx := 0, tok := dataTok .i32 [5, 6], what := .alloc p true false, deep := false, upset := 0 };
      let s0 := { slotState (.alloc o) fun sl => { sl with lits := [0x04000000], nodeAct := [0] } with ctxs := [(0, actCtx)] };
      let s := s0.setOvf 0 { s0.ovf 0 with entries := [e] };
      let sl := slotAt s;
      (s.ovf 0).entries[0]? = some e ∧ slotOfCtx (s.elem 0).slots 0 = some (0, sl) ∧ tabGet (s.elem 0).slots 0 = some sl ∧
      s.mayIssue 0 = true ∧ wSa (sl.word 0) = 0 ∧ s.staged 0 + emitCount (sl.word 0) ≤ 8 ∧
      bitF (sl.lit (wLx (sl.word 0))) 31 26 = 1 ∧ tabNum sl.live 1 < (actAt actCtx.acts 1).live ∧
      e.tok.colour ≤ (actAt actCtx.acts 1).lanes ∧ bitF (sl.word 0) 7 4 = 5 ∧
      (∃ t ∈ nextOf (exec (.parkedAllocFire 0 0) s), tabNum (slotAt t).live 1 = 1 ∧ (t.ovf 0).entries = [])) ∧
    (let p : Pair := { node := 0, opL := none, opR := none, ordL := none, switch := true };
      let s := (slotState (.ld opsL) id).modElem 0 fun e => { e with fifo := [(0, p)] };
      let sl := slotAt s;
      (s.elem 0).fifo.find? (fun q => q.1 == 0 && q.2.switch && q.2.node == 0) = some (0, p) ∧
      tabGet (s.elem 0).slots 0 = some sl ∧ opcRob (wOpc (sl.word 0)) = true ∧ s.mayIssue sl.ctx = true ∧
      (∀ r ∈ (s.elem 0).rob, r.slotIx ≠ 0 ∨ r.node ≠ 0) ∧ s.staged 0 + (sl.switchOut 0).length ≤ 8 ∧
      nextOf (exec (.memoryNodeSwitchEmit 0 0 0) s) = some (s.switchIssue 0 0 p)) := by
  refine ⟨?_, ?_, ?_, ?_, ?_, ?_, ?_, ?_⟩ <;> decide +kernel

/-! ### The control cores -/

/-- Destinations 0 and 9 with three pairs of sources. -/
def aluForms : List (BitVec 5 × BitVec 5 × BitVec 5) := [(0, 1, 2), (0, 2, 1), (0, 1, 3), (9, 1, 2), (9, 2, 1), (9, 1, 3)]

/-- A running task with extreme operands: every operation, shift, branch and jump, with x0 and a misaligned target among them. -/
theorem witness_ControlCoreResults :
    (let s := taskState [0x80000000, 0xFFFFFFFF, 0, 6] id;
      let r := runOf s;
      s.running = some r ∧
      (aluTable.all fun p => aluForms.all fun q =>
        decide (nextOf (exec (p.1 q.1 q.2.1 q.2.2) s) = some (s.afterInstr q.1 (p.2 (r.k.reg q.2.1) (r.k.reg q.2.2)) 12))) = true ∧
      (aluImmTable.all fun p =>
        decide (nextOf (exec (p.1 9 1 0x7FFF) s) = some (s.afterInstr 9 (p.2 0x80000000 0xFFFFFFFF) 12))) = true ∧
      (shiftImmTable.all fun p => decide (nextOf (exec (p.1 9 1 31) s) = some (s.afterInstr 9 (p.2 0x80000000 31) 12))) = true ∧
      nextOf (exec (.lui 9 0xFFFFF) s) = some (s.afterInstr 9 0xFFFFF000 12)) ∧
    (let s := taskState [0x80000000, 0xFFFFFFFF, 0, 6] id;
      let r := runOf s;
      s.running = some r ∧
      (branchTable.all fun p =>
        decide (nextOf (exec (p.1 1 2 0x7FFF) s) = some (s.afterInstr 0 0 (if p.2 0x80000000 0xFFFFFFFF then 4 else 12)))) = true ∧
      nextOf (exec (.jal 9 0xFFFFF) s) = some (s.afterInstr 9 12 4) ∧
      nextOf (exec (.jalr 9 3 0x7FFC) s) = some (s.afterInstr 9 12 0xFFFFFFFC) ∧
      nextOf (exec (.jalr 9 4 0) s) = some (s.qccTrap r 0x11 (s.ctlWord 0 8) 6)) := by
  refine ⟨⟨?_, ?_, ?_, ?_, ?_⟩, ⟨?_, ?_, ?_, ?_, ?_⟩⟩ <;> decide +kernel

/-- Loads and stores at the last word of control memory, and an `amo` that adds and one that compares. -/
theorem witness_ControlMemoryResults :
    (let s := { taskState [0xFFFC, 0xDDCCBBAA] id with ctl := [(0xFFFB, 0x11), (0xFFFC, 0x80), (0xFFFD, 0xFF)] };
      let r := runOf s;
      s.running = some r ∧ s.errs = [] ∧ s.union r.t.set (s.regionSet 0 15) = .ok 0 ∧ s.union (s.regionSet 0 15) 0 = .ok 0 ∧
      s.ctl.wf = true ∧
      (∀ p ∈ ctlLoads, (nextOf (exec (p.1 9 1 0) s)).map (fun t => (t.qcc 0).reg 9) = some (p.2.2 (0xFF80 % 256 ^ p.2.1))) ∧
      (∀ p ∈ ctlStores, (nextOf (exec (p.1 1 2 0) s)).map (fun t => memRead t.ctl 0xFFFB 5) =
        some (0x11 + 256 * (0xDDCCBBAA % 256 ^ p.2) + 256 * 256 ^ p.2 * (0xFF80 / 256 ^ p.2))) ∧
      (∀ q ∈ [((0 : BitVec 4), 0xDDCDBB2A), (10, 0xFF80)],
        (nextOf (exec (.amo 9 1 2 0 q.1) s)).map (fun t => ((t.qcc 0).reg 9, memRead t.ctl 0xFFFC 4)) = some (0xFF80, q.2))) := by
  decide +kernel

/-- A word of a resident plot is loaded, stored and added to. -/
theorem witness_GlobalAccessResults :
    (let s0 := taskState [0x1FFC, 0xDDCCBBAA] id;
      let s := { s0.setPlot 1 { s0.plot 1 with res := true } with sram := [(0x1FFC, 0x80)] };
      let r := runOf s;
      s.running = some r ∧ s.errs = [] ∧ s.sram.wf = true ∧ s.awake (0x1FFC / 2 ^ 24) = true ∧ (s.plot (0x1FFC / 4096)).res = true ∧
      (s.plot (0x1FFC / 4096)).zero = false ∧ s.preCheck r.part false 0x1FFC 4 false = .place (.sram 0x1FFC) ∧
      s.preCheck r.part false 0x1FFC 4 true = .place (.sram 0x1FFC) ∧ s.union r.t.set (s.placeHandle (.sram 0x1FFC)) = .ok 0 ∧
      s.grown (.sram 0x1FFC) r.t.set = .ok 0 ∧
      (nextOf (exec (.lwg 9 1 0) s)).map (fun t => (t.qcc 0).reg 9) = some 0x80 ∧
      (nextOf (exec (.swg 1 2 0) s)).map (fun t => memRead t.sram 0x1FFC 4) = some 0xDDCCBBAA ∧
      (nextOf (exec (.amo 9 1 2 1 0) s)).map (fun t => ((t.qcc 0).reg 9, memRead t.sram 0x1FFC 4)) = some (0x80, 0xDDCCBC2A)) := by
  decide +kernel

/-! ### Tasks, system words, traps and commands -/

/-- `tend`, `tret`, `tarm`, `tprio`, `trap`, `tsend` in its three courses, `tpoll` with and without a message, and `fence`. -/
theorem witness_TaskInstructionResults :
    (let s := taskState [] (·.setChan 1 [dataTok .i32 [1], dataTok .i32 [2]]);
      let r := runOf s;
      s.running = some r ∧
      nextOf (exec .tend s) = some (s.setQcc 0 { r.k with task := none, chans := [(1, [dataTok .i32 [2]])] }) ∧
      nextOf (exec .tret s) = some (s.setQcc 0 { r.k with task := none }) ∧
      (nextOf (exec (.tarm 1 5) s)).map (fun t => (t.qcc 0).armed) = some [5] ∧
      (nextOf (exec (.tprio 7 5) s)).map (fun t => (t.qcc 0).prio) = some [(5, 7)] ∧
      nextOf (exec (.qccTrap 3) s) = some ((s.sendQccTrap 0 (s.trapRec r 0x90 (s.ctlWord 0 8) 3) 0).afterInstr 0 0 12)) ∧
    (let s := taskState [0x00040000, 0x00000001, 0xFFFC, 0] id;
      let full := taskState [0x00040000] fun k => { k with outq := List.replicate 8 (0, 1, Token.blank 0) };
      s.running = some (runOf s) ∧ s.tsendTo (runOf s) 0x00040000 = some (some 0) ∧ s.tsendTo (runOf s) 1 = none ∧
      full.running = some (runOf full) ∧ full.tsendTo (runOf full) 0x00040000 = some (some 0) ∧ (runOf full).k.outq.length ≥ 8 ∧
      s.union 0 (s.regionSet 0 15) = .ok 0 ∧
      nextOf (exec (.tsend 9 2 4 0) s) = some (s.afterInstr 9 2 12) ∧
      nextOf (exec (.tsend 9 1 4 0) full) = some (full.afterInstr 9 1 12) ∧
      (nextOf (exec (.tsend 9 1 3 0) s)).map (fun t => (t.qcc 0).outq.map fun m => (m.1, m.2.1)) = some [(0, 1)]) ∧
    (let m := dataTok .i32 [0xDDCCBBAA, 5];
      let s := taskState [2, 0xFFF8, 1] (·.setChan 2 [m]);
      s.running = some (runOf s) ∧ ((runOf s).k.chan 2)[0]? = some m ∧ 0 < m.bytes ∧ m.bytes = 8 ∧
      s.union 0 m.plate = .ok 0 ∧ s.union (s.regionSet 0 15) 0 = .ok 0 ∧ s.ctl.wf = true ∧
      nextOf (exec (.tpoll 9 3 2) s) = some (s.afterInstr 9 0 12) ∧
      (nextOf (exec (.tpoll 9 1 2) s)).map (fun t => ((t.qcc 0).reg 9, memRead t.ctl 0xFFF8 8)) = some (2, 0x5DDCCBBAA)) ∧
    (let s := taskState [] id;
      s.running = some (runOf s) ∧ (runOf s).k.queued < 32 ∧
      (nextOf (exec .qccFence s)).map (fun t => (t.qcc 0).cmds.map (·.fence)) = some [true]) := by
  refine ⟨?_, ?_, ?_, ?_⟩ <;> decide +kernel

/-- Whether a trap was taken as `TrapTaken` says, of a task on a channel other than 15. -/
def trapped (s : State) (i : Instr) (code word aux : Nat) : Bool :=
  let r := runOf s;
  match nextOf (exec i s) with
  | none => false
  | some t =>
    decide (t.qcc s.cur = ({ r.k with task := none } : Qcc).setChan r.t.chan ((r.k.chan r.t.chan).drop 1))
      && decide (t.trapOut = s.trapOut ++ [{ ctx := r.ctx, kind := 2, record := s.trapRec r code word aux, spos := 0, snode := 0xFF,
                                             count := 1, plate := r.t.set }])
      && decide (t.sram = s.sram) && decide (t.ctl = s.ctl)
      && decide (t.ctx? r.ctx = (s.ctx? r.ctx).map fun c => { c with fault := { c.fault with ntrap := satAdd c.fault.ntrap 1 } })

/-- A task with a value in CMDST and one in GVAHI, and a hypervisor's task. -/
def sysTask : State := taskState [0xABCDEF12] fun k => { k with cmdst := 3, gvahi := 9 }

/-- A task of the hypervisor. -/
def hypTask : State := taskState [0xABCDEF12] fun k => { k with hyp := true }

/-- The current core changed by `g` and gone on to the next word. -/
def wentOn (s : State) (g : Qcc → Qcc) : State := s.modCur fun k => g (k.go 12)

/-- Both tasks run, one of them in hypervisor mode. -/
theorem witness_SystemWordResults :
    sysTask.running = some (runOf sysTask) ∧ (runOf sysTask).k.hyp = false ∧
    hypTask.running = some (runOf hypTask) ∧ (runOf hypTask).k.hyp = true := by
  decide +kernel

/-- What a task reads. -/
theorem witness_SystemWordResults_read :
    nextOf (exec (.sysr 9 0 1) sysTask) = some (sysTask.afterInstr 9 0x22 12) ∧
    nextOf (exec (.sysr 9 0 0x30) sysTask) = some (sysTask.afterInstr 9 3 12) ∧
    nextOf (exec (.sysr 9 0 0x31) sysTask) = some (sysTask.afterInstr 9 9 12) ∧
    nextOf (exec (.sysr 9 0 0x34) sysTask) = some (sysTask.afterInstr 9 0 12) ∧
    trapped sysTask (.sysr 9 0 0x71) 0x83 0 0x71 = true ∧ trapped sysTask (.sysr 9 0 0x28) 0x83 0 0x28 = true ∧
    trapped sysTask (.sysr 9 0 0x7FFF) 0x83 0 0xFFFFFFFF = true := by
  refine ⟨?_, ?_, ?_, ?_, ?_, ?_, ?_⟩ <;> decide +kernel

/-- What the hypervisor reads and what it writes. -/
theorem witness_SystemWordResults_write :
    (nextOf (exec (.sysr 9 0 0x71) hypTask)).map (fun t => (t.qcc 0).pc) = some 12 ∧
    (nextOf (exec (.sysr 9 0 0x74) hypTask)).map (fun t => (t.qcc 0).pc) = some 12 ∧
    nextOf (exec (.sysw 1 0 0x31) hypTask) = some (wentOn hypTask fun k => { k with gvahi := 0xABCDEF12 }) ∧
    nextOf (exec (.sysw 1 0 0x40) hypTask) = some (wentOn hypTask fun k => { k with xinvlo := 0xABCDEF12 }) ∧
    nextOf (exec (.sysw 1 0 0x60) hypTask) = some (wentOn hypTask fun k => { k with plotsel := 0xDEF12 }) ∧
    nextOf (exec (.sysw 1 0 0x70) hypTask) = some (wentOn hypTask fun k => { k with hsel := 0xF12 }) := by
  refine ⟨?_, ?_, ?_, ?_, ?_, ?_⟩ <;> decide +kernel

/-- Numbers that a task may not write. -/
theorem witness_SystemWordResults_refused :
    trapped sysTask (.sysw 1 0 0x30) 0x83 0 0x30 = true ∧ trapped sysTask (.sysw 1 0 0x32) 0x83 0 0x32 = true ∧
    trapped sysTask (.sysw 1 0 0x71) 0x83 0 0x71 = true ∧ trapped sysTask (.sysw 1 0 0x70) 0x83 0 0x70 = true := by
  refine ⟨?_, ?_, ?_, ?_⟩ <;> decide +kernel

/-- A word with no meaning, addresses outside control memory and misaligned ones, and an atomic 11. -/
theorem witness_ControlCoreTraps :
    let s := taskState [65536, 1, 65535] (·.setChan 1 [Token.blank 0]);
    s.running = some (runOf s) ∧ trapped s (.illegalInstruction 0xFFFFFFFF) 0x81 0xFFFFFFFF 0 = true ∧
    (∀ p ∈ ctlLoads, trapped s (p.1 9 1 0) 0x82 0 65536 = true ∧
      (p.2.1 ≠ 1 → trapped s (p.1 9 2 0) 0x11 0 1 = true ∧ trapped s (p.1 9 3 0) 0x11 0 65535 = true)) ∧
    (∀ p ∈ ctlStores, trapped s (p.1 1 9 0) 0x82 0 65536 = true ∧ (p.2 ≠ 1 → trapped s (p.1 2 9 0) 0x11 0 1 = true)) ∧
    trapped s (.amo 9 1 2 0 11) 0x81 0 0 = true ∧ trapped s (.amo 9 1 2 1 15) 0x81 0 0 = true := by
  decide +kernel

/-- A fetch beyond control memory. -/
theorem witness_ControlCoreTraps_fetch :
    let s := taskState [] fun k => { k with pc := 65533 };
    s.running = some (runOf s) ∧ (runOf s).k.pc + 4 > 65536 ∧ trapped s (.fetchFault 0) 0x82 0 65533 = true := by
  decide +kernel

/-- Too long a task. -/
theorem witness_ControlCoreTraps_long :
    let s := taskState [] fun k => { k with task := k.task.map fun t => { t with count := 65536 } };
    s.running = some (runOf s) ∧ (runOf s).t.count ≥ 65536 ∧ trapped s (.tasklong 0) 0x84 0 0 = true := by
  decide +kernel

/-- A control core with two armed channels of one priority, of which channel 3 was picked last, and one of a lower priority. -/
def pickCore : Qcc :=
  { Qcc.fresh with
    ctx := some 0, armed := [2, 5, 6], prio := [(2, 4), (5, 4)], lastPick := [(4, 3)], entry := [(2, 16), (5, 32), (6, 48)]
    chans := [(2, [Token.blank 0]), (5, [dataTok .i32 [1, 2]]), (6, [Token.blank 0])] }

def pickState : State := { State.reset.setQcc 0 pickCore with ctxs := [(0, Ctx.bare)] }

/-- The first channel above 3 is taken, with its message. -/
theorem witness_ControlCoreEventResults_pick :
    (pickState.qcc 0).ctx = some 0 ∧ (pickState.qcc 0).task = none ∧ (pickState.qcc 0).pick = some (4, 5) ∧
    (pickState.qcc 0).chan 5 = dataTok .i32 [1, 2] :: [] ∧ pickState.mayIssue 0 = true ∧ pickState.awake 0 = true ∧
    (nextOf (exec (.taskPick 0) pickState)).map (fun t => ((t.qcc 0).pc, (t.qcc 0).x.take 3)) = some (32, [0, 5, 8]) ∧
    (nextOf (exec (.taskPick 0) pickState)).map (fun t => ((t.qcc 0).lastPick, (t.qcc 0).task)) =
      some ([(4, 5)], some { chan := 5, msg := dataTok .i32 [1, 2], set := 0, count := 0 }) := by
  decide +kernel

theorem pickCore_prio (m : Nat) : tabNum pickCore.prio m ≤ 7 := by
  simp only [pickCore, tabNum, tabGet]
  split <;> try split <;> try split <;> try split
  all_goals simp

/-- A delivery of an outbound message, and the message of an element's `send`. -/
theorem witness_ControlCoreEventResults_messages :
    (let m := dataTok .i32 [1, 2];
      let s := taskState [] fun k => { k with outq := [(1, 2, m)] };
      (s.qcc 0).outq = (1, 2, m) :: [] ∧ s.alive 0 = true ∧ s.awake 0 = true ∧ ((s.qcc 1).chan 2).length < chanCap 2 ∧
      (nextOf (exec (.tsendDelivery 0) s)).map (fun t => (t.qcc 1).chan 2) = some [{ m with kind := 2, node := 2 }]) ∧
    (let m : MsgIn := { quire := 1, chan := 2, tok := dataTok .i32 [1, 2], sender := some (0, 0, 0), accepted := false, dx := 0, dy := 31,
                        outTok := Token.blank 0 };
      let s := { State.reset with ctxs := [(0, Ctx.bare)], msgs := [m] };
      s.msgs[0]? = some m ∧ s.awake 0 = true ∧ s.alive 0 = true ∧ m.tok.poison = false ∧
      ((s.qcc 1).chan 2).length < chanCap 2 ∧
      (nextOf (exec (.channelMessageEntry 0) s)).map (fun t => (t.qcc 1).chan 2) = some [{ m.tok with kind := 2, node := 2 }] ∧
      (nextOf (exec (.channelMessageEntry 0) s)).map (fun t => t.msgs) = some [{ m with accepted := true }]) := by
  refine ⟨?_, ?_⟩ <;> decide +kernel

/-! ### Commands -/

/-- A hypervisor task that can issue every command: a pattern slot 0, a graph node 1, engines of its context with a descriptor each,
marker 2, a shadow 5. Registers: x1 the record's address, x2 the second operand, x3 the notify. -/
def cmdState (xs xb xc size record : Nat) : State :=
  let s := taskState [xs, xb, xc] fun k => { k with
    hyp := true, g := [(0, { pattern := 0, stream := none })]
    graph := [(1, { record := 0, pred := 1, launched := false, copied := 0, got := none, set := 0, gvahi := 0, result := none })] };
  let im : Image := { (default : Image) with markers := [(2, 1)] };
  { s with
    ctl := memWrite [] 64 size record
    ctxs := [(0, { Ctx.bare with shadow := some 5 })], images := [(0, im)]
    graft := [(0, { (s.graftOf 0) with ctx := some 0, descs := [0] })], riddle := [(0, { (s.riddleOf 0) with ctx := some 0, descs := [0] })] }

/-- Every command instruction with the bytes of its record, a well-formed record and its second operand. -/
noncomputable def commands : List (Instr × Nat × Nat × Nat) :=
  let pat := 2 ^ 160 + 2 ^ 96 + 2 ^ 32;
  let topk := 1 * 2 ^ 64 + 1 * 2 ^ 224 + 0x3F800000 * 2 ^ 256 + 0x3F800000 * 2 ^ 288 + 0xFF * 2 ^ 384;
  [(.pat 1 0, 32, pat, 0), (.strmBindIn 2 3 0, 0, 0, 0), (.strmBindOut 2 3 0, 0, 0, 18), (.cmd 1 0, 32, 2 ^ 240, 0),
   (.cmdCancel 1, 0, 0, 0), (.qccLaunch 1 3, 64, 7, 0), (.cfgLoad 1 3, 32, 7, 0), (.cfgLoadShadow 1 3, 32, 7, 0),
   (.cfgSwitch 1 3, 16, 2 ^ 32 + 5 * 2 ^ 64, 0), (.barr 2 3, 0, 0, 0), (.qccMark 2, 0, 0, 0), (.ttLoad 3, 0, 0, 0), (.ttArm 3, 0, 0, 0),
   (.scan 1 2 3 0 0 0 0, 32, 1, 0), (.scanWload 1 3 0 0 0 0, 32, 2 ^ 144, 0), (.setx 1 2 3, 32, 7, 0), (.topk 1 3 0, 64, topk, 0),
   (.topkGroup 1 3, 12, 2 ^ 8, 0), (.topkCommit 1 3, 32, 2 ^ 192, 0), (.claspReq 1 3, 8, 0, 0), (.claspRevoke 2 3, 0, 0, 255),
   (.plateSweep 1 3, 32, 7, 0), (.pmTol 2 3, 0, 0, 31), (.partCreate 1 2 3, 8, 7, 31), (.partDestroy 1 2 3, 8, 7, 1),
   (.partFmap 1 2 3, 12, 256, 1), (.partChan 1 2 3, 64, 7, 1), (.partPtroot 1 2 3, 8, 7, 1), (.partFq 1 2 3, 11, 7, 1),
   (.partPlate 1 2 3, 141, 7, 1), (.partDest 1 2 3, 5, 7, 1), (.partVf 1 2 3, 5, 7, 1), (.partQuota 1 2 3, 8, 7, 1),
   (.partBudget 1 2 3, 8, 7, 1), (.partGuar 1 2 3, 6, 7, 1), (.partStop 1 2 3, 20, 7, 1), (.partSave 1 2 3, 44, 7, 1),
   (.partResume 1 2 3, 16, 7, 1), (.partEvent 1 2 3, 3, 7, 1)]

/-- The hypotheses of an accepted command, and of each refusal, as far as the operands of the command can show them. -/
def cmdHyps (s : State) (i : Instr) (ok : State → CmdIn → Bytes → Bool) : Bool :=
  match cmdForm i with
  | none => false
  | some (op, cfn, rs, rb, rc) =>
    let c := (runOf s).cmdIn op cfn rs rb rc;
    decide (s.running = some (runOf s)) && s.errs.isEmpty && ok s c (s.ctlBytes c.q c.xs (s.recSize c))

/-- Whether the record can be read and the notify is well formed. -/
def fitB (s : State) (c : CmdIn) : Bool :=
  (!kNotifies (kOp c.word) || notifyOk c.xc) && (s.recSize c == 0 || c.xs % 8 == 0 && decide (c.xs + s.recSize c ≤ 65536))

/-- Each command is accepted: the queue holds it with its record, or it has acted at once, and CMDST is 0. -/
theorem witness_CommandAcceptanceResults :
    ∀ q ∈ commands,
      let s := cmdState 64 q.2.2.2 0 q.2.1 q.2.2.1;
      cmdHyps s q.1 (fun s c b => fitB s c && !s.cmdMalformed c b && !s.cmdBusy c b && decide ((runOf s).k.queued < 32)
        && decide (s.recSize c = q.2.1) && decide (s.unionAll 0 ((ctlRegions c.xs (s.recSize c)).map (s.regionSet c.q)) = .ok 0)) = true ∧
      (nextOf (exec q.1 s)).map (fun t => ((t.qcc 0).cmdst, (t.qcc 0).cmds.map fun c => numOf c.record)) =
        some (0, match cmdForm q.1 with | some (op, _) => if kImmediate op then [] else [q.2.2.1] | none => []) := by
  decide +kernel

/-- A notify with reserved bits and a misaligned record; a malformed record or operand; a full queue; a busy resource. -/
theorem witness_CommandAcceptanceResults_refused :
    (∀ q ∈ commands,
      let s := cmdState 65 q.2.2.2 0x20 q.2.1 q.2.2.1;
      cmdHyps s q.1 (fun s c _ => fitB s c || decide ((nextOf (exec q.1 s)).map (fun t => (t.qcc 0).cmdst) = some 2)) = true) ∧
    (∀ q ∈ [(Instr.pat 1 0, (32 : Nat), (0 : Nat)), (.strmBindIn 2 3 1, 0, 0), (.cmd 1 0, 32, 2 ^ 248 * 3), (.cfgSwitch 1 3, 16, 0),
        (.qccMark 1, 0, 0), (.scan 1 2 3 0 0 0 0, 32, 0), (.topk 1 3 0, 64, 0)],
      let s := cmdState 64 0 0 q.2.1 q.2.2;
      cmdHyps s q.1 (fun s c b => fitB s c && s.cmdMalformed c b) = true ∧
      (nextOf (exec q.1 s)).map (fun t => (t.qcc 0).cmdst) = some 2) ∧
    (∀ q ∈ commands,
      let e : Cmd := { id := 0, word := 0, xs := 0, xb := 0, xc := 0, gvahi := 0, record := [], set := 0,
                       fence := true, graph := none, st := .queued, got := [] };
      let s0 := cmdState 64 q.2.2.2 0 q.2.1 q.2.2.1;
      let s := s0.modCur fun k => { k with cmds := List.replicate 32 e };
      cmdHyps s q.1 (fun s c b => fitB s c && !s.cmdMalformed c b && decide ((runOf s).k.queued ≥ 32)
        && (kImmediate (kOp c.word) || decide ((nextOf (exec q.1 s)).map (fun t => (t.qcc 0).cmdst) = some 1))) = true) ∧
    (∀ q ∈ [(Instr.cmd 1 1, (32 : Nat), (0 : Nat)), (.cfgSwitch 1 3, 16, 2 ^ 32 + 5 * 2 ^ 64)],
      let s0 := cmdState 64 0 0 q.2.1 q.2.2;
      let s := { s0 with ctxs := [(0, { Ctx.bare with shadow := some 5, switch := some { image := 5, nterm := 1, count := 0, cmd := (0, 0) } })] };
      cmdHyps s q.1 (fun s c b => fitB s c && !s.cmdMalformed c b && decide ((runOf s).k.queued < 32) && s.cmdBusy c b) = true ∧
      (nextOf (exec q.1 s)).map (fun t => (t.qcc 0).cmdst) = some 3) ∧
    (∀ q ∈ commands,
      let s := (cmdState 64 q.2.2.2 0 q.2.1 q.2.2.1).modCur fun k => { k with hyp := false };
      cmdHyps s q.1 (fun s c _ => !(runOf s).k.hyp && (decide (kOp c.word < 0x4D) || trapped s q.1 0x81 (s.ctlWord 0 8) 0)) = true) := by
  refine ⟨?_, ?_, ?_, ?_, ?_⟩ <;> decide +kernel

/-- The four commands that act at acceptance. -/
theorem witness_ImmediateCommandResults :
    ∀ q ∈ commands.filter (fun q => match cmdForm q.1 with | some (op, _) => kImmediate op | none => false),
      let s := cmdState 64 q.2.2.2 9 q.2.1 q.2.2.1;
      let r := runOf s;
      s.running = some r ∧ r.k.hyp = true ∧ r.k.slotBusy 0 = false ∧ tabGet r.k.graph 0 = none ∧
      ((tabGet r.k.graph 1).map (·.launched)) = some false ∧
      s.unionAll r.t.set ((ctlRegions 64 32).map (s.regionSet r.q)) = .ok 0 ∧
      ((q.1 = .pat 1 0 ∧ patBad (s.ctlBytes 0 64 32) = false ∧
          (nextOf (exec q.1 s)).map (fun t => (t.qcc 0).g.map fun g => g.2.pattern.toNat) = some [q.2.2.1]) ∨
       (q.1 = .cmd 1 0 ∧ nodeBad q.2.2.1 = false ∧ bitF q.2.2.1 247 240 ≠ 0 ∧
          (nextOf (exec q.1 s)).map (fun t => (t.qcc 0).graph.map (·.1)) = some [0, 1]) ∨
       (q.1 = .cmdCancel 1 ∧ (nextOf (exec q.1 s)).map (fun t => (t.qcc 0).graph.map (·.1)) = some []) ∨
       (q.1 = .pmTol 2 3 ∧ (r.k.reg 2).toNat < 32 ∧ (nextOf (exec q.1 s)).map (fun t => t.pmtol) = some [(31, 9)])) := by
  decide +kernel

/-! ### Units of the commands, streams, timetables and Barrows -/

/-- A queued command of opcode `op` and function `cfn`. -/
def cmdOf (op cfn : Nat) (xs xb xc : Word) (record : Bytes) : Cmd :=
  { id := 7, word := BitVec.ofNat 32 (numR op 0 0 0 cfn), xs := xs, xb := xb, xc := xc, gvahi := 0, record := record, set := 0,
    fence := false, graph := none, st := .queued, got := [] }

/-- Control core 0 of context 0 with commands, and an image 0 with marker 2. -/
def queueState (cmds : List Cmd) : State :=
  { State.reset.setQcc 0 { Qcc.fresh with ctx := some 0, cmds := cmds, g := [(0, { pattern := 0, stream := none })] } with
    ctxs := [(0, Ctx.bare)], images := [(0, { (default : Image) with markers := [(2, 1)] })] }

/-- The status of the commands left in the queue. -/
def states (s : State) : List CmdSt := (s.qcc 0).cmds.map (·.st)

/-- Every command goes to its unit; a `fence` leaves behind a completed command. -/
theorem witness_CommandDispatchResults :
    (let f : Cmd := { cmdOf 0 0 0 0 0 [] with id := 8, fence := true };
      let d : Cmd := { cmdOf 0x46 0 0 0 0 [] with st := .done 0 0 };
      let s := queueState [d, f];
      (s.qcc 0).ctx = some 0 ∧ s.mayIssue 0 = true ∧ cmdHead [] (s.qcc 0).cmds = some ([d], f) ∧
      (nextOf (exec (.commandDispatch 0) s)).map states = some [.done 0 0]) ∧
    (∀ c ∈ [cmdOf 0x41 0 0 5 0 [], cmdOf 0x43 0 0 0 0 (List.replicate 64 1), cmdOf 0x44 0 64 0 0 [], cmdOf 0x47 2 0 0 0 [],
        cmdOf 0x4B 0 0 1 0 (List.replicate 32 1), cmdOf 0x4D 0 0 0 0 (List.replicate 8 0)],
      let s := queueState [c];
      (s.qcc 0).ctx = some 0 ∧ s.mayIssue 0 = true ∧ cmdHead [] (s.qcc 0).cmds = some ([], c) ∧
      tabGet (s.qcc 0).g (c.word.toNat % 16) = (if kOp c.word = 0x47 then none else some { pattern := 0, stream := none }) ∧
      (s.toSpine.filter fun l => l.part == s.partOf 0).length < s.launchCredit (some (s.partOf 0)) ∧
      (s.riddleOf 0).go.length < 16 ∧
      (nextOf (exec (.commandDispatch 0) s)).map states = some [.running] ∧
      (nextOf (exec (.commandDispatch 0) s)).map (fun t => (t.toSpine.map (·.bytes), t.marks.map (·.marker))) =
        some (if kOp c.word = 0x43 then [c.record] else [], if kOp c.word = 0x47 then [2] else []) ∧
      (nextOf (exec (.commandDispatch 0) s)).map (fun t => ((t.riddleOf 0).go.map (·.desc), t.submissions.map (·.cmd))) =
        some (if kOp c.word = 0x4B then [1] else [], if kOp c.word = 0x4D then [(0, 7)] else []) ∧
      (nextOf (exec (.commandDispatch 0) s)).map (fun t => (t.qcc 0).g.map fun g => g.2.stream.isSome) =
        some [decide (kOp c.word = 0x41)]) := by
  refine ⟨?_, ?_⟩ <;> decide +kernel

/-- Completions with and without a message; a graph node that ended well and one that did not; barriers. -/
theorem witness_CompletionEventResults :
    (∀ q ∈ [(0x43, (0 : Word)), (0x43, 0xABCD0012), (0x46, 0x00010012), (0x47, 0)],
      let c : Cmd := { cmdOf q.1 0 0 0 q.2 [] with st := .done 3 9, set := 5 };
      let s := queueState [c];
      (s.qcc 0).ctx = some 0 ∧ s.alive 0 = true ∧ (s.qcc 0).cmds[0]? = some c ∧
      (kNotifies q.1 = true → ((s.qcc 0).chan (q.2.toNat % 16)).length < chanCap (q.2.toNat % 16)) ∧
      (nextOf (exec (.commandNotify 0 0) s)).map (fun t => ((t.qcc 0).cmds.length,
          ((t.qcc 0).chan (q.2.toNat % 16)).map fun m => (laneAt 32 m.pay 0, laneAt 32 m.pay 1))) =
        some (0, if notifyOn q.2.toNat then [(q.2.toNat / 65536 * 65536 + 3, 9)] else []) ∧
      (nextOf (exec (.commandNotify 0 0) s)).map (fun t => ((t.qcc 0).chan 2).map (·.plate)) =
        some (if notifyOn q.2.toNat then (if q.1 = 0x46 then [0] else [5]) else [])) ∧
    (∀ st ∈ [(0 : Nat), 0xC2],
      let n : GNode := { record := 0, pred := 0, launched := true, copied := 0, got := none, set := 5, gvahi := 0, result := some st };
      let s := (queueState []).modCur fun k => { k with graph := [(3, n)] };
      tabGet (s.qcc 0).graph 3 = some n ∧ n.succ = [] ∧
      (nextOf (exec (.cmdNodeComplete 0 3) s)).map (fun t => ((t.qcc 0).graph.length,
          t.trapOut.map fun m => (m.kind, bitF m.record.toNat 127 120))) = some (0, if st = 0 then [] else [(2, 0x85)]) ∧
      (nextOf (exec (.cmdNodeComplete 0 3) s)).map (fun t =>
          t.trapOut.map fun m => (bitF m.record.toNat 17 12, bitF m.record.toNat 43 28)) = some (if st = 0 then [] else [(3, 0xC2)])) ∧
    (let s := { queueState [{ cmdOf 0x46 0 0 0 0 [] with st := .running }] with barrRegs := [(0, 4, 0, 7, 0)] };
      s.barrRegs[0]? = some (0, 4, 0, 7, 0) ∧
      (nextOf (exec (.barrierRegistration 0) s)).map (·.barrRegs) = some [(0, 4, 0, 7, 2)]) ∧
    (let s := { queueState [{ cmdOf 0x46 0 0 0 0 [] with st := .running }] with barrRegs := [(0, 0xFFFFFFFF, 0, 7, 1)] };
      (nextOf (exec (.barrierRegistration 0) s)).map (fun t => (t.barrRegs.length, t.barrDone)) = some (0, [(0, 7, 0)])) ∧
    (let s := { queueState [{ cmdOf 0x46 0 0 0 0 [] with st := .running }] with barrDone := [(0, 7, 5)] };
      (∃ c ∈ (s.qcc 0).cmds, c.id = 7) ∧
      (nextOf (exec (.barrierCompletion 0) s)).map states = some [.done 0 5]) := by
  refine ⟨?_, ?_, ?_, ?_, ?_⟩ <;> decide +kernel

/-- A resident plot for the accesses of units: plot 1, with bytes at its ends. -/
def withPlot (s : State) : State :=
  { s.setPlot 1 { s.plot 1 with res := true } with sram := [(4096, 0x11), (8191, 0x22)] }

/-- A pattern of two accesses of 64 bytes from address 4096 on. -/
def patTwo : BitVec 256 := BitVec.ofNat 256 (6 * 2 ^ 196 + 2 * 2 ^ 160 + 2 ^ 96 + 2 ^ 32 + 4096 * 2 ^ 200)

/-- A copy node that reads and one that writes its last piece; a stream in and one out. -/
theorem witness_CopyAndStreamResults :
    (∀ got ∈ [none, some ((0xDDCCBBAA : Nat), (0 : Handle))],
      let n : GNode := { record := BitVec.ofNat 256 (4096 * 2 ^ 136 + 4096 * 2 ^ 80 + 128 * 2 ^ 48), pred := 0, launched := true, copied := 64,
                         got := got, set := 0, gvahi := 0, result := none };
      let s := withPlot ((queueState []).modCur fun k => { k with graph := [(3, n)] });
      tabGet (s.qcc 0).graph 3 = some n ∧ s.mayIssue 0 = true ∧ n.kind = 0 ∧ n.copied < bitF n.record.toNat 79 48 ∧
      s.sramFit (s.partOf 0) false (bitF n.record.toNat 191 136 + n.copied) 64 4160 false ∧
      s.sramFit (s.partOf 0) false (bitF n.record.toNat 135 80 + n.copied) 64 4160 true ∧
      s.union n.set (s.plot 1).handle = .ok 0 ∧ s.grown (.sram 4160) 0 = .ok 0 ∧ s.sram.wf = true ∧
      (nextOf (exec (.copyPiece 0 3) s)).map (fun t => ((tabGet (t.qcc 0).graph 3).map fun n => (n.copied, n.result))) =
        some (some (if got.isSome then (128, some 0) else (64, none))) ∧
      (nextOf (exec (.copyPiece 0 3) s)).map (fun t => (memRead t.sram 4096 1, memRead t.sram 4160 64)) =
        some (0x11, if got.isSome then 0xDDCCBBAA else 0)) ∧
    (let st : Stream := { out := false, engine := 0, port := 0, next := 0, moved := 0, cmd := 7 };
      let s := withPlot ((queueState [{ cmdOf 0x41 0 0 0 0 [] with st := .running }]).modCur fun k =>
        { k with g := [(0, { pattern := patTwo, stream := some st })] });
      (s.qcc 0).ctx = some 0 ∧ s.engineMay 0 0 = true ∧ (s.qcc 0).cmdSet 7 = 0 ∧ st.next + 1 < patCount patTwo ∧
      (s.buf 0 5 0).length < 2 ∧ s.sramFit (s.partOf 0) false (patAddr patTwo 0) (patSize patTwo) 4096 false ∧
      s.union 0 (s.plot 1).handle = .ok 0 ∧
      (nextOf (exec (.streamAccess 0 0) s)).map (fun t => (t.buf 0 5 0).map fun f => match f with | .tok _ m => m.pay.toNat | _ => 0) =
        some [0x11]) ∧
    (let st : Stream := { out := true, engine := 0, port := 18, next := 0, moved := 0, cmd := 7 };
      let m := dataTok .i32 [0xDDCCBBAA];
      let s0 := withPlot ((queueState [{ cmdOf 0x41 16 0 18 0 [] with st := .running }]).modCur fun k =>
        { k with g := [(0, { pattern := patTwo, stream := some st })] });
      let s := s0.setPress 0 { s0.pressOf 0 with port18 := [m] };
      s.engineMay 0 0 = true ∧ (s.pressOf 0).port18 = m :: [] ∧ m.isSwitch = false ∧ s.union 0 m.plate = .ok 0 ∧
      s.sramFit (s.partOf 0) false (patAddr patTwo 0) (patSize patTwo) 4096 true ∧ s.grown (.sram 4096) 0 = .ok 0 ∧
      (nextOf (exec (.streamAccess 0 0) s)).map (fun t => (memRead t.sram 4096 64, memRead t.sram 8191 1)) = some (0xDDCCBBAA, 0x22)) := by
  unfold State.sramFit
  refine ⟨?_, ?_, ?_⟩ <;> decide +kernel

/-- A timetable entry: at marker 2, its action, from 0x1000 to 0x3000, one plot. -/
def entryOf (a : TtAction) (clr : Bool) : TtEntry :=
  { marker := 2, action := a, stier := 0, dtier := 0, deadline := 2, early := true, clr := clr, saddr := 0x1000, daddr := 0x3000,
    length := 1 }

/-- The home Barrow with the timetable of context 0, and what it runs. -/
def barrowState (a : TtAction) (clr armed : Bool) (f : Timetable → Timetable) (running : List Running) : State :=
  let s := queueState [{ cmdOf 0x49 0 0 0 0 [] with st := .running }];
  s.setBarrow (s.homeDie 0) { tables := [f { ctx := 0, entries := [entryOf a clr], st := [], armed := armed, counts := [], handoff := [],
                                             arming := none }], running := running, misses := [] }

/-- A part of entry 0, of plot `p`. -/
def runningOf (started : Bool) (p : Nat) : Running :=
  { ctx := 0, entry := 0, started := started, ahead := false, plots := [p], failed := none, parked := none, handle := 0 }

/-- The last mark of marker 2, its return, an arming, a hand-off, a start in turn and an early one. -/
theorem witness_TimetableEventResults :
    (let m : MarkMsg := { ctx := 0, marker := 2, node := none, cmd := none, counted := false, out := [] };
      let s := { barrowState .fetch false true id [] with marks := [m] };
      s.marks[0]? = some m ∧ s.alive 0 = true ∧ (∃ t ∈ s.timetable 0, t.armed = true ∧ s.reached t 2 = false) ∧ s.arity 0 2 = 1 ∧
      (nextOf (exec (.markCount 0) s)).map (fun t => (t.timetable 0).map fun u => (u.counts, u.handoff)) = some (some ([(2, 1)], [0])) ∧
      (nextOf (exec (.markCount 0) s)).map (fun t => t.marks.map (·.counted)) = some [true]) ∧
    (let t := dataTok .i32 [7];
      let m : MarkMsg := { ctx := 0, marker := 2, node := some (0, 0, 0), cmd := none, counted := true, out := [(0, t)] };
      let s := { slotState (.mark opsL) id with marks := [m] };
      s.marks[0]? = some m ∧ s.alive 0 = true ∧
      (∃ f ∈ s.fireAt 0 0 0, nextOf (exec (.markReturn 0) s) = some (({ s with marks := [] } : State).emitAll f [(0, t)]))) ∧
    (let s := barrowState .fetch false false (fun t => { t with arming := some (0, 7), counts := [(2, 1)] }) [];
      (∃ t ∈ s.timetable 0, t.arming = some (0, 7)) ∧ s.mayIssue 0 = true ∧ (∀ b ∈ s.barrow, ∀ r ∈ b.2.running, r.ctx ≠ 0) ∧
      (∃ c ∈ (s.qcc 0).cmds, c.id = 7) ∧
      (nextOf (exec (.ttArmReset 0) s)).map (fun t => ((t.timetable 0).map fun u => (u.armed, u.counts.length), states t)) =
        some (some (true, 0), [.done 0 0])) ∧
    (let s := barrowState .fetch false true (fun t => { t with handoff := [0] }) [];
      s.handoffs[0]? = some (0, 0) ∧ (∃ t ∈ s.timetable 0, t.entries[0]? = some (entryOf .fetch false)) ∧ s.mayIssue 0 = true ∧
      (nextOf (exec (.entryHandoff 0) s)).map (fun t => ((t.barrowOf 0).running, t.handoffs.length)) = some ([runningOf false 3], 0)) ∧
    (let s := barrowState .fetch false true id [runningOf false 3];
      (s.barrowOf 0).startedCount < 16 ∧ (bestStart s (s.barrowOf 0) (s.barrowOf 0).running 0).map (·.2) = some 0 ∧
      (nextOf (exec (.barrowEntryStart 0) s)).map (fun t => (t.barrowOf 0).running) = some [runningOf true 3]) ∧
    (let s := barrowState .fetch false true id [];
      (s.barrowOf 0).startedCount < 16 ∧ (s.barrowOf 0).running = [] ∧ s.earlyEntry 0 = some (0, 0) ∧
      s.ttEntry 0 0 = some (entryOf .fetch false) ∧
      nextOf (exec (.earlyFetchStart 0) s) = some (((s.setEntry 0 0 .running).handEntry 0 0 [3] false 16).startRun 0 0)) := by
  refine ⟨?_, ?_, ?_, ?_, ?_, ?_⟩ <;> decide +kernel

/-- A Barrow's part of one plot: plot 3, with plot 1 resident and, where asked, plot 3 too. -/
def plotState (a : TtAction) (res pin : Bool) : State :=
  let s := withPlot (barrowState a true true id [runningOf true (if a = .evict then 1 else 3)]);
  let s := s.setPlot 3 { s.plot 3 with res := res, pin := pin, gen := 0xFFFF };
  if a = .evict then s.setPlot 1 { s.plot 1 with pin := pin } else s

/-- The work of that part. -/
def workOf (a : TtAction) (res pin : Bool) : Option PlotWork :=
  match (plotState a res pin).plotWork 0 0 a with | some (.inl x) => some x | _ => none

/-- A fetch into plot 3, one that finds it resident, an evict of plot 1 to plot 3, one that finds it pinned, pin and drop. -/
theorem witness_BarrowPlotResults :
    (let s := plotState .fetch true false;
      ∃ x ∈ workOf .fetch true false, (s.plot x.n).res = true ∧ nextOf (exec (.barrowFetchPlot 0 0) s) = some (s.nextPlot 0 0)) ∧
    (let s := plotState .fetch false false;
      ∃ x ∈ workOf .fetch false false, (s.plot x.n).res = false ∧ x.r.parked = none ∧ x.r.failed = none ∧ s.sram.wf = true ∧
        (∀ k, k < 64 → s.sramFit x.w.part false (x.far + 64 * k) 64 (1 * 4096 + 64 * k) false) ∧
        s.union x.r.handle (s.plot 1).handle = .ok 0 ∧ s.union 0 (s.plot 1).handle = .ok 0) ∧
    (let s := plotState .evict true true;
      ∃ x ∈ workOf .evict true true, x.r.parked = none ∧ (s.plot x.n).pin = true ∧
        nextOf (exec (.barrowEvictPlot 0 0) s) = some (s.nextPlot 0 0)) ∧
    (let s := plotState .evict true false;
      ∃ x ∈ workOf .evict true false, x.n = 1 ∧ (s.plot 1).res = true ∧ (s.plot 1).pin = false ∧ x.r.parked = none ∧
        x.r.failed = none ∧ s.sram.wf = true ∧ s.sramFit x.w.part false x.far 4096 (3 * 4096) true ∧
        s.grown (.sram (3 * 4096)) (s.plot 1).handle = .ok 0) ∧
    (let s := plotState .pin true true;
      ∃ x ∈ workOf .pin true true, x.r.failed = none ∧ x.e.clr = true ∧
        (nextOf (exec (.barrowPinPlot 0 0) s)).map (fun t => (t.plot 3).pin) = some false) ∧
    (∀ pin ∈ [true, false],
      let s := plotState .drop true pin;
      ∃ x ∈ workOf .drop true pin, x.r.failed = none ∧ (nextOf (exec (.barrowDropPlot 0 0) s)).map (fun t => (t.plot 3).res) = some pin) := by
  unfold State.sramFit
  refine ⟨?_, ?_, ?_, ?_, ?_, ?_⟩ <;> decide +kernel

/-- The smallest image: a header, one directory entry and a declaration block with no tables. -/
def smallImage : Bytes :=
  bytesOf 120 (0x47584453 + 2 ^ 32 + 120 * 2 ^ 64 + 2 ^ 128 + 2 ^ 144 + 2 ^ 256 + 2 ^ 288 + 0x30 * 2 ^ 320 + 2 * 2 ^ 384)

/-- A sound image that has been read; drain notices with and without a switch; a switch whose nodes have drained; an invalidation. -/
theorem witness_ConfigurationEventResults :
    (let c : Cmd := { cmdOf 0x44 0 64 0 0 (List.replicate 32 0) with st := .running, got := smallImage };
      let s := queueState [c];
      let w : Who := { ctx := 0, part := 0, quire := 0, kind := 3, key := unitKey 7 0 c.id, parks := true };
      (s.qcc 0).ctx = some 0 ∧ (s.qcc 0).loading = some c ∧ s.ctx? 0 = some Ctx.bare ∧ s.mayIssue 0 = true ∧
      (match s.fetchImage w (fieldOf c.record 0 8) c.got with
       | .done b s1 => b == smallImage && s1 == s
       | _ => false) = true ∧
      (match checkImage smallImage 0 with | .inl im => im.nfolio == 1 && im.elems.isEmpty | _ => false) = true ∧
      kCfn c.word = 0 ∧ s.regionGrow 0 c.set (ctlRegions 64 32) = .inl (some [(0, 0)]) ∧ s.errs = []) ∧
    (let w : SwitchReq := { image := 5, nterm := 2, count := 1, cmd := (0, 7) };
      let c : Ctx := { Ctx.bare with switch := some w };
      let s := { queueState [] with ctxs := [(0, c)], drainNotices := [(0, 0, 0)] };
      s.drainNotices[0]? = some (0, 0, 0) ∧ s.ctx? 0 = some c ∧ w.count < w.nterm ∧
      nextOf (exec (.drainNotice 0) s) =
        some (({ s with drainNotices := [] } : State).setCtx 0 { c with switch := some { w with count := 2 } })) ∧
    (let s := { queueState [] with drainNotices := [(0, 0, 0)] };
      s.ctx? 0 = some Ctx.bare ∧
      nextOf (exec (.drainNotice 0) s) =
        some (({ s with drainNotices := [] } : State).fabricFault 0 (s.nodeRec 0x61 0 0 0 0) (s.logOf 0 0) 0 0)) ∧
    (let w : SwitchReq := { image := 0, nterm := 2, count := 2, cmd := (0, 7) };
      let c : Ctx := { Ctx.bare with switch := some w, shadow := some 0, image := 9 };
      let s := { queueState [{ cmdOf 0x45 0 0 0 0 [] with st := .running }] with ctxs := [(0, c)] };
      s.ctx? 0 = some c ∧ (tabGet s.images w.image).isSome = true ∧ s.mayIssue 0 = true ∧ w.count = w.nterm ∧ s.switchReady 0 c = true ∧
      (nextOf (exec (.shadowSwitch 0) s)).map (fun t => (t.ctx? 0).map fun c => (c.image, c.switch)) = some (some (0, none))) ∧
    (let s := { State.reset with invals := [{ quire := 0, part := 0, waits := [3] }] };
      (∀ v ∈ s.invals, ∀ id ∈ v.waits, s.acc? id = none) ∧ nextOf (exec (.invalidationComplete 0) s) = some State.reset) := by
  refine ⟨?_, ?_, ?_, ?_, ?_⟩ <;> decide +kernel

/-- A miss-table entry of die 0 for page 0. -/
def missOf (st : WalkSt) (kind : Nat) : Miss :=
  { die := 0, part := 0, page := 0, st := st, accs := [], restart := false, kind := kind
    who := { kind := 0, ctx := 0, lf := 0, quire := 0, elem := 0, node := 0, va := 2 ^ 32, plate := 0 } }

/-- A valid leaf of HBM that permits reading and writing, at level 3, and a valid table entry. -/
def leafEntry : Nat := 2 ^ 63 + 2 ^ 62 + 2 ^ 4 + 2 ^ 3 + 2 ^ 2
def tableEntry : Nat := 2 ^ 63 + 2 ^ 48

/-- A walk that starts, one that a table leads on, leaves for a load and a store, an absent entry; a fault message; folios. -/
theorem witness_TranslationEventResults :
    (let m := missOf .pending 0;
      let s := { State.reset with misses := [m] };
      (s.missesOf 0 WalkSt.waits)[0]? = some m ∧ m.st = .pending ∧ (s.missesOf 0 WalkSt.isReading).length < 16) ∧
    (∀ kind ∈ [(0 : Nat), 1],
      let m := missOf (.reading 3 4096) kind;
      let a := 4096 + 8 * ptIndex 3 m.who.va;
      let s := { State.reset with misses := [m], hbm := memWrite [] a 8 leafEntry };
      (s.missesOf 0 WalkSt.isReading)[0]? = some m ∧ s.stackAwake 4096 = true ∧ m.accs = [] ∧ s.hbm.wf = true ∧
      bitF leafEntry 59 48 = 0 ∧
      (match s.walkRead 3 4096 m.who.va kind with | .leaf p e l => p == a && e == leafEntry && l == 3 | _ => false) = true ∧
      (nextOf (exec (.walkTableReadDone 0 0) s)).map (fun t => (t.misses.length, memRead t.hbm a 8)) =
        some (0, if kind = 0 then leafEntry + 2 ^ 6 else leafEntry + 2 ^ 6 + 2 ^ 7)) ∧
    (let m := missOf (.reading 0 4096) 0;
      let s := { State.reset with misses := [m], hbm := memWrite [] (4096 + 8 * ptIndex 0 m.who.va) 8 (2 ^ 63 + 2 ^ 24) };
      (match s.walkRead 0 4096 m.who.va 0 with | .next b => b == 2 ^ 24 | _ => false) = true ∧
      (nextOf (exec (.walkTableReadDone 0 0) s)).map (fun t => t.misses.map (·.st)) = some [.reading 1 (2 ^ 24)]) ∧
    (let m := missOf (.reading 3 4096) 0;
      let s := { State.reset with misses := [m] };
      (match s.walkRead 3 4096 m.who.va 0 with | .fault c l _ false => c == 0x30 && l == 3 | _ => false) = true ∧
      nextOf (exec (.walkTableReadDone 0 0) s) = some State.reset) ∧
    (let f : FaultOut := { seq := 4, die := 0, page := 0, record := BitVec.ofNat 256 (0xABCD * 2 ^ 224), plate := 5, sent := false,
                           failed := false, waiters := [] };
      let p : Partn := { Partn.zero with faults := [f], fqChan := some (0, 1, 2) };
      let s := { State.reset with parts := [(0, p)] };
      s.part? 0 = some p ∧ p.faults.find? (fun f => !f.sent) = some f ∧ s.quireOfRef 0 0 1 = some 1 ∧
      ((s.qcc 1).chan 2).length < chanCap 2 ∧
      (nextOf (exec (.faultChannelMessage 0) s)).map (fun t => ((t.qcc 1).chan 2).map fun m => (m.plate, laneAt 32 m.pay 0)) =
        some [(5, 0xABCD)] ∧
      (nextOf (exec (.faultChannelMessage 0) s)).map (fun t => (t.part? 0).map fun p => p.faults.map (·.sent)) = some (some [true])) ∧
    (∀ g ∈ [none, some (1 : Nat)],
      let e : MapEntry := { st := .moving, ro := false, gfolio := 0, target := some (g, true) };
      let p : Partn := { Partn.zero with fmap := [(0, e)] };
      let s := { State.reset with parts := [(0, p)], sram := [(5, 0x11), (2 ^ 24 - 1, 0x22)] };
      s.part? 0 = some p ∧ p.form = none ∧ s.drainedFolio 0 = true ∧ (∀ q ∈ s.parts, q.2.rank = none) ∧ s.sram.wf = true ∧
      (nextOf (exec (.folioMove 0 0) s)).map (fun t => t.mapEntry 0 0) =
        some (g.map fun g => { st := .mapped, ro := true, gfolio := g, target := none }) ∧
      (nextOf (exec (.folioMove 0 0) s)).map (fun t => (memByte t.sram (2 ^ 24 + 5), memByte t.sram (2 ^ 25 - 1))) =
        some (if g.isSome then (0x11, 0x22) else (0, 0))) := by
  refine ⟨?_, ?_, ?_, ?_, ?_, ?_⟩ <;> decide +kernel

/-! ### The engines -/

/-- A live context 0 and a token for port `n` of an engine (32 × engine + port) at the head of port 0 of element 0. -/
def engineAt (n : Nat) (t : Token) : State :=
  { State.reset with ctxs := [(0, Ctx.bare)] }.setBuf 0 0 0 [.tok 0 { t with kind := 1, node := BitVec.ofNat 8 n }]

/-- The token as it stands there. -/
def portTok (n : Nat) (t : Token) : Token := { t with kind := 1, node := BitVec.ofNat 8 n }

/-- The token is taken there for port `p` of engine `e`. -/
theorem takesAt (s : State) (lo hi e p : Nat) (fmts : List Fmt) (served : Option Nat) (t : Token)
    (h : s.enginePort 0 0 e lo hi = some (p, t, [])) (h1 : served = some t.ctx.toNat) (h2 : s.alive t.ctx.toNat = true)
    (h3 : (t.isSwitch || t.poison || t.ord || !fmts.contains t.fmt) = false) :
    s.TakesAt 0 0 e lo hi fmts served p t [] := by
  simp only [Bool.or_eq_false_iff, Bool.not_eq_false'] at h3
  exact ⟨h, h1, h2, h3.1.1.1, h3.1.1.2, h3.1.2, h3.2⟩

/-- A Press of context 0. -/
def pressOf0 (f : Press → Press) (s : State) : State := s.setPress 0 (f { Press.fresh with ctx := some 0 })

/-- The word ta0, tb0 → tc`tc` over one value of K, both tiles read through their column ports, to entry 0 of element 1. -/
def colWord (tc : Nat) : PressWord :=
  { ta := 0, tb := 0, tc := BitVec.ofNat 2 tc, afmt := 1, bfmt := 1, tra := 1, trb := 1, ofmt := 0, sat := 0, ksm1 := 0, lastn := 1,
    del := 1, didx := 0 }

/-- A column tile of BF16: 16 lanes of one value each but lane 0, with shifts of zero. -/
def colTile (reg v0 v : Nat) : Tile :=
  { reg := reg, ctx := 0, nest := 0, fills := [dataTok .bf16 (v0 :: List.replicate 15 v)], shifts := [dataTok .bits [0, 0, 0, 0]],
    kept := false, goSeen := false, poison := none, handle := 0 }

/-- A go token, and the two tensor scales 0.5 and 2.0. -/
def goTok : Token := dataTok .bits [0]
def scaleTok : Token := dataTok .fp32 [0x3F000000, 0x40000000]

/-- A Press about to run operation `pop` on accumulator 2, which holds 3.0 everywhere. -/
noncomputable def opPress (pop : Nat) : State :=
  pressOf0 (fun k => { k with
    words := [BitVec.ofNat 64 (pressNum pop (colWord 2))], go := [goTok], scales := [scaleTok]
    tiles := [colTile 0 0x3F80 0x4000, colTile 4 0x4040 0x4080]
    tc := listMod k.tc 2 fun c => { c with acc := List.replicate 256 0x40400000 } }) { State.reset with ctxs := [(0, Ctx.bare)] }

/-- Element 0 of a live context 0 whose entry 0 leads to port `o` of the Press, to which g3 of the quire is bound; the Press drains. -/
def portState : State :=
  let st : Stream := { out := true, engine := 0, port := 18, next := 0, moved := 0, cmd := 0 };
  let s := slotState (.copy opsL) fun sl => { sl with dests := [(BitVec.ofNat 32 (2 ^ 30 + 18 * 2 ^ 10), 0)] };
  pressOf0 (fun k => { k with drains := [{ del := 0, didx := 0, toks := [scaleTok, goTok] }] })
    (s.setQcc 0 { s.qcc 0 with g := [(3, { pattern := 0, stream := some st })] })

/-- A Press all of whose ports have switched, with something left of everything. -/
def switchedPress : State :=
  pressOf0 (fun k => { k with
    shadow := [0x27944C0E8A300000], go := [goTok], scales := [scaleTok], tiles := [colTile 0 0 0], nin := [(17, 1), (3, 0)]
    swIn := [(17, { tokens := 1, sum := 5 })] }) { State.reset with ctxs := [(0, Ctx.bare)], sram := [(4, 9)] }

theorem witness_PressEventResults :
    (∀ p ∈ [(3 : Nat), 7], let t := portTok p (dataTok .bf16 [1, 2]);
      let s := pressOf0 id (engineAt p t);
      s.TakesAt 0 0 0 0 15 (pressFmts p) (s.pressOf 0).ctx p t []) ∧
    (∀ p ∈ [(8 : Nat), 15], let t := portTok p (dataTok .bits [1, 2]);
      let s := pressOf0 id (engineAt p t);
      s.TakesAt 0 0 0 0 15 (pressFmts p) (s.pressOf 0).ctx p t [] ∧
      (nextOf (exec (.pressShiftToken 0 0) s)).map (fun u => (u.pressOf 0).tiles.map fun b => (b.reg, b.shifts.length)) =
        some [(p % 8, 1)]) ∧
    (let t := portTok 16 scaleTok;
      let s := pressOf0 id (engineAt 16 t);
      s.TakesAt 0 0 0 16 16 (pressFmts 16) (s.pressOf 0).ctx 16 t [] ∧ t.colour = 2) ∧
    (let t := portTok 17 goTok;
      let s := pressOf0 (fun k => { k with words := [0x27944C0E8A300000] }) (engineAt 17 t);
      s.TakesAt 0 0 0 17 17 (pressFmts 17) (s.pressOf 0).ctx 17 t [] ∧ (s.pressOf 0).badGo t = false) ∧
    (let s := portState;
      (s.pressOf 0).drains = [{ del := 0, didx := 0, toks := [scaleTok, goTok] }] ∧
      (∃ sl ∈ (s.elem 0).slotFor 0, entryKind (sl.dest 0).1 = 1 ∧ entryNode (sl.dest 0).1 = 18) ∧ s.outBound 0 18 0 1 = true ∧
      (nextOf (exec (.pressDrain 0) s)).map (fun u => (u.pressOf 0).port18) = some [scaleTok]) ∧
    (let s := switchedPress;
      (s.pressOf 0).ctx = some 0 ∧ allSwitched (s.pressOf 0).swIn (s.pressOf 0).nin = true ∧ (s.pressOf 0).drains = [] ∧
      (nextOf (exec (.pressSwitch 0) s)).map (fun u => ((u.pressOf 0).words, memByte u.sram 4)) = some ([0x27944C0E8A300000], 9)) := by
  refine ⟨?_, ?_, ?_, ?_, ?_, ?_⟩
  · intro p hp
    simp only [List.mem_cons, List.not_mem_nil, or_false] at hp
    rcases hp with rfl | rfl <;> exact takesAt _ _ _ _ _ _ _ _ (by decide +kernel) (by decide +kernel) (by decide +kernel) (by decide +kernel)
  · intro p hp
    simp only [List.mem_cons, List.not_mem_nil, or_false] at hp
    rcases hp with rfl | rfl <;> exact ⟨takesAt _ _ _ _ _ _ _ _ (by decide +kernel) (by decide +kernel) (by decide +kernel) (by decide +kernel), by decide +kernel⟩
  · exact ⟨takesAt _ _ _ _ _ _ _ _ (by decide +kernel) (by decide +kernel) (by decide +kernel) (by decide +kernel), by decide +kernel⟩
  · exact ⟨takesAt _ _ _ _ _ _ _ _ (by decide +kernel) (by decide +kernel) (by decide +kernel) (by decide +kernel), by decide +kernel⟩
  · decide +kernel
  · decide +kernel

theorem witness_PressOperationResults :
    (∀ pop ∈ [(0 : Nat), 1, 2, 3], let s := opPress pop;
      let k := s.pressOf 0;
      k.pick = some (0, goTok) ∧ (k.wordOf goTok).toNat = pressNum pop (colWord 2) ∧ s.pressReady 0 = true ∧
      ((s.graftOf 0).pressLast && s.graftReady 0) = false ∧ k.tile 0 0 = some (colTile 0 0x3F80 0x4000) ∧
      k.tile 4 0 = some (colTile 4 0x4040 0x4080) ∧ s.tileFault 0 (colWord 2) false (colTile 0 0x3F80 0x4000) = none ∧
      s.tileFault 0 (colWord 2) true (colTile 4 0x4040 0x4080) = none ∧ goTok.nest.toNat % 8 = 0) ∧
    -- 1 × 3, 1 × 4, 2 × 3 and 2 × 4, on 0 or on 3
    (nextOf (exec (pressOp 0 (colWord 2)) (opPress 0))).map (fun t => ((t.pressOf 0).tc[2]?).map fun c =>
      [0, 1, 16, 255].map fun i => (c.acc[i]?).getD 0) = some (some [0x40400000, 0x40800000, 0x40C00000, 0x41000000]) ∧
    (nextOf (exec (pressOp 1 (colWord 2)) (opPress 1))).map (fun t => ((t.pressOf 0).tc[2]?).map fun c =>
      [0, 1, 16, 255].map fun i => (c.acc[i]?).getD 0) = some (some [0x40C00000, 0x40E00000, 0x41100000, 0x41300000]) ∧
    (∀ pop ∈ [(2 : Nat), 3], (nextOf (exec (pressOp pop (colWord 2)) (opPress pop))).map (fun t =>
      ((t.pressOf 0).drains.map fun d => d.toks.map fun u => u.nest.toNat)) = some [[0, 1, 2, 3, 4, 5, 6, 7]]) ∧
    (nextOf (exec (pressOp 2 (colWord 2)) (opPress 2))).map (fun t => ((t.pressOf 0).drains.map fun d => d.toks.map fun u =>
      laneAt 32 u.pay 0)) = some [[0x40C00000, 0x41100000, 0x41100000, 0x41100000, 0x41100000, 0x41100000, 0x41100000, 0x41100000]] := by
  refine ⟨?_, ?_, ?_, ?_, ?_⟩ <;> decide +kernel

/-- A Graft descriptor of N = 1, one channel, steps in bits 7:0, channels in bits 11:8, chunks of 2, y by entry 2 of element 1. -/
def smallDesc : BitVec 512 := BitVec.ofNat 512 (numOf [0, 0, 1, 0, 0, 7, 8, 11, 0, 0xFF, 1, 1, 2])

/-- A scan of two steps of that descriptor with state in SRAM at 0x1000, for command 7. -/
def scanOf (st : ScanSt) : Scan :=
  { desc := 0, rev := false, si := true, so := false, form := 2, steps := 2, svb := 3, stream := 0, siva := 0x1000, sova := 0x1000,
    taken := [], uniform := true, chunks := 0, st := st, status := 0, cmd := 7, set := 0 }

/-- A Graft of context 0 with that descriptor, A = 0, D = 2.0, its running command and 3.0 at SRAM 0x1000. -/
def graftState (f : Graft → Graft) : State :=
  let s := withPlot (queueState [{ cmdOf 0x4A 0 0 0 0 [] with st := .running }]);
  let s := { s with sram := memWrite [] 0x1000 4 0x40400000 };
  s.setGraft 0 (f { Graft.fresh with ctx := some 0, descs := [smallDesc], d := [(0, 0x40000000)] })

/-- The `u` token of a step (x = 1.0, Δ = 1.0) and its shared tokens (B = 4.0, C = 1.0). -/
def uAt (step : Nat) : Token := { dataTok .fp32 [0x3F800000, 0x3F800000] with nest := BitVec.ofNat 48 step }
def bAt (step : Nat) : Token := { dataTok .fp32 [0x40800000] with nest := BitVec.ofNat 48 step }
def cAt (step : Nat) : Token := { dataTok .fp32 [0x3F800000] with nest := BitVec.ofNat 48 step }

/-- With the tokens of both steps and state 3.0. -/
def stepping (form : Nat) : State :=
  graftState fun k => { k with
    scans := [(0, { scanOf .steps with form := form })], steps := [(0, uAt 0), (0, uAt 1)]
    shared := [(0, 1, bAt 0), (0, 3, cAt 0), (0, 1, bAt 1), (0, 3, cAt 1)]
    vecs := [(3, { StateVec.fresh with h := 0x40400000 :: List.replicate 63 0 })] }

/-- A weight load of one word for each of two channels. -/
def wloadOf (got : List Nat) (nch : Nat) : WLoad :=
  { ava := 0x1000, dva := 0x1000, chb := 4, nch := nch, nw := 1, next := 0, got := got, gotH := 0, cmd := 7, set := 0 }

theorem witness_GraftTokenResults :
    (let t := portTok 32 (uAt 1);
      let s := (graftState id).setBuf 0 0 0 [.tok 0 t];
      let k := s.graftOf 0;
      s.TakesAt 0 0 1 0 19 [.fp32] k.ctx 0 t [] ∧ t.colour = (k.desc 0).colour 0 ∧ (k.desc 0).chan t < (k.desc 0).nch ∧
        k.uTok 0 ((k.desc 0).stream t) ((k.desc 0).chan t) ((k.desc 0).step t) = none ∧ k.steps.length < 4096) ∧
    (∀ p ∈ [(1 : Nat), 3], let t := portTok (32 + p) (bAt 1);
      let s := (graftState id).setBuf 0 0 0 [.tok 0 t];
      let k := s.graftOf 0;
      s.TakesAt 0 0 1 0 19 [.fp32] k.ctx p t [] ∧ t.colour = (k.desc 0).colour p ∧
        k.sharedTok 0 ((k.desc 0).stream t) ((k.desc 0).step t) p = none ∧ k.sharedUsed.length < 256) := by
  refine ⟨⟨takesAt _ _ _ _ _ _ _ _ (by decide +kernel) (by decide +kernel) (by decide +kernel) (by decide +kernel), ?_⟩, ?_⟩
  · decide +kernel
  · intro p hp
    simp only [List.mem_cons, List.not_mem_nil, or_false] at hp
    rcases hp with rfl | rfl <;> exact ⟨takesAt _ _ _ _ _ _ _ _ (by decide +kernel) (by decide +kernel) (by decide +kernel)
      (by decide +kernel), by decide +kernel⟩

theorem witness_GraftEventResults :
    (let s := graftState fun k => { k with scans := [(0, scanOf (.stateIn 0))] };
      let k := s.graftOf 0;
      k.ctx = some 0 ∧ tabGet k.scans 0 = some (scanOf (.stateIn 0)) ∧ s.engineMay 0 0 = true ∧
      s.sramFit 0 false 0x1000 4 0x1000 false ∧ s.unionAll 0 [(s.plot 1).handle] = .ok 0 ∧
      (nextOf (exec (.graftStateInDone 0 0) s)).map (fun t => ((t.graftOf 0).vec 3).h.take 2) = some [0x40400000, 0]) ∧
    (let s := stepping 1;
      let k := s.graftOf 0;
      k.ctx = some 0 ∧ k.readyStep k.steps = some (0, { scanOf .steps with form := 1 }, 0, uAt 0, [bAt 0, cAt 0]) ∧
      s.engineMay 0 0 = true ∧ allSwitched k.swIn k.nin = false ∧ (k.vec 3).poison = none ∧
      s.unionAll (k.vec 3).handle [(uAt 0).plate, (bAt 0).plate, (cAt 0).plate, k.wHandle 0] = .ok 0 ∧
      -- h = 1 × 3 + 1 × 4, y = 1 × 7 + 2 × 1
      (nextOf (exec (.graftStepIssue 0) s)).map (fun t => ((t.graftOf 0).vec 3).h.take 2) = some [0x40E00000, 0] ∧
      (nextOf (exec (.graftStepIssue 0) s)).map (fun t => (t.graftOf 0).yout.map fun y => (y.2.1, laneAt 32 y.2.2.pay 0)) =
        some [(34, 0x41100000)]) ∧
    (let s := slotState (.copy opsL) id;
      let s := s.setGraft 0 { Graft.fresh with yout := [(0, 0, cAt 0)] };
      (s.graftOf 0).yout = [(0, 0, cAt 0)] ∧
      (({ s with graft := (s.setGraft 0 { s.graftOf 0 with yout := [] }).graft } : State).engineSend 0 0 0 (cAt 0)).isSome = true) ∧
    (let s := stepping 2;
      let g := s.graftOf 0;
      let shs := [[bAt 0, cAt 0], [bAt 1, cAt 1]];
      g.ctx = some 0 ∧ tabGet g.scans 0 = some (scanOf .steps) ∧ s.engineMay 0 0 = true ∧ allSwitched g.swIn g.nin = false ∧
      s.pressReady 0 = false ∧ g.nextChunk (scanOf .steps) = some 0 ∧
      ((List.range (g.chunkLen (scanOf .steps) 0)).map fun j => g.stepAt (scanOf .steps) (0 * 2 + j)) = [0, 1] ∧
      (match s.chunkChans 0 0 0 0 [0, 1] (fun t j => chunkM 1 ((shs[t]?).getD []) ((shs[j]?).getD [])) [0] with
       | .inl _ => true | .inr _ => false) = true ∧
      -- h0 = 7, h1 = 11; y = h + 2
      (nextOf (exec (.graftChunk 0 0) s)).map (fun t => ((t.graftOf 0).vec 3).h.take 2) = some [0x41300000, 0] ∧
      (nextOf (exec (.graftChunk 0 0) s)).map (fun t => (t.graftOf 0).yout.map fun y => laneAt 32 y.2.2.pay 0) =
        some [0x41100000, 0x41500000]) ∧
    (∀ so ∈ [true, false],
      let sc : Scan := { scanOf .steps with taken := [(0, 2)], chunks := 1, so := so };
      let s := graftState fun k => { k with scans := [(0, sc)] };
      let k := s.graftOf 0;
      k.ctx = some 0 ∧ tabGet k.scans 0 = some sc ∧ s.engineMay 0 0 = true ∧ allSwitched k.swIn k.nin = false ∧
      k.stepsDone 0 sc = true ∧ (∃ c ∈ (s.qcc 0).cmds, c.id = sc.cmd) ∧
      (nextOf (exec (.graftScanComplete 0 0) s)).map states = some [if so then .running else .done 0 1]) ∧
    (∀ got ∈ [[], [5]],
      let s := graftState fun k => { k with wload := some (wloadOf got 2) };
      let k := s.graftOf 0;
      k.ctx = some 0 ∧ k.wload = some (wloadOf got 2) ∧ s.engineMay 0 0 = true ∧ s.unionAll 0 [(s.plot 1).handle] = .ok 0 ∧
      s.sramFit 0 false 0x1000 4 0x1000 false ∧
      (nextOf (exec (.wloadChannelDone 0) s)).map (fun t => ((t.graftOf 0).wload.map (·.next), tabGet (t.graftOf 0).d 4)) =
        some (some got.length, if got = [] then none else some 0x40400000)) ∧
    (let s := graftState fun k => { k with
        shadow := [7], steps := [(0, uAt 0)], nin := [(0, 2), (3, 0)], swIn := [(0, { tokens := 2, sum := 5 })] };
      let k := s.graftOf 0;
      k.ctx = some 0 ∧ allSwitched k.swIn k.nin = true ∧ k.scans = [] ∧ k.yout = [] ∧
      (nextOf (exec (.graftSwitch 0) s)).map (fun t => ((t.graftOf 0).descs, (t.graftOf 0).steps.length)) = some ([7], 0)) := by
  unfold State.sramFit
  refine ⟨?_, ?_, ?_, ?_, ?_, ?_, ?_⟩ <;> decide +kernel

/-- A run over two elements of A at 0x1000 and one of B, of descriptor 0. -/
def riddleRun : Run :=
  RiddleGo.run { desc := 0, tok := none, cmd := some (0, 7), ctx := 0, set := 0
                 record := bytesOf 32 (0x1000 + 0x2000 * 2 ^ 64 + 0x3000 * 2 ^ 128 + 2 * 2 ^ 192 + 2 ^ 224) }

/-- The Riddle of folio 0 with descriptor 0 (`isect`, results by entry 0 of element 0), its running command, and A = 3, 8. -/
def riddleState (f : Riddle → Riddle) : State :=
  let s := withPlot (queueState [{ cmdOf 0x4B 0 0 0 0 [] with st := .running }]);
  let s := { s with sram := memWrite [] 0x1000 8 (3 + 8 * 2 ^ 32) };
  s.setRiddle 0 (f { Riddle.fresh with ctx := some 0, descs := [0] })

/-- The run with both streams read: A = 3, 8 and B = 8. -/
def riddleFull : Run := { riddleRun with abuf := [3, 8], bbuf := [8] }

theorem witness_RiddleGoResults :
    let t := portTok 64 (dataTok .bits [0x1000, 0, 0, 0, 0, 0, 2, 1]);
      let s := (riddleState id).setBuf 0 0 0 [.tok 0 t];
      s.TakesAt 0 0 2 0 31 [.bits] (s.riddleOf 0).ctx 0 t [] ∧ t.colour = 8 ∧ (s.riddleOf 0).go.length < 16 :=
  ⟨takesAt _ _ _ _ _ _ _ _ (by decide +kernel) (by decide +kernel) (by decide +kernel) (by decide +kernel), by decide +kernel⟩

theorem witness_RiddleEventResults :
    (∀ tok ∈ [none, some (dataTok .bits [0, 0, 0, 0, 0, 0, 0, 0])],
      let g : RiddleGo := { desc := 0, tok := tok, cmd := none, ctx := 0, record := [], set := 0 };
      let s := riddleState fun k => { k with go := [g], runs := [(0, riddleRun), (2, riddleRun)] };
      (s.riddleOf 0).go = [g] ∧ (List.range 4).find? (fun i => (tabGet (s.riddleOf 0).runs i).isNone) = some 1 ∧ s.riddleMay 0 0 = true ∧
      allSwitched (s.riddleOf 0).swIn (s.riddleOf 0).nin = false) ∧
    (let s := riddleState fun k => { k with runs := [(0, riddleRun)] };
      let k := s.riddleOf 0;
      let r := riddleRun;
      r.ava = 0x1000 ∧ r.alen = 2 ∧ r.blen = 1 ∧ tabGet k.runs 0 = some r ∧ r.finished = false ∧ s.riddleMay 0 r.ctx = true ∧
      (match r.step (k.form r.desc) with | .need x y => x && y | _ => false) = true ∧ s.sramFit 0 false 0x1000 4 0x1000 false ∧
      s.unionAll r.handle [(s.plot 1).handle] = .ok 0 ∧
      (nextOf (exec (.riddleGranuleReturn 0 0 0) s)).map (fun t => (tabGet (t.riddleOf 0).runs 0).map (·.abuf)) = some (some [3, 8])) ∧
    (let s := riddleState fun k => { k with runs := [(0, riddleFull)] };
      let k := s.riddleOf 0;
      tabGet k.runs 0 = some riddleFull ∧ riddleFull.finished = false ∧ s.riddleMay 0 riddleFull.ctx = true ∧ riddleFull.outp = [] ∧
      riddleFull.pieceFull = false ∧ k.pick = some 0 ∧
      (nextOf (exec (.riddleLoopStep 0 0) s)).map (fun t => (tabGet (t.riddleOf 0).runs 0).map fun r => (r.piece, r.n)) =
        some (some ([8], 1)) ∧
      (nextOf (exec (.riddleLoopStep 0 0) s)).map (fun t => (tabGet (t.riddleOf 0).runs 0).map (·.finished)) = some (some true)) ∧
    (let r : Run := { riddleFull with finished := true, n := 1 };
      let s := riddleState fun k => { k with runs := [(0, r)] };
      tabGet (s.riddleOf 0).runs 0 = some r ∧ s.riddleMay 0 r.ctx = true ∧ r.outp = [] ∧ r.piece = [] ∧ r.tok = none ∧
      r.cmd = some (0, 7) ∧ (nextOf (exec (.riddleResult 0 0) s)).map states = some [.done 0 1]) ∧
    (let t := dataTok .bits [0, 0, 0, 0, 0, 0, 0, 0];
      let r : Run := { riddleFull with finished := true, n := 1, tok := some t };
      let s := (slotState (.copy opsL) id).setRiddle 0 { Riddle.fresh with ctx := some 0, descs := [0], runs := [(0, r)] };
      let k := s.riddleOf 0;
      tabGet k.runs 0 = some r ∧ s.riddleMay 0 r.ctx = true ∧ r.tok = some t ∧
      ((s.setRiddle 0 { k with runs := tabDel k.runs 0, sent := tabAdd k.sent (k.dest r.desc) 1 }).engineSend
        (0 * 64 + k.dest r.desc / 32) r.ctx (k.dest r.desc % 32) (s.riddleToken 0 r t)).isSome = true ∧
      laneAt 32 (s.riddleToken 0 r t).pay 0 = 1) ∧
    (let s := riddleState fun k => { k with
        descs := [], shadow := [7], nin := [(0, 1), (31, 0)], swIn := [(0, { tokens := 1, sum := 5 })] };
      let k := s.riddleOf 0;
      k.ctx = some 0 ∧ allSwitched k.swIn k.nin = true ∧ k.runs = [] ∧ k.descs = [] ∧
      (nextOf (exec (.riddleSwitch 0) s)).map (fun t => (t.riddleOf 0).descs) = some [7]) := by
  unfold State.sramFit
  refine ⟨?_, ?_, ?_, ?_, ?_, ?_⟩ <;> decide +kernel

/-- A step record: logits at 0x1000, V = 3, IBASE 100, SEED 9, STEP 5, K = 2, FP32, MODE 1, PTH and INVT 1.0, RVA 0x1010, group. -/
def stepRecord (grp : Nat) : Bytes :=
  bytesOf 64 (0x1000 + 3 * 2 ^ 64 + 100 * 2 ^ 96 + 9 * 2 ^ 128 + 5 * 2 ^ 192 + 2 * 2 ^ 224 + 2 ^ 248 + 0x3F800000 * 2 ^ 256
    + 0x3F800000 * 2 ^ 288 + 0x1010 * 2 ^ 320 + grp * 2 ^ 384)

/-- A step of command 7 of control core 0. -/
def stepOf (grp : Nat) (st : StepSt) (list : List Cand) : PStep :=
  { quire := 0, cmd := 7, ctx := 0, record := stepRecord grp, commit := false, st := st, list := list, handle := 0, set := 0 }

/-- The Pruner of die 0 with its running command and the logits 1.0, 3.0 and 2.0. -/
def prunerState (f : Pruner → Pruner) : State :=
  let s := withPlot (queueState [{ cmdOf 0x4C 0 0 0 0 [] with st := .running }]);
  let s := { s with sram := memWrite [] 0x1000 12 (0x3F800000 + 0x40400000 * 2 ^ 32 + 0x40000000 * 2 ^ 64) };
  s.setPruner 0 (f Pruner.fresh)

/-- The two best logits of that record. -/
def bestTwo : List Cand := [(101, 0x40400000, 0x40400000), (102, 0x40000000, 0x40000000)]

/-- Group 4 of die 0 and die 1. -/
def groupOf : Group := { members := [(0, 0), (0, 1)], stray := 0, winners := [] }

/-- A commit of one draft that delivers 55 next, to queue 3 of virtual function 1, with MAXLEN 9 and STOPID `stop`. -/
def commitOf (stop : Nat) : Commit :=
  { quire := 0, cmd := 7, ctx := 0, rq := 0x1000, tva := 0, dva := 0, n := 2, req := some (9 * 2 ^ 32 + stop * 2 ^ 64 + 3 * 2 ^ 104)
    toks := [55, 66], drafts := [55], st := .delivering, pos := 4, q := 0, state := 0, delivered := 0, page := 0, status := 0, handle := 0 }

theorem witness_PrunerEventResults :
    (let p := stepOf 0xFF .queued [];
      let s := prunerState fun k => { k with steps := [p] };
      listFind (fun p => !p.commit && p.st == .queued) (s.prunerOf 0).steps 0 = some (0, p) ∧
      (∀ q ∈ (s.prunerOf 0).steps, q.isIntake = false) ∧ s.mayIssue 0 = true) ∧
    (let p := stepOf 0xFF (.intake 2) [(101, 0x40400000, 0x40400000), (100, 0x3F800000, 0x3F800000)];
      let s := prunerState fun k => { k with steps := [p] };
      listFind (·.isIntake) (s.prunerOf 0).steps 0 = some (0, p) ∧ s.mayIssue 0 = true ∧ p.st = .intake 2 ∧ 2 + 1 = p.v ∧
      s.sramFit 0 false ((fieldOf p.record 0 8 + 4 * 2) % 2 ^ 64) 4 0x1008 false ∧ s.unionAll p.handle [(s.plot 1).handle] = .ok 0 ∧
      (nextOf (exec (.prunerIntake 0) s)).map (fun t => (t.prunerOf 0).steps.map (·.list)) = some [bestTwo]) ∧
    (let p := stepOf 0xFF .final bestTwo;
      let s := prunerState fun k => { k with steps := [p] };
      listFind (·.isFinal) (s.prunerOf 0).steps 0 = some (0, p) ∧ s.mayIssue 0 = true ∧ p.grp = 0xFF ∧ p.mode ≠ 2 ∧ s.sram.wf = true ∧
      (∀ k, k < 4 → s.sramFit 0 false ((p.rva + 4 * k) % 2 ^ 64) 4 (0x1010 + 4 * k) true) ∧ s.union 0 (s.plot 1).handle = .ok 0 ∧
      (nextOf (exec (.prunerListFinal 0) s)).map (fun t => (memRead t.sram 0x1010 4, memRead t.sram 0x1014 4)) =
        some (101, 0x40400000) ∧
      (nextOf (exec (.prunerListFinal 0) s)).map (fun t => (memRead t.sram 0x101C 4, states t)) = some (0, [.done 0 101])) ∧
    (let s := prunerState fun k => { k with
        groups := [(4, groupOf)], inbox := [.list 4 5 (0, 1) (stepParams (stepRecord 4)) bestTwo 0 0] };
      (s.prunerOf 0).inbox[0]? = some (.list 4 5 (0, 1) (stepParams (stepRecord 4)) bestTwo 0 0) ∧
      tabGet (s.prunerOf 0).groups 4 = some groupOf ∧ groupOf.members.contains (0, 1) = true ∧
      groupOf.winners.find? (fun w => w.seq == 5) = none ∧ (∃ x ∈ groupOf.members, x ≠ (0, 1)) ∧
      (nextOf (exec (.prunerListMerge 0 0) s)).map (fun t => (t.prunerOf 0).merges.map (·.list)) = some [bestTwo]) ∧
    (let q := stepOf 4 (.sent 0) bestTwo;
      let s := prunerState fun k => { k with steps := [q], inbox := [.winner 4 (Winner.failed 5 0x42)] };
      (s.prunerOf 0).inbox[0]? = some (.winner 4 (Winner.failed 5 0x42)) ∧
      listFind (fun q => !q.commit && q.grp == 4 && q.seq == 5 && (match q.st with | .sent _ => true | _ => false)) (s.prunerOf 0).steps 0
        = some (0, q) ∧ s.mayIssue q.ctx = true ∧ (nextOf (exec (.prunerWinnerArrival 0 0) s)).map states = some [.done 0x42 0]) ∧
    (let s := prunerState fun k => { k with groups := [(4, groupOf)], inbox := [.withdraw 4 5 (0, 9)] };
      (s.prunerOf 0).inbox[0]? = some (.withdraw 4 5 (0, 9)) ∧ tabGet (s.prunerOf 0).groups 4 = some groupOf ∧
      groupOf.members.contains (0, 9) = false) ∧
    (let q : PStep := { stepOf 0xFF .queued [] with commit := true };
      let s := prunerState fun k => { k with steps := [q], commits := [(0, { commitOf 0 with rq := 0x4000 })] };
      listFind (·.commit) (s.prunerOf 0).steps 0 = some (0, q) ∧
      (List.range 64).find? (fun i => (tabGet (s.prunerOf 0).commits i).isNone) = some 1 ∧ s.mayIssue q.ctx = true ∧
      s.commitOn (s.partOf q.ctx) (fieldOf q.record 0 8) = false) ∧
    (∀ stop ∈ [(55 : Nat), 2 ^ 32 - 1],
      let c := commitOf stop;
      let qc : QueueCtl := { base := 0x8000, pidxa := 0x9000, log2n := 4, en := true, irq := true, cidx := 0, seq := 0 };
      let s := (prunerState fun k => { k with commits := [(2, c)] }).setVf 1 { Vf.unbound with queues := [(3, qc)] };
      let s := { s with ctxs := [(0, { Ctx.bare with homevf := 1 })] };
      tabGet (s.prunerOf 0).commits 2 = some c ∧ s.mayIssue c.ctx = true ∧ c.q ≤ accepted c.drafts c.toks ∧ c.state = 0 ∧
      c.pos ≠ c.maxlen ∧ c.maxlen = 9 ∧ c.dq = 3 ∧
      (match s.deliver (s.homeVf c.ctx) c.dq c.token with | .ok t => t.pcie.length == 3 | _ => false) = true ∧
      (nextOf (exec (.commitDeliver 0 2) s)).map (fun t => (tabGet (t.prunerOf 0).commits 2).map fun c => (c.pos, c.state)) =
        some (some (5, if stop = 55 then 1 else 0))) := by
  unfold State.sramFit
  refine ⟨?_, ?_, ?_, ?_, ?_, ?_, ?_, ?_⟩ <;> decide +kernel

/-- 65,536 cycles after a list was sent. -/
theorem witness_PrunerResend :
    let p := stepOf 4 (.sent 0) bestTwo;
    let s := later (prunerState fun k => { k with steps := [p], groups := [(4, { groupOf with members := [(0, 1), (0, 0)] })] }) 65536;
    (s.prunerOf 0).steps[0]? = some p ∧ p.st = .sent 0 ∧ s.mayIssue p.ctx = true ∧ s.cyclesSince 0 0 ≥ 65536 ∧
    (tabGet (s.prunerOf 0).groups p.grp).map (·.members) = some [(s.accel, 1), (0, 0)] := by
  refine ⟨by decide +kernel, by decide +kernel, ?_, later_ge _ _ _, by decide +kernel⟩
  unfold later
  decide +kernel

/-! ### Plates, policies and event queues -/

/-- A union of plates 3 and 9. -/
def unionOf (waiting : Bool) : UnionReq := { plates := [3, 9], ha := 3, hb := 9, ctx := 0, part := 0, waiting := waiting, failed := false }

/-- Composite entries of handles `0x200` on, none of them plates 3 and 9. -/
def setsOf (l : List Nat) : Tab PlateSet := l.map fun h => (h, { plates := [1, 2], mark := false })

/-- A submission for a policy of plate 7 for function 1, kind 0, limit 5, at PCTR 3, with a signature of zeros. -/
def policyBytes : Bytes :=
  bytesOf 8 (1 + 128 * 2 ^ 32) ++ devid ++ bytesOf 8 0 ++ bytesOf 8 (1 + 2 ^ 32) ++ bytesOf 8 5
    ++ bytesOf 48 (7 + 3 * 2 ^ 16) ++ bytesOf 32 0 ++ bytesOf 132 0

def policyState : State :=
  { queueState [{ cmdOf 0x4D 0 0 0 0 [] with st := .running }] with
    plates := [(7, { evf := 1, pctr := 3, key := List.replicate 133 0 })]
    submissions := [{ bytes := policyBytes, length := 260, cmd := (0, 7) }] }

/-- The body is sound, whatever the identity of the device. -/
theorem policy_body : policyState.bodyStatus policyBytes 260 = 0 := by
  unfold State.bodyStatus
  refine (if_neg (by decide +kernel)).trans ?_
  refine (if_neg fun h => h rfl).trans ?_
  decide +kernel

theorem witness_PlateAndEventQueueResults :
    (let s := { State.reset with unions := [unionOf false], sets := setsOf [0x200, 0x201, 0x203] };
      s.unions[0]? = some (unionOf false) ∧ handleIn s.sets (unionOf false).plates = none ∧ s.freeHandle = some 0x202 ∧
      s.waitingUnions = 0 ∧ s.sets.Pairwise (fun a b => a.1 < b.1) ∧
      (nextOf (exec (.plateUnionSpine 0) s)).map (fun t => (tabGet t.sets 0x202).map (·.plates)) = some (some [3, 9])) ∧
    (let s := { State.reset with unions := [unionOf false], sets := setsOf ((List.range 0xE00).map (0x200 + ·)) };
      s.freeHandle = none ∧ s.waitingUnions < 256 ∧ handleIn s.sets [3, 9] = none ∧
      (nextOf (exec (.plateUnionSpine 0) s)).map (fun t => t.unions.map (·.waiting)) = some [true]) ∧
    (let s := { State.reset with unions := [unionOf false, unionOf true] };
      listFind (fun u : UnionReq => u.waiting && !u.failed) s.unions 0 = some (1, unionOf true) ∧ s.freeHandle = some 0x200 ∧
      handleIn s.sets (unionOf true).plates = none) ∧
    (let c : Cmd := { cmdOf 0x4E 0 64 0 0 (bytesOf 32 0) with st := .running };
      let s := { queueState [c] with
        sets := setsOf [0x200, 0x201], sweep := some { cands := [0x200, 0x201], failw := false, cmd := (0, 7) }
        deliveries := [{ vf := 0, queue := 0, tok := { Token.blank 0 with plate := 0x201 }, ctx := 0, pos := 0, node := 0, report := true }] };
      let w : Sweep := { cands := [0x200, 0x201], failw := false, cmd := (0, 7) };
      s.sweep = some w ∧ (s.qcc 0).cmds.find? (fun c => c.id == w.cmd.2) = some c ∧ (s.qcc 0).ctx = some 0 ∧ s.errs = [] ∧
      s.ctl.wf = true ∧ s.unions = [] ∧
      ({ s with sets := setsOf [0x201] } : State).regionGrow 0 c.set (ctlRegions c.xs.toNat 32) = .inl (some [(0, 0)]) ∧
      (nextOf (exec .sweepMarkPassDone s)).map (fun t => t.sets.map (·.1)) = some [0x201] ∧
      (nextOf (exec .sweepMarkPassDone s)).map (fun t => (memRead t.ctl (64 + 16) 4, memRead t.ctl (64 + 20) 4)) = some (1, 2)) ∧
    (let v : Vf := { Vf.unbound with
        event := { base := 0x8000, pidxa := 0x9000, log2n := 4, en := true, irq := true, cidx := 0, seq := 2 }
        events := [{ record := 0xABCD, plate := 0 }] };
      let s := { State.reset with vfs := [(1, v)] };
      s.vf 1 = v ∧ v.event.full = false ∧ s.eventsOut = [] ∧
      (nextOf (exec (.eventRecordWrite 1) s)).map (fun t => t.pcie) = some [.write 0x8040 (bytesOf 32 0xABCD),
        .write 0x9000 (bytesOf 8 3), .msix 1 255]) := by
  refine ⟨?_, ?_, ?_, ?_, ?_⟩ <;> decide +kernel

/-- A submission whose body fails, and one whose body is sound. -/
theorem witness_PolicyCheck :
    (let s := { policyState with submissions := [{ bytes := bytesOf 128 1, length := 128, cmd := (0, 7) }] };
      s.bodyStatus (bytesOf 128 1) 128 ≠ 0) ∧
    (let s := policyState;
      s.bodyStatus policyBytes 260 = 0 ∧ fieldOf policyBytes 0x21 1 ≠ 2 ∧ freeFrom s.policies 0 < 256 ∧
      s.handleOf (((policyPlates policyBytes).take (fieldOf policyBytes 0x20 1)).map (·.1)) = some 7 ∧
      (∃ c ∈ (s.qcc 0).cmds, c.id = 7)) :=
  ⟨by decide +kernel, policy_body, by decide +kernel⟩

/-! ### Launches -/

/-- A launch record of format 1 for load handle `h`: priority, delivery queue, flags 0, no entry. -/
def recordOf (h prio dq : Nat) : Bytes := bytesOf 64 (1 + prio * 2 ^ 8 + dq * 2 ^ 16 + h * 2 ^ 32 + (2 ^ 32 - 1) * 2 ^ 128)

/-- The record on its way, with context number 4. -/
def launchOf (h : Nat) (parent : Option Nat) : Launch :=
  { bytes := recordOf h 3 255, part := 0, parent := parent, homevf := 1, prio := 0, plate := 0, hyp := false, elemAcc := none, cmd := none,
    ctx := 4, resume := false, got := [], image := none, dies := none }

/-- Partition 0 with launches in its channel; context 0 live; function 1 of partition 0 with priorities up to 2; image 6. -/
def launchState (launches : List Launch) (nfolio : Nat) : State :=
  { State.reset with
    ctxs := [(0, { Ctx.bare with prio := 1 })], parts := [(0, { Partn.zero with launches := launches })]
    vfs := [(1, { Vf.unbound with part := some 0, maxPrio := 2 })]
    images := [(6, { (default : Image) with part := 0, nfolio := nfolio, mode := 2 })] }

/-- That state with one record at the head of a die's queue. -/
def queuedState (l : Launch) (nfolio status : Nat) : State :=
  let s := launchState [] nfolio;
  { s.setDie 0 { s.dieAt 0 with queue := [l] } with parts := [(0, { Partn.zero with status := status })] }

theorem witness_LaunchResults :
    (∀ q ∈ [(0, 64, 0, 255), (64, 64, 0, 255), (0, 32, 0, 255), (32, 64, 0, 255), (0, 64, 256, 255)],
      let s := launchState (List.replicate q.2.2.1 (launchOf 6 none)) 1;
      let data := (recordOf 6 7 q.2.2.2).take q.2.1;
      (∀ r ∈ s.hostReqs, r.vf ≠ 1 ∨ r.write = false) ∧ (s.vf 1).part = some 0 ∧ (s.part? 0).isSome = true ∧ data.length = q.2.1 ∧
      fieldOf data 2 1 = 255 ∧
      (nextOf (exec (.launchWindowWrite 1 q.1 data) s)).map (fun t => (t.part? 0).map fun p => (p.launches.drop q.2.2.1).map (·.prio)) =
        some (some (if q.1 % 64 = 0 ∧ q.2.1 = 64 ∧ q.2.2.1 = 0 then [2] else []))) ∧
    (let l := launchOf 6 (some 0);
      let s := { launchState [] 1 with toSpine := [l] };
      s.toSpine[0]? = some l ∧ (s.part? l.part).isSome = true ∧ l.parent = some 0 ∧ s.ctx? 0 = some { Ctx.bare with prio := 1 } ∧
      fieldOf l.bytes 1 1 ≤ 7 ∧
      (nextOf (exec (.launchChannelEntry 0) s)).map (fun t => (t.part? 0).map fun p => p.launches.map (·.prio)) = some (some [1])) ∧
    (let s := launchState [] 1;
      ∀ p ∈ s.part? 0, p.launches = []) ∧
    (let l := launchOf 6 none;
      let s := launchState [l] 1;
      let p : Partn := { Partn.zero with launches := [l] };
      s.parts = [(0, p)] ∧ p.status = 1 ∧ l.prio ≤ 7 ∧ l.format = 1 ∧ s.launchCheck p l = 0 ∧ (tabGet p.fmap 0).isSome = true ∧
      s.dieCredit 0 ≠ 0 ∧ s.freeNumber p = some 1 ∧
      (nextOf (exec .dispatcherCycle s)).map (fun t => t.batches.map fun b => (b.1, b.2.ctx)) = some [(0, 1)]) ∧
    (let s := { State.reset with batches := [(3, launchOf 6 none)] };
      s.batches[0]? = some (3, launchOf 6 none) ∧ (s.dieAt 3).queue.length < 64) ∧
    (∀ nf ∈ [(0 : Nat), 1],
      let l := launchOf 6 none;
      let s := queuedState l nf 1;
      s.reservationsAt 0 = [] ∧ (s.dieAt 0).queue = [l] ∧ l.image = none ∧ l.lhandle = 6 ∧ 6 ≠ noWord ∧
      s.fits l.ctx l.part ((tabGet s.images 6).getD default) (fun d => d == 0 || !(l.dies.getD []).contains d) = .fit ∧
      (∀ d ∈ s.imageDies l.part ((tabGet s.images 6).getD default), d = 0) ∧
      ((s.dropEntry 0 0).place 0 l 6 ((tabGet s.images 6).getD default)).isSome = true) ∧
    (let s := queuedState (launchOf 6 none) 0 1;
      (nextOf (exec (.placement 0) s)).map (fun t => (t.ctx? 4).map fun c => (c.prio, c.homevf)) = some (some (0, 1))) ∧
    (∀ q ∈ [(1, 2, Fit.wait), (2, 1, .never)],
      let l := launchOf 6 none;
      let s := queuedState l q.1 q.2.1;
      s.fits l.ctx l.part ((tabGet s.images 6).getD default) (fun d => d == 0 || !(l.dies.getD []).contains d) = q.2.2 ∧ l.dies = none ∧
      (nextOf (exec (.placement 0) s)).map (fun t => ((t.dieAt 0).queue.length, (t.dieAt 0).headWait)) =
        some (if q.2.2 = .wait then (1, some 0) else (0, none))) ∧
    (let l : Launch := { launchOf 6 none with image := some 6, dies := some [] };
      let s := queuedState l 1 1;
      let s := { s with parts := [(0, { Partn.zero with fmap := [(0, { st := .mapped, ro := false, gfolio := 16, target := none })] })] };
      (s.reservationsAt 1)[0]? = some (0, 0, l) ∧
      s.fits l.ctx l.part ((tabGet s.images 6).getD default) (· == 1) = .fit ∧
      (nextOf (exec (.remoteReservation 1 0) s)).map (fun t => (t.dieAt 0).queue.map (·.dies)) = some [some [1]]) := by
  refine ⟨?_, ?_, ?_, ?_, ?_, ?_, ?_, ?_, ?_⟩ <;> decide +kernel

/-- A head that has waited 65,536 cycles. -/
theorem witness_HeadWait :
    let s := later (State.reset.setDie 0 { State.reset.dieAt 0 with headWait := some 0 }) 65536;
    (s.dieAt 0).headWait = some 0 ∧ s.cyclesSince 0 0 ≥ 65536 ∧ (s.dieAt 0).blocked = false :=
  ⟨by decide +kernel, later_ge _ _ _, by decide +kernel⟩

/-! ### Ends, saves, restores, retirement and turns -/

/-- A context in a tear-down with delivery queue `dq`. -/
def endingCtx (dq : Nat) : Ctx := { Ctx.bare with homevf := 1, dq := dq, tear := .tearing, ending := { kind := 2, code := 0, exit := 9, plate := 0 } }

theorem witness_TearDownAndRecordResults :
    (let s := { (slotState (.copy opsL) id).setBuf 0 4 0 [.tok 0 (dataTok .i32 [1])] with
        ctxs := [(0, endingCtx 3)], toSpine := [launchOf 6 (some 0), launchOf 6 none] };
      s.ctx? 0 = some (endingCtx 3) ∧ (endingCtx 3).tear = .tearing ∧ (endingCtx 3).save = none ∧ s.countOf 0 = 1 ∧
      (nextOf (exec (.tearDown 0) s)).map (fun t => (t.ctx? 0).map fun c => (c.discard, c.cancel)) = some (some (1, 1))) ∧
    (∀ dq ∈ [(3 : Nat), 255],
      let s := { slotState (.copy opsL) id with ctxs := [(0, endingCtx dq)] };
      s.ctx? 0 = some (endingCtx dq) ∧ s.quiet 0 = true ∧
      (nextOf (exec (.tearDownRelease 0) s)).map (fun t => ((t.elem 0).slots.length, t.ctxs.length)) = some (0, if dq = 255 then 0 else 1) ∧
      (nextOf (exec (.tearDownRelease 0) s)).map (fun t => t.deliveries.map fun d => (d.vf, d.queue)) =
        some (if dq = 255 then [] else [(1, 3)])) ∧
    (let m : TrapMsg := { ctx := 0, kind := 1, record := 0xABC, spos := 5, snode := 6, count := 1, plate := 4 };
      let s := { queueState [] with trapOut := [m], images := [(0, { (default : Image) with tasks := [{ pos := 0, chan := 15, prio := 0, entry := 0, load := 0, code := [] }] })] };
      s.trapOut[0]? = some m ∧ s.alive m.ctx = true ∧ s.trapQcc m.ctx = some 0 ∧ s.awake (0 / 4) = true ∧ (s.qcc 0).mergeAt m = none ∧
      ((s.qcc 0).chan 15).length < chanCap 15 ∧
      (nextOf (exec (.trapChannelMessage 0) s)).map (fun t => ((t.qcc 0).chan 15).map (·.plate)) = some [4]) ∧
    (let e : EventRec := { record := BitVec.ofNat 256 (16 * 2 ^ 248), plate := 0 };
      let s := { State.reset with softErrors := [(2, e)] };
      s.softErrors[0]? = some (2, e) ∧ (s.vf pfNum).events.length < 65536 ∧ bitF e.record.toNat 255 248 ≠ 1) := by
  refine ⟨?_, ?_, ?_, ?_⟩ <;> decide +kernel

/-- A save request for an area of `n` bytes. -/
def saveReq (n : Nat) (kill : Bool) : SaveReq :=
  { kill := kill, lane1 := 0, since := 0, va := 0x1000, length := n, statusAddr := 0x8000, reportAddr := 0x9000, reportLen := 1, cmd := (0, 7)
    taken := [] }

/-- A gated context that is being saved, with nothing on its way. -/
def savedCtx (n : Nat) : Ctx := { Ctx.bare with image := 5, gated := true, save := some (saveReq n false) }
def savingIn (s : State) (n : Nat) : State := { s with ctxs := [(0, savedCtx n)] }
def savedNow (s : State) (n : Nat) : Saved := (savingIn s n).savedOf 0 (savedCtx n)

/-- The pieces of its area. -/
def savePieces (s : State) (n : Nat) : List Piece :=
  areaPieces 0 (savedCtx n) (savedNow s n).killed ((savingIn s n).strict 0) ((savingIn s n).sections 0 (savedCtx n) (savedNow s n))

/-- The size of its area, which depends on sizes that the spec leaves to the implementation. -/
def areaSize : Nat := ((savePieces State.reset 0).map fun p => p.1.length).sum

theorem saved_eq (s : State) (n m : Nat) : savedNow s n = savedNow s m := rfl
theorem strict_eq (s : State) (n m : Nat) : (savingIn s n).strict 0 = (savingIn s m).strict 0 := rfl
theorem area_eq (n m : Nat) (k st : Bool) (l : List Section) : areaPieces 0 (savedCtx n) k st l = areaPieces 0 (savedCtx m) k st l := rfl
theorem savingIn_ctx (s : State) (n : Nat) : (savingIn s n).ctx? 0 = some (savedCtx n) := rfl

theorem tokRecs_none : ((savingIn State.reset 0).tokRecs 0 (savedCtx 0) (savedNow State.reset 0)).isEmpty = true ∧
    ((savingIn State.reset areaSize).tokRecs 0 (savedCtx areaSize) (savedNow State.reset areaSize)).isEmpty = true := by
  refine ⟨?_, ?_⟩ <;> decide +kernel

theorem sections_eq (s : State) (n m : Nat) (v : Saved) (h : (savingIn s n).tokRecs 0 (savedCtx n) v = [])
    (k : (savingIn s m).tokRecs 0 (savedCtx m) v = []) :
    (savingIn s n).sections 0 (savedCtx n) v = (savingIn s m).sections 0 (savedCtx m) v := by
  unfold State.sections
  rw [h, k]
  rfl

theorem savePieces_of (s : State) (n m : Nat) (h : (savingIn s n).tokRecs 0 (savedCtx n) (savedNow s n) = [])
    (k : (savingIn s m).tokRecs 0 (savedCtx m) (savedNow s m) = []) : savePieces s n = savePieces s m := by
  unfold savePieces
  rw [sections_eq s n m _ h (saved_eq s n m ▸ k), saved_eq s n m, strict_eq s n m]
  exact area_eq _ _ _ _ _

theorem savePieces_eq : savePieces State.reset areaSize = savePieces State.reset 0 :=
  savePieces_of _ _ _ (List.isEmpty_iff.mp tokRecs_none.2) (List.isEmpty_iff.mp tokRecs_none.1)

theorem savePieces_pos (s : State) (n : Nat) : 0 < ((savePieces s n).map fun p => p.1.length).sum := by
  unfold savePieces areaPieces
  rw [List.map_cons, List.sum_cons]
  refine Nat.lt_of_lt_of_le ?_ (Nat.le_add_right _ _)
  dsimp only
  rw [List.length_append, List.length_append]
  exact Nat.add_pos_left (Nat.add_pos_right _ (by decide)) _

theorem saving_settled (n : Nat) (h : n = 0 ∨ n = areaSize) :
    ((savingIn State.reset n).settled 0 (savedCtx n) && !(savingIn State.reset n).zeroLeft (savedCtx n)) = true := by
  obtain h | h := h <;> rw [h] <;> decide +kernel

/-- It has settled, and its area is too small, or large enough. -/
theorem witness_SettleComplete :
    (∀ n, n = 0 ∨ n = areaSize → (savingIn State.reset n).ctx? 0 = some (savedCtx n) ∧ (savedCtx n).save = some (saveReq n false) ∧
      (savedCtx n).tear = .alive ∧ (savedCtx n).gated = true ∧ (saveReq n false).kill = false ∧
      ((savingIn State.reset n).settled 0 (savedCtx n) && !(savingIn State.reset n).zeroLeft (savedCtx n)) = true) ∧
    ((savePieces State.reset 0).map fun p => p.1.length).sum > (saveReq 0 false).length ∧
    ((savePieces State.reset areaSize).map fun p => p.1.length).sum ≤ (saveReq areaSize false).length :=
  ⟨fun n h => ⟨savingIn_ctx _ _, rfl, rfl, rfl, rfl, saving_settled n h⟩, savePieces_pos _ 0, by rw [savePieces_eq]; exact Nat.le_refl _⟩

/-- A save area of one empty directory entry, its digest in the header. -/
def smallArea : Bytes :=
  bytesOf 24 (0x47585356 + 2 ^ 32 + 0x90 * 2 ^ 64 + 4 * 2 ^ 128 + 2 ^ 160) ++ bytesOf 4 6 ++ bytesOf 36 0 ++ sha512 (bytesOf 16 0) ++ bytesOf 16 0

/-- What that area stands for: context 4 of image 6. -/
def savedSmall : Saved :=
  { (State.reset.savedOf 4 Ctx.bare) with
    digest := (smallArea.drop 0x40).take 64, va := 0x1000, context := { Ctx.bare with image := 6, nfolio := 0 } }

/-- A resume record of control core 0 whose area has been read. -/
def resumeState (b : Bytes) : State :=
  let l : Launch := { launchOf 6 none with cmd := some (0, 7), resume := true, got := b };
  let s := queuedState l 0 1;
  { s with saves := [savedSmall] }

/-- A stop, a killed context without a yield, a restore that fails and one that succeeds, retirements, a turn and a period. -/
theorem witness_SaveRestoreAndRetirementResults :
    (∀ st ∈ [(2 : Nat), 1],
      let p : Partn := { Partn.zero with status := st, stop := some (saveReq 0 false) };
      let s := { State.reset with parts := [(0, p)] };
      s.part? 0 = some p ∧ p.stop = some (saveReq 0 false) ∧ (p.status ≠ 2 ∨ s.stopSettled 0 = true)) ∧
    (let b := bytesOf 128 0;
      let l : Launch := { launchOf 6 none with cmd := some (0, 7), resume := true, got := b };
      let s := resumeState b;
      s.resumes[0]? = some (0, 0, l) ∧ (match s.fetchArea (s.saveWho 0 7) l.imgva l.got with | .done c _ => c == b | _ => false) = true ∧
      (s.savedIn l.part b).isNone = true) ∧
    (let b := smallArea;
      let l : Launch := { launchOf 6 none with cmd := some (0, 7), resume := true, got := b };
      let s := resumeState b;
      s.resumes[0]? = some (0, 0, l) ∧
      (match s.fetchArea (s.saveWho 0 7) l.imgva l.got with
       | .done c s1 => c == b && s1 == s && (match s1.savedIn l.part b with
         | some (v, im) => !s1.numbersUsed.contains 9 && v.ctx == 4 && !v.killed && v.accs.isEmpty &&
           (assignFolios l.part v l.named (fun s => s.takes v im) (List.range v.context.nfolio) (s1.dropEntry 0 0)).isSome
         | none => false)
       | _ => false) = true) ∧
    (∀ k ∈ [(0, 16383), (1, 0), (2, 255), (3, 511)],
      let s := { slotState (.copy opsL) id with bringUp := 2 };
      k.2 < retCount k.1 ∧ s.retired.contains (retUnit k.1 k.2) = false ∧ s.retires k.1 k.2 = true) ∧
    (let s := { slotState (.copy opsL) id with bringUp := 2 };
      s.ctx? 0 = some Ctx.bare ∧ Ctx.bare.tear = .alive ∧ s.usesElem 0 Ctx.bare 0 = true ∧ s.retires 0 0 = true ∧
      (nextOf (exec (.retirement 0 0) s)).map (fun t => (t.ctx? 0).map fun c => (c.tear == .alive, c.ending.code)) = some (some (false, 0xE0))) ∧
    (let v : Vf := { Vf.unbound with part := some 0, mode := 2 };
      let s := { State.reset with
        vfs := [(3, v), (5, v)], ctxs := [(0, { Ctx.bare with homevf := 3 }), (1, { Ctx.bare with homevf := 5, sliced := true })] };
      (s.part? 0).map (·.turn) = some 0 ∧ s.liveVfs 0 = [3, 5] ∧ nextVf 0 [3, 5] = some 3 ∧ (s.liveVfs 0).contains 0 = false ∧
      (nextOf (exec (.sliceEnd 0) s)).map (fun t => t.ctxs.map fun c => c.2.sliced) = some [false, true]) ∧
    (let s := State.reset.setDie 4 { State.reset.dieAt 4 with period := 1, energy := [(0, 7)] };
      s.counter 4 / 2 ^ 20 ≠ (s.dieAt 4).period ∧
      (nextOf (exec (.energyPeriodEnd 4) s)).map (fun t => ((t.dieAt 4).lastEnergy, (t.dieAt 4).energy)) = some ([(0, 7)], [])) := by
  refine ⟨?_, ?_, ?_, ?_, ?_, ?_, ?_⟩ <;> decide +kernel

/-- A kill for which no yield has been taken in 65,536 cycles. -/
theorem witness_KillTimeout :
    let c : Ctx := { Ctx.bare with save := some (saveReq 0 true) };
    let s := later { State.reset with ctxs := [(0, c)] } 65536;
    s.ctx? 0 = some c ∧ c.tear = .alive ∧ (saveReq 0 true).kill = true ∧ (saveReq 0 true).taken = [] ∧
    s.cyclesSince (s.homeDie 0) (saveReq 0 true).since ≥ 65536 :=
  ⟨by decide +kernel, by decide +kernel, by decide +kernel, by decide +kernel, later_ge _ _ _⟩

/-! ### The host, the link, the debug port, resets and power -/

/-- A delivery queue control; sixteen entries unless `full`. -/
def queueOf (en full : Bool) : QueueCtl :=
  { base := 0x8000, pidxa := 0x9000, log2n := 4, en := en, irq := true, cidx := 0, seq := if full then 16 else 2 }

/-- Function 1 of partition 0 with queue 3, and plot 1 of two bytes. -/
def hostState (en : Bool) : State :=
  withPlot { queueState [] with vfs := [(1, { Vf.unbound with part := some 0, ndq := 4, queues := [(3, queueOf en false)] })] }

/-- A message for queue 3 on its way. -/
def deliveryOf : Delivery := { vf := 1, queue := 3, tok := dataTok .i32 [7, 8], ctx := 0, pos := 0, node := 0, report := false }

/-- A request outside the package. -/
def outsideOf (accel : Option Nat) : Outside :=
  { who := .unit 0, accel := accel, ctx := 0, tag := 9, size := 4, handle := 0, since := 0, resp := none }

theorem witness_HostAccessResults :
    (let s := hostState true;
      (s.vf 5).part = none ∧
      (nextOf (exec (.hostApertureRead 5 (2 ^ 36 - 3) 3 8) s)).map (·.pcie) = some [.completion 8 [0xFF, 0xFF, 0xFF] false]) ∧
    (∀ n ∈ [1, 2, 4, 8, 16, 32, 64], (hostState true).hostFit 1 0x1000 n 0 0x1000 true ∧ (hostState true).hostFit 1 0x1000 n 0 0x1000 false) ∧
    (let s := hostState true;
      (s.clasp (s.plot 1).handle (destVf 1) 2).1 = true ∧ s.sram.wf = true ∧ s.grown (.sram 0x1000) (s.ingress (destVf 1)) = .ok 0 ∧
      (nextOf (exec (.hostApertureRead 1 0x1000 2 8) s)).map (·.pcie) = some [.completion 8 [0x11, 0] false] ∧
      (nextOf (exec (.hostApertureWrite 1 0x1000 [5, 6]) s)).map (fun t => (memByte t.sram 0x1000, memByte t.sram 0x1001)) = some (5, 6)) ∧
    (∀ en ∈ [true, false],
      let s := { hostState en with deliveries := [deliveryOf] };
      s.deliveries[0]? = some deliveryOf ∧ s.alive 0 = true ∧ ((s.vf 1).queue 3).en = en ∧ ((s.vf 1).queue 3).full = false ∧
      (s.clasp 0 (destVf 1) deliveryOf.tok.bytes).1 = true ∧
      (nextOf (exec (.deliveryWrite 0) s)).map (fun t => t.pcie.length) = some (if en then 3 else 0)) ∧
    (let s := hostState false;
      (s.vf 1).ndq = 4 ∧ ((s.vf 1).control 3).enableOk false 1 = true ∧ ((s.vf 1).control 3).enableOk false 5 = false ∧
      ((s.vf 1).control 255).enableOk true 1 = false ∧
      (nextOf (exec (.queueEnableWrite 1 3 [3]) s)).map (fun t => (((t.vf 1).queue 3).en, ((t.vf 1).queue 3).seq)) = some (true, 0) ∧
      (nextOf (exec (.queueEnableWrite 1 3 [5]) s)).map (fun t => ((t.vf 1).queue 3).en) = some false ∧
      (nextOf (exec (.queueEnableWrite 1 3 (bytesOf 18 (0x1000 + 0x2008 * 2 ^ 64 + 5 * 2 ^ 128 + 2 ^ 136))) s)).map (fun t =>
        (((t.vf 1).queue 3).base, ((t.vf 1).queue 3).log2n)) = some (0x1000, 5) ∧
      (nextOf (exec (.registerWrite 1 0x2060 [0, 0x70]) s)).map (fun t => ((t.vf 1).queue 3).base) = some 0x7000) ∧
    (numOf (bytesOf 8 (3 * 2 ^ 36)) % 2 ^ 36 = 0) ∧
    (let s := (hostState true).setVf 1 { Vf.unbound with status := 0x0001_02_03_04_05_06_07 };
      (nextOf (exec (.vfStatusWrite 1 0xFFFF_00_FF_00_FF_00_FF) s)).map (fun t => (t.vf 1).status) = some 0x0001_00_03_00_05_00_07) ∧
    (let s := { State.reset with outside := [outsideOf none] };
      (∃ o ∈ s.outside, o.tag = 9 ∧ o.accel = none ∧ o.resp = none) ∧
      (∀ o ∈ s.outside, o.tag = 9 → (bytesOf 4 0xABCD).length = o.size) ∧
      (nextOf (exec (.hostWindowCompletion 9 0 (bytesOf 4 0xABCD)) s)).map (fun t => t.outside.map (·.resp)) = some [some (0, 0xABCD)]) := by
  unfold State.hostFit State.sramFit
  refine ⟨?_, ?_, ?_, ?_, ?_, ?_, ?_, ?_⟩ <;> decide +kernel

/-- A link of `lanes` lanes with one flit in its replay buffer. -/
def linkState (lanes : Nat) : State :=
  { State.reset with ports := [(0, { replay := [[1, 2]], txSeq := 5, rxSeq := 6, lanes := lanes })], hbm := [(0x1000, 0x11)] }

theorem witness_LinkAndDebugResults :
    (let s := linkState 64;
      (s.port 0).lanes ≠ 0 ∧ s.retired.contains (.chan 0) = false ∧ s.stackAwake 0x1000 = true ∧ s.errs = [] ∧
      (∀ n ∈ [1, 2, 4, 8, 16, 32, 64, 128], 0x1000 % n = 0) ∧ s.hbm.wf = true ∧
      s.union (s.ingress (destPeer 3)) (s.mapHandle 0x1000) = .ok 0 ∧ (s.clasp (s.mapHandle 0x1000) (destPeer 3) 2).1 = true ∧
      (nextOf (exec (.peerRequestArrival 3 3 0x1000 2 [7, 8]) s)).map (fun t => (memByte t.hbm 0x1000, memByte t.hbm 0x1001)) = some (7, 8) ∧
      (nextOf (exec (.peerRequestArrival 3 1 0x1000 2 []) s)).map (fun t => t.linkOut.map fun q => (flitMsg q.2).data.take 2) =
        some [[0x11, 0]]) ∧
    (let s := { linkState 64 with outside := [outsideOf (some 3)] };
      s.outside = [outsideOf (some 3)] ∧ (linkState 64).port 0 = s.port 0) ∧
    ((nextOf (exec (.linkLaneLoss 0 16) (linkState 32))).map (fun t => (t.linkOut, (t.port 0).lanes)) = some ([(0, [1, 2])], 16) ∧
      (nextOf (exec (.linkLaneLoss 0 0) (linkState 16))).map (fun t => (t.linkOut, (t.port 0).lanes)) = some ([], 0) ∧
      (nextOf (exec (.linkLanesUp 0 64) (linkState 32))).map (fun t => (t.linkOut, (t.port 0).lanes)) = some ([(0, [1, 2])], 64)) ∧
    (let s := { linkState 0 with outside := [outsideOf (some 3)] };
      (s.port 0).lanes = 0 ∧ (outsideOf (some 3)).tag = 9 ∧ (outsideOf (some 3)).accel ≠ none ∧ (outsideOf (some 3)).resp = none) ∧
    (State.reset.accel < 2 ^ 16) ∧
    (let s := { hostState true with debugOn := true };
      s.debugOn = true ∧ s.part? 0 ≠ none ∧ s.hostDie 0 ≠ none ∧ s.sramFit 0 false 0x1000 2 0x1000 false ∧
      (s.clasp (s.plot 1).handle destDebug 2).1 = true ∧
      (nextOf (exec (.debugRead 0 0x1000 2) s)).map (·.debugOut) = some [([0x11, 0], false)]) := by
  unfold State.sramFit
  refine ⟨?_, ?_, ?_, ?_, ?_, ?_⟩ <;> decide +kernel

/-- The body of the flit that answers request 9 of accelerator 3 with four bytes, of sequence number 6. -/
def answerBody : Bytes :=
  ({ dest := 0, kind := 2, src := 3, vc := 1, tag := 9, addr := 0, size := 4, aop := 0, status := 0, data := bytesOf 4 0xABCD } : FlitMsg).body 6

theorem numOf_bytesOf (n v : Nat) : numOf (bytesOf n v) = v % 256 ^ n := by
  induction n generalizing v with
  | zero => simp [bytesOf, numOf, Nat.mod_one]
  | succ n ih =>
    simp only [bytesOf, numOf, ih, BitVec.toNat_ofNat]
    have e : 256 ^ (n + 1) = 256 * 256 ^ n := by rw [Nat.pow_succ, Nat.mul_comm]
    rw [e, Nat.mod_mul]

/-- A sound flit, and the same with another sequence number. -/
theorem witness_FlitReceive :
    let b := answerBody ++ bytesOf 8 (crc64 answerBody).toNat;
    b.length = 256 ∧ fieldOf b 248 8 = (crc64 (b.take 248)).toNat ∧ fieldOf b 4 2 = ((linkState 64).port 0).rxSeq.toNat ∧ flitOk b = true ∧
    (flitMsg b).kind = 2 ∧ (flitMsg b).tag = (outsideOf (some 3)).tag ∧ (flitMsg b).src = 3 ∧
    fieldOf b 4 2 ≠ (({ linkState 64 with ports := [] } : State).port 0).rxSeq.toNat := by
  have e : answerBody.length = 248 := by decide +kernel
  refine ⟨by decide +kernel, ?_, by decide +kernel, by decide +kernel, by decide +kernel, by decide +kernel, by decide +kernel, by decide +kernel⟩
  rw [List.take_left' e, fieldOf, List.drop_left' e, List.take_of_length_le (by decide +kernel), numOf_bytesOf]
  exact Nat.mod_eq_of_lt (crc64 answerBody).isLt

theorem witness_SecurityAndResetResults :
    ((List.replicate 64 (0 : Byte)).length = 64 ∧ State.reset.bringUp = 5 ∧ State.reset.rollback ≤ (0 : Word).toNat ∧
      (1 : Word).toNat < ({ State.reset with rollback := 2 } : State).rollback) ∧
    (let s := { State.reset with bringUp := 3, retired := [.folio 0, .chan 0], sram := [(5, 6)] };
      s.bringUp = 3 ∧ (nextOf (exec .coldReset s)).map (fun t => (t.bringUp, t.sram)) = some (4, [])) ∧
    (let s := { State.reset with bringUp := 4, parts := [], retired := [.folio 0, .chan 0, .chan 1] };
      (nextOf (exec .warmReset s)).map (fun t => t.parts.map fun p => (p.2.channels, p.2.fmap.map (·.2.gfolio))) = some [([2], [1])]) ∧
    (let s := { slotState (.copy opsL) id with ctxs := [(0, { Ctx.bare with homevf := 1 }), (1, { Ctx.bare with homevf := 2 })] };
      tabGet s.flr 1 = none ∧ s.ctxs.Pairwise (fun a b => a.1 < b.1) ∧
      (nextOf (exec (.vfFlr 1) s)).map (fun t => t.ctxs.map fun c => (c.2.tear == .alive, c.2.ending.code)) =
        some [(false, 0xE3), (true, 0)]) ∧
    (let s := { State.reset with flr := [(1, 4)], ctxs := [(1, { Ctx.bare with homevf := 2 })] };
      tabGet s.flr 1 = some 4 ∧ (∀ c ∈ s.ctxs, c.2.homevf ≠ 1) ∧ (s.vf 1).events = [] ∧
      (nextOf (exec (.vfFlr 1) s)).map (fun t => ((t.vf 1).events.length, t.flr.length)) = some (1, 0)) ∧
    (({ State.reset with bringUp := 4 } : State).bringUp < 5) := by
  refine ⟨?_, ?_, ?_, ?_, ?_, ?_⟩ <;> decide +kernel

theorem witness_PowerResults :
    (∀ w ∈ [((0 : Word), 500), (500, 500), (3400, 3400), (0xFFFFFFFF, 3400)],
      (nextOf (exec (.pwrlimWrite w.1) State.reset)).map (·.pwrlim) = some w.2) ∧
    (3401 > State.reset.pwrlim ∧ 1 < State.reset.issueRate ∧ 100 * 3229 < 95 * State.reset.pwrlim ∧
      ({ State.reset with issueRate := 15 } : State).issueRate < 16 ∧ 95 * State.reset.pwrlim ≤ 100 * 3230) ∧
    (∀ q ∈ [(3000, PowerSt.f2, 2), (2999, .f1, 1), (52, .f1, 1), (51, .f0, 1)],
      let s := { State.reset with pmtol := [(0, q.1)] };
      s.powerOf 0 = .f0 ∧ s.folioIdle 0 = true ∧ s.ownerOf 0 = some 0 ∧ (nextOf (exec (.powerStateEntry 0 0 q.2.2) s)).map (·.powerOf 0) =
        some q.2.1) ∧
    (let s := { State.reset with pmtol := [(0, 40000)] };
      s.powerOf (256 + 0) = .f0 ∧ s.dieIdle 0 = true ∧ (∀ p ∈ s.parts, p.2.onDie 0 = true → 40000 ≤ tabNum s.pmtol p.1) ∧
      (nextOf (exec (.powerStateEntry 1 0 3) s)).map (·.powerOf 256) = some .d2) ∧
    (let s := { State.reset with l1 := true, pmtol := [(0, 2000000)], power := (List.range 16).map fun d => (256 + d, .d2) };
      s.powerOf 512 = .f0 ∧ s.packageMay = true ∧ (nextOf (exec (.powerStateEntry 2 0 4) s)).map (·.powerOf 512) = some .k3) ∧
    (let s := { State.reset with power := [(256, .d2)] };
      s.powerOf 256 = .d2 ∧ (nextOf (exec (.unitWake 1 0) s)).map (·.powerOf 256) = some .f0) := by
  refine ⟨?_, ?_, ?_, ?_, ?_, ?_⟩ <;> decide +kernel

/-! ### The stated rules, words, steps and the whole machine -/

/-- The nine classes in FP32 and BF16: -inf, normal, subnormal, -0, +0, subnormal, normal, +inf, NaN. -/
theorem witness_FclassSetsTheBitOfTheClass :
    ∀ p ∈ [((Instr.fclass : ElemOps → Instr), Fmt.fp32, [0xFF800000, 0xBF800000, 0x80000001, 0x80000000, 0, 1, 0x3F800000, 0x7F800000, 0x7F800001]),
        (Instr.fclassBf16, Fmt.bf16, [0xFF80, 0xBF80, 0x8001, 0x8000, 0, 1, 0x3F80, 0x7F80, 0x7F81])],
      let s := firingState 0 [] (some (dataTok p.2.1 p.2.2)) none;
      let f := fireOf s;
      let a := f.read .slotL 0 p.2.1;
      s.Fires f [a] 0 ∧ a.fmtIn [p.2.1] ∧ stdCheck 9 [(a, [p.2.1])] = none ∧ tagAction f 0 (a.lane 0) 0 = some 0 ∧ colourOf [a] = 9 ∧
      given s (p.1 opsL) opsL f 0 0 (Shape.data .i32 9) 32 9 (fun k => 2 ^ k) := by
  unfold State.Fires Opnd.fmtIn
  decide +kernel

/-- The block shift of magnitudes up to 6.0, of zeros, with an infinity, of the largest and of the smallest FP32 value. -/
theorem witness_BmaxGivesTheBlockShift :
    ∀ p ∈ [([0x3F800000, 0xC0C00000], (2 : Int)), ([0, 0x80000000], -128), ([0x3F800000, 0xFF800000], 127), ([0x7F7FFFFF, 1], 127), ([1, 0], -127)],
      let s := firingState 0 [] (some (dataTok .fp32 p.1)) none;
      let f := fireOf s;
      let a := f.read .slotL 0 (f.want [.fp32, .bf16] [.slotL]);
      s.Fires f [a] 0 ∧ a.fmtIn [.fp32, .bf16] ∧ stdCheck 2 [(a, [.fp32, .bf16])] = none ∧ tagAction f 0 (a.lane 0) 0 = some 0 ∧
      given s (.bmax opsL) opsL f 0 0 (Shape.data .i32 2) 32 2 (fun _ => (BitVec.ofInt 32 p.2).toNat) := by
  unfold State.Fires Opnd.fmtIn
  decide +kernel

/-- Operand fields by number: SA, SB, DX, DY, TA, LX. -/
def opsOf (sa sb dx dy ta lx : Nat) : ElemOps :=
  { sa := BitVec.ofNat 3 sa, sb := BitVec.ofNat 3 sb, dx := BitVec.ofNat 5 dx, dy := BitVec.ofNat 5 dy, ta := BitVec.ofNat 4 ta, lx := BitVec.ofNat 4 lx }

/-- Words of element instructions from the tables of R195 to R204: steering, integers, compares, floats, lanes, conversions, memory,
atomics, fences and system. -/
theorem test_element_words :
    decodeElem 0b00000000_010_001_00011_00100_0001_0000 = some (.steer (opsOf 2 1 3 4 1 0)) ∧
    decodeElem 0b00010001_000_001_00010_11111_0000_0000 = some (.pand (opsOf 0 1 2 31 0 0)) ∧
    decodeElem 0b00100001_000_010_11111_00101_0000_1110 = some (.sub (opsOf 0 2 31 5 0 14)) ∧
    decodeElem 0b01000000_000_100_00001_00010_0000_0000 = some (.fadd (opsOf 0 4 1 2 0 0)) ∧
    decodeElem 0b01100000_001_000_00001_11111_0000_0000 = some (.faddBf16 (opsOf 1 0 1 31 0 0)) ∧
    decodeElem 0b10000000_000_001_00000_11111_0000_0000 = some (.cvt (opsOf 0 1 0 31 0 0)) ∧
    decodeElem 0b10010000_000_110_00000_11111_0000_0000 = some (.ld (opsOf 0 6 0 31 0 0)) ∧
    decodeElem 0b10011001_000_001_00000_11111_0000_0000 = some (.stOrd (opsOf 0 1 0 31 0 0)) ∧
    decodeElem 0b10010110_000_001_00000_11111_0000_0000 = some (.wclr (opsOf 0 1 0 31 0 0)) ∧
    decodeElem 0b10100001_000_001_00000_11111_0000_0000 = some (.hst (opsOf 0 1 0 31 0 0)) ∧
    decodeElem 0b10101010_000_001_00000_11111_0000_0000 = some (.atomOrd (opsOf 0 1 0 31 0 0)) ∧
    decodeElem 0b10110010_000_110_00000_11111_0000_0000 = some (.fenceScF (opsOf 0 6 0 31 0 0)) ∧
    decodeElem 0b10111101_000_110_00000_11111_0000_0000 = some (.send (opsOf 0 6 0 31 0 0)) ∧
    decodeElem 0xFF000000 = none := by
  decide +kernel

/-- Words of control-core instructions from the tables of R205 to R208: each format, `scan` with each of its bits, `amo` and `part`. -/
theorem test_qcc_words :
    (decodeQcc 0b0000000_00001_00010_00011_0000000001 == some (.aluSub 1 2 3)) = true ∧
    (decodeQcc 0x02507FFD == some (.addi 5 0 0x7FFD)) = true ∧ (decodeQcc 0x14E05010 == some (.lui 14 0x05010)) = true ∧
    (decodeQcc 0x28601000 == some (.lw 6 0 0x1000)) = true ∧ (decodeQcc 0x2E031000 == some (.sw 0 6 0x1000)) = true ∧
    (decodeQcc 0x6A500000 == some (.sysr 5 0 0)) = true ∧ (decodeQcc 0x60000000 == some .tend) = true ∧
    (decodeQcc 0x86A03000 == some (.qccLaunch 10 12)) = true ∧ (decodeQcc 0x8C042400 == some (.barr 8 9)) = true ∧
    (decodeQcc 0x94A5B001 == some (.scan 10 11 12 0 0 0 1)) = true ∧ (decodeQcc 0x96A5B000 == some (.setx 10 11 12)) = true ∧
    (decodeQcc 0x9E053C00 == some (.pmTol 10 15)) = true ∧ (decodeQcc 0xA0A1B002 == some (.partFmap 10 3 12)) = true ∧
    (decodeQcc 0xA1955808 == some (.partVf 25 10 22)) = true ∧ (decodeQcc 0xFE000000).isNone = true ∧
    (decodeQcc 0x60000001).isNone = true := by
  decide +kernel

/-- Press words: `pmmad tc2, ta1.e4m3, tb3.q4.t, k=4, last=20 => e5.d3, bf16.sat` (R310), `pdrain`, a reserved bit, and a reserved POP. -/
theorem test_press_words :
    (decodePress 0x3000000000100000 == some (.pdrain { pressFieldsOf 0 with didx := 1 })) = true ∧
    (decodePress 0x27944C0E8A300000 == some (.pmmad {
      ta := 1, tb := 3, tc := 2, afmt := 2, bfmt := 4, tra := 0, trb := 1, ofmt := 1, sat := 1, ksm1 := 3, lastn := 20, del := 5, didx := 3 })) = true ∧
    (decodePress 0x3000000000100001).isNone = true ∧ (decodePress 0x4000000000100000).isNone = true := by
  decide +kernel

/-- One ill-formed word for each check of an element word: SB fixed at 6 and at 1, A not from a slot, B not from a slot, a destination
of `sink`, TA or LX of a fixed field, SA reserved, SB reserved, no B where B is read, one slot read twice, no slot at all, a literal
of a far address, LX without a literal, LX 15 with a control word and a literal, TA reserved, TA 5 outside `alloc`. -/
theorem test_elemWf_refuses :
    (∀ q ∈ [(0x03, opsOf 0 0 0 0 0 0), (0x00, opsOf 2 0 0 0 0 0), (0x06, opsOf 2 6 0 0 0 0), (0x11, opsOf 0 4 0 0 0 0),
        (0x04, opsOf 0 6 1 31 0 0), (0x06, opsOf 0 6 0 0 1 0), (0x10, opsOf 0 6 0 0 1 0), (0x08, opsOf 0 6 0 0 1 0), (0x09, opsOf 0 6 0 0 1 0),
        (0xB9, opsOf 0 6 0 0 0 1), (0x1F, opsOf 0 1 0 0 0 0), (0x20, opsOf 6 0 0 0 0 0), (0x20, opsOf 0 7 0 0 0 0), (0x20, opsOf 0 6 0 0 0 0),
        (0x20, opsOf 0 0 0 0 0 0), (0x20, opsOf 3 4 0 0 0 0), (0x97, opsOf 0 2 0 0 0 0), (0x20, opsOf 0 1 0 0 0 1), (0x24, opsOf 0 2 0 0 0 15),
        (0x20, opsOf 0 1 0 0 9 0), (0x20, opsOf 0 1 0 0 5 0)], elemWf q.1 q.2 = false) ∧
    elemWf 0x20 (opsOf 0 1 0 0 0 0) = true ∧ elemWf 0x08 (opsOf 0 6 0 31 5 0) = true ∧ elemWf 0x24 (opsOf 0 2 0 0 0 14) = true := by
  decide +kernel

/-- One ill-formed press word for each check, and a form of `amo` that the tables do not have. -/
theorem test_pressWf_refuses :
    let w : PressWord := { pressFieldsOf 0 with afmt := 1, bfmt := 1 };
    pressWf 0 w = true ∧ pressWf 2 { w with ofmt := 3 } = true ∧ pressWf 3 { pressFieldsOf 0 with didx := 30 } = true ∧
    (∀ q ∈ [(0, { w with afmt := 0 }), (0, { w with afmt := 4 }), (0, { w with bfmt := 6 }), (0, { w with ksm1 := 16 }),
        (0, { w with afmt := 2, ksm1 := 32 }), (0, { w with afmt := 2, bfmt := 2, ksm1 := 32 }), (0, { w with ofmt := 1 }), (0, { w with sat := 1 }),
        (2, { w with ofmt := 4 }), (2, { w with didx := 31 }), (3, w), (3, { pressFieldsOf 0 with lastn := 1 })], pressWf q.1 q.2 = false) ∧
    (Instr.amo 1 2 3 0 10).wf = true ∧ (Instr.amo 1 2 3 0 11).wf = false := by
  decide +kernel

/-- A well-formed instruction of each unit, and words that decode. -/
theorem witness_EncodingAndDecodingAgree :
    (∃ n, (Instr.sub (opsOf 0 2 31 5 0 14)).wf = true ∧ encode (.sub (opsOf 0 2 31 5 0 14)) = some (.elem, n) ∧ n < 2 ^ 32) ∧
    (∃ n, (Instr.addi 5 0 0x7FFD).wf = true ∧ encode (.addi 5 0 0x7FFD) = some (.qcc, n) ∧ n < 2 ^ 32) ∧
    (∃ n, (Instr.pmma { pressFieldsOf 0 with afmt := 1, bfmt := 1 }).wf = true ∧
      encode (.pmma { pressFieldsOf 0 with afmt := 1, bfmt := 1 }) = some (.press, n) ∧ n < 2 ^ 64) := by
  refine ⟨⟨0b00100001_000_010_11111_00101_0000_1110, ?_⟩, ⟨0x02507FFD, ?_⟩, ⟨9 * 2 ^ 48, ?_⟩⟩ <;> decide +kernel

/-- An element, a control core and a Press at the head of the agenda with a word that decodes and completes, and an event. -/
theorem witness_StepRunsTheDecodedInstruction :
    (let w : Word := 0b00100001_000_010_11111_00101_0000_0000;
      let s := State.reset.withElemWord w;
      let s0 : State := { s with agenda := [] };
      s.agenda = [.elem 0] ∧ s.bringUp = 5 ∧ s0.arbitrate 0 = some (0, Pair.bare) ∧ Pair.bare.switch = false ∧
      tabGet (s0.elem 0).slots 0 = some (Slot.bare w) ∧
      decodeElem (BitVec.ofNat 32 ((Slot.bare w).word Pair.bare.node)) = some (.sub (opsOf 0 2 31 5 0 0)) ∧
      (nextOf (exec (.sub (opsOf 0 2 31 5 0 0)) { s0 with firing := some { pos := 0, slotIx := 0, pair := Pair.bare } })).isSome = true) ∧
    (let s := State.reset.withQccWord 0x02507FFD;
      let s1 : State := { s with agenda := [], cur := 0 };
      s.agenda = [.qcc 0] ∧ (∃ x ∈ s1.running, x.k.pc = 0 ∧ x.t.count = 0) ∧ s.awake 0 = true ∧ s.errs = [] ∧ memRead s.ctl 0 4 = 0x02507FFD ∧
      (nextOf (exec (.addi 5 0 0x7FFD) s1)).map (fun t => ((t.qcc 0).reg 5).toNat) = some (2 ^ 32 - 3)) ∧
    (let s := opPress 1;
      (∃ w, (s.pressOf 0).pick = some (0, goTok) ∧ (decodePress ((s.pressOf 0).wordOf goTok) == some (.pmmac w)) = true ∧
        (nextOf (exec (.pmmac w) { s with cur := 0 })).isSome = true)) ∧
    encode (.linkTransfer 0 0 0) = none ∧ (nextOf (exec (.linkTransfer 0 0 0) State.reset)).isSome = true := by
  refine ⟨?_, ?_, ⟨colWord 2, ?_⟩, ?_⟩ <;> decide +kernel

/-- Memories in their canonical form, and ones that are not. -/
theorem witness_EveryStepKeepsTheMemoriesCanonical :
    State.reset.memOk = true ∧ ({ State.reset with sram := [(5, 1), (9, 2)], hbm := [(0, 7)] } : State).memOk = true ∧
    ({ State.reset with sram := [(9, 1), (5, 2)] } : State).memOk = false ∧ ({ State.reset with ctl := [(9, 0)] } : State).memOk = false := by
  decide +kernel

/-- What stands at the head of the agenda runs at the next step: a schedule is asked only when it is empty. -/
theorem test_step_runs_the_agenda :
    ({ State.reset with agenda := [.event (.warmReset)] } : State).nextTurn.1 = .event .warmReset := by
  rfl

end Sys2Proof.Tests
end

/-! SUPPORT. The stated rules of the float opcodes (R242, R246): the class of a lane by its fields, and the block shift by the greatest
magnitude. -/

namespace Sys2Proof.Machine

/-! ### Results of a lane-wise instruction of one operand -/

/-- A lane-wise instruction of one operand that goes through gives the lanes that its lane function answers. -/
theorem State.gives_of_lanewise1 {s : State} {i : Instr} {o : ElemOps} {fs : List Fmt} {rfmt : Opnd → Fmt}
    {res : Fire → Opnd → List Nat → List Nat} {f : Fire} {h : Handle} {nest : BitVec 48} {a : Opnd} {lane : Nat → Nat}
    (hx : exec i s = s.lanewise o fs false false false rfmt (fun _ _ => none) fun f x a _ _ => res f x a)
    (ea : a = f.read (srcOf o.sa) o.lx.toNat (f.want fs [srcOf o.sa]))
    (hf : s.Fires f [a] h) (hs : stdCheck (colourOf [a]) [(a, fs)] = none)
    (hn : tagAction f o.ta.toNat (a.lane 0) 0 = some nest)
    (hl : ∀ k, k < colourOf [a] →
      ((res f a ((List.range (colourOf [a])).map a.lane))[k]?).getD 0 % 2 ^ fmtWidth (rfmt a) = lane k) :
    s.Gives i o f nest h (Shape.data (rfmt a) (colourOf [a])) (fmtWidth (rfmt a)) (colourOf [a]) lane := by
  refine ⟨_, hx.trans (State.lanewise1_next ea hf hs hn), fun k hk => ?_⟩
  have hcolour : colourOf [a] ≤ 32 := colourOf_le _ fun x hx => by
    rw [List.mem_singleton.mp hx, ea]
    exact f.read_narrow _ _ _
  have hfits : fmtWidth (rfmt a) * (k + 1) ≤ 32 * 32 := Nat.mul_le_mul (fmtWidth_le _) (by omega)
  rw [laneAt_packLanes _ hfits, hl k hk]

/-! ### Exact values of lanes -/

theorem pow2_eq (e : Int) : pow2 e = (2 ^ e.toNat, 2 ^ (-e).toNat) := by
  unfold pow2
  split
  · rw [show (-e).toNat = 0 by omega, Nat.pow_zero]
  · rw [show e.toNat = 0 by omega, Nat.pow_zero]

theorem valScaled_eq (neg : Bool) (m : Nat) (e : Int) :
    valScaled neg m e = .num neg (m * 2 ^ e.toNat) (2 ^ (-e).toNat) := by
  rw [valScaled, pow2_eq]

theorem mul_two_pow_eq_zero_iff {m k : Nat} : m * 2 ^ k = 0 ↔ m = 0 := by
  rw [Nat.mul_eq_zero, or_iff_left (Nat.ne_of_gt (Nat.two_pow_pos k))]

theorem two_pow_add_ne_zero (k m : Nat) : 2 ^ k + m ≠ 0 :=
  Nat.ne_of_gt (Nat.add_pos_left (Nat.two_pow_pos k) m)

/-- An exact value has a positive denominator. -/
def Val.HasPosDenom : Val → Prop
  | .num _ _ d => 0 < d
  | _ => True

theorem nan_hasPosDenom : Val.nan.HasPosDenom := trivial

theorem inf_hasPosDenom (neg : Bool) : (Val.inf neg).HasPosDenom := trivial

theorem valOfInt_hasPosDenom (i : Int) : (valOfInt i).HasPosDenom := Nat.one_pos

theorem valScaled_hasPosDenom (neg : Bool) (m : Nat) (e : Int) : (valScaled neg m e).HasPosDenom := by
  rw [valScaled_eq]
  exact Nat.two_pow_pos _

theorem ite_hasPosDenom {c : Prop} [Decidable c] {x y : Val} (hx : x.HasPosDenom) (hy : y.HasPosDenom) :
    (if c then x else y).HasPosDenom := by
  split
  · exact hx
  · exact hy

/-- Every lane decodes to a value with a positive denominator (R175, R178). -/
theorem decodeLane_hasPosDenom (f : Fmt) (b : Nat) : (decodeLane f b).HasPosDenom := by
  cases f with
  | q4 | q3 | i32 => exact valOfInt_hasPosDenom _
  | bits => exact Nat.one_pos
  | fp32 | bf16 | e5m2 =>
    exact ite_hasPosDenom (valScaled_hasPosDenom _ _ _)
      (ite_hasPosDenom (ite_hasPosDenom (inf_hasPosDenom _) nan_hasPosDenom) (valScaled_hasPosDenom _ _ _))
  | e4m3 =>
    exact ite_hasPosDenom (valScaled_hasPosDenom _ _ _)
      (ite_hasPosDenom (ite_hasPosDenom nan_hasPosDenom (valScaled_hasPosDenom _ _ _)) (valScaled_hasPosDenom _ _ _))

theorem denom_pos_of_decodeLane {f : Fmt} {b n d : Nat} {neg : Bool} (h : decodeLane f b = .num neg n d) : 0 < d := by
  have hpos := decodeLane_hasPosDenom f b
  rwa [h] at hpos

/-- An FP32 or BF16 lane by its sign bit, its exponent field of 8 bits and its mantissa (R175). -/
theorem decodeLane_fp32_bf16 {f : Fmt} (hf : f = .fp32 ∨ f = .bf16) (b : Nat) :
    let negative := b.testBit (fmtWidth f - 1)
    let exponent := b / 2 ^ mbits f % 256
    let mantissa := b % 2 ^ mbits f
    decodeLane f b =
      if exponent = 0 then valScaled negative mantissa (emin f - mbits f)
      else if exponent = 255 then (if mantissa = 0 then .inf negative else .nan)
      else valScaled negative (2 ^ mbits f + mantissa) (emin f - mbits f + (exponent - 1)) := by
  rcases hf with rfl | rfl
  · have hexp : b % 2 ^ 31 / 2 ^ 23 = b / 2 ^ 23 % 256 := Nat.mod_mul_right_div_self b (2 ^ 23) 256
    simp only [decodeLane, fmtWidth, mbits, Nat.testBit_eq_decide_div_mod_eq, Nat.reduceSub, hexp]
    rfl
  · have hexp : b % 2 ^ 15 / 2 ^ 7 = b / 2 ^ 7 % 256 := Nat.mod_mul_right_div_self b (2 ^ 7) 256
    simp only [decodeLane, fmtWidth, mbits, Nat.testBit_eq_decide_div_mod_eq, Nat.reduceSub, hexp]
    rfl

/-! ### `fclass` (R242) -/

/-- The bit of the class mask that stands for a sign, an exponent field of 8 bits and a mantissa (R242). -/
def classBit (negative : Bool) (exponent mantissa : Nat) : Nat :=
  if exponent = 255 then (if mantissa ≠ 0 then 8 else if negative then 0 else 7)
  else if exponent = 0 then (if mantissa = 0 then (if negative then 3 else 4) else (if negative then 2 else 5))
  else (if negative then 1 else 6)

theorem classBit_le (negative : Bool) (exponent mantissa : Nat) : classBit negative exponent mantissa ≤ 8 := by
  unfold classBit
  repeat' split
  all_goals decide

/-- A lane lies below the smallest normal magnitude when its exponent field is 0. -/
theorem magnitude_lt_iff {f : Fmt} (hf : f = .fp32 ∨ f = .bf16) (b : Nat) :
    b % 2 ^ (fmtWidth f - 1) < 2 ^ mbits f ↔ b / 2 ^ mbits f % 256 = 0 := by
  rcases hf with rfl | rfl <;> simp only [fmtWidth, mbits] <;> omega

/-- The class mask of an FP32 or BF16 lane is the bit of its class. -/
theorem fclassMask_eq {f : Fmt} (hf : f = .fp32 ∨ f = .bf16) (b : Nat) :
    fclassMask f b = 2 ^ classBit (b.testBit (fmtWidth f - 1)) (b / 2 ^ mbits f % 256) (b % 2 ^ mbits f) := by
  simp only [fclassMask, magnitude_lt_iff hf, decodeLane_fp32_bf16 hf, classBit]
  by_cases hzero : b / 2 ^ mbits f % 256 = 0
  · simp only [hzero, valScaled_eq, mul_two_pow_eq_zero_iff, if_true, if_neg (show ¬(0 = 255) by decide)]
    split <;> split <;> rfl
  · by_cases hmax : b / 2 ^ mbits f % 256 = 255
    · rw [hmax, if_neg (by decide), if_pos rfl, if_pos rfl]
      by_cases hmant : b % 2 ^ mbits f = 0
      · rw [if_pos hmant, if_neg (not_not_intro hmant)]
        cases b.testBit (fmtWidth f - 1) <;> rfl
      · rw [if_neg hmant, if_pos hmant]
    · simp only [hzero, hmax, valScaled_eq, mul_two_pow_eq_zero_iff, two_pow_add_ne_zero, if_false]
      split <;> rfl

/-- An instruction that classifies the lanes of `fm` gives every lane the bit of its class. -/
theorem State.gives_fclassMask {s : State} {i : Instr} {o : ElemOps} {fm : Fmt} {f : Fire} {h : Handle}
    {nest : BitVec 48} {a : Opnd} (hfm : fm = .fp32 ∨ fm = .bf16)
    (hx : exec i s = s.lanewise1 o [fm] (fun _ => .i32) (fclassMask fm))
    (ea : a = f.read (srcOf o.sa) o.lx.toNat fm) (hf : s.Fires f [a] h) (hs : stdCheck (colourOf [a]) [(a, [fm])] = none)
    (hn : tagAction f o.ta.toNat (a.lane 0) 0 = some nest) :
    s.Gives i o f nest h (Shape.data .i32 (colourOf [a])) 32 (colourOf [a]) fun k =>
      2 ^ classBit ((a.lane k).testBit (fmtWidth fm - 1)) (a.lane k / 2 ^ mbits fm % 256) (a.lane k % 2 ^ mbits fm) := by
  refine State.gives_of_lanewise1 (rfmt := fun _ => .i32) (res := fun _ _ l => l.map (fclassMask fm)) hx ea hf hs hn
    fun k hk => ?_
  have hmod (n e m) : 2 ^ classBit n e m % 2 ^ fmtWidth .i32 = 2 ^ classBit n e m :=
    Nat.mod_eq_of_lt (Nat.pow_lt_pow_right (by decide) (Nat.lt_of_le_of_lt (classBit_le n e m) (by decide)))
  simp only [List.getElem?_map, List.getElem?_range hk, Option.map_some, Option.getD_some, fclassMask_eq hfm, hmod]

/-- Settles O53: the class mask follows the decoded lane, and an FP32 or BF16 lane decodes by its fields. -/
theorem fclassSetsTheBitOfTheClass : Obligations.FclassSetsTheBitOfTheClass := by
  unfold Obligations.FclassSetsTheBitOfTheClass
  simp only [List.forall_mem_cons, List.not_mem_nil, false_implies, implies_true, and_true]
  refine ⟨fun o s f h nest hf _ hs hn => ?_, fun o s f h nest hf _ hs hn => ?_⟩
  · exact State.gives_fclassMask (.inl rfl) rfl rfl hf hs hn
  · exact State.gives_fclassMask (.inr rfl) rfl rfl hf hs hn

/-! ### Magnitudes and powers of two -/

/-- `a / b ≤ c / d` and `c / d ≤ e / f` give `a / b ≤ e / f`, with the fractions multiplied out. -/
theorem ratio_le_trans {a b c d e f : Nat} (hd : 0 < d) (h : a * d ≤ c * b) (h' : c * f ≤ e * d) : a * f ≤ e * b := by
  refine Nat.le_of_mul_le_mul_right (c := d) ?_ hd
  calc a * f * d = a * d * f := by ac_rfl
    _ ≤ c * b * f := Nat.mul_le_mul_right f h
    _ = c * f * b := by ac_rfl
    _ ≤ e * d * b := Nat.mul_le_mul_right b h'
    _ = e * b * d := by ac_rfl

/-- A greater magnitude reaches every power of 2 that a smaller one does. -/
theorem atLeast_of_le {e : Int} {s s' : Bool} {n d n' d' : Nat} (hd : 0 < d) (hle : n * d' ≤ n' * d)
    (h : atLeast e (.num s n d)) : atLeast e (.num s' n' d') :=
  ratio_le_trans hd h hle

/-- Two quotients of powers of 2 compare as the differences of their exponents do. -/
theorem two_pow_mul_le {a b c d : Nat} (h : a + d ≤ c + b) : 2 ^ a * 2 ^ d ≤ 2 ^ c * 2 ^ b := by
  rw [← Nat.pow_add, ← Nat.pow_add]
  exact Nat.pow_le_pow_right Nat.two_pos h

/-- A magnitude that reaches a power of 2 reaches every lower one. -/
theorem atLeast_mono {e e' : Int} {s : Bool} {n d : Nat} (hle : e ≤ e') (h : atLeast e' (.num s n d)) :
    atLeast e (.num s n d) :=
  ratio_le_trans (Nat.two_pow_pos _) (two_pow_mul_le (by omega)) h

theorem not_atLeast_zero {s : Bool} {d : Nat} (hd : 0 < d) (e : Int) : ¬ atLeast e (.num s 0 d) := by
  have hpos : 0 < 2 ^ e.toNat * d := Nat.mul_pos (Nat.two_pow_pos _) hd
  simp only [atLeast, Nat.zero_mul]
  omega

/-- A quotient is at least half the quotient of the leading powers of 2. -/
theorem atLeast_log2_sub_one {s : Bool} {n d : Nat} (hn : 0 < n) :
    atLeast ((Nat.log2 n : Int) - Nat.log2 d - 1) (.num s n d) :=
  ratio_le_trans (c := 2 ^ Nat.log2 n) (d := 2 ^ (Nat.log2 d + 1)) (Nat.two_pow_pos _) (two_pow_mul_le (by omega))
    (Nat.mul_le_mul (Nat.log2_self_le (Nat.ne_of_gt hn)) (Nat.le_of_lt Nat.lt_log2_self))

/-- A quotient is less than twice the quotient of the leading powers of 2. -/
theorem not_atLeast_log2_add_one {s : Bool} {n d : Nat} (hd : 0 < d) :
    ¬ atLeast ((Nat.log2 n : Int) - Nat.log2 d + 1) (.num s n d) := by
  intro h
  have hge : 2 ^ (Nat.log2 n + 1) * d ≤ n * 2 ^ Nat.log2 d :=
    ratio_le_trans (Nat.two_pow_pos _) (two_pow_mul_le (by omega)) h
  have hlt : n * 2 ^ Nat.log2 d < 2 ^ (Nat.log2 n + 1) * d :=
    Nat.mul_lt_mul_of_lt_of_le Nat.lt_log2_self (Nat.log2_self_le (Nat.ne_of_gt hd)) hd
  omega

/-- `floorLog2` is the difference of the leading exponents when the quotient reaches it, and one less otherwise. -/
theorem floorLog2_cases {n d : Nat} (s : Bool) :
    (atLeast ((Nat.log2 n : Int) - Nat.log2 d) (.num s n d) ∧ floorLog2 n d = (Nat.log2 n : Int) - Nat.log2 d) ∨
    (¬ atLeast ((Nat.log2 n : Int) - Nat.log2 d) (.num s n d) ∧ floorLog2 n d = (Nat.log2 n : Int) - Nat.log2 d - 1) := by
  simp only [floorLog2, pow2_eq, atLeast, Nat.mul_comm d]
  split
  case isTrue h => exact .inr ⟨Nat.not_le.mpr h, rfl⟩
  case isFalse h => exact .inl ⟨Nat.not_lt.mp h, rfl⟩

/-- `floorLog2` is the exponent of the greatest power of 2 that a positive magnitude reaches. -/
theorem atLeast_iff_le_floorLog2 {s : Bool} {n d : Nat} (hn : 0 < n) (hd : 0 < d) (e : Int) :
    atLeast e (.num s n d) ↔ e ≤ floorLog2 n d := by
  have hbelow (e : Int) (x : Int) (hx : ¬ atLeast x (.num s n d)) (h : atLeast e (.num s n d)) : e < x :=
    Int.not_le.mp fun hle => hx (atLeast_mono hle h)
  rcases floorLog2_cases (n := n) (d := d) s with ⟨hge, heq⟩ | ⟨hlt, heq⟩
  · refine ⟨fun h => ?_, fun h => atLeast_mono (heq ▸ h) hge⟩
    have := hbelow e _ (not_atLeast_log2_add_one hd) h
    omega
  · refine ⟨fun h => ?_, fun h => atLeast_mono (heq ▸ h) (atLeast_log2_sub_one hn)⟩
    have := hbelow e _ hlt h
    omega

/-! ### `bmax` (R246) -/

/-- A finite value with a positive denominator. -/
def Val.Finite (v : Val) : Prop := ∃ neg n d, v = .num neg n d ∧ 0 < d

/-- The greater of two magnitudes is at least a power of 2 when one of them is. -/
theorem vabsMax_num {n d x y : Nat} {neg : Bool} (hd : 0 < d) (hy : 0 < y) :
    ∃ n' d', 0 < d' ∧ vabsMax (.num false n d) (.num neg x y) = .num false n' d' ∧
      ∀ e, atLeast e (.num false n' d') ↔ atLeast e (.num false n d) ∨ atLeast e (.num neg x y) := by
  have hlt : vlt (.num false n d) (.num false x y) = true ↔ n * y < x * d := by
    simp only [vlt, Bool.false_eq_true, if_false, decide_eq_true_eq, Int.ofNat_lt]
  by_cases h : n * y < x * d
  · refine ⟨x, y, hy, if_pos (hlt.mpr h), fun e => ⟨.inr, fun h' => h'.elim (atLeast_of_le hd (Nat.le_of_lt h)) id⟩⟩
  · refine ⟨n, d, hd, if_neg (mt hlt.mp h), fun e => ⟨.inl, fun h' => h'.elim id (atLeast_of_le hy (Nat.not_lt.mp h))⟩⟩

/-- The greatest magnitude of finite values is at least a power of 2 when that of one of them is. -/
theorem foldl_vabsMax {l : List Val} (hl : ∀ v ∈ l, v.Finite) {n d : Nat} (hd : 0 < d) :
    ∃ n' d', 0 < d' ∧ l.foldl vabsMax (.num false n d) = .num false n' d' ∧
      ∀ e, atLeast e (.num false n' d') ↔ atLeast e (.num false n d) ∨ ∃ v ∈ l, atLeast e v := by
  induction l generalizing n d with
  | nil => exact ⟨n, d, hd, rfl, fun e => by simp only [List.not_mem_nil, false_and, exists_false, or_false]⟩
  | cons v r ih =>
    obtain ⟨⟨neg, x, y, rfl, hy⟩, hr⟩ := List.forall_mem_cons.mp hl
    obtain ⟨n₁, d₁, hd₁, hmax, hiff₁⟩ := vabsMax_num (n := n) (x := x) (neg := neg) hd hy
    obtain ⟨n', d', hd', hfold, hiff⟩ := ih hr (n := n₁) hd₁
    refine ⟨n', d', hd', by rw [List.foldl_cons, hmax, hfold], fun e => ?_⟩
    simp only [hiff, hiff₁, List.mem_cons, exists_eq_or_imp, or_assoc]

/-- The block shift of finite values is that of the greatest magnitude among them. -/
theorem blockShift_of_finite {l : List Val} (hl : ∀ v ∈ l, v.Finite) :
    ∃ n d, 0 < d ∧ (∀ e, atLeast e (.num false n d) ↔ ∃ v ∈ l, atLeast e v) ∧
      blockShift l = if n = 0 then -128 else max (-127) (min 127 (floorLog2 n d)) := by
  obtain ⟨n, d, hd, hfold, hiff⟩ := foldl_vabsMax hl (n := 0) Nat.one_pos
  refine ⟨n, d, hd, fun e => by rw [hiff, or_iff_right (not_atLeast_zero Nat.one_pos e)], ?_⟩
  have hany : l.any (fun v => v.isNan || v.isInf) = false := by
    rw [List.any_eq_false]
    intro v hv
    obtain ⟨neg, x, y, rfl, -⟩ := hl v hv
    exact Bool.false_ne_true
  rw [blockShift, hany, hfold]
  cases n <;> rfl

/-- A NaN or an infinity makes the block shift 127. -/
theorem blockShift_of_not_finite {l : List Val} {v : Val} (hv : v ∈ l) (h : ¬ ∃ neg n d, v = .num neg n d) :
    blockShift l = 127 := by
  have hspecial : (v.isNan || v.isInf) = true := by
    cases v with
    | nan => rfl
    | inf neg => rfl
    | num neg n d => exact absurd ⟨neg, n, d, rfl⟩ h
  exact if_pos (List.any_eq_true.mpr ⟨v, hv, hspecial⟩)

/-- The block shift of zeros is -128. -/
theorem blockShift_of_zeros {l : List Val} (hl : ∀ v ∈ l, ∃ neg d, v = .num neg 0 d ∧ 0 < d) : blockShift l = -128 := by
  obtain ⟨n, d, hd, hiff, heq⟩ := blockShift_of_finite fun v hv => by
    obtain ⟨neg, y, rfl, hy⟩ := hl v hv
    exact ⟨neg, 0, y, rfl, hy⟩
  rw [heq, if_pos]
  refine Decidable.byContradiction fun hn => ?_
  obtain ⟨v, hv, hge⟩ := (hiff _).mp ((atLeast_iff_le_floorLog2 (Nat.pos_of_ne_zero hn) hd _).mpr (Int.le_refl _))
  obtain ⟨neg, y, rfl, hy⟩ := hl v hv
  exact not_atLeast_zero hy _ hge

/-- The block shift of finite values whose greatest magnitude lies in the binade of 2 to the power `e`. -/
theorem blockShift_of_binade {l : List Val} {e : Int} (hl : ∀ v ∈ l, v.Finite) (hge : ∃ v ∈ l, atLeast e v)
    (hlt : ∀ v ∈ l, ¬ atLeast (e + 1) v) : blockShift l = max (-127) (min 127 e) := by
  obtain ⟨n, d, hd, hiff, heq⟩ := blockShift_of_finite hl
  have hlo := (hiff e).mpr hge
  have hhi := mt (hiff (e + 1)).mp fun ⟨v, hv, h⟩ => hlt v hv h
  have hn : 0 < n := Nat.pos_of_ne_zero fun h0 => not_atLeast_zero hd e (h0 ▸ hlo)
  rw [atLeast_iff_le_floorLog2 hn hd] at hlo hhi
  rw [heq, if_neg (Nat.ne_of_gt hn), show floorLog2 n d = e by omega]

/-- `bmax` gives every lane the low 32 bits of the block shift of A's values. -/
theorem State.gives_bmax {s : State} {o : ElemOps} {f : Fire} {h : Handle} {nest : BitVec 48} {a : Opnd}
    (ea : a = f.read (srcOf o.sa) o.lx.toNat (f.want [.fp32, .bf16] [srcOf o.sa])) (hf : s.Fires f [a] h)
    (hs : stdCheck (colourOf [a]) [(a, [.fp32, .bf16])] = none) (hn : tagAction f o.ta.toNat (a.lane 0) 0 = some nest) :
    s.Gives (.bmax o) o f nest h (Shape.data .i32 (colourOf [a])) 32 (colourOf [a]) fun _ =>
      (BitVec.ofInt 32 (blockShift ((List.range (colourOf [a])).map fun k => decodeLane a.fmt (a.lane k)))).toNat := by
  refine State.gives_of_lanewise1 (rfmt := fun _ => .i32)
    (res := fun _ x l => List.replicate l.length (wrapTo 32 (blockShift (l.map (decodeLane x.fmt))))) rfl ea hf hs hn
    fun k hk => ?_
  have hwrap (i : Int) : wrapTo 32 i % 2 ^ 32 = (BitVec.ofInt 32 i).toNat := by
    rw [wrapTo, BitVec.toNat_ofInt]
    omega
  simp only [List.getElem?_replicate, List.length_map, List.length_range, if_pos hk, Option.getD_some, List.map_map]
  exact hwrap _

/-- Settles O54: the fold of `vabsMax` reaches a power of 2 just when one of the lanes does. -/
theorem bmaxGivesTheBlockShift : Obligations.BmaxGivesTheBlockShift := by
  unfold Obligations.BmaxGivesTheBlockShift
  intro o s f h nest a n v finite zero hf _ hs hn
  refine ⟨_, State.gives_bmax rfl hf hs hn, ?_, ?_, ?_⟩
  · rintro ⟨k, hk, hinf⟩
    exact blockShift_of_not_finite (List.mem_map_of_mem (List.mem_range.mpr hk)) hinf
  · intro hzero
    refine blockShift_of_zeros (List.forall_mem_map.mpr fun k hk => ?_)
    obtain ⟨neg, d, hv⟩ := hzero k (List.mem_range.mp hk)
    exact ⟨neg, d, hv, denom_pos_of_decodeLane hv⟩
  · rintro e hfin ⟨k, hk, hge⟩ hlt
    refine blockShift_of_binade (List.forall_mem_map.mpr fun k hk => ?_)
      ⟨v k, List.mem_map_of_mem (List.mem_range.mpr hk), hge⟩
      (List.forall_mem_map.mpr fun k hk => hlt k (List.mem_range.mp hk))
    obtain ⟨neg, x, d, hv⟩ := hfin k (List.mem_range.mp hk)
    exact ⟨neg, x, d, hv, denom_pos_of_decodeLane hv⟩

end Sys2Proof.Machine

/-! SUPPORT. Decoding and encoding agree (R195 to R209): the fields of a word and the number that is made of them, for each of the three
word layouts. -/

namespace Sys2Proof.Machine

/-! ### Element words -/

/-- The opcode map and the opcode of an instruction are inverse to each other (R198). -/
theorem elemOfOpcode_eq_some_iff {opc : Nat} {o : ElemOps} {i : Instr} :
    elemOfOpcode opc o = some i ↔ elemOpcodeOf i = some (opc, o) := by
  constructor
  · fun_cases elemOfOpcode opc o <;> rintro ⟨⟩ <;> rfl
  · unfold elemOpcodeOf
    split <;> rintro ⟨⟩ <;> rfl

theorem elemOpcodeOf_lt {i : Instr} {opc : Nat} {o : ElemOps} (h : elemOpcodeOf i = some (opc, o)) : opc < 256 := by
  revert h
  unfold elemOpcodeOf
  split <;> rintro ⟨⟩ <;> decide

theorem elemNum_lt {opc : Nat} (o : ElemOps) (h : opc < 256) : elemNum opc o < 2 ^ 32 := by
  unfold elemNum
  omega

theorem elemNum_opcode (opc : Nat) (o : ElemOps) : elemNum opc o / 2 ^ 24 = opc := by
  unfold elemNum
  omega

theorem elemOpsOf_elemNum (opc : Nat) (o : ElemOps) : elemOpsOf (elemNum opc o) = o := by
  obtain ⟨sa, sb, dx, dy, ta, lx⟩ := o
  simp only [elemOpsOf, elemNum, bitsAt, ElemOps.mk.injEq]
  refine ⟨?_, ?_, ?_, ?_, ?_, ?_⟩
  all_goals
    refine BitVec.eq_of_toNat_eq ?_
    simp only [BitVec.toNat_ofNat]
    omega

/-- A number is the element word of its own fields (R195). -/
theorem elemNum_elemOpsOf (n : Nat) : elemNum (n / 2 ^ 24) (elemOpsOf n) = n := by
  simp only [elemNum, elemOpsOf, bitsAt, BitVec.toNat_ofNat]
  omega

/-- An element word decodes to an instruction exactly when it is that instruction's word and the operand fields that the opcode
fixes stand as the opcode table gives them. -/
theorem decodeElem_eq_some_iff {w : Word} {i : Instr} :
    decodeElem w = some i ↔
      ∃ opc o, elemOpcodeOf i = some (opc, o) ∧ elemFixed opc o = true ∧ w.toNat = elemNum opc o := by
  unfold decodeElem
  dsimp only
  constructor
  · intro h
    obtain ⟨hfix, hi⟩ := Option.ite_none_right_eq_some.mp h
    exact ⟨_, _, elemOfOpcode_eq_some_iff.mp hi, hfix, (elemNum_elemOpsOf _).symm⟩
  · rintro ⟨opc, o, hi, hfix, hw⟩
    rw [hw, elemNum_opcode, elemOpsOf_elemNum, if_pos hfix]
    exact elemOfOpcode_eq_some_iff.mpr hi

/-! ### Control-core words -/

theorem toNat_word {n : Nat} (h : n < 2 ^ 32) : (BitVec.ofNat 32 n).toNat = n := Nat.mod_eq_of_lt h

/-- The fields of a word of format R (R205). -/
theorem fields_of_numR {op fn n : Nat} {d a b : BitVec 5} (ho : op < 128) (hf : fn < 1024) (h : numR op d a b fn = n) :
    n < 2 ^ 32 ∧ n / 2 ^ 25 = op ∧ rdOf n = d ∧ raOf n = a ∧ rbOf n = b := by
  unfold numR at h
  refine ⟨by omega, by omega, ?_, ?_, ?_⟩
  all_goals
    refine BitVec.eq_of_toNat_eq ?_
    simp only [rdOf, raOf, rbOf, bitsAt, BitVec.toNat_ofNat]
    omega

theorem fn_of_numR {op fn n : Nat} {d a b : BitVec 5} (hf : fn < 1024) (h : numR op d a b fn = n) : bitsAt n 9 0 = fn := by
  unfold numR at h
  simp only [bitsAt]
  omega

/-- The fields of a word of format I or B (R205). -/
theorem fields_of_numI {op n : Nat} {d a : BitVec 5} {imm : BitVec 15} (ho : op < 128) (h : numI op d a imm = n) :
    n < 2 ^ 32 ∧ n / 2 ^ 25 = op ∧ rdOf n = d ∧ raOf n = a ∧ immOf n = imm := by
  unfold numI at h
  refine ⟨by omega, by omega, ?_, ?_, ?_⟩
  all_goals
    refine BitVec.eq_of_toNat_eq ?_
    simp only [rdOf, raOf, immOf, bitsAt, BitVec.toNat_ofNat]
    omega

/-- The fields of a word of format J or U (R205). -/
theorem fields_of_numJ {op n : Nat} {d : BitVec 5} {imm : BitVec 20} (ho : op < 128) (h : numJ op d imm = n) :
    n < 2 ^ 32 ∧ n / 2 ^ 25 = op ∧ rdOf n = d ∧ imm20Of n = imm := by
  unfold numJ at h
  refine ⟨by omega, by omega, ?_, ?_⟩
  all_goals
    refine BitVec.eq_of_toNat_eq ?_
    simp only [rdOf, imm20Of, bitsAt, BitVec.toNat_ofNat]
    omega

theorem decodeQcc_of_aluOfFn {fn n : Nat} {d a b : BitVec 5} {i : Instr} (hf : fn < 1024) (hi : aluOfFn fn d a b = some i)
    (h : numR 0x00 d a b fn = n) : n < 2 ^ 32 ∧ decodeQcc (BitVec.ofNat 32 n) = some i := by
  obtain ⟨hlt, hop, hd, ha, hb⟩ := fields_of_numR (by decide) hf h
  unfold decodeQcc
  dsimp only
  rw [toNat_word hlt, hop, hd, ha, hb, fn_of_numR hf h]
  exact ⟨hlt, hi⟩

theorem decodeQcc_of_partOfCfn {fn n : Nat} {d a b : BitVec 5} {i : Instr} (hf : fn < 1024)
    (hi : partOfCfn fn d a b = some i) (h : numR 0x50 d a b fn = n) : n < 2 ^ 32 ∧ decodeQcc (BitVec.ofNat 32 n) = some i := by
  obtain ⟨hlt, hop, hd, ha, hb⟩ := fields_of_numR (by decide) hf h
  unfold decodeQcc
  dsimp only
  rw [toNat_word hlt, hop, hd, ha, hb, fn_of_numR hf h]
  exact ⟨hlt, hi⟩

/-- The number of a well-formed control-core instruction fits a word and decodes to it, format by format (R205 to R208). -/
theorem decodeQcc_of_qccNum {i : Instr} {n : Nat} (hwf : i.wf = true) (h : qccNum i = some n) :
    n < 2 ^ 32 ∧ decodeQcc (BitVec.ofNat 32 n) = some i := by
  cases i with
  | aluAdd | aluSub | aluAnd | aluOr | aluXor | aluSll | aluSrl | aluSra | aluSlt | aluSltu | aluMul | aluMulh | aluMulhu
  | aluDiv | aluDivu | aluRem | aluRemu | aluMin | aluMax | aluMinu | aluMaxu =>
    exact decodeQcc_of_aluOfFn (by decide) rfl (Option.some.inj h)
  | partCreate | partDestroy | partFmap | partChan | partPtroot | partFq | partPlate | partDest | partVf | partQuota
  | partBudget | partGuar | partStop | partSave | partResume | partEvent =>
    exact decodeQcc_of_partOfCfn (by decide) rfl (Option.some.inj h)
  | addi | andi | ori | xori | slti | sltiu | lb | lbu | lh | lhu | lw | sb | sh | sw | lwg | swg | beq | bne | blt | bge
  | bltu | bgeu | jalr | sysr | sysw =>
    obtain ⟨hlt, hop, hd, ha, himm⟩ := fields_of_numI (by decide) (Option.some.inj h)
    unfold decodeQcc
    dsimp only
    rw [toNat_word hlt, hop, hd, ha, himm]
    exact ⟨hlt, rfl⟩
  | lui | jal =>
    obtain ⟨hlt, hop, hd, himm⟩ := fields_of_numJ (by decide) (Option.some.inj h)
    unfold decodeQcc
    dsimp only
    rw [toNat_word hlt, hop, hd, himm]
    exact ⟨hlt, rfl⟩
  | slli | srli | srai | tend | tarm | tsend | tpoll | tprio | qccTrap | tret | qccFence | pat | strmBindIn | cmd
  | qccLaunch | cfgLoad | cfgSwitch | barr | qccMark | ttLoad | ttArm | setx | claspReq | plateSweep | pmTol =>
    replace h := Option.some.inj h
    obtain ⟨hlt, hop, hd, ha, hb⟩ := fields_of_numR (by decide) (by omega) h
    simp only [numR, BitVec.toNat_ofNat] at h
    unfold decodeQcc
    dsimp only
    rw [toNat_word hlt, hop, hd, ha, hb]
    refine ⟨hlt, (if_pos ?_).trans (congrArg some ?_)⟩
    · simp only [bitsAt]
      omega
    · congr <;> exact BitVec.eq_of_toNat_eq (by simp only [bitsAt, BitVec.toNat_ofNat]; omega)
  | amo =>
    have haop : BitVec.toNat _ ≤ 10 := of_decide_eq_true hwf
    replace h := Option.some.inj h
    obtain ⟨hlt, hop, hd, ha, hb⟩ := fields_of_numR (by decide) (by omega) h
    simp only [numR] at h
    unfold decodeQcc
    dsimp only
    rw [toNat_word hlt, hop, hd, ha, hb]
    refine ⟨hlt, (if_pos ?_).trans (congrArg some ?_)⟩
    · simp only [bitsAt]
      omega
    · congr <;> exact BitVec.eq_of_toNat_eq (by simp only [bitsAt, BitVec.toNat_ofNat]; omega)
  | strmBindOut | cmdCancel | cfgLoadShadow | claspRevoke =>
    replace h := Option.some.inj h
    obtain ⟨hlt, hop, hd, ha, hb⟩ := fields_of_numR (by decide) (by omega) h
    simp only [numR, BitVec.toNat_ofNat] at h
    unfold decodeQcc
    dsimp only
    rw [toNat_word hlt, hop, hd, ha, hb]
    refine ⟨hlt, (if_neg ?_).trans ((if_pos ?_).trans (congrArg some ?_))⟩
    · simp only [bitsAt]
      omega
    · simp only [bitsAt]
      omega
    · congr <;> exact BitVec.eq_of_toNat_eq (by simp only [bitsAt, BitVec.toNat_ofNat]; omega)
  | scan =>
    replace h := Option.some.inj h
    obtain ⟨hlt, hop, hd, ha, hb⟩ := fields_of_numR (by decide) (by omega) h
    simp only [numR] at h
    unfold decodeQcc
    dsimp only
    rw [toNat_word hlt, hop, hd, ha, hb]
    refine ⟨hlt, (if_neg ?_).trans ((if_neg ?_).trans (congrArg some ?_))⟩
    · simp only [bitsAt]
      omega
    · simp only [bitsAt]
      omega
    · congr <;> exact BitVec.eq_of_toNat_eq (by simp only [bitsAt, BitVec.toNat_ofNat]; omega)
  | scanWload =>
    replace h := Option.some.inj h
    obtain ⟨hlt, hop, hd, ha, hb⟩ := fields_of_numR (by decide) (by omega) h
    simp only [numR, BitVec.toNat_ofNat] at h
    unfold decodeQcc
    dsimp only
    rw [toNat_word hlt, hop, hd, ha, hb]
    refine ⟨hlt, (if_neg ?_).trans ((if_pos ?_).trans ((if_pos ?_).trans (congrArg some ?_)))⟩
    · simp only [bitsAt]
      omega
    · simp only [bitsAt]
      omega
    · simp only [bitsAt]
      omega
    · congr <;> exact BitVec.eq_of_toNat_eq (by simp only [bitsAt, BitVec.toNat_ofNat]; omega)
  | topkGroup | topkCommit =>
    replace h := Option.some.inj h
    obtain ⟨hlt, hop, hd, ha, hb⟩ := fields_of_numR (by decide) (by omega) h
    have hfn := fn_of_numR (by omega) h
    simp only [numR, BitVec.toNat_ofNat] at h
    unfold decodeQcc
    dsimp only
    rw [toNat_word hlt, hop, hd, ha, hb, hfn]
    refine ⟨hlt, (if_neg ?_).trans rfl⟩
    simp only [bitsAt]
    omega
  | topk rs rc form3 =>
    replace h := Option.some.inj h
    obtain ⟨hlt, hop, hd, ha, hb⟩ := fields_of_numR (by decide) (by omega) h
    have hfn := fn_of_numR (by omega) h
    have hcfn : bitsAt n 19 15 = (raOf n).toNat := by simp only [raOf, bitsAt, BitVec.toNat_ofNat, Nat.mod_mod]
    unfold decodeQcc
    dsimp only
    rw [toNat_word hlt, hop, hcfn, hd, ha, hb, hfn]
    refine ⟨hlt, (if_neg (by decide)).trans ?_⟩
    obtain rfl | rfl : form3 = 0#1 ∨ form3 = 1#1 := by bv_omega
    · rfl
    · rfl
  | _ => cases h

theorem qccNum_of_aluOfFn {fn : Nat} {d a b : BitVec 5} {i : Instr} (h : aluOfFn fn d a b = some i) :
    qccNum i = some (numR 0x00 d a b fn) := by
  revert h
  fun_cases aluOfFn fn d a b <;> rintro ⟨⟩ <;> rfl

theorem qccNum_of_partOfCfn {cfn : Nat} {d a b : BitVec 5} {i : Instr} (h : partOfCfn cfn d a b = some i) :
    qccNum i = some (numR 0x50 d a b cfn) := by
  revert h
  fun_cases partOfCfn cfn d a b <;> rintro ⟨⟩ <;> rfl

/-- A number is the word of format R of its own fields (R205). -/
theorem numR_fields {n op : Nat} (h : n / 2 ^ 25 = op) : numR op (rdOf n) (raOf n) (rbOf n) (bitsAt n 9 0) = n := by
  simp only [numR, rdOf, raOf, rbOf, BitVec.toNat_ofNat, bitsAt]
  omega

/-- A number is the word of format I or B of its own fields (R205). -/
theorem numI_fields {n op : Nat} (h : n / 2 ^ 25 = op) : numI op (rdOf n) (raOf n) (immOf n) = n := by
  simp only [numI, rdOf, raOf, immOf, BitVec.toNat_ofNat, bitsAt]
  omega

/-- A number is the word of format J or U of its own fields (R205). -/
theorem numJ_fields {n op : Nat} (h : n / 2 ^ 25 = op) : numJ op (rdOf n) (imm20Of n) = n := by
  simp only [numJ, rdOf, imm20Of, BitVec.toNat_ofNat, bitsAt]
  omega

theorem numR_of_fields {n op fn : Nat} {d a b : BitVec 5} (hop : n / 2 ^ 25 = op) (hd : d.toNat = n / 2 ^ 20 % 2 ^ 5)
    (ha : a.toNat = n / 2 ^ 15 % 2 ^ 5) (hb : b.toNat = n / 2 ^ 10 % 2 ^ 5) (hfn : fn = n % 2 ^ 10) :
    numR op d a b fn = n := by
  unfold numR
  omega

/-- A control-core word that decodes is the word of the instruction that it decodes to (R205 to R208). -/
theorem qccNum_of_decodeQcc {w : Word} {i : Instr} (h : decodeQcc w = some i) : qccNum i = some w.toNat := by
  unfold decodeQcc whenZero at h
  dsimp only at h
  generalize w.toNat = n at h
  split at h
  case h_1 hop => rw [qccNum_of_aluOfFn h, numR_fields hop]
  case h_57 hop => rw [qccNum_of_partOfCfn h, numR_fields hop]
  case h_11 hop | h_29 hop => cases h; exact congrArg some (numJ_fields hop)
  case h_2 hop | h_3 hop | h_4 hop | h_5 hop | h_9 hop | h_10 hop | h_12 hop | h_13 hop | h_14 hop | h_15 hop | h_16 hop | h_17 hop
    | h_18 hop | h_19 hop | h_20 hop | h_21 hop | h_23 hop | h_24 hop | h_25 hop | h_26 hop | h_27 hop | h_28 hop | h_30 hop
    | h_36 hop | h_37 hop => cases h; exact congrArg some (numI_fields hop)
  all_goals
    repeat' split at h
  all_goals
    cases h
  all_goals
    refine congrArg some (numR_of_fields ‹_› ?_ ?_ ?_ ?_)
  all_goals
    simp only [rdOf, raOf, rbOf, BitVec.toNat_ofNat, bitsAt] at *
    omega

/-! ### Press words -/

/-- The fields of a press word below POP (R209). -/
theorem pressFieldsOf_pressNum {pop n : Nat} {p : PressWord} (hpop : pop < 4) (h : pressNum pop p = n) :
    n < 2 ^ 64 ∧ n / 2 ^ 60 = pop ∧ bitsAt n 19 0 = 0 ∧ pressFieldsOf n = p := by
  obtain ⟨ta, tb, tc, afmt, bfmt, tra, trb, ofmt, sat, ksm1, lastn, del, didx⟩ := p
  unfold pressNum at h
  dsimp only at h
  refine ⟨by omega, by omega, by simp only [bitsAt]; omega, ?_⟩
  simp only [pressFieldsOf, PressWord.mk.injEq]
  refine ⟨?_, ?_, ?_, ?_, ?_, ?_, ?_, ?_, ?_, ?_, ?_, ?_, ?_⟩
  all_goals
    refine BitVec.eq_of_toNat_eq ?_
    simp only [bitsAt, BitVec.toNat_ofNat]
    omega

/-- Bits [hi:lo] stand above the bits below them. -/
theorem mod_add_bitsAt (n hi lo top : Nat) (h : lo + (hi - lo + 1) = top) :
    n % 2 ^ lo + 2 ^ lo * bitsAt n hi lo = n % 2 ^ top := by
  rw [bitsAt, ← Nat.mod_mul, ← Nat.pow_add, h]

/-- A number with bits [19:0] zero is the press word of its own fields (R209). -/
theorem pressNum_pressFieldsOf {pop n : Nat} (hres : bitsAt n 19 0 = 0) (hpop : n / 2 ^ 60 = pop) :
    pressNum pop (pressFieldsOf n) = n := by
  have hfield {hi lo w : Nat} (hw : hi - lo + 1 = w) : (BitVec.ofNat w (bitsAt n hi lo)).toNat = bitsAt n hi lo := by
    rw [BitVec.toNat_ofNat, bitsAt, hw, Nat.mod_mod]
  have hn := Nat.div_add_mod n (2 ^ 60)
  have hlow : n % 2 ^ 20 = 0 := by simpa only [bitsAt, Nat.pow_zero, Nat.div_one] using hres
  have hdidx := mod_add_bitsAt n 24 20 25 rfl
  have hdel := mod_add_bitsAt n 28 25 29 rfl
  have hlastn := mod_add_bitsAt n 33 29 34 rfl
  have hksm1 := mod_add_bitsAt n 41 34 42 rfl
  have hsat := mod_add_bitsAt n 42 42 43 rfl
  have hofmt := mod_add_bitsAt n 45 43 46 rfl
  have htrb := mod_add_bitsAt n 46 46 47 rfl
  have htra := mod_add_bitsAt n 47 47 48 rfl
  have hbfmt := mod_add_bitsAt n 50 48 51 rfl
  have hafmt := mod_add_bitsAt n 53 51 54 rfl
  have htc := mod_add_bitsAt n 55 54 56 rfl
  have htb := mod_add_bitsAt n 57 56 58 rfl
  have hta := mod_add_bitsAt n 59 58 60 rfl
  rw [hpop] at hn
  simp (disch := decide) only [pressNum, pressFieldsOf, hfield]
  omega

theorem decodePress_of_encodePress {i : Instr} {w : BitVec 64} (h : encodePress i = some w) : decodePress w = some i := by
  have hdec {pop : Nat} (p : PressWord) (hpop : pop < 4) :
      (BitVec.ofNat 64 (pressNum pop p)).toNat / 2 ^ 60 = pop ∧
      bitsAt (BitVec.ofNat 64 (pressNum pop p)).toNat 19 0 = 0 ∧
      pressFieldsOf (BitVec.ofNat 64 (pressNum pop p)).toNat = p := by
    obtain ⟨hlt, hfields⟩ := pressFieldsOf_pressNum (p := p) hpop rfl
    rwa [BitVec.toNat_ofNat, Nat.mod_eq_of_lt hlt]
  unfold encodePress at h
  unfold decodePress
  dsimp only
  split at h
  case h_5 => cases h
  all_goals
    next p =>
    cases h
    simp (disch := decide) only [hdec]
    rfl

theorem encodePress_of_decodePress {i : Instr} {w : BitVec 64} (h : decodePress w = some i) : encodePress i = some w := by
  unfold decodePress at h
  dsimp only at h
  split at h
  · cases h
  · next hres =>
    rw [Decidable.not_not] at hres
    split at h
    case h_5 => cases h
    all_goals
      next hpop =>
      cases h
      refine congrArg some (BitVec.eq_of_toNat_eq ?_)
      rw [pressNum_pressFieldsOf hres hpop, BitVec.toNat_ofNat, Nat.mod_eq_of_lt w.isLt]

/-! ### The word of an instruction -/

theorem qccNum_of_elemOpcodeOf {i : Instr} {opc : Nat} {o : ElemOps} (h : elemOpcodeOf i = some (opc, o)) :
    qccNum i = none := by
  have hi := elemOfOpcode_eq_some_iff.mpr h
  revert hi
  fun_cases elemOfOpcode opc o <;> rintro ⟨⟩ <;> rfl

/-- An instruction with a Press word has neither of the other two. -/
theorem elemOpcodeOf_and_qccNum_of_encodePress {i : Instr} {w : BitVec 64} (h : encodePress i = some w) :
    elemOpcodeOf i = none ∧ qccNum i = none := by
  unfold encodePress at h
  split at h
  case h_5 => cases h
  all_goals exact ⟨rfl, rfl⟩

theorem encode_of_elemOpcodeOf {i : Instr} {opc : Nat} {o : ElemOps} (h : elemOpcodeOf i = some (opc, o)) :
    encode i = some (.elem, elemNum opc o) := by
  simp only [encode, encodeElem, h, toNat_word (elemNum_lt o (elemOpcodeOf_lt h))]

theorem encode_of_qccNum {i : Instr} {n : Nat} (hlt : n < 2 ^ 32) (h : qccNum i = some n) : encode i = some (.qcc, n) := by
  have he : elemOpcodeOf i = none := by
    cases he : elemOpcodeOf i with
    | none => rfl
    | some p => rw [qccNum_of_elemOpcodeOf he] at h; cases h
  simp only [encode, encodeElem, encodeQcc, he, h, Option.map_some, toNat_word hlt]

theorem encode_of_encodePress {i : Instr} {w : BitVec 64} (h : encodePress i = some w) : encode i = some (.press, w.toNat) := by
  obtain ⟨he, hq⟩ := elemOpcodeOf_and_qccNum_of_encodePress h
  simp only [encode, encodeElem, encodeQcc, he, hq, h, Option.map_some, Option.map_none]

/-- An element instruction is well formed when its operand fields are (R195 to R197). -/
theorem wf_of_elemOpcodeOf {i : Instr} {opc : Nat} {o : ElemOps} (h : elemOpcodeOf i = some (opc, o)) :
    i.wf = elemWf opc o := by
  unfold Instr.wf
  split
  case h_6 => rw [h]
  all_goals cases h

theorem decode_encode {i : Instr} {k : WordKind} {n : Nat} (hwf : i.wf = true) (h : encode i = some (k, n)) :
    decode k n = some i := by
  cases he : elemOpcodeOf i with
  | some p =>
    obtain ⟨opc, o⟩ := p
    rw [encode_of_elemOpcodeOf he] at h
    cases h
    rw [wf_of_elemOpcodeOf he, elemWf, Bool.and_eq_true] at hwf
    exact decodeElem_eq_some_iff.mpr ⟨opc, o, he, hwf.1, toNat_word (elemNum_lt o (elemOpcodeOf_lt he))⟩
  | none =>
    cases hq : qccNum i with
    | some m =>
      obtain ⟨hlt, hdec⟩ := decodeQcc_of_qccNum hwf hq
      rw [encode_of_qccNum hlt hq] at h
      cases h
      exact hdec
    | none =>
      cases hp : encodePress i with
      | none => simp only [encode, encodeElem, encodeQcc, he, hq, hp, Option.map_none, reduceCtorEq] at h
      | some w =>
        rw [encode_of_encodePress hp] at h
        cases h
        rw [decode, BitVec.ofNat_toNat, BitVec.setWidth_eq]
        exact decodePress_of_encodePress hp

theorem encode_decode {i : Instr} {k : WordKind} {n : Nat} (hlt : n < 2 ^ (if k = .press then 64 else 32))
    (h : decode k n = some i) : encode i = some (k, n) := by
  cases k with
  | elem =>
    obtain ⟨opc, o, he, -, hn⟩ := decodeElem_eq_some_iff.mp h
    rw [toNat_word hlt] at hn
    rw [encode_of_elemOpcodeOf he, hn]
  | qcc =>
    have hq := qccNum_of_decodeQcc h
    rw [toNat_word hlt] at hq
    exact encode_of_qccNum hlt hq
  | press =>
    rw [if_pos rfl] at hlt
    rw [encode_of_encodePress (encodePress_of_decodePress h), BitVec.toNat_ofNat, Nat.mod_eq_of_lt hlt]

/-- Settles O56: each word layout is inverted field by field, in both directions. -/
theorem encodingAndDecodingAgree : Obligations.EncodingAndDecodingAgree :=
  ⟨fun _ _ _ hwf h => decode_encode hwf h, fun _ _ _ hlt h => encode_decode hlt h⟩

end Sys2Proof.Machine

namespace Sys2Proof.Machine

/-! SUPPORT. The lane functions of the integer opcodes are those of 32-bit words (R240). -/

theorem sext_toNat (x : Word) : sext 32 x.toNat = x.toInt := by
  have := x.isLt
  rw [BitVec.toInt_eq_toNat_cond, sext]
  split <;> split <;> omega

theorem wrapTo_eq (i : Int) : wrapTo 32 i = (BitVec.ofInt 32 i).toNat := (BitVec.toNat_ofInt i).symm

theorem wrapTo_toInt (x : Word) : wrapTo 32 x.toInt = x.toNat := by
  rw [wrapTo_eq, BitVec.ofInt_toInt]

theorem toNat_eq_zero_iff (x : Word) : x.toNat % 2 ^ 32 = 0 ↔ x = 0 := by
  rw [Nat.mod_eq_of_lt x.isLt]
  exact (BitVec.toNat_inj (x := x) (y := 0))

theorem add_word (x y : Word) : (x.toNat + y.toNat) % 2 ^ 32 = (x + y).toNat := (BitVec.toNat_add x y).symm

theorem sub_word (x y : Word) : (x.toNat + 2 ^ 32 - y.toNat % 2 ^ 32) % 2 ^ 32 = (x - y).toNat := by
  have := y.isLt
  rw [BitVec.toNat_sub]
  omega

theorem mul_word (x y : Word) : x.toNat * y.toNat % 2 ^ 32 = (x * y).toNat := (BitVec.toNat_mul x y).symm

theorem mulh_word (x y : Word) : wrapTo 32 (sext 32 x.toNat * sext 32 y.toNat / (2 ^ 32 : Nat)) =
    (((x.signExtend 64 * y.signExtend 64 : BitVec 64) >>> 32).setWidth 32).toNat := by
  have hprod : (x.signExtend 64 * y.signExtend 64).toNat = (x.toInt * y.toInt % (2 ^ 64 : Nat)).toNat := by
    rw [← BitVec.toNat_ofInt, BitVec.ofInt_mul, ← BitVec.toInt_signExtend_of_le (x := x) (v := 64) (by decide),
      ← BitVec.toInt_signExtend_of_le (x := y) (v := 64) (by decide), BitVec.ofInt_toInt, BitVec.ofInt_toInt]
  rw [BitVec.toNat_setWidth, BitVec.toNat_ushiftRight, hprod, sext_toNat, sext_toNat, wrapTo, Nat.shiftRight_eq_div_pow]
  generalize x.toInt * y.toInt = z
  omega

theorem mulhZ_word (x y : Word) : x.toNat % 2 ^ 32 * (y.toNat % 2 ^ 32) / 2 ^ 32 =
    (((x.setWidth 64 * y.setWidth 64 : BitVec 64) >>> 32).setWidth 32).toNat := by
  have hx := x.isLt
  have hy := y.isLt
  have hlt : x.toNat * y.toNat < 2 ^ 32 * 2 ^ 32 := Nat.mul_lt_mul_of_lt_of_lt hx hy
  rw [BitVec.toNat_setWidth, BitVec.toNat_ushiftRight, BitVec.toNat_mul, BitVec.toNat_setWidth, BitVec.toNat_setWidth,
    Nat.mod_eq_of_lt hx, Nat.mod_eq_of_lt hy, Nat.mod_eq_of_lt (show x.toNat < 2 ^ 64 by omega),
    Nat.mod_eq_of_lt (show y.toNat < 2 ^ 64 by omega), Nat.shiftRight_eq_div_pow]
  generalize x.toNat * y.toNat = z at *
  omega

theorem sdiv_word (x y : Word) : sdiv32 x.toNat y.toNat = (if y = 0 then 0xFFFFFFFF#32 else x.sdiv y).toNat := by
  simp only [sdiv32, toNat_eq_zero_iff, sext_toNat]
  split
  · rfl
  · rw [wrapTo_eq]
    congr 1
    exact BitVec.eq_of_toInt_eq (by rw [BitVec.toInt_ofInt, BitVec.toInt_sdiv])

theorem srem_word (x y : Word) : srem32 x.toNat y.toNat = (if y = 0 then x else x.srem y).toNat := by
  simp only [srem32, toNat_eq_zero_iff, sext_toNat]
  split
  · exact Nat.mod_eq_of_lt x.isLt
  · rw [← BitVec.toInt_srem, wrapTo_toInt]

theorem udiv_word (x y : Word) : udiv32 x.toNat y.toNat = (if y = 0 then 0xFFFFFFFF#32 else x / y).toNat := by
  simp only [udiv32, toNat_eq_zero_iff]
  split
  · rfl
  · rw [Nat.mod_eq_of_lt x.isLt, Nat.mod_eq_of_lt y.isLt, BitVec.toNat_udiv]

theorem urem_word (x y : Word) : urem32 x.toNat y.toNat = (if y = 0 then x else x % y).toNat := by
  simp only [urem32, toNat_eq_zero_iff]
  split
  · exact Nat.mod_eq_of_lt x.isLt
  · rw [Nat.mod_eq_of_lt x.isLt, Nat.mod_eq_of_lt y.isLt, BitVec.toNat_umod]

theorem smin_word (x y : Word) : smin32 x.toNat y.toNat = (if x.sle y then x else y).toNat := by
  simp only [smin32, sext_toNat, BitVec.sle_iff_toInt_le]
  split <;> rfl

theorem smax_word (x y : Word) : smax32 x.toNat y.toNat = (if x.sle y then y else x).toNat := by
  simp only [smax32, sext_toNat, BitVec.sle_iff_toInt_le]
  split <;> rfl

theorem umin_word (x y : Word) : min x.toNat y.toNat = (if x.ule y then x else y).toNat := by
  simp only [BitVec.ule_iff_le, BitVec.le_def, Nat.min_def]
  split <;> rfl

theorem umax_word (x y : Word) : max x.toNat y.toNat = (if x.ule y then y else x).toNat := by
  simp only [BitVec.ule_iff_le, BitVec.le_def, Nat.max_def]
  split <;> rfl

theorem not_word (x : Word) : not32 x.toNat = (~~~x).toNat := by
  rw [not32, Nat.mod_eq_of_lt x.isLt, BitVec.toNat_not]

theorem andn_word (x y : Word) : x.toNat &&& not32 y.toNat = (x &&& ~~~y).toNat := by
  rw [not_word, BitVec.toNat_and]

theorem shl_word (x y : Word) : shl32 x.toNat y.toNat = (x <<< (y.toNat % 32)).toNat := by
  rw [shl32, BitVec.toNat_shiftLeft, Nat.shiftLeft_eq]

theorem shr_word (x y : Word) : shr32 x.toNat y.toNat = (x >>> (y.toNat % 32)).toNat := by
  rw [shr32, BitVec.toNat_ushiftRight, Nat.shiftRight_eq_div_pow, Nat.mod_eq_of_lt x.isLt]

theorem sar_word (x y : Word) : sar32 x.toNat y.toNat = (x.sshiftRight (y.toNat % 32)).toNat := by
  rw [sar32, sext_toNat, ← wrapTo_toInt (x.sshiftRight _), BitVec.toInt_sshiftRight, Int.shiftRight_eq_div_pow]

theorem rol_word (x y : Word) : rol32 x.toNat y.toNat = (x.rotateLeft (y.toNat % 32)).toNat := by
  have hx := x.isLt
  obtain ⟨k, hk⟩ : ∃ k, k = y.toNat % 32 := ⟨_, rfl⟩
  have hk32 : k < 32 := by omega
  have hpow : 2 ^ 32 = 2 ^ (32 - k) * 2 ^ k := by rw [← Nat.pow_add]; congr 1; omega
  have hhigh : x.toNat * 2 ^ k % 2 ^ 32 = (x.toNat % 2 ^ (32 - k)) <<< k := by
    rw [hpow, Nat.mul_mod_mul_right, Nat.shiftLeft_eq]
  have hlow : x.toNat / 2 ^ (32 - k) < 2 ^ k := Nat.div_lt_of_lt_mul (by rw [← hpow]; exact hx)
  rw [rol32, ← hk, BitVec.toNat_rotateLeft, Nat.mod_eq_of_lt hk32, Nat.mod_eq_of_lt hx, Nat.shiftLeft_eq, hhigh,
    Nat.shiftRight_eq_div_pow, Nat.shiftLeft_add_eq_or_of_lt hlow]

theorem neg_word (x : Word) : neg32 x.toNat = (-x).toNat := by
  rw [neg32, BitVec.toNat_neg, Nat.mod_eq_of_lt x.isLt]

theorem abs_word (x : Word) : wrapTo 32 (sext 32 x.toNat).natAbs = (if x.msb then -x else x).toNat := by
  rw [sext_toNat, wrapTo_eq]
  congr 1
  have hmsb := BitVec.msb_eq_toInt (x := x)
  split
  next h =>
    rw [h] at hmsb
    have hneg : x.toInt < 0 := by simpa using hmsb.symm
    rw [show ((x.toInt.natAbs : Nat) : Int) = -x.toInt by omega, BitVec.ofInt_neg, BitVec.ofInt_toInt]
  next h =>
    have hpos : ¬ x.toInt < 0 := fun hn => h (by rw [hmsb]; exact decide_eq_true hn)
    rw [show ((x.toInt.natAbs : Nat) : Int) = x.toInt by omega, BitVec.ofInt_toInt]

theorem clz_word (x : Word) : clz32 x.toNat = x.clz.toNat := by
  simp only [clz32, toNat_eq_zero_iff]
  split
  next h => subst h; rfl
  next h =>
    have hx : x.toNat ≠ 0 := fun hx => h (BitVec.eq_of_toNat_eq hx)
    have hhi := BitVec.toNat_lt_two_pow_sub_clz (x := x)
    have hlo := BitVec.two_pow_sub_clz_le_toNat_of_ne_zero (by decide) h
    have hlt : x.clz.toNat < 32 := BitVec.lt_def.mp (BitVec.clz_lt_iff_ne_zero.mpr h)
    have hlog : Nat.log2 x.toNat = 31 - x.clz.toNat := by
      refine (Nat.log2_eq_iff hx).mpr ⟨hlo, ?_⟩
      rwa [show 31 - x.clz.toNat + 1 = 32 - x.clz.toNat by omega]
    rw [Nat.mod_eq_of_lt x.isLt, hlog]
    omega

theorem bit_word (x : Word) (i : Nat) : x.toNat / 2 ^ i % 2 = (x.getLsbD i).toNat := by
  rw [BitVec.getLsbD, Nat.testBit_eq_decide_div_mod_eq]
  rcases Nat.mod_two_eq_zero_or_one (x.toNat / 2 ^ i) with h | h <;> rw [h] <;> rfl

theorem sum_bits_eq_countP (p : Nat → Bool) (l : List Nat) : (l.map fun i => (p i).toNat).sum = l.countP p := by
  induction l with
  | nil => rfl
  | cons i r ih => rw [List.map_cons, List.sum_cons, ih, List.countP_cons]; cases p i <;> simp [Nat.add_comm]

theorem popc_word (x : Word) :
    popc32 x.toNat = (BitVec.ofNat 32 ((List.range 32).countP fun k => x.getLsbD k)).toNat := by
  have hle : (List.range 32).countP (fun k => x.getLsbD k) ≤ 32 := by
    have := List.countP_le_length (p := fun k => x.getLsbD k) (l := List.range 32)
    rwa [List.length_range] at this
  simp only [popc32, bits32, bit_word, sum_bits_eq_countP]
  rw [BitVec.toNat_ofNat, Nat.mod_eq_of_lt (by omega)]

/-- A number packed from bits is below the power of their count. -/
theorem packNat_lt (w : Nat) (l : List Nat) : packNat w l < 2 ^ (w * l.length) := by
  induction l with
  | nil => simp [packNat]
  | cons x r ih =>
    have hx : x % 2 ^ w < 2 ^ w := Nat.mod_lt _ (Nat.two_pow_pos w)
    calc packNat w (x :: r) < 2 ^ w * (packNat w r + 1) := by rw [packNat, Nat.mul_succ]; omega
      _ ≤ 2 ^ w * 2 ^ (w * r.length) := Nat.mul_le_mul_left _ ih
      _ = 2 ^ (w * (x :: r).length) := by rw [← Nat.pow_add, List.length_cons, Nat.mul_succ, Nat.add_comm]

theorem brev_word (x : Word) : brev32 x.toNat = x.reverse.toNat := by
  have hlt : brev32 x.toNat < 2 ^ 32 := by
    simpa [bits32, brev32] using packNat_lt 1 (bits32 x.toNat).reverse
  refine Nat.eq_of_testBit_eq fun i => ?_
  by_cases hi : i < 32
  · have hbit : brev32 x.toNat / 2 ^ i % 2 = (x.reverse.getLsbD i).toNat := by
      have := packNat_lane 1 (bits32 x.toNat).reverse i
      rw [Nat.one_mul, Nat.pow_one] at this
      rw [brev32, this, BitVec.getLsbD_reverse, BitVec.getMsbD]
      simp only [bits32, List.length_map, List.length_range, bit_word, hi, decide_true, Bool.true_and,
        List.getElem?_reverse, List.getElem?_map, List.getElem?_range (show 32 - 1 - i < 32 by omega), Option.map_some,
        Option.getD_some]
      cases x.getLsbD (32 - 1 - i) <;> rfl
    rw [Nat.testBit_eq_decide_div_mod_eq, hbit, BitVec.getLsbD]
    cases x.reverse.toNat.testBit i <;> rfl
  · rw [Nat.testBit_lt_two_pow (Nat.lt_of_lt_of_le hlt (Nat.pow_le_pow_right (by decide) (by omega))),
      Nat.testBit_lt_two_pow (Nat.lt_of_lt_of_le x.reverse.isLt (Nat.pow_le_pow_right (by decide) (by omega)))]


/-! ### From the lanes that an instruction packs to the lanes that it gives -/

theorem getD_map_range {n k : Nat} (g : Nat → Nat) (hk : k < n) : (((List.range n).map g)[k]?).getD 0 = g k := by
  rw [List.getElem?_map, List.getElem?_range hk, Option.map_some, Option.getD_some]

theorem zipWith_map_range {α β γ : Type} (m : α → β → γ) (p : Nat → α) (q : Nat → β) (n : Nat) :
    List.zipWith m ((List.range n).map p) ((List.range n).map q) = (List.range n).map fun k => m (p k) (q k) := by
  rw [List.zipWith_map, List.zipWith_self]

/-- An instruction that sends packed lanes by DX and DY gives those lanes. -/
theorem State.gives_of_packed {s : State} {i : Instr} {o : ElemOps} {f : Fire} {nest : BitVec 48} {h : Handle} {sh : Shape}
    {w n : Nat} {l : List Nat} {lane : Nat → Nat}
    (hx : exec i s = .next (s.results f nest h (bothOut o sh (packLanes w l)))) (hw : w ≤ 32) (hn : n ≤ 32)
    (hl : ∀ k, k < n → (l[k]?).getD 0 % 2 ^ w = lane k) : s.Gives i o f nest h sh w n lane := by
  refine ⟨_, hx, fun k hk => ?_⟩
  have hfits : w * (k + 1) ≤ 32 * 32 := Nat.mul_le_mul hw (by omega)
  rw [laneAt_packLanes _ hfits, hl k hk]

theorem Fire.colour_le_one (f : Fire) {a : Opnd} {sa : OpSrc} {la : Nat} {wa : Fmt} (ea : a = f.read sa la wa) :
    colourOf [a] ≤ 32 :=
  colourOf_le _ (List.forall_mem_cons.mpr ⟨ea ▸ f.read_narrow _ _ _, fun _ hx => absurd hx List.not_mem_nil⟩)

theorem Fire.colour_le_two (f : Fire) {a b : Opnd} {sa sb : OpSrc} {la lb : Nat} {wa wb : Fmt} (ea : a = f.read sa la wa)
    (eb : b = f.read sb lb wb) : colourOf [a, b] ≤ 32 :=
  colourOf_le _ (List.forall_mem_cons.mpr ⟨ea ▸ f.read_narrow _ _ _, List.forall_mem_cons.mpr
    ⟨eb ▸ f.read_narrow _ _ _, fun _ hx => absurd hx List.not_mem_nil⟩⟩)

theorem Fire.colour_le_three (f : Fire) {a b c : Opnd} {sa sb sc : OpSrc} {la lb lc : Nat} {wa wb wc : Fmt}
    (ea : a = f.read sa la wa) (eb : b = f.read sb lb wb) (ec : c = f.read sc lc wc) : colourOf [a, b, c] ≤ 32 :=
  colourOf_le _ (List.forall_mem_cons.mpr ⟨ea ▸ f.read_narrow _ _ _, List.forall_mem_cons.mpr
    ⟨eb ▸ f.read_narrow _ _ _, List.forall_mem_cons.mpr ⟨ec ▸ f.read_narrow _ _ _, fun _ hx => absurd hx List.not_mem_nil⟩⟩⟩)

/-- A lane-wise instruction of two operands that goes through gives the lanes that its lane function answers. -/
theorem State.gives_of_lanewise2 {s : State} {i : Instr} {o : ElemOps} {fs : List Fmt} {rfmt : Opnd → Fmt}
    {res : Fire → Opnd → List Nat → List Nat → List Nat} {f : Fire} {h : Handle} {nest : BitVec 48} {a b : Opnd}
    {lane : Nat → Nat}
    (hx : exec i s = s.lanewise o fs true false false rfmt (fun _ _ => none) fun f x a b _ => res f x a b)
    (ea : a = f.read (srcOf o.sa) o.lx.toNat (f.want fs [srcOf o.sa, srcOf o.sb]))
    (eb : b = f.read (srcOf o.sb) o.lx.toNat (f.want fs [srcOf o.sa, srcOf o.sb]))
    (hf : s.Fires f [a, b] h) (hs : stdCheck (colourOf [a, b]) [(a, fs), (b, fs)] = none)
    (hn : tagAction f o.ta.toNat (a.lane 0) 0 = some nest)
    (hl : ∀ k, k < colourOf [a, b] → ((res f a ((List.range (colourOf [a, b])).map a.lane)
      ((List.range (colourOf [a, b])).map b.lane))[k]?).getD 0 % 2 ^ fmtWidth (rfmt a) = lane k) :
    s.Gives i o f nest h (Shape.data (rfmt a) (colourOf [a, b])) (fmtWidth (rfmt a)) (colourOf [a, b]) lane :=
  State.gives_of_packed (hx.trans (State.lanewise2_next ea eb hf hs hn)) (fmtWidth_le _) (f.colour_le_two ea eb) hl

/-- A lane-wise instruction of three operands that fires on one format and goes through gives the lanes that its lane
function answers. -/
theorem State.gives_of_lanewise3 {s : State} {i : Instr} {o : ElemOps} {fm : Fmt}
    {res : Fire → List Nat → List Nat → List Nat → List Nat} {f : Fire} {h : Handle} {nest : BitVec 48} {a b c : Opnd}
    {lane : Nat → Nat}
    (hx : exec i s = s.lanewise o [fm] true true true (fun _ => fm) (fun _ _ => none) fun f _ a b c => res f a b c)
    (ea : a = f.read (srcOf o.sa) (o.lx.toNat + 1) fm) (eb : b = f.read (srcOf o.sb) (o.lx.toNat + 1) fm)
    (ec : c = f.read (csrcOf (bitF (f.cw o) 31 29)) (o.lx.toNat + 1) fm)
    (hf : s.Fires f [a, b, c] h) (hs : stdCheck (colourOf [a, b, c]) [(a, [fm]), (b, [fm]), (c, [fm])] = none)
    (hn : tagAction f o.ta.toNat (a.lane 0) 0 = some nest)
    (hl : ∀ k, k < colourOf [a, b, c] → ((res f ((List.range (colourOf [a, b, c])).map a.lane)
      ((List.range (colourOf [a, b, c])).map b.lane) ((List.range (colourOf [a, b, c])).map c.lane))[k]?).getD 0
        % 2 ^ fmtWidth fm = lane k) :
    s.Gives i o f nest h (Shape.data fm (colourOf [a, b, c])) (fmtWidth fm) (colourOf [a, b, c]) lane := by
  have hnext := State.lanewise_next (s := s) (fs := [fm]) (useB := true) (cw := true) (useC := true) (rfmt := fun _ => fm)
    (chk := fun _ _ => none) (res := fun f _ a b c => res f a b c) rfl rfl ea eb ec hf hs rfl hn
  exact State.gives_of_packed (hx.trans hnext) (fmtWidth_le _) (f.colour_le_three ea eb ec) hl

/-! ### Integer opcodes -/

theorem Opnd.lane_eq_word (x : Opnd) (k : Nat) : x.lane k = (x.word k).toNat := by
  have hlt := x.lane_lt k
  have hle : 2 ^ fmtWidth x.fmt ≤ 2 ^ 32 := Nat.pow_le_pow_right (by decide) (fmtWidth_le _)
  rw [Opnd.word, BitVec.toNat_ofNat, Nat.mod_eq_of_lt (by omega)]

/-- A lane function on 32-bit words makes an integer opcode of A and B. -/
theorem laneBinary_of_word {mk : ElemOps → Instr} {fs : List Fmt} {rf : Opnd → Fmt} {m : Nat → Nat → Nat}
    {g : Word → Word → Word} (hx : ∀ o s, exec (mk o) s = s.lanewise2 o fs rf m) (hrf : ∀ a, rf a = resultFmt fs a)
    (hfs : ∀ x ∈ fs, fmtWidth x = 32) (hm : ∀ x y : Word, m x.toNat y.toNat = (g x y).toNat) : LaneBinary mk fs g := by
  intro o s f h nest want a b n hf _ _ hs hr hn
  have hw : fmtWidth (rf a) = 32 := by rw [hrf]; exact hfs _ hr
  have := State.gives_of_lanewise2 (res := fun _ _ => List.zipWith m) (a := a) (b := b)
    (lane := fun k => (g (a.word k) (b.word k)).toNat) (hx o s) rfl rfl hf hs hn fun k hk => by
      rw [zipWith_map_range, getD_map_range _ hk, a.lane_eq_word, b.lane_eq_word, hm, hw]
      exact Nat.mod_eq_of_lt (BitVec.isLt _)
  rwa [hw, hrf] at this

/-- A lane function on 32-bit words makes an integer opcode of A alone. -/
theorem laneUnary_of_word {mk : ElemOps → Instr} {fs : List Fmt} {rf : Opnd → Fmt} {m : Nat → Nat} {g : Word → Word}
    (hx : ∀ o s, exec (mk o) s = s.lanewise1 o fs rf m) (hrf : ∀ a, rf a = resultFmt fs a)
    (hfs : ∀ x ∈ fs, fmtWidth x = 32) (hm : ∀ x : Word, m x.toNat = (g x).toNat) : LaneUnary mk fs g := by
  intro o s f h nest a n hf _ hs hr hn
  have hw : fmtWidth (rf a) = 32 := by rw [hrf]; exact hfs _ hr
  have := State.gives_of_lanewise1 (res := fun _ _ => List.map m) (a := a) (lane := fun k => (g (a.word k)).toNat) (hx o s)
    rfl hf hs hn fun k hk => by
      rw [List.map_map, getD_map_range _ hk, Function.comp_apply, a.lane_eq_word, hm, hw]
      exact Nat.mod_eq_of_lt (BitVec.isLt _)
  rwa [hw, hrf] at this

theorem fmtLikeA_eq (a : Opnd) : fmtLikeA a = resultFmt [.i32, .bits] a := rfl

theorem fmtI32_eq (a : Opnd) : fmtI32 a = resultFmt [.i32] a := rfl

theorem fmtWidth_i32_bits : ∀ x ∈ [Fmt.i32, Fmt.bits], fmtWidth x = 32 := by decide

theorem fmtWidth_i32 : ∀ x ∈ [Fmt.i32], fmtWidth x = 32 := by decide

theorem integerBinaryTable_lanes : ∀ p ∈ integerBinaryTable, LaneBinary p.1 p.2.1 p.2.2 := by
  have both {mk : ElemOps → Instr} {m : Nat → Nat → Nat} {g : Word → Word → Word}
      (hx : ∀ o s, exec (mk o) s = s.lanewise2 o [.i32, .bits] fmtLikeA m)
      (hm : ∀ x y : Word, m x.toNat y.toNat = (g x y).toNat) : LaneBinary mk [.i32, .bits] g :=
    laneBinary_of_word hx fmtLikeA_eq fmtWidth_i32_bits hm
  have i32 {mk : ElemOps → Instr} {m : Nat → Nat → Nat} {g : Word → Word → Word}
      (hx : ∀ o s, exec (mk o) s = s.lanewise2 o [.i32] fmtI32 m)
      (hm : ∀ x y : Word, m x.toNat y.toNat = (g x y).toNat) : LaneBinary mk [.i32] g :=
    laneBinary_of_word hx fmtI32_eq fmtWidth_i32 hm
  simp only [integerBinaryTable, List.forall_mem_cons]
  exact ⟨both (fun _ _ => rfl) add_word, both (fun _ _ => rfl) sub_word, i32 (fun _ _ => rfl) mul_word,
    i32 (fun _ _ => rfl) mulh_word, i32 (fun _ _ => rfl) mulhZ_word, i32 (fun _ _ => rfl) sdiv_word,
    i32 (fun _ _ => rfl) srem_word, i32 (fun _ _ => rfl) udiv_word, i32 (fun _ _ => rfl) urem_word,
    i32 (fun _ _ => rfl) smin_word, i32 (fun _ _ => rfl) smax_word, i32 (fun _ _ => rfl) umin_word,
    i32 (fun _ _ => rfl) umax_word, both (fun _ _ => rfl) fun x y => (BitVec.toNat_and x y).symm,
    both (fun _ _ => rfl) fun x y => (BitVec.toNat_or x y).symm, both (fun _ _ => rfl) fun x y => (BitVec.toNat_xor x y).symm,
    both (fun _ _ => rfl) andn_word, both (fun _ _ => rfl) shl_word, both (fun _ _ => rfl) shr_word,
    both (fun _ _ => rfl) sar_word, both (fun _ _ => rfl) rol_word, fun _ hp => absurd hp List.not_mem_nil⟩

theorem integerUnaryTable_lanes : ∀ p ∈ integerUnaryTable, LaneUnary p.1 p.2.1 p.2.2 := by
  have both {mk : ElemOps → Instr} {m : Nat → Nat} {g : Word → Word}
      (hx : ∀ o s, exec (mk o) s = s.lanewise1 o [.i32, .bits] fmtLikeA m) (hm : ∀ x : Word, m x.toNat = (g x).toNat) :
      LaneUnary mk [.i32, .bits] g := laneUnary_of_word hx fmtLikeA_eq fmtWidth_i32_bits hm
  have i32 {mk : ElemOps → Instr} {m : Nat → Nat} {g : Word → Word}
      (hx : ∀ o s, exec (mk o) s = s.lanewise1 o [.i32] fmtI32 m) (hm : ∀ x : Word, m x.toNat = (g x).toNat) :
      LaneUnary mk [.i32] g := laneUnary_of_word hx fmtI32_eq fmtWidth_i32 hm
  simp only [integerUnaryTable, List.forall_mem_cons]
  exact ⟨i32 (fun _ _ => rfl) abs_word, i32 (fun _ _ => rfl) neg_word, both (fun _ _ => rfl) not_word,
    both (fun _ _ => rfl) clz_word, both (fun _ _ => rfl) popc_word, both (fun _ _ => rfl) brev_word,
    fun _ hp => absurd hp List.not_mem_nil⟩

/-- Settles O1: each lane function is that of the 32-bit words, and a firing that goes through packs it in every lane. -/
theorem integerLaneResults : Obligations.IntegerLaneResults := by
  unfold Obligations.IntegerLaneResults
  refine ⟨integerBinaryTable_lanes, integerUnaryTable_lanes, ?_, ?_⟩
  · intro o s f h nest c a b n hf hs hn
    have hexec : exec (.mad o) s = s.lanewise o [.i32] true true true (fun _ => .i32) (fun _ _ => none) fun _ _ a b c =>
        List.zipWith (fun x z => (x + z) % 2 ^ 32) (List.zipWith (fun x y => x * y) a b) c := rfl
    refine State.gives_of_lanewise3 hexec rfl rfl rfl hf hs hn fun k hk => ?_
    rw [zipWith_map_range, zipWith_map_range, getD_map_range _ hk, a.lane_eq_word, b.lane_eq_word, c.lane_eq_word,
      BitVec.toNat_add, BitVec.toNat_mul]
    simp only [fmtWidth]
    omega
  · intro o s f h nest c a p n hf hfmt hs hn
    refine State.gives_of_packed (l := (List.range n).map fun i => if p.bit i then a.lane i else c.lane i) ?_
      (Nat.le_refl 32) (f.colour_le_three rfl rfl rfl) fun k hk => ?_
    · have hck : (match stdCheck n [(a, [.i32]), (p, allFmts), (c, [.i32])] with
          | some k => some k
          | none => if a.fmt = c.fmt ∨ a.ord ∨ c.ord then none else some 0x70) = none := by
        rw [hs]; exact if_pos hfmt
      show execSel o s = _
      unfold execSel
      rw [hf.1]
      exact congrArg _ ((congrArg (fun ck => s.runFire f o [a, p, c] .all (.data .i32 n) (.data .i32 n) (a.lane 0) 0 ck _)
        hck).trans (State.runFire_results _ hf hn))
    · rw [getD_map_range _ hk, a.lane_eq_word, c.lane_eq_word]
      split <;> exact Nat.mod_eq_of_lt (BitVec.isLt _)

end Sys2Proof.Machine

/-! SUPPORT. The results of the compare, float, lane, conversion and predicate opcodes (R238 to R247). -/

namespace Sys2Proof.Machine

/-! ### Comparisons and predicates (R238, R239) -/

theorem ite_one_zero_mod_two (b : Bool) : (if b then 1 else 0) % 2 ^ 1 = b.toNat := by cases b <;> rfl

/-- A comparison of lanes makes a compare opcode. -/
theorem laneCompare_of_lanes {mk : ElemOps → Instr} {fs : List Fmt} {m g : Bool → Nat → Nat → Bool}
    (hx : ∀ o s, exec (mk o) s = s.compare o fs m) (hm : ∀ z (a b : Word), m z a.toNat b.toNat = g z a.toNat b.toNat) :
    LaneCompare mk fs g := by
  intro o s f h nest want a b n hf _ _ hs hn
  refine State.gives_of_packed ((hx o s).trans (State.compare_next rfl rfl hf hs hn)) (by decide)
    (f.colour_le_two rfl rfl) fun k hk => ?_
  rw [getD_map_range _ hk, ite_one_zero_mod_two, a.lane_eq_word, b.lane_eq_word, hm]

theorem word_beq (a b : Word) : (a.toInt == b.toInt) = (a == b) := by
  rw [Bool.eq_iff_iff, beq_iff_eq, beq_iff_eq, BitVec.toInt_inj]

/-- Each integer comparison of lanes is that of the 32-bit words. -/
theorem icmp_word (a b : Word) :
    icmp .eq a.toNat b.toNat = (a == b) ∧ icmp .ne a.toNat b.toNat = (a != b) ∧ icmp .lt a.toNat b.toNat = a.slt b ∧
    icmp .ge a.toNat b.toNat = b.sle a ∧ icmp .ltu a.toNat b.toNat = a.ult b ∧ icmp .geu a.toNat b.toNat = b.ule a ∧
    icmp .le a.toNat b.toNat = a.sle b ∧ icmp .gt a.toNat b.toNat = b.slt a := by
  simp only [icmp, sext_toNat, Nat.mod_eq_of_lt a.isLt, Nat.mod_eq_of_lt b.isLt]
  exact ⟨word_beq a b, congrArg not (word_beq a b), rfl, rfl, rfl, rfl, rfl, rfl⟩

/-- Settles O2: the lane comparisons are those of words and of exact values. -/
theorem compareResults : Obligations.CompareResults := by
  unfold Obligations.CompareResults
  constructor
  · have int {mk : ElemOps → Instr} {k : ICmp} {g : Word → Word → Bool}
        (hx : ∀ o s, exec (mk o) s = s.icompare o k) (hk : ∀ a b : Word, icmp k a.toNat b.toNat = g a b) :
        LaneCompare mk [.i32, .bits] fun _ a b => g (BitVec.ofNat 32 a) (BitVec.ofNat 32 b) :=
      laneCompare_of_lanes hx fun _ a b => by rw [hk, BitVec.ofNat_toNat, BitVec.ofNat_toNat]; rfl
    simp only [integerCompareTable, List.forall_mem_cons]
    exact ⟨int (fun _ _ => rfl) fun a b => (icmp_word a b).1, int (fun _ _ => rfl) fun a b => (icmp_word a b).2.1,
      int (fun _ _ => rfl) fun a b => (icmp_word a b).2.2.1, int (fun _ _ => rfl) fun a b => (icmp_word a b).2.2.2.1,
      int (fun _ _ => rfl) fun a b => (icmp_word a b).2.2.2.2.1,
      int (fun _ _ => rfl) fun a b => (icmp_word a b).2.2.2.2.2.1,
      int (fun _ _ => rfl) fun a b => (icmp_word a b).2.2.2.2.2.2.1,
      int (fun _ _ => rfl) fun a b => (icmp_word a b).2.2.2.2.2.2.2, fun _ hp => absurd hp List.not_mem_nil⟩
  · have float (k : FCmp) {mk : ElemOps → Instr} {fm : Fmt} (hx : ∀ o s, exec (mk o) s = s.fcompare o fm k) :
        LaneCompare mk [fm] fun ftz a b => fcmp k (readFloat ftz fm a) (readFloat ftz fm b) :=
      laneCompare_of_lanes hx fun _ _ _ => rfl
    have num {mk : ElemOps → Instr} {fm : Fmt} (hx : ∀ o s, exec (mk o) s = s.fcompare o fm .num) :
        LaneCompare mk [fm] fun ftz a b => !(readFloat ftz fm a).isNan && !(readFloat ftz fm b).isNan :=
      laneCompare_of_lanes hx fun _ _ _ => Bool.not_or ..
    simp only [floatCompareTable, List.forall_mem_cons]
    exact ⟨float .eq fun _ _ => rfl, float .ne fun _ _ => rfl, float .lt fun _ _ => rfl, float .le fun _ _ => rfl,
      float .gt fun _ _ => rfl, float .ge fun _ _ => rfl, float .un fun _ _ => rfl, num fun _ _ => rfl,
      float .eq fun _ _ => rfl, float .ne fun _ _ => rfl, float .lt fun _ _ => rfl, float .le fun _ _ => rfl,
      float .gt fun _ _ => rfl, float .ge fun _ _ => rfl, float .un fun _ _ => rfl, num fun _ _ => rfl,
      fun _ hp => absurd hp List.not_mem_nil⟩

/-- The bits of a predicate payload packed from the first `n` lanes. -/
theorem getLsbD_packLanes_one {n : Nat} (hn : n ≤ 32) (g : Nat → Bool) (k : Nat) :
    (packLanes 1 ((List.range n).map fun i => if g i then 1 else 0)).getLsbD k = (decide (k < n) && g k) := by
  have hlane := packNat_lane 1 ((List.range n).map fun i => if g i then 1 else 0) k
  rw [Nat.one_mul, Nat.pow_one] at hlane
  rw [packLanes, BitVec.getLsbD_ofNat, Nat.testBit_eq_decide_div_mod_eq, hlane]
  by_cases hk : k < n
  · rw [getD_map_range _ hk, decide_eq_true hk, decide_eq_true (show k < 1024 by omega)]
    cases g k <;> rfl
  · rw [List.getElem?_eq_none (by simpa using hk), decide_eq_false hk, Bool.false_and]
    exact Bool.and_false _

/-- A predicate opcode that goes through sends its Boolean function of the bits (R238). -/
theorem State.predicate_next {s : State} {o : ElemOps} {useB : Bool} {g : Bool → Bool → Bool} {f : Fire} {h : Handle}
    {nest : BitVec 48} {a b : Opnd} (ea : a = f.read (srcOf o.sa) 0 .bits)
    (eb : b = f.read (if useB then srcOf o.sb else .none) 0 .bits) (hf : s.Fires f [a, b] h)
    (hs : stdCheck (colourOf [a, b]) [(a, allFmts), (b, allFmts)] = none) (hn : tagAction f o.ta.toNat 0 0 = some nest) :
    ∃ pay : BitVec 1024,
      s.predicate o useB g = .next (s.results f nest h (bothOut o (Shape.pred (colourOf [a, b])) pay)) ∧
      ∀ k, pay.getLsbD k = (decide (k < colourOf [a, b]) && g (a.bit k) (b.bit k)) := by
  refine ⟨packLanes 1 ((List.range (colourOf [a, b])).map fun i => if g (a.bit i) (b.bit i) then 1 else 0), ?_,
    getLsbD_packLanes_one (f.colour_le_two ea eb) fun k => g (a.bit k) (b.bit k)⟩
  subst ea eb
  unfold State.predicate
  rw [hf.1]
  simp only [hs]
  rw [State.runFire_results _ hf hn]
  rfl

/-- Settles O6: the payload is packed from the function of the bits of each lane, and no lane is beyond the colour. -/
theorem predicateOpcodeResults : Obligations.PredicateOpcodeResults := by
  unfold Obligations.PredicateOpcodeResults
  constructor
  · have both {mk : ElemOps → Instr} {g : Bool → Bool → Bool} (hx : ∀ o s, exec (mk o) s = s.predicate o true g)
        (o : ElemOps) (s : State) (f : Fire) (h : Handle) (nest : BitVec 48) :
        let a := f.read (srcOf o.sa) 0 .bits
        let b := f.read (srcOf o.sb) 0 .bits
        let n := colourOf [a, b]
        s.Fires f [a, b] h → stdCheck n [(a, allFmts), (b, allFmts)] = none → tagAction f o.ta.toNat 0 0 = some nest →
        ∃ pay : BitVec 1024, exec (mk o) s = .next (s.results f nest h (bothOut o (Shape.pred n) pay)) ∧
          ∀ k, pay.getLsbD k = (decide (k < n) && g (a.bit k) (b.bit k)) := by
      intro a b n hf hs hn
      rw [hx]
      exact State.predicate_next rfl rfl hf hs hn
    simp only [List.forall_mem_cons]
    exact ⟨both fun _ _ => rfl, both fun _ _ => rfl, both fun _ _ => rfl, fun _ hp => absurd hp List.not_mem_nil⟩
  · intro o s f h nest a n hf hs hn
    obtain ⟨z, hz⟩ : ∃ z, z = Opnd.const .none .bits 0 := ⟨_, rfl⟩
    have hcolour : colourOf [a, z] = n := hz ▸ colourOf_append_none [a] _ _
    have hcheck : stdCheck n [(a, allFmts), (z, allFmts)] = none :=
      hz ▸ (stdCheck_append_none n [(a, allFmts)] _ _ _).trans hs
    have hfires : s.Fires f [a, z] h := hz ▸ Fires.append_none .bits 0 hf
    have hnext := State.predicate_next (useB := false) (g := fun a _ => !a) rfl hz hfires (hcolour ▸ hcheck) hn
    rwa [hcolour] at hnext

/-! ### Float opcodes (R183, R184, R241, R242) -/

/-- A rounded value fits its lane (R181). -/
theorem roundTo_lt {f : Fmt} (hf : fmtIsFloat f = true) (x : Val) (rm : RMode) (rw : Nat) (sat : Bool) :
    roundTo f x rm rw sat < 2 ^ fmtWidth f := by
  have hnan : canonNan f < 2 ^ fmtWidth f := by revert hf; cases f <;> decide
  have hinf : ∀ z, encodeInf f z < 2 ^ fmtWidth f := by revert hf; cases f <;> decide
  have hmax : ∀ z, signBits f z + maxBits f < 2 ^ fmtWidth f := by revert hf; cases f <;> decide
  unfold roundTo
  split
  · exact hnan
  · split
    · exact hmax _
    · exact hinf _
  · exact Nat.lt_of_le_of_lt (Nat.le_add_right _ _) (hmax _)
  · dsimp only
    split
    · split
      · exact hmax _
      · exact hinf _
    · have := hmax ‹_›
      omega

theorem flushBits_le (ftz : Bool) (f : Fmt) (b : Nat) : flushBits ftz f b ≤ b := by
  unfold flushBits
  dsimp only
  split <;> omega

theorem floatResult_lt {f : Fmt} (hf : fmtIsFloat f = true) (ftz : Bool) (x : Val) :
    floatResult ftz f x < 2 ^ fmtWidth f :=
  Nat.lt_of_le_of_lt (flushBits_le _ _ _) (roundTo_lt hf _ _ _ _)

theorem floatResult_mod {f : Fmt} (hf : fmtIsFloat f = true) (ftz : Bool) (x : Val) :
    floatResult ftz f x % 2 ^ fmtWidth f = floatResult ftz f x :=
  Nat.mod_eq_of_lt (floatResult_lt hf ftz x)

theorem floatBinary_of_float2 {mk : ElemOps → Instr} {fm : Fmt} {g : Val → Val → Val} (hfm : fmtIsFloat fm = true)
    (hx : ∀ o s, exec (mk o) s = s.float2 o fm g) : FloatBinary mk fm g := by
  intro o s f h nest a b n hf _ _ hs hn
  refine State.gives_of_lanewise2 (rfmt := fun _ => fm) (res := fun f _ a b => List.zipWith (fun x y =>
    floatResult f.slot.ftz fm (g (readFloat f.slot.ftz fm x) (readFloat f.slot.ftz fm y))) a b) (hx o s) rfl rfl hf hs hn
    fun k hk => ?_
  rw [zipWith_map_range, getD_map_range _ hk, floatResult_mod hfm]

theorem floatUnary_of_map {mk : ElemOps → Instr} {fm rf : Fmt} {m g : Bool → Nat → Nat}
    (hx : ∀ o s, exec (mk o) s = s.lanewise o [fm] false false false (fun _ => rf) (fun _ _ => none)
      fun f _ a _ _ => a.map (m f.slot.ftz))
    (hm : ∀ z b, b < 2 ^ fmtWidth fm → m z b % 2 ^ fmtWidth rf = g z b) : FloatUnary mk fm rf g := by
  intro o s f h nest a n hf hfmt hs hn
  refine State.gives_of_lanewise1 (rfmt := fun _ => rf) (res := fun f _ a => a.map (m f.slot.ftz)) (hx o s) rfl hf hs hn
    fun k hk => ?_
  rw [List.map_map, getD_map_range _ hk]
  refine hm _ _ ?_
  rcases hfmt with hord | hmem
  · rw [Opnd.lane, hord]; exact Nat.two_pow_pos _
  · rw [← List.mem_singleton.mp hmem]; exact a.lane_lt k

theorem floatUnary_of_float1 {mk : ElemOps → Instr} {fm : Fmt} {g : Val → Val} (hfm : fmtIsFloat fm = true)
    (hx : ∀ o s, exec (mk o) s = s.float1 o fm g) :
    FloatUnary mk fm fm fun ftz a => floatResult ftz fm (g (readFloat ftz fm a)) :=
  floatUnary_of_map (m := fun ftz b => floatResult ftz fm (g (readFloat ftz fm b))) hx fun _ _ _ => floatResult_mod hfm _ _

theorem floatUnary_of_bits {mk : ElemOps → Instr} {fm rf : Fmt} {m : Nat → Nat}
    (hx : ∀ o s, exec (mk o) s = s.lanewise1 o [fm] (fun _ => rf) m) (hm : ∀ b, b < 2 ^ fmtWidth fm → m b < 2 ^ fmtWidth rf) :
    FloatUnary mk fm rf fun _ a => m a :=
  floatUnary_of_map (m := fun _ => m) hx fun _ b hb => Nat.mod_eq_of_lt (hm b hb)

theorem absBits_lt (fm : Fmt) (b : Nat) : absBits fm b < 2 ^ fmtWidth fm :=
  Nat.lt_of_lt_of_le (Nat.mod_lt _ (Nat.two_pow_pos _)) (Nat.pow_le_pow_right (by decide) (Nat.sub_le _ _))

theorem negBits_lt {fm : Fmt} {b : Nat} (hb : b < 2 ^ fmtWidth fm) : negBits fm b < 2 ^ fmtWidth fm :=
  Nat.xor_lt_two_pow hb (Nat.pow_lt_pow_right (by decide) (Nat.sub_lt (fmtWidth_pos fm) (by decide)))

theorem fclassMask_lt {fm : Fmt} (hfm : fm = .fp32 ∨ fm = .bf16) (b : Nat) : fclassMask fm b < 2 ^ 32 := by
  rw [fclassMask_eq hfm]
  exact Nat.pow_lt_pow_right (by decide) (Nat.lt_of_le_of_lt (classBit_le _ _ _) (by decide))

/-- `ffma` on a float format that goes through gives the sum of product and addend, rounded once (R241). -/
theorem State.gives_fma {s : State} {i : Instr} {o : ElemOps} {fm : Fmt} {f : Fire} {h : Handle} {nest : BitVec 48}
    {a b c : Opnd} (hfm : fmtIsFloat fm = true) (hx : exec i s = s.fma o fm)
    (ea : a = f.read (srcOf o.sa) (o.lx.toNat + 1) fm) (eb : b = f.read (srcOf o.sb) (o.lx.toNat + 1) fm)
    (ec : c = f.read (csrcOf (bitF (f.cw o) 31 29)) (o.lx.toNat + 1) fm) (hf : s.Fires f [a, b, c] h)
    (hs : stdCheck (colourOf [a, b, c]) [(a, [fm]), (b, [fm]), (c, [fm])] = none)
    (hn : tagAction f o.ta.toNat (a.lane 0) 0 = some nest) :
    let rd := readFloat f.slot.ftz fm
    let sign (bit : Nat) (v : Val) : Val := if bitF (f.cw o) bit bit = 1 then vneg v else v
    s.Gives i o f nest h (Shape.data fm (colourOf [a, b, c])) (fmtWidth fm) (colourOf [a, b, c]) fun k =>
      floatResult f.slot.ftz fm (vadd (sign 28 (vmul (rd (a.lane k)) (rd (b.lane k)))) (sign 27 (rd (c.lane k)))) := by
  intro rd sign
  refine State.gives_of_lanewise3 (res := fun f a b c => List.zipWith (fun p z => floatResult f.slot.ftz fm
    (vadd (if bitF (f.cw o) 28 28 = 1 then vneg p else p)
      (if bitF (f.cw o) 27 27 = 1 then vneg (readFloat f.slot.ftz fm z) else readFloat f.slot.ftz fm z)))
    (List.zipWith (fun x y => vmul (readFloat f.slot.ftz fm x) (readFloat f.slot.ftz fm y)) a b) c) hx ea eb ec hf hs hn
    fun k hk => ?_
  rw [zipWith_map_range, zipWith_map_range, getD_map_range _ hk, floatResult_mod hfm]

/-- Settles O3: a rounded value fits its lane, so each lane is the result of its lane function. -/
theorem floatLaneResults : Obligations.FloatLaneResults := by
  unfold Obligations.FloatLaneResults
  refine ⟨?_, ?_, ?_, ?_⟩
  · simp only [floatBinaryTable, List.forall_mem_cons]
    have fp32 {mk : ElemOps → Instr} {g : Val → Val → Val} (hx : ∀ o s, exec (mk o) s = s.float2 o .fp32 g) :
        FloatBinary mk .fp32 g := floatBinary_of_float2 rfl hx
    have bf16 {mk : ElemOps → Instr} {g : Val → Val → Val} (hx : ∀ o s, exec (mk o) s = s.float2 o .bf16 g) :
        FloatBinary mk .bf16 g := floatBinary_of_float2 rfl hx
    exact ⟨fp32 fun _ _ => rfl, fp32 fun _ _ => rfl, fp32 fun _ _ => rfl, fp32 fun _ _ => rfl, fp32 fun _ _ => rfl,
      fp32 fun _ _ => rfl, bf16 fun _ _ => rfl, bf16 fun _ _ => rfl, bf16 fun _ _ => rfl, bf16 fun _ _ => rfl,
      bf16 fun _ _ => rfl, bf16 fun _ _ => rfl, fun _ hp => absurd hp List.not_mem_nil⟩
  · simp only [floatUnaryTable, List.forall_mem_cons]
    have fp32 {mk : ElemOps → Instr} {g : Val → Val} (hx : ∀ o s, exec (mk o) s = s.float1 o .fp32 g) :
        FloatUnary mk .fp32 .fp32 fun ftz a => floatResult ftz .fp32 (g (readFloat ftz .fp32 a)) :=
      floatUnary_of_float1 rfl hx
    have bf16 {mk : ElemOps → Instr} {g : Val → Val} (hx : ∀ o s, exec (mk o) s = s.float1 o .bf16 g) :
        FloatUnary mk .bf16 .bf16 fun ftz a => floatResult ftz .bf16 (g (readFloat ftz .bf16 a)) :=
      floatUnary_of_float1 rfl hx
    exact ⟨fp32 fun _ _ => rfl, fp32 fun _ _ => rfl, fp32 fun _ _ => rfl, fp32 fun _ _ => rfl, fp32 fun _ _ => rfl,
      fp32 fun _ _ => rfl, fp32 fun _ _ => rfl, fp32 fun _ _ => rfl, bf16 fun _ _ => rfl, bf16 fun _ _ => rfl,
      bf16 fun _ _ => rfl, bf16 fun _ _ => rfl, bf16 fun _ _ => rfl, bf16 fun _ _ => rfl, bf16 fun _ _ => rfl,
      bf16 fun _ _ => rfl, fun _ hp => absurd hp List.not_mem_nil⟩
  · simp only [floatBitTable, List.forall_mem_cons]
    exact ⟨floatUnary_of_bits (m := absBits .fp32) (fun _ _ => rfl) fun b _ => absBits_lt .fp32 b,
      floatUnary_of_bits (m := negBits .fp32) (fun _ _ => rfl) fun _ => negBits_lt,
      floatUnary_of_bits (fun _ _ => rfl) fun b _ => fclassMask_lt (.inl rfl) b,
      floatUnary_of_bits (m := absBits .bf16) (fun _ _ => rfl) fun b _ => absBits_lt .bf16 b,
      floatUnary_of_bits (m := negBits .bf16) (fun _ _ => rfl) fun _ => negBits_lt,
      floatUnary_of_bits (fun _ _ => rfl) fun b _ => fclassMask_lt (.inr rfl) b, fun _ hp => absurd hp List.not_mem_nil⟩
  · simp only [List.forall_mem_cons]
    exact ⟨fun o s f h nest hf hs hn => State.gives_fma rfl rfl rfl rfl rfl hf hs hn,
      fun o s f h nest hf hs hn => State.gives_fma rfl rfl rfl rfl rfl hf hs hn, fun _ hp => absurd hp List.not_mem_nil⟩

end Sys2Proof.Machine

/-! SUPPORT. The results of the lane and conversion opcodes (R243 to R247). -/

namespace Sys2Proof.Machine

/-! ### Folds and prefixes of lanes -/

theorem getD_replicate {n k : Nat} (v : Nat) (hk : k < n) : ((List.replicate n v)[k]?).getD 0 = v := by
  rw [List.getElem?_replicate, if_pos hk, Option.getD_some]

/-- Every lane of a fold is the fold. -/
theorem getD_foldAll (g : Nat → Nat → Nat) {l : List Nat} {k : Nat} (hk : k < l.length) :
    ((foldAll g l)[k]?).getD 0 = l.tail.foldl g (l.headD 0) := by
  cases l with
  | nil => exact absurd hk (Nat.not_lt_zero k)
  | cons x r => exact getD_replicate _ hk

theorem headD_foldAll (g : Nat → Nat → Nat) {l : List Nat} {k : Nat} (hk : k < l.length) :
    (foldAll g l).headD 0 = l.tail.foldl g (l.headD 0) := by
  cases l with
  | nil => exact absurd hk (Nat.not_lt_zero k)
  | cons x r => rfl

/-- A fold of values below a bound stays below it when each step does. -/
theorem foldl_lt {g : Nat → Nat → Nat} {m : Nat} {l : List Nat} (hl : ∀ y ∈ l, y < m)
    (hg : ∀ x y, x < m → y < m → g x y < m) {x : Nat} (hx : x < m) : l.foldl g x < m := by
  induction l generalizing x with
  | nil => exact hx
  | cons y r ih =>
    obtain ⟨hy, hr⟩ := List.forall_mem_cons.mp hl
    exact ih hr (hg x y hx hy)

theorem fold_tail_lt {g : Nat → Nat → Nat} {m : Nat} {l : List Nat} (hl : ∀ y ∈ l, y < m)
    (hg : ∀ x y, x < m → y < m → g x y < m) (hm : 0 < m) : l.tail.foldl g (l.headD 0) < m := by
  cases l with
  | nil => exact hm
  | cons x r =>
    obtain ⟨hx, hr⟩ := List.forall_mem_cons.mp hl
    exact foldl_lt hr hg hx

theorem headD_map_range {n k : Nat} (g : Nat → Nat) (hk : k < n) : ((List.range n).map g).headD 0 = g 0 := by
  cases n with
  | zero => exact absurd hk (Nat.not_lt_zero k)
  | succ n => rw [List.range_succ_eq_map]; rfl

theorem getElem?_prefixes_range {n k : Nat} (g : Nat → Nat) (hk : k < n) :
    (prefixes ((List.range n).map g))[k]? = some ((List.range (k + 1)).map g) := by
  rw [prefixes, List.length_map, List.length_range, List.getElem?_map, List.getElem?_range hk, Option.map_some,
    ← List.map_take, List.take_range, Nat.min_eq_left hk]

theorem mem_map_range_lt {a : Opnd} {n y : Nat} (hy : y ∈ (List.range n).map a.lane) : y < 2 ^ 32 := by
  obtain ⟨k, -, rfl⟩ := List.mem_map.mp hy
  rw [a.lane_eq_word]
  exact BitVec.isLt _

theorem fpick32_lt (ftz : Bool) (g : Val → Val → Val) (x y : Nat) : fpick32 ftz g x y < 2 ^ 32 :=
  floatResult_lt (f := .fp32) rfl ftz _

/-- A lane opcode of A alone that goes through gives the lanes of its list function. -/
theorem State.gives_of_laneOp {s : State} {i : Instr} {o : ElemOps} {fs : List Fmt} {rfmt : Opnd → Fmt}
    {g : Fire → List Nat → List Nat} {f : Fire} {h : Handle} {nest : BitVec 48} {a : Opnd} {w : Nat} {lane : Nat → Nat}
    (hx : exec i s = s.laneOp o fs rfmt g) (hw : fmtWidth (rfmt a) = w) (ea : a = f.read (srcOf o.sa) o.lx.toNat (f.want fs [srcOf o.sa]))
    (hf : s.Fires f [a] h) (hs : stdCheck (colourOf [a]) [(a, fs)] = none)
    (hn : tagAction f o.ta.toNat (a.lane 0) 0 = some nest)
    (hl : ∀ k, k < colourOf [a] → ((g f ((List.range (colourOf [a])).map a.lane))[k]?).getD 0 = lane k)
    (hlt : ∀ k, k < colourOf [a] → lane k < 2 ^ w) :
    s.Gives i o f nest h (Shape.data (rfmt a) (colourOf [a])) w (colourOf [a]) lane := by
  subst hw
  refine State.gives_of_lanewise1 (res := fun f _ => g f) hx ea hf hs hn fun k hk => ?_
  rw [hl k hk, Nat.mod_eq_of_lt (hlt k hk)]

/-- A lane opcode of A and B that goes through gives the lanes of its list function. -/
theorem State.gives_of_laneOp2 {s : State} {i : Instr} {o : ElemOps} {g : List Nat → List Nat → List Nat} {f : Fire}
    {h : Handle} {nest : BitVec 48} {a b : Opnd} {lane : Nat → Nat} (hx : exec i s = s.laneOp2 o g)
    (ea : a = f.read (srcOf o.sa) o.lx.toNat (f.want allFmts [srcOf o.sa, srcOf o.sb]))
    (eb : b = f.read (srcOf o.sb) o.lx.toNat (f.want allFmts [srcOf o.sa, srcOf o.sb]))
    (hf : s.Fires f [a, b] h) (hs : stdCheck (colourOf [a, b]) [(a, allFmts), (b, allFmts)] = none)
    (hn : tagAction f o.ta.toNat (a.lane 0) 0 = some nest)
    (hl : ∀ k, k < colourOf [a, b] → ((g ((List.range (colourOf [a, b])).map a.lane)
      ((List.range (colourOf [a, b])).map b.lane))[k]?).getD 0 = lane k)
    (hlt : ∀ k, k < colourOf [a, b] → lane k < 2 ^ fmtWidth a.fmt) :
    s.Gives i o f nest h (Shape.data a.fmt (colourOf [a, b])) (fmtWidth a.fmt) (colourOf [a, b]) lane :=
  State.gives_of_lanewise2 (rfmt := fmtLikeA) (res := fun _ _ => g) hx ea eb hf hs hn fun k hk => by
    rw [hl k hk]
    exact Nat.mod_eq_of_lt (hlt k hk)

/-- Every lane of an integer reduction is below 2^32 (R247). -/
theorem getD_foldAll_lanes {g : Nat → Nat → Nat} (hg : ∀ x y, g x y = x ∨ g x y = y) {a : Opnd} {n k : Nat} (hk : k < n) :
    ((foldAll g ((List.range n).map a.lane))[k]?).getD 0 = ((List.range n).map a.lane).tail.foldl g (a.lane 0) ∧
      ((List.range n).map a.lane).tail.foldl g (a.lane 0) < 2 ^ 32 := by
  have hlen : ((List.range n).map a.lane).length = n := by rw [List.length_map, List.length_range]
  rw [getD_foldAll g (show k < ((List.range n).map a.lane).length by rwa [hlen]), ← headD_map_range a.lane hk]
  exact ⟨rfl, fold_tail_lt (fun _ => mem_map_range_lt)
    (fun x y hx hy => (hg x y).elim (fun e => e.symm ▸ hx) fun e => e.symm ▸ hy) (by decide)⟩

theorem smax32_eq_or (x y : Nat) : smax32 x y = x ∨ smax32 x y = y := by
  unfold smax32
  split <;> simp

theorem smin32_eq_or (x y : Nat) : smin32 x y = x ∨ smin32 x y = y := by
  unfold smin32
  split <;> simp

/-- Every lane of a float reduction is its fold, below 2^32 (R247). -/
theorem getD_ffold32_lanes (z : Bool) (g : Val → Val → Val) {a : Opnd} {n k : Nat} (hk : k < n) :
    ((ffold32 z g ((List.range n).map a.lane))[k]?).getD 0 = (ffold32 z g ((List.range n).map a.lane)).headD 0 ∧
      (ffold32 z g ((List.range n).map a.lane)).headD 0 < 2 ^ 32 := by
  have hlen : k < (((List.range n).map a.lane).map fun x => fpick32 z g x x).length := by
    rwa [List.length_map, List.length_map, List.length_range]
  rw [ffold32, getD_foldAll _ hlen, headD_foldAll _ hlen]
  exact ⟨rfl, fold_tail_lt (List.forall_mem_map.mpr fun x _ => fpick32_lt z g x x) (fun x y _ _ => fpick32_lt z g x y)
    (by decide)⟩

/-- A lane opcode of A alone on one format of 32-bit lanes that goes through gives the lanes of its list function. -/
theorem State.gives_of_laneOp32 {s : State} {i : Instr} {o : ElemOps} {fm : Fmt} {g : Fire → List Nat → List Nat} {f : Fire}
    {h : Handle} {nest : BitVec 48} {a : Opnd} {lane : Nat → Nat} (hfm : fmtWidth fm = 32)
    (ea : a = f.read (srcOf o.sa) o.lx.toNat fm) (hf : s.Fires f [a] h) (hs : stdCheck (colourOf [a]) [(a, [fm])] = none)
    (hn : tagAction f o.ta.toNat (a.lane 0) 0 = some nest) (hx : exec i s = s.laneOp o [fm] (fun _ => fm) g)
    (hl : ∀ k, k < colourOf [a] → ((g f ((List.range (colourOf [a])).map a.lane))[k]?).getD 0 = lane k ∧ lane k < 2 ^ 32) :
    s.Gives i o f nest h (Shape.data fm (colourOf [a])) 32 (colourOf [a]) lane :=
  State.gives_of_laneOp (fs := [fm]) (rfmt := fun _ => fm) hx hfm ea hf hs hn (fun k hk => (hl k hk).1) fun k hk => (hl k hk).2

section
variable {o : ElemOps} {s : State} {f : Fire} {h : Handle} {nest : BitVec 48} {a : Opnd}

/-- The integer reductions and scan that go through (R247). -/
theorem State.gives_integer_reductions (ea : a = f.read (srcOf o.sa) o.lx.toNat .i32) (hf : s.Fires f [a] h)
    (hs : stdCheck (colourOf [a]) [(a, [.i32])] = none) (hn : tagAction f o.ta.toNat (a.lane 0) 0 = some nest) :
    s.Gives (.redaddI32 o) o f nest h (Shape.data .i32 (colourOf [a])) 32 (colourOf [a])
      (fun _ => ((List.range (colourOf [a])).map a.lane).sum % 2 ^ 32) ∧
    s.Gives (.lscanI32 o) o f nest h (Shape.data .i32 (colourOf [a])) 32 (colourOf [a])
      (fun k => ((List.range (k + 1)).map a.lane).sum % 2 ^ 32) ∧
    s.Gives (.redmaxI32 o) o f nest h (Shape.data .i32 (colourOf [a])) 32 (colourOf [a])
      (fun _ => ((List.range (colourOf [a])).map a.lane).tail.foldl smax32 (a.lane 0)) ∧
    s.Gives (.redminI32 o) o f nest h (Shape.data .i32 (colourOf [a])) 32 (colourOf [a])
      (fun _ => ((List.range (colourOf [a])).map a.lane).tail.foldl smin32 (a.lane 0)) := by
  have hadd : exec (.redaddI32 o) s = s.laneOp o [.i32] (fun _ => .i32)
    fun _ a => List.replicate a.length (a.sum % 2 ^ 32) := rfl
  have hscan : exec (.lscanI32 o) s = s.laneOp o [.i32] (fun _ => .i32)
    fun _ a => (prefixes a).map fun p => p.sum % 2 ^ 32 := rfl
  have hmax : exec (.redmaxI32 o) s = s.laneOp o [.i32] (fun _ => .i32) fun _ a => foldAll smax32 a := rfl
  have hmin : exec (.redminI32 o) s = s.laneOp o [.i32] (fun _ => .i32) fun _ a => foldAll smin32 a := rfl
  refine ⟨State.gives_of_laneOp32 rfl ea hf hs hn hadd fun k hk => ⟨?_, Nat.mod_lt _ (by decide)⟩,
    State.gives_of_laneOp32 rfl ea hf hs hn hscan fun k hk => ⟨?_, Nat.mod_lt _ (by decide)⟩,
    State.gives_of_laneOp32 rfl ea hf hs hn hmax fun k hk => getD_foldAll_lanes smax32_eq_or hk,
    State.gives_of_laneOp32 rfl ea hf hs hn hmin fun k hk => getD_foldAll_lanes smin32_eq_or hk⟩
  · rw [List.length_map, List.length_range, getD_replicate _ hk]
  · rw [List.getElem?_map, getElem?_prefixes_range _ hk, Option.map_some, Option.getD_some]

theorem fsum32_lt (ftz : Bool) (l : List Nat) : fsum32 ftz l < 2 ^ 32 := floatResult_lt (f := .fp32) rfl ftz _

/-- The float reductions and scan that go through (R247). -/
theorem State.gives_float_reductions (ea : a = f.read (srcOf o.sa) o.lx.toNat .fp32) (hf : s.Fires f [a] h)
    (hs : stdCheck (colourOf [a]) [(a, [.fp32])] = none) (hn : tagAction f o.ta.toNat (a.lane 0) 0 = some nest) :
    s.Gives (.redaddF32 o) o f nest h (Shape.data .fp32 (colourOf [a])) 32 (colourOf [a])
      (fun _ => fsum32 f.slot.ftz ((List.range (colourOf [a])).map a.lane)) ∧
    s.Gives (.lscanF32 o) o f nest h (Shape.data .fp32 (colourOf [a])) 32 (colourOf [a])
      (fun k => fsum32 f.slot.ftz ((List.range (k + 1)).map a.lane)) ∧
    s.Gives (.redmaxF32 o) o f nest h (Shape.data .fp32 (colourOf [a])) 32 (colourOf [a])
      (fun _ => (ffold32 f.slot.ftz vmax ((List.range (colourOf [a])).map a.lane)).headD 0) ∧
    s.Gives (.redminF32 o) o f nest h (Shape.data .fp32 (colourOf [a])) 32 (colourOf [a])
      (fun _ => (ffold32 f.slot.ftz vmin ((List.range (colourOf [a])).map a.lane)).headD 0) := by
  have hadd : exec (.redaddF32 o) s = s.laneOp o [.fp32] (fun _ => .fp32)
    fun f a => List.replicate a.length (fsum32 f.slot.ftz a) := rfl
  have hscan : exec (.lscanF32 o) s = s.laneOp o [.fp32] (fun _ => .fp32)
    fun f a => (prefixes a).map (fsum32 f.slot.ftz) := rfl
  have hmax : exec (.redmaxF32 o) s = s.laneOp o [.fp32] (fun _ => .fp32) fun f a => ffold32 f.slot.ftz vmax a := rfl
  have hmin : exec (.redminF32 o) s = s.laneOp o [.fp32] (fun _ => .fp32) fun f a => ffold32 f.slot.ftz vmin a := rfl
  refine ⟨State.gives_of_laneOp32 rfl ea hf hs hn hadd fun k hk => ⟨?_, fsum32_lt _ _⟩,
    State.gives_of_laneOp32 rfl ea hf hs hn hscan fun k hk => ⟨?_, fsum32_lt _ _⟩,
    State.gives_of_laneOp32 rfl ea hf hs hn hmax fun k hk => getD_ffold32_lanes _ vmax hk,
    State.gives_of_laneOp32 rfl ea hf hs hn hmin fun k hk => getD_ffold32_lanes _ vmin hk⟩
  · rw [List.length_map, List.length_range, getD_replicate _ hk]
  · rw [List.getElem?_map, getElem?_prefixes_range _ hk, Option.map_some, Option.getD_some]

end

/-- Settles O4: each list function of the lanes, element by element. -/
theorem laneOpcodeResults : Obligations.LaneOpcodeResults := by
  unfold Obligations.LaneOpcodeResults
  refine ⟨?_, ?_, ?_, ?_⟩
  · intro o s f h nest a n hf hs hn
    have hn32 : n ≤ 32 := f.colour_le_one rfl
    constructor
    · refine State.gives_of_laneOp (rfmt := fmtI32) (g := fun _ a => List.range a.length) rfl rfl rfl hf hs hn
        (fun k hk => ?_) fun k hk => ?_
      · rw [List.length_map, List.length_range, List.getElem?_range hk, Option.getD_some]
      · exact Nat.lt_of_lt_of_le hk (Nat.le_trans hn32 (by decide))
    · refine State.gives_of_laneOp (rfmt := fmtLikeA) (g := fun _ a => a.map fun _ => (a[0]?).getD 0) rfl rfl rfl hf hs hn
        (fun k hk => ?_) fun k hk => a.lane_lt 0
      rw [List.map_map, getD_map_range _ hk, Function.comp_apply, getD_map_range _ (Nat.zero_lt_of_lt hk)]
  · intro o s f h nest want a b n hf hs hn
    constructor
    · refine State.gives_of_laneOp2 (g := fun a b => b.map fun i => (a[i]?).getD 0) rfl rfl rfl hf hs hn
        (fun k hk => ?_) fun k hk => ?_
      · rw [List.map_map, getD_map_range _ hk, Function.comp_apply]
        split
        next hb => rw [getD_map_range _ hb]
        next hb => rw [List.getElem?_eq_none (by rw [List.length_map, List.length_range]; omega), Option.getD_none]
      · split
        · exact a.lane_lt _
        · exact Nat.two_pow_pos _
    · refine State.gives_of_laneOp2 (g := fun a b => (List.range a.length).map fun i =>
        (a[(i + (b[0]?).getD 0 % a.length) % a.length]?).getD 0) rfl rfl rfl hf hs hn (fun k hk => ?_) fun k hk =>
        a.lane_lt _
      have hpos := Nat.zero_lt_of_lt hk
      rw [List.length_map, List.length_range, getD_map_range _ hk, getD_map_range b.lane hpos,
        getD_map_range a.lane (Nat.mod_lt _ hpos)]
  · intro o s f h nest a n upTo hf _ hs hn
    exact State.gives_integer_reductions rfl hf hs hn
  · intro o s f h nest a n z hf _ hs hn
    exact State.gives_float_reductions rfl hf hs hn

/-! ### Conversion and scale opcodes (R243 to R246) -/

theorem wrapTo_lt (w : Nat) (i : Int) : wrapTo w i < 2 ^ w := by
  have hpos := Nat.two_pow_pos w
  have := Int.emod_lt_of_pos i (show (0 : Int) < (2 ^ w : Nat) by exact_mod_cast hpos)
  unfold wrapTo
  omega

theorem fmtOf_fmtCode_width (f : Fmt) : fmtWidth f ≤ 32 ∧ (fmtIsFloat f = true → signBits f true + maxBits f < 2 ^ fmtWidth f) := by
  cases f <;> decide

/-- A converted lane fits the lane of its format (R185, R186). -/
theorem cvtLane_lt {src dst : Fmt} (rm : RMode) (rw : Nat) (sat : Bool) {b : Nat} (hallow : cvtAllowed src dst = true)
    (hb : b < 2 ^ fmtWidth src) : cvtLane src dst rm rw sat b < 2 ^ fmtWidth dst := by
  unfold cvtLane
  split
  case isTrue hbits =>
    have hw : fmtWidth dst = 32 := by
      revert hallow hbits
      cases src <;> cases dst <;> decide
    rw [hw]
    exact Nat.mod_lt _ (by decide)
  case isFalse hbits =>
    split
    case isTrue hfloat =>
      split
      case isTrue heq =>
        subst heq
        split
        · revert hfloat; cases src <;> decide
        · split
          · generalize ‹Bool› = z
            revert hfloat z
            cases src <;> decide
          · exact hb
        · exact hb
      case isFalse => exact roundTo_lt hfloat _ _ _ _
    case isFalse => exact wrapTo_lt _ _

/-- A scaling opcode that goes through gives the scaled lanes (R244, R245). -/
theorem State.gives_of_scaleOp {s : State} {i : Instr} {o : ElemOps} {fs : List Fmt} {dst : Nat → Fmt} {rm : Nat → RMode}
    {sat div : Nat → Bool} {f : Fire} {h : Handle} {nest : BitVec 48} {a b : Opnd}
    (hx : exec i s = s.scaleOp o fs dst rm sat div)
    (ea : a = f.read (srcOf o.sa) (o.lx.toNat + 1) (f.want fs [srcOf o.sa]))
    (eb : b = f.read (srcOf o.sb) (o.lx.toNat + 1) .i32) (hf : s.Fires f [a, b] h)
    (hs : stdCheck (colourOf [a, b]) [(a, fs)] = none) (hb : b.accepts [.i32, .bits] = true)
    (hd : fmtIsFloat (dst (f.cw o)) = true) (hn : tagAction f o.ta.toNat (a.lane 0) 0 = some nest) :
    s.Gives i o f nest h (Shape.data (dst (f.cw o)) (colourOf [a, b])) (fmtWidth (dst (f.cw o))) (colourOf [a, b]) fun k =>
      scaleLane a.fmt (dst (f.cw o)) (rm (f.cw o)) (sat (f.cw o)) (sext 8 (b.lane 0)) (div (f.cw o)) (a.lane k) := by
  refine State.gives_of_packed (l := (List.range (colourOf [a, b])).map fun i => scaleLane a.fmt (dst (f.cw o)) (rm (f.cw o))
    (sat (f.cw o)) (sext 8 (b.lane 0)) (div (f.cw o)) (a.lane i)) ?_ (fmtWidth_le _) (f.colour_le_two ea eb) fun k hk => ?_
  · subst ea eb
    rw [hx]
    unfold State.scaleOp
    rw [hf.1]
    simp only [dataLit, if_true, hs, hb]
    rw [State.runFire_results _ hf hn]
    rfl
  · rw [getD_map_range _ hk]
    refine Nat.mod_eq_of_lt ?_
    unfold scaleLane
    split
    · exact Nat.two_pow_pos _
    · exact roundTo_lt hd _ _ _ _

/-- Settles O5: a converted or scaled lane fits its format, so each lane is the value of R243 to R246. -/
theorem conversionResults : Obligations.ConversionResults := by
  unfold Obligations.ConversionResults
  refine ⟨?_, ?_, ?_, ?_⟩
  · intro o s f h nest cw src dst rm a b n hallow hf hfmt hs hn
    refine State.gives_of_packed (l := (List.range n).map fun i => cvtLane src dst rm (b.lane i) (bitF cw 22 22 == 1) (a.lane i))
      ?_ (fmtWidth_le _) (f.colour_le_two rfl rfl) fun k hk => ?_
    · show execCvt o s = _
      unfold execCvt
      rw [hf.1]
      exact congrArg _ ((congrArg (fun ck => s.runFire f o [a, b] .all (.data dst n) (.data dst n) (a.lane 0) 0 ck _)
        hs).trans (State.runFire_results _ hf hn))
    · rw [getD_map_range _ hk]
      refine Nat.mod_eq_of_lt (cvtLane_lt _ _ _ hallow ?_)
      rcases hfmt with hord | hmem
      · rw [Opnd.lane, hord]; exact Nat.two_pow_pos _
      · rw [← List.mem_singleton.mp hmem]; exact a.lane_lt k
  · intro o s f h nest cw dst a b n e hf _ hs hb hd hn
    exact State.gives_of_scaleOp (dst := fun cw => fmtOf (bitF cw 31 29)) (rm := fun _ => .rne)
      (sat := fun cw => bitF cw 28 28 == 1) (div := fun _ => false) rfl rfl rfl hf hs hb hd hn
  · intro o s f h nest cw dst a b n sh e hf _ hs hb hd hn
    have hgives := State.gives_of_scaleOp (i := .bscale o) (dst := fun cw => fmtOf (bitF cw 30 28)) (rm := fun cw => rmodeOf (bitF cw 27 25))
      (sat := fun cw => bitF cw 24 24 == 1) (div := fun cw => bitF cw 31 31 == 1) rfl rfl rfl hf hs hb hd hn
    simpa only [scaleLane, beq_iff_eq] using hgives
  · intro o s f h nest a n hf _ hs hn
    simp only [wrapTo_eq]
    exact State.gives_bmax rfl hf hs hn

end Sys2Proof.Machine

/-! SUPPORT. The results of the steering, activation, tag-field, ordering and switch opcodes (R228 to R238, R263, R264, R269), and
poison operands (R225, R375). -/

namespace Sys2Proof.Machine

/-! ### Firings that pass a token on -/

theorem find_poison_none {f : Fire} {ops : List Opnd} (h : ∀ x ∈ f.consumed ops, x.poison = false) :
    (f.consumed ops).find? (·.poison) = none := by
  rw [List.find?_eq_none]
  intro x hx
  simp [h x hx]

/-- The results of a firing that passes a handle on (R81). -/
theorem State.runFire_pass {s : State} {f : Fire} {o : ElemOps} {ops : List Opnd} {p : Handle} {sh shY : Shape} {a0 : Nat}
    {nest : BitVec 48} (l : List (Nat × Shape × BitVec 1024)) (hp : ∀ x ∈ f.consumed ops, x.poison = false)
    (hn : tagAction f o.ta.toNat a0 0 = some nest) :
    s.runFire f o ops (.pass p) sh shY a0 0 none (.toks l) = s.results f nest p l :=
  State.runFire_ok l (find_poison_none hp) rfl hn

theorem State.passOn_next {s : State} {o : ElemOps} {f : Fire} {nest : BitVec 48} (hf : s.fire = some f)
    (hp : ∀ x ∈ f.consumed [f.readA o false], x.poison = false)
    (hn : tagAction f o.ta.toNat ((f.readA o false).lane 0) 0 = some nest) :
    s.passOn o = .next (s.results f nest (f.readA o false).plate
      (bothOut o (Shape.like (f.readA o false) (colourOf [f.readA o false])) (f.readA o false).pay)) := by
  unfold State.passOn
  simp only [hf]
  rw [State.runFire_pass _ hp hn]
  rfl

theorem State.steering_next {s : State} {o : ElemOps} {shY : Opnd → Opnd → Shape}
    {out : Opnd → Opnd → Shape → List (Nat × Shape × BitVec 1024)} {f : Fire} {h : Handle} {nest : BitVec 48} {a p : Opnd}
    (ea : a = f.readA o false) (ep : p = f.read .slotR 0 .bits) (hf : s.Fires f [a, p] h)
    (hs : stdCheck (colourOf [a, p]) [(a, allFmts)] = none) (hn : tagAction f o.ta.toNat (a.lane 0) 0 = some nest) :
    s.steering o shY out = .next (s.results f nest h (out a p (Shape.like a (colourOf [a, p])))) := by
  subst ea ep
  unfold State.steering
  simp only [hf.1, hs]
  rw [State.runFire_results _ hf hn]

/-- Settles O7: each opcode's firing goes through, and its results are the tokens of R228. -/
theorem steeringAndPassingResults : Obligations.SteeringAndPassingResults := by
  unfold Obligations.SteeringAndPassingResults
  refine ⟨?_, ?_, ?_, ?_, ?_, ?_⟩
  · intro o s f h nest a p n hf hs hn
    have hsteer : exec (.steer o) s = s.steering o (fun a p => Shape.like a (colourOf [a, p]))
      fun a p sh => if p.bit 0 then [(o.dx.toNat, sh, a.pay)] else [(o.dy.toNat, sh, a.pay)] := rfl
    have hmerge : exec (.merge o) s = s.steering o (fun a p => Shape.like a (colourOf [a, p]))
      fun a _ sh => [(o.dx.toNat, sh, a.pay), (o.dy.toNat, sh, a.pay)] := rfl
    have hcmerge : exec (.cmerge o) s = s.steering o (fun _ p => { Shape.pred (p.lanes.getD 1) with ord := p.ord })
      fun a p sh => [(o.dx.toNat, sh, a.pay), (o.dy.toNat, { Shape.pred (p.lanes.getD 1) with ord := p.ord }, p.pay)] := rfl
    refine ⟨?_, hmerge.trans (State.steering_next rfl rfl hf hs hn), hcmerge.trans (State.steering_next rfl rfl hf hs hn)⟩
    refine (hsteer.trans (State.steering_next rfl rfl hf hs hn)).trans (congrArg (fun l => Host.Outcome.next (s.results f nest h l)) ?_)
    cases p.bit 0 <;> rfl
  · intro o s f h nest a p n hf hs hn
    refine State.gives_of_packed (l := (List.range n).map fun i => if p.bit i then a.lane i else 0) ?_ (fmtWidth_le _)
      (f.colour_le_two rfl rfl) fun k hk => ?_
    · show execGate o s = _
      unfold execGate
      rw [hf.1]
      exact congrArg _ ((congrArg (fun ck => s.runFire f o [a, p] .all (.data a.fmt n) (.data a.fmt n) (a.lane 0) 0 ck _)
        hs).trans (State.runFire_results _ hf hn))
    · rw [getD_map_range _ hk]
      split
      · exact Nat.mod_eq_of_lt (a.lane_lt k)
      · exact Nat.zero_mod _
  · intro o s f nest a hf hp hn
    have hcopy : exec (.copy o) s = s.passOn o := rfl
    have hpass : exec (.pass o) s = s.passOn o := rfl
    exact ⟨hcopy.trans (State.passOn_next hf hp hn), hpass.trans (State.passOn_next hf hp hn)⟩
  · intro o s f hf hp
    show execSink o s = _
    unfold execSink
    simp only [hf, hp, Bool.false_eq_true, if_false]
  · intro o s f h nest a b n hf hs hn
    refine State.gives_of_packed (l := (List.range n).map b.lane) ?_ (fmtWidth_le _) (f.colour_le_two rfl rfl)
      fun k hk => by rw [getD_map_range _ hk]
    show execConst o s = _
    unfold execConst
    rw [hf.1]
    exact congrArg _ ((congrArg (fun ck => s.runFire f o [a, b] .all (.data a.fmt n) (.data a.fmt n) (a.lane 0) 0 ck _)
      hs).trans (State.runFire_results _ hf hn))
  · intro o s f h nest want a b n hf hs hn
    show execJoin o s = _
    unfold execJoin
    rw [hf.1]
    exact congrArg _ ((congrArg (fun ck => s.runFire f o [a, b] .all (.like a n) (.like a n) (a.lane 0) 0 ck _)
      hs).trans (State.runFire_results _ hf hn))

/-! ### `alloc`, `free` and `reorder` -/

/-- An `alloc` whose operand fits the granted lanes fires (R230). -/
theorem State.allocFire_eq {s : State} {f : Fire} {o : ElemOps} {act : Nat} {h : Handle} {nest : BitVec 48} {a : Opnd}
    (ea : a = f.read (srcOf o.sa) 0 .bits) (hcon : ∀ x ∈ f.consumed [a], x.poison = false)
    (hu : s.unionAll 0 ((f.consumed [a]).map (·.plate)) = .ok h) (hfits : colourOf [a] ≤ (actAt f.acts act).lanes)
    (hp : a.poison = false) (hn : tagAction f o.ta.toNat 0 (actAt f.acts act).width = some nest) :
    s.allocFire f o act = (s.results f nest h (bothOut o (Shape.data a.fmt (actAt f.acts act).lanes)
      (packLanes (fmtWidth a.fmt) ((List.range (actAt f.acts act).lanes).map fun i =>
        if i < colourOf [a] then a.lane i else 0)))).modElem f.pos fun e =>
          e.modSlot f.slotIx fun sl => sl.liveSet act (tabNum f.slot.live act + 1) := by
  subst ea
  have hover : ¬ colourOf [f.read (srcOf o.sa) 0 .bits] > (actAt f.acts act).lanes := Nat.not_lt.mpr hfits
  unfold State.allocFire
  simp only [hp, hover, Bool.false_eq_true, or_self, if_false]
  rw [State.runFire_ok (hr := .all) _ (find_poison_none hcon) hu hn]
  rfl

/-- Settles O8: the live bound admits the `alloc`, and a `reorder` compares f0 with the expected value. -/
theorem activationOpcodeResults : Obligations.ActivationOpcodeResults := by
  unfold Obligations.ActivationOpcodeResults
  refine ⟨?_, ?_, ?_⟩
  · intro o s f h nest act ac a hf hexh hfits hlanes hp hlive hn
    refine ⟨packLanes (fmtWidth a.fmt) ((List.range ac.lanes).map fun i => if i < colourOf [a] then a.lane i else 0), ?_,
      fun k hk => ?_⟩
    · show execAlloc o s = _
      unfold execAlloc
      rw [hf.1]
      dsimp only
      rw [if_neg hexh, if_pos (.inr (.inr hlive)), State.allocFire_eq rfl hf.2.1 hf.2.2 hfits hp hn]
    · rw [laneAt_packLanes _ (Nat.le_trans (Nat.mul_le_mul (fmtWidth_le _) (show k + 1 ≤ 32 by omega)) (by decide)),
        getD_map_range _ hk]
      split
      · exact Nat.mod_eq_of_lt (a.lane_lt k)
      · exact Nat.zero_mod _
  · intro o s f nest a hf hp hn
    show execFree o s = _
    unfold execFree
    rw [hf]
    simp only [State.passOn_next hf hp hn]
    rfl
  · intro o s f t a inst exp nxt hf ht hheld
    refine ⟨fun hne => ?_, ?_⟩
    · show execReorder o s = _
      unfold execReorder
      simp only [hf, ht, hheld, Option.isSome_none, Bool.false_eq_true, if_false]
      exact if_pos hne
    · intro nest heq hn s2 s3 hnext
      show execReorder o s = _
      unfold execReorder
      simp only [hf, ht, hheld, Option.isSome_none, Bool.false_eq_true, if_false]
      rw [if_neg (not_not_intro heq)]
      have hn' : tagAction f o.ta.toNat (if (Opnd.ofToken (srcOf o.sa) t).poison then 0
        else (Opnd.ofToken (srcOf o.sa) t).lane 0) 0 = some nest := hn
      simp only [hn']
      split
      next => rfl
      next held hsome => exact absurd (hnext.symm.trans hsome) nofun

/-! ### `pack`, `unpack`, `tagidx` and `chktag` -/

theorem Fire.lanes_getD_le (f : Fire) (src : OpSrc) (lx : Nat) (want : Fmt) {d : Nat} (hd : d ≤ 32) :
    (f.read src lx want).lanes.getD d ≤ 32 := by
  cases hl : (f.read src lx want).lanes with
  | none => exact hd
  | some n => exact f.read_narrow src lx want n hl

/-- A firing whose effect is a fresh fault sends its poison by both destinations (R225). -/
theorem State.runFire_fault {s : State} {f : Fire} {o : ElemOps} {ops : List Opnd} {sh : Shape} {a0 code detail : Nat}
    {h : Handle} {nest : BitVec 48} (hf : s.Fires f ops h) (hn : tagAction f o.ta.toNat a0 0 = some nest) :
    let bad := poisonToken f.ctx ((tagAction f o.ta.toNat 0 0).getD f.nest) sh h (s.nodeRec code f.ctx f.pos f.node detail)
    s.runFire f o ops .all sh sh a0 0 none (.fault code detail) =
      (s.issued f).emitAll f [(o.dx.toNat, bad), (o.dy.toNat, bad)] := by
  have hh : s.resultHandle f ops .all = .ok h := hf.2.2
  unfold State.runFire
  simp only [hf.find, hh, hn, List.map]

/-- Settles O9: the checks of R224 leave the lanes and tokens of R232 and R233. -/
theorem partsAndTagFieldResults : Obligations.PartsAndTagFieldResults := by
  unfold Obligations.PartsAndTagFieldResults
  refine ⟨?_, ?_, ?_, ?_⟩
  · intro o s f h nest gl k0 want a b c hf hlanes hfmt hn
    refine State.gives_of_packed
      (l := (List.range c).map fun k => if k0 ≤ k ∧ k < k0 + gl then b.lane (k - k0) else a.lane k) ?_ (fmtWidth_le _)
      (f.lanes_getD_le _ _ _ (f.colour_le_two rfl rfl)) fun k hk => by rw [getD_map_range _ hk]
    have hck : (if (!b.ord) = true ∧ b.lanes.getD gl ≠ gl then some 0x66
        else if (!a.ord) = true ∧ (!b.ord) = true ∧ a.fmt ≠ b.fmt then some 0x70 else none) = none := by
      rw [if_neg, if_neg]
      · rintro ⟨ha, hb, hne⟩
        rcases hfmt with h | h | h
        · simp [h] at ha
        · simp [h] at hb
        · exact hne h
      · rintro ⟨hb, hne⟩
        rcases hlanes with h | h
        · simp [h] at hb
        · exact hne h
    show execPack o s = _
    unfold execPack
    rw [hf.1]
    exact congrArg _ ((congrArg (fun ck => s.runFire f o [a, b] .all (.data a.fmt c) (.data a.fmt c) (a.lane 0) 0 ck _)
      hck).trans (State.runFire_results _ hf hn))
  · intro o s f h nest gl k0 a c hf hn hgl
    have hexec : exec (.unpack o) s = .next (s.results f nest h (if k0 < c then bothOut o (Shape.data a.fmt gl)
        (packLanes (fmtWidth a.fmt) ((List.range gl).map fun j => if k0 + j < c then a.lane (k0 + j) else 0)) else [])) := by
      show execUnpack o s = _
      unfold execUnpack
      rw [hf.1]
      exact congrArg _ (State.runFire_results _ hf hn)
    refine ⟨fun hk0 => ?_, fun hk0 => hexec.trans (by rw [if_neg hk0]; rfl)⟩
    rw [if_pos hk0] at hexec
    refine State.gives_of_packed hexec (fmtWidth_le _) hgl fun k hk => ?_
    rw [getD_map_range _ hk]
    split
    · exact Nat.mod_eq_of_lt (a.lane_lt _)
    · exact Nat.zero_mod _
  · intro o s f h nest a n hf hs hn
    refine State.gives_of_packed (l := List.replicate n (match bitF (f.cw o) 31 30 with
      | 0 => tagField f.acts f.act f.nest.toNat (bitF (f.cw o) 29 26)
      | 1 => (actAt f.acts (bitF (f.cw o) 25 20)).lanes
      | _ => 2 ^ (actAt f.acts (bitF (f.cw o) 25 20)).granted)) ?_ (Nat.le_refl 32) (f.colour_le_one rfl)
      fun k hk => congrArg (· % 2 ^ 32) (getD_replicate _ hk)
    show execTagidx o s = _
    unfold execTagidx
    rw [hf.1]
    exact congrArg _ ((congrArg (fun ck => s.runFire f o [a] .all (.data .i32 n) (.data .i32 n) (a.lane 0) 0 ck _)
      hs).trans (State.runFire_results _ hf hn))
  · intro o s f h nest useB a b n sh found want bad hf hs hn
    show execChktag o s = _
    unfold execChktag
    rw [hf.1]
    refine congrArg _ ((congrArg (fun ck => s.runFire f o [a, b] .all sh sh (a.lane 0) 0 ck
      (if found = want then .toks (bothOut o sh a.pay) else .fault 0x67 0)) hs).trans ?_)
    split
    · exact State.runFire_results _ hf hn
    · exact State.runFire_fault hf hn

/-! ### Poison operands (R225, R375) -/

/-- An opcode of A and B on `fs` that follows the common lane-wise course, with the result format of R240. -/
def LanewiseOfTwo (mk : ElemOps → Instr) (fs : List Fmt) : Prop :=
  ∃ rf res, (∀ o s, exec (mk o) s = State.lanewise s o fs true false false rf (fun _ _ => none) res) ∧
    ∀ a, rf a = resultFmt fs a

theorem lanewiseOfTwo_i32 {mk : ElemOps → Instr} {m : Nat → Nat → Nat}
    (hx : ∀ o s, exec (mk o) s = s.lanewise2 o [.i32] fmtI32 m) : LanewiseOfTwo mk [.i32] :=
  ⟨fmtI32, fun _ _ a b _ => List.zipWith m a b, hx, fmtI32_eq⟩

theorem lanewiseOfTwo_i32_bits {mk : ElemOps → Instr} {m : Nat → Nat → Nat}
    (hx : ∀ o s, exec (mk o) s = s.lanewise2 o [.i32, .bits] fmtLikeA m) : LanewiseOfTwo mk [.i32, .bits] :=
  ⟨fmtLikeA, fun _ _ a b _ => List.zipWith m a b, hx, fmtLikeA_eq⟩

theorem lanewiseOfTwo_float {mk : ElemOps → Instr} {fm : Fmt} {g : Val → Val → Val}
    (hx : ∀ o s, exec (mk o) s = s.float2 o fm g) : LanewiseOfTwo mk [fm] :=
  ⟨fun _ => fm, fun f _ a b _ => List.zipWith (fun x y => floatResult f.slot.ftz fm
    (g (readFloat f.slot.ftz fm x) (readFloat f.slot.ftz fm y))) a b, hx, fun _ => rfl⟩

theorem integerBinaryTable_lanewise : ∀ p ∈ integerBinaryTable, LanewiseOfTwo p.1 p.2.1 := by
  simp only [integerBinaryTable, List.forall_mem_cons]
  exact ⟨lanewiseOfTwo_i32_bits fun _ _ => rfl, lanewiseOfTwo_i32_bits fun _ _ => rfl, lanewiseOfTwo_i32 fun _ _ => rfl,
    lanewiseOfTwo_i32 fun _ _ => rfl, lanewiseOfTwo_i32 fun _ _ => rfl, lanewiseOfTwo_i32 fun _ _ => rfl,
    lanewiseOfTwo_i32 fun _ _ => rfl, lanewiseOfTwo_i32 fun _ _ => rfl, lanewiseOfTwo_i32 fun _ _ => rfl,
    lanewiseOfTwo_i32 fun _ _ => rfl, lanewiseOfTwo_i32 fun _ _ => rfl, lanewiseOfTwo_i32 fun _ _ => rfl,
    lanewiseOfTwo_i32 fun _ _ => rfl, lanewiseOfTwo_i32_bits fun _ _ => rfl, lanewiseOfTwo_i32_bits fun _ _ => rfl,
    lanewiseOfTwo_i32_bits fun _ _ => rfl, lanewiseOfTwo_i32_bits fun _ _ => rfl, lanewiseOfTwo_i32_bits fun _ _ => rfl,
    lanewiseOfTwo_i32_bits fun _ _ => rfl, lanewiseOfTwo_i32_bits fun _ _ => rfl, lanewiseOfTwo_i32_bits fun _ _ => rfl,
    fun _ hp => absurd hp List.not_mem_nil⟩

theorem floatBinaryTable_lanewise : ∀ p ∈ floatBinaryTable, LanewiseOfTwo p.1 [p.2.1] := by
  simp only [floatBinaryTable, List.forall_mem_cons]
  exact ⟨lanewiseOfTwo_float fun _ _ => rfl, lanewiseOfTwo_float fun _ _ => rfl, lanewiseOfTwo_float fun _ _ => rfl,
    lanewiseOfTwo_float fun _ _ => rfl, lanewiseOfTwo_float fun _ _ => rfl, lanewiseOfTwo_float fun _ _ => rfl,
    lanewiseOfTwo_float fun _ _ => rfl, lanewiseOfTwo_float fun _ _ => rfl, lanewiseOfTwo_float fun _ _ => rfl,
    lanewiseOfTwo_float fun _ _ => rfl, lanewiseOfTwo_float fun _ _ => rfl, lanewiseOfTwo_float fun _ _ => rfl,
    fun _ hp => absurd hp List.not_mem_nil⟩

theorem integerCompareTable_compare :
    ∀ p ∈ integerCompareTable, ∃ g, ∀ o s, exec (p.1 o) s = State.compare s o intFmts g := by
  simp only [integerCompareTable, List.forall_mem_cons]
  have int (k : ICmp) {mk : ElemOps → Instr} (hx : ∀ o s, exec (mk o) s = s.icompare o k) :
      ∃ g, ∀ o s, exec (mk o) s = State.compare s o intFmts g := ⟨_, hx⟩
  exact ⟨int .eq fun _ _ => rfl, int .ne fun _ _ => rfl, int .lt fun _ _ => rfl, int .ge fun _ _ => rfl,
    int .ltu fun _ _ => rfl, int .geu fun _ _ => rfl, int .le fun _ _ => rfl, int .gt fun _ _ => rfl,
    fun _ hp => absurd hp List.not_mem_nil⟩

theorem floatCompareTable_compare :
    ∀ p ∈ floatCompareTable, ∃ g, ∀ o s, exec (p.1 o) s = State.compare s o [p.2.1] g := by
  simp only [floatCompareTable, List.forall_mem_cons]
  have float (k : FCmp) {mk : ElemOps → Instr} {fm : Fmt} (hx : ∀ o s, exec (mk o) s = s.fcompare o fm k) :
      ∃ g, ∀ o s, exec (mk o) s = State.compare s o [fm] g := ⟨_, hx⟩
  exact ⟨float .eq fun _ _ => rfl, float .ne fun _ _ => rfl, float .lt fun _ _ => rfl, float .le fun _ _ => rfl,
    float .gt fun _ _ => rfl, float .ge fun _ _ => rfl, float .un fun _ _ => rfl, float .num fun _ _ => rfl,
    float .eq fun _ _ => rfl, float .ne fun _ _ => rfl, float .lt fun _ _ => rfl, float .le fun _ _ => rfl,
    float .gt fun _ _ => rfl, float .ge fun _ _ => rfl, float .un fun _ _ => rfl, float .num fun _ _ => rfl,
    fun _ hp => absurd hp List.not_mem_nil⟩

section
variable {s : State} {o : ElemOps} {fs : List Fmt} {f : Fire} {h : Handle} {x a b : Opnd}

/-- A lane-wise opcode of A and B that consumes poison sends it on. -/
theorem State.lanewise_poison {rf : Opnd → Fmt} {res : Fire → Opnd → List Nat → List Nat → List Nat → List Nat}
    (ea : a = f.read (srcOf o.sa) o.lx.toNat (f.want fs [srcOf o.sa, srcOf o.sb]))
    (eb : b = f.read (srcOf o.sb) o.lx.toNat (f.want fs [srcOf o.sa, srcOf o.sb])) (hf : s.fire = some f)
    (hx : (f.consumed [a, b]).find? (·.poison) = some x) (hh : s.unionAll 0 ((f.consumed [a, b]).map (·.plate)) = .ok h) :
    let t := poisonToken f.ctx ((tagAction f o.ta.toNat 0 0).getD f.nest) (Shape.data (rf a) (colourOf [a, b])) h x.record
    s.lanewise o fs true false false rf (fun _ _ => none) res =
      .next ((s.issued f).emitAll f [(o.dx.toNat, t), (o.dy.toNat, t)]) := by
  have hwant : f.want fs [srcOf o.sa, srcOf o.sb, .none] = f.want fs [srcOf o.sa, srcOf o.sb] :=
    f.want_append_none fs [srcOf o.sa, srcOf o.sb]
  have hcolour (w : Fmt) : colourOf [a, b, Opnd.const .none w 0] = colourOf [a, b] := colourOf_append_none [a, b] _ _
  have hcon (w : Fmt) : f.consumed [a, b, Opnd.const .none w 0] = f.consumed [a, b] :=
    f.consumed_append [a, b] _ (Opnd.const_none_src w 0)
  unfold State.lanewise
  simp only [hf, dataLit, Bool.false_eq_true, if_false, if_true, hwant, ← ea, ← eb, f.read_none, hcolour]
  rw [State.runFire_poison (by rw [hcon]; exact hx) (by rw [hcon]; exact hh)]

/-- A comparison that consumes poison sends it on. -/
theorem State.compare_poison {g : Bool → Nat → Nat → Bool}
    (ea : a = f.read (srcOf o.sa) o.lx.toNat (f.want fs [srcOf o.sa, srcOf o.sb]))
    (eb : b = f.read (srcOf o.sb) o.lx.toNat (f.want fs [srcOf o.sa, srcOf o.sb])) (hf : s.fire = some f)
    (hx : (f.consumed [a, b]).find? (·.poison) = some x) (hh : s.unionAll 0 ((f.consumed [a, b]).map (·.plate)) = .ok h) :
    let t := poisonToken f.ctx ((tagAction f o.ta.toNat 0 0).getD f.nest) (Shape.pred (colourOf [a, b])) h x.record
    s.compare o fs g = .next ((s.issued f).emitAll f [(o.dx.toNat, t), (o.dy.toNat, t)]) := by
  unfold State.compare
  simp only [hf, dataLit, Bool.false_eq_true, if_false, ← ea, ← eb]
  rw [State.runFire_poison hx hh]

end

/-- Settles O10: both courses hand a poison operand's record on before any check or effect. -/
theorem poisonOperandsGivePoison : Obligations.PoisonOperandsGivePoison := by
  unfold Obligations.PoisonOperandsGivePoison
  simp only [List.forall_mem_append, List.forall_mem_map, Bool.false_eq_true, if_false, if_true]
  refine ⟨⟨⟨?_, ?_⟩, ?_⟩, ?_⟩
  · intro p hp o s f h x hf hx hh
    obtain ⟨rf, res, hexec, hrf⟩ := integerBinaryTable_lanewise p hp
    rw [hexec, ← hrf]
    exact State.lanewise_poison rfl rfl hf hx hh
  · intro p hp o s f h x hf hx hh
    obtain ⟨rf, res, hexec, hrf⟩ := floatBinaryTable_lanewise p hp
    rw [hexec, ← hrf]
    exact State.lanewise_poison rfl rfl hf hx hh
  · intro p hp o s f h x hf hx hh
    obtain ⟨g, hexec⟩ := integerCompareTable_compare p hp
    rw [hexec]
    exact State.compare_poison rfl rfl hf hx hh
  · intro p hp o s f h x hf hx hh
    obtain ⟨g, hexec⟩ := floatCompareTable_compare p hp
    rw [hexec]
    exact State.compare_poison rfl rfl hf hx hh

/-! ### Ordering tokens and switch tokens (R235, R237, R263, R264, R269) -/

/-- A node that emits an ordering token gives it handle 0. -/
theorem State.emitOrder_eq {s : State} {o : ElemOps} {f : Fire} {a : Opnd} {l : List Opnd} {nest : BitVec 48}
    (hp : ∀ x ∈ f.consumed (a :: l), x.poison = false) (hn : tagAction f o.ta.toNat (a.lane 0) 0 = some nest) :
    s.emitOrder o f (a :: l) = s.results f nest 0 (bothOut o Shape.ordering 0) :=
  State.runFire_pass _ hp hn

theorem State.fenceSc_next {s : State} {o : ElemOps} {f : Fire} {nest : BitVec 48} (hf : s.fire = some f)
    (hp : ∀ x ∈ f.consumed [f.readA o false], x.poison = false)
    (hn : tagAction f o.ta.toNat ((f.readA o false).lane 0) 0 = some nest) :
    s.fenceSc o = .next (s.results f nest 0 (bothOut o Shape.ordering 0)) := by
  unfold State.fenceSc
  simp only [hf]
  rw [State.emitOrder_eq hp hn]

/-- Settles O15: each node's firing goes through with the ordering token, or the source `cfgsw` with its switch tokens. -/
theorem orderingAndSwitchOpcodeResults : Obligations.OrderingAndSwitchOpcodeResults := by
  unfold Obligations.OrderingAndSwitchOpcodeResults
  refine ⟨?_, ?_, ?_, ?_⟩
  · have fence {mk : ElemOps → Instr} (hx : ∀ o s, exec (mk o) s = State.fenceSc s o) (o : ElemOps) (s : State) (f : Fire)
        (nest : BitVec 48) :
        let a := f.readA o false
        s.fire = some f → (∀ x ∈ f.consumed [a], x.poison = false) → tagAction f o.ta.toNat (a.lane 0) 0 = some nest →
        exec (mk o) s = .next (s.results f nest 0 (bothOut o Shape.ordering 0)) :=
      fun hf hp hn => (hx o s).trans (State.fenceSc_next hf hp hn)
    simp only [List.forall_mem_cons]
    exact ⟨fence fun _ _ => rfl, fence fun _ _ => rfl, fence fun _ _ => rfl, fence fun _ _ => rfl, fence fun _ _ => rfl,
      fence fun _ _ => rfl, fun _ hp => absurd hp List.not_mem_nil⟩
  · intro o s f nest a b hf hp hn
    show execOrdjoin o s = _
    unfold execOrdjoin
    rw [hf]
    exact congrArg _ (State.emitOrder_eq hp hn)
  · intro o s f nest a hf hp hkill hn
    show execYield o s = _
    unfold execYield
    simp only [hf, hkill]
    exact congrArg _ (State.emitOrder_eq hp hn)
  · intro o s f hf
    refine ⟨fun hterm => ?_, fun hterm hp => ?_⟩
    · show execCfgsw o s = _
      unfold execCfgsw
      simp only [hf, hterm, if_true]
    · show execCfgsw o s = _
      unfold execCfgsw
      simp only [hf, hterm, hp, Bool.false_eq_true, if_false]
      rfl

end Sys2Proof.Machine

/-! SUPPORT. What an element firing can change: outside its element (R81, R225), and inside it (R157, R158). -/

namespace Sys2Proof.Machine

/-! ### Outside the element -/

/-- An outcome that is a next state, and differs from the state before in nothing but what the pair that fires may change. -/
def FiresOnly (s : State) (r : Res) : Prop :=
  ∃ t, r = .next t ∧ (t = s ∨ ∃ f, s.fire = some f ∧ ElemFrame f.pos s t)

theorem FiresOnly.idle (s : State) : FiresOnly s (idle s) := ⟨s, rfl, .inl rfl⟩

theorem FiresOnly.runFire {s : State} {f : Fire} (hf : s.fire = some f) (o : ElemOps) (ops : List Opnd) (hr : HandleRule)
    (sh shY : Shape) (a0 bn : Nat) (chk : Option Nat) (eff : Effect) :
    FiresOnly s (.next (s.runFire f o ops hr sh shY a0 bn chk eff)) :=
  ⟨_, rfl, .inr ⟨f, hf, ElemFrame.runFire s f o ops hr sh shY a0 bn chk eff⟩⟩

section
variable (s : State) (o : ElemOps)

theorem State.lanewise_firesOnly (fs : List Fmt) (useB cw useC : Bool) (rfmt : Opnd → Fmt) (chk : Opnd → Opnd → Option Nat)
    (res : Fire → Opnd → List Nat → List Nat → List Nat → List Nat) :
    FiresOnly s (s.lanewise o fs useB cw useC rfmt chk res) := by
  unfold State.lanewise
  split
  · exact .idle s
  · exact .runFire ‹_› _ _ _ _ _ _ _ _ _

theorem State.lanewise2_firesOnly (fs : List Fmt) (rfmt : Opnd → Fmt) (g : Nat → Nat → Nat) :
    FiresOnly s (s.lanewise2 o fs rfmt g) := s.lanewise_firesOnly o _ _ _ _ _ _ _

theorem State.lanewise1_firesOnly (fs : List Fmt) (rfmt : Opnd → Fmt) (g : Nat → Nat) :
    FiresOnly s (s.lanewise1 o fs rfmt g) := s.lanewise_firesOnly o _ _ _ _ _ _ _

theorem State.float2_firesOnly (fm : Fmt) (g : Val → Val → Val) : FiresOnly s (s.float2 o fm g) :=
  s.lanewise_firesOnly o _ _ _ _ _ _ _

theorem State.float1_firesOnly (fm : Fmt) (g : Val → Val) : FiresOnly s (s.float1 o fm g) :=
  s.lanewise_firesOnly o _ _ _ _ _ _ _

theorem State.fma_firesOnly (fm : Fmt) : FiresOnly s (s.fma o fm) := s.lanewise_firesOnly o _ _ _ _ _ _ _

theorem State.laneOp_firesOnly (fs : List Fmt) (rfmt : Opnd → Fmt) (g : Fire → List Nat → List Nat) :
    FiresOnly s (s.laneOp o fs rfmt g) := s.lanewise_firesOnly o _ _ _ _ _ _ _

theorem State.laneOp2_firesOnly (g : List Nat → List Nat → List Nat) : FiresOnly s (s.laneOp2 o g) :=
  s.lanewise_firesOnly o _ _ _ _ _ _ _

theorem State.compare_firesOnly (fs : List Fmt) (g : Bool → Nat → Nat → Bool) : FiresOnly s (s.compare o fs g) := by
  unfold State.compare
  split
  · exact .idle s
  · exact .runFire ‹_› _ _ _ _ _ _ _ _ _

theorem State.icompare_firesOnly (k : ICmp) : FiresOnly s (s.icompare o k) := s.compare_firesOnly o _ _

theorem State.fcompare_firesOnly (fm : Fmt) (k : FCmp) : FiresOnly s (s.fcompare o fm k) := s.compare_firesOnly o _ _

theorem State.predicate_firesOnly (useB : Bool) (g : Bool → Bool → Bool) : FiresOnly s (s.predicate o useB g) := by
  unfold State.predicate
  split
  · exact .idle s
  · exact .runFire ‹_› _ _ _ _ _ _ _ _ _

theorem State.steering_firesOnly (shY : Opnd → Opnd → Shape)
    (out : Opnd → Opnd → Shape → List (Nat × Shape × BitVec 1024)) : FiresOnly s (s.steering o shY out) := by
  unfold State.steering
  split
  · exact .idle s
  · exact .runFire ‹_› _ _ _ _ _ _ _ _ _

theorem State.passOn_firesOnly : FiresOnly s (s.passOn o) := by
  unfold State.passOn
  split
  · exact .idle s
  · exact .runFire ‹_› _ _ _ _ _ _ _ _ _

theorem State.scaleOp_firesOnly (fs : List Fmt) (dst : Nat → Fmt) (rm : Nat → RMode) (sat div : Nat → Bool) :
    FiresOnly s (s.scaleOp o fs dst rm sat div) := by
  unfold State.scaleOp
  split
  · exact .idle s
  · exact .runFire ‹_› _ _ _ _ _ _ _ _ _

theorem State.emitOrder_firesOnly {f : Fire} (hf : s.fire = some f) (ops : List Opnd) :
    FiresOnly s (.next (s.emitOrder o f ops)) := by
  unfold State.emitOrder
  exact .runFire hf _ _ _ _ _ _ _ _ _

theorem State.fenceSc_firesOnly : FiresOnly s (s.fenceSc o) := by
  unfold State.fenceSc
  split
  · exact .idle s
  · exact s.emitOrder_firesOnly o ‹_› _

theorem execGate_firesOnly : FiresOnly s (execGate o s) := by
  unfold execGate
  split
  · exact .idle s
  · exact .runFire ‹_› _ _ _ _ _ _ _ _ _

theorem execConst_firesOnly : FiresOnly s (execConst o s) := by
  unfold execConst
  split
  · exact .idle s
  · exact .runFire ‹_› _ _ _ _ _ _ _ _ _

theorem execJoin_firesOnly : FiresOnly s (execJoin o s) := by
  unfold execJoin
  split
  · exact .idle s
  · exact .runFire ‹_› _ _ _ _ _ _ _ _ _

theorem execPack_firesOnly : FiresOnly s (execPack o s) := by
  unfold execPack
  split
  · exact .idle s
  · exact .runFire ‹_› _ _ _ _ _ _ _ _ _

theorem execUnpack_firesOnly : FiresOnly s (execUnpack o s) := by
  unfold execUnpack
  split
  · exact .idle s
  · exact .runFire ‹_› _ _ _ _ _ _ _ _ _

theorem execTagidx_firesOnly : FiresOnly s (execTagidx o s) := by
  unfold execTagidx
  split
  · exact .idle s
  · exact .runFire ‹_› _ _ _ _ _ _ _ _ _

theorem execChktag_firesOnly : FiresOnly s (execChktag o s) := by
  unfold execChktag
  split
  · exact .idle s
  · exact .runFire ‹_› _ _ _ _ _ _ _ _ _

theorem execSel_firesOnly : FiresOnly s (execSel o s) := by
  unfold execSel
  split
  · exact .idle s
  · exact .runFire ‹_› _ _ _ _ _ _ _ _ _

theorem execCvt_firesOnly : FiresOnly s (execCvt o s) := by
  unfold execCvt
  split
  · exact .idle s
  · exact .runFire ‹_› _ _ _ _ _ _ _ _ _

theorem execOrdjoin_firesOnly : FiresOnly s (execOrdjoin o s) := by
  unfold execOrdjoin
  split
  · exact .idle s
  · exact s.emitOrder_firesOnly o ‹_› _

theorem execPoison_firesOnly : FiresOnly s (execPoison o s) := by
  unfold execPoison
  split
  · exact .idle s
  · exact .runFire ‹_› _ _ _ _ _ _ _ _ _

theorem execProbe_firesOnly : FiresOnly s (execProbe o s) := by
  unfold execProbe
  split
  · exact .idle s
  · exact .runFire ‹_› _ _ _ _ _ _ _ _ _

end

/-- Each computing opcode follows one of the common courses of a firing. -/
theorem exec_firesOnly_of_computing {i : Instr} {opc : Nat} {o : ElemOps} (h : elemOpcodeOf i = some (opc, o))
    (hc : computing opc = true) (s : State) : FiresOnly s (exec i s) := by
  cases i with
  | steer ops =>
    show FiresOnly s (execSteer ops s)
    unfold execSteer
    exact s.steering_firesOnly _ _ _
  | merge ops =>
    show FiresOnly s (execMerge ops s)
    unfold execMerge
    exact s.steering_firesOnly _ _ _
  | cmerge ops =>
    show FiresOnly s (execCmerge ops s)
    unfold execCmerge
    exact s.steering_firesOnly _ _ _
  | copy | pass => exact s.passOn_firesOnly _
  | gate => exact execGate_firesOnly s _
  | pack => exact execPack_firesOnly s _
  | unpack => exact execUnpack_firesOnly s _
  | tagidx => exact execTagidx_firesOnly s _
  | chktag => exact execChktag_firesOnly s _
  | const => exact execConst_firesOnly s _
  | join => exact execJoin_firesOnly s _
  | pand | por | pxor => exact s.predicate_firesOnly _ _ _
  | pnot ops =>
    show FiresOnly s (execPnot ops s)
    unfold execPnot
    exact s.predicate_firesOnly _ _ _
  | mulhZ | divZ | remZ | minZ | maxZ | add | sub | mul | mulh | div | rem | min | max | and | or | xor
  | andn | shl | shr | sar | rol => exact s.lanewise2_firesOnly _ _ _ _
  | abs | neg | not | clz | popc | brev => exact s.lanewise1_firesOnly _ _ _ _
  | fabs ops =>
    show FiresOnly s (execFabs ops s)
    unfold execFabs
    exact s.lanewise1_firesOnly _ _ _ _
  | fneg ops =>
    show FiresOnly s (execFneg ops s)
    unfold execFneg
    exact s.lanewise1_firesOnly _ _ _ _
  | fclass ops =>
    show FiresOnly s (execFclass ops s)
    unfold execFclass
    exact s.lanewise1_firesOnly _ _ _ _
  | fabsBf16 ops =>
    show FiresOnly s (execFabsBf16 ops s)
    unfold execFabsBf16
    exact s.lanewise1_firesOnly _ _ _ _
  | fnegBf16 ops =>
    show FiresOnly s (execFnegBf16 ops s)
    unfold execFnegBf16
    exact s.lanewise1_firesOnly _ _ _ _
  | fclassBf16 ops =>
    show FiresOnly s (execFclassBf16 ops s)
    unfold execFclassBf16
    exact s.lanewise1_firesOnly _ _ _ _
  | mad ops =>
    show FiresOnly s (execMad ops s)
    unfold execMad
    exact s.lanewise_firesOnly _ _ _ _ _ _ _ _
  | bmax ops =>
    show FiresOnly s (execBmax ops s)
    unfold execBmax
    exact s.lanewise_firesOnly _ _ _ _ _ _ _ _
  | sel => exact execSel_firesOnly s _
  | cmpEq | cmpNe | cmpLt | cmpGe | cmpLtu | cmpGeu | cmpLe | cmpGt => exact s.icompare_firesOnly _ _
  | fcmpEq | fcmpNe | fcmpLt | fcmpLe | fcmpGt | fcmpGe | fcmpUn | fcmpNum | fcmpEqBf16 | fcmpNeBf16 | fcmpLtBf16
  | fcmpLeBf16 | fcmpGtBf16 | fcmpGeBf16 | fcmpUnBf16 | fcmpNumBf16 => exact s.fcompare_firesOnly _ _ _
  | fadd | fsub | fmul | fmin | fmax | fdiv | faddBf16 | fsubBf16 | fmulBf16 | fminBf16 | fmaxBf16 | fdivBf16 =>
    exact s.float2_firesOnly _ _ _
  | ffma | ffmaBf16 => exact s.fma_firesOnly _ _
  | fsqrt | frcp | frsq | fexp2 | flog2 | ftanh | fsigm | fspl | fsqrtBf16 | frcpBf16 | frsqBf16 | fexp2Bf16 | flog2Bf16
  | ftanhBf16 | fsigmBf16 | fsplBf16 => exact s.float1_firesOnly _ _ _
  | laneid ops =>
    show FiresOnly s (execLaneid ops s)
    unfold execLaneid
    exact s.laneOp_firesOnly _ _ _ _
  | bcast ops =>
    show FiresOnly s (execBcast ops s)
    unfold execBcast
    exact s.laneOp_firesOnly _ _ _ _
  | redaddI32 ops =>
    show FiresOnly s (execRedaddI32 ops s)
    unfold execRedaddI32
    exact s.laneOp_firesOnly _ _ _ _
  | redmaxI32 ops =>
    show FiresOnly s (execRedmaxI32 ops s)
    unfold execRedmaxI32
    exact s.laneOp_firesOnly _ _ _ _
  | redminI32 ops =>
    show FiresOnly s (execRedminI32 ops s)
    unfold execRedminI32
    exact s.laneOp_firesOnly _ _ _ _
  | lscanI32 ops =>
    show FiresOnly s (execLscanI32 ops s)
    unfold execLscanI32
    exact s.laneOp_firesOnly _ _ _ _
  | redaddF32 ops =>
    show FiresOnly s (execRedaddF32 ops s)
    unfold execRedaddF32
    exact s.laneOp_firesOnly _ _ _ _
  | redmaxF32 ops =>
    show FiresOnly s (execRedmaxF32 ops s)
    unfold execRedmaxF32
    exact s.laneOp_firesOnly _ _ _ _
  | redminF32 ops =>
    show FiresOnly s (execRedminF32 ops s)
    unfold execRedminF32
    exact s.laneOp_firesOnly _ _ _ _
  | lscanF32 ops =>
    show FiresOnly s (execLscanF32 ops s)
    unfold execLscanF32
    exact s.laneOp_firesOnly _ _ _ _
  | shuf ops =>
    show FiresOnly s (execShuf ops s)
    unfold execShuf
    exact s.laneOp2_firesOnly _ _
  | lrot ops =>
    show FiresOnly s (execLrot ops s)
    unfold execLrot
    exact s.laneOp2_firesOnly _ _
  | cvt => exact execCvt_firesOnly s _
  | qexp ops =>
    show FiresOnly s (execQexp ops s)
    unfold execQexp
    exact s.scaleOp_firesOnly _ _ _ _ _ _
  | bscale ops =>
    show FiresOnly s (execBscale ops s)
    unfold execBscale
    exact s.scaleOp_firesOnly _ _ _ _ _ _
  | fenceScE | fenceScQ | fenceScF | fenceScD | fenceScK | fenceScX => exact s.fenceSc_firesOnly _
  | ordjoin => exact execOrdjoin_firesOnly s _
  | poison => exact execPoison_firesOnly s _
  | probe => exact execProbe_firesOnly s _
  | sink | reorder | alloc | free | cfgsw | ld | st | ldg | sts | wadd | wrd | wclr | zero | ldOrd | stOrd | ldgOrd | stsOrd
  | waddOrd | wrdOrd | wclrOrd | zeroOrd | hld | hst | atom | hldOrd | hstOrd | atomOrd | mark | trap | yield | exit | send
  | launch => cases h; exact absurd hc (by decide)
  | _ => cases h

/-- Settles O11: every computing opcode follows a common course of a firing, whose frame is that of its element. -/
theorem computingOpcodesFrame : Obligations.ComputingOpcodesFrame := by
  unfold Obligations.ComputingOpcodesFrame
  intro i opc o s t hi hc hx
  obtain ⟨t', ht', hcase⟩ := exec_firesOnly_of_computing hi hc s
  have heq : t = t' := Host.Outcome.next.inj (hx.symm.trans ht')
  subst heq
  rcases hcase with rfl | ⟨f, hf, hrec, helems⟩
  · exact ⟨rfl, fun _ _ => rfl, fun _ => ⟨rfl, rfl, rfl⟩⟩
  · refine ⟨hrec, fun p hp => helems p fun h => hp ?_, fun a => ?_⟩
    · rw [hf, h]; rfl
    · rw [hrec]; exact ⟨rfl, rfl, rfl⟩

/-! ### Inside the element -/

/-- The element differs only in the ready FIFO, the arbiter's turn, the output stage and slot `j`, and that slot only in its keep
registers, its counts of tokens sent and the moment of its last issue. -/
def EmitFrame (j : Nat) (e e' : Elem) : Prop :=
  e' = { e with slots := e'.slots, cur := e'.cur, used := e'.used, fifo := e'.fifo, out := e'.out } ∧
  (∀ k, k ≠ j → tabGet e'.slots k = tabGet e.slots k) ∧
  (∀ sl', tabGet e'.slots j = some sl' → ∃ sl, tabGet e.slots j = some sl ∧
    sl' = { sl with keeps := sl'.keeps, sent := sl'.sent, lastIssue := sl'.lastIssue })

/-- Only the ready FIFO, the arbiter's turn and the output stage change. -/
theorem EmitFrame.of_slots {j : Nat} {e e' : Elem} (hs : e'.slots = e.slots)
    (h : e' = { e with cur := e'.cur, used := e'.used, fifo := e'.fifo, out := e'.out }) : EmitFrame j e e' :=
  ⟨by rw [hs]; exact h, fun _ _ => by rw [hs], fun sl' hsl => ⟨sl', by rw [← hs]; exact hsl, rfl⟩⟩

theorem EmitFrame.refl (j : Nat) (e : Elem) : EmitFrame j e e := .of_slots rfl rfl

theorem EmitFrame.trans {j : Nat} {e e' e'' : Elem} (h : EmitFrame j e e') (h' : EmitFrame j e' e'') : EmitFrame j e e'' := by
  obtain ⟨hrec, hother, hslot⟩ := h
  obtain ⟨hrec', hother', hslot'⟩ := h'
  refine ⟨?_, fun k hk => (hother' k hk).trans (hother k hk), fun sl'' hsl'' => ?_⟩
  · rw [hrec']
    conv => lhs; rw [hrec]
  · obtain ⟨sl', hsl', heq'⟩ := hslot' sl'' hsl''
    obtain ⟨sl, hsl, heq⟩ := hslot sl' hsl'
    refine ⟨sl, hsl, ?_⟩
    rw [heq']
    conv => lhs; rw [heq]

theorem EmitFrame.modSlot (j : Nat) (e : Elem) {g : Slot → Slot}
    (hg : ∀ sl, g sl = { sl with keeps := (g sl).keeps, sent := (g sl).sent, lastIssue := (g sl).lastIssue }) :
    EmitFrame j e (e.modSlot j g) := by
  unfold Elem.modSlot
  split
  next sl hsl =>
    refine ⟨rfl, fun k hk => tabGet_tabPut_other _ _ hk, fun sl' hsl' => ⟨sl, hsl, ?_⟩⟩
    rw [← Option.some.inj ((tabGet_tabPut_same e.slots j (g sl)).symm.trans hsl')]
    exact hg sl
  next => exact .refl j e

theorem State.elem_setElem (s : State) (p : Nat) (e : Elem) : (s.setElem p e).elem p = e := by
  rw [State.elem, State.setElem_elems, tabGet_tabPut_same, Option.getD_some]

theorem State.elem_modElem (s : State) (p : Nat) (g : Elem → Elem) : (s.modElem p g).elem p = g (s.elem p) :=
  State.elem_setElem _ _ _

theorem EmitFrame.emit1 (s : State) (f : Fire) (d : Nat) (t : Token) :
    EmitFrame f.slotIx (s.elem f.pos) ((s.emit1 f d t).elem f.pos) := by
  unfold State.emit1
  split
  · exact .refl _ _
  · dsimp only
    split
    · rw [State.elem_modElem]
      exact .modSlot _ _ fun _ => rfl
    · rw [State.elem_modElem]
      refine (EmitFrame.modSlot f.slotIx (s.elem f.pos) fun sl => ?_).trans (.of_slots rfl rfl)
      split <;> rfl

theorem EmitFrame.emitAll (f : Fire) (l : List (Nat × Token)) (s : State) :
    EmitFrame f.slotIx (s.elem f.pos) ((s.emitAll f l).elem f.pos) := by
  induction l generalizing s with
  | nil => exact .refl _ _
  | cons p r ih => exact (EmitFrame.emit1 s f p.1 p.2).trans (ih _)

theorem EmitFrame.issued (s : State) (f : Fire) : EmitFrame f.slotIx (s.elem f.pos) ((s.issued f).elem f.pos) := by
  have hcharge (s : State) (d p n m : Nat) : ({ s.charge d p n m with firing := none } : State).elem f.pos = s.elem f.pos := rfl
  unfold State.issued
  dsimp only
  rw [hcharge, State.elem_modElem]
  refine EmitFrame.trans ?_ (.modSlot _ _ fun _ => rfl)
  split <;> exact .of_slots rfl rfl

/-- Settles O12: issue and each emission change only the FIFO, the turn, the output stage and the firing slot. -/
theorem emissionFrameWithinTheElement : Obligations.EmissionFrameWithinTheElement := by
  unfold Obligations.EmissionFrameWithinTheElement
  intro s f l
  exact (EmitFrame.issued s f).trans (.emitAll f l _)

end Sys2Proof.Machine

/-! SUPPORT. The results of the system and memory opcodes of the elements (R248 to R272), and an access whose lanes pass their
checks (R28 to R39). -/

namespace Sys2Proof.Machine

/-! ### System opcodes -/

theorem Fire.poisonOut_eq_none {f : Fire} {s : State} {o : ElemOps} {a : Opnd} {sh : Shape} (hp : a.poison = false)
    (hn : tagAction f o.ta.toNat (a.lane 0) 0 ≠ none) : f.poisonOut s o a sh = none := by
  unfold Fire.poisonOut
  simp only [hp, Bool.false_eq_true, if_false, Option.isNone_iff_eq_none, hn]

/-- The launch record that an element `launch` of operand A hands to the Spine (R272). -/
def State.launchRecord (s : State) (f : Fire) (a : Opnd) : Launch :=
  { bytes := bytesOf 64 a.pay.toNat, part := f.part, parent := some f.ctx, homevf := s.homeVf f.ctx, prio := 0,
    plate := a.plate, hyp := (match s.ctx? f.ctx with | some c => c.hyp | none => false), elemAcc := some (f.pos, s.nextId),
    cmd := none, ctx := 0, resume := false, got := [], image := none, dies := none }

/-- Settles O16: no operand is poison and the tag action holds, so each opcode takes its own course. -/
theorem systemOpcodeResults : Obligations.SystemOpcodeResults := by
  unfold Obligations.SystemOpcodeResults
  refine ⟨?_, ?_, ?_, ?_, ?_, ?_, ?_⟩
  · intro o s f a hf hp hn
    refine ⟨{ ctx := f.ctx, marker := bitF (f.cw o) 31 22, node := some (f.pos, f.slotIx, f.node), cmd := none, counted := false,
              out := [(o.dx.toNat, resultToken f.ctx (f.outNest o a) Shape.ordering 0 0),
                (o.dy.toNat, resultToken f.ctx (f.outNest o a) Shape.ordering 0 0)] }, ?_, rfl, rfl, rfl, rfl, rfl⟩
    show execMark o s = _
    unfold execMark
    simp only [hf]
    rw [show f.poisonOut s o (f.readA o true) _ = none from Fire.poisonOut_eq_none hp hn]
    rfl
  · intro o s f a r t hf hp hn
    show execTrap o s = _
    unfold execTrap
    simp only [hf]
    rw [show f.poisonOut s o (f.readA o true) _ = none from Fire.poisonOut_eq_none hp hn]
  · intro o s f h nest a t hf hn
    show execPoison o s = _
    unfold execPoison
    rw [hf.1]
    exact congrArg _ (State.runFire_fault hf hn)
  · intro o s f h nest a n hf hn
    refine State.gives_of_packed (l := List.replicate n (s.probeItem f (f.cw o))) ?_ (Nat.le_refl 32) (f.colour_le_one rfl)
      fun k hk => by rw [getD_replicate _ hk]
    show execProbe o s = _
    unfold execProbe
    rw [hf.1]
    exact congrArg _ (State.runFire_results _ hf hn)
  · intro o s f a hf hp
    show execExit o s = _
    unfold execExit
    simp only [hf]
    exact if_neg (Bool.eq_false_iff.mp hp)
  · intro o s f e t a cw hf hp hn ht he hst
    refine ⟨{ quire := e.gfolio * 4 + bitF cw 23 22, chan := bitF cw 21 18, tok := t,
              sender := some (f.pos, f.slotIx, f.node), accepted := false, dx := o.dx.toNat, dy := o.dy.toNat,
              outTok := { t with nest := f.outNest o a } }, ?_, rfl, rfl, rfl, rfl, rfl, rfl, rfl, rfl⟩
    have hmoving : ¬ e.st = .moving := fun h => nomatch hst.symm.trans h
    show execSend o s = _
    unfold execSend
    simp only [hf, ht]
    rw [show f.poisonOut s o (f.readA o true) _ = none from Fire.poisonOut_eq_none hp hn,
      show s.mapEntry f.part (bitF (f.cw o) 31 24) = some e from he]
    exact if_neg hmoving
  · intro o s f a hf hp hord hl
    have hcolour : ¬ (a.lanes.getD 1 ≠ 16 ∨ a.ord = true) := by rw [hl, hord]; simp
    have hexec : ∃ acc : Access, exec (.launch o) s = .next
        { (({ (s.issued f).robPush f s.nextId 0 with nextId := s.nextId + 1 } : State).setAcc s.nextId acc) with
          toSpine := s.toSpine ++ [s.launchRecord f a] } := by
      refine ⟨{ op := .store, pos := f.pos, slotIx := f.slotIx, ctx := f.ctx, part := f.part, node := f.node,
                nest := f.outNest o a, fmt := .bits, lanesN := 1, dx := o.dx.toNat, dy := o.dy.toNat, handle := a.plate,
                readHandle := 0, lanes := [], parts := [], hold := .none, fail := none,
                tagBad := (tagAction f o.ta.toNat (a.lane 0) 0).isNone }, ?_⟩
      show execLaunch o s = _
      unfold execLaunch
      simp only [hf]
      exact (if_neg (Bool.eq_false_iff.mp hp)).trans (if_neg hcolour)
    obtain ⟨acc, hexec⟩ := hexec
    exact ⟨_, s.launchRecord f a, hexec, rfl, rfl, rfl, rfl, rfl, rfl, rfl, rfl⟩

/-! ### Memory opcodes -/

/-- A memory opcode whose firing passes its checks starts its access (R249 to R260). -/
theorem State.memExec_next {s : State} {o : ElemOps} {m : MemForm} {f : Fire} {h : Handle} {a b : Opnd}
    (ea : a = f.read (srcOf o.sa) (o.lx.toNat + 1) .bits)
    (eb : b = f.read (if m.useB then srcOf o.sb else .none) (o.lx.toNat + 1)
      ((m.bFmts (fmtOf (bitF (f.cw o) 28 26))).headD .bits))
    (hf : s.Fires f [a, b] h) :
    let cas := decide (m = .atom ∧ bitF (f.cw o) 12 9 = 10)
    let dfmt := fmtOf (bitF (f.cw o) 28 26)
    let hi := f.slot.lit (o.lx.toNat + 1)
    let c := memColour cas a b
    let nestA := tagAction f o.ta.toNat (a.lane 0) 0
    memCheck m cas dfmt a b c (hi * 2 ^ 32 + a.lane 0) = none →
    s.memExec o m = .next ((({ (s.issued f).robPush f s.nextId (memStream (f.cw o) f.nest) with
        nextId := s.nextId + 1 } : State).setAcc s.nextId
      { op := m.op (bitF (f.cw o) 12 9), pos := f.pos, slotIx := f.slotIx, ctx := f.ctx, part := f.part, node := f.node,
        nest := nestA.getD f.nest, fmt := if m = .wrd then .fp32 else dfmt, lanesN := if m = .wrd then 2 * c else c,
        dx := o.dx.toNat, dy := o.dy.toNat, handle := h, readHandle := 0, lanes := memLanes m dfmt cas hi a b c, parts := [],
        hold := .none, fail := none, tagBad := nestA.isNone }).accResolve s.nextId) := by
  intro cas dfmt hi c nestA hck
  subst ea eb
  unfold State.memExec
  simp only [hf.1, dataLit, if_true, hf.2.2, State.Fires.find hf]
  rw [show memCheck _ _ _ _ _ _ _ = none from hck]

/-- Settles O13: every form takes the common course of a memory firing. -/
theorem memoryOpcodesStartTheirAccess : Obligations.MemoryOpcodesStartTheirAccess := by
  unfold Obligations.MemoryOpcodesStartTheirAccess
  have hmem : ∀ p ∈ memoryTable, ∀ (o : ElemOps) (s : State), exec (p.1 o) s = s.memExec o p.2 := by
    simp only [memoryTable, List.forall_mem_cons]
    exact ⟨fun _ _ => rfl, fun _ _ => rfl, fun _ _ => rfl, fun _ _ => rfl, fun _ _ => rfl, fun _ _ => rfl, fun _ _ => rfl,
      fun _ _ => rfl, fun _ _ => rfl, fun _ _ => rfl, fun _ _ => rfl, fun _ _ => rfl, fun _ _ => rfl, fun _ _ => rfl,
      fun _ _ => rfl, fun _ _ => rfl, fun _ _ => rfl, fun _ _ => rfl, fun _ _ => rfl, fun _ _ => rfl, fun _ _ => rfl,
      fun _ _ => rfl, fun _ hp => absurd hp List.not_mem_nil⟩
  intro p hp o s f h m cw dfmt aop cas a b hi c hf hck
  exact ⟨_, (hmem p hp o s).trans (State.memExec_next rfl rfl hf hck), rfl, rfl, rfl, rfl, rfl, rfl, rfl, rfl, rfl, rfl, rfl,
    rfl, rfl, rfl, Option.isNone_iff_eq_none⟩

/-! ### An access whose lanes pass their checks with SRAM places -/

theorem State.acc?_setAcc (s : State) (id : Nat) (a : Access) : (s.setAcc id a).acc? id = some a :=
  tabGet_tabPut_same _ _ _

/-- The lane with an SRAM place. -/
def LaneAcc.atSram (pa : LaneAcc → Nat) (l : LaneAcc) : LaneAcc := { l with place := some (.sram (pa l)) }

theorem State.resolveLanes_sram {s : State} {id : Nat} {a : Access} {pa : LaneAcc → Nat} {ls : List LaneAcc}
    (h : ∀ l ∈ ls, l.place = none ∧ l.code = 0 ∧
      s.preCheck a.part l.logical l.va l.align a.op.modifies = .place (.sram (pa l))) :
    s.resolveLanes id a ls = (ls.map (LaneAcc.atSram pa), .none, s) := by
  induction ls with
  | nil => rfl
  | cons l r ih =>
    obtain ⟨⟨hplace, hcode, hcheck⟩, hr⟩ := List.forall_mem_cons.mp h
    have hlane : s.resolveLane id a l = (l.atSram pa, .none, s) := by
      unfold State.resolveLane
      simp only [hplace, hcode, hcheck, Option.isSome_none, Bool.false_eq_true, ne_eq, not_true, or_self, if_false]
      simp only [LaneAcc.atSram, hcode]
    unfold State.resolveLanes
    simp only [hlane, ih hr, List.map_cons, if_true]

/-- Every lane has an SRAM place. -/
def SramLanes (ls : List LaneAcc) : Prop := ∀ l ∈ ls, ∃ n, l.place = some (.sram n)

theorem sramLanes_map_atSram (pa : LaneAcc → Nat) (ls : List LaneAcc) : SramLanes (ls.map (LaneAcc.atSram pa)) :=
  List.forall_mem_map.mpr fun l _ => ⟨pa l, rfl⟩

theorem mem_of_mem_nubList {α : Type} [DecidableEq α] {x : α} {l : List α} (h : x ∈ nubList l) : x ∈ l := by
  induction l with
  | nil => exact h
  | cons y r ih =>
    rcases List.mem_cons.mp h with rfl | h
    · exact List.mem_cons_self
    · exact List.mem_cons_of_mem y (ih (List.mem_filter.mp h).1)

/-- The parts of lanes with SRAM places are requests to banks. -/
theorem partsOf_sram {ls : List LaneAcc} (h : SramLanes ls) :
    ∀ p ∈ partsOf ls, p.st = .request ∧ ∃ b, p.home = .bank b := by
  refine List.forall_mem_map.mpr fun home hhome => ⟨rfl, ?_⟩
  obtain ⟨l, hl, hplace⟩ := List.mem_filterMap.mp (mem_of_mem_nubList hhome)
  obtain ⟨n, hn⟩ := h l hl
  rw [hn] at hplace
  exact ⟨n / 65536, (Option.some.inj hplace).symm⟩

/-- The first part is that of the first lane's bank. -/
theorem partsOf_cons_sram {l : LaneAcc} {ls : List LaneAcc} {n : Nat} (h : l.place = some (.sram n)) :
    ∃ p r, partsOf (l :: ls) = p :: r ∧ p.home = .bank (n / 65536) := by
  unfold partsOf
  rw [List.filterMap_cons]
  simp only [h, Option.map_some]
  exact ⟨_, _, rfl, rfl⟩

theorem State.claspAll_banks {s : State} {a : Access} {ls : List LaneAcc} {homes : List Home}
    (h : ∀ x ∈ homes, ∃ b, x = .bank b) : s.claspAll a ls homes = (true, s) := by
  induction homes with
  | nil => rfl
  | cons x r ih =>
    obtain ⟨⟨b, rfl⟩, hr⟩ := List.forall_mem_cons.mp h
    exact ih hr

theorem State.lanesOut_sram {s : State} {id : Nat} {a : Access} {ps : List Part} {ls : List LaneAcc} (h : SramLanes ls) :
    s.lanesOut id a ps ls = s := by
  induction ls with
  | nil => rfl
  | cons l r ih =>
    obtain ⟨⟨n, hn⟩, hr⟩ := List.forall_mem_cons.mp h
    unfold State.lanesOut
    simp only [hn, Place.home]
    exact ih hr

/-- The requests of an access all of whose lanes have SRAM places leave on the request class of its own port (R37). -/
theorem State.accSend_sram {s : State} {id : Nat} {a : Access} {l : LaneAcc} {ls : List LaneAcc} {n : Nat}
    (ha : s.acc? id = some a) (hlanes : a.lanes = l :: ls) (hplace : l.place = some (.sram n)) (hsram : SramLanes a.lanes) :
    let s' := s.setAcc id { a with parts := partsOf a.lanes, hold := .none }
    s.accSend id = s'.setBuf a.pos 4 1 (s'.buf a.pos 4 1 ++ [.req (n / 65536 / 4) id 0]) := by
  have hparts := partsOf_sram hsram
  obtain ⟨p, r, hcons, hhome⟩ := hlanes ▸ partsOf_cons_sram (ls := ls) hplace
  have hclasp : s.claspAll a a.lanes ((partsOf a.lanes).map (·.home)) = (true, s) :=
    State.claspAll_banks (List.forall_mem_map.mpr fun q hq => (hparts q hq).2)
  have hposted (posts : Bool) : (partsOf a.lanes).map (fun q =>
      if (decide (q.home = .host) && posts) = true then { q with st := PartSt.done } else q) = partsOf a.lanes := by
    refine (List.map_congr_left fun q hq => ?_).trans (List.map_id _)
    obtain ⟨-, b, hb⟩ := hparts q hq
    rw [hb]
    rfl
  have hst : (partsOf a.lanes).all (fun q => q.st == .done) = false := by
    rw [hcons, List.all_cons, (hparts p (by rw [hcons]; exact List.mem_cons_self)).1]
    rfl
  unfold State.accSend
  simp only [ha]
  refine (if_neg ?_).trans ?_
  · split
    · simp only [Bool.and_eq_true, List.any_eq_true]
      rintro ⟨⟨⟨⟨x, hx, hplace⟩, -⟩, -⟩, -⟩
      obtain ⟨k, hk⟩ := hsram x hx
      rw [hk] at hplace
      exact Bool.false_ne_true hplace
    · exact Bool.false_ne_true
  · simp only [hclasp, hposted, State.lanesOut_sram hsram, hst, Bool.false_eq_true, if_false]
    obtain ⟨home, lanes, groups, next, st⟩ := p
    subst hhome
    rw [hcons, List.find?_cons]

theorem State.buf_setBuf_append (s : State) (p port cls : Nat) (l : List Flit) (x : Flit) :
    (s.setBuf p port cls (l ++ [x])).buf p port cls = l ++ [x] := by
  have h : (s.setBuf p port cls (l ++ [x])).bufs = tabPut s.bufs ((p * 6 + port) * 4 + cls) (l ++ [x]) := by
    cases l <;> rfl
  rw [State.buf, h, tabGet_tabPut_same, Option.getD_some]

/-- Settles O14: each lane resolves to its place, no home is outside the package, and the first part names the bank. -/
theorem checkedSramAccessIsSent : Obligations.CheckedSramAccessIsSent := by
  unfold Obligations.CheckedSramAccessIsSent
  intro s id a pa ha hne hchecks ls t
  obtain ⟨l, r, hl⟩ := List.exists_cons_of_ne_nil hne
  have hls : ls = (l.atSram pa) :: r.map (LaneAcc.atSram pa) := by
    show a.lanes.map (LaneAcc.atSram pa) = _
    rw [hl, List.map_cons]
  have hsram : SramLanes ls := sramLanes_map_atSram pa a.lanes
  have hcode : ls.find? (fun l => l.code != 0) = none := by
    refine List.find?_eq_none.mpr (List.forall_mem_map.mpr fun x hx => ?_)
    simp [(hchecks x hx).2.1]
  let s1 := s.setAcc id { a with lanes := ls, hold := .none }
  let s2 := s1.setAcc id { a with lanes := ls, parts := partsOf ls, hold := .none }
  have ht : t = s2.setBuf a.pos 4 1 (s2.buf a.pos 4 1 ++ [.req (pa l / 65536 / 4) id 0]) := by
    have hresolve : t = s1.accSend id := by
      show s.accResolve id = _
      unfold State.accResolve
      simp only [ha, State.resolveLanes_sram hchecks, if_true]
      rw [show (a.lanes.map (LaneAcc.atSram pa)).find? (fun l => l.code != 0) = none from hcode]
      rfl
    rw [hresolve]
    exact State.accSend_sram (s.acc?_setAcc id _) hls rfl hsram
  rw [ht]
  exact ⟨⟨_, s1.acc?_setAcc id _, rfl⟩, ⟨pa l / 65536, by rw [hls]; rfl, s2.buf_setBuf_append _ _ _ _ _⟩, rfl, rfl, rfl, rfl⟩

end Sys2Proof.Machine

/-! SUPPORT. The running task of a control core, and its arithmetic, branches and jumps (R274, R279, R285, R289). -/

namespace Sys2Proof.Machine

/-! ### The running task -/

section
variable {s : State} {r : TaskRun}

theorem State.running_eq (h : s.running = some r) :
    s.qcc s.cur = r.k ∧ r.q = s.cur ∧ r.k.task = some r.t ∧ r.k.ctx = some r.ctx ∧ s.alive r.ctx = true ∧
      r.part = s.partOf r.ctx := by
  unfold State.running at h
  dsimp only at h
  split at h
  next t c ht hc =>
    split at h
    next halive =>
      cases h
      exact ⟨rfl, rfl, ht, hc, halive, rfl⟩
    next => cases h
  next => cases h

theorem State.qcc_cur (h : s.running = some r) : s.qcc s.cur = r.k := (State.running_eq h).1

theorem State.running_q (h : s.running = some r) : r.q = s.cur := (State.running_eq h).2.1

theorem State.running_task (h : s.running = some r) : r.k.task = some r.t := (State.running_eq h).2.2.1

theorem Qcc.setX_go (k : Qcc) (rd : BitVec 5) (v pc : Nat) :
    (k.setX rd v).go pc = { k with
      x := if rd = 0 then k.x else k.x.set rd.toNat (BitVec.ofNat 32 v), pc := pc % 2 ^ 32,
      task := k.task.map fun t => { t with count := t.count + 1 } } := by
  unfold Qcc.setX
  split <;> rfl

/-- The end of an instruction that writes rd and goes on at `pc`. -/
theorem State.modCur_setX_go (rd : BitVec 5) (v : Word) (pc : Nat) :
    (s.modCur fun k => (k.setX rd v.toNat).go pc) = s.afterInstr rd v (pc % 2 ^ 32) := by
  rw [State.modCur, Qcc.setX_go, BitVec.ofNat_toNat, BitVec.setWidth_eq]
  rfl

theorem State.retire_eq (h : s.running = some r) (rd : BitVec 5) (v : Word) :
    s.retire rd v.toNat = .next (s.afterInstr rd v ((r.k.pc + 4) % 2 ^ 32)) := by
  have hmod := s.modCur_setX_go rd v (r.k.pc + 4)
  rw [← State.qcc_cur h] at hmod ⊢
  exact congrArg Host.Outcome.next hmod

end

/-! ### Values of 32 bits -/

theorem imm32_eq {n : Nat} (b : BitVec n) : imm32 b = (b.signExtend 32).toNat := wrapTo_eq _

theorem sub32_word (x y : Word) : sub32 x.toNat y.toNat = (x - y).toNat := by
  have := y.isLt
  rw [sub32, BitVec.toNat_sub]
  omega

theorem slt32_word (x y : Word) : slt32 x.toNat y.toNat = (if x.slt y then 1 else 0 : Word).toNat := by
  simp only [slt32, sext_toNat, BitVec.slt_iff_toInt_lt]
  split <;> rfl

theorem sltu32_word (x y : Word) : sltu32 x.toNat y.toNat = (if x.ult y then 1 else 0 : Word).toNat := by
  simp only [sltu32, Nat.mod_eq_of_lt x.isLt, Nat.mod_eq_of_lt y.isLt, BitVec.ult_iff_lt, BitVec.lt_def]
  split <;> rfl

theorem shl32_five (x : Word) (n : BitVec 5) : shl32 x.toNat n.toNat = (x <<< n.toNat).toNat := by
  have := n.isLt
  rw [shl32, Nat.mod_eq_of_lt (show n.toNat < 32 by omega), BitVec.toNat_shiftLeft, Nat.shiftLeft_eq]

theorem shr32_five (x : Word) (n : BitVec 5) : shr32 x.toNat n.toNat = (x >>> n.toNat).toNat := by
  have := n.isLt
  rw [shr32, Nat.mod_eq_of_lt (show n.toNat < 32 by omega), BitVec.toNat_ushiftRight, Nat.shiftRight_eq_div_pow,
    Nat.mod_eq_of_lt x.isLt]

theorem sar32_five (x : Word) (n : BitVec 5) : sar32 x.toNat n.toNat = (x.sshiftRight n.toNat).toNat := by
  have := n.isLt
  rw [sar32, Nat.mod_eq_of_lt (by omega), sext_toNat, ← wrapTo_toInt (x.sshiftRight _), BitVec.toInt_sshiftRight,
    Int.shiftRight_eq_div_pow]

theorem lui_word (imm : BitVec 20) : imm.toNat * 2 ^ 12 = (imm.setWidth 32 <<< 12 : Word).toNat := by
  have := imm.isLt
  rw [BitVec.toNat_shiftLeft, BitVec.toNat_setWidth, Nat.shiftLeft_eq]
  omega

theorem ofInt_four_mul (i : Int) : (BitVec.ofInt 32 (4 * i) : Word) = BitVec.ofInt 32 i <<< 2 := by
  apply BitVec.eq_of_toNat_eq
  rw [BitVec.toNat_shiftLeft, Nat.shiftLeft_eq, BitVec.toNat_ofInt, BitVec.toNat_ofInt]
  omega

theorem target_word {n : Nat} (pc : Nat) (off : BitVec n) :
    target pc off = (BitVec.ofNat 32 pc + off.signExtend 32 <<< 2 : Word).toNat := by
  rw [target, wrapTo_eq, BitVec.ofInt_add, ofInt_four_mul, BitVec.ofInt_natCast]
  rfl

theorem target_mod {n : Nat} (pc : Nat) (off : BitVec n) : target pc off % 2 ^ 32 = target pc off := by
  rw [target_word]
  exact Nat.mod_eq_of_lt (BitVec.isLt _)

/-! ### Arithmetic, branches and jumps -/

section
variable {s : State} {r : TaskRun}

theorem State.aluR_next (h : s.running = some r) (rd ra rb : BitVec 5) {m : Nat → Nat → Nat} {g : Word → Word → Word}
    (hm : ∀ x y : Word, m x.toNat y.toNat = (g x y).toNat) :
    s.aluR rd ra rb m = .next (s.afterInstr rd (g (r.k.reg ra) (r.k.reg rb)) ((r.k.pc + 4) % 2 ^ 32)) := by
  unfold State.aluR
  simp only [h]
  rw [← State.retire_eq h, ← hm]
  rfl

theorem State.aluI_next (h : s.running = some r) (rd ra : BitVec 5) {b : Nat} {m : Nat → Nat → Nat} {v : Word}
    (hm : m (r.k.reg ra).toNat b = v.toNat) :
    s.aluI rd ra b m = .next (s.afterInstr rd v ((r.k.pc + 4) % 2 ^ 32)) := by
  unfold State.aluI
  simp only [h]
  rw [← State.retire_eq h, ← hm]
  rfl

theorem State.branch_next (h : s.running = some r) (ra rb : BitVec 5) (off : BitVec 15) {m : Nat → Nat → Bool}
    {g : Word → Word → Bool} (hm : ∀ x y : Word, m x.toNat y.toNat = g x y) :
    s.branch ra rb off m = .next (s.afterInstr 0 0 (if g (r.k.reg ra) (r.k.reg rb)
      then (BitVec.ofNat 32 r.k.pc + off.signExtend 32 <<< 2 : Word).toNat else (r.k.pc + 4) % 2 ^ 32)) := by
  have hk := State.qcc_cur h
  have hgo (pc : Nat) : (s.modCur fun k => k.go pc) = s.afterInstr 0 0 (pc % 2 ^ 32) := s.modCur_setX_go 0 0 pc
  unfold State.branch
  simp only [h]
  rw [show m (r.reg ra) (r.reg rb) = g (r.k.reg ra) (r.k.reg rb) from hm _ _, ← target_word]
  cases g (r.k.reg ra) (r.k.reg rb)
  · exact congrArg Host.Outcome.next (hgo (r.k.pc + 4))
  · exact congrArg Host.Outcome.next ((hgo (target r.k.pc off)).trans (by rw [target_mod]; rfl))

theorem aluTable_results (h : s.running = some r) : ∀ p ∈ aluTable, ∀ rd ra rb,
    exec (p.1 rd ra rb) s = .next (s.afterInstr rd (p.2 (r.k.reg ra) (r.k.reg rb)) ((r.k.pc + 4) % 2 ^ 32)) := by
  have alu {mk : BitVec 5 → BitVec 5 → BitVec 5 → Instr} {m : Nat → Nat → Nat} {g : Word → Word → Word}
      (hx : ∀ rd ra rb, exec (mk rd ra rb) s = s.aluR rd ra rb m) (hm : ∀ x y : Word, m x.toNat y.toNat = (g x y).toNat)
      (rd ra rb : BitVec 5) :
      exec (mk rd ra rb) s = .next (s.afterInstr rd (g (r.k.reg ra) (r.k.reg rb)) ((r.k.pc + 4) % 2 ^ 32)) :=
    (hx rd ra rb).trans (State.aluR_next h rd ra rb hm)
  simp only [aluTable, List.forall_mem_cons]
  exact ⟨alu (fun _ _ _ => rfl) add_word, alu (fun _ _ _ => rfl) sub32_word,
    alu (fun _ _ _ => rfl) fun x y => (BitVec.toNat_and x y).symm, alu (fun _ _ _ => rfl) fun x y => (BitVec.toNat_or x y).symm,
    alu (fun _ _ _ => rfl) fun x y => (BitVec.toNat_xor x y).symm, alu (fun _ _ _ => rfl) shl_word,
    alu (fun _ _ _ => rfl) shr_word, alu (fun _ _ _ => rfl) sar_word, alu (fun _ _ _ => rfl) slt32_word,
    alu (fun _ _ _ => rfl) sltu32_word, alu (m := fun a b => a * b % 2 ^ 32) (fun _ _ _ => rfl) mul_word, alu (g := fun a b => ((a.signExtend 64 * b.signExtend 64 : BitVec 64) >>> 32).setWidth 32) (fun _ _ _ => rfl) mulh_word,
   
    alu (g := fun a b => (((a.setWidth 64 * b.setWidth 64 : BitVec 64) >>> 32).setWidth 32)) (fun _ _ _ => rfl) mulhZ_word,
    alu (fun _ _ _ => rfl) sdiv_word, alu (fun _ _ _ => rfl) udiv_word,
    alu (fun _ _ _ => rfl) srem_word, alu (fun _ _ _ => rfl) urem_word, alu (fun _ _ _ => rfl) smin_word,
    alu (fun _ _ _ => rfl) smax_word, alu (fun _ _ _ => rfl) umin_word, alu (fun _ _ _ => rfl) umax_word,
    fun _ hp => absurd hp List.not_mem_nil⟩

theorem aluImmTable_results (h : s.running = some r) : ∀ p ∈ aluImmTable, ∀ rd ra (imm : BitVec 15),
    exec (p.1 rd ra imm) s = .next (s.afterInstr rd (p.2 (r.k.reg ra) (imm.signExtend 32)) ((r.k.pc + 4) % 2 ^ 32)) := by
  have alu {mk : BitVec 5 → BitVec 5 → BitVec 15 → Instr} {m : Nat → Nat → Nat} {g : Word → Word → Word}
      (hx : ∀ rd ra imm, exec (mk rd ra imm) s = s.aluI rd ra (imm32 imm) m)
      (hm : ∀ x y : Word, m x.toNat y.toNat = (g x y).toNat) (rd ra : BitVec 5) (imm : BitVec 15) :
      exec (mk rd ra imm) s = .next (s.afterInstr rd (g (r.k.reg ra) (imm.signExtend 32)) ((r.k.pc + 4) % 2 ^ 32)) :=
    (hx rd ra imm).trans (State.aluI_next h rd ra (by rw [imm32_eq, hm]))
  simp only [aluImmTable, List.forall_mem_cons]
  exact ⟨alu (fun _ _ _ => rfl) add_word, alu (fun _ _ _ => rfl) fun x y => (BitVec.toNat_and x y).symm,
    alu (fun _ _ _ => rfl) fun x y => (BitVec.toNat_or x y).symm, alu (fun _ _ _ => rfl) fun x y => (BitVec.toNat_xor x y).symm,
    alu (fun _ _ _ => rfl) slt32_word, alu (fun _ _ _ => rfl) sltu32_word, fun _ hp => absurd hp List.not_mem_nil⟩

theorem shiftImmTable_results (h : s.running = some r) : ∀ p ∈ shiftImmTable, ∀ rd ra sh,
    exec (p.1 rd ra sh) s = .next (s.afterInstr rd (p.2 (r.k.reg ra) sh) ((r.k.pc + 4) % 2 ^ 32)) := by
  have alu {mk : BitVec 5 → BitVec 5 → BitVec 5 → Instr} {m : Nat → Nat → Nat} {g : Word → BitVec 5 → Word}
      (hx : ∀ rd ra sh, exec (mk rd ra sh) s = s.aluI rd ra sh.toNat m)
      (hm : ∀ (x : Word) (n : BitVec 5), m x.toNat n.toNat = (g x n).toNat) (rd ra sh : BitVec 5) :
      exec (mk rd ra sh) s = .next (s.afterInstr rd (g (r.k.reg ra) sh) ((r.k.pc + 4) % 2 ^ 32)) :=
    (hx rd ra sh).trans (State.aluI_next h rd ra (hm _ _))
  simp only [shiftImmTable, List.forall_mem_cons]
  exact ⟨alu (fun _ _ _ => rfl) shl32_five, alu (fun _ _ _ => rfl) shr32_five, alu (fun _ _ _ => rfl) sar32_five,
    fun _ hp => absurd hp List.not_mem_nil⟩

theorem branchTable_results (h : s.running = some r) : ∀ p ∈ branchTable, ∀ ra rb (off : BitVec 15),
    exec (p.1 ra rb off) s = .next (s.afterInstr 0 0 (if p.2 (r.k.reg ra) (r.k.reg rb)
      then (BitVec.ofNat 32 r.k.pc + off.signExtend 32 <<< 2 : Word).toNat else (r.k.pc + 4) % 2 ^ 32)) := by
  have br {mk : BitVec 5 → BitVec 5 → BitVec 15 → Instr} {m : Nat → Nat → Bool} {g : Word → Word → Bool}
      (hx : ∀ ra rb off, exec (mk ra rb off) s = s.branch ra rb off m) (hm : ∀ x y : Word, m x.toNat y.toNat = g x y)
      (ra rb : BitVec 5) (off : BitVec 15) :
      exec (mk ra rb off) s = .next (s.afterInstr 0 0 (if g (r.k.reg ra) (r.k.reg rb)
        then (BitVec.ofNat 32 r.k.pc + off.signExtend 32 <<< 2 : Word).toNat else (r.k.pc + 4) % 2 ^ 32)) :=
    (hx ra rb off).trans (State.branch_next h ra rb off hm)
  have heq (x y : Word) : (x.toNat == y.toNat) = (x == y) := by
    rw [Bool.eq_iff_iff, beq_iff_eq, beq_iff_eq, BitVec.toNat_inj]
  have hlt (x y : Word) : decide (sext 32 x.toNat < sext 32 y.toNat) = x.slt y := by rw [sext_toNat, sext_toNat]; rfl
  have hle (x y : Word) : decide (sext 32 y.toNat ≤ sext 32 x.toNat) = y.sle x := by rw [sext_toNat, sext_toNat]; rfl
  have hult (x y : Word) : decide (x.toNat < y.toNat) = x.ult y := rfl
  have hule (x y : Word) : decide (y.toNat ≤ x.toNat) = y.ule x := rfl
  simp only [branchTable, List.forall_mem_cons]
  exact ⟨br (fun _ _ _ => rfl) heq, br (fun _ _ _ => rfl) fun x y => congrArg not (heq x y), br (m := fun a b => decide (sext 32 a < sext 32 b)) (g := fun a b => a.slt b) (fun _ _ _ => rfl) hlt,
    br (m := fun a b => decide (sext 32 b ≤ sext 32 a)) (g := fun a b => b.sle a) (fun _ _ _ => rfl) hle, br (m := fun a b => decide (a < b)) (g := fun a b => a.ult b) (fun _ _ _ => rfl) hult,
    br (m := fun a b => decide (b ≤ a)) (g := fun a b => b.ule a) (fun _ _ _ => rfl) hule,
    fun _ hp => absurd hp List.not_mem_nil⟩

end

/-- Settles O24: each form retires with the value of its operation, or goes on at its target. -/
theorem controlCoreResults : Obligations.ControlCoreResults := by
  unfold Obligations.ControlCoreResults
  intro s r h next
  have hk := State.qcc_cur h
  have hpc : BitVec.ofNat 32 (r.k.pc + 4) = BitVec.ofNat 32 r.k.pc + 4 := BitVec.ofNat_add ..
  have hlink (rd : BitVec 5) (t : Word) :
      (s.modCur fun k => (k.setX rd (r.k.pc + 4)).go t.toNat) = s.afterInstr rd (BitVec.ofNat 32 r.k.pc + 4) t.toNat := by
    rw [State.modCur, Qcc.setX_go, hpc, Nat.mod_eq_of_lt t.isLt]
    rfl
  refine ⟨aluTable_results h, aluImmTable_results h, shiftImmTable_results h, fun rd imm => ?_, branchTable_results h,
    fun rd off => ?_, fun rd ra imm => ?_⟩
  · show execLui rd imm s = _
    unfold execLui
    simp only [h]
    rw [lui_word, State.retire_eq h]
  · show execJal rd off s = _
    unfold execJal
    simp only [h]
    rw [target_word, hlink]
  · have ht : add32 (r.reg ra) (imm32 imm) = (r.k.reg ra + imm.signExtend 32).toNat := by rw [imm32_eq]; exact add_word _ _
    show execJalr rd ra imm s = _
    unfold execJalr
    simp only [h, ht]
    by_cases halign : (r.k.reg ra + imm.signExtend 32).toNat % 4 = 0
    · rw [if_neg (not_not_intro halign), if_pos halign, hlink]
    · rw [if_pos halign, if_neg halign]
      rfl

end Sys2Proof.Machine

/-! SUPPORT. What the accesses of a task to control memory come to: loads, stores and `amo` (R86, R286, R287). -/

namespace Sys2Proof.Machine

theorem memByte_memWrite {m : Memory} (a n v x : Nat) (h : m.wf = true) : memByte (memWrite m a n v) x =
    if a ≤ x ∧ x < a + n then BitVec.ofNat 8 (v / 256 ^ (x - a)) else memByte m x := by
  split
  next hx =>
    have hin := memByte_memWrite_inside (a := a) (v := v) h (show x - a < n by omega)
    rwa [show a + (x - a) = x by omega] at hin
  next hx => exact memByte_memWrite_outside h (by omega)

theorem ctlRegions_one {a n : Nat} (h : a / 4096 = (a + n - 1) / 4096) : ctlRegions a n = [a / 4096] := by
  rw [ctlRegions, ← h, show a / 4096 + 1 - a / 4096 = 1 by omega]
  rfl

section
variable (s : State)

@[simp] theorem State.qcc_setQcc (q q' : Nat) (k : Qcc) : (s.setQcc q k).qcc q' = if q' = q then k else s.qcc q' := by
  rw [State.qcc, State.setQcc, tabGet_tabPut]
  split <;> rfl

/-- Only the running control core differs, and it has become `k`. -/
structure QccEdit (s t : State) (k : Qcc) : Prop where
  frame : ∃ x, t = { s with qccs := x }
  others : ∀ q, q ≠ s.cur → t.qcc q = s.qcc q
  own : t.qcc s.cur = k

/-- As `QccEdit`, but for control memory, which has become `m`, and the sets of its regions. -/
structure CtlEdit (s t : State) (k : Qcc) (m : Memory) : Prop where
  frame : ∃ x y z, t = { s with qccs := x, ctl := y, ctlRegion := z }
  others : ∀ q, q ≠ s.cur → t.qcc q = s.qcc q
  own : t.qcc s.cur = k
  ctl : t.ctl = m

end

section
variable {s t : State} {k : Qcc} {m : Memory} {r : TaskRun}

theorem QccEdit.refl (s : State) : QccEdit s s (s.qcc s.cur) := ⟨⟨_, rfl⟩, fun _ _ => rfl, rfl⟩

theorem QccEdit.eq (h : QccEdit s t k) : t = { s with qccs := t.qccs } := by
  obtain ⟨x, rfl⟩ := h.frame
  rfl

theorem CtlEdit.eq (h : CtlEdit s t k m) : t = { s with qccs := t.qccs, ctl := t.ctl, ctlRegion := t.ctlRegion } := by
  obtain ⟨x, y, z, rfl⟩ := h.frame
  rfl

theorem QccEdit.cur (h : QccEdit s t k) : t.cur = s.cur := by
  obtain ⟨x, rfl⟩ := h.frame
  rfl

theorem CtlEdit.cur (h : CtlEdit s t k m) : t.cur = s.cur := by
  obtain ⟨x, y, z, rfl⟩ := h.frame
  rfl

theorem QccEdit.modCur (h : QccEdit s t k) (g : Qcc → Qcc) : QccEdit s (t.modCur g) (g k) := by
  have hcur := h.cur
  refine ⟨?_, fun q hq => ?_, ?_⟩
  · obtain ⟨x, rfl⟩ := h.frame
    exact ⟨_, rfl⟩
  · rw [State.modCur, State.qcc_setQcc, hcur, if_neg hq, h.others q hq]
  · rw [State.modCur, State.qcc_setQcc, hcur, if_pos rfl, h.own]

theorem CtlEdit.modCur (h : CtlEdit s t k m) (g : Qcc → Qcc) : CtlEdit s (t.modCur g) (g k) m := by
  have hcur := h.cur
  refine ⟨?_, fun q hq => ?_, ?_, h.ctl⟩
  · obtain ⟨x, y, z, rfl⟩ := h.frame
    exact ⟨_, _, _, rfl⟩
  · rw [State.modCur, State.qcc_setQcc, hcur, if_neg hq, h.others q hq]
  · rw [State.modCur, State.qcc_setQcc, hcur, if_pos rfl, h.own]

theorem QccEdit.store (h : QccEdit s t k) (x : Nat) (g : Handle) (m : Memory) :
    CtlEdit s { t.setRegion r.q x g with ctl := m } k m := by
  refine ⟨?_, h.others, h.own, rfl⟩
  obtain ⟨x, rfl⟩ := h.frame
  exact ⟨_, _, _, rfl⟩

theorem QccEdit.taskSet (h : QccEdit s t k) {tk : Task} (hk : k.task = some tk) : t.taskSet = tk.set := by
  rw [State.taskSet, h.cur, h.own, hk]

theorem QccEdit.union (h : QccEdit s t k) (x y : Handle) : t.union x y = s.union x y := by
  obtain ⟨x, rfl⟩ := h.frame
  rfl

theorem QccEdit.regionSet (h : QccEdit s t k) (q x : Nat) : t.regionSet q x = s.regionSet q x := by
  obtain ⟨x, rfl⟩ := h.frame
  rfl

theorem QccEdit.ctl (h : QccEdit s t k) : t.ctl = s.ctl := by
  obtain ⟨x, rfl⟩ := h.frame
  rfl

theorem QccEdit.errs (h : QccEdit s t k) : t.errs = s.errs := by
  obtain ⟨x, rfl⟩ := h.frame
  rfl

/-! ### The task set grows, and bytes are read and written -/

theorem State.taskGrow_ok (h : QccEdit s t k) {tk : Task} (hk : k.task = some tk) {x g : Handle} (hu : s.union tk.set x = .ok g) :
    ∃ t', t.taskGrow r x = .ok () t' ∧ QccEdit s t' { k with task := some { tk with set := g } } := by
  unfold State.taskGrow
  rw [h.taskSet hk, h.union, hu]
  by_cases hg : g = tk.set
  · refine ⟨t, congrArg _ (if_pos hg), ?_⟩
    have hsame : ({ k with task := some { tk with set := g } } : Qcc) = k := by rw [hg, ← hk]
    rwa [hsame]
  · refine ⟨t.setTaskSet g, congrArg _ (if_neg hg), ?_⟩
    have hset := h.modCur fun k => { k with task := k.task.map fun t => { t with set := g } }
    rwa [hk] at hset

theorem State.readErrs_none (he : s.errs = []) (st : Store) (a n ctx : Nat) : s.readErrs st a n ctx = s := by
  unfold State.readErrs State.marksIn
  rw [he]
  rfl

theorem State.uncIn_none (he : s.errs = []) (st : Store) (a n : Nat) : s.uncIn st a n = false := by
  unfold State.uncIn State.marksIn
  rw [he]
  rfl

theorem State.partUnc_none (he : s.errs = []) (st : Store) (a n : Nat) : s.partUnc st a n = false := by
  unfold State.partUnc State.marksIn
  rw [he]
  rfl

theorem State.writeErrs_none (he : s.errs = []) (st : Store) (a n : Nat) : s.writeErrs st a n = s := by
  unfold State.writeErrs
  rw [he]
  exact congrArg (fun e => { s with errs := e }) he.symm

/-- A load of bytes of one region whose union is known. -/
theorem State.ctlLoad_ok (h : QccEdit s t k) {tk : Task} (hk : k.task = some tk) (he : s.errs = []) {a n : Nat}
    (hr : a / 4096 = (a + n - 1) / 4096) {g : Handle} (hu : s.union tk.set (s.regionSet r.q (a / 4096)) = .ok g) :
    ∃ t', t.ctlLoad r a n = .ok (memRead s.ctl (r.q * 65536 + a) n) t' ∧
      QccEdit s t' { k with task := some { tk with set := g } } := by
  obtain ⟨t', hgrow, hedit⟩ := State.taskGrow_ok (r := r) h hk hu
  refine ⟨t', ?_, hedit⟩
  have he' : t'.errs = [] := by rw [hedit.errs, he]
  have hby : t.growBy r [a / 4096] = .ok () t' := by
    unfold State.growBy
    rw [h.regionSet, hgrow]
    rfl
  unfold State.ctlLoad
  rw [ctlRegions_one hr, hby]
  simp only [Sync.bind, State.uncIn_none he', State.readErrs_none he', hedit.ctl]
  rfl

/-- A store of bytes of one region whose union is known. -/
theorem State.ctlStore_ok (h : QccEdit s t k) {tk : Task} (hk : k.task = some tk) (he : s.errs = []) {a n v : Nat}
    (hr : a / 4096 = (a + n - 1) / 4096) {g : Handle} (hu : s.union (s.regionSet r.q (a / 4096)) tk.set = .ok g) :
    ∃ t', t.ctlStore r a n v = .ok () t' ∧ CtlEdit s t' k (memWrite s.ctl (r.q * 65536 + a) n v) := by
  have he' : t.errs = [] := by rw [h.errs, he]
  have hgrow : t.regionGrow r.q t.taskSet [a / 4096] = .inl (some [(a / 4096, g)]) := by
    unfold State.regionGrow
    rw [h.taskSet hk, h.regionSet, h.union, hu]
    rfl
  refine ⟨_, ?_, h.store (r := r) (a / 4096) g _⟩
  unfold State.ctlStore
  rw [ctlRegions_one hr, hgrow]
  simp only [State.partUnc_none he', List.foldl_cons, List.foldl_nil]
  rw [State.writeErrs_none (s := { t.setRegion r.q (a / 4096) g with
    ctl := memWrite (t.setRegion r.q (a / 4096) g).ctl (r.q * 65536 + a) n v }) he']
  exact congrArg (fun m => Sync.ok () { t.setRegion r.q (a / 4096) g with ctl := memWrite m (r.q * 65536 + a) n v }) h.ctl

end

/-! ### The instructions -/

theorem TaskRun.ea_eq (r : TaskRun) (ra : BitVec 5) (imm : BitVec 15) :
    r.ea ra imm = (r.k.reg ra + imm.signExtend 32).toNat := by
  rw [TaskRun.ea, imm32_eq]
  exact add_word _ _

theorem eaCheck_none {a n : Nat} (ha : a < 65536) (hn : a % n = 0) : eaCheck a n = none := by
  rw [eaCheck, if_neg (by omega), if_neg (not_not_intro hn)]

/-- An aligned access of 1, 2 or 4 bytes lies in one region. -/
theorem region_of_aligned {a n : Nat} (hn : n ∣ 4096) (h : a % n = 0) : a / 4096 = (a + n - 1) / 4096 := by
  obtain ⟨c, hc⟩ := hn
  have hpos : 0 < n := Nat.pos_of_ne_zero fun h0 => by subst h0; omega
  obtain ⟨b, rfl⟩ := Nat.dvd_of_mod_eq_zero h
  have hb : (n * b + n - 1) / n = b := by
    rw [Nat.add_sub_assoc hpos, Nat.mul_add_div hpos, Nat.div_eq_of_lt (by omega), Nat.add_zero]
  rw [hc, ← Nat.div_div_eq_div_mul, ← Nat.div_div_eq_div_mul, hb, Nat.mul_div_cancel_left b hpos]

section
variable {s : State} {r : TaskRun} {h : Handle}

theorem QccEdit.retire {t : State} {k : Qcc} (he : QccEdit s t k) (rd : BitVec 5) (v : Nat) :
    ∃ u, t.retire rd v = .next u ∧ QccEdit s u { k with
      x := if rd = 0 then k.x else k.x.set rd.toNat (BitVec.ofNat 32 v), pc := (k.pc + 4) % 2 ^ 32,
      task := k.task.map fun t => { t with count := t.count + 1 } } := by
  have hmod := he.modCur fun k => (k.setX rd v).go (k.pc + 4)
  rw [Qcc.setX_go] at hmod
  exact ⟨_, rfl, hmod⟩

theorem CtlEdit.retire {t : State} {k : Qcc} {m : Memory} (he : CtlEdit s t k m) (rd : BitVec 5) (v : Nat) :
    ∃ u, t.retire rd v = .next u ∧ CtlEdit s u { k with
      x := if rd = 0 then k.x else k.x.set rd.toNat (BitVec.ofNat 32 v), pc := (k.pc + 4) % 2 ^ 32,
      task := k.task.map fun t => { t with count := t.count + 1 } } m := by
  have hmod := he.modCur fun k => (k.setX rd v).go (k.pc + 4)
  rw [Qcc.setX_go] at hmod
  exact ⟨_, rfl, hmod⟩

theorem QccEdit.running (hr : s.running = some r) : QccEdit s s r.k := State.qcc_cur hr ▸ QccEdit.refl s

theorem State.qccLoad_next (hr : s.running = some r) (he : s.errs = []) (rd ra : BitVec 5) (imm : BitVec 15) {n : Nat} (g : Nat → Nat)
    (hn : n ∣ 4096) (ha : r.ea ra imm < 65536) (hal : r.ea ra imm % n = 0)
    (hu : s.union r.t.set (s.regionSet r.q (r.ea ra imm / 4096)) = .ok h) :
    ∃ t, s.qccLoad rd ra imm n g = .next t ∧ QccEdit s t { r.k with
      x := if rd = 0 then r.k.x else r.k.x.set rd.toNat (BitVec.ofNat 32 (g (memRead s.ctl (r.q * 65536 + r.ea ra imm) n))),
      pc := (r.k.pc + 4) % 2 ^ 32, task := r.k.task.map fun t => { t with set := h, count := t.count + 1 } } := by
  have hreg := region_of_aligned hn hal
  have htask := State.running_task hr
  obtain ⟨t, hload, hedit⟩ := State.ctlLoad_ok (r := r) (QccEdit.running hr) htask he hreg hu
  obtain ⟨u, hret, hu⟩ := hedit.retire rd (g (memRead s.ctl (r.q * 65536 + r.ea ra imm) n))
  refine ⟨u, ?_, by rw [htask]; exact hu⟩
  unfold State.qccLoad
  simp only [hr, eaCheck_none ha hal, hload, State.onSync, hret]

theorem State.qccStore_next (hr : s.running = some r) (he : s.errs = []) (ra rb : BitVec 5) (off : BitVec 15) {n : Nat}
    (hn : n ∣ 4096) (ha : r.ea ra off < 65536) (hal : r.ea ra off % n = 0)
    (hu : s.union (s.regionSet r.q (r.ea ra off / 4096)) r.t.set = .ok h) :
    ∃ t, s.qccStore ra rb off n = .next t ∧ CtlEdit s t { r.k with
      pc := (r.k.pc + 4) % 2 ^ 32, task := r.k.task.map fun t => { t with count := t.count + 1 } }
      (memWrite s.ctl (r.q * 65536 + r.ea ra off) n (r.reg rb)) := by
  have hreg := region_of_aligned hn hal
  obtain ⟨t, hstore, hedit⟩ := State.ctlStore_ok (r := r) (v := r.reg rb) (QccEdit.running hr) (State.running_task hr) he hreg hu
  refine ⟨_, ?_, hedit.modCur fun k => k.go (k.pc + 4)⟩
  unfold State.qccStore
  simp only [hr, eaCheck_none ha hal, hstore, State.onSync]
  rfl

theorem State.amoCtl_next (hr : s.running = some r) (he : s.errs = []) (rd ra rb : BitVec 5) (aop : Nat) {g : Handle}
    (ha : r.reg ra < 65536) (hal : r.reg ra % 4 = 0) (hu : s.union r.t.set (s.regionSet r.q (r.reg ra / 4096)) = .ok h)
    (hg : s.union (s.regionSet r.q (r.reg ra / 4096)) h = .ok g) :
    ∃ t, s.amoCtl r rd ra rb aop = .next t ∧ CtlEdit s t { r.k with
      x := if rd = 0 then r.k.x else r.k.x.set rd.toNat (BitVec.ofNat 32 (memRead s.ctl (r.q * 65536 + r.reg ra) 4)),
      pc := (r.k.pc + 4) % 2 ^ 32, task := r.k.task.map fun t => { t with set := h, count := t.count + 1 } }
      (memWrite s.ctl (r.q * 65536 + r.reg ra) 4 (atomNew aop (memRead s.ctl (r.q * 65536 + r.reg ra) 4)
        (if aop = 10 then r.reg rd else r.reg rb) (r.reg rb))) := by
  have hreg := region_of_aligned (show 4 ∣ 4096 by decide) hal
  have htask := State.running_task hr
  obtain ⟨t, hload, hedit⟩ := State.ctlLoad_ok (r := r) (QccEdit.running hr) htask he hreg hu
  obtain ⟨u, hstore, hedit⟩ := State.ctlStore_ok (r := r) (v := atomNew aop (memRead s.ctl (r.q * 65536 + r.reg ra) 4)
    (if aop = 10 then r.reg rd else r.reg rb) (r.reg rb)) hedit rfl he hreg hg
  obtain ⟨v, hret, hedit⟩ := hedit.retire rd (memRead s.ctl (r.q * 65536 + r.reg ra) 4)
  refine ⟨v, ?_, by rw [htask]; exact hedit⟩
  unfold State.amoCtl
  simp only [eaCheck_none ha hal, hload, State.onSync, hstore, hret]

/-! ### Sign extension of a loaded value -/

theorem sx32_eight (v : Nat) : (BitVec.ofNat 32 (sx32 8 v) : Word) = (BitVec.ofNat 8 v).signExtend 32 := by
  rw [sx32, wrapTo_eq, BitVec.ofNat_toNat, BitVec.setWidth_eq, BitVec.signExtend, BitVec.toInt_eq_toNat_cond, sext]
  congr 1
  rw [BitVec.toNat_ofNat]
  split <;> split <;> omega

theorem sx32_sixteen (v : Nat) : (BitVec.ofNat 32 (sx32 16 v) : Word) = (BitVec.ofNat 16 v).signExtend 32 := by
  rw [sx32, wrapTo_eq, BitVec.ofNat_toNat, BitVec.setWidth_eq, BitVec.signExtend, BitVec.toInt_eq_toNat_cond, sext]
  congr 1
  rw [BitVec.toNat_ofNat]
  split <;> split <;> omega

end

/-- Settles O25: one region holds the bytes, its union is known, and nothing else is touched. -/
theorem controlMemoryResults : Obligations.ControlMemoryResults := by
  unfold Obligations.ControlMemoryResults
  intro s r h hr he next after
  refine ⟨?_, ?_, ?_⟩
  · have load {mk : BitVec 5 → BitVec 5 → BitVec 15 → Instr} {n : Nat} (g : Nat → Nat) (w : Nat → Word)
        (hx : ∀ rd ra imm, exec (mk rd ra imm) s = s.qccLoad rd ra imm n g) (hw : ∀ v, BitVec.ofNat 32 (g v) = w v)
        (hn : n ∣ 4096) (rd ra : BitVec 5) (imm : BitVec 15) (ha : (r.k.reg ra + imm.signExtend 32).toNat < 65536)
        (hal : (r.k.reg ra + imm.signExtend 32).toNat % n = 0)
        (hu : s.union r.t.set (s.regionSet r.q ((r.k.reg ra + imm.signExtend 32).toNat / 4096)) = .ok h) :
        ∃ t, exec (mk rd ra imm) s = .next t ∧ t = { s with qccs := t.qccs } ∧ (∀ q, q ≠ s.cur → t.qcc q = s.qcc q) ∧
          t.qcc s.cur = { r.k with
            x := if rd = 0 then r.k.x
              else r.k.x.set rd.toNat (w (memRead s.ctl (r.q * 65536 + (r.k.reg ra + imm.signExtend 32).toNat) n)),
            pc := next, task := after h } := by
      rw [← TaskRun.ea_eq] at *
      obtain ⟨t, ht, hedit⟩ := State.qccLoad_next hr he rd ra imm g hn ha hal hu
      rw [hw] at hedit
      exact ⟨t, (hx rd ra imm).trans ht, hedit.eq, hedit.others, hedit.own⟩
    simp only [ctlLoads, List.forall_mem_cons]
    exact ⟨load (sx32 8) _ (fun _ _ _ => rfl) sx32_eight (by decide), load id _ (fun _ _ _ => rfl) (fun _ => rfl) (by decide),
      load (sx32 16) _ (fun _ _ _ => rfl) sx32_sixteen (by decide), load id _ (fun _ _ _ => rfl) (fun _ => rfl) (by decide),
      load id _ (fun _ _ _ => rfl) (fun _ => rfl) (by decide), fun _ hp => absurd hp List.not_mem_nil⟩
  · have store {mk : BitVec 5 → BitVec 5 → BitVec 15 → Instr} {n : Nat}
        (hx : ∀ ra rb off, exec (mk ra rb off) s = s.qccStore ra rb off n)
        (hn : n ∣ 4096) (ra rb : BitVec 5) (off : BitVec 15) (ha : (r.k.reg ra + off.signExtend 32).toNat < 65536)
        (hal : (r.k.reg ra + off.signExtend 32).toNat % n = 0)
        (hu : s.union (s.regionSet r.q ((r.k.reg ra + off.signExtend 32).toNat / 4096)) r.t.set = .ok h) (hwf : s.ctl.wf = true) :
        ∃ t, exec (mk ra rb off) s = .next t ∧ t = { s with qccs := t.qccs, ctl := t.ctl, ctlRegion := t.ctlRegion } ∧
          (∀ q, q ≠ s.cur → t.qcc q = s.qcc q) ∧ t.qcc s.cur = { r.k with pc := next, task := after r.t.set } ∧
          ∀ x, memByte t.ctl x = if r.q * 65536 + (r.k.reg ra + off.signExtend 32).toNat ≤ x ∧
              x < r.q * 65536 + (r.k.reg ra + off.signExtend 32).toNat + n
            then BitVec.ofNat 8 ((r.k.reg rb).toNat / 256 ^ (x - (r.q * 65536 + (r.k.reg ra + off.signExtend 32).toNat)))
            else memByte s.ctl x := by
      rw [← TaskRun.ea_eq] at *
      obtain ⟨t, ht, hedit⟩ := State.qccStore_next hr he ra rb off hn ha hal hu
      refine ⟨t, (hx ra rb off).trans ht, hedit.eq, hedit.others, ?_, fun x => ?_⟩
      · rw [hedit.own]
        simp only [after, State.running_task hr, next, Option.map_some]
      · rw [hedit.ctl]
        exact memByte_memWrite _ _ _ _ hwf
    simp only [ctlStores, List.forall_mem_cons]
    exact ⟨store (fun _ _ _ => rfl) (by decide), store (fun _ _ _ => rfl) (by decide), store (fun _ _ _ => rfl) (by decide),
      fun _ hp => absurd hp List.not_mem_nil⟩
  · intro rd ra rb aop g a old new ha hal haop hu hg hwf
    obtain ⟨t, ht, hedit⟩ := State.amoCtl_next hr he rd ra rb aop.toNat ha hal hu hg
    have hx : exec (.amo rd ra rb 0 aop) s = s.amoCtl r rd ra rb aop.toNat := by
      show execAmo rd ra rb 0 aop s = _
      unfold execAmo
      simp only [hr]
      rw [if_neg (by omega), if_neg (by decide)]
    have hten : aop.toNat = 10 ↔ aop = 10 := by rw [← BitVec.toNat_inj]; rfl
    refine ⟨t, hx.trans ht, hedit.eq, hedit.others, hedit.own, fun x => ?_⟩
    rw [hedit.ctl, memByte_memWrite _ _ _ _ hwf]
    have hv : (if aop.toNat = 10 then r.reg rd else r.reg rb) = (if aop = 10 then r.k.reg rd else r.k.reg rb).toNat := by
      simp only [hten]
      split <;> rfl
    rw [hv]
    rfl

end Sys2Proof.Machine

/-! SUPPORT. What a unit's accesses to a resident word of the SRAM come to, and the global accesses of a task (R28, R81, R286, R287). -/

namespace Sys2Proof.Machine

/-- Of the SRAM the bytes have become `m`; besides, only plots and the counts of the dies differ. -/
def SramEdit (s t : State) (m : Memory) : Prop := ∃ p d, t = { s with sram := m, plots := p, dies := d }

section
variable {s t : State} {m : Memory} {w : Who} {logical : Bool} {a align size pa : Nat} {h : Handle}

theorem SramEdit.spend (he : SramEdit s t m) (p : Place) (part : Nat) : SramEdit s (t.spend p part) m := by
  obtain ⟨x, y, rfl⟩ := he
  exact ⟨_, _, rfl⟩

theorem SramEdit.setPlace (he : SramEdit s t m) (pa : Nat) (g : Handle) : SramEdit s (t.setPlace (.sram pa) g) m := by
  obtain ⟨x, y, rfl⟩ := he
  unfold State.setPlace
  dsimp only
  split <;> exact ⟨_, _, rfl⟩

theorem SramEdit.refl (s : State) : SramEdit s s s.sram := ⟨_, _, rfl⟩

theorem SramEdit.write (s : State) (m : Memory) : SramEdit s { s with sram := m } m := ⟨_, _, rfl⟩

theorem SramEdit.qcc (he : SramEdit s t m) (q : Nat) : t.qcc q = s.qcc q := by
  obtain ⟨x, y, rfl⟩ := he
  rfl

theorem SramEdit.cur (he : SramEdit s t m) : t.cur = s.cur := by
  obtain ⟨x, y, rfl⟩ := he
  rfl

theorem SramEdit.union (he : SramEdit s t m) (x y : Handle) : t.union x y = s.union x y := by
  obtain ⟨x, y, rfl⟩ := he
  rfl

theorem SramEdit.sram (he : SramEdit s t m) : t.sram = m := by
  obtain ⟨x, y, rfl⟩ := he
  rfl

theorem SramEdit.hbm (he : SramEdit s t m) : t.hbm = s.hbm := by
  obtain ⟨x, y, rfl⟩ := he
  rfl

theorem SramEdit.ctl (he : SramEdit s t m) : t.ctl = s.ctl := by
  obtain ⟨x, y, rfl⟩ := he
  rfl

/-- An edit of the SRAM, and then of the running core. -/
theorem SramEdit.rest (he : SramEdit s t m) {u : State} {k : Qcc} (hq : QccEdit t u k) :
    u.sram = m ∧ u.hbm = s.hbm ∧ u.ctl = s.ctl ∧ u.elems = s.elems ∧ (∀ q, q ≠ s.cur → u.qcc q = s.qcc q) ∧ u.qcc s.cur = k := by
  have hown := hq.own
  have hothers := hq.others
  rw [he.cur] at hown hothers
  obtain ⟨x, hu⟩ := hq.frame
  refine ⟨?_, ?_, ?_, ?_, fun q hne => (hothers q hne).trans (he.qcc q), hown⟩
  all_goals
    obtain ⟨p, d, rfl⟩ := he
    rw [hu]

theorem State.unitPlace_sram {kind : Nat} (hf : s.sramFit w.part logical a align pa (kind != 0)) :
    s.unitPlace w logical a align kind h = .ok (.sram pa) s := by
  obtain ⟨hcheck, hawake, hres, hzero, -⟩ := hf
  unfold State.unitPlace
  rw [hcheck]
  dsimp only
  rw [if_pos hawake]
  unfold State.unitResident
  dsimp only
  rw [if_pos hres, hzero]
  rfl

theorem State.writePlace_sram (he : s.errs = []) (pa n v : Nat) :
    s.writePlace (.sram pa) n v = { s with sram := memWrite s.sram pa n v } :=
  State.writeErrs_none (s := { s with sram := memWrite s.sram pa n v }) he .bank pa n

theorem State.writeCode_sram (he : s.errs = []) (pa n : Nat) : s.writeCode (.sram pa) n = 0 := by
  simp only [State.writeCode, State.partUnc_none he]
  rfl

theorem State.readCode_sram (he : s.errs = []) (pa n : Nat) : s.readCode (.sram pa) n = 0 := by
  simp only [State.readCode, State.uncIn_none he]
  rfl

theorem State.unitReadAt_sram (hf : s.sramFit w.part logical a align pa false) :
    s.unitReadAt w logical a align size h =
      .ok (memRead s.sram pa size, s.placeHandle (.sram pa)) (s.spend (.sram pa) w.part) := by
  have he := hf.2.2.2.2
  unfold State.unitReadAt
  rw [State.unitPlace_sram (kind := 0) hf]
  simp only [Sync.bind, State.readCode_sram he, State.meetErrs, State.readErrs_none he]
  rfl

theorem State.unitWriteAt_sram {v : Nat} {g : Handle} (hf : s.sramFit w.part logical a align pa true)
    (hg : s.grown (.sram pa) h = .ok g) :
    s.unitWriteAt w logical a align size v h =
      .ok () (({ s with sram := memWrite s.sram pa size v }.setPlace (.sram pa) g).spend (.sram pa) w.part) := by
  have he := hf.2.2.2.2
  unfold State.unitWriteAt
  rw [State.unitPlace_sram (kind := 1) hf]
  simp only [Sync.bind, hg, State.writeCode_sram he, State.writePlace_sram he]
  rfl

theorem State.unitAtom_sram {aop v v2 : Nat} {g : Handle} (hf : s.sramFit w.part logical a 4 pa true)
    (hg : s.grown (.sram pa) h = .ok g) :
    s.unitAtom w logical a aop v v2 h = .ok (memRead s.sram pa 4, s.placeHandle (.sram pa))
      (({ s with sram := memWrite s.sram pa 4 (atomNew aop (memRead s.sram pa 4) v v2) }.setPlace (.sram pa) g).spend
        (.sram pa) w.part) := by
  have he := hf.2.2.2.2
  unfold State.unitAtom
  rw [State.unitPlace_sram (kind := 2) hf]
  simp only [Sync.bind, hg, State.readCode_sram he, State.meetErrs, State.readErrs_none he, State.writePlace_sram he]
  rfl

theorem SramEdit.written (s : State) (m : Memory) (pa part : Nat) (g : Handle) :
    SramEdit s (({ s with sram := m }.setPlace (.sram pa) g).spend (.sram pa) part) m :=
  ((SramEdit.write s m).setPlace pa g).spend _ part

end

/-! ### The global accesses of a task -/

section
variable {s t : State} {m : Memory} {r : TaskRun} {pa : Nat} {h g : Handle}

theorem SramEdit.running (he : SramEdit s t m) (hr : s.running = some r) : QccEdit t t r.k := by
  rw [← State.qcc_cur hr, ← he.cur, ← he.qcc]
  exact QccEdit.refl t

theorem SramEdit.loadedGrow (he : SramEdit s t m) (hr : s.running = some r) (a : Nat) {x : Handle}
    (hu : s.union r.t.set x = .ok h) (f : State → Res) :
    ∃ u, s.loadedGrow t r a x f = f u ∧ QccEdit t u { r.k with task := some { r.t with set := h } } := by
  obtain ⟨u, hgrow, hedit⟩ := State.taskGrow_ok (r := r) (he.running hr) (State.running_task hr) ((he.union _ _).trans hu)
  refine ⟨u, ?_, hedit⟩
  unfold State.loadedGrow
  rw [hgrow]

theorem State.taskSet_running (hr : s.running = some r) : s.taskSet = r.t.set :=
  (QccEdit.running hr).taskSet (State.running_task hr)

theorem State.lwg_next (hr : s.running = some r) (rd ra : BitVec 5) (imm : BitVec 15)
    (hf : s.sramFit r.part false (r.gva (r.ea ra imm)) 4 pa false) (hu : s.union r.t.set (s.placeHandle (.sram pa)) = .ok h) :
    ∃ t u, exec (.lwg rd ra imm) s = .next u ∧ SramEdit s t s.sram ∧ QccEdit t u { r.k with
      x := if rd = 0 then r.k.x else r.k.x.set rd.toNat (BitVec.ofNat 32 (memRead s.sram pa 4)),
      pc := (r.k.pc + 4) % 2 ^ 32, task := r.k.task.map fun t => { t with set := h, count := t.count + 1 } } := by
  have hsp : SramEdit s (s.spend (.sram pa) r.part) s.sram := (SramEdit.refl s).spend _ _
  obtain ⟨u, hgrow, hedit⟩ := hsp.loadedGrow hr (r.ea ra imm) hu fun s2 => s2.retire rd (memRead s.sram pa 4)
  obtain ⟨v, hret, hedit⟩ := hedit.retire rd (memRead s.sram pa 4)
  refine ⟨_, v, ?_, hsp, by rw [State.running_task hr]; exact hedit⟩
  show execLwg rd ra imm s = _
  unfold execLwg
  simp only [hr, State.taskSet_running hr]
  rw [State.unitRead, State.unitReadAt_sram (w := r.who) hf]
  exact hgrow.trans hret

theorem State.swg_next (hr : s.running = some r) (ra rb : BitVec 5) (off : BitVec 15)
    (hf : s.sramFit r.part false (r.gva (r.ea ra off)) 4 pa true) (hg : s.grown (.sram pa) r.t.set = .ok g) :
    ∃ t u, exec (.swg ra rb off) s = .next u ∧ SramEdit s t (memWrite s.sram pa 4 (r.reg rb)) ∧ QccEdit t u { r.k with
      pc := (r.k.pc + 4) % 2 ^ 32, task := r.k.task.map fun t => { t with count := t.count + 1 } } := by
  have hw := SramEdit.written s (memWrite s.sram pa 4 (r.reg rb)) pa r.part g
  refine ⟨_, _, ?_, hw, (hw.running hr).modCur fun k => k.go (k.pc + 4)⟩
  show execSwg ra rb off s = _
  unfold execSwg
  simp only [hr, State.taskSet_running hr]
  rw [State.unitWrite, State.unitWriteAt_sram (w := r.who) hf hg]
  rfl

theorem State.amoGlobal_next (hr : s.running = some r) (rd ra rb : BitVec 5) (aop : Nat)
    (hf : s.sramFit r.part false (r.gva (r.reg ra)) 4 pa true) (hg : s.grown (.sram pa) r.t.set = .ok g)
    (hu : s.union r.t.set (s.placeHandle (.sram pa)) = .ok h) :
    ∃ t u, s.amoGlobal r rd ra rb aop = .next u ∧
      SramEdit s t (memWrite s.sram pa 4 (atomNew aop (memRead s.sram pa 4) (if aop = 10 then r.reg rd else r.reg rb) (r.reg rb))) ∧
      QccEdit t u { r.k with
        x := if rd = 0 then r.k.x else r.k.x.set rd.toNat (BitVec.ofNat 32 (memRead s.sram pa 4)),
        pc := (r.k.pc + 4) % 2 ^ 32, task := r.k.task.map fun t => { t with set := h, count := t.count + 1 } } := by
  have hw := SramEdit.written s (memWrite s.sram pa 4
    (atomNew aop (memRead s.sram pa 4) (if aop = 10 then r.reg rd else r.reg rb) (r.reg rb))) pa r.part g
  obtain ⟨u, hgrow, hedit⟩ := hw.loadedGrow hr (r.reg ra) hu fun s2 => s2.retire rd (memRead s.sram pa 4)
  obtain ⟨v, hret, hedit⟩ := hedit.retire rd (memRead s.sram pa 4)
  obtain ⟨x, htask, -⟩ := State.taskGrow_ok (r := r) (hw.running hr) (State.running_task hr) ((hw.union _ _).trans hu)
  refine ⟨_, v, ?_, hw, by rw [State.running_task hr]; exact hedit⟩
  unfold State.amoGlobal
  simp only [State.taskSet_running hr]
  rw [State.unitAtom_sram (w := r.who) hf hg]
  dsimp only [State.onSync]
  refine Eq.trans ?_ (hgrow.trans hret)
  split
  next hx =>
    have hx := htask.symm.trans hx
    cases hx
  next => rfl

end

/-- Settles O26: the checks pass, the word is resident, and the union with its plot's handle is known. -/
theorem globalAccessResults : Obligations.GlobalAccessResults := by
  unfold Obligations.GlobalAccessResults
  intro s r pa va h g hr he hwf hawake hres hzero next after old pl
  refine ⟨?_, ?_, ?_⟩
  · intro rd ra imm hva hcheck hu
    rw [← TaskRun.ea_eq] at hva
    subst hva
    obtain ⟨t, u, hx, hs, hq⟩ := State.lwg_next hr rd ra imm ⟨hcheck, hawake, hres, hzero, he⟩ hu
    exact ⟨u, hx, hs.rest hq⟩
  · intro ra rb off hva hcheck hg
    rw [← TaskRun.ea_eq] at hva
    subst hva
    obtain ⟨t, u, hx, hs, hq⟩ := State.swg_next hr ra rb off ⟨hcheck, hawake, hres, hzero, he⟩ hg
    obtain ⟨hsram, hhbm, hctl, helems, hothers, hown⟩ := hs.rest hq
    refine ⟨u, hx, hhbm, hctl, helems, hothers, ?_, fun x => ?_⟩
    · rw [hown]
      simp only [after, State.running_task hr, next, Option.map_some]
    · rw [hsram]
      exact memByte_memWrite _ _ _ _ hwf
  · intro rd ra rb aop hva haop hcheck hg hu new
    subst hva
    obtain ⟨t, u, hx, hs, hq⟩ := State.amoGlobal_next hr rd ra rb aop.toNat ⟨hcheck, hawake, hres, hzero, he⟩ hg hu
    obtain ⟨hsram, hhbm, hctl, helems, hothers, hown⟩ := hs.rest hq
    have hexec : exec (.amo rd ra rb 1 aop) s = s.amoGlobal r rd ra rb aop.toNat := by
      show execAmo rd ra rb 1 aop s = _
      unfold execAmo
      simp only [hr]
      rw [if_neg (by omega), if_pos trivial]
    have hten : aop.toNat = 10 ↔ aop = 10 := by rw [← BitVec.toNat_inj]; rfl
    have hv : (if aop.toNat = 10 then r.reg rd else r.reg rb) = (if aop = 10 then r.k.reg rd else r.k.reg rb).toNat := by
      simp only [hten]
      split <;> rfl
    refine ⟨u, hexec.trans hx, hhbm, hctl, helems, hothers, hown, fun x => ?_⟩
    rw [hsram, memByte_memWrite _ _ _ _ hwf, hv]
    rfl

end Sys2Proof.Machine

/-! SUPPORT. Traps, task instructions and system words of the control core (R279, R281, R290 to R293). -/

namespace Sys2Proof.Machine

theorem tabPut_tabPut {α : Type} (t : Tab α) (k : Nat) (x y : α) : tabPut (tabPut t k x) k y = tabPut t k y := by
  induction t with
  | nil => simp [tabPut]
  | cons p t ih =>
    obtain ⟨i, v⟩ := p
    simp only [tabPut]
    split
    next => simp [tabPut]
    next hne =>
      split
      next hlt => simp [tabPut]
      next hge => simp only [tabPut, if_neg hne, if_neg hge, ih]

section
variable {s t : State} {k : Qcc} {r : TaskRun}

theorem State.setQcc_setQcc (s : State) (q : Nat) (k k' : Qcc) : (s.setQcc q k).setQcc q k' = s.setQcc q k' := by
  simp only [State.setQcc, tabPut_tabPut]

theorem State.modCur_modCur (s : State) (f g : Qcc → Qcc) : (s.modCur f).modCur g = s.modCur fun k => g (f k) := by
  unfold State.modCur
  rw [State.setQcc_cur, State.qcc_setQcc, if_pos rfl, State.setQcc_setQcc]

theorem State.modCur_running (h : s.running = some r) (f : Qcc → Qcc) : s.modCur f = s.setQcc s.cur (f r.k) := by
  rw [State.modCur, State.qcc_cur h]

theorem State.retire_next (h : s.running = some r) (rd : BitVec 5) (v : Nat) :
    s.retire rd v = .next (s.afterInstr rd (BitVec.ofNat 32 v) ((r.k.pc + 4) % 2 ^ 32)) := by
  rw [← State.qcc_cur h]
  unfold State.retire State.modCur
  dsimp only
  rw [Qcc.setX_go]
  rfl

/-- A change of the running core's own fields, and the next instruction. -/
theorem State.modCur_retire0 (h : s.running = some r) (f : Qcc → Qcc) :
    (s.modCur f).retire0 = .next (s.setQcc s.cur ((f r.k).go ((f r.k).pc + 4))) := by
  unfold State.retire0
  rw [State.modCur_modCur, State.modCur_running h]

/-! ### Traps -/

theorem Qcc.endTask_running {tk : Task} (h : k.task = some tk) :
    k.endTask true = ({ k with task := none } : Qcc).setChan tk.chan ((k.chan tk.chan).drop 1) := by
  unfold Qcc.endTask
  rw [h]
  rfl

theorem Qcc.endTask_kept {tk : Task} (h : k.task = some tk) : k.endTask false = { k with task := none } := by
  unfold Qcc.endTask
  rw [h]
  rfl

/-- What a change of one context leaves: everything but the contexts. -/
theorem State.modCtx_frame (s : State) (c : Nat) (f : Ctx → Ctx) : ∃ x, s.modCtx c f = { s with ctxs := x } := by
  unfold State.modCtx
  split
  · exact ⟨_, rfl⟩
  · exact ⟨s.ctxs, rfl⟩

theorem State.ctx?_setCtx (s : State) (c c' : Nat) (v : Ctx) : (s.setCtx c v).ctx? c' = if c' = c then some v else s.ctx? c' := by
  rw [State.ctx?, State.setCtx, tabGet_tabPut]
  rfl

theorem State.ctx?_modCtx (s : State) (c : Nat) (f : Ctx → Ctx) : (s.modCtx c f).ctx? c = (s.ctx? c).map f := by
  unfold State.modCtx
  split
  next v hv => rw [State.ctx?_setCtx, if_pos rfl, hv, Option.map_some]
  next hv => rw [hv, Option.map_none]

theorem State.sendQccTrap_frame (s : State) (ctx : Nat) (rec : BitVec 128) (h : Handle) :
    ∃ x, s.sendQccTrap ctx rec h = { s with
      ctxs := x
      trapOut := s.trapOut ++ [{ ctx := ctx, kind := 2, record := rec, spos := 0, snode := 0xFF, count := 1, plate := h }] } := by
  unfold State.sendQccTrap
  obtain ⟨x, hx⟩ := s.modCtx_frame ctx fun c => { c with fault := { c.fault with ntrap := satAdd c.fault.ntrap 1 } }
  rw [hx]
  exact ⟨x, rfl⟩

theorem State.qccTrap_taken (h : s.running = some r) (code word aux : Nat) :
    TrapTaken s (s.qccTrap r code word aux) r code word aux := by
  have hcount : (s.sendQccTrap r.ctx (s.trapRec r code word aux) r.t.set).ctx? r.ctx =
      (s.ctx? r.ctx).map fun c => { c with fault := { c.fault with ntrap := satAdd c.fault.ntrap 1 } } :=
    State.ctx?_modCtx ..
  obtain ⟨x, hx⟩ := s.sendQccTrap_frame r.ctx (s.trapRec r code word aux) r.t.set
  have hsent : QccEdit (s.sendQccTrap r.ctx (s.trapRec r code word aux) r.t.set)
      (s.sendQccTrap r.ctx (s.trapRec r code word aux) r.t.set) r.k := by
    rw [hx, ← State.qcc_cur h]
    exact QccEdit.refl { s with ctxs := x, trapOut := _ }
  have hend := hsent.modCur (·.endTask true)
  rw [Qcc.endTask_running (State.running_task h)] at hend
  have hown := hend.own
  have hothers := hend.others
  obtain ⟨y, hy⟩ := hend.frame
  have hctx : { s.sendQccTrap r.ctx (s.trapRec r code word aux) r.t.set with qccs := y }.ctx? r.ctx = _ := hcount
  rw [hy, hx] at hown hothers
  rw [hx] at hctx
  unfold State.qccTrap
  rw [hy, hx]
  dsimp only
  split
  next h15 =>
    unfold State.beginEnd
    obtain ⟨z, hz⟩ := State.modCtx_frame _ r.ctx _
    rw [hz]
    exact ⟨hown, rfl, rfl, rfl, rfl, rfl, hothers, fun hne => absurd h15.1 hne⟩
  next => exact ⟨hown, rfl, rfl, rfl, rfl, rfl, hothers, fun _ => hctx⟩

theorem State.trapHere_taken (h : s.running = some r) (code aux : Nat) :
    ∃ t, s.trapHere r code aux = .next t ∧ TrapTaken s t r code (s.ctlWord r.q r.k.pc) aux :=
  ⟨_, rfl, State.qccTrap_taken h ..⟩

end

/-! ### Traps of loads and stores -/

section
variable {s : State} {r : TaskRun}

theorem eaCheck_outside {a : Nat} (n : Nat) (h : a ≥ 65536) : eaCheck a n = some 0x82 := if_pos h

theorem eaCheck_unaligned {a n : Nat} (h : a < 65536) (hn : a % n ≠ 0) : eaCheck a n = some 0x11 := by
  rw [eaCheck, if_neg (by omega), if_pos hn]

/-- A load or store at a bad address traps. -/
def TrapsAtBadAddress (s : State) (r : TaskRun) (i : Instr) (a n : Nat) : Prop :=
  (a ≥ 65536 → ∃ t, exec i s = .next t ∧ TrapTaken s t r 0x82 (s.ctlWord r.q r.k.pc) a) ∧
  (a < 65536 → a % n ≠ 0 → ∃ t, exec i s = .next t ∧ TrapTaken s t r 0x11 (s.ctlWord r.q r.k.pc) a)

theorem TrapsAtBadAddress.of_check (h : s.running = some r) {i : Instr} {a n : Nat}
    (hx : ∀ c, eaCheck a n = some c → exec i s = s.trapHere r c a) : TrapsAtBadAddress s r i a n :=
  ⟨fun ha => by rw [hx _ (eaCheck_outside n ha)]; exact State.trapHere_taken h ..,
   fun ha hn => by rw [hx _ (eaCheck_unaligned ha hn)]; exact State.trapHere_taken h ..⟩

theorem State.qccLoad_traps (h : s.running = some r) {i : Instr} {rd ra : BitVec 5} {imm : BitVec 15} {n : Nat} {g : Nat → Nat}
    (hx : exec i s = s.qccLoad rd ra imm n g) : TrapsAtBadAddress s r i (r.k.reg ra + imm.signExtend 32).toNat n := by
  rw [← TaskRun.ea_eq]
  refine .of_check h fun c hc => ?_
  rw [hx]
  unfold State.qccLoad
  simp only [h, hc]

theorem State.qccStore_traps (h : s.running = some r) {i : Instr} {ra rb : BitVec 5} {off : BitVec 15} {n : Nat}
    (hx : exec i s = s.qccStore ra rb off n) : TrapsAtBadAddress s r i (r.k.reg ra + off.signExtend 32).toNat n := by
  rw [← TaskRun.ea_eq]
  refine .of_check h fun c hc => ?_
  rw [hx]
  unfold State.qccStore
  simp only [h, hc]

end

/-- Settles O29: each of them comes to one trap of the running task. -/
theorem controlCoreTraps : Obligations.ControlCoreTraps := by
  unfold Obligations.ControlCoreTraps
  intro s r h w
  refine ⟨fun word => ?_, fun hpc => ?_, fun hcount => ?_, ?_, fun rd ra rb g aop haop => ?_⟩
  · refine ⟨_, ?_, State.qccTrap_taken h 0x81 word.toNat 0⟩
    show execIllegalInstruction word s = _
    unfold execIllegalInstruction
    simp only [h]
  · refine ⟨_, ?_, State.qccTrap_taken h 0x82 0 r.k.pc⟩
    show execFetchFault s.cur s = _
    unfold execFetchFault
    simp only [h]
    exact if_pos hpc
  · obtain ⟨t, ht, htaken⟩ := State.trapHere_taken h 0x84 0
    refine ⟨t, ?_, htaken⟩
    rw [← ht]
    show execTasklong s.cur s = _
    unfold execTasklong
    simp only [h]
    exact if_pos hcount
  · simp only [ctlLoads, ctlStores, List.map_cons, List.map_nil, List.cons_append, List.nil_append, List.forall_mem_cons]
    refine ⟨fun x y imm => ?_, fun x y imm => ?_, fun x y imm => ?_, fun x y imm => ?_, fun x y imm => ?_, fun x y imm => ?_,
      fun x y imm => ?_, fun x y imm => ?_, fun _ hp => absurd hp List.not_mem_nil⟩
    all_goals simp only [reduceCtorEq, or_false, or_self, or_true, if_true, if_false]
    · exact State.qccLoad_traps (n := 1) (g := sx32 8) h rfl
    · exact State.qccLoad_traps (n := 1) (g := id) h rfl
    · exact State.qccLoad_traps (n := 2) (g := sx32 16) h rfl
    · exact State.qccLoad_traps (n := 2) (g := id) h rfl
    · exact State.qccLoad_traps (n := 4) (g := id) h rfl
    · exact State.qccStore_traps (rb := y) (n := 1) h rfl
    · exact State.qccStore_traps (rb := y) (n := 2) h rfl
    · exact State.qccStore_traps (rb := y) (n := 4) h rfl
  · obtain ⟨t, ht, htaken⟩ := State.trapHere_taken h 0x81 0
    refine ⟨t, ?_, htaken⟩
    rw [← ht]
    show execAmo rd ra rb g aop s = _
    unfold execAmo
    simp only [h]
    exact if_pos haop

/-! ### System words -/

section
variable {s : State} {r : TaskRun}

theorem TaskRun.sysNum_eq (r : TaskRun) (ra : BitVec 5) (imm : BitVec 15) :
    r.sysNum ra imm = (r.k.reg ra + imm.signExtend 32).toNat := r.ea_eq ra imm

theorem State.sysr_val (h : s.running = some r) (rd ra : BitVec 5) (imm : BitVec 15) {v : Nat}
    (hv : s.sysRead r (r.k.reg ra + imm.signExtend 32).toNat = .val v) :
    exec (.sysr rd ra imm) s = .next (s.afterInstr rd (BitVec.ofNat 32 v) ((r.k.pc + 4) % 2 ^ 32)) := by
  show execSysr rd ra imm s = _
  unfold execSysr
  simp only [h, TaskRun.sysNum_eq, hv]
  exact State.retire_next h rd v

theorem State.sysr_na (h : s.running = some r) (rd ra : BitVec 5) (imm : BitVec 15)
    (hv : s.sysRead r (r.k.reg ra + imm.signExtend 32).toNat = .na) :
    exec (.sysr rd ra imm) s =
      .next (s.qccTrap r 0x83 (s.ctlWord r.q r.k.pc) (r.k.reg ra + imm.signExtend 32).toNat) := by
  show execSysr rd ra imm s = _
  unfold execSysr
  simp only [h, TaskRun.sysNum_eq, hv]
  rfl

theorem State.sysw_some (h : s.running = some r) (rd ra : BitVec 5) (imm : BitVec 15) {f : Qcc → Qcc}
    (hv : s.sysWrite r (r.k.reg ra + imm.signExtend 32).toNat (r.reg rd) = some (s.modCur f)) :
    exec (.sysw rd ra imm) s = .next (s.setQcc s.cur ((f r.k).go ((f r.k).pc + 4))) := by
  show execSysw rd ra imm s = _
  unfold execSysw
  simp only [h, TaskRun.sysNum_eq, hv]
  exact State.modCur_retire0 h f

theorem State.sysw_none (h : s.running = some r) (rd ra : BitVec 5) (imm : BitVec 15)
    (hv : s.sysWrite r (r.k.reg ra + imm.signExtend 32).toNat (r.reg rd) = none) :
    exec (.sysw rd ra imm) s =
      .next (s.qccTrap r 0x83 (s.ctlWord r.q r.k.pc) (r.k.reg ra + imm.signExtend 32).toNat) := by
  show execSysw rd ra imm s = _
  unfold execSysw
  simp only [h, TaskRun.sysNum_eq, hv]
  rfl

theorem State.sysRead_message {n : Nat} (hn : n ≤ 0x1F) :
    s.sysRead r n = .val (if 4 * n < r.t.msg.bytes then laneAt 32 r.t.msg.pay n else 0) := if_pos hn

theorem State.sysRead_handle {n : Nat} (h1 : 0x71 ≤ n) (h2 : n ≤ 0x74) : s.sysRead r n =
    if r.k.hyp then .val (bitF (s.handleEntry r.k.hsel) (32 * (n - 0x71) + 31) (32 * (n - 0x71))) else .na := by
  obtain rfl | rfl | rfl | rfl : n = 0x71 ∨ n = 0x72 ∨ n = 0x73 ∨ n = 0x74 := by omega
  all_goals rfl

theorem State.sysRead_na {n : Nat}
    (hn : n ∉ List.range 0x28 ++ [0x30, 0x31, 0x32, 0x33, 0x34, 0x42, 0x55, 0x61, 0x71, 0x72, 0x73, 0x74]) :
    s.sysRead r n = .na := by
  simp only [List.mem_append, List.mem_range, List.mem_cons, List.not_mem_nil, or_false, not_or] at hn
  obtain ⟨hbig, hlist⟩ := hn
  unfold State.sysRead
  dsimp only
  rw [if_neg (by omega), if_neg (by omega), if_neg (by omega)]
  split
  case h_13 => rfl
  all_goals exact absurd hlist (by decide)

theorem State.sysWrite_none {n : Nat}
    (hn : n ∉ [0x31, 0x40, 0x41, 0x43, 0x48, 0x49, 0x50, 0x51, 0x52, 0x53, 0x54, 0x60, 0x70]) (v : Nat) :
    s.sysWrite r n v = none := by
  unfold State.sysWrite
  dsimp only
  split
  case h_14 => rfl
  all_goals exact absurd hn (by decide)

end

/-- Settles O28: one word at a time, and none of the words for the last clause of each direction. -/
theorem systemWordResults : Obligations.SystemWordResults := by
  unfold Obligations.SystemWordResults
  intro s r rd ra imm h next n na k0
  have word (v : Word) : BitVec.ofNat 32 v.toNat = v := by rw [BitVec.ofNat_toNat, BitVec.setWidth_eq]
  have read {v : Nat} (hv : s.sysRead r n = .val v) := State.sysr_val h rd ra imm hv
  refine ⟨fun hn => ?_, fun hn => ?_, fun hn => ?_, fun hn => ?_, fun hn => ?_, fun h1 h2 => ?_, fun hn => ?_, fun hn => ?_,
    fun hn => ?_, fun hn => ?_, fun hn => ?_, fun hn => ?_⟩
  · refine (read (State.sysRead_message hn)).trans ?_
    rw [apply_ite (BitVec.ofNat 32)]
    rfl
  · exact read (by rw [hn]; rfl)
  · rw [read (v := r.k.gvahi.toNat) (by rw [hn]; rfl), word]
  · have hlow : BitVec.ofNat 32 (s.counter (r.q / 64) % 2 ^ 32) = BitVec.ofNat 32 (s.counter (r.q / 64)) :=
      BitVec.eq_of_toNat_eq (by rw [BitVec.toNat_ofNat, BitVec.toNat_ofNat, Nat.mod_mod])
    refine (read (v := s.counter (r.q / 64) % 2 ^ 32) (by rw [hn]; rfl)).trans ?_
    rw [hlow]
  · exact read (by rw [hn]; rfl)
  · have hread := State.sysRead_handle (s := s) (r := r) h1 h2
    by_cases hhyp : r.k.hyp = true
    · rw [if_pos hhyp] at hread ⊢
      exact read hread
    · rw [if_neg hhyp] at hread ⊢
      exact State.sysr_na h rd ra imm hread
  · exact State.sysr_na h rd ra imm (State.sysRead_na hn)
  · rw [State.sysw_some h rd ra imm (f := fun k => { k with gvahi := BitVec.ofNat 32 (r.reg rd) })
      (by rw [show (r.k.reg ra + imm.signExtend 32).toNat = 0x31 from hn]; rfl), TaskRun.reg, word]
    rfl
  · rw [State.sysw_some h rd ra imm (f := fun k => { k with xinvlo := BitVec.ofNat 32 (r.reg rd) })
      (by rw [show (r.k.reg ra + imm.signExtend 32).toNat = 0x40 from hn]; rfl), TaskRun.reg, word]
    rfl
  · exact State.sysw_some h rd ra imm (f := fun k => { k with plotsel := r.reg rd % 2 ^ 20 })
      (by rw [show (r.k.reg ra + imm.signExtend 32).toNat = 0x60 from hn]; rfl)
  · have hwrite : s.sysWrite r (r.k.reg ra + imm.signExtend 32).toNat (r.reg rd) =
        if r.k.hyp then some (s.modCur fun k => { k with hsel := r.reg rd % 4096 }) else none := by
      rw [show (r.k.reg ra + imm.signExtend 32).toNat = 0x70 from hn]
      rfl
    by_cases hhyp : r.k.hyp = true
    · rw [if_pos hhyp] at hwrite ⊢
      exact State.sysw_some h rd ra imm hwrite
    · rw [if_neg hhyp] at hwrite ⊢
      exact State.sysw_none h rd ra imm hwrite
  · exact State.sysw_none h rd ra imm (State.sysWrite_none hn _)

end Sys2Proof.Machine

/-! SUPPORT. Task instructions, and the events of the control cores (R276 to R279, R290, R293). -/

namespace Sys2Proof.Machine

section
variable {s t : State} {k : Qcc} {r : TaskRun}

/-- What a change of the running core's own fields leaves, once its instruction has ended. -/
theorem State.modCur_retire0_edit (h : s.running = some r) (f : Qcc → Qcc) :
    ∃ t, (s.modCur f).retire0 = .next t ∧ QccEdit s t ((f r.k).go ((f r.k).pc + 4)) := by
  have hedit := (QccEdit.running h).modCur fun k => (f k).go ((f k).pc + 4)
  rw [← State.modCur_modCur s f fun k => k.go (k.pc + 4)] at hedit
  exact ⟨_, rfl, hedit⟩

theorem Qcc.go_eq (k : Qcc) (pc : Nat) : k.go pc = { k with
    pc := pc % 2 ^ 32, task := k.task.map fun t => { t with count := t.count + 1 } } := rfl

theorem rangeCheck_none {a n : Nat} (hal : a % 4 = 0) (hin : a + n ≤ 65536) : rangeCheck a n = none := by
  rw [rangeCheck, if_neg (not_not_intro hal), if_neg (by omega)]

theorem State.tsend_refused (h : s.running = some r) (rd ra rb len : BitVec 5) (hal : (r.k.reg rb).toNat % 4 = 0)
    (hin : (r.k.reg rb).toNat + 4 * (len.toNat + 1) ≤ 65536) (hto : s.tsendTo r (r.k.reg ra).toNat = none) :
    exec (.tsend rd ra rb len) s = .next (s.afterInstr rd 2 ((r.k.pc + 4) % 2 ^ 32)) := by
  show execTsend rd ra rb len s = _
  unfold execTsend
  simp only [h, show rangeCheck (r.reg rb) (4 * (len.toNat + 1)) = none from rangeCheck_none hal hin,
    show s.tsendTo r (r.reg ra) = none from hto]
  exact State.retire_next h rd 2

theorem State.tsend_full (h : s.running = some r) (rd ra rb len : BitVec 5) (hal : (r.k.reg rb).toNat % 4 = 0)
    (hin : (r.k.reg rb).toNat + 4 * (len.toNat + 1) ≤ 65536) {q : Nat} (hto : s.tsendTo r (r.k.reg ra).toNat = some (some q))
    (hfull : r.k.outq.length ≥ 8) :
    exec (.tsend rd ra rb len) s = .next (s.afterInstr rd 1 ((r.k.pc + 4) % 2 ^ 32)) := by
  show execTsend rd ra rb len s = _
  unfold execTsend
  simp only [h, show rangeCheck (r.reg rb) (4 * (len.toNat + 1)) = none from rangeCheck_none hal hin,
    show s.tsendTo r (r.reg ra) = some (some q) from hto]
  exact (if_pos hfull).trans (State.retire_next h rd 1)

/-- The message that `tsend` forms. -/
def sendToken (ctx : Nat) (len : BitVec 5) (h : Handle) (v : Nat) : Token :=
  { Token.blank ctx with kind := 2, wid := len, plate := h, pay := BitVec.ofNat 1024 v }

theorem State.tsend_sent (h : s.running = some r) (rd ra rb len : BitVec 5) (he : s.errs = []) (hal : (r.k.reg rb).toNat % 4 = 0)
    (hin : (r.k.reg rb).toNat + 4 * (len.toNat + 1) ≤ 65536) {q : Nat} (hto : s.tsendTo r (r.k.reg ra).toNat = some (some q))
    (hroom : r.k.outq.length < 8)
    (hone : (r.k.reg rb).toNat / 4096 = ((r.k.reg rb).toNat + 4 * (len.toNat + 1) - 1) / 4096) {g : Handle}
    (hu : s.union r.t.set (s.regionSet r.q ((r.k.reg rb).toNat / 4096)) = .ok g) :
    ∃ t, exec (.tsend rd ra rb len) s = .next t ∧ QccEdit s t { r.k with
      outq := r.k.outq ++ [(q, bitF (r.k.reg ra).toNat 21 18,
        sendToken r.ctx len g (memRead s.ctl (r.q * 65536 + (r.k.reg rb).toNat) (4 * (len.toNat + 1))))],
      x := if rd = 0 then r.k.x else r.k.x.set rd.toNat 0, pc := (r.k.pc + 4) % 2 ^ 32,
      task := some { r.t with set := g, count := r.t.count + 1 } } := by
  obtain ⟨t, hload, hedit⟩ := State.ctlLoad_ok (r := r) (QccEdit.running h) (State.running_task h) he hone hu
  have hset : t.taskSet = g := hedit.taskSet rfl
  have hmod := hedit.modCur fun k => { k with outq := k.outq ++ [(q, bitF (r.k.reg ra).toNat 21 18,
    sendToken r.ctx len t.taskSet (memRead s.ctl (r.q * 65536 + (r.k.reg rb).toNat) (4 * (len.toNat + 1))))] }
  obtain ⟨u, hret, hdone⟩ := hmod.retire rd 0
  rw [hset] at hdone
  refine ⟨u, ?_, hdone⟩
  show execTsend rd ra rb len s = _
  unfold execTsend
  simp only [h, show rangeCheck (r.reg rb) (4 * (len.toNat + 1)) = none from rangeCheck_none hal hin,
    show s.tsendTo r (r.reg ra) = some (some q) from hto]
  rw [if_neg (by omega), show s.ctlLoad r (r.reg rb) (4 * (len.toNat + 1)) = _ from hload]
  exact hret

theorem State.tpoll_nothing (h : s.running = some r) (rd ra rb : BitVec 5)
    (hno : (r.k.reg ra).toNat ≥ 16 ∨
      (r.k.chan ((r.k.reg ra).toNat % 16))[if (r.k.reg ra).toNat % 16 = r.t.chan then 1 else 0]? = none) :
    exec (.tpoll rd ra rb) s = .next (s.afterInstr rd 0 ((r.k.pc + 4) % 2 ^ 32)) := by
  have hret := State.retire_next h rd 0
  show execTpoll rd ra rb s = _
  unfold execTpoll
  simp only [h]
  by_cases hbig : r.reg ra ≥ 16
  · exact (if_pos hbig).trans hret
  · rw [if_neg hbig, show (r.k.chan (r.reg ra % 16))[if r.reg ra % 16 = r.t.chan then 1 else 0]? = none from
      hno.resolve_left hbig]
    exact hret

theorem State.tpoll_taken (h : s.running = some r) (rd ra rb : BitVec 5) (he : s.errs = []) {m : Token} {i : Nat}
    (hi : i = if (r.k.reg ra).toNat % 16 = r.t.chan then 1 else 0)
    (hsmall : (r.k.reg ra).toNat < 16) (hm : (r.k.chan ((r.k.reg ra).toNat % 16))[i]? = some m)
    (hpos : 0 < m.bytes) (hal : (r.k.reg rb).toNat % 4 = 0) (hin : (r.k.reg rb).toNat + m.bytes ≤ 65536)
    (hone : (r.k.reg rb).toNat / 4096 = ((r.k.reg rb).toNat + m.bytes - 1) / 4096) {g g' : Handle}
    (hu : s.union r.t.set m.plate = .ok g) (hg : s.union (s.regionSet r.q ((r.k.reg rb).toNat / 4096)) g = .ok g') :
    ∃ t, exec (.tpoll rd ra rb) s = .next t ∧ CtlEdit s t { r.k with
      chans := (r.k.setChan ((r.k.reg ra).toNat % 16) (listDrop (r.k.chan ((r.k.reg ra).toNat % 16)) i)).chans, pmh := m.header,
      x := if rd = 0 then r.k.x else r.k.x.set rd.toNat (BitVec.ofNat 32 (m.bytes / 4)), pc := (r.k.pc + 4) % 2 ^ 32,
      task := some { r.t with set := g, count := r.t.count + 1 } }
      (memWrite s.ctl (r.q * 65536 + (r.k.reg rb).toNat) m.bytes m.pay.toNat) := by
  obtain ⟨t, hgrow, hedit⟩ := State.taskGrow_ok (r := r) (QccEdit.running h) (State.running_task h) hu
  obtain ⟨u, hstore, hedit⟩ := State.ctlStore_ok (r := r) (v := m.pay.toNat) hedit rfl he hone hg
  have hmod := hedit.modCur fun k => { k.setChan (r.reg ra % 16) (listDrop (k.chan (r.reg ra % 16)) i) with pmh := m.header }
  obtain ⟨v, hret, hdone⟩ := hmod.retire rd (m.bytes / 4)
  refine ⟨v, ?_, hdone⟩
  show execTpoll rd ra rb s = _
  unfold execTpoll
  simp only [h]
  rw [if_neg (show ¬ r.reg ra ≥ 16 from Nat.not_le.mpr hsmall), show (if r.reg ra % 16 = r.t.chan then 1 else 0) = i from hi.symm,
    show (r.k.chan (r.reg ra % 16))[i]? = some m from hm]
  dsimp only
  rw [show rangeCheck (r.reg rb) m.bytes = none from rangeCheck_none hal hin]
  dsimp only
  rw [hgrow]
  dsimp only [State.onSync]
  rw [if_neg (by omega), show t.ctlStore r (r.reg rb) m.bytes m.pay.toNat = _ from hstore]
  exact hret

end

/-- Settles O27: an end of the task, a change of one channel's fields, a message, or a place in the command queue. -/
theorem taskInstructionResults : Obligations.TaskInstructionResults := by
  unfold Obligations.TaskInstructionResults
  intro s r h next k0
  have htask := State.running_task h
  refine ⟨?_, ?_, fun en c => ?_, fun p c => ?_, fun code => ?_, fun rd ra rb len g => ?_, fun rd ra rb m g g' => ?_, ?_⟩
  · show execTend s = _
    unfold execTend
    simp only [h]
    rw [State.modCur_running h, Qcc.endTask_running htask]
  · show execTret s = _
    unfold execTret
    simp only [h]
    rw [State.modCur_running h, Qcc.endTask_kept htask]
  · obtain ⟨t, ht, hedit⟩ := State.modCur_retire0_edit h fun k =>
      { k with armed := if en = 1 then (if k.armed.contains c.toNat then k.armed else k.armed ++ [c.toNat])
                        else k.armed.filter (· != c.toNat) }
    refine ⟨t, ?_, hedit.eq, ?_, hedit.others, fun n => ?_⟩
    · rw [← ht]
      show execTarm en c s = _
      unfold execTarm
      simp only [h]
    · rw [hedit.own]
      rfl
    · rw [hedit.own]
      simp only [Qcc.go_eq]
      by_cases hen : en = 1
      · by_cases hin : r.k.armed.contains c.toNat = true
        · have hmem : c.toNat ∈ r.k.armed := by simpa using hin
          rw [if_pos hen, if_pos hin]
          by_cases hn : n = c.toNat
          · simp [hn, hmem, hen]
          · simp [hn]
        · rw [if_pos hen, if_neg hin, List.mem_append, List.mem_singleton]
          by_cases hn : n = c.toNat <;> simp [hn, hen]
      · rw [if_neg hen, List.mem_filter]
        by_cases hn : n = c.toNat
        · simpa [hn] using hen
        · simp [hn]
  · obtain ⟨t, ht, hedit⟩ := State.modCur_retire0_edit h fun k => { k with prio := tabPut k.prio c.toNat p.toNat }
    refine ⟨t, ?_, hedit.eq, ?_, hedit.others, fun n => ?_⟩
    · rw [← ht]
      show execTprio p c s = _
      unfold execTprio
      simp only [h]
    · rw [hedit.own]
      rfl
    · rw [hedit.own]
      exact tabGet_tabPut _ _ _ _
  · obtain ⟨x, hx⟩ := s.sendQccTrap_frame r.ctx (s.trapRec r 0x90 (s.ctlWord r.q r.k.pc) code.toNat) r.t.set
    have hpc : next = ((s.qcc s.cur).pc + 4) % 2 ^ 32 := by rw [State.qcc_cur h]
    show execQccTrap code s = _
    unfold execQccTrap
    simp only [h]
    rw [hx, hpc]
    rfl
  · intro n a w hal hin
    refine ⟨State.tsend_refused h rd ra rb len hal hin, fun q => State.tsend_full h rd ra rb len hal hin,
      fun q hto hroom hone he hu => ?_⟩
    obtain ⟨t, ht, hedit⟩ := State.tsend_sent h rd ra rb len he hal hin hto hroom hone hu
    refine ⟨t, sendToken r.ctx len g (memRead s.ctl (r.q * 65536 + a) n), ht, hedit.eq, ?_, rfl, rfl, rfl, BitVec.toNat_ofNat .., ?_,
      ?_, ?_⟩
    · rw [hedit.own]
    · refine Nat.mod_eq_of_lt (Nat.lt_of_lt_of_le (memRead_lt ..) ?_)
      calc 256 ^ n = 2 ^ (8 * n) := (Nat.pow_mul 2 8 n).symm
        _ ≤ 2 ^ 1024 := Nat.pow_le_pow_right (by decide) (by have := len.isLt; omega)
    · rw [hedit.own]
    · rw [hedit.own]
  · intro c i a
    refine ⟨State.tpoll_nothing h rd ra rb, fun hsmall hm hpos hal hin hone he hu hg hwf => ?_⟩
    obtain ⟨t, ht, hedit⟩ := State.tpoll_taken h rd ra rb he rfl hsmall hm hpos hal hin hone hu hg
    obtain ⟨x, y, z, hframe⟩ := hedit.frame
    refine ⟨t, ht, by rw [hframe], by rw [hframe], by rw [hedit.own], by rw [hedit.own], by rw [hedit.own], by rw [hedit.own],
      fun x => ?_⟩
    rw [hedit.ctl]
    exact memByte_memWrite _ _ _ _ hwf
  · show execQccFence s = _
    unfold execQccFence
    simp only [h]
    by_cases hfull : r.k.queued ≥ 32
    · rw [if_pos hfull, if_pos hfull, State.modCur_running h]
      rfl
    · rw [if_neg hfull, if_neg hfull, State.modCur_running h]
      rfl

/-! ### Events of the control cores -/

theorem Qcc.chan_setChan_append (k : Qcc) (n : Nat) (l : List Token) (m : Token) : (k.setChan n (l ++ [m])).chan n = l ++ [m] := by
  unfold Qcc.setChan Qcc.chan
  cases l <;> exact congrArg (fun o : Option (List Token) => o.getD []) (tabGet_tabPut_same k.chans n _)

theorem Qcc.setChan_frame (k : Qcc) (n : Nat) (l : List Token) : k.setChan n l = { k with chans := (k.setChan n l).chans } := rfl

theorem State.pushChan_room {s : State} {q n : Nat} (t : Token) (h : ((s.qcc q).chan n).length < chanCap n) :
    ∃ u, s.pushChan q n t = some u ∧ u = { s with qccs := u.qccs } ∧
      (u.qcc q).chan n = (s.qcc q).chan n ++ [{ t with kind := 2, node := BitVec.ofNat 8 n }] ∧
      ∀ q', u.qcc q' = { s.qcc q' with chans := (u.qcc q').chans } := by
  refine ⟨_, if_pos h, rfl, ?_, fun q' => ?_⟩
  · rw [State.qcc_setQcc, if_pos rfl, Qcc.chan_setChan_append]
  · rw [State.qcc_setQcc]
    split
    next hq => rw [hq]; rfl
    next => rfl

theorem findSome?_map_range {α β : Type} {n : Nat} {g : Nat → α} {f : α → Option β} {b : β}
    (h : ((List.range n).map g).findSome? f = some b) : ∃ i < n, f (g i) = some b ∧ ∀ j < i, f (g j) = none := by
  rw [List.findSome?_map, List.findSome?_eq_some_iff] at h
  obtain ⟨l, i, r, hl, hi, hbefore⟩ := h
  have hin : i < n := List.mem_range.mp (hl ▸ by simp)
  have hlen : l.length < n := by
    have := congrArg List.length hl
    simp only [List.length_range, List.length_append, List.length_cons] at this
    omega
  have hil : i = l.length := by
    have := congrArg (·[l.length]?) hl
    simpa [hlen] using this.symm
  refine ⟨i, hin, hi, fun j hj => hbefore j ?_⟩
  have hget := congrArg (·[j]?) hl
  rw [List.getElem?_append_left (hil ▸ hj), List.getElem?_range (by omega)] at hget
  exact List.mem_of_getElem? hget.symm

/-- The channels of one priority in the order in which a pick looks at them. -/
theorem turn_mod (last i : Nat) (hi : i < 16) : ((last + 1 + i) % 16 + 15 - last % 16) % 16 = i := by omega

theorem Qcc.pick_eq (k : Qcc) : k.pick = ((List.range 8).map fun i => 7 - i).findSome? fun p =>
    ((List.range 16).map fun i => ((tabGet k.lastPick p).getD 15 + 1 + i) % 16).findSome? fun n =>
      if k.ready n && tabNum k.prio n == p then some (p, n) else none := rfl

theorem Qcc.pick_spec {k : Qcc} {p n : Nat} (h : k.pick = some (p, n)) (hprio : ∀ m, tabNum k.prio m ≤ 7) :
    n < 16 ∧ k.ready n = true ∧ tabNum k.prio n = p ∧ ∀ m, m < 16 → k.ready m = true → tabNum k.prio m ≤ p ∧
      (tabNum k.prio m = p → (n + 15 - (tabGet k.lastPick p).getD 15 % 16) % 16 ≤
        (m + 15 - (tabGet k.lastPick p).getD 15 % 16) % 16) := by
  rw [Qcc.pick_eq] at h
  obtain ⟨i, hi, hfound, habove⟩ := findSome?_map_range h
  obtain ⟨j, hj, hpick, hbefore⟩ := findSome?_map_range hfound
  split at hpick
  next hready =>
    rw [Option.some_inj, Prod.mk.injEq] at hpick
    obtain ⟨rfl, hn⟩ := hpick
    rw [Bool.and_eq_true, beq_iff_eq] at hready
    rw [hn] at hready
    refine ⟨by omega, hready.1, hready.2, fun m hm hmr => ⟨?_, fun hmp => ?_⟩⟩
    · refine Nat.le_of_not_lt fun hlt => ?_
      have hle := hprio m
      have hnone := habove (7 - tabNum k.prio m) (by omega)
      rw [show 7 - (7 - tabNum k.prio m) = tabNum k.prio m by omega, List.findSome?_eq_none_iff] at hnone
      have hlast := hnone m (List.mem_map.mpr
        ⟨(m + 15 - (tabGet k.lastPick (tabNum k.prio m)).getD 15 % 16) % 16, List.mem_range.mpr (by omega), by omega⟩)
      rw [if_pos (by simp [hmr])] at hlast
      cases hlast
    · generalize (tabGet k.lastPick (7 - i)).getD 15 = last at *
      rw [← hn, turn_mod last j hj]
      refine Nat.le_of_not_lt fun hlt => ?_
      have hnone := hbefore ((m + 15 - last % 16) % 16) (by omega)
      rw [show (last + 1 + (m + 15 - last % 16) % 16) % 16 = m by omega, if_pos (by simp [hmr, hmp])] at hnone
      cases hnone
  next => cases hpick

section
variable {s : State}

theorem State.taskPick_next {q c p n : Nat} {m : Token} {l : List Token} (hctx : (s.qcc q).ctx = some c) (hidle : (s.qcc q).task = none)
    (hpick : (s.qcc q).pick = some (p, n)) (hchan : (s.qcc q).chan n = m :: l) (hissue : s.mayIssue c = true)
    (hawake : s.awake (q / 4) = true) :
    exec (.taskPick q) s = .next (s.setQcc q ((s.qcc q).start p n (s.partOf c) m)) := by
  show execTaskPick q s = _
  unfold execTaskPick
  simp only [hctx, hidle, hpick, hchan]
  exact if_pos ⟨hissue, hawake⟩

theorem State.tsendDelivery_next {quire q c : Nat} {m : Token} {rest : List (Nat × Nat × Token)}
    (hout : (s.qcc quire).outq = (q, c, m) :: rest) (halive : s.alive m.ctx.toNat = true) (hawake : s.awake (q / 4) = true)
    (hroom : ((s.qcc q).chan c).length < chanCap c) :
    ∃ t, exec (.tsendDelivery quire) s = .next t ∧ t = { s with qccs := t.qccs } ∧ (t.qcc quire).outq = rest ∧
      (t.qcc q).chan c = (s.qcc q).chan c ++ [{ m with kind := 2, node := BitVec.ofNat 8 c }] := by
  have hsame : ((s.setQcc quire { s.qcc quire with outq := rest }).qcc q).chan c = (s.qcc q).chan c := by
    rw [State.qcc_setQcc]
    split
    next hq => rw [hq]; rfl
    next => rfl
  obtain ⟨u, hpush, hframe, hchan, hrest⟩ :=
    State.pushChan_room (s := s.setQcc quire { s.qcc quire with outq := rest }) m (hsame ▸ hroom)
  refine ⟨u, ?_, hframe, ?_, hchan.trans (by rw [hsame])⟩
  · show execTsendDelivery quire s = _
    unfold execTsendDelivery
    simp only [hout]
    rw [halive, hawake, hpush]
    rfl
  · rw [hrest, State.qcc_setQcc, if_pos rfl]

theorem State.channelMessageEntry_next {idx : Nat} {m : MsgIn} (hm : s.msgs[idx]? = some m) (hacc : m.accepted = false)
    (hawake : s.awake (m.quire / 4) = true)
    (hfirst : ∀ o ∈ s.msgs.take idx, o.quire ≠ m.quire ∨ o.chan ≠ m.chan ∨ o.sender ≠ m.sender ∨ o.tok.edge ≠ m.tok.edge)
    (halive : s.alive m.tok.ctx.toNat = true) (hpoison : m.tok.poison = false)
    (hroom : ((s.qcc m.quire).chan m.chan).length < chanCap m.chan) :
    ∃ t, exec (.channelMessageEntry idx) s = .next t ∧
      (t.qcc m.quire).chan m.chan = (s.qcc m.quire).chan m.chan ++ [{ m.tok with kind := 2, node := BitVec.ofNat 8 m.chan }] ∧
      t.msgs = (if m.sender.isSome then listMod s.msgs idx fun m => { m with accepted := true } else listDrop s.msgs idx) := by
  have holder : ((s.msgs.take idx).any fun o =>
      !o.accepted && o.quire == m.quire && o.chan == m.chan && o.sender == m.sender && o.tok.edge == m.tok.edge) = false := by
    rw [List.any_eq_false]
    intro o ho
    rcases hfirst o ho with h | h | h | h <;> simp [h]
  have hgate : ¬ (m.accepted = true ∨ ((s.msgs.take idx).any fun o =>
      !o.accepted && o.quire == m.quire && o.chan == m.chan && o.sender == m.sender && o.tok.edge == m.tok.edge) = true ∨
      (!s.awake (m.quire / 4)) = true) := by
    rw [hacc, holder, hawake]
    decide
  show ∃ t, execChannelMessageEntry idx s = .next t ∧ _
  unfold execChannelMessageEntry
  simp only [hm]
  rw [if_neg hgate, if_neg (show ¬ (!s.alive m.tok.ctx.toNat) = true by simp [halive]),
    if_neg (show ¬ m.tok.poison = true by simp [hpoison])]
  cases m.sender with
  | some p =>
    obtain ⟨u, hpush, hframe, hchan, -⟩ :=
      State.pushChan_room (s := { s with msgs := listMod s.msgs idx fun m => { m with accepted := true } }) m.tok hroom
    refine ⟨u, ?_, hchan, by rw [hframe]; rfl⟩
    dsimp only
    rw [hpush]
  | none =>
    obtain ⟨u, hpush, hframe, hchan, -⟩ := State.pushChan_room (s := { s with msgs := listDrop s.msgs idx }) m.tok hroom
    refine ⟨u, ?_, hchan, by rw [hframe]; rfl⟩
    dsimp only
    rw [hpush]

end

/-- Settles O30: the pick looks at the priorities from 7 down and at the channels from the last one picked on. -/
theorem controlCoreEventResults : Obligations.ControlCoreEventResults := by
  unfold Obligations.ControlCoreEventResults
  refine ⟨fun s q c p n m l hctx hidle hpick hchan hissue hawake => State.taskPick_next hctx hidle hpick hchan hissue hawake,
    fun s quire q c m rest hout halive hawake hroom => State.tsendDelivery_next hout halive hawake hroom,
    fun s idx m hm hacc hawake hfirst halive hpoison hroom =>
      State.channelMessageEntry_next hm hacc hawake hfirst halive hpoison hroom,
    fun k p n hpick hprio => Qcc.pick_spec hpick hprio⟩

end Sys2Proof.Machine

/-! SUPPORT. What the issue of a command comes to (R293 to R297, R430). -/

namespace Sys2Proof.Machine

/-- Acceptance of a command whose record has been read. -/
def State.acceptRead (s : State) (c : CmdIn) : Accepted :=
  let b := s.ctlBytes c.q c.xs (s.recSize c)
  if s.cmdMalformed c b then .st 2 s
  else if !kImmediate (kOp c.word) ∧ (s.qcc c.q).queued ≥ 32 then .st 1 s
  else if s.cmdBusy c b then .st 3 s
  else
    match s.unionAll c.set ((if s.recSize c = 0 then [] else ctlRegions c.xs (s.recSize c)).map (s.regionSet c.q)) with
    | .ovf x y => .trap (s.ovfCode x y) (s.plateOvf x y c.ctx c.part)
    | .wait x y => .wait (s.askUnion x y c.ctx c.part)
    | .ok h =>
      if kImmediate (kOp c.word) then .st 0 (s.cmdNow c b h)
      else .st 0 { s.setQcc c.q { s.qcc c.q with cmds := (s.qcc c.q).cmds ++
        [{ id := s.nextId, word := c.word, xs := BitVec.ofNat 32 c.xs, xb := BitVec.ofNat 32 c.xb,
           xc := BitVec.ofNat 32 c.xc, gvahi := c.gvahi, record := b, set := h, fence := false,
           graph := c.graph, st := .queued, got := [] }] } with nextId := s.nextId + 1 }

section
variable {s : State} {c : CmdIn}

theorem State.accept_of_fit (h : s.recordFit c) : s.accept c = s.acceptRead c := by
  obtain ⟨hnotify, he, hrecord⟩ := h
  have hbad : ((kNotifies (kOp c.word) && !notifyOk c.xc) ||
      (s.recSize c != 0 && (c.xs % 8 != 0 || decide (c.xs + s.recSize c > 65536)))) = false := by
    rw [Bool.or_eq_false_iff]
    refine ⟨?_, ?_⟩
    · cases hn : kNotifies (kOp c.word)
      · rfl
      · rw [hnotify hn]
        rfl
    · by_cases hz : s.recSize c = 0
      · simp [hz]
      · obtain ⟨hal, hin⟩ := hrecord hz
        simp [hal, hin]
  have hread : (if s.recSize c = 0 then s else s.readErrs .control (c.q * 65536 + c.xs) (s.recSize c) c.ctx) = s := by
    rw [State.readErrs_none he, ite_self]
  unfold State.accept
  simp only [hbad, State.uncIn_none he, hread]
  rw [if_neg (by decide), if_neg (by simp)]
  rfl

theorem State.accept_of_bad (h : (kNotifies (kOp c.word) = true ∧ notifyOk c.xc = false) ∨
    (s.recSize c ≠ 0 ∧ (c.xs % 8 ≠ 0 ∨ 65536 < c.xs + s.recSize c))) : s.accept c = .st 2 s := by
  refine if_pos ?_
  rw [Bool.or_eq_true]
  rcases h with ⟨hn, hx⟩ | ⟨hz, hx⟩
  · left
    rw [hn, hx]
    rfl
  · right
    simp [hz, hx]

variable (hmal : s.cmdMalformed c (s.ctlBytes c.q c.xs (s.recSize c)) = false)

theorem State.acceptRead_malformed (h : s.cmdMalformed c (s.ctlBytes c.q c.xs (s.recSize c)) = true) :
    s.acceptRead c = .st 2 s := if_pos h

include hmal

theorem State.acceptRead_full (him : kImmediate (kOp c.word) = false) (hfull : (s.qcc c.q).queued ≥ 32) :
    s.acceptRead c = .st 1 s := by
  unfold State.acceptRead
  dsimp only
  rw [hmal, if_neg (by decide), if_pos ⟨by rw [him]; rfl, hfull⟩]

theorem State.acceptRead_busy (hroom : kImmediate (kOp c.word) = true ∨ (s.qcc c.q).queued < 32)
    (hbusy : s.cmdBusy c (s.ctlBytes c.q c.xs (s.recSize c)) = true) : s.acceptRead c = .st 3 s := by
  have hfull : ¬ ((!kImmediate (kOp c.word)) = true ∧ (s.qcc c.q).queued ≥ 32) := by
    rcases hroom with h | h
    · simp [h]
    · simp [Nat.not_le.mpr h]
  unfold State.acceptRead
  dsimp only
  rw [hmal, if_neg (by decide), if_neg hfull, if_pos hbusy]

variable (hbusy : s.cmdBusy c (s.ctlBytes c.q c.xs (s.recSize c)) = false) {h : Handle}
  (hu : s.unionAll c.set ((if s.recSize c = 0 then [] else ctlRegions c.xs (s.recSize c)).map (s.regionSet c.q)) = .ok h)

include hbusy hu

theorem State.acceptRead_immediate (him : kImmediate (kOp c.word) = true) :
    s.acceptRead c = .st 0 (s.cmdNow c (s.ctlBytes c.q c.xs (s.recSize c)) h) := by
  unfold State.acceptRead
  dsimp only
  rw [hmal, hbusy, hu, if_neg (by decide), if_neg (by simp [him]), if_neg (by decide)]
  exact if_pos him

theorem State.acceptRead_queued (him : kImmediate (kOp c.word) = false) (hroom : (s.qcc c.q).queued < 32) :
    s.acceptRead c = .st 0 { s.setQcc c.q { s.qcc c.q with cmds := (s.qcc c.q).cmds ++
        [{ id := s.nextId, word := c.word, xs := BitVec.ofNat 32 c.xs, xb := BitVec.ofNat 32 c.xb,
           xc := BitVec.ofNat 32 c.xc, gvahi := c.gvahi, record := s.ctlBytes c.q c.xs (s.recSize c), set := h, fence := false,
           graph := c.graph, st := .queued, got := [] }] } with nextId := s.nextId + 1 } := by
  unfold State.acceptRead
  dsimp only
  rw [hmal, hbusy, hu, if_neg (by decide), if_neg (by simp [Nat.not_le.mpr hroom]), if_neg (by decide)]
  exact if_neg (by rw [him]; decide)

end

/-! ### The word of a command -/

theorem kOp_numR {op cfn : Nat} (hop : op < 128) (hcfn : cfn < 1024) (rs rb rc : BitVec 5) :
    kOp (BitVec.ofNat 32 (numR op rs rb rc cfn)) = op := by
  have := rs.isLt
  have := rb.isLt
  have := rc.isLt
  rw [kOp, BitVec.toNat_ofNat, numR]
  omega

theorem kCfn_numR {op cfn : Nat} (hcfn : cfn < 1024) (rs rb rc : BitVec 5) :
    kCfn (BitVec.ofNat 32 (numR op rs rb rc cfn)) = cfn := by
  have := rs.isLt
  have := rb.isLt
  have := rc.isLt
  rw [kCfn, BitVec.toNat_ofNat, numR]
  omega

/-- What a command instruction runs. -/
theorem exec_of_cmdForm {i : Instr} {op cfn : Nat} {rs rb rc : BitVec 5} (h : cmdForm i = some (op, cfn, rs, rb, rc)) (s : State) :
    op < 128 ∧ cfn < 1024 ∧
      exec i s = if op < 0x4D then s.command op cfn rs rb rc else s.hypCommand op cfn rs rb rc := by
  unfold cmdForm at h
  split at h
  case h_40 => cases h
  all_goals
    cases h
    exact ⟨by decide, by bv_omega, rfl⟩

section
variable {s : State} {r : TaskRun} {op cfn : Nat} {rs rb rc : BitVec 5}

theorem State.exec_command {i : Instr} (hf : cmdForm i = some (op, cfn, rs, rb, rc)) (hr : s.running = some r)
    (hyp : op < 0x4D ∨ r.k.hyp = true) : exec i s = s.command op cfn rs rb rc := by
  obtain ⟨-, -, hx⟩ := exec_of_cmdForm hf s
  rw [hx]
  split
  next => rfl
  next hop =>
    unfold State.hypCommand
    simp only [hr]
    exact if_pos (hyp.resolve_left hop)

theorem State.exec_command_trap {i : Instr} (hf : cmdForm i = some (op, cfn, rs, rb, rc)) (hr : s.running = some r)
    (hop : 0x4D ≤ op) (hyp : r.k.hyp = false) : exec i s = s.trapHere r 0x81 0 := by
  obtain ⟨-, -, hx⟩ := exec_of_cmdForm hf s
  rw [hx, if_neg (Nat.not_lt.mpr hop)]
  unfold State.hypCommand
  simp only [hr]
  exact if_neg (by rw [hyp]; decide)

/-- What the issue of a command does with what its acceptance comes to. -/
def TaskRun.issued (r : TaskRun) (op cfn xs : Nat) : Accepted → Res
  | .trap e t => t.trapHere r e xs
  | .wait t => .next t
  | .st code t =>
    let u := t.modCur fun k => { k with cmdst := code }.go (k.pc + 4)
    .next (if code = 0 ∧ op = 0x42 ∧ cfn < 512 then u.launchNode r.q (cfn % 64) else u)

/-- The operands as `State.command` writes them. -/
theorem TaskRun.cmdIn_eq (r : TaskRun) (op cfn : Nat) (rs rb rc : BitVec 5) :
    ({ q := r.q, ctx := r.ctx, part := r.part, word := BitVec.ofNat 32 (numR op rs rb rc cfn), xs := r.reg rs, xb := r.reg rb,
       xc := r.reg rc, gvahi := r.k.gvahi, set := r.t.set, graph := none } : CmdIn) = r.cmdIn op cfn rs rb rc := rfl

/-- Acceptance is left abstract while the match on its result is rearranged: the kernel must not evaluate it on symbolic operands. -/
theorem State.command_eq (hr : s.running = some r) (op cfn : Nat) (rs rb rc : BitVec 5) :
    s.command op cfn rs rb rc = r.issued op cfn (r.reg rs) (s.accept (r.cmdIn op cfn rs rb rc)) := by
  unfold State.command
  rw [hr]
  generalize s.accept = f
  as_aux_lemma =>
    dsimp only
    rw [TaskRun.cmdIn_eq]
    cases f (r.cmdIn op cfn rs rb rc) <;> rfl

/-- A command that comes to CMDST and starts no node. -/
theorem State.command_st (hr : s.running = some r) {code : Nat} {t : State} (hacc : s.accept (r.cmdIn op cfn rs rb rc) = .st code t)
    (hno : ¬ (code = 0 ∧ op = 0x42 ∧ cfn < 512)) :
    s.command op cfn rs rb rc = .next (t.modCur fun k => { k with cmdst := code }.go (k.pc + 4)) := by
  rw [State.command_eq hr, hacc]
  exact congrArg Host.Outcome.next (if_neg hno)

/-- A node of the graph is accepted, and may launch. -/
theorem State.command_launch (hr : s.running = some r) {t : State} (hacc : s.accept (r.cmdIn 0x42 cfn rs rb rc) = .st 0 t)
    (hcfn : cfn < 512) : s.command 0x42 cfn rs rb rc =
      .next ((t.modCur fun k => { k with cmdst := 0 }.go (k.pc + 4)).launchNode r.q (cfn % 64)) := by
  rw [State.command_eq hr, hacc]
  exact congrArg Host.Outcome.next (if_pos ⟨rfl, rfl, hcfn⟩)

theorem State.modCur_nextId (t : State) (n : Nat) (f : Qcc → Qcc) :
    ({ t with nextId := n } : State).modCur f = { t.modCur f with nextId := n } := rfl

theorem State.modCur_setQcc (s : State) (k : Qcc) (f : Qcc → Qcc) : (s.setQcc s.cur k).modCur f = s.setQcc s.cur (f k) := by
  unfold State.modCur
  rw [State.setQcc_cur, State.qcc_setQcc, if_pos rfl, State.setQcc_setQcc]

end

/-- Settles O31: the checks of CMDST in their order, then the next place of the queue. -/
theorem commandAcceptanceResults : Obligations.CommandAcceptanceResults := by
  unfold Obligations.CommandAcceptanceResults
  intro i op cfn rs rb rc hf s r h hr c b k0 sets
  obtain ⟨hop, hcfn, -⟩ := exec_of_cmdForm hf s
  have hkop : kOp c.word = op := kOp_numR hop hcfn rs rb rc
  have hq : s.qcc c.q = r.k := (congrArg s.qcc (State.running_q hr)).trans (State.qcc_cur hr)
  have word (v : Word) : BitVec.ofNat 32 v.toNat = v := by rw [BitVec.ofNat_toNat, BitVec.setWidth_eq]
  refine ⟨fun hyp => ?_, fun hop hyp => ?_⟩
  · have refused {code : Nat} (hcode : code ≠ 0) (hacc : s.accept c = .st code s) :
        exec i s = .next (s.setQcc s.cur { k0 with cmdst := code }) := by
      rw [State.exec_command hf hr hyp, State.command_st hr hacc fun h => hcode h.1, State.modCur_running hr]
      rfl
    refine ⟨fun hfit hmal hbusy hroom him hu => ?_, fun hbad => ?_, fun hfit hmal => ?_, fun hfit hmal hfull him => ?_,
      fun hfit hmal hroom hbusy => ?_⟩
    · have hsets : (if s.recSize c = 0 then [] else ctlRegions c.xs (s.recSize c)).map (s.regionSet c.q) = sets := by
        by_cases hz : s.recSize c = 0
        · simp only [sets, if_pos hz, List.map_nil]
        · simp only [sets, if_neg hz]
      have hacc := (State.accept_of_fit hfit).trans
        (State.acceptRead_queued hmal hbusy (hsets ▸ hu) (hkop ▸ him) (hq ▸ hroom))
      have hno : ¬ (0 = 0 ∧ op = 0x42 ∧ cfn < 512) := fun hop42 => by
        rw [hop42.2.1] at him
        exact absurd him (by decide)
      rw [State.exec_command hf hr hyp, State.command_st hr hacc hno, hq]
      rw [State.modCur_nextId, show s.setQcc c.q = s.setQcc s.cur from congrArg _ (State.running_q hr), State.modCur_setQcc]
      rw [show BitVec.ofNat 32 c.xs = r.k.reg rs from word _, show BitVec.ofNat 32 c.xb = r.k.reg rb from word _,
        show BitVec.ofNat 32 c.xc = r.k.reg rc from word _]
      rfl
    · exact refused (by decide) (State.accept_of_bad (hkop ▸ hbad))
    · exact refused (by decide) ((State.accept_of_fit hfit).trans (State.acceptRead_malformed hmal))
    · exact refused (by decide) ((State.accept_of_fit hfit).trans (State.acceptRead_full hmal (hkop ▸ him) (hq ▸ hfull)))
    · exact refused (by decide) ((State.accept_of_fit hfit).trans (State.acceptRead_busy hmal (.inr (hq ▸ hroom)) hbusy))
  · rw [State.exec_command_trap hf hr hop hyp]
    exact State.trapHere_taken hr 0x81 0

end Sys2Proof.Machine

/-! SUPPORT. The commands that act at acceptance (R294, R295, R297, R430). -/

namespace Sys2Proof.Machine

theorem bytesOf_length (n v : Nat) : (bytesOf n v).length = n := by
  induction n generalizing v with
  | zero => rfl
  | succ n ih => exact congrArg (· + 1) (ih _)

theorem rec256_ctlBytes (s : State) (q a : Nat) : rec256 (s.ctlBytes q a 32) = numOf (s.ctlBytes q a 32) := by
  rw [rec256, List.take_of_length_le]
  exact Nat.le_of_eq (bytesOf_length ..)

/-! ### What each immediate op reads, checks and writes -/

section
variable {s : State} {c : CmdIn} {b : Bytes}

theorem State.recSize_pat (h : kOp c.word = 0x40) : s.recSize c = 32 := by
  unfold State.recSize
  rw [h]
  rfl

theorem State.cmdMalformed_pat (h : kOp c.word = 0x40) : s.cmdMalformed c b = patBad b := by
  unfold State.cmdMalformed
  rw [h]
  rfl

theorem State.cmdBusy_pat (h : kOp c.word = 0x40) : s.cmdBusy c b = (s.qcc c.q).slotBusy (kCfn c.word % 16) := by
  unfold State.cmdBusy
  rw [h]
  rfl

theorem State.cmdNow_pat (h : kOp c.word = 0x40) (x : Handle) : s.cmdNow c b x = s.setQcc c.q { s.qcc c.q with
    g := tabPut (s.qcc c.q).g (kCfn c.word % 16) { pattern := BitVec.ofNat 256 (rec256 b), stream := none } } := by
  unfold State.cmdNow
  rw [h]
  rfl

theorem State.recSize_graph (h : kOp c.word = 0x42) : s.recSize c = if kCfn c.word / 512 = 1 then 0 else 32 := by
  unfold State.recSize
  rw [h]
  rfl

theorem State.cmdMalformed_graph (h : kOp c.word = 0x42) :
    s.cmdMalformed c b = (kCfn c.word / 512 == 0 && nodeBad (rec256 b)) := by
  unfold State.cmdMalformed
  rw [h]
  rfl

theorem State.cmdBusy_graph_free (h : kOp c.word = 0x42) (hg : tabGet (s.qcc c.q).graph (kCfn c.word % 64) = none) :
    s.cmdBusy c b = false := by
  unfold State.cmdBusy
  rw [h]
  dsimp only
  rw [hg]
  rfl

theorem State.cmdBusy_graph_node (h : kOp c.word = 0x42) {n : GNode} (hg : tabGet (s.qcc c.q).graph (kCfn c.word % 64) = some n) :
    s.cmdBusy c b = (kCfn c.word / 512 == 0 || n.launched) := by
  unfold State.cmdBusy
  rw [h]
  dsimp only
  rw [hg]
  rfl

/-- The node that `cmd` makes of a record. -/
def nodeOf (r : Nat) (set : Handle) (gvahi : Word) : GNode :=
  { record := BitVec.ofNat 256 r, pred := bitF r 247 240, launched := false, copied := 0, got := none, set := set, gvahi := gvahi,
    result := none }

theorem State.cmdNow_graph (h : kOp c.word = 0x42) (x : Handle) : s.cmdNow c b x =
    if kCfn c.word / 512 = 1 then s.setQcc c.q { s.qcc c.q with graph := tabDel (s.qcc c.q).graph (kCfn c.word % 64) }
    else s.setQcc c.q { s.qcc c.q with
      graph := tabPut (s.qcc c.q).graph (kCfn c.word % 64) (nodeOf (rec256 b) x c.gvahi) } := by
  unfold State.cmdNow
  rw [h]
  rfl

theorem State.recSize_tol (h : kOp c.word = 0x4F) : s.recSize c = 0 := by
  unfold State.recSize
  rw [h]
  rfl

theorem State.cmdMalformed_tol (h : kOp c.word = 0x4F) : s.cmdMalformed c b = decide (c.xb > 31) := by
  unfold State.cmdMalformed
  rw [h]
  rfl

theorem State.cmdBusy_tol (h : kOp c.word = 0x4F) : s.cmdBusy c b = false := by
  unfold State.cmdBusy
  rw [h]
  rfl

theorem State.cmdNow_tol (h : kOp c.word = 0x4F) (x : Handle) :
    s.cmdNow c b x = { s with pmtol := tabPut s.pmtol c.xb c.xc } := by
  unfold State.cmdNow
  rw [h]
  rfl

/-- An immediate command with no record needs only to be well formed and free. -/
theorem State.accept_bare (hnotify : kNotifies (kOp c.word) = false) (him : kImmediate (kOp c.word) = true) (hsize : s.recSize c = 0)
    (hmal : s.cmdMalformed c (s.ctlBytes c.q c.xs 0) = false) (hbusy : s.cmdBusy c (s.ctlBytes c.q c.xs 0) = false) :
    s.accept c = .st 0 (s.cmdNow c (s.ctlBytes c.q c.xs 0) c.set) := by
  unfold State.accept
  simp [hsize, hnotify, hmal, hbusy, him, State.unionAll]

end

section
variable {s : State} {r : TaskRun} {op cfn : Nat} {rs rb rc : BitVec 5} {h : Handle}

theorem TaskRun.kOp_cmdIn (hop : op < 128) (hcfn : cfn < 1024) : kOp (r.cmdIn op cfn rs rb rc).word = op :=
  kOp_numR hop hcfn rs rb rc

theorem TaskRun.kCfn_cmdIn (hcfn : cfn < 1024) : kCfn (r.cmdIn op cfn rs rb rc).word = cfn := kCfn_numR hcfn rs rb rc

theorem State.qcc_running (hr : s.running = some r) : s.qcc r.q = r.k :=
  (congrArg s.qcc (State.running_q hr)).trans (State.qcc_cur hr)

/-- An immediate command with a record of 32 bytes that passes its checks. -/
theorem State.accept_record {c : CmdIn} (hfit : s.recordFit c) (hsize : s.recSize c = 32) (him : kImmediate (kOp c.word) = true)
    (hmal : s.cmdMalformed c (s.ctlBytes c.q c.xs 32) = false) (hbusy : s.cmdBusy c (s.ctlBytes c.q c.xs 32) = false)
    (hu : s.unionAll c.set ((ctlRegions c.xs 32).map (s.regionSet c.q)) = .ok h) :
    s.accept c = .st 0 (s.cmdNow c (s.ctlBytes c.q c.xs 32) h) := by
  have hacc := (State.accept_of_fit hfit).trans
    (State.acceptRead_immediate (h := h) (by rwa [hsize]) (by rwa [hsize]) (by rwa [hsize]) him)
  rwa [hsize] at hacc

/-- The running core's fields at the end of a command of CMDST 0. -/
theorem State.setQcc_command (hr : s.running = some r) (k : Qcc) :
    ((s.setQcc r.q k).modCur fun k => { k with cmdst := 0 }.go (k.pc + 4)) =
      s.setQcc s.cur ({ k with cmdst := 0 }.go (k.pc + 4)) := by
  rw [State.running_q hr, State.modCur_setQcc]

theorem State.pat_next (hr : s.running = some r) (rs : BitVec 5) (slot : BitVec 4)
    (hfit : s.recordFit (r.cmdIn 0x40 slot.toNat rs 0 0)) (hgood : patBad (s.ctlBytes r.q (r.k.reg rs).toNat 32) = false)
    (hfree : r.k.slotBusy slot.toNat = false)
    (hu : s.unionAll r.t.set ((ctlRegions (r.k.reg rs).toNat 32).map (s.regionSet r.q)) = .ok h) :
    exec (.pat rs slot) s = .next (s.setQcc s.cur ({ r.k with
      g := tabPut r.k.g slot.toNat
        { pattern := BitVec.ofNat 256 (numOf (s.ctlBytes r.q (r.k.reg rs).toNat 32)), stream := none }, cmdst := 0 }.go
      (r.k.pc + 4))) := by
  have hslot : slot.toNat % 16 = slot.toNat := Nat.mod_eq_of_lt slot.isLt
  have hop : kOp (r.cmdIn 0x40 slot.toNat rs 0 0).word = 0x40 := TaskRun.kOp_cmdIn (by decide) (by bv_omega)
  have hcfn : kCfn (r.cmdIn 0x40 slot.toNat rs 0 0).word % 16 = slot.toNat := by rw [TaskRun.kCfn_cmdIn (by bv_omega), hslot]
  have hq : s.qcc (r.cmdIn 0x40 slot.toNat rs 0 0).q = r.k := State.qcc_running hr
  have hacc := State.accept_record hfit (State.recSize_pat hop) (by rw [hop]; decide) ((State.cmdMalformed_pat hop).trans hgood)
    ((State.cmdBusy_pat hop).trans (by rw [hcfn, hq]; exact hfree)) hu
  rw [State.cmdNow_pat hop, hcfn, hq] at hacc
  rw [State.exec_command (i := .pat rs slot) rfl hr (.inl (by decide)), State.command_st hr hacc (by simp)]
  refine congrArg Host.Outcome.next ((State.setQcc_command hr _).trans ?_)
  rw [rec256_ctlBytes]
  rfl

theorem State.launchNode_waits {q node : Nat} {n : GNode} (h : tabGet (s.qcc q).graph node = some n) (hn : n.launched ∨ n.pred ≠ 0) :
    s.launchNode q node = s := by
  unfold State.launchNode
  rw [h]
  cases (s.qcc q).ctx with
  | none => rfl
  | some c => exact if_pos hn

theorem State.cmd_next (hr : s.running = some r) (rs : BitVec 5) (node : BitVec 6)
    (hfit : s.recordFit (r.cmdIn 0x42 node.toNat rs 0 0))
    (hgood : nodeBad (numOf (s.ctlBytes r.q (r.k.reg rs).toNat 32)) = false) (hfree : tabGet r.k.graph node.toNat = none)
    (hpred : bitF (numOf (s.ctlBytes r.q (r.k.reg rs).toNat 32)) 247 240 ≠ 0)
    (hu : s.unionAll r.t.set ((ctlRegions (r.k.reg rs).toNat 32).map (s.regionSet r.q)) = .ok h) :
    exec (.cmd rs node) s = .next (s.setQcc s.cur ({ r.k with
      graph := tabPut r.k.graph node.toNat (nodeOf (numOf (s.ctlBytes r.q (r.k.reg rs).toNat 32)) h r.k.gvahi), cmdst := 0 }.go
      (r.k.pc + 4))) := by
  have hnode : node.toNat < 64 := node.isLt
  have hop : kOp (r.cmdIn 0x42 node.toNat rs 0 0).word = 0x42 := TaskRun.kOp_cmdIn (by decide) (by omega)
  have hcfn : kCfn (r.cmdIn 0x42 node.toNat rs 0 0).word = node.toNat := TaskRun.kCfn_cmdIn (by omega)
  have hmod : node.toNat % 64 = node.toNat := Nat.mod_eq_of_lt hnode
  have hzero : node.toNat / 512 = 0 := by omega
  have hq : s.qcc (r.cmdIn 0x42 node.toNat rs 0 0).q = r.k := State.qcc_running hr
  have hsize : s.recSize (r.cmdIn 0x42 node.toNat rs 0 0) = 32 := by
    rw [State.recSize_graph hop, hcfn, hzero]
    rfl
  have hacc := State.accept_record hfit hsize (by rw [hop]; decide)
    ((State.cmdMalformed_graph hop).trans (by rw [hcfn, hzero, rec256_ctlBytes]; exact hgood))
    (State.cmdBusy_graph_free hop (by rw [hcfn, hq, hmod]; exact hfree)) hu
  rw [State.cmdNow_graph hop, hcfn, hq, hzero, hmod, if_neg (by decide), rec256_ctlBytes] at hacc
  rw [State.exec_command (i := .cmd rs node) rfl hr (.inl (by decide)), State.command_launch hr hacc (by omega)]
  refine congrArg Host.Outcome.next ?_
  rw [hmod, show (r.cmdIn 0x42 node.toNat rs 0 0).q = r.q from rfl, State.setQcc_command hr]
  refine State.launchNode_waits (n := nodeOf (numOf (s.ctlBytes r.q (r.k.reg rs).toNat 32)) h r.k.gvahi) ?_ (.inr hpred)
  rw [State.running_q hr, State.qcc_setQcc, if_pos rfl]
  exact tabGet_tabPut_same ..

theorem State.cmdCancel_next (hr : s.running = some r) {node : BitVec 6} {n : GNode} (hn : tabGet r.k.graph node.toNat = some n)
    (hwait : n.launched = false) :
    exec (.cmdCancel node) s = .next (s.setQcc s.cur ({ r.k with
      graph := tabDel r.k.graph node.toNat, cmdst := 0 }.go (r.k.pc + 4))) := by
  have hnode : node.toNat < 64 := node.isLt
  have hop : kOp (r.cmdIn 0x42 (512 + node.toNat) 0 0 0).word = 0x42 := TaskRun.kOp_cmdIn (by decide) (by omega)
  have hcfn : kCfn (r.cmdIn 0x42 (512 + node.toNat) 0 0 0).word = 512 + node.toNat := TaskRun.kCfn_cmdIn (by omega)
  have hmod : (512 + node.toNat) % 64 = node.toNat := by omega
  have hone : (512 + node.toNat) / 512 = 1 := by omega
  have hq : s.qcc (r.cmdIn 0x42 (512 + node.toNat) 0 0 0).q = r.k := State.qcc_running hr
  have hacc := State.accept_bare (s := s) (by rw [hop]; decide) (by rw [hop]; decide) (by rw [State.recSize_graph hop, hcfn, hone]; rfl)
    (by rw [State.cmdMalformed_graph hop, hcfn, hone]; rfl)
    (by rw [State.cmdBusy_graph_node hop (by rw [hcfn, hq, hmod]; exact hn), hcfn, hone, hwait]; rfl)
  rw [State.cmdNow_graph hop, hcfn, hq, hone, hmod, if_pos rfl] at hacc
  rw [State.exec_command (i := .cmdCancel node) rfl hr (.inl (by decide)), State.command_st hr hacc (by omega)]
  exact congrArg Host.Outcome.next (State.setQcc_command hr _)

theorem State.pmTol_next (hr : s.running = some r) (rb rc : BitVec 5) (hyp : r.k.hyp = true) (hb : (r.k.reg rb).toNat < 32) :
    exec (.pmTol rb rc) s = .next { s.setQcc s.cur ({ r.k with cmdst := 0 }.go (r.k.pc + 4)) with
      pmtol := tabPut s.pmtol (r.k.reg rb).toNat (r.k.reg rc).toNat } := by
  have hop : kOp (r.cmdIn 0x4F 0 0 rb rc).word = 0x4F := TaskRun.kOp_cmdIn (by decide) (by decide)
  have hgood : decide ((r.cmdIn 0x4F 0 0 rb rc).xb > 31) = false := decide_eq_false (Nat.not_lt.mpr (by exact Nat.le_of_lt_succ hb))
  have hacc := State.accept_bare (s := s) (by rw [hop]; decide) (by rw [hop]; decide) (State.recSize_tol hop)
    ((State.cmdMalformed_tol hop).trans hgood) (State.cmdBusy_tol hop)
  rw [State.cmdNow_tol hop] at hacc
  rw [State.exec_command (i := .pmTol rb rc) rfl hr (.inr hyp), State.command_st hr hacc (by simp)]
  exact congrArg Host.Outcome.next (congrArg (fun t : State => { t with
    pmtol := tabPut s.pmtol (r.k.reg rb).toNat (r.k.reg rc).toNat }) (State.modCur_running hr fun k =>
      { k with cmdst := 0 }.go (k.pc + 4)))

end

/-- Settles O32: each of the four passes its checks and writes its table. -/
theorem immediateCommandResults : Obligations.ImmediateCommandResults := by
  unfold Obligations.ImmediateCommandResults
  intro s r h rs rb rc hr k0 a b
  exact ⟨fun slot hfit hgood hfree hu => State.pat_next hr rs slot hfit hgood hfree hu,
    fun node hfit hgood hfree hpred hu => State.cmd_next hr rs node hfit hgood hfree hpred hu,
    fun node n hn hwait => State.cmdCancel_next hr hn hwait,
    fun hyp hb => State.pmTol_next hr rb rc hyp hb⟩

end Sys2Proof.Machine

/-! SUPPORT. One step at the head of the agenda, and the machine after reset (R157, R208, R275, R314, R428). -/

namespace Sys2Proof.Machine

theorem step_of_turn {s s' : State} {t : Turn} {r : List Turn} (h : s.agenda = t :: r)
    (ht : turn t { s with agenda := r } = .next s') : step s = .next { s' with tick := s'.tick + 1 } := by
  unfold step State.nextTurn
  rw [h]
  dsimp only
  rw [ht]
  rfl

theorem turn_elem {s : State} {p i : Nat} {pr : Pair} {sl : Slot} {ins : Instr} (hup : s.bringUp = 5)
    (harb : s.arbitrate p = some (i, pr)) (hsw : pr.switch = false) (hsl : tabGet (s.elem p).slots i = some sl)
    (hdec : decodeElem (BitVec.ofNat 32 (sl.word pr.node)) = some ins) :
    turn (.elem p) s = exec ins { s with firing := some { pos := p, slotIx := i, pair := pr } } := by
  unfold turn
  dsimp only
  rw [if_pos hup]
  unfold elemTurn
  rw [harb]
  dsimp only
  rw [if_neg (by rw [hsw]; decide), hsl]
  dsimp only
  rw [hdec]

theorem turn_qcc {s : State} {q : Nat} {x : TaskRun} {ins : Instr} (hup : s.bringUp = 5)
    (hrun : ({ s with cur := q } : State).running = some x) (hawake : s.awake (q / 4) = true) (hpc : x.k.pc + 4 ≤ 65536)
    (herrs : s.errs = []) (hcount : x.t.count < 65536)
    (hdec : decodeQcc (BitVec.ofNat 32 (memRead s.ctl (q * 65536 + x.k.pc) 4)) = some ins) :
    turn (.qcc q) s = exec ins { s with cur := q } := by
  have hq : x.q = q := State.running_q hrun
  have hfetch : ({ s with cur := q } : State).fetchable x = true := by
    unfold State.fetchable
    rw [State.uncIn_none (s := { s with cur := q }) herrs, decide_eq_true hpc]
    rfl
  have hword : ({ s with cur := q } : State).ctlWord x.q x.k.pc = memRead s.ctl (q * 65536 + x.k.pc) 4 := by
    rw [hq]
    exact if_pos hpc
  have hins : ({ s with cur := q } : State).qccInstr x = ins := by
    unfold State.qccInstr
    rw [hfetch, if_neg (by decide), if_neg (Nat.not_le.mpr hcount)]
    dsimp only
    rw [hword, hdec]
    rfl
  unfold turn
  dsimp only
  rw [if_pos hup]
  unfold qccTurn
  dsimp only
  rw [hrun]
  dsimp only
  rw [hins]
  exact if_pos hawake

theorem turn_press {s : State} {q i : Nat} {g : Token} {ins : Instr} (hup : s.bringUp = 5)
    (hpick : (s.pressOf q).pick = some (i, g)) (hdec : decodePress ((s.pressOf q).wordOf g) = some ins) :
    turn (.press q) s = exec ins { s with cur := q } := by
  unfold turn
  dsimp only
  rw [if_pos hup]
  unfold pressTurn
  dsimp only
  rw [show ({ s with cur := q } : State).pressOf q = s.pressOf q from rfl, hpick]
  dsimp only
  rw [hdec]

theorem turn_event {s : State} {ins : Instr} (hup : s.bringUp = 5) (hev : encode ins = none) : turn (.event ins) s = exec ins s := by
  unfold turn Instr.isEvent
  dsimp only
  rw [hev, hup]
  rfl

theorem step_scheduled {u : State} (h : u.agenda = []) : step u = step { u with agenda := [Config.schedule u.tick] } := by
  have hsame : ({ u with agenda := [] } : State) = u := by rw [← h]
  unfold step State.nextTurn
  rw [h]
  dsimp only
  rw [hsame]

/-- Settles O57: each agent's turn is unfolded once, and the head of the agenda says whose it is. -/
theorem stepRunsTheDecodedInstruction : Obligations.StepRunsTheDecodedInstruction := by
  unfold Obligations.StepRunsTheDecodedInstruction
  refine ⟨fun u h => step_scheduled h, ?_⟩
  intro s s' t r hag hup s0
  refine ⟨?_, ?_, ?_, ?_⟩
  · rintro p i pr sl ins rfl harb hsw hsl hdec hx
    exact step_of_turn hag ((turn_elem (s := s0) hup harb hsw hsl hdec).trans hx)
  · rintro q x ins rfl hrun hawake hpc herrs hcount hdec hx
    exact step_of_turn hag ((turn_qcc (s := s0) hup hrun hawake hpc herrs hcount hdec).trans hx)
  · rintro q i g ins rfl hpick hdec hx
    exact step_of_turn hag ((turn_press (s := s0) hup hpick hdec).trans hx)
  · rintro ins rfl hev hx
    exact step_of_turn hag ((turn_event (s := s0) hup hev).trans hx)

/-- Settles O58: every table of the reset state is empty, and partition 0 is the one of bring-up. -/
theorem resetLeavesTheMachineAsBringUpDoes : Obligations.ResetLeavesTheMachineAsBringUpDoes := by
  unfold Obligations.ResetLeavesTheMachineAsBringUpDoes
  intro s
  have hreg (q n) : (s.qcc q).reg n = 0 := by
    show ((List.replicate 32 (0 : Word))[n.toNat]?).getD 0 = 0
    rw [List.getElem?_replicate]
    split <;> rfl
  exact ⟨fun a => ⟨rfl, rfl, rfl⟩, fun n => rfl, ⟨_, rfl, rfl, rfl, rfl, rfl, rfl, rfl⟩, rfl, rfl, rfl, rfl, rfl, rfl, rfl, hreg, rfl⟩

end Sys2Proof.Machine

/-! SUPPORT. The head of a command queue, and completions (R109, R293, R294, R296, R297, R299). -/

namespace Sys2Proof.Machine

section
variable {s : State} {q ctx : Nat} {c : Cmd} {before : List Cmd}

theorem kCfn_mod (w : Word) : kCfn w % 16 = w.toNat % 16 := by
  rw [kCfn]
  omega

theorem kCfn_bit_four (w : Word) : (kCfn w / 16 % 2 == 1) = w.toNat.testBit 4 := by
  rw [kCfn, Nat.testBit_eq_decide_div_mod_eq, Bool.eq_iff_iff, beq_iff_eq, decide_eq_true_eq]
  omega

/-! ### Dispatch -/

theorem State.dispatch_unit (hctx : (s.qcc q).ctx = some ctx) (hissue : s.mayIssue ctx = true)
    (hhead : cmdHead [] (s.qcc q).cmds = some (before, c)) (hfence : c.fence = false) :
    exec (.commandDispatch q) s = .next (s.unitTakes q ctx c) := by
  show execCommandDispatch q s = _
  unfold execCommandDispatch
  rw [hhead, hctx]
  dsimp only
  rw [if_neg (by simp [hissue]), if_neg (by simp [hfence])]

theorem State.dispatch_fence (hctx : (s.qcc q).ctx = some ctx) (hissue : s.mayIssue ctx = true)
    (hhead : cmdHead [] (s.qcc q).cmds = some (before, c)) (hfence : c.fence = true)
    (hdone : ∀ o ∈ before, ∃ x y, o.st = .done x y) :
    exec (.commandDispatch q) s = .next (s.cmdGone q c.id) := by
  have hall : (before.all fun o => (match o.st with | .done _ _ => true | _ => false)) = true := by
    rw [List.all_eq_true]
    intro o ho
    obtain ⟨x, y, hxy⟩ := hdone o ho
    rw [hxy]
  show execCommandDispatch q s = _
  unfold execCommandDispatch
  rw [hhead, hctx]
  dsimp only
  rw [if_neg (by simp [hissue]), if_pos hfence]
  exact if_pos hall

theorem State.unitTakes_stream (hop : kOp c.word = 0x41) : s.unitTakes q ctx c = (s.cmdRuns q c.id).bindStream q c := by
  unfold State.unitTakes
  rw [hop]
  rfl

theorem State.unitTakes_launch (hop : kOp c.word = 0x43) (hroom : s.launchRoom (s.partOf ctx) = true) :
    s.unitTakes q ctx c = { s.cmdRuns q c.id with toSpine := s.toSpine ++ [s.launchOf q ctx c] } := by
  unfold State.unitTakes
  rw [hop]
  exact if_pos hroom

theorem State.unitTakes_load (hop : kOp c.word = 0x44) : s.unitTakes q ctx c = s.cmdRuns q c.id := by
  unfold State.unitTakes
  rw [hop]
  rfl

theorem State.unitTakes_mark (hop : kOp c.word = 0x47) :
    s.unitTakes q ctx c = { s.cmdRuns q c.id with marks := s.marks ++ [markOf q ctx c] } := by
  unfold State.unitTakes
  rw [hop]
  rfl

theorem State.unitTakes_setx (hop : kOp c.word = 0x4B) (hroom : (s.riddleOf (q / 4)).go.length < 16) :
    s.unitTakes q ctx c = (s.cmdRuns q c.id).setRiddle (q / 4)
      { s.riddleOf (q / 4) with go := (s.riddleOf (q / 4)).go ++ [riddleGoOf q ctx c] } := by
  unfold State.unitTakes
  rw [hop]
  exact if_neg (Nat.not_le.mpr hroom)

theorem State.unitTakes_request (hop : kOp c.word = 0x4D) (heven : kCfn c.word % 2 = 0) :
    s.unitTakes q ctx c = { s.cmdRuns q c.id with submissions := s.submissions ++
      [{ bytes := c.record.drop 8, length := fieldOf c.record 0 4, cmd := (q, c.id) }] } := by
  unfold State.unitTakes
  rw [hop]
  exact if_neg (by omega)

theorem State.bindStream_runs {g : GSlot} (hg : tabGet (s.qcc q).g (kCfn c.word % 16) = some g) :
    (s.cmdRuns q c.id).bindStream q c = s.setQcc q { s.qcc q with
      cmds := (s.qcc q).cmds.map (Cmd.run c.id),
      g := tabPut (s.qcc q).g (kCfn c.word % 16) { g with stream := some (streamOf c) } } := by
  have hruns : (s.cmdRuns q c.id).qcc q = { s.qcc q with cmds := (s.qcc q).cmds.map (Cmd.run c.id) } := by
    rw [State.cmdRuns, State.qcc_setQcc, if_pos rfl]
  unfold State.bindStream State.setSlot
  rw [hruns]
  dsimp only
  rw [hg]
  dsimp only
  rw [State.cmdRuns, State.setQcc_setQcc]

end

/-- Settles O33: one equation per op of what the unit takes. -/
theorem commandDispatchResults : Obligations.CommandDispatchResults := by
  unfold Obligations.CommandDispatchResults
  intro s q ctx before c hctx hissue hhead
  refine ⟨fun hfence hdone => State.dispatch_fence hctx hissue hhead hfence hdone, fun hfence => ?_⟩
  have hx := State.dispatch_unit hctx hissue hhead hfence
  intro cmds s1 slot
  refine ⟨fun g hop hg => ?_, fun hop hroom => ?_, fun hop => ?_, fun hop => ?_, fun hop hroom => ?_, fun hop heven => ?_⟩
  · have hslot : kCfn c.word % 16 = slot := kCfn_mod _
    rw [State.unitTakes_stream hop, State.bindStream_runs (by rw [hslot]; exact hg), hslot] at hx
    exact ⟨streamOf c, hx, kCfn_bit_four _, rfl, rfl, rfl, rfl, rfl⟩
  · rw [State.unitTakes_launch hop (decide_eq_true hroom)] at hx
    exact ⟨s.launchOf q ctx c, hx, rfl, rfl, rfl, rfl, rfl, rfl⟩
  · rw [State.unitTakes_load hop] at hx
    exact hx
  · rw [State.unitTakes_mark hop] at hx
    exact ⟨markOf q ctx c, hx, rfl, rfl, rfl, rfl⟩
  · rw [State.unitTakes_setx hop hroom] at hx
    exact ⟨riddleGoOf q ctx c, hx, rfl, rfl, rfl, rfl⟩
  · rw [State.unitTakes_request hop (by rw [kCfn]; omega)] at hx
    exact ⟨_, hx, rfl, rfl, rfl⟩

/-! ### Completions -/

section
variable {s : State} {q ctx : Nat} {c : Cmd}

theorem State.nodeDone_none (hg : c.graph = none) (st : Nat) : s.nodeDone q c st = s := by
  unfold State.nodeDone
  rw [hg]

theorem State.commandNotify_silent {idx status lane1 : Nat} (hctx : (s.qcc q).ctx = some ctx) (halive : s.alive ctx = true)
    (hc : (s.qcc q).cmds[idx]? = some c) (hst : c.st = .done status lane1) (hg : c.graph = none)
    (hno : kNotifies (kOp c.word) = false ∨ notifyOn c.xc.toNat = false) :
    exec (.commandNotify q idx) s = .next (s.cmdGone q c.id) := by
  have hoff : (kNotifies (kOp c.word) && notifyOn c.xc.toNat) = false := by
    rcases hno with h | h <;> simp [h]
  show execCommandNotify q idx s = _
  unfold execCommandNotify
  rw [hc, hctx]
  dsimp only
  rw [hst]
  dsimp only
  rw [if_neg (by simp [halive]), hoff, if_neg (by decide), State.nodeDone_none hg]

theorem State.commandNotify_sends {idx status lane1 : Nat} (hctx : (s.qcc q).ctx = some ctx) (halive : s.alive ctx = true)
    (hc : (s.qcc q).cmds[idx]? = some c) (hst : c.st = .done status lane1) (hg : c.graph = none)
    (hk : kNotifies (kOp c.word) = true) (hon : notifyOn c.xc.toNat = true) {u : State}
    (hpush : s.pushChan q (c.xc.toNat % 16)
      (notifyMsg ctx c.xc.toNat status lane1 (if kOp c.word = 0x46 then 0 else c.set)) = some u) :
    exec (.commandNotify q idx) s = .next (u.cmdGone q c.id) := by
  show execCommandNotify q idx s = _
  unfold execCommandNotify
  rw [hc, hctx]
  dsimp only
  rw [hst]
  dsimp only
  rw [if_neg (by simp [halive]), hk, hon, if_pos (by decide), hpush]
  dsimp only
  rw [State.nodeDone_none hg]

theorem laneAt_words_zero (ctx : Nat) (h : Handle) (x y : Nat) : laneAt 32 (Token.words ctx h [x, y]).pay 0 = x % 2 ^ 32 :=
  laneAt_packLanes (w := 32) (i := 0) [x, y] (by decide)

theorem laneAt_words_one (ctx : Nat) (h : Handle) (x y : Nat) : laneAt 32 (Token.words ctx h [x, y]).pay 1 = y % 2 ^ 32 :=
  laneAt_packLanes (w := 32) (i := 1) [x, y] (by decide)

theorem bitF_lt (n hi lo : Nat) : bitF n hi lo < 2 ^ (hi + 1 - lo) := Nat.mod_lt _ (Nat.two_pow_pos _)

theorem State.cmdDone_here {id : Nat} (h : ∃ c ∈ (s.qcc q).cmds, c.id = id) (status lane1 : Nat) :
    s.cmdDone q id status lane1 = s.setQcc q ((s.qcc q).ended id status lane1) := by
  obtain ⟨c, hc, hid⟩ := h
  exact if_pos (List.any_eq_true.mpr ⟨c, hc, by simp [hid]⟩)

theorem State.cmdNodeComplete_end {node st : Nat} {n : GNode} (hn : tabGet (s.qcc q).graph node = some n)
    (hctx : (s.qcc q).ctx = some ctx) (halive : s.alive ctx = true) (hl : n.launched = true) (hst : n.result = some st) :
    exec (.cmdNodeComplete q node) s = .next (s.nodeEnd q node n st) := by
  show execCmdNodeComplete q node s = _
  unfold execCmdNodeComplete
  rw [hn, hctx]
  dsimp only
  rw [if_neg (by simp [halive]), if_neg (by simp [hl]), hst]

/-- What the record of a CMDFAIL holds. -/
theorem cmdFail_fields (ctx lf q node st : Nat) :
    let r := (BitVec.ofNat 128 (0x85 * 2 ^ 120 + ctx % 4096 * 2 ^ 108 + lf % 256 * 2 ^ 100 + q % 4 * 2 ^ 98
      + (node % 64 + st % 2 ^ 16 * 2 ^ 16) * 2 ^ 12)).toNat
    bitF r 127 120 = 0x85 ∧ bitF r 17 12 = node % 64 ∧ bitF r 43 28 = st % 2 ^ 16 := by
  intro r
  have hr : r = 0x85 * 2 ^ 120 + ctx % 4096 * 2 ^ 108 + lf % 256 * 2 ^ 100 + q % 4 * 2 ^ 98
      + (node % 64 + st % 2 ^ 16 * 2 ^ 16) * 2 ^ 12 := by
    refine (BitVec.toNat_ofNat ..).trans (Nat.mod_eq_of_lt ?_)
    omega
  refine ⟨?_, ?_, ?_⟩
  all_goals
    rw [bitF, hr]
    omega

theorem State.cmdFail_sent (hctx : (s.qcc q).ctx = some ctx) {node : Nat} {n : GNode} (hn : tabGet (s.qcc q).graph node = some n) (st : Nat) :
    ∃ m x, s.cmdFail q node st = { s with ctxs := x, trapOut := s.trapOut ++ [m] } ∧ m.kind = 2 ∧ m.ctx = ctx ∧ m.plate = n.set ∧
      bitF m.record.toNat 127 120 = 0x85 ∧ bitF m.record.toNat 17 12 = node % 64 ∧ bitF m.record.toNat 43 28 = st % 2 ^ 16 := by
  unfold State.cmdFail
  rw [hctx]
  dsimp only
  rw [hn]
  dsimp only
  obtain ⟨x, hx⟩ := s.sendQccTrap_frame ctx _ n.set
  exact ⟨_, x, hx, rfl, rfl, rfl, cmdFail_fields ..⟩

end

/-- Settles O34: the command leaves its list, with its message when it names one; nodes and barriers by their own equations. -/
theorem completionEventResults : Obligations.CompletionEventResults := by
  unfold Obligations.CompletionEventResults
  refine ⟨?_, ?_, ?_, ?_, ?_⟩
  · intro s q idx ctx status lane1 c hctx halive hc hst hg v left
    refine ⟨State.commandNotify_silent hctx halive hc hst hg, fun hk hon hroom => ?_⟩
    obtain ⟨u, hpush, hframe, hchan, hrest⟩ :=
      State.pushChan_room (s := s) (notifyMsg ctx v status lane1 (if kOp c.word = 0x46 then 0 else c.set)) hroom
    have hgone : (u.cmdGone q c.id).qcc q = { u.qcc q with cmds := (u.qcc q).cmds.filter (·.id != c.id) } := by
      rw [State.cmdGone, State.qcc_setQcc, if_pos rfl]
    have hchan' := (congrArg (fun k : Qcc => k.chan (v % 16)) hgone).trans hchan
    refine ⟨_, _, State.commandNotify_sends hctx halive hc hst hg hk hon hpush, ?_, ?_, hchan', ?_, ?_, rfl⟩
    · rw [State.cmdGone, hframe]
      rfl
    · rw [hgone, hrest]
    · have hbit := bitF_lt v 31 16
      exact (laneAt_words_zero ctx c.set _ _).trans (Nat.mod_eq_of_lt (by omega))
    · exact (laneAt_words_one ctx c.set _ _).trans (Nat.mod_mod ..)
  · intro s q node ctx st n hn hctx halive hl hst
    have hx := State.cmdNodeComplete_end hn hctx halive hl hst
    refine ⟨fun hz hsucc => ?_, fun hz => ?_⟩
    · rw [hx]
      unfold State.nodeEnd
      rw [if_neg (not_not_intro hz), hsucc]
      rfl
    · obtain ⟨m, x, hfail, hkind, hmctx, hplate, hfields⟩ := State.cmdFail_sent hctx hn st
      refine ⟨_, m, hx, ?_, ?_, hkind, hmctx, hplate, hfields⟩
      · unfold State.nodeEnd State.setNode
        rw [if_pos hz, hfail, State.qcc_setQcc, if_pos rfl]
        rfl
      · unfold State.nodeEnd State.setNode
        rw [if_pos hz, hfail]
        rfl
  · intro s idx home gen q id hreg hfirst
    have hold : ((s.barrRegs.take idx).any fun o => regHome o == home && decide (regFlag o < 2)) = false := by
      rw [List.any_eq_false]
      intro o ho
      rcases hfirst o ho with h | h
      · simp [regHome, h]
      · rw [show regFlag o = o.2.2.2.2 from rfl, decide_eq_false (Nat.not_lt.mpr h), Bool.and_false]
        decide
    show execBarrierRegistration idx s = _
    unfold execBarrierRegistration
    rw [hreg]
    dsimp only
    rw [show ((s.barrRegs.take idx).any fun o => regHome o == regHome (home, gen, q, id, 0) && decide (regFlag o < 2)) = false from hold,
      if_neg (by simp [regFlag])]
    rfl
  · intro s home gen q id hreg
    refine ⟨({ s with barrRegs := [(home, gen, q, id, 2)] } : State).genPassed home gen, ?_, ?_, ?_⟩
    · show execBarrierRegistration 0 s = _
      unfold execBarrierRegistration
      rw [hreg]
      rfl
    · simp [State.genPassed, regOf, regFlag]
    · simp [State.genPassed, regOf, regFlag]
  · intro s q id g rest hdone hc
    have hend := State.cmdDone_here (s := { s with barrDone := rest }) (q := q) hc 0 g
    show execBarrierCompletion 0 s = _
    unfold execBarrierCompletion
    rw [hdone]
    exact congrArg Host.Outcome.next hend

end Sys2Proof.Machine

/-! SUPPORT. Copy nodes and streams (R85, R295 to R297). -/

namespace Sys2Proof.Machine

section
variable {s : State} {q ctx : Nat}

theorem State.setNode_graph (s : State) (q node : Nat) (n : GNode) :
    tabGet ((s.setNode q node (some n)).qcc q).graph node = some n := by
  rw [State.setNode, State.qcc_setQcc, if_pos rfl]
  exact tabGet_tabPut_same ..

/-- The unit that makes the accesses of a copy node: its reads, and its writes. -/
abbrev copyWho (s : State) (q ctx sub : Nat) : Who :=
  { ctx := ctx, part := s.partOf ctx, quire := q, kind := 3, key := unitKey 6 q sub, parks := true }

section
variable {node : Nat} {n : GNode} (hn : tabGet (s.qcc q).graph node = some n) (hctx : (s.qcc q).ctx = some ctx)
  (hissue : s.mayIssue ctx = true) (hl : n.launched = true) (hk : n.kind = 0) (hres : n.result = none)
  (hleft : n.copied < bitF n.record.toNat 79 48)
include hn hctx hissue hl hk hres hleft

theorem State.copyPiece_reads {v : Nat} {x h : Handle} {t : State} (hgot : n.got = none)
    (hread : s.unitReadAt (copyWho s q ctx (2 * node)) false (bitF n.record.toNat 191 136 + n.copied) 64 64 n.set = .ok (v, x) t)
    (hu : t.union n.set x = .ok h) :
    exec (.copyPiece q node) s = .next (t.setNode q node (some { n with got := some (v, h) })) := by
  have hgate : ¬ ((!s.mayIssue ctx) = true ∨ (!n.launched) = true ∨ n.kind ≠ 0 ∨ n.result.isSome = true ∨
      n.copied ≥ bitF n.record.toNat 79 48) := by
    simp [hissue, hl, hk, hres, hleft]
  show execCopyPiece q node s = _
  unfold execCopyPiece
  rw [hn, hctx]
  dsimp only
  rw [if_neg hgate, hgot]
  dsimp only
  rw [show s.unitReadAt _ false (bitF n.record.toNat 191 136 + n.copied) 64 64 n.set = _ from hread]
  dsimp only
  rw [hu]

theorem State.copyPiece_writes {v : Nat} {x : Handle} {t : State} (hgot : n.got = some (v, x))
    (hwrite : s.unitWriteAt (copyWho s q ctx (2 * node + 1)) false (bitF n.record.toNat 135 80 + n.copied) 64 64 v x = .ok () t) :
    exec (.copyPiece q node) s = .next (t.setNode q node (some { n with
      copied := n.copied + 64, got := none, result := if n.copied + 64 ≥ bitF n.record.toNat 79 48 then some 0 else none })) := by
  have hgate : ¬ ((!s.mayIssue ctx) = true ∨ (!n.launched) = true ∨ n.kind ≠ 0 ∨ n.result.isSome = true ∨
      n.copied ≥ bitF n.record.toNat 79 48) := by
    simp [hissue, hl, hk, hres, hleft]
  show execCopyPiece q node s = _
  unfold execCopyPiece
  rw [hn, hctx]
  dsimp only
  rw [if_neg hgate, hgot]
  dsimp only
  rw [show s.unitWriteAt _ false (bitF n.record.toNat 135 80 + n.copied) 64 64 v x = _ from hwrite]

end

/-! ### Streams -/

theorem State.pressOf_modPress (s : State) (q : Nat) (f : Press → Press) : (s.modPress q f).pressOf q = f (s.pressOf q) := by
  rw [State.pressOf, State.modPress, State.setPress, tabGet_tabPut_same, Option.getD_some]

theorem State.inject_room {pos port dst : Nat} (t : Token) (hnet : t.net = .data) (hroom : (s.buf pos port 0).length < 2) :
    s.inject pos port dst t = some (s.setBuf pos port 0 (s.buf pos port 0 ++ [.tok dst t])) := by
  unfold State.inject
  rw [hnet]
  exact if_pos hroom

/-- The unit that makes the accesses of a stream. -/
abbrev streamWho (s : State) (q i ctx : Nat) : Who :=
  { ctx := ctx, part := s.partOf ctx, quire := q, kind := 3, key := unitKey 5 q i, parks := true }

theorem State.streamOn_more {i : Nat} {g : GSlot} {st : Stream} (h : st.next + 1 < patCount g.pattern) :
    s.streamOn q i g st = s.setSlot q i { g with stream := some { st with next := st.next + 1, moved := st.moved + 1 } } :=
  if_neg (Nat.not_le.mpr h)

theorem State.setSlot_slot (s : State) (q i : Nat) (g : GSlot) : tabGet ((s.setSlot q i g).qcc q).g i = some g := by
  rw [State.setSlot, State.qcc_setQcc, if_pos rfl]
  exact tabGet_tabPut_same ..

theorem engineHome_quire {e : Nat} (h : e ≤ 1) (q : Nat) : engineHome e (q * 16) = q * 16 := by
  obtain rfl | rfl : e = 0 ∨ e = 1 := by omega
  all_goals exact Nat.div_mul_cancel (Nat.dvd_mul_left 16 q)

section
variable {i : Nat} {g : GSlot} {st : Stream} {h : Handle}
  (hg : tabGet (s.qcc q).g i = some g) (hctx : (s.qcc q).ctx = some ctx) (hst : g.stream = some st) (hmay : s.engineMay q ctx = true)
include hg hctx hst hmay

theorem State.streamAccess_in (hin : st.out = false) : exec (.streamAccess q i) s = s.streamIn q i ctx g st := by
  show execStreamAccess q i s = _
  unfold execStreamAccess
  dsimp only
  rw [hg, hctx]
  dsimp only
  rw [hst]
  dsimp only
  rw [if_neg (by simp [hmay]), if_neg (by simp [hin])]

theorem State.streamAccess_out (hout : st.out = true) : exec (.streamAccess q i) s = s.streamOut q i ctx g st := by
  show execStreamAccess q i s = _
  unfold execStreamAccess
  dsimp only
  rw [hg, hctx]
  dsimp only
  rw [hst]
  dsimp only
  rw [if_neg (by simp [hmay]), if_pos hout]

end

theorem State.streamIn_delivers {i v : Nat} {g : GSlot} {st : Stream} {x h : Handle} {t : State} (he : st.engine ≤ 1)
    (hroom : (s.buf (q * 16) 5 0).length < 2)
    (hread : s.unitRead (streamWho s q i ctx) false (patAddr g.pattern st.next) (patSize g.pattern) ((s.qcc q).cmdSet st.cmd) =
      .ok (v, x) t) (hu : t.union ((s.qcc q).cmdSet st.cmd) x = .ok h) (hbuf : t.buf (q * 16) 5 0 = s.buf (q * 16) 5 0) :
    s.streamIn q i ctx g st = .next ((t.setBuf (q * 16) 5 0 (s.buf (q * 16) 5 0 ++
      [.tok (q * 16) (streamToken ctx st.engine st.port s.tick (patSize g.pattern) h v)])).streamOn q i g st) := by
  unfold State.streamIn
  dsimp only
  rw [engineHome_quire he, if_neg (Nat.not_le.mpr hroom), show s.unitRead _ false _ _ _ = _ from hread]
  dsimp only
  rw [hu]
  dsimp only
  rw [State.inject_room _ rfl (hbuf ▸ hroom), hbuf]

theorem State.streamOut_writes {i : Nat} {g : GSlot} {st : Stream} {m : Token} {rest : List Token} {h : Handle} {t : State}
    (hport : (s.pressOf q).port18 = m :: rest) (hsw : m.isSwitch = false) (hpoison : m.poison = false)
    (hu : s.union ((s.qcc q).cmdSet st.cmd) m.plate = .ok h)
    (hwrite : s.unitWrite (streamWho s q i ctx) false (patAddr g.pattern st.next) (patSize g.pattern)
      (m.pay.toNat % 2 ^ (8 * patSize g.pattern)) h = .ok () t) :
    s.streamOut q i ctx g st = .next ((t.modPress q fun p => { p with port18 := rest }).streamOn q i g st) := by
  unfold State.streamOut
  rw [hport]
  dsimp only
  rw [if_neg (by simp [hsw]), if_neg (by simp [hpoison]), hu]
  dsimp only
  rw [show s.unitWrite _ false _ _ _ _ = _ from hwrite]

end

/-- A byte inside the bytes that a value is cut to. -/
theorem byte_mod (v size i : Nat) (h : i < size) :
    (BitVec.ofNat 8 (v % 2 ^ (8 * size) / 256 ^ i) : Byte) = BitVec.ofNat 8 (v / 256 ^ i) := by
  obtain ⟨k, rfl⟩ : ∃ k, size = i + (k + 1) := ⟨size - i - 1, by omega⟩
  have hp : 2 ^ (8 * (i + (k + 1))) = 256 ^ i * 256 ^ (k + 1) := by rw [← Nat.pow_add, Nat.pow_mul]
  apply BitVec.eq_of_toNat_eq
  rw [BitVec.toNat_ofNat, BitVec.toNat_ofNat, hp, Nat.mod_mul_right_div_self, Nat.mod_mod_of_dvd]
  exact ⟨256 ^ k, Nat.pow_succ' ..⟩

theorem streamToken_node (ctx e p tick size : Nat) (h : Handle) (v : Nat) :
    (streamToken ctx e p tick size h v).node.toNat = (e * 32 + p) % 256 := BitVec.toNat_ofNat ..

theorem streamToken_pay (ctx e p tick size : Nat) (h : Handle) (v : Nat) :
    (streamToken ctx e p tick size h v).pay.toNat = v % 2 ^ 1024 := BitVec.toNat_ofNat ..

/-- Settles O35: each access names a resident word, and the node or the slot goes on. -/
theorem copyAndStreamResults : Obligations.CopyAndStreamResults := by
  unfold Obligations.CopyAndStreamResults
  refine ⟨?_, ?_⟩
  · intro s q node ctx pa n h hn hctx hissue hl hk hres hleft
    refine ⟨fun hgot hf hu => ?_, fun v g hgot hf hg hwf => ?_⟩
    · exact ⟨_, State.copyPiece_reads hn hctx hissue hl hk hres hleft hgot
        (State.unitReadAt_sram (w := copyWho s q ctx (2 * node)) hf) hu, rfl, rfl, rfl, State.setNode_graph ..⟩
    · have hedit := SramEdit.written s (memWrite s.sram pa 64 v) pa (s.partOf ctx) h
      have hsram := hedit.sram
      have hhbm := hedit.hbm
      have hctl := hedit.ctl
      refine ⟨_, State.copyPiece_writes hn hctx hissue hl hk hres hleft hgot
        (State.unitWriteAt_sram (w := copyWho s q ctx (2 * node + 1)) hf hg), ?_, ?_, fun a => ?_, State.setNode_graph ..⟩
      · exact hhbm
      · exact hctl
      · exact (congrArg (memByte · a) hsram).trans (memByte_memWrite _ _ _ _ hwf)
  · intro s q i ctx pa g st set h hg hctx hst hmay hset hmore on
    subst hset
    refine ⟨fun hin he hroom hf hu => ?_, fun m rest hout hport hsw hpoison hu hf hgr hwf => ?_⟩
    · have hx := (State.streamAccess_in hg hctx hst hmay hin).trans (State.streamIn_delivers he hroom
        (State.unitReadAt_sram (w := streamWho s q i ctx) hf) hu rfl)
      rw [State.streamOn_more hmore] at hx
      exact ⟨_, _, hx, rfl, State.setSlot_slot .., State.buf_setBuf_append .., rfl, streamToken_node .., rfl, rfl,
        streamToken_pay ..⟩
    · obtain ⟨k, hk⟩ := hgr
      have hsram := (SramEdit.written s (memWrite s.sram pa (patSize g.pattern) (m.pay.toNat % 2 ^ (8 * patSize g.pattern))) pa
        (s.partOf ctx) k).sram
      have hx := (State.streamAccess_out hg hctx hst hmay hout).trans (State.streamOut_writes hport hsw hpoison hu
        (State.unitWriteAt_sram (w := streamWho s q i ctx) hf hk))
      rw [State.streamOn_more hmore] at hx
      refine ⟨_, hx, State.setSlot_slot .., ?_, fun a => ?_⟩
      · exact congrArg Press.port18 (State.pressOf_modPress _ q fun p => { p with port18 := rest })
      · refine (congrArg (memByte · a) hsram).trans ?_
        rw [memByte_memWrite _ _ _ _ hwf]
        split
        next hin => exact byte_mod _ _ _ (by omega)
        next => rfl

end Sys2Proof.Machine

/-! SUPPORT. A Barrow moves a plot (R22, R112, R113). -/

namespace Sys2Proof.Machine

theorem listMod_getElem? {α : Type} (l : List α) (i : Nat) (g : α → α) : (listMod l i g)[i]? = l[i]?.map g := by
  induction l generalizing i with
  | nil => rfl
  | cons x l ih =>
    cases i with
    | zero => rfl
    | succ i => exact ih i

/-- Byte `i` of the bytes read at an address. -/
theorem memRead_byte (m : Memory) (a n i : Nat) (h : i < n) :
    (BitVec.ofNat 8 (memRead m a n / 256 ^ i) : Byte) = memByte m (a + i) := by
  induction n generalizing a i with
  | zero => omega
  | succ n ih =>
    have hb := (memByte m a).isLt
    cases i with
    | zero =>
      apply BitVec.eq_of_toNat_eq
      rw [memRead, BitVec.toNat_ofNat, Nat.pow_zero, Nat.div_one]
      show _ = (memByte m a).toNat
      omega
    | succ i =>
      have hdiv : memRead m a (n + 1) / 256 ^ (i + 1) = memRead m (a + 1) n / 256 ^ i := by
        rw [memRead, Nat.pow_succ', ← Nat.div_div_eq_div_mul]
        congr 1
        omega
      rw [hdiv, ih (a + 1) i (by omega), show a + 1 + i = a + (i + 1) by omega]

section
variable {s t : State} {die i : Nat}

@[simp] theorem State.plot_setPlot (s : State) (n m : Nat) (d : Plot) : (s.setPlot n d).plot m = if m = n then d else s.plot m := by
  rw [State.plot, State.setPlot, tabGet_tabPut]
  split <;> rfl

@[simp] theorem State.barrowOf_setBarrow (s : State) (d : Nat) (b : Barrow) : (s.setBarrow d b).barrowOf d = b := by
  rw [State.barrowOf, State.setBarrow, tabGet_tabPut_same, Option.getD_some]

/-- Nothing but the Barrows differs. -/
def BarrowEdit (s t : State) : Prop := ∃ b, t = { s with barrow := b }

theorem State.partEnd_edit (h : ∀ r, (s.barrowOf die).running[i]? = some r → r.failed = none) : BarrowEdit s (s.partEnd die i) := by
  unfold State.partEnd
  dsimp only
  split
  next => exact ⟨s.barrow, rfl⟩
  next r hr =>
    rw [h r hr]
    split <;> exact ⟨_, rfl⟩

/-- The part that a Barrow works on has not failed. -/
def State.sound (s : State) (die i : Nat) : Prop := ∀ r, (s.barrowOf die).running[i]? = some r → r.failed = none

theorem State.sound_modRun (h : s.sound die i) {g : Running → Running} (hg : ∀ r, (g r).failed = r.failed) :
    (s.modRun die i g).sound die i := by
  intro r hr
  rw [State.modRun, State.barrowOf_setBarrow, listMod_getElem?, Option.map_eq_some_iff] at hr
  obtain ⟨r', hr', rfl⟩ := hr
  rw [hg, h r' hr']

theorem State.nextPlot_edit (h : s.sound die i) : BarrowEdit s (s.nextPlot die i) := by
  have hmod := State.sound_modRun h (g := fun r => { r with plots := r.plots.drop 1, parked := none, handle := 0 }) fun _ => rfl
  unfold State.nextPlot
  dsimp only
  split
  next r hr =>
    split
    next =>
      obtain ⟨b, hb⟩ := State.partEnd_edit hmod
      exact ⟨b, hb⟩
    next => exact ⟨_, rfl⟩
  next => exact ⟨_, rfl⟩

/-- What the Barrow's work is when the part of its number has not failed. -/
theorem State.plotWork_sound {act : TtAction} {x : PlotWork} (h : s.plotWork die i act = some (.inl x)) (hf : x.r.failed = none) :
    s.sound die i := by
  intro r hr
  unfold State.plotWork at h
  rw [hr] at h
  dsimp only at h
  split at h
  next e p l he hp =>
    split at h
    next => cases h
    next =>
      split at h
      next => cases h
      next m hm =>
        split at h
        next => cases h
        next =>
          split at h
          next => cases h
          next =>
            split at h
            next => cases h
            next =>
              cases h
              exact hf
  next => cases h

/-! ### Pins and drops -/

theorem State.nextPlot_plot (h : s.sound die i) (n : Nat) : (s.nextPlot die i).plot n = s.plot n := by
  obtain ⟨b, hb⟩ := State.nextPlot_edit h
  rw [hb]
  rfl

theorem State.nextPlot_memory (h : s.sound die i) :
    (s.nextPlot die i).sram = s.sram ∧ (s.nextPlot die i).hbm = s.hbm ∧ (s.nextPlot die i).ctl = s.ctl := by
  obtain ⟨b, hb⟩ := State.nextPlot_edit h
  rw [hb]
  exact ⟨rfl, rfl, rfl⟩

/-! ### A fetch -/

/-- The first `rows` rows of plot `n` have been filled from plot `src`. -/
def Filled (s t : State) (n src rows : Nat) : Prop :=
  (∃ m d b, t = { s with sram := m, dies := d, barrow := b }) ∧ t.sram.wf = true ∧
  ∀ a, memByte t.sram a = if n * 4096 ≤ a ∧ a < n * 4096 + 64 * rows then memByte s.sram (src * 4096 + (a - n * 4096))
    else memByte s.sram a

theorem Filled.sramFit {n src rows part va al pa : Nat} {lg md : Bool} (h : Filled s t n src rows)
    (hf : s.sramFit part lg va al pa md) : t.sramFit part lg va al pa md := by
  obtain ⟨⟨m, d, b, rfl⟩, -⟩ := h
  exact hf

/-- The bytes once `w` more have been copied from `q + r` to `p + r`, between ranges of `size` bytes that do not meet. -/
theorem copied_more {m m0 : Memory} {p q r w size : Nat} (hfar : q + size ≤ p ∨ p + size ≤ q) (hr : r + w ≤ size) (hwf : m.wf = true)
    (hbytes : ∀ a, memByte m a = if p ≤ a ∧ a < p + r then memByte m0 (q + (a - p)) else memByte m0 a) (a : Nat) :
    memByte (memWrite m (p + r) w (memRead m (q + r) w)) a =
      if p ≤ a ∧ a < p + (r + w) then memByte m0 (q + (a - p)) else memByte m0 a := by
  rw [memByte_memWrite _ _ _ _ hwf]
  by_cases hin : p + r ≤ a ∧ a < p + r + w
  · obtain ⟨hlo, hhi⟩ := hin
    have hsrc : ¬ (p ≤ q + r + (a - (p + r)) ∧ q + r + (a - (p + r)) < p + r) := by omega
    have hall : p ≤ a ∧ a < p + (r + w) := by omega
    have hi : a - (p + r) < w := by omega
    rw [if_pos ⟨hlo, hhi⟩, memRead_byte m _ w _ hi, hbytes, if_neg hsrc, if_pos hall,
      show q + r + (a - (p + r)) = q + (a - p) by omega]
  · rw [if_neg hin, hbytes]
    by_cases hlow : p ≤ a ∧ a < p + r
    · have hall : p ≤ a ∧ a < p + (r + w) := by omega
      rw [if_pos hlow, if_pos hall]
    · have hall : ¬ (p ≤ a ∧ a < p + (r + w)) := by omega
      rw [if_neg hlow, if_neg hall]

/-- The state once a row has been copied. -/
def State.rowCopied (t : State) (die i part n src row : Nat) (g : Handle) : State :=
  (({ t.spend (.sram (src * 4096 + 64 * row)) part with
      sram := memWrite t.sram (n * 4096 + 64 * row) 64 (memRead t.sram (src * 4096 + 64 * row) 64) }).spend
    (.sram (n * 4096 + 64 * row)) part).modRun die i fun r => { r with parked := some (row + 1), handle := g }

theorem Filled.rowCopied {n src row : Nat} (hne : src ≠ n) (hrow : row < 64) (h : Filled s t n src row) (part : Nat) (g : Handle) :
    Filled s (t.rowCopied die i part n src row g) n src (row + 1) := by
  obtain ⟨⟨m, d, b, rfl⟩, hwf, hbytes⟩ := h
  refine ⟨⟨_, _, _, rfl⟩, memWrite_wf _ _ _ hwf, ?_⟩
  have hfar : src * 4096 + 4096 ≤ n * 4096 ∨ n * 4096 + 4096 ≤ src * 4096 := by omega
  have := copied_more hfar (show 64 * row + 64 ≤ 4096 by omega) hwf hbytes
  rwa [show 64 * row + 64 = 64 * (row + 1) by omega] at this

theorem Filled.errs {n src row : Nat} (h : Filled s t n src row) : t.errs = s.errs := by
  obtain ⟨⟨m, d, b, rfl⟩, -⟩ := h
  rfl

theorem Filled.union {n src row : Nat} (h : Filled s t n src row) (x y : Handle) : t.union x y = s.union x y := by
  obtain ⟨⟨m, d, b, rfl⟩, -⟩ := h
  rfl

theorem Filled.plot {n src row : Nat} (h : Filled s t n src row) (x : Nat) : t.plot x = s.plot x := by
  obtain ⟨⟨m, d, b, rfl⟩, -⟩ := h
  rfl

theorem State.fetchRow_ok {x : PlotWork} {va row src : Nat} {h g : Handle} (hrow : row < 64) (hfill : Filled s t x.n src row)
    (hf : s.sramFit x.w.part false (va + 64 * row) 64 (src * 4096 + 64 * row) false)
    (hu : s.union h (s.plot src).handle = .ok g) (k : Nat) :
    t.fetchRows die i x va (k + 1) row h =
      (t.rowCopied die i x.w.part x.n src row g).fetchRows die i x va k (row + 1) g := by
  have hread := State.unitReadAt_sram (w := x.w) (size := 64) (h := 0) (hfill.sramFit hf)
  have he : t.errs = [] := hfill.errs.trans hf.2.2.2.2
  have hplot : (src * 4096 + 64 * row) / 4096 = src := by omega
  have hunion : (t.spend (.sram (src * 4096 + 64 * row)) x.w.part).union h (t.placeHandle (.sram (src * 4096 + 64 * row))) = .ok g := by
    refine (hfill.union _ _).trans ?_
    rw [State.placeHandle, hplot, hfill.plot, hu]
  conv => lhs; rw [State.fetchRows]
  rw [hread]
  dsimp only
  rw [hunion]
  dsimp only
  rw [State.writePlace_sram (s := t.spend _ _) he]
  rfl

theorem State.fetchRows_ok {x : PlotWork} {va src : Nat} {h : Handle} (hne : src ≠ x.n)
    (hf : ∀ k, k < 64 → s.sramFit x.w.part false (va + 64 * k) 64 (src * 4096 + 64 * k) false)
    (hu : s.union h (s.plot src).handle = .ok h) (k : Nat) : ∀ (row : Nat) (t : State) (h0 : Handle), row + k = 64 → 
    Filled s t x.n src row → t.sound die i → s.union h0 (s.plot src).handle = .ok h → (k = 0 → h0 = h) →
    ∃ u, t.fetchRows die i x va k row h0 = .ok h u ∧ Filled s u x.n src 64 ∧ u.sound die i := by
  induction k with
  | zero =>
    intro row t h0 hrow hfill hsound _ hlast
    obtain rfl : row = 64 := hrow
    exact ⟨t, by rw [hlast rfl]; rfl, hfill, hsound⟩
  | succ k ih =>
    intro row t h0 hrow hfill hsound hfirst _
    rw [State.fetchRow_ok (by omega) hfill (hf row (by omega)) hfirst k]
    exact ih (row + 1) _ h (by omega) (hfill.rowCopied hne (by omega) _ _) (State.sound_modRun hsound fun _ => rfl) hu fun _ => rfl

/-! ### An evict -/

/-- A plot other than the one written keeps its descriptor. -/
theorem State.written_plot (s : State) (m : Memory) {pa n : Nat} (g : Handle) (part : Nat) (hne : pa / 4096 ≠ n) :
    (({ s with sram := m }.setPlace (.sram pa) g).spend (.sram pa) part).plot n = s.plot n := by
  show (({ s with sram := m } : State).setPlace (.sram pa) g).plot n = _
  unfold State.setPlace
  dsimp only
  split
  next => rfl
  next => exact (State.plot_setPlot ..).trans (if_neg (Ne.symm hne))

theorem SramEdit.sound_clearRes {m : Memory} {x : PlotWork} (he : SramEdit s t m) (h : s.sound die i) (d p a b : Nat) :
    ((t.charge d p a b).clearRes x).sound die i := by
  obtain ⟨p, dd, rfl⟩ := he
  exact h

theorem State.evict_next {x : PlotWork} {dst : Nat} {h : Handle} (hw : s.plotWork die i .evict = some (.inl x))
    (hres : (s.plot x.n).res = true) (hpin : (s.plot x.n).pin = false)
    (hf : s.sramFit x.w.part false x.far 4096 (dst * 4096) true) (hg : s.grown (.sram (dst * 4096)) (s.plot x.n).handle = .ok h) :
    exec (.barrowEvictPlot die i) s = .next ((((((
      { s with sram := memWrite s.sram (dst * 4096) 4096 (memRead s.sram (x.n * 4096) 4096) }.setPlace
      (.sram (dst * 4096)) h).spend (.sram (dst * 4096)) x.w.part).charge (dst * 4096 / 2 ^ 28) x.w.part 0 378).clearRes x).nextPlot
      die i)) := by
  have he : s.errs = [] := hf.2.2.2.2
  show execBarrowEvictPlot die i s = _
  unfold execBarrowEvictPlot
  rw [hw]
  dsimp only
  rw [if_neg (by simp [hres, hpin]), State.unitPlace_sram (kind := 1) hf]
  dsimp only
  rw [State.readCode_sram he, if_neg (by decide)]
  dsimp only [State.meetErrs]
  rw [State.readErrs_none he, State.unitWriteAt_sram hf hg]
  rfl

end

/-- What stands in a plot and outside it once the bytes of another plot have been written there. -/
theorem memByte_plotWritten {m : Memory} (hwf : m.wf = true) {dst n : Nat} (a : Nat) :
    memByte (memWrite m (dst * 4096) 4096 (memRead m (n * 4096) 4096)) a =
      if a / 4096 = dst then memByte m (n * 4096 + a % 4096) else memByte m a := by
  have hb := memByte_memWrite (dst * 4096) 4096 (memRead m (n * 4096) 4096) a hwf
  generalize hr : memRead m (n * 4096) 4096 = v at hb ⊢
  by_cases ha : a / 4096 = dst
  · have hin : dst * 4096 ≤ a ∧ a < dst * 4096 + 4096 := by omega
    rw [hb, if_pos hin, if_pos ha, ← hr, memRead_byte m (n * 4096) 4096 (a - dst * 4096) (by omega),
      show n * 4096 + (a - dst * 4096) = n * 4096 + a % 4096 by omega]
  · have hout : ¬ (dst * 4096 ≤ a ∧ a < dst * 4096 + 4096) := by omega
    rw [hb, if_neg hout, if_neg ha]

/-- Settles O37: the rows one by one for a fetch, one access for an evict, and the descriptor's bits for the rest. -/
theorem barrowPlotResults : Obligations.BarrowPlotResults := by
  unfold Obligations.BarrowPlotResults
  intro s die i x d
  refine ⟨?_, ?_, ?_, ?_, ?_, ?_⟩
  · intro hw hres
    show execBarrowFetchPlot die i s = _
    unfold execBarrowFetchPlot
    rw [hw]
    exact if_pos hres
  · intro src h hw hres hparked hfailed hwf hf hfirst hnext
    have hsrc : (s.plot src).res = true := by
      have := (hf 0 (by decide)).2.2.1
      rwa [show (src * 4096 + 64 * 0) / 4096 = src by omega] at this
    have hne : src ≠ x.n := fun heq => by
      rw [heq] at hsrc
      exact absurd (hsrc.symm.trans hres) (by decide)
    obtain ⟨u, hrows, ⟨⟨m, dd, b, rfl⟩, -, hbytes⟩, hsound⟩ := State.fetchRows_ok (x := x) hne hf hnext 64 0 s x.r.handle rfl
      ⟨⟨_, _, _, rfl⟩, hwf, fun a => by rw [if_neg (by omega)]⟩ (State.plotWork_sound hw hfailed) hfirst fun h64 => absurd h64 (by decide)
    have hx : exec (.barrowFetchPlot die i) s = .next (((({ s with sram := m, dies := dd, barrow := b } : State).setPlot x.n
        { d with res := true, zero := false, handle := h, gen := d.gen + 1 }).plotPort x.n).nextPlot die i) := by
      show execBarrowFetchPlot die i s = _
      unfold execBarrowFetchPlot
      rw [hw]
      dsimp only
      rw [if_neg (by rw [show (s.plot x.n).res = false from hres]; decide), hparked]
      dsimp only [Option.getD_none]
      rw [hrows]
      rfl
    obtain ⟨hsram, hhbm, hctl⟩ := State.nextPlot_memory (s := (({ s with sram := m, dies := dd, barrow := b } : State).setPlot x.n
        { d with res := true, zero := false, handle := h, gen := d.gen + 1 }).plotPort x.n) hsound
    have hplots (n) := State.nextPlot_plot (s := (({ s with sram := m, dies := dd, barrow := b } : State).setPlot x.n
        { d with res := true, zero := false, handle := h, gen := d.gen + 1 }).plotPort x.n) hsound n
    refine ⟨_, hx, ?_, fun n hn => ?_, hhbm, hctl, fun a => ?_⟩
    · exact (hplots x.n).trans ((State.plot_setPlot ..).trans (if_pos rfl))
    · exact (hplots n).trans ((State.plot_setPlot ..).trans (if_neg hn))
    · refine (congrArg (memByte · a) hsram).trans ((hbytes a).trans ?_)
      by_cases ha : a / 4096 = x.n
      · have hin : x.n * 4096 ≤ a ∧ a < x.n * 4096 + 64 * 64 := by omega
        rw [if_pos hin, if_pos ha, show a - x.n * 4096 = a % 4096 by omega]
      · have hout : ¬ (x.n * 4096 ≤ a ∧ a < x.n * 4096 + 64 * 64) := by omega
        rw [if_neg hout, if_neg ha]
  · intro hw hparked hskip
    show execBarrowEvictPlot die i s = _
    unfold execBarrowEvictPlot
    rw [hw]
    refine if_pos ⟨by rw [hparked]; rfl, ?_⟩
    rcases hskip with h | h
    · left
      rw [show (s.plot x.n).res = false from h]
      rfl
    · exact .inr h
  · intro dst h hw hres hpin hparked hfailed hwf hne hf hg
    have hsound := State.plotWork_sound hw hfailed
    have he : s.errs = [] := hf.2.2.2.2
    have hedit := SramEdit.written s (memWrite s.sram (dst * 4096) 4096 (memRead s.sram (x.n * 4096) 4096)) (dst * 4096) x.w.part h
    have hplot := State.written_plot s (memWrite s.sram (dst * 4096) 4096 (memRead s.sram (x.n * 4096) 4096)) h x.w.part
      (show dst * 4096 / 4096 ≠ x.n by omega)
    have hx := State.evict_next hw hres hpin hf hg
    generalize (({ s with sram := memWrite s.sram (dst * 4096) 4096 (memRead s.sram (x.n * 4096) 4096) }.setPlace
      (.sram (dst * 4096)) h).spend (.sram (dst * 4096)) x.w.part) = u at hedit hplot hx
    have hsound' : ((u.charge (dst * 4096 / 2 ^ 28) x.w.part 0 378).clearRes x).sound die i := hedit.sound_clearRes hsound _ _ _ _
    obtain ⟨hsram, hhbm, hctl⟩ := State.nextPlot_memory hsound'
    refine ⟨_, hx, (State.nextPlot_plot hsound' x.n).trans ?_, hhbm.trans hedit.hbm, hctl.trans hedit.ctl, fun a => ?_⟩
    · refine (State.plot_setPlot ..).trans ((if_pos rfl).trans ?_)
      rw [show (u.charge (dst * 4096 / 2 ^ 28) x.w.part 0 378).plot x.n = s.plot x.n from hplot]
    · refine (congrArg (memByte · a) (hsram.trans hedit.sram)).trans (memByte_plotWritten hwf a)
  · intro hw hfailed
    have hsound := State.plotWork_sound hw hfailed
    have hplots (n) := State.nextPlot_plot (s := (s.setPlot x.n { d with pin := !x.e.clr }).plotPort x.n) hsound n
    obtain ⟨hsram, hhbm, -⟩ := State.nextPlot_memory (s := (s.setPlot x.n { d with pin := !x.e.clr }).plotPort x.n) hsound
    refine ⟨((s.setPlot x.n { d with pin := !x.e.clr }).plotPort x.n).nextPlot die i, ?_, ?_, fun n hn => ?_, hsram, hhbm⟩
    · show execBarrowPinPlot die i s = _
      unfold execBarrowPinPlot
      rw [hw]
    · exact (hplots x.n).trans ((State.plot_setPlot ..).trans (if_pos rfl))
    · exact (hplots n).trans ((State.plot_setPlot ..).trans (if_neg hn))
  · intro hw hfailed
    have hsound := State.plotWork_sound hw hfailed
    have hx : exec (.barrowDropPlot die i) s =
        .next ((if d.pin then s else (s.setPlot x.n { d with res := false }).plotPort x.n).nextPlot die i) := by
      show execBarrowDropPlot die i s = _
      unfold execBarrowDropPlot
      rw [hw]
    by_cases hpin : d.pin = true
    · rw [if_pos hpin] at hx ⊢
      obtain ⟨hsram, hhbm, -⟩ := State.nextPlot_memory hsound
      exact ⟨_, hx, State.nextPlot_plot hsound _, fun n _ => State.nextPlot_plot hsound n, hsram, hhbm⟩
    · rw [if_neg hpin] at hx ⊢
      have hplots (n) := State.nextPlot_plot (s := (s.setPlot x.n { d with res := false }).plotPort x.n) hsound n
      obtain ⟨hsram, hhbm, -⟩ := State.nextPlot_memory (s := (s.setPlot x.n { d with res := false }).plotPort x.n) hsound
      refine ⟨_, hx, ?_, fun n hn => ?_, hsram, hhbm⟩
      · exact (hplots x.n).trans ((State.plot_setPlot ..).trans (if_pos rfl))
      · exact (hplots n).trans ((State.plot_setPlot ..).trans (if_neg hn))

end Sys2Proof.Machine

/-! SUPPORT. The timetable's events: marks, arming, hand-off and start (R108 to R111, R265). -/

namespace Sys2Proof.Machine

section
variable {s : State} {ctx : Nat}

theorem tabGet_map {α β : Type} (t : Tab α) (g : α → β) (k : Nat) : tabGet (t.map fun x => (x.1, g x.2)) k = (tabGet t k).map g := by
  induction t with
  | nil => rfl
  | cons x r ih =>
    rw [List.map_cons, tabGet, tabGet]
    split
    next => rfl
    next =>
      split
      next => rfl
      next => exact ih

/-- The first one of a kind, after all of that kind have changed. -/
theorem find?_map_of {α : Type} (p : α → Bool) (g : α → α) (hg : ∀ x, p x = true → p (g x) = true) (l : List α) :
    (l.map fun x => if p x then g x else x).find? p = (l.find? p).map g := by
  induction l with
  | nil => rfl
  | cons x l ih =>
    rw [List.map_cons]
    by_cases hp : p x = true
    · rw [if_pos hp, List.find?_cons_of_pos (hg x hp), List.find?_cons_of_pos hp]
      rfl
    · rw [if_neg hp, List.find?_cons_of_neg hp, List.find?_cons_of_neg hp, ih]

theorem State.barrowOf_setBarrow_eq (s : State) (d e : Nat) (b : Barrow) :
    (s.setBarrow d b).barrowOf e = if e = d then b else s.barrowOf e := by
  rw [State.barrowOf, State.setBarrow, tabGet_tabPut]
  split <;> rfl

/-! ### Arming -/

/-- The timetable of a context after it has been changed. -/
theorem State.timetable_modTable {g : Timetable → Timetable} (hg : ∀ t, (g t).ctx = t.ctx) :
    (s.modTable ctx g).timetable ctx = (s.timetable ctx).map g := by
  have hkeep (t : Timetable) (ht : (t.ctx == ctx) = true) : ((g t).ctx == ctx) = true := by rwa [hg]
  have hfind := find?_map_of (fun t : Timetable => t.ctx == ctx) g hkeep (s.barrowOf (s.homeDie ctx)).tables
  rw [State.timetable, State.timetable, show (s.modTable ctx g).homeDie ctx = s.homeDie ctx from rfl, State.modTable,
    State.barrowOf_setBarrow, ← hfind]
  simp only [beq_iff_eq]

/-- The markers of arity 0 in a context's image. -/
def State.zeroMarkers (s : State) (ctx : Nat) : List Nat :=
  match s.image? ctx with | some im => (im.markers.filter (·.2 == 0)).map (·.1) | none => []

/-- A timetable armed anew, with the markers of arity 0 reached. -/
def Timetable.rearmed (zero : List Nat) (t : Timetable) : Timetable :=
  zero.foldl Timetable.reach { t with st := [], counts := [], handoff := [], armed := true, arming := none }

theorem Timetable.rearmed_keeps (zero : List Nat) (t : Timetable) :
    (t.rearmed zero).ctx = t.ctx ∧ (t.rearmed zero).armed = true ∧ (t.rearmed zero).counts = [] ∧
      (t.rearmed zero).arming = none ∧ (t.rearmed zero).entries = t.entries := by
  have reached (u : Timetable) : (zero.foldl Timetable.reach u).ctx = u.ctx ∧ (zero.foldl Timetable.reach u).armed = u.armed ∧
      (zero.foldl Timetable.reach u).counts = u.counts ∧ (zero.foldl Timetable.reach u).arming = u.arming ∧
      (zero.foldl Timetable.reach u).entries = u.entries := by
    induction zero generalizing u with
    | nil => exact ⟨rfl, rfl, rfl, rfl, rfl⟩
    | cons m l ih => exact ih (u.reach m)
  exact reached _

/-- The state without the parts of a context that have not started. -/
def State.withoutParts (s : State) (ctx : Nat) : State :=
  { s with barrow := s.barrow.map fun b => (b.1, { b.2 with running := b.2.running.filter (·.ctx != ctx) }) }

theorem State.tables_withoutParts (d : Nat) : ((s.withoutParts ctx).barrowOf d).tables = (s.barrowOf d).tables := by
  have hget : tabGet (s.withoutParts ctx).barrow d =
      (tabGet s.barrow d).map fun b => { b with running := b.running.filter (·.ctx != ctx) } := by
    rw [← tabGet_map]
    rfl
  rw [State.barrowOf, State.barrowOf, hget]
  cases tabGet s.barrow d <;> rfl

theorem State.timetable_withoutParts : (s.withoutParts ctx).timetable ctx = s.timetable ctx := by
  show ((s.withoutParts ctx).barrowOf (s.homeDie ctx)).tables.find? _ = _
  rw [State.tables_withoutParts]
  rfl

theorem State.barrowBusy_of_none (h : ∀ d b, (d, b) ∈ s.barrow → ∀ r ∈ b.running, r.ctx ≠ ctx) : s.barrowBusy ctx = false := by
  simp only [State.barrowBusy, List.any_eq_false]
  intro x hx
  simp only [Bool.not_eq_true, List.any_eq_false]
  intro r hr
  simp [h x.1 x.2 hx r hr]

/-! ### Starting -/

/-- The best entry that may start has not started, and is the one of its index. -/
theorem bestStart_notStarted {b : Barrow} {l : List Running} {n k i : Nat} (h : bestStart s b l n = some (k, i)) :
    n ≤ i ∧ ∃ r, l[i - n]? = some r ∧ r.started = false := by
  induction l generalizing n k i with
  | nil => cases h
  | cons r l ih =>
    have tail {k i} (hr : bestStart s b l (n + 1) = some (k, i)) : n ≤ i ∧ ∃ r', (r :: l)[i - n]? = some r' ∧ r'.started = false := by
      obtain ⟨hle, r', hget, hr'⟩ := ih hr
      refine ⟨by omega, r', ?_, hr'⟩
      rw [show i - n = (i - (n + 1)) + 1 by omega]
      exact hget
    rw [bestStart] at h
    dsimp only at h
    split at h
    next => exact tail h
    next hno =>
      have hr : r.started = false := by
        simp only [Bool.or_eq_true, not_or, Bool.not_eq_true] at hno
        exact hno.1.1
      have head : n ≤ n ∧ ∃ r', (r :: l)[n - n]? = some r' ∧ r'.started = false := ⟨Nat.le_refl _, r, by rw [Nat.sub_self]; rfl, hr⟩
      split at h
      next k' j hrest =>
        split at h
        next => cases h; exact head
        next => cases h; exact tail hrest
      next => cases h; exact head

theorem State.modTable_running (s : State) (c die : Nat) (g : Timetable → Timetable) :
    ((s.modTable c g).barrowOf die).running = (s.barrowOf die).running := by
  rw [State.modTable, State.barrowOf_setBarrow_eq]
  split
  next h => rw [h]
  next => rfl

theorem State.startRun_running {die i : Nat} {r : Running} (h : (s.barrowOf die).running[i]? = some r) :
    ((s.startRun die i).barrowOf die).running[i]? = some { r with started := true } := by
  have hset : ((s.setBarrow die { s.barrowOf die with
      running := listMod (s.barrowOf die).running i fun r => { r with started := true } }).barrowOf die).running[i]? =
      some { r with started := true } := by
    rw [State.barrowOf_setBarrow, listMod_getElem?, h]
    rfl
  unfold State.startRun
  dsimp only
  rw [h]
  dsimp only
  split
  next =>
    split
    next => exact hset
    next => exact hset
    next => rw [State.setEntry, State.modTable_running, hset]
  next => exact hset

end

/-- Settles O36: each event's row, with the timetable read again after it has changed. -/
theorem timetableEventResults : Obligations.TimetableEventResults := by
  unfold Obligations.TimetableEventResults
  refine ⟨?_, ?_, ?_, ?_, ?_, ?_⟩
  · intro s idx m t hm hcounted halive hcmd ht harmed hreached
    show execMarkCount idx s = _
    unfold execMarkCount State.countMark
    rw [hm]
    dsimp only
    rw [if_neg (by simp [hcounted]), if_neg (by simp [halive]), hcmd, ht]
    dsimp only
    rw [if_neg (by simp [harmed, hreached])]
  · intro s idx pos slotIx node m f hm hcounted hnode hf halive
    show execMarkReturn idx s = _
    unfold execMarkReturn
    rw [hm]
    dsimp only
    rw [if_neg (by simp [hcounted]), hnode]
    dsimp only
    rw [hf]
    exact if_pos halive
  · intro s ctx q id t ht harming hmay hparts hcmd
    have hkeeps := Timetable.rearmed_keeps (s.zeroMarkers ctx)
    generalize hzero : s.zeroMarkers ctx = zero at hkeeps
    have hx : exec (.ttArmReset ctx) s = .next (((s.withoutParts ctx).modTable ctx (Timetable.rearmed zero)).cmdDone q id 0 0) := by
      show execTtArmReset ctx s = _
      unfold execTtArmReset
      rw [ht]
      dsimp only
      rw [harming]
      dsimp only
      rw [if_neg (by simp [State.barrowBusy_of_none hparts, hmay])]
      rw [← hzero]
      rfl
    have hdone := State.cmdDone_here (s := (s.withoutParts ctx).modTable ctx (Timetable.rearmed zero)) (q := q) hcmd 0 0
    have htab : (((s.withoutParts ctx).modTable ctx (Timetable.rearmed zero)).setQcc q
        ((((s.withoutParts ctx).modTable ctx (Timetable.rearmed zero)).qcc q).ended id 0 0)).timetable ctx = some (t.rearmed zero) := by
      refine (State.timetable_modTable fun t => (hkeeps t).1).trans ?_
      rw [State.timetable_withoutParts, ht]
      rfl
    obtain ⟨-, harmed, hcounts, harm, hentries⟩ := hkeeps t
    obtain ⟨c, hc, hid⟩ := hcmd
    refine ⟨_, t.rearmed zero, hx.trans (congrArg _ hdone), htab, harmed, hcounts, harm, hentries, c.ended id 0 0, ?_, ?_, ?_⟩
    · rw [State.qcc_setQcc, if_pos rfl]
      exact List.mem_map_of_mem hc
    · rw [← hid]
      unfold Cmd.ended
      split <;> rfl
    · unfold Cmd.ended
      rw [if_pos hid] <;> rfl
  · intro s idx ctx i t e hh ht he hmay
    show execEntryHandoff idx s = _
    unfold execEntryHandoff
    rw [hh]
    dsimp only
    rw [ht]
    dsimp only
    rw [he]
    exact if_neg (by simp [hmay])
  · intro s die k i r hcount hbest hr
    obtain ⟨-, r', hr', hns⟩ := bestStart_notStarted hbest
    rw [Nat.sub_zero, hr] at hr'
    cases hr'
    refine ⟨s.startRun die i, ?_, State.startRun_running hr, hns⟩
    show execBarrowEntryStart die s = _
    unfold execBarrowEntryStart
    dsimp only
    rw [if_neg (by omega), hbest]
  · intro s die ctx i e hcount hall hearly he
    show execEarlyFetchStart die s = _
    unfold execEarlyFetchStart
    dsimp only
    have hany : ((s.barrowOf die).running.any fun r => !r.started) = false := by
      rw [List.any_eq_false]
      intro r hr
      simp [hall r hr]
    rw [if_neg (by simp [hany]; omega), hearly]
    dsimp only
    rw [he]

end Sys2Proof.Machine

/-! SUPPORT. Configuration loads, drain notices, shadow switches and invalidations (R68, R138, R298). -/

namespace Sys2Proof.Machine

section
variable {s : State} {ctx : Nat}

/-! ### A load's results are written back -/

theorem State.regionGrow_images (s : State) (im : Tab Image) (q : Nat) (h : Handle) (l : List Nat) :
    ({ s with images := im } : State).regionGrow q h l = s.regionGrow q h l := by
  induction l with
  | nil => rfl
  | cons x l ih =>
    rw [State.regionGrow, State.regionGrow, ih]
    rfl

/-- Nothing but the bytes and the sets of control memory differs. -/
def CtlRegionEdit (s t : State) : Prop := ∃ m r, t = { s with ctl := m, ctlRegion := r }

theorem State.setRegions_edit (q : Nat) (g : List (Nat × Handle)) (s : State) :
    CtlRegionEdit s (g.foldl (fun s x => s.setRegion q x.1 x.2) s) := by
  induction g generalizing s with
  | nil => exact ⟨s.ctl, s.ctlRegion, rfl⟩
  | cons x g ih =>
    obtain ⟨m, r, h⟩ := ih (s.setRegion q x.1 x.2)
    exact ⟨m, r, h⟩

theorem State.ctlFields_edit (q a : Nat) (l : List (Nat × Nat × Nat)) (s : State) (he : s.errs = []) :
    CtlRegionEdit s (s.ctlFields q a l) := by
  induction l generalizing s with
  | nil => exact ⟨s.ctl, s.ctlRegion, rfl⟩
  | cons f l ih =>
    obtain ⟨o, n, v⟩ := f
    have he' : ({ s with ctl := memWrite s.ctl (q * 65536 + a + o) n v } : State).errs = [] := he
    rw [State.ctlFields, State.writeErrs_none he']
    obtain ⟨m, r, h⟩ := ih { s with ctl := memWrite s.ctl (q * 65536 + a + o) n v } he
    exact ⟨m, r, h⟩

/-- Fields are written back into a record whose regions can grow, when no word is marked. -/
theorem State.ctlBack_ok {q a n : Nat} {h : Handle} {l : List (Nat × Nat × Nat)} {g : List (Nat × Handle)} (he : s.errs = [])
    (hg : s.regionGrow q h (ctlRegions a n) = .inl (some g)) : ∃ t, s.ctlBack q ctx a n h l = .ok () t ∧ CtlRegionEdit s t := by
  obtain ⟨m, r, hr⟩ := State.setRegions_edit q g s
  obtain ⟨m', r', hf⟩ := State.ctlFields_edit q a l (g.foldl (fun s x => s.setRegion q x.1 x.2) s) (by rw [hr]; exact he)
  refine ⟨_, ?_, m', r', hf.trans (by rw [hr])⟩
  unfold State.ctlBack
  rw [hg]
  dsimp only
  exact if_neg (by simp [State.partUnc_none he])

/-- A sound image is loaded. -/
theorem State.loadEnd_ok {q h : Nat} {c : Cmd} {g : List (Nat × Handle)} (he : s.errs = [])
    (hg : s.regionGrow q c.set (ctlRegions c.xs.toNat 32) = .inl (some g)) (hc : ∃ o ∈ (s.qcc q).cmds, o.id = c.id) :
    ∃ t, s.loadEnd q ctx c h 0 = .ok () t ∧ t.images = s.images ∧ ∃ o ∈ (t.qcc q).cmds, o.id = c.id ∧ o.st = .done 0 (h % 2 ^ 32) := by
  obtain ⟨t, hback, m, r, ht⟩ := State.ctlBack_ok (ctx := ctx) (l := [(8, 4, h), (16, 16, (0 : BitVec 128).toNat), (12, 1, 1)]) he hg
  have hc' : ∃ o ∈ (t.qcc q).cmds, o.id = c.id := by rwa [ht]
  have hend : s.loadEnd q ctx c h 0 = .ok () (t.cmdDone q c.id 0 h) := by
    unfold State.loadEnd
    rw [hback]
    rfl
  refine ⟨_, hend, ?_, ?_⟩
  · rw [State.cmdDone_here hc', ht]
    rfl
  · rw [State.cmdDone_here hc', State.qcc_setQcc, if_pos rfl]
    obtain ⟨o, ho, hid⟩ := hc'
    refine ⟨o.ended c.id 0 h, List.mem_map_of_mem ho, ?_, ?_⟩
    · unfold Cmd.ended
      split <;> exact hid
    · unfold Cmd.ended
      rw [if_pos hid]

/-! ### A switch -/

theorem State.switchSlots_frame (l : List Nat) (s : State) : ∃ e, l.foldl (fun s p => s.setElem p ((s.elem p).switchSlot ctx)) s =
    { s with elems := e } ∧ ∀ p, p ∉ l → (tabGet e p) = tabGet s.elems p := by
  induction l generalizing s with
  | nil => exact ⟨s.elems, rfl, fun _ _ => rfl⟩
  | cons x l ih =>
    obtain ⟨e, he, hp⟩ := ih (s.setElem x ((s.elem x).switchSlot ctx))
    refine ⟨e, he, fun p hn => ?_⟩
    rw [List.mem_cons, not_or] at hn
    rw [hp p hn.2, State.setElem, tabGet_tabPut, if_neg hn.1]

theorem State.writeErrs_frame (s : State) (st : Store) (a n : Nat) : ∃ e, s.writeErrs st a n = { s with errs := e } := by
  unfold State.writeErrs
  exact ⟨_, rfl⟩

/-- Binding tasks changes control memory and the control cores only. -/
theorem State.bindTasks_frame (part : Nat) (l : List TaskRec) (s : State) :
    ∃ m e k, s.bindTasks part l = { s with ctl := m, errs := e, qccs := k } := by
  induction l generalizing s with
  | nil => exact ⟨s.ctl, s.errs, s.qccs, rfl⟩
  | cons t l ih =>
    rw [State.bindTasks]
    split
    next q _ =>
      obtain ⟨m, e, k, h⟩ := ih (s.bindTask q t)
      refine ⟨m, e, k, h.trans ?_⟩
      obtain ⟨e', he⟩ := State.writeErrs_frame ({ s with ctl := memWrite s.ctl (q * 65536 + t.load) t.code.length (numOf t.code) } : State)
        .control (q * 65536 + t.load) t.code.length
      rw [State.bindTask, he]
      rfl
    next => exact ih s

theorem State.cmdDone_frame (s : State) (q id st l : Nat) : ∃ k v, s.cmdDone q id st l = { s with qccs := k, saves := v } := by
  unfold State.cmdDone
  split
  next => exact ⟨_, s.saves, rfl⟩
  next => exact ⟨_, _, rfl⟩

end

/-- Settles O38: the four events, with what a load writes back and what a switch leaves. -/
theorem configurationEventResults : Obligations.ConfigurationEventResults := by
  unfold Obligations.ConfigurationEventResults
  refine ⟨?_, ?_, ?_, ?_⟩
  · intro s s1 q ctx x c b im g hctx hload hx hmay hfetch hcheck hfn hg he hc
    obtain ⟨t, hend, himages, hdone⟩ := State.loadEnd_ok (s := { s1 with images := tabPut s1.images s1.newLoad im }) (ctx := ctx)
      (h := s1.newLoad) he (State.regionGrow_images .. |>.trans hg) hc
    refine ⟨t, ?_, by rw [himages, tabGet_tabPut_same], hdone⟩
    show execCfgLoadComplete q s = _
    unfold execCfgLoadComplete
    dsimp only
    rw [hctx, hload]
    dsimp only
    rw [hx]
    dsimp only
    rw [if_neg (by simp [hmay]), hfetch]
    dsimp only
    unfold State.loadDecide
    dsimp only
    rw [hcheck]
    dsimp only
    rw [if_neg (by omega), hend]
  · intro s idx ctx pos node c hd hc s1
    refine ⟨fun w hw hlt => ?_, fun hnone => ?_⟩
    · show execDrainNotice idx s = _
      unfold execDrainNotice
      rw [hd]
      dsimp only
      rw [hc]
      dsimp only
      rw [hw]
      exact if_pos hlt
    · show execDrainNotice idx s = _
      unfold execDrainNotice
      rw [hd]
      dsimp only
      rw [hc]
      dsimp only
      rw [hnone]
  · intro s ctx c w im hc hw him hmay hcount hready
    obtain ⟨e, hslots, helems⟩ := State.switchSlots_frame (ctx := ctx) (s.heldElems c) s
    obtain ⟨m, er, k, hbind⟩ := State.bindTasks_frame c.part im.tasks (({ s with elems := e } : State).switchEngines ctx c.part im)
    let u : State := State.setCtx { ({ s with elems := e } : State).switchEngines ctx c.part im with ctl := m, errs := er, qccs := k } ctx
      { c with image := w.image, acts := im.acts, shadow := none, switch := none }
    obtain ⟨k', v, hdone⟩ := u.cmdDone_frame w.cmd.1 w.cmd.2 0 0
    have hx : exec (.shadowSwitch ctx) s = .next { u with qccs := k', saves := v } := by
      show execShadowSwitch ctx s = _
      unfold execShadowSwitch
      rw [hc]
      dsimp only
      rw [hw]
      dsimp only
      rw [him]
      dsimp only
      rw [if_neg (by simp [hmay, hcount, hready]), hslots, hbind]
      exact congrArg Host.Outcome.next hdone
    exact ⟨_, hx, tabGet_tabPut_same .., fun p hp => congrArg (·.getD Elem.fresh) (helems p hp), rfl, rfl⟩
  · intro s idx v hv hall
    show execInvalidationComplete idx s = _
    unfold execInvalidationComplete
    rw [hv]
    refine if_pos (List.all_eq_true.mpr fun id hid => ?_)
    rw [hall id hid]

end Sys2Proof.Machine

/-! SUPPORT. Walks, fault messages and folio moves (R17, R64 to R67, R72). -/

namespace Sys2Proof.Machine

/-! ### Tables and memories whose addresses rise -/

theorem tabGet_mem {α : Type} {t : Tab α} {k : Nat} {x : α} (h : tabGet t k = some x) : (k, x) ∈ t := by
  induction t with
  | nil => cases h
  | cons p r ih =>
    rw [tabGet] at h
    split at h
    next hk => cases h; exact hk ▸ List.mem_cons_self
    next =>
      split at h
      next => cases h
      next => exact List.mem_cons_of_mem _ (ih h)

theorem tabGet_iff {α : Type} {t : Tab α} (ht : Tab.rising t) (k : Nat) (x : α) : tabGet t k = some x ↔ (k, x) ∈ t := by
  refine ⟨tabGet_mem, fun h => ?_⟩
  induction t with
  | nil => cases h
  | cons p r ih =>
    obtain ⟨hp, hr⟩ := List.pairwise_cons.mp ht
    rcases List.mem_cons.mp h with rfl | hmem
    · rw [tabGet, if_pos rfl]
    · have hlt : p.1 < k := hp _ hmem
      rw [tabGet, if_neg (by omega), if_neg (by omega)]
      exact ih hr hmem

theorem Tab.rising.filter {α : Type} {t : Tab α} (h : Tab.rising t) (p : Nat × α → Bool) : Tab.rising (t.filter p) :=
  List.Pairwise.filter p h

theorem tabGet_filter {α : Type} {t : Tab α} (ht : Tab.rising t) (p : Nat → Bool) (k : Nat) :
    tabGet (t.filter fun c => p c.1) k = if p k then tabGet t k else none := by
  refine Option.ext fun x => ?_
  rw [tabGet_iff (ht.filter _), List.mem_filter]
  split
  next h => rw [tabGet_iff ht]; simp [h]
  next h => simp [h]

theorem memClear_wf {m : Memory} (a n : Nat) (h : m.wf = true) : (memClear m a n).wf = true := by
  rw [Memory.wf_iff] at *
  exact ⟨h.1.filter _, fun p hp => h.2 p (List.mem_filter.mp hp).1⟩

theorem memByte_memClear {m : Memory} (a n x : Nat) (h : m.wf = true) :
    memByte (memClear m a n) x = if a ≤ x ∧ x < a + n then 0 else memByte m x := by
  have hr := ((Memory.wf_iff m).mp h).1
  rw [memByte, memClear, tabGet_filter hr (fun k => !(decide (a ≤ k) && decide (k < a + n)))]
  by_cases hx : a ≤ x ∧ x < a + n
  · simp [hx]
  · rw [if_neg hx, if_pos (by simp; omega)]
    rfl

theorem memPuts_wf (l : List Host.Cell) {m : Memory} (h : m.wf = true) : (l.foldl (fun m c => memPut m c.1 c.2) m).wf = true := by
  induction l generalizing m with
  | nil => exact h
  | cons c l ih => exact ih (memPut_wf _ _ h)

/-- What stands in a memory once bytes of rising addresses have been written. -/
theorem memByte_memPuts {l : List Host.Cell} (hl : Tab.rising l) {m : Memory} (h : m.wf = true) (x : Nat) :
    memByte (l.foldl (fun m c => memPut m c.1 c.2) m) x = (tabGet l x).getD (memByte m x) := by
  induction l generalizing m with
  | nil => rfl
  | cons c l ih =>
    obtain ⟨hc, hr⟩ := List.pairwise_cons.mp hl
    rw [List.foldl_cons, ih hr (memPut_wf _ _ h), memByte_memPut _ _ _ h, tabGet]
    by_cases hx : x = c.1
    · have hnone : tabGet l x = none := tabGet_eq_none_of_below fun p hp => hx ▸ hc p hp
      rw [if_pos hx, if_pos hx.symm, hnone]
      rfl
    · rw [if_neg hx, if_neg (Ne.symm hx)]
      split
      next hlt =>
        have hnone : tabGet l x = none := tabGet_eq_none_of_below fun p hp => Nat.lt_trans hlt (hc p hp)
        rw [hnone]
      next => rfl

/-- The cells of range `o` of a memory of ranges of `n` bytes, at their places in range `g`. -/
def movedCells (o g n : Nat) (m : Memory) : Memory := (m.filter fun c => c.1 / n == o).map fun c => (g * n + c.1 % n, c.2)

/-- The bytes of one range of `n` bytes copied over another. -/
theorem memByte_copyRange {m : Memory} (h : m.wf = true) {n : Nat} (hn : 0 < n) (o g x : Nat) :
    memByte (copyRanges [(o, g)] n m) x = if x / n = g then memByte m (o * n + x % n) else memByte m x := by
  have hr := ((Memory.wf_iff m).mp h).1
  have hsrc : Tab.rising (movedCells o g n m) := by
    refine List.pairwise_map.mpr ((hr.filter _).imp_of_mem ?_)
    intro p q hp hq hlt
    have hpo : p.1 / n = o := by simpa using (List.mem_filter.mp hp).2
    have hqo : q.1 / n = o := by simpa using (List.mem_filter.mp hq).2
    have hp' := Nat.div_add_mod p.1 n
    have hq' := Nat.div_add_mod q.1 n
    rw [hpo] at hp'
    rw [hqo] at hq'
    show g * n + p.1 % n < g * n + q.1 % n
    omega
  have hget (k : Nat) : tabGet (movedCells o g n m) k =
      if k / n = g then tabGet m (o * n + k % n) else none := by
    refine Option.ext fun b => ?_
    rw [tabGet_iff hsrc, movedCells, List.mem_map]
    constructor
    · rintro ⟨c, hc, hk⟩
      obtain ⟨hcm, hco⟩ := List.mem_filter.mp hc
      cases hk
      have hco' : c.1 / n = o := by simpa using hco
      have hdm := Nat.div_add_mod c.1 n
      have hlt := Nat.mod_lt c.1 hn
      rw [if_pos (by rw [Nat.mul_comm, Nat.mul_add_div hn, Nat.div_eq_of_lt hlt, Nat.add_zero]),
        Nat.mul_comm g n, Nat.mul_add_mod, Nat.mod_mod, ← hco', Nat.mul_comm, hdm]
      exact (tabGet_iff hr _ _).mpr hcm
    · intro hb
      split at hb
      next hk =>
        have hmem := tabGet_mem hb
        have hlt := Nat.mod_lt k hn
        have hdm := Nat.div_add_mod k n
        refine ⟨(o * n + k % n, b), List.mem_filter.mpr ⟨hmem, ?_⟩, ?_⟩
        · rw [Nat.mul_comm, Nat.mul_add_div hn, Nat.div_eq_of_lt hlt]
          simp
        · rw [Nat.mul_comm o, Nat.mul_add_mod, Nat.mod_mod, ← hk, Nat.mul_comm _ n, hdm]
      next => cases hb
  show memByte (List.foldl (fun m c => memPut m c.1 c.2) (memClear m (g * n) n) (movedCells o g n m ++ [])) x = _
  rw [List.append_nil, memByte_memPuts hsrc (memClear_wf _ _ h), hget, memByte_memClear _ _ _ h]
  by_cases hx : x / n = g
  · have hdm := Nat.div_add_mod x n
    have hlt := Nat.mod_lt x hn
    rw [hx, Nat.mul_comm] at hdm
    rw [if_pos hx, if_pos hx, if_pos (by omega)]
    rfl
  · have hout : ¬ (g * n ≤ x ∧ x < g * n + n) := fun hin => hx (by
      rw [Nat.div_eq_iff hn]
      omega)
    rw [if_neg hx, if_neg hx, if_neg hout]
    rfl

section
variable {s t : State}

/-! ### Walks -/

theorem State.floor_none {pa e : Nat} {big : Bool} (h : bitF e 59 48 = 0) : s.floor pa e big = (.ok 0, s) := by
  unfold State.floor
  dsimp only
  exact if_pos (.inr (.inl h))

/-- A word with a bit set still fits in 64 bits. -/
theorem or_lt_64 {e n : Nat} (h : e < 2 ^ 64) (hn : n < 2 ^ 64) : e ||| n < 2 ^ 64 := Nat.or_lt_two_pow h hn

theorem ptTouched_eq (e kind : Nat) : ptTouched e kind = if kind = 0 then e ||| 2 ^ 6 else e ||| 2 ^ 6 ||| 2 ^ 7 := by
  unfold ptTouched
  split
  next => exact Nat.or_zero _
  next => rfl

theorem ptTouched_lt {e : Nat} (h : e < 2 ^ 64) (kind : Nat) : ptTouched e kind < 2 ^ 64 := by
  rw [ptTouched_eq]
  split
  · exact or_lt_64 h (by decide)
  · exact or_lt_64 (or_lt_64 h (by decide)) (by decide)

/-- What the leaf of a walk is: the entry read, at its own address. -/
theorem State.walkRead_leaf {lvl base va kind pte e l : Nat} (h : s.walkRead lvl base va kind = .leaf pte e l) :
    e = memRead s.hbm pte 8 := by
  unfold State.walkRead at h
  dsimp only at h
  split at h
  next => cases h
  next =>
  split at h
  next => cases h
  next =>
  split at h
  next => cases h
  next =>
  split at h
  next => split at h <;> cases h
  next =>
  split at h
  next => cases h
  next =>
  split at h
  next => cases h
  next =>
  split at h
  next => cases h
  next =>
  split at h
  next => cases h
  next =>
  split at h
  next => cases h
  next => cases h; rfl

/-- The leaf's word is written with A, and D for a write. -/
theorem State.touchLeaf {pte e kind : Nat} (hwf : s.hbm.wf = true) (he : e = memRead s.hbm pte 8) :
    ∃ m c, (if ptTouched e kind = e then s else s.modLeaf pte fun x => ptTouched x kind) = { s with hbm := m, cached := c } ∧
      memRead m pte 8 = ptTouched e kind ∧ ∀ a, (a < pte ∨ pte + 8 ≤ a) → memByte m a = memByte s.hbm a := by
  split
  next h => exact ⟨s.hbm, s.cached, rfl, by rw [h, he], fun _ _ => rfl⟩
  next =>
    refine ⟨_, _, rfl, ?_, fun a ha => memByte_memWrite_outside hwf ha⟩
    have hlt : ptTouched e kind < 256 ^ 8 := ptTouched_lt (he ▸ memRead_lt s.hbm pte 8) kind
    rw [memRead_memWrite _ _ _ hwf, ← he]
    exact Nat.mod_eq_of_lt hlt

theorem State.modPart_some {part : Nat} {p : Partn} (h : s.part? part = some p) (g : Partn → Partn) :
    s.modPart part g = s.setPart part (g p) := by
  rw [State.modPart, h]

/-! ### Folio moves -/

/-- No partition has a rank. -/
def State.noRank (s : State) : Prop := ∀ q ∈ s.parts, q.2.rank = none

/-- The folio maps, the forms under way and the SRAM are as before. -/
structure MapKept (s t : State) : Prop where
  fmap : ∀ p, (t.part? p).map (·.fmap) = (s.part? p).map (·.fmap)
  form : ∀ p, (t.part? p).map (·.form) = (s.part? p).map (·.form)
  sram : t.sram = s.sram

theorem MapKept.refl (s : State) : MapKept s s := ⟨fun _ => rfl, fun _ => rfl, rfl⟩

theorem MapKept.trans {u : State} (h : MapKept s t) (h' : MapKept t u) : MapKept s u :=
  ⟨fun p => (h'.fmap p).trans (h.fmap p), fun p => (h'.form p).trans (h.form p), h'.sram.trans h.sram⟩

theorem State.event_parts (s : State) (v : Nat) (e : EventRec) : (s.event v e).parts = s.parts ∧ (s.event v e).sram = s.sram := by
  unfold State.event
  dsimp only
  split
  · exact ⟨rfl, rfl⟩
  · split <;> exact ⟨rfl, rfl⟩

theorem MapKept.of_parts {part : Nat} {p p' : Partn} (hp : s.part? part = some p) (hparts : t.parts = tabPut s.parts part p')
    (hmap : p'.fmap = p.fmap) (hform : p'.form = p.form) (hsram : t.sram = s.sram) : MapKept s t := by
  have hget (k : Nat) : t.part? k = if k = part then some p' else s.part? k := by rw [State.part?, hparts, tabGet_tabPut]; rfl
  refine ⟨fun k => ?_, fun k => ?_, hsram⟩
  · rw [hget]
    split
    next hk => rw [hk, hp]; exact congrArg some hmap
    next => rfl
  · rw [hget]
    split
    next hk => rw [hk, hp]; exact congrArg some hform
    next => rfl

theorem State.writeStatus_parts (s : State) (part : Nat) :
    (s.writeStatus part).parts = s.parts ∧ (s.writeStatus part).sram = s.sram := ⟨rfl, rfl⟩

theorem State.setSusp_kept (s : State) (part : Nat) (v : Bool) : MapKept s (s.setSusp part v) := by
  unfold State.setSusp
  split
  next => exact .refl s
  next p hp =>
    split
    next => exact .refl s
    next =>
      dsimp only
      have hev := State.event_parts (s.setPart part { p with susp := v }) pfNum
      refine MapKept.of_parts (p' := { p with susp := v }) hp ?_ rfl rfl ?_
      · rw [(State.writeStatus_parts ..).1, (hev _).1]
        rfl
      · rw [(State.writeStatus_parts ..).2, (hev _).2]
        rfl

theorem State.guarantee_kept (h : s.noRank) : MapKept s s.guarantee := by
  have hnone (r : Nat) : s.guaranteeRank r = s := by
    have hfind : s.parts.find? (fun q => q.2.rank == some r) = none := by
      rw [List.find?_eq_none]
      intro q hq
      simp [h q hq]
    unfold State.guaranteeRank
    rw [hfind]
  have hranks (l : List Nat) : l.foldl State.guaranteeRank s = s := by
    induction l with
    | nil => rfl
    | cons r l ih => rw [List.foldl_cons, hnone, ih]
  have hsusp (l : Tab Partn) (u : State) : MapKept u (l.foldl (fun s q => if q.2.rank.isNone then s.setSusp q.1 false else s) u) := by
    induction l generalizing u with
    | nil => exact .refl u
    | cons q l ih =>
      rw [List.foldl_cons]
      split
      · exact (u.setSusp_kept q.1 false).trans (ih _)
      · exact ih u
  unfold State.guarantee
  rw [hranks]
  exact hsusp s.parts s

theorem State.noRank_modPart (h : s.noRank) (p : Nat) {f : Partn → Partn} (hf : ∀ v, (f v).rank = v.rank) : (s.modPart p f).noRank := by
  unfold State.modPart
  split
  next v hv =>
    intro q hq
    rcases mem_tabPut hq with rfl | hmem
    · exact (hf v).trans (h (p, v) (tabGet_mem hv))
    · exact h q hmem
  next => exact h

theorem BarrowEdit.trans {u : State} (h : BarrowEdit s t) (h' : BarrowEdit t u) : BarrowEdit s u := by
  obtain ⟨b, rfl⟩ := h
  obtain ⟨b', rfl⟩ := h'
  exact ⟨b', rfl⟩

/-- What is left of a move once the entries are written: nothing for a partition without a form under way. -/
theorem State.folioMove_end {part : Nat} {p : Partn} (hp : s.part? part = some p) (hform : p.form = none) (hrank : s.noRank) :
    (∀ lf, (s.guarantee.formDone part 0).mapEntry part lf = tabGet p.fmap lf) ∧ (s.guarantee.formDone part 0).sram = s.sram := by
  obtain ⟨hmap, hform', hsram⟩ := State.guarantee_kept hrank
  specialize hmap part
  specialize hform' part
  rw [hp] at hmap hform'
  obtain ⟨p', hp', hmap⟩ := Option.map_eq_some_iff.mp hmap
  rw [hp', Option.map_some, Option.map_some, hform] at hform'
  have hdone : s.guarantee.formDone part 0 = s.guarantee := by
    unfold State.formDone
    rw [hp']
    dsimp only
    rw [Option.some_inj.mp hform']
  rw [hdone]
  refine ⟨fun lf => ?_, hsram⟩
  rw [State.mapEntry, hp']
  exact congrArg (tabGet · lf) hmap

/-- Nothing but the Barrows differs once the timetables have moved. -/
theorem State.moveTimetables_edit (s : State) (part : Nat) (old : State) : BarrowEdit s (s.moveTimetables part old) := by
  have fold {α : Type} (g : State → α → State) (hg : ∀ u x, BarrowEdit u (g u x)) (l : List α) (u : State) :
      BarrowEdit u (l.foldl g u) := by
    induction l generalizing u with
    | nil => exact ⟨u.barrow, rfl⟩
    | cons x l ih =>
      obtain ⟨b, hb⟩ := hg u x
      obtain ⟨b', hb'⟩ := ih (g u x)
      exact ⟨b', by rw [List.foldl_cons, hb', hb]⟩
  have back (u : State) (r : Running) : BarrowEdit u (u.runBack r) := by
    refine fold _ (fun v d => ?_) _ _
    dsimp only
    split
    · exact ⟨v.barrow, rfl⟩
    · exact ⟨_, rfl⟩
  have set (u : State) (d : Nat) (x : Barrow) : BarrowEdit u (u.setBarrow d x) := ⟨_, rfl⟩
  unfold State.moveTimetables
  dsimp only
  refine BarrowEdit.trans (BarrowEdit.trans (BarrowEdit.trans ⟨_, rfl⟩ (fold _ (fun u x => ?_) _ _)) (fold _ back _ _))
    (fold _ (fun u x => ?_) _ _)
  · exact set _ _ _
  · exact set _ _ _

/-- Nothing but the descriptors of the plots and the rows still to be zeroed differs. -/
def PlotEdit (s t : State) : Prop := ∃ p z, t = { s with plots := p, zeroRows := z }

/-- The descriptor of a plot of a folio copied, and what of it is still to be zeroed. -/
def copyPlot (s : State) (x : Nat × Nat) (t : State) (i : Nat) : State :=
  { t.setPlot (x.2 * 4096 + i) (s.plot (x.1 * 4096 + i)) with
    zeroRows := match tabGet s.zeroRows (x.1 * 4096 + i) with
      | some k => tabPut t.zeroRows (x.2 * 4096 + i) k
      | none => tabDel t.zeroRows (x.2 * 4096 + i) }

/-- What a copy of folios leaves of the rest. -/
theorem State.copyFolios_frame (s : State) (l : List (Nat × Nat)) :
    ∃ c r e p z, s.copyFolios l =
      { s with sram := copyRanges l (2 ^ 24) s.sram, ctl := c, ctlRegion := r, errs := e, plots := p, zeroRows := z } := by
  have fold {α : Type} (g : State → α → State) (hg : ∀ u x, PlotEdit u (g u x)) (l : List α) (u : State) : PlotEdit u (l.foldl g u) := by
    induction l generalizing u with
    | nil => exact ⟨u.plots, u.zeroRows, rfl⟩
    | cons x l ih =>
      obtain ⟨p, z, h⟩ := hg u x
      obtain ⟨p', z', h'⟩ := ih (g u x)
      exact ⟨p', z', by rw [List.foldl_cons, h', h]⟩
  have plots (x : Nat × Nat) (l : List Nat) (u : State) : PlotEdit u (l.foldl (copyPlot s x) u) := fold _ (fun v i => ⟨_, _, rfl⟩) l u
  obtain ⟨p, z, h⟩ := fold (fun u x => (List.range 4096).foldl (copyPlot s x) u) (fun u x => plots x _ u) l { s with
    sram := copyRanges l (2 ^ 24) s.sram
    ctl := copyRanges l (2 ^ 18) s.ctl
    ctlRegion := tabMove (fun k => moveFolio l (k / 64) * 64 + k % 64) s.ctlRegion
    errs := copyMarks l .control (2 ^ 15) (copyMarks l .bank (2 ^ 21) s.errs) }
  exact ⟨_, _, _, p, z, h⟩

/-- A partition with its launches and fault records at their new places. -/
def movedPart (l : List (Nat × Nat)) (p : Partn) : Partn :=
  { p with launches := p.launches.map (Launch.moved l), faults := p.faults.map fun f => { f with waiters := f.waiters.map (moveKey l) } }

/-- What a move of folios leaves: the partition with its entries written, no rank that was not there, and the plots copied. -/
theorem State.commitMoves_moved {part : Nat} {p : Partn} {l : List (Nat × Nat)} (hp : s.part? part = some p) (hl : p.moves = l)
    (hne : l.isEmpty = false) (hrank : s.noRank) :
    ∃ p', (s.commitMoves part).part? part = some p' ∧ p'.fmap = p.moving.foldl settleEntry p.fmap ∧ p'.form = p.form ∧
      (s.commitMoves part).noRank ∧ (s.commitMoves part).sram = copyRanges l (2 ^ 24) s.sram := by
  obtain ⟨c, r, e, pl, z, hcopy⟩ := s.copyFolios_frame l
  have hparts : ((s.copyFolios l).relocate l).parts = s.parts.map fun x => (x.1, movedPart l x.2) := by
    rw [hcopy]
    rfl
  have hsram : ((s.copyFolios l).relocate l).sram = copyRanges l (2 ^ 24) s.sram := by
    rw [hcopy]
    rfl
  generalize hu : (s.copyFolios l).relocate l = u at hparts hsram
  have hpu : u.part? part = some (movedPart l p) := by
    rw [State.part?, hparts, tabGet_map, show tabGet s.parts part = some p from hp]
    rfl
  have hranku : u.noRank := by
    intro q hq
    rw [hparts] at hq
    obtain ⟨x, hx, rfl⟩ := List.mem_map.mp hq
    exact hrank x hx
  obtain ⟨b, hb⟩ := State.moveTimetables_edit (u.modPart part fun p => { p with fmap := p.moving.foldl settleEntry p.fmap }) part s
  have hcommit : s.commitMoves part =
      { u.modPart part (fun p => { p with fmap := p.moving.foldl settleEntry p.fmap }) with barrow := b } := by
    rw [← hb, ← hu]
    unfold State.commitMoves
    rw [hp]
    dsimp only
    rw [hl, hne]
    rfl
  rw [hcommit]
  refine ⟨{ movedPart l p with fmap := p.moving.foldl settleEntry p.fmap }, ?_, rfl, rfl, ?_, ?_⟩
  · show (u.modPart part fun p => { p with fmap := p.moving.foldl settleEntry p.fmap }).part? part = _
    rw [State.modPart_some hpu]
    exact tabGet_tabPut_same ..
  · exact State.noRank_modPart hranku part fun _ => rfl
  · show (u.modPart part fun p => { p with fmap := p.moving.foldl settleEntry p.fmap }).sram = _
    rw [State.modPart_some hpu, ← hsram]
    rfl

end

/-- Settles O39: a walk's three outcomes, the fault record's message, and the one moving folio of a partition. -/
theorem translationEventResults : Obligations.TranslationEventResults := by
  unfold Obligations.TranslationEventResults
  refine ⟨?_, ?_, ?_, ?_⟩
  · intro s die idx m hm hst hlen
    show execWalkStart die idx s = _
    unfold execWalkStart
    rw [hm]
    dsimp only
    rw [hst]
    exact if_pos hlen
  · intro s die idx lvl base m hm hst hawake hrestart haccs
    have hx : exec (.walkTableReadDone die idx) s = execWalkTableReadDone die idx s := rfl
    unfold execWalkTableReadDone at hx
    rw [hm] at hx
    dsimp only at hx
    rw [hst] at hx
    dsimp only at hx
    rw [if_neg (by simp [hawake]), if_neg (by simp [hrestart])] at hx
    refine ⟨fun b hb => ?_, fun pte e l hl hplate hwf => ?_, fun c l e hf => ?_⟩
    · rw [hb] at hx
      exact ⟨_, hx, rfl, rfl⟩
    · rw [hl] at hx
      dsimp only at hx
      rw [State.floor_none hplate] at hx
      dsimp only at hx
      obtain ⟨mem, ca, htouch, hread, hbytes⟩ := State.touchLeaf (kind := m.kind) hwf (State.walkRead_leaf hl)
      rw [htouch, haccs] at hx
      exact ⟨_, hx, rfl, hread.trans (ptTouched_eq ..), hbytes, rfl⟩
    · rw [hf] at hx
      refine hx.trans ?_
      dsimp only
      unfold State.walkFault
      rw [if_neg (by simp), haccs]
      show _ = Host.Outcome.next { s with accs := s.accs, misses := s.misses.filter (· ≠ m) }
      simp [State.accResolveAll]
  · intro s part lf q ch k p f hp hf hchan hk hroom
    obtain ⟨u, hpush, hframe, hmsg, -⟩ := State.pushChan_room (faultMessage ((s.qcc k).ctx.getD 0) f.record f.plate) hroom
    have hparts : u.part? part = some p := by rw [hframe]; exact hp
    refine ⟨u.setPart part { p with faults := p.faults.map fun x => if x.seq = f.seq then { x with sent := true } else x }, _, ?_,
      hmsg, rfl, ?_, tabGet_tabPut_same ..⟩
    · rw [← State.modPart_some hparts fun p => { p with faults := p.faults.map fun x => if x.seq = f.seq then { x with sent := true } else x }]
      show execFaultChannelMessage part s = _
      unfold execFaultChannelMessage
      rw [hp]
      dsimp only
      rw [hf, hchan]
      dsimp only
      rw [hk]
      dsimp only
      rw [hpush]
    · exact (laneAt_packLanes (w := 32) (i := 0) _ (by decide)).trans (Nat.mod_eq_of_lt (bitF_lt ..))
  · intro s part lf p e ro hp hmap hst hform hdrained hrank hwf
    have hmoving : p.moving = [(lf, e)] := by
      rw [Partn.moving, hmap]
      simp [hst]
    have hx : exec (.folioMove part lf) s = .next (((s.commitMoves part).guarantee).formDone part 0) := by
      show execFolioMove part lf s = _
      unfold execFolioMove
      rw [hp]
      dsimp only
      rw [hform]
      dsimp only
      rw [hmoving]
      exact if_neg (by simp [hdrained])
    refine ⟨fun ht => ?_, fun g ht hg => ?_⟩
    · have hcommit : s.commitMoves part = s.setPart part { p with fmap := [] } := by
        unfold State.commitMoves
        rw [hp]
        dsimp only
        have hmoves : p.moves = [] := by
          rw [Partn.moves, hmoving]
          simp [ht]
        rw [hmoves, State.modPart_some (by exact hp)]
        simp [hmoving, hmap, settleEntry, ht, tabDel]
      have hend := State.folioMove_end (p := { p with fmap := [] }) (part := part) (s := s.commitMoves part)
        (by rw [hcommit]; exact tabGet_tabPut_same ..) hform
        (by
          rw [hcommit, ← State.modPart_some hp (fun p => { p with fmap := [] })]
          exact State.noRank_modPart hrank part fun _ => rfl)
      refine ⟨_, hx, (hend.1 lf).trans rfl, hend.2.trans (by rw [hcommit]; rfl)⟩
    · have hmoves : p.moves = [(e.gfolio, g)] := by
        rw [Partn.moves, hmoving]
        simp [ht, hg]
      obtain ⟨p', hp', hmap', hform', hrank', hsram'⟩ := State.commitMoves_moved (l := [(e.gfolio, g)]) hp hmoves (by simp) hrank
      have hend := State.folioMove_end hp' (hform'.trans hform) hrank'
      refine ⟨_, hx, (hend.1 lf).trans ?_, fun a => ?_⟩
      · rw [hmap', hmoving, hmap]
        simp [settleEntry, ht, tabPut, tabGet]
      · rw [hend.2, hsram']
        exact memByte_copyRange hwf (Nat.two_pow_pos 24) e.gfolio g a

end Sys2Proof.Machine

/-! SUPPORT. The bank ports: one lane performed, and the port's other events (R22, R32 to R38, R117, R260, R475). -/

namespace Sys2Proof.Machine

section
variable {s t : State}

/-- An access changed in place. -/
theorem State.modAcc_some {id : Nat} {a : Access} (h : s.acc? id = some a) (g : Access → Access) :
    s.modAcc id g = s.setAcc id (g a) := by
  rw [State.modAcc, h]

theorem State.modAcc_frame (s : State) (id : Nat) (g : Access → Access) : ∃ x, s.modAcc id g = { s with accs := x } := by
  unfold State.modAcc
  split
  · exact ⟨_, rfl⟩
  · exact ⟨s.accs, rfl⟩

theorem State.bank_setBank (s : State) (b c : Nat) (v : Bank) : (s.setBank b v).bank c = if c = b then v else s.bank c := by
  rw [State.bank, State.setBank, tabGet_tabPut]
  split <;> rfl

/-! ### One lane is performed -/

/-- The SRAM once a lane has been performed. -/
def laneSram (m : Memory) (pa : Nat) (a : Access) (l : LaneAcc) : Memory :=
  match writtenBy a.op l (memRead m pa (touches a.op l)) with
  | some (k, v) => memWrite m pa k v
  | none => m

/-- The lane once it has been performed, with what was read. -/
def laneRead (m : Memory) (pa : Nat) (a : Access) (l : LaneAcc) : LaneAcc :=
  if a.op.reads then { l with old := memRead m pa (touches a.op l) } else l

/-- A lane in the SRAM is performed without a failure, when no word is marked. -/
theorem State.performLane_sram (he : s.errs = []) {a : Access} (hop : a.op ≠ .zero) (l : LaneAcc) (pa : Nat) :
    s.performLane a l (.sram pa) =
      (laneRead s.sram pa a l, 0, { s with sram := laneSram s.sram pa a l }) := by
  have hmeet (n ctx : Nat) : s.meetErrs (.sram pa) n ctx = s := State.readErrs_none he ..
  unfold State.performLane laneSram laneRead
  cases hk : a.op with
  | load | wrd =>
    dsimp only
    rw [State.readCode_sram he, hmeet]
    rfl
  | atom n =>
    dsimp only
    rw [State.readCode_sram he, hmeet, if_neg (by simp), State.writePlace_sram he]
    rfl
  | wadd =>
    dsimp only
    rw [State.readCode_sram he, hmeet, if_neg (by simp), State.writePlace_sram he]
    rfl
  | wclr =>
    dsimp only
    rw [State.writePlace_sram he]
    rfl
  | store =>
    dsimp only
    rw [State.writeCode_sram he, State.writePlace_sram he]
    rfl
  | zero => exact absurd hk hop

/-- The only lane of an access is performed. -/
theorem State.performLanes_one {a : Access} {l l' : LaneAcc} {p : Place} (hl : a.lanes = [l]) (hp : l.place = some p)
    (h : s.performLane a l p = (l', 0, t)) (hlane : l'.lane = l.lane) : s.performLanes a [l] = ({ a with lanes := [l'] }, t) := by
  rw [State.performLanes, hp]
  dsimp only
  rw [h]
  dsimp only
  rw [if_pos rfl, State.performLanes, Access.setLane, hl]
  simp [hlane]

/-- A group of one lane is performed with its unions. -/
theorem State.performGroup_one {id : Nat} {a : Access} {l l' : LaneAcc} {p : Place} {rh wh : Handle} (hl : a.lanes = [l])
    (hp : l.place = some p) (h : s.performLane a l p = (l', 0, t)) (hlane : l'.lane = l.lane)
    (hr : (if a.op.reads then s.union a.readHandle (s.placeHandle p) else .ok a.readHandle) = .ok rh)
    (hw : (if a.op.modifies then s.grown p a.handle else .ok 0) = .ok wh) :
    s.performGroup id a [l.lane] = .done (((if a.op.modifies then t.setPlace p wh else t).setAcc id
      { a with lanes := [l'], readHandle := rh }).charge p.cost.1 a.part 0 p.cost.2) := by
  have hls : a.lanes.filter (fun l' => [l.lane].contains l'.lane) = [l] := by rw [hl]; simp
  unfold State.performGroup
  dsimp only
  rw [hls]
  dsimp only
  rw [hp, Option.getD_some, hr, hw]
  dsimp only
  rw [State.performLanes_one hl hp h hlane]

theorem State.setPlaceIf_sram (s : State) (c : Bool) (pa : Nat) (h : Handle) :
    ∃ p, (if c then s.setPlace (.sram pa) h else s) = { s with plots := p } := by
  cases c with
  | false => exact ⟨s.plots, rfl⟩
  | true =>
    rw [if_pos rfl]
    unfold State.setPlace
    dsimp only
    split
    next => exact ⟨s.plots, rfl⟩
    next => exact ⟨_, rfl⟩

/-- The group of the only lane of an access in the SRAM is performed. -/
theorem State.performGroup_sram {id pa : Nat} {a : Access} {l : LaneAcc} {rh wh : Handle} (he : s.errs = []) (hop : a.op ≠ .zero)
    (hl : a.lanes = [l]) (hp : l.place = some (.sram pa))
    (hr : (if a.op.reads then s.union a.readHandle (s.placeHandle (.sram pa)) else .ok a.readHandle) = .ok rh)
    (hw : (if a.op.modifies then s.grown (.sram pa) a.handle else .ok 0) = .ok wh) :
    ∃ t, s.performGroup id a [l.lane] = .done t ∧ t.acc? id = some { a with lanes := [laneRead s.sram pa a l], readHandle := rh } ∧
      t.sram = laneSram s.sram pa a l ∧ t.hbm = s.hbm ∧ t.ctl = s.ctl ∧ (∀ b, t.bank b = s.bank b) ∧ (∀ p port cls, t.buf p port cls = s.buf p port cls) := by
  have hlane : (laneRead s.sram pa a l).lane = l.lane := by unfold laneRead; split <;> rfl
  obtain ⟨pl, hset⟩ := State.setPlaceIf_sram { s with sram := laneSram s.sram pa a l } a.op.modifies pa wh
  refine ⟨_, State.performGroup_one hl hp (State.performLane_sram he hop l pa) hlane hr hw, ?_⟩
  rw [hset]
  exact ⟨tabGet_tabPut_same .., rfl, rfl, rfl, fun _ => rfl, fun _ _ _ => rfl⟩

/-- A performed part at a bank leaves the queue, and its response starts on its way. -/
theorem State.bankDone_some {b id pi : Nat} {a : Access} (h : s.acc? id = some a) :
    s.bankDone b id pi = (((s.setAcc id (a.modPart pi fun p => { p with st := .response })).popBank b).setBuf (b / 4) 4 2
      (s.buf (b / 4) 4 2 ++ [.resp a.pos id pi])) := by
  unfold State.bankDone
  rw [h]
  rfl

/-- The last row group of the only part of an access at a bank, once the group has been performed. -/
theorem State.portOperation_last {b id : Nat} {a a' : Access} {p : Part} {g : List Nat} {rest : List (Nat × Nat)}
    (hqueue : (s.bank b).queue = (id, 0) :: rest) (hacc : s.acc? id = some a) (hparts : a.parts = [p]) (hst : p.st = .admitted)
    (hzero : s.zeroPending (a.lanes.filter fun l => p.lanes.contains l.lane) = false) (hop : a.op ≠ .zero) (hgroups : p.groups = [g])
    (hgroup : (s.bankUsed b false).performGroup id a g = .done t) (hacc' : t.acc? id = some a') (hparts' : a'.parts = [p]) :
    exec (.portOperation b) s = .next ((((t.setAcc id { a' with parts := [{ p with groups := [] }] }).setAcc id
      { a' with parts := [{ p with groups := [], st := .response }] }).popBank b).setBuf (b / 4) 4 2
        (t.buf (b / 4) 4 2 ++ [.resp a'.pos id 0])) := by
  have hmod : t.modAcc id (fun a => a.modPart 0 fun p => { p with groups := [] }) =
      t.setAcc id { a' with parts := [{ p with groups := [] }] } := by
    rw [State.modAcc_some hacc', Access.modPart, hparts']
    rfl
  have hend := State.bankDone_some (s := t.setAcc id { a' with parts := [{ p with groups := [] }] }) (b := b) (pi := 0) (tabGet_tabPut_same ..)
  refine Eq.trans (b := .next ((t.modAcc id fun a => a.modPart 0 fun p => { p with groups := [] }).bankDone b id 0)) ?_
    (congrArg Host.Outcome.next ((congrArg (State.bankDone · b id 0) hmod).trans hend))
  show execPortOperation b s = _
  unfold execPortOperation
  rw [hqueue]
  dsimp only
  rw [hacc]
  dsimp only
  rw [hparts]
  dsimp only [List.getElem?_cons_zero]
  rw [hst]
  dsimp only
  unfold State.bankStep
  rw [show (s.bankUsed b false).zeroPending _ = false from hzero, if_neg (by decide), if_neg hop, hgroups]
  dsimp only
  rw [hgroup]
  rfl

end

/-- Settles O17: the lane's performance, with what every kind of operation writes, then the part's end. -/
theorem portPerformsOneLane : Obligations.PortPerformsOneLane := by
  unfold Obligations.PortPerformsOneLane
  intro s b id pa a p l rest rh wh hwf he hqueue hacc hop hlanes hparts hst hpl hgroups hplace hzero hr hw n old
  have hmine : (a.lanes.filter fun l => p.lanes.contains l.lane) = [l] := by rw [hlanes, hpl]; simp
  obtain ⟨u, hgroup, hacc', hsram, hhbm, hctl, hbank, hbuf⟩ := State.performGroup_sram (s := s.bankUsed b false) (id := id)
    he hop hlanes hplace hr hw
  have hx := State.portOperation_last hqueue hacc hparts hst (hmine ▸ hzero) hop hgroups hgroup hacc' hparts
  refine ⟨_, { a with lanes := [laneRead s.sram pa a l], readHandle := rh, parts := [{ p with groups := [], st := .response }] },
    hx, tabGet_tabPut_same .., rfl, rfl, rfl, ?_, ?_, hhbm, hctl, ?_⟩
  · refine (congrArg Bank.queue (State.bank_setBank ..)).trans ((congrArg Bank.queue (if_pos rfl)).trans ?_)
    show (u.bank b).queue.drop 1 = rest
    rw [hbank, State.bankUsed, State.bank_setBank, if_pos rfl]
    dsimp only
    rw [hqueue]
    rfl
  · rw [hbuf]
    exact State.buf_setBuf_append ..
  · show (match writtenBy a.op l old with
      | some (k, v) => (∀ j, j < k → memByte u.sram (pa + j) = BitVec.ofNat 8 (v / 256 ^ j)) ∧
          (∀ x, (x < pa ∨ pa + k ≤ x) → memByte u.sram x = memByte s.sram x)
      | none => u.sram = s.sram)
    rw [hsram]
    show (match writtenBy a.op l old with
      | some (k, v) => (∀ j, j < k → memByte (laneSram s.sram pa a l) (pa + j) = BitVec.ofNat 8 (v / 256 ^ j)) ∧
          (∀ x, (x < pa ∨ pa + k ≤ x) → memByte (laneSram s.sram pa a l) x = memByte s.sram x)
      | none => laneSram s.sram pa a l = s.sram)
    unfold laneSram
    cases writtenBy a.op l (memRead s.sram pa (touches a.op l)) with
    | some w => exact ⟨fun j hj => memByte_memWrite_inside hwf hj, fun x hx => memByte_memWrite_outside hwf hx⟩
    | none => rfl

end Sys2Proof.Machine

/-! SUPPORT. The bank ports' other events (R22, R37, R117, R260, R475). -/

namespace Sys2Proof.Machine

section
variable {s t : State}

/-- What stands in a memory after `n` bytes have been zeroed. -/
theorem memByte_memZero {m : Memory} (a n x : Nat) (h : m.wf = true) :
    memByte (memWrite m a n 0) x = if a ≤ x ∧ x < a + n then 0 else memByte m x := by
  rw [memByte_memWrite _ _ _ _ h, Nat.zero_div]
  rfl

theorem State.modBank_bank (s : State) (b : Nat) (nq : Bool) : (s.bankUsed b nq).bank b = { s.bank b with lastNonQueue := nq } := by
  rw [State.bankUsed, State.bank_setBank, if_pos rfl]

/-- A write at an SRAM place. -/
theorem State.writePlace_frame (s : State) (pa n v : Nat) :
    ∃ e, s.writePlace (.sram pa) n v = { s with sram := memWrite s.sram pa n v, errs := e } := ⟨_, rfl⟩

/-- A zero of `n` bytes at an SRAM place. -/
theorem State.zeroPlace_bytes (hwf : s.sram.wf = true) (pa n : Nat) :
    ∃ e m, s.writePlace (.sram pa) n 0 = { s with sram := m, errs := e } ∧
      ∀ x, memByte m x = if pa ≤ x ∧ x < pa + n then 0 else memByte s.sram x := by
  obtain ⟨e, he⟩ := s.writePlace_frame pa n 0
  exact ⟨e, _, he, fun x => memByte_memZero pa n x hwf⟩

theorem State.setPlaceWhen_sram (s : State) (c : Prop) [Decidable c] (pa : Nat) (h : Handle) :
    ∃ p, (if c then s.setPlace (.sram pa) h else s) = { s with plots := p } := by
  obtain ⟨p, hp⟩ := s.setPlaceIf_sram (decide c) pa h
  exact ⟨p, by simpa using hp⟩

/-- A zeroing port after one piece: the piece's accounts, and then its end when it was the last one. -/
theorem State.zeroPiece_used (s : State) (b part id : Nat) (g : Access → Access) :
    (((s.bankUsed b true).charge (b / 4096) part 0 1).modAcc id g).bank b = { s.bank b with lastNonQueue := true } ∧
      (((s.bankUsed b true).charge (b / 4096) part 0 1).modAcc id g).sram = s.sram := by
  obtain ⟨x, hx⟩ := State.modAcc_frame ((s.bankUsed b true).charge (b / 4096) part 0 1) id g
  rw [hx]
  exact ⟨s.modBank_bank b true, rfl⟩

end

/-- Settles O18: the five port events. -/
theorem bankEventResults : Obligations.BankEventResults := by
  unfold Obligations.BankEventResults
  refine ⟨?_, ?_, ?_, ?_, ?_⟩
  · intro s pos port id x b rest a p hbuf hawake hacc hparts hhome hlen
    have hix : partIx [p] (.bank b) = 0 := by simp [partIx, listFind, hhome]
    have hpart : ([p].map fun p => if p.isBank then { p with st := .queued } else p) = [{ p with st := .queued }] := by
      simp [Part.isBank, hhome]
    have hx : exec (.bankRequestEnqueue pos port) s = .next (((s.setBuf pos port 1 rest).setBank b
        { s.bank b with queue := (s.bank b).queue ++ [(id, 0)] }).setAcc id { a with parts := [{ p with st := .queued }] }) := by
      show execBankRequestEnqueue pos port s = _
      unfold execBankRequestEnqueue
      rw [hbuf]
      dsimp only
      rw [if_neg (by simp [hawake]), hacc]
      dsimp only
      rw [hparts, hpart]
      simp only [List.filterMap_cons, hhome, List.filterMap_nil]
      rw [if_pos (by simp [hlen])]
      simp only [List.foldl_cons, List.foldl_nil, hix]
      rfl
    refine ⟨_, hx, ?_, tabGet_tabPut_same .., rfl, rfl⟩
    exact congrArg Bank.queue ((State.bank_setBank (s.setBuf pos port 1 rest) b b _).trans (if_pos rfl))
  · intro s id a hacc hmany hall hcode hovf
    refine ⟨s.setAcc id a.admitted, ?_, tabGet_tabPut_same .., rfl⟩
    have hbad : (a.bankLanes.filter fun l => l.code == 0x50) = [] := by
      rw [List.filter_eq_nil_iff]
      intro l hl
      simp [hcode l hl]
    show execMultiBankDecision id s = _
    unfold execMultiBankDecision
    rw [hacc]
    dsimp only
    rw [if_pos, hbad]
    · unfold State.accAdmit
      rw [hovf]
      rfl
    · simp only [Bool.and_eq_true, decide_eq_true_eq, List.all_eq_true]
      exact ⟨hmany, fun p hp => by simp [hall p hp]⟩
  · intro s die idx n id m r hm hn hres haccs hr
    show execMissReplay die idx s = _
    unfold execMissReplay
    dsimp only
    rw [hm]
    dsimp only
    rw [hn]
    dsimp only
    rw [if_neg (by simp [hres]), haccs]
    dsimp only
    rw [if_neg (by simpa using hr)]
  · intro s b n hfree hnext hlt hwf
    obtain ⟨e, m, hw, hbytes⟩ := s.zeroPlace_bytes hwf (n * 4096 + 64 * s.zeroRow n) 64
    have hx : exec (.placementZeroing b) s = execPlacementZeroing b s := rfl
    unfold execPlacementZeroing at hx
    rw [if_neg (by simp [hfree]), hnext] at hx
    dsimp only at hx
    rw [hw] at hx
    by_cases hlast : s.zeroRow n = 63
    · rw [if_pos (by omega)] at hx
      refine ⟨_, hx, ?_, hbytes, fun _ => ?_, fun h => absurd h (by omega)⟩
      · exact congrArg Bank.lastNonQueue (State.modBank_bank ..)
      · exact (State.plot_setPlot ..).trans (if_pos rfl)
    · rw [if_neg (by omega)] at hx
      refine ⟨_, hx, ?_, hbytes, fun h => absurd h hlast, fun _ => ⟨rfl, ?_⟩⟩
      · exact congrArg Bank.lastNonQueue (State.modBank_bank ..)
      · exact congrArg (·.getD 0) (tabGet_tabPut_same ..)
  · intro s b id pi pa a p l ls hzero hfree hacc hp hl hpl hpa hsize hnext hnext64 hwf
    have hplot : ∃ k, pa = k * 4096 := ⟨pa / 4096, by omega⟩
    obtain ⟨k, rfl⟩ := hplot
    obtain ⟨e, m, hw, hbytes⟩ := s.zeroPlace_bytes hwf (k * 4096 + p.next) 64
    have hx : exec (.zeroPieceWrite b) s = execZeroPieceWrite b s := rfl
    unfold execZeroPieceWrite at hx
    dsimp only at hx
    rw [hzero] at hx
    dsimp only at hx
    rw [if_neg (by simp [hfree]), hacc] at hx
    dsimp only at hx
    rw [hp, hl] at hx
    dsimp only at hx
    rw [hpl] at hx
    dsimp only at hx
    rw [if_pos (by simp [hsize]; omega)] at hx
    dsimp only at hx
    rw [hw, hsize] at hx
    obtain ⟨pl, hset⟩ := State.setPlaceWhen_sram { s with sram := m, errs := e }
      (!(decide (k * 4096 ≤ (k * 4096 + p.next) / 4096 * 4096) &&
        decide ((k * 4096 + p.next) / 4096 * 4096 + 4096 ≤ k * 4096 + 4096)) ∨ (k * 4096 + p.next) % 4096 = 4032)
      (k * 4096 + p.next) a.handle
    rw [hset] at hx
    obtain ⟨hbank, hsram⟩ := State.zeroPiece_used { s with sram := m, errs := e, plots := pl } b a.part id
      fun a => a.modPart pi fun p => { p with next := p.next + 64 }
    generalize ((State.bankUsed { s with sram := m, errs := e, plots := pl } b true).charge (b / 4096) a.part 0 1).modAcc id
      (fun a => a.modPart pi fun p => { p with next := p.next + 64 }) = u at hx hbank hsram
    by_cases hlast : p.next + 64 ≥ 4096
    · rw [if_pos hlast] at hx
      obtain ⟨x, hmod⟩ := State.modAcc_frame (u.setBank b { u.bank b with zeroing := none }) id
        fun a => a.modPart pi fun p => { p with st := .response }
      rw [hmod] at hx
      refine ⟨_, hx, fun x => ?_, ?_⟩
      · exact (congrArg (memByte · x) hsram).trans (hbytes x)
      · rw [if_pos hlast]
        exact congrArg Bank.zeroing ((State.bank_setBank u b b _).trans (if_pos rfl))
    · rw [if_neg hlast] at hx
      refine ⟨_, hx, fun x => ?_, ?_⟩
      · rw [hsram]
        exact hbytes x
      · rw [if_neg hlast, hbank]
        exact hzero

end Sys2Proof.Machine

/-! SUPPORT. The HBM channels and the responses of accesses (R16, R54, R55, R65, R406). -/

namespace Sys2Proof.Machine

section
variable {s t : State}

/-! ### One lane is stored at a channel -/

/-- A lane of a store is performed in HBM, when no word is marked. -/
theorem State.performLane_hbm_store (he : s.errs = []) {a : Access} (hop : a.op = .store) (l : LaneAcc) (pa pte : Nat) (big : Bool) :
    s.performLane a l (.hbm pa pte big) = (l, 0, { s with hbm := memWrite s.hbm pa l.size l.data }) := by
  have hcode : s.writeCode (.hbm pa pte big) l.size = 0 := by
    simp only [State.writeCode, State.partUnc_none he]
    rfl
  have hwrite : s.writePlace (.hbm pa pte big) l.size l.data = { s with hbm := memWrite s.hbm pa l.size l.data } :=
    State.writeErrs_none (s := { s with hbm := memWrite s.hbm pa l.size l.data }) he .hbm pa l.size
  unfold State.performLane
  dsimp only
  rw [hop]
  dsimp only
  rw [hcode, hwrite]

/-- What a write of a leaf's plate changes: the eight bytes of the leaf, and no other. -/
theorem State.setPlace_hbm (hwf : s.hbm.wf = true) (pa pte : Nat) (big : Bool) (h : Handle) :
    ∃ g m c, s.setPlace (.hbm pa pte big) h = { s with pageMap := g, hbm := m, cached := c } ∧
      ∀ x, ¬ (pte ≤ x ∧ x < pte + 8) → memByte m x = memByte s.hbm x := by
  unfold State.setPlace
  dsimp only
  split
  next => exact ⟨s.pageMap, s.hbm, s.cached, rfl, fun _ _ => rfl⟩
  next =>
    unfold State.writePlate
    split
    next => exact ⟨_, s.hbm, s.cached, rfl, fun _ _ => rfl⟩
    next =>
      generalize hn : 8 = n
      exact ⟨_, _, _, rfl, fun x hx => memByte_memWrite_outside hwf (by omega)⟩

/-- The group of the only lane of a store at a channel is performed. -/
theorem State.performGroup_hbm_store {id pa pte : Nat} {big : Bool} {a : Access} {l : LaneAcc} {wh : Handle} (hwf : s.hbm.wf = true)
    (he : s.errs = []) (hop : a.op = .store) (hl : a.lanes = [l]) (hp : l.place = some (.hbm pa pte big))
    (hw : s.grown (.hbm pa pte big) a.handle = .ok wh) :
    ∃ t, s.performGroup id a [l.lane] = .done t ∧ t.acc? id = some a ∧ t.sram = s.sram ∧ ∀ x, ¬ (pte ≤ x ∧ x < pte + 8) →
      memByte t.hbm x = if pa ≤ x ∧ x < pa + l.size then BitVec.ofNat 8 (l.data / 256 ^ (x - pa)) else memByte s.hbm x := by
  obtain ⟨g, m, c, hset, hbytes⟩ := State.setPlace_hbm (s := { s with hbm := memWrite s.hbm pa l.size l.data }) (memWrite_wf _ _ _ hwf)
    pa pte big wh
  have hgroup := State.performGroup_one (s := s) (id := id) (rh := a.readHandle) (wh := wh) hl hp
    (State.performLane_hbm_store he hop l pa pte big) rfl (by rw [hop]; rfl) (by rw [hop]; exact hw)
  rw [if_pos (by rw [hop]; rfl), hset, ← hl] at hgroup
  exact ⟨_, hgroup, tabGet_tabPut_same .., rfl, fun x hx => (hbytes x hx).trans (memByte_memWrite _ _ _ _ hwf)⟩

/-- A lane with no D bit to set does not wait at the head of its channel. -/
theorem State.slotWaits_head {c id : Nat} {a : Access} (h : s.acc? id = some a) (hd : ∀ l ∈ a.lanes, l.dirty = none) (pi : Nat) :
    s.slotWaits c 0 id pi = false := by
  unfold State.slotWaits
  dsimp only
  rw [h]
  dsimp only
  have hany : (a.parts[pi]? = none) ∨ ∃ p, a.parts[pi]? = some p := by cases a.parts[pi]? <;> simp
  rcases hany with hp | ⟨p, hp⟩
  · rw [hp]
    simp
  · rw [hp]
    simp only [List.take_zero, List.flatMap_nil, List.contains_nil, Bool.or_eq_false_iff, List.any_eq_false]
    refine ⟨by simp, fun l hl => by simp [hd l hl]⟩

/-! ### The end of an access -/

/-- The last response of an access ends it: its reorder-buffer entry has its tokens. -/
theorem State.accFinish_tokens {id : Nat} {a : Access} {h : Handle} (hacc : s.acc? id = some a) (hfail : a.fail = none)
    (htag : a.tagBad = false) (hu : (if a.op.orders then .ok 0 else s.union a.handle a.readHandle) = .ok h) :
    s.accFinish id = some ((s.accDelete id).robDone a.pos id
      (a.outTokens (resultToken a.ctx a.nest a.shape h (if a.op.orders then 0 else a.result)))) := by
  unfold State.accFinish
  rw [hacc]
  dsimp only
  rw [hfail]
  dsimp only
  rw [htag]
  by_cases ho : a.op.orders = true
  · rw [if_pos ho] at hu
    rw [if_pos ho]
    cases hu
    rfl
  · rw [if_neg ho] at hu
    rw [if_neg ho, hu]
    rfl

/-- The only part of an access at a channel is performed. -/
theorem State.chanDone_one {c id : Nat} {a : Access} {p : Part} (hacc : s.acc? id = some a) (hparts : a.parts = [p]) :
    s.chanDone c id 0 = (s.setChan c { slots := (s.chan c).slots.filter fun q => q != (id, 0) }).setAcc id
      { a with parts := [{ p with st := .response }] } := by
  have hmod : a.modPart 0 (fun p => { p with st := .response }) = { a with parts := [{ p with st := .response }] } := by
    rw [Access.modPart, hparts]
    rfl
  rw [← hmod]
  exact State.modAcc_some (s := s.setChan c _) hacc _

theorem State.partDone_last {id : Nat} {a : Access} {p : Part} (hacc : s.acc? id = some a) (hparts : a.parts = [p]) :
    s.partDone id 0 = (s.setAcc id { a with parts := [{ p with st := .done }] }).accFinish id := by
  have hmod : a.modPart 0 (fun p => { p with st := .done }) = { a with parts := [{ p with st := .done }] } := by
    rw [Access.modPart, hparts]
    rfl
  unfold State.partDone
  rw [hacc]
  dsimp only
  rw [hmod]
  exact if_pos (by simp)

end

/-- Settles O20: the channel's events, and the response that ends an access. -/
theorem channelEventResults : Obligations.ChannelEventResults := by
  unfold Obligations.ChannelEventResults
  refine ⟨?_, ?_, ?_, ?_, ?_⟩
  · intro s id pi c a p hacc hp hhome hst hret hlen hawake
    show execChannelRequestArrival id pi s = _
    unfold execChannelRequestArrival
    rw [hacc]
    dsimp only
    obtain ⟨home, lanes, groups, next, st⟩ := p
    cases hhome
    cases hst
    rw [hp]
    dsimp only
    rw [if_neg (by rw [hret]; decide), if_pos ⟨hlen, hawake⟩]
  · intro s c id pa pte big a p l rest wh hwf he hslots hacc hop hl hparts hpl hgroups hplace hdirty hyield hw
    obtain ⟨u, hgroup, hacc', hsram, hhbm⟩ := State.performGroup_hbm_store (id := id) hwf he hop hl hplace hw
    have hmod : u.modAcc id (fun a => a.modPart 0 fun p => { p with groups := [] }) =
        u.setAcc id { a with parts := [{ p with groups := [] }] } := by
      rw [State.modAcc_some hacc', Access.modPart, hparts]
      rfl
    have hx : exec (.channelPerform c 0) s = .next ((u.setAcc id { a with parts := [{ p with groups := [] }] }).chanDone c id 0) := by
      show execChannelPerform c 0 s = _
      unfold execChannelPerform
      rw [hslots]
      dsimp only [List.getElem?_cons_zero]
      rw [hacc]
      dsimp only
      rw [hparts]
      dsimp only [List.getElem?_cons_zero]
      rw [if_neg (by simp [State.slotWaits_head hacc (by rw [hl]; simpa using hdirty), hyield])]
      have hovf : s.accOvf a = none := by
        unfold State.accOvf
        rw [hop, hl]
        simp [AccOp.modifies, hplace, hw]
      rw [hovf]
      dsimp only
      rw [if_neg (by rw [hop]; decide), hgroups]
      dsimp only
      rw [hgroup]
      dsimp only
      rw [hmod]
      rfl
    have hend := State.chanDone_one (s := u.setAcc id { a with parts := [{ p with groups := [] }] }) (c := c) (tabGet_tabPut_same ..) rfl
    rw [hend] at hx
    exact ⟨_, hx, hsram, hhbm, tabGet_tabPut_same ..⟩
  · intro s id pi pte a p l hacc hp hl hpl hdirty
    show execDirtyBitOr id pi s = _
    unfold execDirtyBitOr
    rw [hacc]
    dsimp only
    rw [hp]
    dsimp only
    have hfind : a.lanes.find? (fun l => p.lanes.contains l.lane && l.dirty.isSome) = some l := by
      rw [hl]
      exact List.find?_cons_of_pos (by rw [hpl, hdirty]; rfl)
    obtain ⟨lane, va, logical, align, size, data, data2, place, code, dirty, old⟩ := l
    cases hdirty
    rw [hfind]
    dsimp only
    rw [hl]
    simp
  · intro s id b port a p h hacc hparts hhome hport hfail htag hu tok
    have hset : ((s.setBuf a.pos port 2 ((s.buf a.pos port 2).drop 1)).acc? id) = some a := hacc
    have hend := State.accFinish_tokens (s := (s.setBuf a.pos port 2 ((s.buf a.pos port 2).drop 1)).setAcc id
      { a with parts := [{ p with st := .done }] }) (h := h) (tabGet_tabPut_same ..) hfail htag hu
    have hx : exec (.memoryResponseArrival id 0) s = execMemoryResponseArrival id 0 s := rfl
    unfold execMemoryResponseArrival at hx
    rw [hacc] at hx
    dsimp only at hx
    rw [hparts] at hx
    dsimp only [List.getElem?_cons_zero] at hx
    rw [hhome] at hx
    dsimp only at hx
    rw [hport] at hx
    dsimp only at hx
    rw [State.partDone_last hset hparts, hend] at hx
    refine ⟨_, hx, ?_⟩
    rw [State.robDone, State.elem_modElem]
    rfl
  · intro s id a hacc hhold hmiss
    show execHeldAccessResume id s = _
    unfold execHeldAccessResume
    rw [hacc]
    dsimp only
    rw [hhold]
    exact if_neg (by simpa using hmiss)

end Sys2Proof.Machine

/-! SUPPORT. The arrival of tokens at an element, and one link (R39, R47, R156 to R158, R236). -/

namespace Sys2Proof.Machine

section
variable {s t : State} {pos : Nat}

/-! ### The head of a buffer at its element -/

/-- The element once the head of a buffer has left it. -/
def Elem.unstuck (e : Elem) (c port cls : Nat) : Elem := { e with stuck := e.stuck.filter (· ≠ (c, port, cls)) }

/-- The state once the head of a buffer has left it for the element. -/
def State.taken (s : State) (pos c port cls : Nat) (rest : List Flit) : State := (s.setBuf pos port cls rest).unstick pos c port cls

theorem State.taken_elem (s : State) (c port cls : Nat) (rest : List Flit) :
    (s.taken pos c port cls rest).elem pos = (s.elem pos).unstuck c port cls := State.elem_modElem ..

/-- The head of a buffer reaches its resident slot, when none of its context waits before it. -/
theorem State.headToken_take {port cls i : Nat} {k : Token} {rest : List Flit} {sl : Slot} {u : State}
    (halive : s.alive k.ctx.toNat = true) (hslot : slotOfCtx (s.elem pos).slots k.ctx.toNat = some (i, sl))
    (hparked : s.parked pos k.ctx.toNat = false) (hstuck : (s.elem pos).firstStuck k.ctx.toNat = none)
    (htake : (s.taken pos k.ctx.toNat port cls rest).take pos i sl k port = some u) : s.headToken pos port cls k rest = u := by
  unfold State.headToken
  dsimp only
  rw [if_neg (by simp [halive]), hslot]
  dsimp only
  rw [if_neg (by simp [hparked]), hstuck]
  dsimp only
  rw [show ((s.setBuf pos port cls rest).unstick pos k.ctx.toNat port cls).take pos i sl k port = some u from htake]
  rfl

/-- An operand that is taken. -/
theorem State.take_operand {i port : Nat} {k : Token} {sl sl' : Slot} {u : State} (hswitch : k.isSwitch = false)
    (hnet : k.net = .data) (harrive : s.arrive pos i sl k port = some u) (hslot : tabGet (u.elem pos).slots i = some sl')
    (hnode : sl'.nodeSwitched k.node.toNat = false) : s.take pos i sl k port = some u := by
  unfold State.take
  rw [if_neg (by simp [hswitch]), harrive]
  dsimp only
  have hcount : u.countPred pos i k = u := by
    unfold State.countPred
    exact if_neg (by simp [hnet])
  unfold State.switchCheck
  rw [hcount, hslot]
  dsimp only
  exact if_neg (by simp [hnode])

/-- `TOKEN_ARRIVAL` at a resident slot. -/
theorem State.tokenArrival_next {port cls i : Nat} {k : Token} {rest : List Flit} {sl : Slot} {u : State} (hcls : cls = 0 ∨ cls = 3)
    (hawake : s.awake (folioOf pos) = true) (hbuf : s.buf pos port cls = .tok pos k :: rest) (hkind : k.kind = 0)
    (hswitch : k.isSwitch = false) (halive : s.alive k.ctx.toNat = true)
    (hslot : slotOfCtx (s.elem pos).slots k.ctx.toNat = some (i, sl)) (hparked : s.parked pos k.ctx.toNat = false)
    (hstuck : (s.elem pos).firstStuck k.ctx.toNat = none)
    (htake : (s.taken pos k.ctx.toNat port cls rest).take pos i sl k port = some u) : exec (.tokenArrival pos port cls) s = .next u := by
  show execTokenArrival pos port cls s = _
  unfold execTokenArrival
  rw [if_neg (by simp [hawake]; omega), hbuf]
  dsimp only
  rw [if_neg (by simp [hkind, hswitch]), State.headToken_take halive hslot hparked hstuck htake]

/-! ### Operands -/

/-- A pair enters a ready FIFO that has room. -/
theorem State.pushReady_ok {i : Nat} {p : Pair} (h : (s.elem pos).fifo.length < 16) :
    ∃ u, s.pushReady pos i p = some u ∧ u.elem pos = { s.elem pos with fifo := (s.elem pos).fifo ++ [(i, p)] } ∧ u.bufs = s.bufs := by
  refine ⟨_, if_pos h, State.elem_modElem .., rfl⟩

/-- An operand whose partner is not there takes an entry of the matching store. -/
theorem State.matchOperand_stored {i port : Nat} {sl : Slot} {k : Token} (hspill : sl.spill = 0)
    (hfree : (s.elem pos).entryFree k.ctx.toNat = true)
    (hneeds : (sl.needs k.node.toNat).all (fun q => (partIn [(sl.partOf k, k)] q).isSome) = false) :
    ∃ u, s.matchOperand pos i sl k [] false true port = some u ∧
      u.elem pos = { s.elem pos with mstore := (s.elem pos).mstore ++ [{ tok := k, role := .operand, bad := false }] } := by
  have hsecond : (sl.partOf k == 2 && !k.poison && (partIn [] 2).isSome && (sl.reads k.node.toNat).1) = false := by
    simp [partIn]
  refine ⟨s.modElem pos fun e => { e with mstore := e.mstore ++ [{ tok := k, role := .operand, bad := false }] }, ?_,
    State.elem_modElem ..⟩
  unfold State.matchOperand
  dsimp only
  rw [hsecond]
  simp only [Bool.false_eq_true, if_false]
  rw [if_neg (by simp [partIn]), if_neg (by simp [hneeds]), if_neg (by simp [hspill])]
  unfold State.storeOperand
  exact if_pos hfree

/-! ### Switch tokens -/

/-- The slot once a switch token that is not its last one has been counted. -/
def Slot.counted (sl : Slot) (k n : Nat) : Slot :=
  { sl with switchIn := tabPut sl.switchIn k { tokens := (sl.switchesIn k).tokens + 1, sum := ((sl.switchesIn k).sum + n) % 2 ^ 32 } }

@[simp] theorem Slot.counted_nin (sl : Slot) (k n : Nat) : (sl.counted k n).nin = sl.nin := rfl

@[simp] theorem Slot.counted_predIn (sl : Slot) (k n : Nat) : (sl.counted k n).predIn = sl.predIn := rfl

@[simp] theorem Slot.counted_takesPred (sl : Slot) (k n m : Nat) (b : Bool) : (sl.counted k n).takesPred m b = sl.takesPred m b := rfl

theorem Slot.counted_switchesIn (sl : Slot) (k n j : Nat) : (sl.counted k n).switchesIn j =
    if j = k then { tokens := (sl.switchesIn k).tokens + 1, sum := ((sl.switchesIn k).sum + n) % 2 ^ 32 } else sl.switchesIn j := by
  rw [Slot.switchesIn, Slot.counted, tabGet_tabPut]
  split <;> rfl

/-- A slot that lacks switch tokens before and after one has not switched, and its node's other slot is as it was. -/
theorem Slot.counted_slotSwitched {sl : Slot} {k c : Nat} (h : sl.tokensIn k = false)
    (hlast : (sl.switchesIn k).tokens + 1 ≠ tabNum sl.nin k) (n : Nat) (b : Bool) :
    (sl.counted k c).slotSwitched n b = sl.slotSwitched n b := by
  have hk : (sl.counted k c).tokensIn k = false := by
    rw [Slot.tokensIn, Slot.counted_switchesIn, if_pos rfl, Slot.counted_nin]
    simpa using hlast
  unfold Slot.slotSwitched
  dsimp only
  generalize hj : 2 * n + (if b then 1 else 0) = j
  by_cases hjk : j = k
  · rw [hjk, hk, h, Bool.false_and, Bool.false_and]
  · have hin : (sl.counted k c).switchesIn j = sl.switchesIn j := by rw [Slot.counted_switchesIn, if_neg hjk]
    unfold Slot.tokensIn Slot.predExcess
    rw [hin, Slot.counted_nin, Slot.counted_predIn, Slot.counted_takesPred]

theorem Slot.counted_nodeSwitched {sl : Slot} {k c : Nat} (h : sl.tokensIn k = false)
    (hlast : (sl.switchesIn k).tokens + 1 ≠ tabNum sl.nin k) (n : Nat) : (sl.counted k c).nodeSwitched n = sl.nodeSwitched n := by
  unfold Slot.nodeSwitched Slot.inputsSwitched
  rw [Slot.counted_slotSwitched h hlast, Slot.counted_slotSwitched h hlast]
  rfl

/-- A switch token that is not the last of its slot is counted. -/
theorem State.switchArrive_counted {i : Nat} {sl : Slot} {k : Token} (hslot : tabGet (s.elem pos).slots i = some sl)
    (hin : sl.tokensIn (2 * k.node.toNat + (if k.slotR then 1 else 0)) = false)
    (hlast : (sl.switchesIn (2 * k.node.toNat + (if k.slotR then 1 else 0))).tokens + 1 ≠
      tabNum sl.nin (2 * k.node.toNat + (if k.slotR then 1 else 0)))
    (hnode : sl.nodeSwitched k.node.toNat = false) :
    ∃ u, s.switchArrive pos i sl k = some u ∧ tabGet (u.elem pos).slots i =
      some (sl.counted (2 * k.node.toNat + (if k.slotR then 1 else 0)) (laneAt 32 k.pay 0)) := by
  generalize hk : 2 * k.node.toNat + (if k.slotR then 1 else 0) = j at hin hlast ⊢
  have helem : tabGet ((s.modElem pos fun e => e.modSlot i fun _ => sl.counted j (laneAt 32 k.pay 0)).elem pos).slots i =
      some (sl.counted j (laneAt 32 k.pay 0)) := by
    rw [State.elem_modElem, Elem.modSlot, hslot]
    exact tabGet_tabPut_same ..
  have htokens : (sl.counted j (laneAt 32 k.pay 0)).tokensIn j = false := by
    rw [Slot.tokensIn, Slot.counted_switchesIn, if_pos rfl, Slot.counted_nin]
    simpa using hlast
  refine ⟨_, ?_, helem⟩
  unfold State.switchArrive
  dsimp only
  have hfold : { sl with switchIn := tabPut sl.switchIn j { tokens := (sl.switchesIn j).tokens + 1, sum := ((sl.switchesIn j).sum +
      laneAt 32 k.pay 0) % 2 ^ 32 } } = sl.counted j (laneAt 32 k.pay 0) := rfl
  rw [hk, if_neg (by simp [hin]), hfold, htokens]
  simp only [Bool.false_and, Bool.false_eq_true, if_false]
  unfold State.switchCheck
  rw [helem]
  dsimp only
  rw [Slot.counted_nodeSwitched hin hlast, hnode]
  rfl

end

/-- Settles O21: the operand that fires alone, the operand that waits, the switch token, and the link. -/
theorem tokenArrivalResults : Obligations.TokenArrivalResults := by
  unfold Obligations.TokenArrivalResults
  refine ⟨?_, ?_, ?_, ?_⟩
  · intro s pos port cls i t rest sl hcls hawake hbuf hkind hswitch halive hslot hget hparked hstuck htwo hform hnet hroom hnode
    have helem := s.taken_elem (pos := pos) t.ctx.toNat port cls rest
    obtain ⟨u, hpush, hu, hbufs⟩ := State.pushReady_ok (s := s.taken pos t.ctx.toNat port cls rest) (pos := pos) (i := i)
      (p := { node := t.node.toNat, opL := if t.slotR then none else some t, opR := if t.slotR then some t else none,
              ordL := none, switch := false }) (by rw [helem]; exact hroom)
    rw [helem] at hu
    have harrive : (s.taken pos t.ctx.toNat port cls rest).arrive pos i sl t port = some u := by
      unfold State.arrive
      rw [show (s.taken pos t.ctx.toNat port cls rest).arriveForm pos sl t = t from hform]
      dsimp only
      rw [if_neg (by simp [htwo])]
      exact hpush
    refine ⟨u, State.tokenArrival_next hcls hawake hbuf hkind hswitch halive hslot hparked hstuck
      (State.take_operand hswitch hnet harrive (sl' := sl) (by rw [hu]; exact hget) hnode), by rw [hu]; rfl, by rw [hu]; rfl, hbufs⟩
  · intro s pos port cls i t rest sl hcls hawake hbuf hkind hswitch halive hslot hget hparked hstuck htwo hform hnet hstore hspill hfree
      hnode hneeds
    have helem := s.taken_elem (pos := pos) t.ctx.toNat port cls rest
    obtain ⟨u, hmatch, hu⟩ := State.matchOperand_stored (s := s.taken pos t.ctx.toNat port cls rest) (pos := pos) (i := i) (port := port)
      hspill (by rw [helem]; exact hfree) hneeds
    rw [helem] at hu
    have hin : (s.taken pos t.ctx.toNat port cls rest).inStore pos sl t = [] := by
      rw [← hstore, State.inStore, State.inStore, helem]
      rfl
    have harrive : (s.taken pos t.ctx.toNat port cls rest).arrive pos i sl t port = some u := by
      unfold State.arrive
      rw [show (s.taken pos t.ctx.toNat port cls rest).arriveForm pos sl t = t from hform]
      dsimp only
      rw [if_pos htwo, hin]
      exact hmatch
    refine ⟨u, State.tokenArrival_next hcls hawake hbuf hkind hswitch halive hslot hparked hstuck
      (State.take_operand hswitch hnet harrive (sl' := sl) (by rw [hu]; exact hget) hnode), by rw [hu]; rfl, by rw [hu]; rfl⟩
  · intro s pos port i t rest sl hawake hbuf hkind hswitch halive hslot hget hparked hstuck k hin hlast hnode
    have helem := s.taken_elem (pos := pos) t.ctx.toNat port 0 rest
    obtain ⟨u, hu, hslots⟩ := State.switchArrive_counted (s := s.taken pos t.ctx.toNat port 0 rest) (pos := pos)
      (by rw [helem]; exact hget) hin hlast hnode
    have htake : (s.taken pos t.ctx.toNat port 0 rest).take pos i sl t port = some u := by
      unfold State.take
      rw [if_pos hswitch, hu]
    refine ⟨u, _, ?_, hslots, ?_⟩
    · show execSwitchTokenArrival pos port s = _
      unfold execSwitchTokenArrival
      rw [hbuf]
      dsimp only
      rw [if_neg (by simp [hkind, hswitch, hslot, hparked, hawake]), State.headToken_take halive hslot hparked hstuck htake]
    · rw [Slot.counted_switchesIn, if_pos rfl]
  · intro s pos port cls f rest hbuf hwants hturn
    have hx : exec (.linkTransfer pos port cls) s = execLinkTransfer pos port cls s := rfl
    unfold execLinkTransfer at hx
    rw [hbuf] at hx
    dsimp only at hx
    rw [if_pos (by rw [hwants, hturn]; rfl)] at hx
    cases f with
    | tok =>
      refine ⟨_, hx, ?_, ?_⟩
      · split <;> exact State.buf_setBuf_append ..
      · split <;> rfl
    | notice | req | resp =>
      refine ⟨_, hx, ?_, ?_⟩
      · split <;> exact State.buf_setBuf_append ..
      · split <;> rfl

end Sys2Proof.Machine

/-! SUPPORT. The output stage, the reorder buffer, the overflow store and the configuration cache (R42, R50, R51, R150, R154,
R158, R169 to R172, R202, R262). -/

namespace Sys2Proof.Machine

/-- Settles O22: each event's row; a routed token's fields are those of its destination entry. -/
theorem outputAndReorderResults : Obligations.OutputAndReorderResults := by
  unfold Obligations.OutputAndReorderResults
  refine ⟨?_, ?_, ?_, ?_, ?_⟩
  · intro s pos idx o sl u ho hsl hfirst halive hsend
    have hnone : ((s.elem pos).out.take idx).any (fun q => q.slotIx == o.slotIx && q.node == o.node && q.dest == o.dest) = false := by
      rw [List.any_eq_false]
      intro q hq
      simp only [Bool.and_eq_true, beq_iff_eq, not_and]
      rintro ⟨h1, h2⟩ h3
      rcases hfirst q hq with h | h | h
      · exact h h1
      · exact h h2
      · exact h h3
    show execOutputStageDepart pos idx s = _
    unfold execOutputStageDepart
    dsimp only
    rw [ho]
    dsimp only
    rw [hsl]
    dsimp only
    rw [hnone, if_neg (by decide), if_neg (by simp [halive]), hsend]
  · intro s pos r sl l hr hsl hdone
    refine ⟨{ pos := pos, slotIx := r.slotIx, slot := sl, pair := default, ctx := sl.ctx, part := s.partOf sl.ctx,
              node := r.node, nest := 0, acts := [], act := 64 }, ?_, rfl, rfl, rfl⟩
    show execRobRelease pos s = _
    unfold execRobRelease
    dsimp only
    rw [hr]
    dsimp only
    rw [hsl]
    dsimp only
    rw [hdone]
    rfl
  · intro s idx pos slotIx node m f hm hacc hsender hf halive
    show execSendAcceptance idx s = _
    unfold execSendAcceptance
    rw [hm]
    dsimp only
    rw [if_neg (by simp [hacc]), hsender]
    dsimp only
    rw [hf]
    exact if_pos halive
  · intro s idx pos id code a hr hacc
    refine ⟨fun hcode t ht => ?_, fun hcode => ?_⟩
    · show execLaunchResponse idx s = _
      unfold execLaunchResponse
      rw [hr]
      dsimp only
      rw [hacc]
      dsimp only
      rw [if_pos hcode, ht]
      rfl
    · show execLaunchResponse idx s = _
      unfold execLaunchResponse
      rw [hr]
      dsimp only
      rw [hacc]
      exact if_neg hcode
  · intro s pos port ctx node w t e lp x y target p hkind hmap hst hroom
    obtain ⟨st, ro, g, tgt⟩ := e
    cases hst
    refine ⟨s.setBuf pos port (if t.net = .pred then 3 else 0)
      (s.buf pos port (if t.net = .pred then 3 else 0) ++ [.tok p (routed t w x y p)]), routed t w x y p, ?_,
      State.buf_setBuf_append .., ?_, rfl, ?_, rfl, rfl, rfl, rfl⟩
    · unfold State.sendBy
      simp only [hkind]
      rw [hmap]
      dsimp only
      rw [if_pos trivial]
      exact if_pos hroom
    · exact (BitVec.toNat_ofNat ..).trans (Nat.mod_eq_of_lt (bitF_lt w.toNat 17 10))
    · exact (BitVec.toNat_ofNat ..).trans (Nat.mod_eq_of_lt (bitF_lt w.toNat 8 0))

section
variable {s : State} {pos : Nat}

/-! ### Slots -/

theorem slotOfCtx_ctx {l : Tab Slot} {c i : Nat} {sl : Slot} (h : slotOfCtx l c = some (i, sl)) : sl.ctx = c := by
  induction l with
  | nil => cases h
  | cons x l ih =>
    rw [slotOfCtx] at h
    split at h
    next hx => cases h; exact hx
    next => exact ih h

/-- A change of a slot that is there. -/
theorem Elem.modSlot_get {e : Elem} {i : Nat} {sl : Slot} (h : tabGet e.slots i = some sl) (g : Slot → Slot) :
    tabGet (e.modSlot i g).slots i = some (g sl) := by
  rw [Elem.modSlot, h]
  exact tabGet_tabPut_same ..

theorem Elem.modSlot_present {e : Elem} {i j : Nat} (h : (tabGet e.slots i).isSome) (g : Slot → Slot) :
    (tabGet (e.modSlot j g).slots i).isSome := by
  unfold Elem.modSlot
  split
  next sl hsl =>
    dsimp only
    rw [tabGet_tabPut]
    split
    · rfl
    · exact h
  next => exact h

/-- The slot that fires is still there once the pair has issued and its results have left. -/
theorem State.results_present {f : Fire} (h : (tabGet (s.elem f.pos).slots f.slotIx).isSome) (l : List (Nat × Token)) :
    (tabGet (((s.issued f).emitAll f l).elem f.pos).slots f.slotIx).isSome := by
  have hissued : (tabGet ((s.issued f).elem f.pos).slots f.slotIx).isSome := by
    have hcharge (s : State) (d p n m : Nat) : ({ s.charge d p n m with firing := none } : State).elem f.pos = s.elem f.pos := rfl
    unfold State.issued
    dsimp only
    rw [hcharge, State.elem_modElem]
    refine Elem.modSlot_present ?_ _
    split <;> exact h
  generalize s.issued f = u at hissued
  induction l generalizing u with
  | nil => exact hissued
  | cons x l ih =>
    refine ih _ ?_
    unfold State.emit1
    split
    · exact hissued
    · dsimp only
      split
      · rw [State.elem_modElem]
        exact Elem.modSlot_present hissued _
      · rw [State.elem_modElem]
        exact Elem.modSlot_present hissued _

theorem State.ovfErr_none (s : State) {e : OvfEntry} (h : e.upset = 0) : s.ovfErr e = s := by
  unfold State.ovfErr
  rw [h]
  rfl

/-! ### A parked `alloc` -/

/-- A context that may issue is there. -/
theorem State.mayIssue_ctx {ctx : Nat} (h : s.mayIssue ctx = true) : ∃ c, s.ctx? ctx = some c := by
  unfold State.mayIssue at h
  split at h
  next c hc => exact ⟨c, hc⟩
  next => cases h

theorem State.issued_unions (s : State) (f : Fire) : (s.issued f).unions = s.unions := rfl

theorem State.emitAll_unions (f : Fire) (l : List (Nat × Token)) (s : State) : (s.emitAll f l).unions = s.unions := by
  have one (s : State) (d : Nat) (t : Token) : (s.emit1 f d t).unions = s.unions := by
    unfold State.emit1
    split
    · rfl
    · dsimp only
      split <;> rfl
  induction l generalizing s with
  | nil => rfl
  | cons x l ih => exact (ih _).trans (one s x.1 x.2)

/-- The fields of an element's instruction word (R195). -/
abbrev wordOps (w : Nat) : ElemOps where
  sa := BitVec.ofNat 3 (wSa w)
  sb := BitVec.ofNat 3 (wSb w)
  dx := BitVec.ofNat 5 (wDx w)
  dy := BitVec.ofNat 5 (wDy w)
  ta := BitVec.ofNat 4 (bitF w 7 4)
  lx := BitVec.ofNat 4 (wLx w)

/-- The firing of a pair that has been parked. -/
abbrev parkedFire (s : State) (pos ctx i : Nat) (sl : Slot) (p : Pair) (acts : List Act) : Fire where
  pos := pos
  slotIx := i
  slot := sl
  pair := p
  ctx := ctx
  part := s.partOf ctx
  node := p.node
  nest := p.nest
  acts := acts
  act := (sl.nodeAct[p.node]?).getD 64

/-- A parked `alloc` of one plain operand in slot L fires: its activation counts one more, and no union waits. -/
theorem State.parkedAlloc_fires {f : Fire} {w act : Nat} {tok : Token} (hL : f.pair.opL = some tok)
    (hR : f.pair.opR = none) (hord : f.pair.ordL = none) (hsa : wSa w = 0) (hta : bitF w 7 4 = 5) (hpoison : tok.poison = false)
    (hplate : tok.plate = 0) (hcolour : tok.colour ≤ (actAt f.acts act).lanes)
    (hget : tabGet (s.elem f.pos).slots f.slotIx = some f.slot) :
    ∃ sl', (s.allocFire f (wordOps w) act).unions = s.unions ∧ (∀ q, (s.allocFire f (wordOps w) act).ovf q = s.ovf q) ∧
      tabGet ((s.allocFire f (wordOps w) act).elem f.pos).slots f.slotIx = some sl' ∧
      tabNum sl'.live act = tabNum f.slot.live act + 1 := by
  have hread : f.read (srcOf (wordOps w).sa) 0 .bits = Opnd.ofToken .slotL tok := by
    have hsrc : srcOf (wordOps w).sa = .slotL := by rw [wordOps, hsa]; rfl
    rw [hsrc, Fire.read, hL]
  have hcon : f.consumed [f.read (srcOf (wordOps w).sa) 0 .bits] = [Opnd.ofToken .slotL tok] := by
    rw [hread, Fire.consumed, hL, hR, hord]
    rfl
  have hfits : colourOf [f.read (srcOf (wordOps w).sa) 0 .bits] ≤ (actAt f.acts act).lanes := by
    rw [hread]
    unfold colourOf
    split
    · exact hcolour
    · exact Nat.le_trans (Nat.succ_le_succ (Nat.zero_le _)) hcolour
  have hn : tagAction f (wordOps w).ta.toNat 0 (actAt f.acts act).width = some (BitVec.ofNat 48 (f.nest.toNat * 2 ^ (actAt f.acts act).width)) := by
    rw [wordOps, hta]
    rfl
  obtain ⟨l, heq⟩ : ∃ l, s.allocFire f (wordOps w) act = ((s.issued f).emitAll f l).modElem f.pos fun e =>
      e.modSlot f.slotIx fun sl => sl.liveSet act (tabNum f.slot.live act + 1) :=
    ⟨_, State.allocFire_eq (h := 0) rfl (by rw [hcon]; simpa [Opnd.ofToken] using hpoison)
      (by rw [hcon]; simp [Opnd.ofToken, hplate, State.unionAll, State.union]) hfits (by rw [hread]; exact hpoison) hn⟩
  obtain ⟨sl1, hsl1⟩ := Option.isSome_iff_exists.mp (State.results_present (s := s) (f := f) (by rw [hget]; rfl) l)
  refine ⟨sl1.liveSet act (tabNum f.slot.live act + 1), ?_, fun q => ?_, ?_, congrArg (·.getD 0) (tabGet_tabPut_same ..)⟩
  · rw [heq]
    exact State.emitAll_unions f l (s.issued f)
  · obtain ⟨hframe, -⟩ := (ElemFrame.issued s f).trans (ElemFrame.emitAll f l (s.issued f))
    rw [heq]
    show ((s.issued f).emitAll f l).ovf q = s.ovf q
    rw [hframe]
    rfl
  · rw [heq, State.elem_modElem]
    exact Elem.modSlot_get hsl1 _

/-- What a notice leaves of the live count of its activation. -/
theorem State.freeNotice_live {ctx act n i : Nat} {sl : Slot} (hslot : slotOfCtx (s.elem pos).slots ctx = some (i, sl))
    (hget : tabGet (s.elem pos).slots i = some sl) :
    tabGet ((s.modElem pos fun e => e.modCtxSlot ctx fun sl => sl.liveSet act n).elem pos).slots i = some (sl.liveSet act n) := by
  rw [State.elem_modElem, Elem.modCtxSlot, hslot]
  exact Elem.modSlot_get hget _

theorem State.fabricFault_elems (s : State) (ctx : Nat) (r : BitVec 128) (sp sn : Nat) (h : Handle) :
    (s.fabricFault ctx r sp sn h).elems = s.elems := by
  obtain ⟨c, hc⟩ := State.modCtx_frame s ctx fun c => { c with fault := FaultRec.note { c.fault with nfab := satAdd c.fault.nfab 1 } r }
  unfold State.fabricFault
  dsimp only
  rw [hc]
  split <;> rfl

/-- A fabric fault is counted in its context's record. -/
theorem State.fabricFault_count (s : State) (ctx : Nat) (r : BitVec 128) (sp sn : Nat) (h : Handle) :
    ((s.fabricFault ctx r sp sn h).ctx? ctx).map (·.fault.nfab) = (s.ctx? ctx).map fun c => satAdd c.fault.nfab 1 := by
  have hctx : (s.fabricFault ctx r sp sn h).ctx? ctx = (s.ctx? ctx).map fun c =>
      { c with fault := FaultRec.note { c.fault with nfab := satAdd c.fault.nfab 1 } r } := by
    rw [← State.ctx?_modCtx]
    unfold State.fabricFault
    dsimp only
    split <;> rfl
  rw [hctx, Option.map_map]
  refine congrArg (Option.map · (s.ctx? ctx)) (funext fun c => ?_)
  unfold Function.comp FaultRec.note
  dsimp only
  split <;> rfl

end

/-- Settles O23: the events of the overflow store and the configuration cache. -/
theorem cacheAndOverflowEvents : Obligations.CacheAndOverflowEvents := by
  unfold Obligations.CacheAndOverflowEvents
  refine ⟨?_, ?_, ?_, ?_, ?_, ?_, ?_, ?_⟩
  · intro s q idx e he
    show execSpillWrite q idx s = _
    unfold execSpillWrite
    dsimp only
    rw [he]
  · intro s u pos idx i a sl ha hslot s1 hmatch
    show execOverflowSearchDone pos idx s = _
    unfold execOverflowSearchDone
    rw [ha]
    dsimp only
    rw [hslot]
    dsimp only
    rw [hmatch]
  · intro s pos i sl hvictim hfetch hused haside
    have hx : exec (.slotEviction pos sl.ctx) s = execSlotEviction pos sl.ctx s := rfl
    unfold execSlotEviction at hx
    dsimp only at hx
    rw [hvictim] at hx
    dsimp only at hx
    rw [if_pos ⟨rfl, by simpa using hfetch, hused, by simpa using haside⟩] at hx
    refine ⟨_, hx, ?_, ?_, ?_, ?_⟩
    · rw [State.elem_setElem]
      exact tabGet_tabPut_same ..
    · rw [State.elem_setElem]
    · rw [State.elem_setElem]
      exact tabGet_tabPut_same ..
    · rw [State.elem_setElem]
  · intro s pos ctx i sl hfetch hback hfree hused hops
    have hx : exec (.slotInstall pos ctx) s = execSlotInstall pos ctx s := rfl
    unfold execSlotInstall at hx
    dsimp only at hx
    rw [if_neg (by rw [hfetch]; decide)] at hx
    by_cases hp : Config.fetchPoison s.tick = true
    · rw [if_pos hp] at hx
      refine ⟨_, hx, ?_, fun h => absurd (hp.symm.trans h) (by decide), fun _ => ⟨?_, State.fabricFault_count ..⟩⟩
      · rw [State.elem, State.fabricFault_elems]
        exact congrArg Elem.fetching (State.elem_setElem ..)
      · rw [State.elem, State.fabricFault_elems]
        exact (congrArg Elem.slots (State.elem_setElem s pos _)).trans rfl
    · rw [if_neg hp, hback, hfree] at hx
      dsimp only at hx
      rw [if_neg (by omega), hops] at hx
      refine ⟨_, hx, ?_, fun _ => ?_, fun h => absurd h hp⟩
      · rw [State.elem_modElem, State.elem_setElem]
      · rw [State.elem_modElem]
        exact tabGet_tabPut_same ..
  · intro s u pos ctx i k sl e hslot hfind hupset htake
    have htok : s.ovfTok e = e.tok := if_neg (by rw [hupset]; decide)
    show execParkedTokenReplay pos ctx s = _
    unfold execParkedTokenReplay
    rw [hslot]
    dsimp only
    rw [hfind]
    dsimp only
    rw [State.ovfErr_none _ hupset, htok, htake]
  · intro s pos port ctx act node i rest sl hbuf hawake hslot hget hlive
    have hlive' := State.freeNotice_live (s := s.setBuf pos port 0 rest) (act := act) (n := tabNum sl.live act - 1) hslot hget
    refine ⟨_, _, ?_, hlive', congrArg (·.getD 0) (tabGet_tabPut_same ..)⟩
    show execFreeNotice pos port s = _
    unfold execFreeNotice
    rw [hbuf]
    dsimp only
    rw [if_neg (by simp [hawake]), Elem.slotFor, hslot]
    dsimp only
    exact if_neg (by omega)
  · intro s pos idx i e p tr sl he hpos hwhat hupset hpoison hslot hget hmay hL hR hord hsa hroom act ac hlive hcolour hta hplate
    obtain ⟨pos', ctx, tok, what, deep, upset⟩ := e
    cases hpos
    cases hwhat
    cases hupset
    obtain ⟨c, hc⟩ := State.mayIssue_ctx hmay
    have hac : ac = actAt c.acts act := by
      show actAt (match s.ctx? ctx with | some c => c.acts | none => []) act = _
      rw [hc]
    rw [hac] at hlive hcolour
    have hpair : ({ p with opL := p.opL.map fun _ => tok, opR := p.opR.map fun _ => tok } : Pair) = p := by
      rw [hL, hR]
      exact congr (congrArg (fun l r => ({ p with opL := l, opR := r } : Pair)) hL.symm) hR.symm
    obtain ⟨sl', hunions, hovf, hslots, hlive'⟩ := State.parkedAlloc_fires (s := s.setOvf (quireOf pos') { s.ovf (quireOf pos') with
      entries := listDrop (s.ovf (quireOf pos')).entries idx }) (f := parkedFire s pos' ctx i sl p c.acts) hL hR hord hsa hta hpoison hplate
      (act := act) hcolour hget
    generalize ht : State.allocFire (s.setOvf (quireOf pos') { s.ovf (quireOf pos') with
      entries := listDrop (s.ovf (quireOf pos')).entries idx }) (parkedFire s pos' ctx i sl p c.acts) (wordOps (sl.word p.node)) act = t
      at hunions hovf hslots
    have hx : exec (.parkedAllocFire pos' idx) s = .next (t.modElem pos' fun e =>
        { e with cur := (s.elem pos').cur, used := (s.elem pos').used }) := by
      have htok : s.ovfTok { pos := pos', ctx := ctx, tok := tok, what := .alloc p true false, deep := deep, upset := 0 } = tok := rfl
      have hcw : (parkedFire s pos' ctx i sl p c.acts).cw (wordOps (sl.word p.node)) = sl.lit (wLx (sl.word p.node)) := by
        rw [Fire.cw, BitVec.toNat_ofNat, Nat.mod_eq_of_lt (show wLx (sl.word p.node) < 2 ^ 4 from bitF_lt (sl.word p.node) 3 0)]
      show execParkedAllocFire pos' idx s = _
      unfold execParkedAllocFire
      dsimp only
      rw [he]
      dsimp only
      rw [hslot]
      dsimp only
      rw [if_neg (by simp [hmay]; omega), htok, hpair, if_neg Bool.false_ne_true, hc]
      dsimp only
      rw [hcw, if_pos hlive]
      rw [State.ovfErr_none _ (e := { pos := pos', ctx := ctx, tok := tok, what := .alloc p true false, deep := deep, upset := 0 }) rfl]
      refine (if_neg ?_).trans (congrArg (fun t : State => Host.Outcome.next (t.modElem pos' fun e =>
        { e with cur := (s.elem pos').cur, used := (s.elem pos').used })) ht)
      exact ht ▸ Nat.not_lt.mpr (Nat.le_of_eq (congrArg List.length hunions))
    refine ⟨_, sl', hx, ?_, hlive', ?_⟩
    · rw [State.elem_modElem]
      exact hslots
    · refine (congrArg Overflow.entries (hovf _)).trans ?_
      rw [State.ovf, State.setOvf, tabGet_tabPut_same]
      rfl
  · intro s pos slot node p sl hfind hsl hrob hmay hnone hroom
    show execMemoryNodeSwitchEmit pos slot node s = _
    unfold execMemoryNodeSwitchEmit
    dsimp only
    rw [hfind, hsl]
    dsimp only
    have hany : ((s.elem pos).rob.any fun r => r.slotIx == slot && r.node == node) = false := by
      rw [List.any_eq_false]
      intro r hr
      simp only [Bool.and_eq_true, beq_iff_eq, not_and]
      intro h1 h2
      rcases hnone r hr with h | h
      · exact h h1
      · exact h h2
    rw [hany, hrob, hmay]
    exact if_pos (by simpa using hroom)

end Sys2Proof.Machine

/-! SUPPORT. Scrubbing, write-back and soft errors (R58, R59). -/

namespace Sys2Proof.Machine

section
variable {s : State}

/-- Nothing but the counts of the dies, the soft-error records and the trap messages differs. -/
def CountEdit (s t : State) : Prop := ∃ d e o, t = { s with dies := d, softErrors := e, trapOut := o }

theorem CountEdit.trans {t u : State} (h : CountEdit s t) (h' : CountEdit t u) : CountEdit s u := by
  obtain ⟨_, _, _, rfl⟩ := h
  obtain ⟨_, _, _, rfl⟩ := h'
  exact ⟨_, _, _, rfl⟩

theorem State.corrected_edit (s : State) (st : Store) (a : Nat) : CountEdit s (s.corrected st a) := by
  unfold State.corrected
  dsimp only
  split
  · exact ⟨_, _, s.trapOut, rfl⟩
  · exact ⟨_, s.softErrors, s.trapOut, rfl⟩

theorem State.uncFound_edit (s : State) (m : ErrMark) (ctx : Nat) : CountEdit s (s.uncFound m ctx) := by
  unfold State.uncFound
  dsimp only
  split
  · exact ⟨_, _, _, rfl⟩
  · exact ⟨_, _, s.trapOut, rfl⟩

theorem State.countAll_edit (ctx : Nat) (l : List ErrMark) (s : State) : CountEdit s (s.countAll ctx l) := by
  induction l generalizing s with
  | nil => exact ⟨s.dies, s.softErrors, s.trapOut, rfl⟩
  | cons m l ih =>
    refine CountEdit.trans ?_ (ih _)
    split
    · exact s.uncFound_edit m ctx
    · exact s.corrected_edit m.store m.addr

/-- A read that meets errors marks them and counts them, and changes nothing else. -/
theorem State.readErrs_frame (s : State) (st : Store) (a n ctx : Nat) :
    ∃ e, CountEdit { s with errs := e } (s.readErrs st a n ctx) := by
  unfold State.readErrs
  split
  · exact ⟨s.errs, s.dies, s.softErrors, s.trapOut, rfl⟩
  · exact ⟨_, State.countAll_edit ..⟩

/-- What a scrub leaves: the next row, and no word of its own row to correct. -/
theorem State.scrub_spec (s : State) (b : Nat) :
    ((s.scrub b).bank b) = { s.bank b with scrub := ((s.bank b).scrub + 1) % 1024, lastScrub := s.tick } ∧
      (s.scrub b).sram = s.sram ∧ ∀ m ∈ (s.scrub b).errs, m.store = .bank → m.unc = false →
        ¬ (b * 65536 + 64 * (s.bank b).scrub ≤ m.addr * 8 ∧ m.addr * 8 < b * 65536 + 64 * (s.bank b).scrub + 64) := by
  obtain ⟨e, d, se, o, hread⟩ := s.readErrs_frame .bank (b * 65536 + 64 * (s.bank b).scrub) 64 0
  unfold State.scrub
  dsimp only
  rw [hread]
  refine ⟨?_, rfl, fun m hm hst hunc hin => ?_⟩
  · rw [State.bank_setBank, if_pos rfl]
  · have hkeep := (List.mem_filter.mp hm).2
    simp only [hst, hunc, beq_self_eq_true, Bool.not_false, Bool.true_and, Bool.not_eq_true', Bool.and_eq_false_iff,
      decide_eq_false_iff_not] at hkeep
    omega

end

/-- Settles O19: the scrub's row, and the mark of an error. -/
theorem errorCorrectionEvents : Obligations.ErrorCorrectionEvents := by
  unfold Obligations.ErrorCorrectionEvents
  refine ⟨?_, ?_, ?_, ?_⟩
  · intro s b hq hz hplot
    obtain ⟨hbank, hsram, herrs⟩ := s.scrub_spec b
    refine ⟨s.scrub b, ?_, by rw [hbank], by rw [hbank], hsram, herrs⟩
    show execScrubRow b s = _
    unfold execScrubRow
    dsimp only
    rw [hq, hz, hplot]
    rfl
  · intro s b hfree hlong
    obtain ⟨hbank, hsram, -⟩ := s.scrub_spec b
    refine ⟨(s.scrub b).bankUsed b true, ?_, ?_, ?_, hsram⟩
    · show execScrubForced b s = _
      unfold execScrubForced
      dsimp only
      exact if_pos (by rw [hfree]; simpa using hlong)
    · rw [State.modBank_bank, hbank]
    · rw [State.modBank_bank]
  · intro s idx m hm hmet hunc
    show execEccWriteback idx s = _
    unfold execEccWriteback
    rw [hm]
    dsimp only
    rw [hmet, hunc]
    rfl
  · intro s addr bits hbits
    have hx : exec (.softError 0 addr bits) s = execSoftError 0 addr bits s := rfl
    unfold execSoftError at hx
    rw [if_neg (by omega), show storeOf 0 = .bank from rfl] at hx
    dsimp only at hx
    rw [if_pos (by omega)] at hx
    exact ⟨_, hx, rfl, List.mem_append_right _ (List.mem_singleton.mpr rfl)⟩

end Sys2Proof.Machine

/-! SUPPORT. The engines: tokens that reach a port, and the port events, drains and switch of the Press (R305 to R309, R312, R315,
R318). -/

namespace Sys2Proof.Machine

/-! ### Engine ports -/

theorem State.enginePort_bounds {s : State} {pos port engine lo hi p : Nat} {t : Token} {rest : List Flit}
    (h : s.enginePort pos port engine lo hi = some (p, t, rest)) : lo ≤ p ∧ p ≤ hi := by
  unfold State.enginePort at h
  split at h
  · dsimp only at h
    split at h
    next hg =>
      cases h
      exact ⟨hg.2.2.2.1, hg.2.2.2.2.1⟩
    · cases h
  · cases h

/-- The range of ports only admits or refuses the token: any other range with the port in it takes the same token. -/
theorem State.enginePort_range {s : State} {pos port engine lo hi p : Nat} {t : Token} {rest : List Flit}
    (h : s.enginePort pos port engine lo hi = some (p, t, rest)) {lo' hi' : Nat} (hlo : lo' ≤ p) (hhi : p ≤ hi') :
    s.enginePort pos port engine lo' hi' = some (p, t, rest) := by
  unfold State.enginePort at h ⊢
  split at h
  · dsimp only at h ⊢
    split at h
    next hg =>
      cases h
      obtain ⟨hd, hk, he, -, -, ha⟩ := hg
      exact if_pos ⟨hd, hk, he, hlo, hhi, ha⟩
    · cases h
  · cases h

theorem State.engineForm_sound (s : State) {t : Token} {fmts : List Fmt} (q src : Nat) (hp : t.poison = false) (ho : t.ord = false)
    (hf : fmts.contains t.fmt = true) : s.engineForm q src fmts t = t := by
  simp [State.engineForm, hp, ho]
  simpa using fun h => absurd hf (by simpa using h)

@[simp] theorem State.pressOf_setBuf (s : State) (pos port cls : Nat) (l : List Flit) (q : Nat) :
    (s.setBuf pos port cls l).pressOf q = s.pressOf q := rfl

@[simp] theorem State.pressOf_setPress (s : State) (q : Nat) (v : Press) : (s.setPress q v).pressOf q = v := by
  rw [State.pressOf, State.setPress, tabGet_tabPut_same, Option.getD_some]

/-- A token that a port of the serving Press takes goes to the port's own rule `g`. -/
theorem State.pressPort_takes {s : State} {pos port lo hi p : Nat} {fmts : Nat → List Fmt} {t : Token} {rest : List Flit}
    {g : Nat → Nat → Token → State → Option State} {u : State} {lo' hi' : Nat}
    (h : s.TakesAt pos port 0 lo hi (fmts p) (s.pressOf (quireOf pos)).ctx p t rest) (hlo : lo' ≤ p) (hhi : p ≤ hi')
    (hg : g (quireOf pos) p t (s.setBuf pos port 0 rest) = some u) :
    s.pressPort pos port lo' hi' fmts g = .next u := by
  obtain ⟨hport, hctx, halive, hsw, hpo, hord, hfmt⟩ := h
  unfold State.pressPort
  rw [State.enginePort_range hport hlo hhi]
  dsimp only
  rw [if_neg (by simp [hctx, halive]), if_neg (by simp [hsw]), State.engineForm_sound _ _ _ hpo hord hfmt, hg]

/-! ### Fill, shift, scale and go tokens -/

theorem fillBytes_le (t : Token) : fillBytes t ≤ 128 := by
  have hc : t.colour ≤ 32 := t.wid.isLt
  unfold fillBytes
  split
  · omega
  · cases t.fmt <;> simp only [fmtWidth] <;> omega

theorem union_zero (s : State) (h : Handle) : s.union 0 h = .ok h := by
  unfold State.union
  split
  next hg =>
    rcases hg with hg | hg
    · rw [hg]
    · rw [hg]
  · rfl

/-- The tile that the first fill or shift token of a register and tag opens (R307). -/
abbrev firstTile (reg : Nat) (isShift : Bool) (t : Token) : Tile :=
  { reg := reg, ctx := t.ctx.toNat, nest := t.nest, fills := if isShift then [] else [t], shifts := if isShift then [t] else [],
    kept := false, goSeen := false, poison := none, handle := t.plate }

/-- One token alone is no excess of a tile: it fills at most 128 of the 16,384 bytes, or 128 of the 1,024 shifts. -/
theorem State.tileToken_first (s : State) (q reg : Nat) (isShift : Bool) (t : Token) (hnew : (s.pressOf q).tile reg t.nest = none)
    (hroom : (s.pressOf q).tiles.length < 16) (hgo : (s.pressOf q).goFor reg t.nest = none) :
    s.tileToken q reg isShift t =
      some (s.setPress q { s.pressOf q with tiles := (s.pressOf q).tiles ++ [firstTile reg isShift t] }) := by
  have hfill : ¬ 0 + fillBytes t > 16384 := by have := fillBytes_le t; omega
  have hshift : ¬ 0 + 4 * t.colour > 1024 := by have hc : t.colour ≤ 32 := t.wid.isLt; omega
  unfold State.tileToken
  dsimp only
  rw [hnew, hgo, if_neg (by simp; omega)]
  cases isShift
  · simp only [Option.getD_none, union_zero, Bool.false_eq_true, if_false, List.nil_append, List.foldl_cons, List.foldl_nil, decide_eq_true_eq, hfill,
      false_and, Option.isSome_none, State.putTile, State.modPress]
    rfl
  · simp only [Option.getD_none, union_zero, if_true, List.nil_append, List.foldl_cons, List.foldl_nil, decide_eq_true_eq, hshift,
      false_and, if_false, Option.isSome_none, State.putTile, State.modPress, Bool.false_eq_true]
    rfl

/-! ### Drains -/

/-- The Press after a drain has sent the first of its tokens. -/
abbrev Press.sentFirst (k : Press) (d : Drain) (ds : List Drain) (t : Token) (ts : List Token) : Press :=
  { k with
    drains := if ts.isEmpty then ds else { d with toks := ts } :: ds
    sent := if t.isSwitch then k.sent else tabAdd k.sent (32 * d.del + d.didx) 1 }

/-- On port `o` a drain token goes to the stream bound there while fewer than two wait. -/
theorem State.drainSend_port {s : State} {q : Nat} {d : Drain} {t : Token} {sl : Slot}
    (hsl : (s.elem (q * 16 + d.del)).slotFor t.ctx.toNat = some sl) (hkind : entryKind (sl.dest d.didx).1 = 1)
    (hnode : entryNode (sl.dest d.didx).1 = 18) (hbound : s.outBound 0 18 q 1 = true) (hroom : (s.pressOf q).port18.length < 2) :
    s.drainSend q d t = some (s.modPress q fun p => { p with port18 := p.port18 ++ [t] }) := by
  unfold State.drainSend
  dsimp only
  rw [hsl]
  dsimp only
  rw [if_pos ⟨hkind, hnode⟩, if_pos ⟨hbound, hroom⟩]

/-! ### The switch -/

theorem State.fabricFault_frame (s : State) (ctx : Nat) (r : BitVec 128) (sp sn : Nat) (h : Handle) :
    ∃ x y, s.fabricFault ctx r sp sn h = { s with ctxs := x, trapOut := y } := by
  obtain ⟨c, hc⟩ := State.modCtx_frame s ctx fun c => { c with fault := FaultRec.note { c.fault with nfab := satAdd c.fault.nfab 1 } r }
  unfold State.fabricFault
  dsimp only
  rw [hc]
  split
  · exact ⟨c, s.trapOut, rfl⟩
  · exact ⟨c, _, rfl⟩

/-- A stranded item is counted in its context, and in a strict one it is a fabric fault: nothing else changes. -/
theorem State.strandItem_frame (s : State) (ctx q src detail : Nat) (h : Handle) :
    ∃ x y, s.strandItem ctx q src detail h = { s with ctxs := x, trapOut := y } := by
  obtain ⟨c, hc⟩ := State.modCtx_frame s ctx fun c => { c with fault := { c.fault with strand := satAdd c.fault.strand 1 } }
  unfold State.strandItem
  dsimp only
  rw [hc]
  split
  · obtain ⟨x, y, hx⟩ := State.fabricFault_frame { s with ctxs := c } ctx
      (State.unitRec { s with ctxs := c } 0x68 ctx q src detail)
      (State.logOf { s with ctxs := c } (State.partOf { s with ctxs := c } ctx) (q * 16)) 0xFF h
    exact ⟨x, y, hx⟩
  · exact ⟨c, s.trapOut, rfl⟩

/-- A fold of steps that each change only the contexts and the trap messages changes only those. -/
theorem State.foldl_ctxFrame {α : Type} {f : State → α → State} (hf : ∀ s a, ∃ x y, f s a = { s with ctxs := x, trapOut := y })
    (l : List α) : ∀ s : State, ∃ x y, l.foldl f s = { s with ctxs := x, trapOut := y } := by
  induction l with
  | nil => exact fun s => ⟨s.ctxs, s.trapOut, rfl⟩
  | cons a r ih =>
    intro s
    obtain ⟨x, y, hx⟩ := hf s a
    obtain ⟨x', y', hx'⟩ := ih (f s a)
    rw [List.foldl_cons, hx', hx]
    exact ⟨x', y', rfl⟩

theorem State.strandToks_frame (s : State) (ctx q src : Nat) (l : List Token) :
    ∃ x y, s.strandToks ctx q src l = { s with ctxs := x, trapOut := y } :=
  State.foldl_ctxFrame (fun _ _ => State.strandItem_frame ..) l s

end Sys2Proof.Machine

open Sys2Proof Sys2Proof.Machine in
/-- Settles O40: a token that the Press takes meets a fresh tile, the scale buffer or the go FIFO; a drain token goes to port o; and
a switch strands the items one by one, which changes contexts and trap messages alone, before it takes the shadow's words. -/
theorem pressEventResults : Obligations.PressEventResults := by
  unfold Obligations.PressEventResults
  refine ⟨fun s pos port p t rest => ⟨fun h hnew hroom hgo => ?_, fun h hroom hcol => ?_, fun h hbad hroom => ?_⟩,
    fun s q d ds t t2 ts sl hds htoks hsl hkind hnode hbound hroom => ?_, fun s q ctx hctx hsw hdr => ?_⟩
  · have htile := (s.setBuf pos port 0 rest).tileToken_first (quireOf pos) (p % 8) (!decide (p < 8)) t hnew hroom hgo
    obtain ⟨-, hp15⟩ := State.enginePort_bounds h.1
    by_cases hp : p < 8
    · simp only [hp, decide_true, Bool.not_true, if_true, Nat.mod_eq_of_lt hp] at htile ⊢
      exact ⟨_, (show _ = execPressFillToken pos port s from rfl).trans <| State.pressPort_takes h (by omega) (by omega) htile, rfl, State.pressOf_setPress ..⟩
    · have h8 : p % 8 = p - 8 := by omega
      simp only [hp, decide_false, Bool.not_false, if_false, h8] at htile ⊢
      exact ⟨_, (show _ = execPressShiftToken pos port s from rfl).trans <| State.pressPort_takes h (by omega) (by omega) htile, rfl, State.pressOf_setPress ..⟩
  · obtain ⟨hlo, hhi⟩ := State.enginePort_bounds h.1
    obtain rfl : p = 16 := by omega
    refine ⟨(s.setBuf pos port 0 rest).setPress (quireOf pos)
      { s.pressOf (quireOf pos) with scales := (s.pressOf (quireOf pos)).scales ++ [t] }, ?_, rfl, State.pressOf_setPress ..⟩
    refine (show _ = execTensorScaleToken pos port s from rfl).trans (State.pressPort_takes h hlo hhi ?_)
    dsimp only
    rw [State.pressOf_setBuf, if_neg (by omega), if_pos (Or.inr hcol)]
  · obtain ⟨hlo, hhi⟩ := State.enginePort_bounds h.1
    obtain rfl : p = 17 := by omega
    refine ⟨(s.setBuf pos port 0 rest).setPress (quireOf pos)
      { s.pressOf (quireOf pos) with go := (s.pressOf (quireOf pos)).go ++ [t] }, ?_, rfl, State.pressOf_setPress ..⟩
    have hpo := h.2.2.2.2.1
    refine (show _ = execPressGoToken pos port s from rfl).trans (State.pressPort_takes h hlo hhi ?_)
    dsimp only
    rw [State.pressOf_setBuf, if_neg (by simp [hpo]), if_neg (by simp [hbad]), if_neg (by omega)]
  · have hsend := State.drainSend_port (s := s.setPress q ((s.pressOf q).sentFirst d ds t (t2 :: ts))) (q := q) (d := d) hsl hkind hnode
      hbound (by rw [State.pressOf_setPress]; exact hroom)
    have hx : exec (.pressDrain q) s = execPressDrain q s := rfl
    unfold execPressDrain at hx
    dsimp only at hx
    rw [hds] at hx
    dsimp only at hx
    rw [htoks] at hx
    dsimp only at hx
    rw [show State.drainSend _ q d t = _ from hsend] at hx
    refine ⟨_, hx, ?_, ?_, rfl⟩
    · rw [State.pressOf_modPress, State.pressOf_setPress]; rfl
    · rw [State.pressOf_modPress, State.pressOf_setPress]
  · have hx : exec (.pressSwitch q) s = execPressSwitch q s := rfl
    unfold execPressSwitch at hx
    dsimp only at hx
    rw [hctx] at hx
    dsimp only at hx
    rw [if_neg (by simp [hsw, hdr])] at hx
    refine ⟨_, hx, ?_, ?_, ?_, ?_, ?_, ?_, ?_⟩
    iterate 5 rw [State.pressOf_setPress]
    all_goals
      obtain ⟨x, y, h1⟩ := s.strandToks_frame ctx q 1 (s.pressOf q).go
      obtain ⟨x', y', h2⟩ := State.foldl_ctxFrame (f := fun s (t : Tile) => s.strandItem ctx q 1 t.nest.toNat t.handle)
        (fun _ _ => State.strandItem_frame ..) (s.pressOf q).tiles (s.strandToks ctx q 1 (s.pressOf q).go)
      obtain ⟨x'', y'', h3⟩ := State.strandToks_frame ((s.pressOf q).tiles.foldl
        (fun s (t : Tile) => s.strandItem ctx q 1 t.nest.toNat t.handle) (s.strandToks ctx q 1 (s.pressOf q).go)) ctx q 1
        (s.pressOf q).scales
      rw [h3, h2, h1]
      rfl

/-! SUPPORT. The Press operations (R313 to R315): the product of two tiles, the drain of an accumulator, and what an operation
leaves as it was. -/

namespace Sys2Proof.Machine

/-! ### Accumulators and unions -/

theorem listMod_set_same {α : Type} {l : List α} {i : Nat} (x : α) (h : i < l.length) : (listMod l i fun _ => x)[i]? = some x := by
  rw [listMod_getElem?, List.getElem?_eq_getElem h, Option.map_some]

theorem listMod_getElem?_ne {α : Type} (f : α → α) : ∀ {l : List α} {i n : Nat}, n ≠ i → (listMod l i f)[n]? = l[n]?
  | [], _, _, _ => rfl
  | _ :: _, 0, 0, h => absurd rfl h
  | _ :: _, 0, _ + 1, _ => rfl
  | _ :: _, _ + 1, 0, _ => rfl
  | _ :: r, i + 1, n + 1, h => listMod_getElem?_ne f (l := r) fun e => h (e ▸ rfl)

/-- A union of several handles reads the sets and the unions at the Spine, and nothing else. -/
theorem State.unionAll_congr {s t : State} (hsets : t.sets = s.sets) (hun : t.unions = s.unions) :
    ∀ (l : List Handle) (h : Handle), t.unionAll h l = s.unionAll h l
  | [], _ => rfl
  | x :: r, h => by
    have hu : t.union h x = s.union h x := by unfold State.union State.setOf; rw [hsets, hun]
    rw [State.unionAll, State.unionAll, hu]
    cases s.union h x with
    | ok h' => exact State.unionAll_congr hsets hun r h'
    | ovf => rfl
    | wait => rfl

theorem State.engineUnion_ok {s : State} {h g : Handle} {l : List Handle} (ctx : Nat) (hu : s.unionAll h l = .ok g) :
    s.engineUnion ctx h l = .ok g none s := by rw [State.engineUnion, hu]

/-! ### What an operation leaves as it was -/

/-- Only the Presses, the Grafts' turn and the energy counts change. -/
def PressEdit (s t : State) : Prop := t = { s with press := t.press, graft := t.graft, dies := t.dies }

theorem PressEdit.trans {s t u : State} (h : PressEdit s t) (h' : PressEdit t u) : PressEdit s u := by
  unfold PressEdit at *
  rw [h] at h'
  exact h'

theorem PressEdit.setPress (s : State) (q : Nat) (v : Press) : PressEdit s (s.setPress q v) := rfl

/-! ### Product and drain -/

/-- A product that meets no fault goes into its accumulator; of the Press only tiles and accumulators change. -/
theorem State.pressProduct_ok {s : State} {q pop : Nat} {g : Token} {w : PressWord} {a b : Tile} {h : Handle} {old : Accum}
    (hold : (if pop = 0 then Accum.fresh else ((s.pressOf q).tc[w.tc.toNat]?).getD Accum.fresh) = old) (hpoison : old.poison = none)
    (ha : (s.pressOf q).tile w.ta.toNat g.nest = some a) (hb : (s.pressOf q).tile (4 + w.tb.toNat) g.nest = some b)
    (hfa : s.tileFault q w false a = none) (hfb : s.tileFault q w true b = none)
    (hu : s.unionAll old.handle (g.plate :: ((a.fills ++ a.shifts ++ b.fills ++ b.shifts).map (·.plate))) = .ok h) :
    ∃ t tiles, s.pressProduct q g pop w = .inl t ∧ PressEdit s t ∧ t.pressOf q = { s.pressOf q with
      tiles := tiles, tc := listMod (s.pressOf q).tc w.tc.toNat fun _ => { acc := w.product a b old.acc, handle := h, poison := none } } := by
  have hx : s.pressProduct q g pop w = s.pressProduct q g pop w := rfl
  conv at hx => rhs; unfold State.pressProduct
  dsimp only at hx
  rw [hold, ha, hb] at hx
  dsimp only at hx
  rw [State.engineUnion_ok _ hu] at hx
  dsimp only at hx
  rw [hpoison, hfa, hfb] at hx
  dsimp only [Option.isSome_none] at hx
  exact ⟨_, _, hx, rfl, State.pressOf_setPress ..⟩

/-- The drain of an accumulator without poison, at a sound tensor scale and tag (R315). -/
theorem State.pressDrainForm_ok {s : State} {q i : Nat} {g ts : Token} {w : PressWord} {h : Handle} {c : Accum}
    (hc : ((s.pressOf q).tc[w.tc.toNat]?).getD Accum.fresh = c) (hpoison : c.poison = none)
    (hfind : listFind (fun t => t.nest == g.nest) (s.pressOf q).scales 0 = some (i, ts)) (hts : ts.poison = false)
    (hnest : g.nest.toNat % 8 = 0) (hu : s.unionAll c.handle [ts.plate] = .ok h) :
    s.pressDrainForm q g w = .inl (s.setPress q { s.pressOf q with
      scales := listDrop (s.pressOf q).scales i
      tc := listMod (s.pressOf q).tc w.tc.toNat fun _ => { c with handle := h }
      drains := (s.pressOf q).drains ++ [{ del := w.del.toNat, didx := w.didx.toNat, toks := drainTokens g w c ts h none }] }) := by
  unfold State.pressDrainForm
  dsimp only
  rw [hc, hfind]
  dsimp only
  rw [State.engineUnion_ok _ hu]
  dsimp only
  rw [hpoison, hts, if_neg Bool.false_ne_true]
  dsimp only
  rw [if_neg (not_not_intro hnest), ← hpoison]

/-- The product of a drained cell with the two tensor scales, rounded to the output format (R315). -/
theorem drainTokens_getElem? {g ts u : Token} {w : PressWord} {c : Accum} {h : Handle} {m : Nat}
    (hu : (drainTokens g w c ts h none)[m]? = some u) :
    u.nest = g.nest + BitVec.ofNat 48 m ∧ u.plate = h ∧ u.poison = false ∧ u.fmt = fmtOf w.ofmt.toNat ∧
    ∀ l, l < 32 → laneAt (fmtWidth (fmtOf w.ofmt.toNat)) u.pay l =
      roundTo (fmtOf w.ofmt.toNat) (vmul (decodeLane .fp32 ((c.acc[32 * m + l]?).getD 0))
        (decodeLane .fp32 (rne32 (vmul (decodeLane .fp32 (laneAt 32 ts.pay 0)) (decodeLane .fp32 (laneAt 32 ts.pay 1))))))
        .rne 0 (w.sat == 1) % 2 ^ fmtWidth (fmtOf w.ofmt.toNat) := by
  unfold drainTokens at hu
  dsimp only at hu
  rw [List.getElem?_map, Option.map_eq_some_iff] at hu
  obtain ⟨j, hj, rfl⟩ := hu
  obtain rfl : m = j := (List.getElem?_eq_some_iff.1 hj).2 ▸ (List.getElem_range _).symm
  refine ⟨rfl, rfl, rfl, rfl, fun l hl => ?_⟩
  have hw := fmtWidth_le (fmtOf w.ofmt.toNat)
  refine (laneAt_packLanes _ (Nat.mul_le_mul hw hl)).trans ?_
  rw [List.getElem?_map, List.getElem?_range hl, Option.map_some, Option.getD_some]

end Sys2Proof.Machine

namespace Sys2Proof.Machine

/-! ### The operation -/

/-- The state once the go token of an operation has left its FIFO. -/
abbrev State.goTaken (s : State) (i : Nat) : State :=
  s.setPress s.cur { s.pressOf s.cur with go := listDrop (s.pressOf s.cur).go i }

section
variable {s t : State} {pop i : Nat} {w : PressWord} {g : Token}

/-- An operation that enters the array leaves the state of its product and drain, with the array's turn passed on. -/
theorem State.pressOperation_enters {s1 s2 : State} (hpick : (s.pressOf s.cur).pick = some (i, g))
    (hword : ((s.pressOf s.cur).wordOf g).toNat = pressNum pop w) (hready : s.pressReady s.cur = true)
    (hturn : ((s.graftOf s.cur).pressLast && s.graftReady s.cur) = false)
    (hmult : (if pop = 3 then .inl (s.goTaken i) else (s.goTaken i).pressProduct s.cur g pop w) = .inl s1)
    (hdrain : (if pop ≥ 2 then s1.pressDrainForm s.cur g w else .inl s1) = .inl s2) :
    ∃ u, s.pressOperation pop w = .next u ∧ PressEdit s2 u ∧ u.press = s2.press := by
  have hgate : ¬ (((s.pressOf s.cur).wordOf g).toNat ≠ pressNum pop w ∨ (!s.pressReady s.cur) = true ∨
      ((s.graftOf s.cur).pressLast = true ∧ s.graftReady s.cur = true)) := by
    rintro (h | h | ⟨h, h'⟩)
    · exact h hword
    · simp [hready] at h
    · simp [h, h'] at hturn
  unfold State.pressOperation
  dsimp only
  rw [hpick]
  dsimp only
  rw [if_neg hgate, hmult]
  dsimp only
  rw [hdrain]
  dsimp only
  split
  · exact ⟨s2, rfl, rfl, rfl⟩
  · exact ⟨_, rfl, rfl, rfl⟩

theorem exec_pressOp (hpop : pop ≤ 3) (w : PressWord) (s : State) : exec (pressOp pop w) s = s.pressOperation pop w := by
  match pop, hpop with
  | 0, _ => rfl
  | 1, _ => rfl
  | 2, _ => rfl
  | 3, _ => rfl

end

end Sys2Proof.Machine

open Sys2Proof Sys2Proof.Machine in
/-- Settles O41: the product goes into the accumulator, and the drain reads that accumulator; each changes one entry of the
accumulators. -/
theorem pressOperationResults : Obligations.PressOperationResults := by
  unfold Obligations.PressOperationResults
  intro s pop i w g a b h hpop
  dsimp only
  intro hpick hword hready hturn hlen hold htiles
  generalize holdv : (if pop = 0 then Accum.fresh else ((s.pressOf s.cur).tc[w.tc.toNat]?).getD Accum.fresh) = old at *
  have htc : w.tc.toNat < (s.pressOf s.cur).tc.length := by rw [hlen]; exact w.tc.isLt
  have hk0 : (s.goTaken i).pressOf s.cur = { s.pressOf s.cur with go := listDrop (s.pressOf s.cur).go i } :=
    State.pressOf_setPress ..
  generalize hc : (if pop = 3 then old else { acc := w.product a b old.acc, handle := h, poison := none } : Accum) = c at *
  obtain ⟨s1, tiles, tc, hmult, hedit1, hk1, hself, hother⟩ : ∃ t tiles tc,
      (if pop = 3 then .inl (s.goTaken i) else (s.goTaken i).pressProduct s.cur g pop w) = .inl t ∧ PressEdit (s.goTaken i) t ∧
      t.pressOf s.cur = { s.pressOf s.cur with go := listDrop (s.pressOf s.cur).go i, tiles := tiles, tc := tc } ∧
      tc[w.tc.toNat]? = some c ∧ ∀ n, n ≠ w.tc.toNat → tc[n]? = (s.pressOf s.cur).tc[n]? := by
    by_cases hp3 : pop = 3
    · subst hp3
      refine ⟨_, _, _, if_pos rfl, rfl, hk0, ?_, fun _ _ => rfl⟩
      rw [if_neg (by decide), List.getElem?_eq_getElem htc, Option.getD_some] at holdv
      rw [List.getElem?_eq_getElem htc, holdv, ← hc, if_pos rfl]
    · obtain ⟨ha, hb, hfa, hfb, hu⟩ := htiles (by omega)
      obtain ⟨t, tiles, ht, hedit, hk⟩ := State.pressProduct_ok (s := s.goTaken i) (q := s.cur) (pop := pop) (g := g) (w := w)
        (a := a) (b := b) (h := h) (old := old) (by rw [hk0]; exact holdv) hold (by rw [hk0]; exact ha) (by rw [hk0]; exact hb) hfa hfb
        ((State.unionAll_congr (s := s) (t := s.goTaken i) rfl rfl _ _).trans hu)
      rw [hk0] at hk
      rw [if_neg hp3] at hc
      rw [hc] at hk
      exact ⟨t, tiles, _, (if_neg hp3).trans ht, hedit, hk, listMod_set_same c htc, fun n hn => listMod_getElem?_ne _ hn⟩
  have hpoison : c.poison = none := by
    rw [← hc]
    split
    · exact hold
    · rfl
  have hlt : w.tc.toNat < tc.length := (List.getElem?_eq_some_iff.1 hself).1
  rw [exec_pressOp hpop]
  refine ⟨fun hp => ?_, fun j ts h2 hp hfind hts hnest hu2 => ?_⟩
  · obtain ⟨u, hu, hedit, hpress⟩ := State.pressOperation_enters (s2 := s1) hpick hword hready hturn hmult (if_neg (by omega))
    have hku := (congrArg (fun m => (tabGet m s.cur).getD Press.fresh) hpress).trans hk1
    have hfr : PressEdit s u := ((PressEdit.setPress ..).trans hedit1).trans hedit
    exact ⟨u, hu, (congrArg (·.tc[w.tc.toNat]?) hku).trans hself, fun n hn => (congrArg (·.tc[n]?) hku).trans (hother n hn),
      congrArg (·.go) hku, congrArg (·.drains) hku, by rw [hfr], by rw [hfr], by rw [hfr], by rw [hfr]⟩
  · have hfr1 : PressEdit s s1 := (PressEdit.setPress ..).trans hedit1
    have hdrain := State.pressDrainForm_ok (s := s1) (q := s.cur) (i := j) (g := g) (ts := ts) (w := w) (h := h2) (c := c)
      (by rw [hk1]; exact congrArg (·.getD Accum.fresh) hself) hpoison (by rw [hk1]; exact hfind) hts hnest
      ((State.unionAll_congr (s := s) (by rw [hfr1]) (by rw [hfr1]) _ _).trans hu2)
    obtain ⟨u, hu, hedit, hpress⟩ := State.pressOperation_enters hpick hword hready hturn hmult ((if_pos hp).trans hdrain)
    have hku := (congrArg (fun m => (tabGet m s.cur).getD Press.fresh) hpress).trans (State.pressOf_setPress ..)
    rw [hk1] at hku
    have hfr : PressEdit s u := (hfr1.trans (PressEdit.setPress ..)).trans hedit
    exact ⟨u, _, hu, (congrArg (·.tc[w.tc.toNat]?) hku).trans (listMod_set_same _ hlt),
      fun n hn => (congrArg (·.tc[n]?) hku).trans ((listMod_getElem?_ne _ hn).trans (hother n hn)),
      congrArg (·.scales) hku, congrArg (·.drains) hku, rfl, fun m v hv => drainTokens_getElem? hv,
      by rw [hfr], by rw [hfr], by rw [hfr], by rw [hfr]⟩

/-! SUPPORT. The events of the Graft (R321 to R335): its fields after an update, and one equation per event. -/

namespace Sys2Proof.Machine

@[simp] theorem State.graftOf_setBuf (s : State) (pos port cls : Nat) (l : List Flit) (q : Nat) :
    (s.setBuf pos port cls l).graftOf q = s.graftOf q := rfl

@[simp] theorem State.graftOf_setGraft (s : State) (q : Nat) (v : Graft) : (s.setGraft q v).graftOf q = v := by
  rw [State.graftOf, State.setGraft, tabGet_tabPut_same, Option.getD_some]

@[simp] theorem State.graftOf_charge (s : State) (die part issues units q : Nat) :
    (s.charge die part issues units).graftOf q = s.graftOf q := rfl

theorem Graft.vec_tabPut (g : Graft) (v : Nat) (x : StateVec) : ({ g with vecs := tabPut g.vecs v x } : Graft).vec v = x := by
  rw [Graft.vec, tabGet_tabPut_same, Option.getD_some]

/-! ### Tokens -/

section
variable {s : State} {pos port p : Nat} {t : Token} {rest : List Flit}

/-- A token of the descriptor's colour that a port of the serving Graft takes goes to the port's own rule `g`. -/
theorem State.graftPort_takes {isU : Bool} {g : Nat → Nat → Token → State → Option State} {u : State}
    (h : s.TakesAt pos port 1 0 19 [.fp32] (s.graftOf (quireOf pos)).ctx p t rest)
    (hcol : t.colour = ((s.graftOf (quireOf pos)).desc (p / 5)).colour (p % 5)) (hu : (p % 5 == 0) = isU)
    (hg : g (quireOf pos) p t (s.setBuf pos port 0 rest) = some u) : s.graftPort pos port isU g = .next u := by
  obtain ⟨hport, hctx, halive, hsw, hpo, hord, hfmt⟩ := h
  unfold State.graftPort
  rw [hport]
  dsimp only
  rw [if_neg (by simp [hu]), if_neg (by simp [hctx, halive]), if_neg (by simp [hsw]), State.engineForm_sound _ _ _ hpo hord hfmt,
    if_pos (Or.inr hcol), hg]

theorem exec_graftUToken (h : s.TakesAt pos port 1 0 19 [.fp32] (s.graftOf (quireOf pos)).ctx p t rest)
    (hcol : t.colour = ((s.graftOf (quireOf pos)).desc (p / 5)).colour (p % 5)) (hp : p % 5 = 0)
    (hchan : ((s.graftOf (quireOf pos)).desc (p / 5)).chan t < ((s.graftOf (quireOf pos)).desc (p / 5)).nch)
    (hnew : (s.graftOf (quireOf pos)).uTok (p / 5) (((s.graftOf (quireOf pos)).desc (p / 5)).stream t)
      (((s.graftOf (quireOf pos)).desc (p / 5)).chan t) (((s.graftOf (quireOf pos)).desc (p / 5)).step t) = none)
    (hroom : (s.graftOf (quireOf pos)).steps.length < 4096) :
    exec (.graftUToken pos port) s = .next ((s.setBuf pos port 0 rest).setGraft (quireOf pos)
      { s.graftOf (quireOf pos) with steps := (s.graftOf (quireOf pos)).steps ++ [(p / 5, t)] }) := by
  show execGraftUToken pos port s = _
  refine State.graftPort_takes h hcol (by simp [hp]) ?_
  dsimp only
  rw [State.graftOf_setBuf, if_neg (c := _ ∧ _) (by omega), hnew, if_neg (by simp), if_neg (by omega)]

theorem exec_graftSharedToken (h : s.TakesAt pos port 1 0 19 [.fp32] (s.graftOf (quireOf pos)).ctx p t rest)
    (hcol : t.colour = ((s.graftOf (quireOf pos)).desc (p / 5)).colour (p % 5)) (hp : p % 5 ≠ 0)
    (hnew : (s.graftOf (quireOf pos)).sharedTok (p / 5) (((s.graftOf (quireOf pos)).desc (p / 5)).stream t)
      (((s.graftOf (quireOf pos)).desc (p / 5)).step t) (p % 5) = none)
    (hroom : (s.graftOf (quireOf pos)).sharedUsed.length < 256) :
    exec (.graftSharedToken pos port) s = .next ((s.setBuf pos port 0 rest).setGraft (quireOf pos)
      { s.graftOf (quireOf pos) with shared := (s.graftOf (quireOf pos)).shared ++ [(p / 5, p % 5, t)] }) := by
  show execGraftSharedToken pos port s = _
  refine State.graftPort_takes h hcol (by simp [hp]) ?_
  dsimp only
  rw [State.graftOf_setBuf, hnew, if_neg (by simp), if_neg (c := _ ∧ _) (by omega)]

end

/-! ### Reads of the Graft -/

theorem State.unitRead_sram {s : State} {w : Who} {logical : Bool} {a size pa : Nat} {h : Handle}
    (hf : s.sramFit w.part logical a size pa false) :
    ∃ p d, s.unitRead w logical a size h =
      .ok (memRead s.sram pa size, (s.plot (pa / 4096)).handle) { s with plots := p, dies := d } := by
  obtain ⟨p, d, hs⟩ := (SramEdit.refl s).spend (.sram pa) w.part
  exact ⟨p, d, (State.unitReadAt_sram hf).trans (by rw [hs]; rfl)⟩

section
variable {s : State} {q ctx : Nat} {h : Handle}

theorem State.stateIn_reads {i n pa : Nat} {sc : Scan} (hctx : (s.graftOf q).ctx = some ctx)
    (hsc : tabGet (s.graftOf q).scans i = some sc) (hst : sc.st = .stateIn n) (hmay : s.engineMay q ctx = true)
    (hfit : s.sramFit (s.partOf ctx) false ((sc.siva + 4 * n) % 2 ^ 64) 4 pa false)
    {old : StateVec} (hold : (if n % ((s.graftOf q).desc sc.desc).n = 0 then StateVec.fresh
      else (s.graftOf q).vec (sc.svb + n / ((s.graftOf q).desc sc.desc).n)) = old)
    (hu : s.unionAll old.handle [(s.plot (pa / 4096)).handle] = .ok h) :
    ∃ p d, exec (.graftStateInDone q i) s = .next ((State.setVec { s with plots := p, dies := d } q
        (sc.svb + n / ((s.graftOf q).desc sc.desc).n)
        { old with h := listMod old.h (n % ((s.graftOf q).desc sc.desc).n) fun _ => memRead s.sram pa 4, handle := h }).setScan q i
      { sc with st := if n + 1 = ((s.graftOf q).desc sc.desc).n * ((s.graftOf q).desc sc.desc).nch then .steps
                      else .stateIn (n + 1) }) := by
  obtain ⟨p, d, hread⟩ := State.unitRead_sram (w := s.graftWho q ctx i) (size := 4) (h := sc.set) hfit
  refine ⟨p, d, ?_⟩
  show execGraftStateInDone q i s = _
  unfold execGraftStateInDone
  dsimp only
  rw [hctx, hsc]
  dsimp only
  rw [hst]
  dsimp only
  rw [hmay, hread, if_neg (by simp)]
  dsimp only
  rw [show State.graftOf { s with plots := p, dies := d } q = s.graftOf q from rfl, hold,
    State.engineUnion_ok ctx ((State.unionAll_congr (s := s) (t := { s with plots := p, dies := d }) rfl rfl _ _).trans hu)]
  dsimp only
  cases old with
  | mk hv hh hp => cases hp <;> rfl

theorem State.wload_reads {pa : Nat} {l : WLoad} (hctx : (s.graftOf q).ctx = some ctx) (hl : (s.graftOf q).wload = some l)
    (hmay : s.engineMay q ctx = true) (hu : s.unionAll l.gotH [(s.plot (pa / 4096)).handle] = .ok h)
    (hlt : l.got.length < l.nw)
    (hfit : s.sramFit (s.partOf ctx) false ((l.ava + 4 * (l.nw * l.next + l.got.length)) % 2 ^ 64) 4 pa false) :
    ∃ p d, exec (.wloadChannelDone q) s = .next (State.setGraft { s with plots := p, dies := d } q
      { s.graftOf q with wload := some { l with got := l.got ++ [memRead s.sram pa 4], gotH := h } }) := by
  obtain ⟨p, d, hread⟩ := State.unitRead_sram (w := s.graftWho q ctx 8) (size := 4) (h := l.set) hfit
  have hx : exec (.wloadChannelDone q) s = execWloadChannelDone q s := rfl
  unfold execWloadChannelDone at hx
  dsimp only at hx
  rw [hctx, hl] at hx
  dsimp only at hx
  rw [hmay, if_pos hlt, hread, if_neg (by simp)] at hx
  dsimp only at hx
  rw [State.engineUnion_ok ctx ((State.unionAll_congr (s := s) (t := { s with plots := p, dies := d }) rfl rfl _ _).trans hu)] at hx
  dsimp only at hx
  rw [if_pos hlt] at hx
  exact ⟨p, d, hx⟩

/-- The bias word ends its channel: row, bias and handle of the channel are written, and the next channel begins (R328). -/
theorem State.wload_ends {pa : Nat} {l : WLoad} (hctx : (s.graftOf q).ctx = some ctx) (hl : (s.graftOf q).wload = some l)
    (hmay : s.engineMay q ctx = true) (hu : s.unionAll l.gotH [(s.plot (pa / 4096)).handle] = .ok h)
    (hall : l.got.length = l.nw) (hmore : l.next + 1 ≠ l.nch)
    (hfit : s.sramFit (s.partOf ctx) false ((l.dva + 4 * l.next) % 2 ^ 64) 4 pa false) :
    ∃ p d, exec (.wloadChannelDone q) s = .next (State.setGraft { s with plots := p, dies := d } q
      { s.graftOf q with
        a := tabPut (s.graftOf q).a (l.chb + l.next) (l.got ++ List.replicate (64 - l.nw) 0)
        d := tabPut (s.graftOf q).d (l.chb + l.next) (memRead s.sram pa 4)
        wh := tabPut (s.graftOf q).wh (l.chb + l.next) h
        wload := some { l with next := l.next + 1, got := [], gotH := 0 } }) := by
  obtain ⟨p, d, hread⟩ := State.unitRead_sram (w := s.graftWho q ctx 8) (size := 4) (h := l.set) hfit
  have hge : ¬ l.got.length < l.nw := by omega
  have hx : exec (.wloadChannelDone q) s = execWloadChannelDone q s := rfl
  unfold execWloadChannelDone at hx
  dsimp only at hx
  rw [hctx, hl] at hx
  dsimp only at hx
  rw [hmay, if_neg hge, hread, if_neg (by simp)] at hx
  dsimp only at hx
  rw [State.engineUnion_ok ctx ((State.unionAll_congr (s := s) (t := { s with plots := p, dies := d }) rfl rfl _ _).trans hu)] at hx
  dsimp only at hx
  rw [if_neg hge, if_neg hmore] at hx
  exact ⟨p, d, hx⟩

/-! ### Steps -/

theorem firstPoison_none {l : List Token} (h : ∀ t ∈ l, t.poison = false) : firstPoison l = none := by
  rw [firstPoison, List.find?_eq_none.2 (by simpa using h), Option.map_none]

theorem State.stepPlates_ok {wc : Nat} {v : StateVec} {u : Token} {sh : List Token} (hv : v.poison = none)
    (hclean : ∀ t ∈ u :: sh, t.poison = false)
    (hu : s.unionAll v.handle (u.plate :: (sh.map (·.plate)) ++ [(s.graftOf q).wHandle wc]) = .ok h) :
    s.stepPlates q ctx wc v u sh = .inl ({ v with handle := h }, s) := by
  unfold State.stepPlates
  rw [State.engineUnion_ok ctx hu]
  dsimp only
  rw [hv, firstPoison_none hclean]

/-- The Graft after a channel-step with a sound state and sound tokens (R323, R332). -/
abbrev Graft.stepped (g : Graft) (i : Nat) (sc : Scan) (c : Nat) (x : StateVec) (y : Token) : Graft :=
  { g.consume sc c (sc.of c) with
    vecs := tabPut g.vecs (sc.svb + c) x
    scans := tabPut g.scans i { sc with taken := tabPut sc.taken c (sc.of c + 1) }
    yout := g.yout ++ [(i, (g.desc sc.desc).dest, y)]
    sent := tabAdd g.sent (g.desc sc.desc).dest 1 }

theorem State.stepIssue_steps {i c : Nat} {sc : Scan} {u : Token} {sh : List Token} (hctx : (s.graftOf q).ctx = some ctx)
    (hready : (s.graftOf q).readyStep (s.graftOf q).steps = some (i, sc, c, u, sh)) (hmay : s.engineMay q ctx = true)
    (hsw : allSwitched (s.graftOf q).swIn (s.graftOf q).nin = false) (hp : ((s.graftOf q).vec (sc.svb + c)).poison = none)
    (hclean : ∀ t ∈ u :: sh, t.poison = false)
    (hu : s.unionAll ((s.graftOf q).vec (sc.svb + c)).handle (u.plate :: (sh.map (·.plate)) ++
      [(s.graftOf q).wHandle (((s.graftOf q).desc sc.desc).chb + c)]) = .ok h) {hv : List Nat}
    (hhv : stepState ((s.graftOf q).desc sc.desc).n ((s.graftOf q).rowA (((s.graftOf q).desc sc.desc).chb + c))
      ((s.graftOf q).vec (sc.svb + c)).h u sh = hv) :
    ∃ die part units, exec (.graftStepIssue q) s = .next ((s.setGraft q ((s.graftOf q).stepped i sc c
        { h := hv, handle := h, poison := none }
        (yToken ctx u h none (stepY ((s.graftOf q).desc sc.desc).n
          (tabNum (s.graftOf q).d (((s.graftOf q).desc sc.desc).chb + c)) hv u sh)))).charge die part 0 units) := by
  have hx : exec (.graftStepIssue q) s = execGraftStepIssue q s := rfl
  unfold execGraftStepIssue at hx
  dsimp only at hx
  rw [hctx, hready] at hx
  dsimp only at hx
  rw [if_neg (by simp [hmay, hsw]), State.stepPlates_ok hp hclean hu] at hx
  dsimp only at hx
  rw [hp, if_neg (by simp), hhv] at hx
  exact ⟨_, _, _, hx⟩

theorem yToken_lane (ctx : Nat) (u : Token) (h : Handle) (y : Nat) : laneAt 32 (yToken ctx u h none y).pay 0 = y % 2 ^ 32 :=
  laneAt_packLanes [y] (by decide)

end

end Sys2Proof.Machine

open Sys2Proof Sys2Proof.Machine in
/-- Settles O42: each event of the Graft, by the equation of its branch. -/
theorem graftEventResults : Obligations.GraftEventResults := by
  unfold Obligations.GraftEventResults
  refine ⟨fun s pos port p t rest => ?_, fun s q ctx i n pa sc h => ?_, fun s q ctx i c sc u sh h => ?_,
    fun s u q i d t rest hy hsend => ?_, fun s s1 q ctx i k sc => ?_, fun s q ctx i sc => ?_, fun s q ctx pa l h => ?_,
    fun s q ctx => ?_⟩
  · exact fun h hcol => ⟨fun hp hchan hnew hroom => exec_graftUToken h hcol hp hchan hnew hroom,
      fun hp hnew hroom => exec_graftSharedToken h hcol hp hnew hroom⟩
  · intro k ds v old hctx hsc hst hmay hfit hu
    obtain ⟨p, d, hx⟩ := State.stateIn_reads hctx hsc hst hmay hfit rfl hu
    refine ⟨_, hx, rfl, ?_, ?_⟩
    · rw [State.setScan, State.graftOf_setGraft, State.setVec, State.graftOf_setGraft]
      exact Graft.vec_tabPut ..
    · rw [State.setScan, State.graftOf_setGraft]
      exact tabGet_tabPut_same ..
  · intro k ds old hv hctx hready hmay hsw hp hclean hu
    obtain ⟨die, part, units, hx⟩ := State.stepIssue_steps hctx hready hmay hsw hp hclean hu rfl
    have hg := State.graftOf_setGraft s q (k.stepped i sc c { h := hv, handle := h, poison := none }
      (yToken ctx u h none (stepY ds.n (tabNum k.d (ds.chb + c)) hv u sh)))
    refine ⟨_, _, hx, rfl, ?_, congrArg Graft.yout hg,
      rfl, rfl, rfl, yToken_lane .., (congrArg (fun g => tabGet g.scans i) hg).trans (tabGet_tabPut_same ..)⟩
    exact ((congrArg (Graft.vec · (sc.svb + c)) hg).trans (Graft.vec_tabPut ..)).trans (congrArg (StateVec.mk hv h) hp.symm)
  · show execGraftYEmit q s = _
    unfold execGraftYEmit
    dsimp only
    rw [hy]
    dsimp only
    rw [hsend]
  · intro g ds steps shs hctx hsc hmay hsw hturn hnext hchans
    have hx : exec (.graftChunk q i) s = execGraftChunk q i s := rfl
    unfold execGraftChunk at hx
    dsimp only at hx
    rw [hctx, hsc] at hx
    dsimp only at hx
    rw [if_neg (by rcases hturn with h | h <;> simp [g] at * <;> simp [hmay, hsw, h]), hnext] at hx
    dsimp only at hx
    rw [show s.chunkChans q ctx i k _ _ _ = _ from hchans] at hx
    dsimp only at hx
    refine ⟨_, hx, ?_, ?_, ?_, ?_⟩
    all_goals rw [State.graftOf_charge, State.graftOf_setGraft]
    cases hs : tabGet (s1.graftOf q).scans i with
    | none => simp [hs]
    | some x => simp [tabGet_tabPut_same]
  · intro k hctx hsc hmay hst hsw hdone hcmd
    have hx : exec (.graftScanComplete q i) s = execGraftScanComplete q i s := rfl
    unfold execGraftScanComplete at hx
    dsimp only at hx
    rw [hctx, hsc] at hx
    dsimp only at hx
    rw [hst, if_neg (by simp [hmay])] at hx
    dsimp only at hx
    rw [if_pos (Or.inr hdone), hsw] at hx
    rw [hx, if_neg Bool.false_ne_true, State.graftEnd,
      State.cmdDone_here (s := s.setGraft q { k with scans := tabDel k.scans i }) (q := q) hcmd]
    split <;> rfl
  · intro k j hctx hl hmay hu
    refine ⟨fun hlt hfit => ?_, fun hall hmore hfit => ?_⟩
    · obtain ⟨p, d, hx⟩ := State.wload_reads hctx hl hmay hu hlt hfit
      exact ⟨_, hx, congrArg Graft.wload (State.graftOf_setGraft ..), rfl⟩
    · obtain ⟨p, d, hx⟩ := State.wload_ends hctx hl hmay hu hall hmore hfit
      refine ⟨_, hx, ?_, ?_, ?_, congrArg Graft.wload (State.graftOf_setGraft ..), rfl⟩
      all_goals rw [State.graftOf_setGraft]
      · rw [Graft.rowA, tabGet_tabPut_same, Option.getD_some]
      · rw [tabGet_tabPut_same]
      · rw [Graft.wHandle, tabGet_tabPut_same, Option.getD_some]
  · intro k hctx hsw hscans hyout
    have hx : exec (.graftSwitch q) s = execGraftSwitch q s := rfl
    unfold execGraftSwitch at hx
    dsimp only at hx
    rw [hctx] at hx
    dsimp only at hx
    rw [if_neg (by simp [k] at *; simp [hsw, hscans, hyout])] at hx
    obtain ⟨x, y, h1⟩ := s.strandToks_frame ctx q 2 (k.steps.map (·.2))
    obtain ⟨x', y', h2⟩ := (s.strandToks ctx q 2 (k.steps.map (·.2))).strandToks_frame ctx q 2 (k.shared.map fun q => q.2.2)
    refine ⟨_, hx, ?_, ?_, ?_, ?_, ?_⟩
    iterate 4 rw [State.graftOf_setGraft]
    show ((s.strandToks ctx q 2 (k.steps.map (·.2))).strandToks ctx q 2 (k.shared.map fun q => q.2.2)).sram = s.sram
    rw [h2, h1]

/-! SUPPORT. The events of the Riddle (R337 to R345): one equation per event. -/

namespace Sys2Proof.Machine

@[simp] theorem State.riddleOf_setRiddle (s : State) (f : Nat) (v : Riddle) : (s.setRiddle f v).riddleOf f = v := by
  rw [State.riddleOf, State.setRiddle, tabGet_tabPut_same, Option.getD_some]

theorem State.setRiddle_setRiddle (s : State) (f : Nat) (v w : Riddle) : (s.setRiddle f v).setRiddle f w = s.setRiddle f w :=
  congrArg (fun t => { s with riddle := t }) (tabPut_tabPut s.riddle f v w)

theorem State.setRun_runs (s : State) (f i : Nat) (r : Run) : tabGet ((s.setRun f i r).riddleOf f).runs i = some r := by
  rw [State.setRun, State.riddleOf_setRiddle]
  exact tabGet_tabPut_same ..

section
variable {s : State} {f i : Nat} {r : Run}

theorem exec_riddleGoToken {pos port p : Nat} {t : Token} {rest : List Flit}
    (h : s.TakesAt pos port 2 0 31 [.bits] (s.riddleOf (folioOf pos)).ctx p t rest) (hcol : t.colour = 8)
    (hroom : (s.riddleOf (folioOf pos)).go.length < 16) :
    exec (.riddleGoToken pos port) s = .next ((s.setBuf pos port 0 rest).setRiddle (folioOf pos) { s.riddleOf (folioOf pos) with
      go := (s.riddleOf (folioOf pos)).go ++
        [{ desc := p, tok := some t, cmd := none, ctx := t.ctx.toNat, record := bytesOf 32 t.pay.toNat, set := t.plate }] }) := by
  obtain ⟨hport, hctx, halive, hsw, hpo, hord, hfmt⟩ := h
  show execRiddleGoToken pos port s = _
  unfold execRiddleGoToken
  rw [hport]
  dsimp only
  rw [if_neg (by simp [hctx, halive]), if_neg (by simp [hsw]), if_neg (by omega), State.engineForm_sound _ _ _ hpo hord hfmt,
    if_pos (Or.inr hcol)]

theorem exec_riddleRunStart {g : RiddleGo} {rest : List RiddleGo} (hgo : (s.riddleOf f).go = g :: rest)
    (hfree : (List.range 4).find? (fun i => (tabGet (s.riddleOf f).runs i).isNone) = some i) (hmay : s.riddleMay f g.ctx = true)
    (hsw : g.tok = none ∨ allSwitched (s.riddleOf f).swIn (s.riddleOf f).nin = false) :
    exec (.riddleRunStart f) s =
      .next (s.setRiddle f { s.riddleOf f with go := rest, runs := tabPut (s.riddleOf f).runs i g.run }) := by
  show execRiddleRunStart f s = _
  unfold execRiddleRunStart
  dsimp only
  rw [hgo, hfree]
  dsimp only
  rw [if_neg (by rcases hsw with h | h <;> simp [hmay, h])]

/-- Cursor 0 reads the next granule on demand; plots' and dies' counts aside, only the run changes (R342). -/
theorem State.granule_reads {pa va n : Nat} {h : Handle} {y : Bool} (hva : (r.ava + 4 * (r.i + r.abuf.length)) % 2 ^ 64 = va)
    (hn : min ((64 - va % 64) / 4) (r.alen - (r.i + r.abuf.length)) = n) (hr : tabGet (s.riddleOf f).runs i = some r)
    (hfin : r.finished = false) (hmay : s.riddleMay f r.ctx = true) (hneed : r.step ((s.riddleOf f).form r.desc) = .need true y)
    (hmore : r.i + r.abuf.length < r.alen) (hal : va % 4 = 0) (hfit : s.sramFit (s.partOf r.ctx) false va 4 pa false)
    (hu : s.unionAll r.handle [(s.plot (pa / 4096)).handle] = .ok h) :
    ∃ p d, exec (.riddleGranuleReturn f i 0) s = .next (State.setRun { s with plots := p, dies := d } f i
      { r with abuf := r.abuf ++ wordsOf n (memRead s.sram pa (4 * n)), handle := h }) := by
  obtain ⟨p, d, hs⟩ := (SramEdit.refl s).spend (.sram pa) (s.partOf r.ctx)
  have hread : s.unitReadAt (s.riddleWho f r.ctx i 0) false va 4 (4 * n) r.handle =
      .ok (memRead s.sram pa (4 * n), (s.plot (pa / 4096)).handle) { s with plots := p, dies := d } :=
    (State.unitReadAt_sram hfit).trans (by rw [← hs]; rfl)
  have hx : exec (.riddleGranuleReturn f i 0) s = execRiddleGranuleReturn f i 0 s := rfl
  unfold execRiddleGranuleReturn at hx
  dsimp only at hx
  rw [hr] at hx
  simp only [show ((0 : Nat) == 1) = false from rfl, Bool.false_eq_true, if_false, hva, hn, hneed, hfin, false_or, Bool.true_or,
    hmay, Bool.not_true, or_false, ge_iff_le, Nat.not_le.2 hmore, if_pos hal, hread] at hx
  rw [if_neg (by simp), State.engineUnion_ok r.ctx
    ((State.unionAll_congr (s := s) (t := { s with plots := p, dies := d }) rfl rfl _ _).trans hu)] at hx
  dsimp only at hx
  exact ⟨p, d, hx.trans (by rw [hfin])⟩

/-- What a run becomes of the steps that it has taken: the loop's exit and a decreasing stream end it (R341). -/
abbrev Run.after (y : Run × LoopRes) : Run :=
  match y.2 with
  | .exit => { y.1 with finished := true }
  | .order => { y.1 with finished := true, fail := some (0xB0, 0), outp := [], piece := [] }
  | _ => y.1

theorem State.runWrite_nothing (s : State) (w : Who) (hout : r.outp = []) : s.runWrite w r = (r, .ok () s) := by
  unfold State.runWrite
  rw [hout]
  rfl

theorem exec_riddleLoopStep (hr : tabGet (s.riddleOf f).runs i = some r) (hfin : r.finished = false)
    (hmay : s.riddleMay f r.ctx = true) (hout : r.outp = []) (hfull : r.pieceFull = false) (hpick : (s.riddleOf f).pick = some i) :
    exec (.riddleLoopStep f i) s = .next ((s.setRun f i (Run.after (r.steps ((s.riddleOf f).form r.desc) 16))).setRiddle f
      { (s.setRun f i (Run.after (r.steps ((s.riddleOf f).form r.desc) 16))).riddleOf f with turn := i }) := by
  show execRiddleLoopStep f i s = _
  unfold execRiddleLoopStep
  dsimp only
  rw [hr]
  dsimp only
  rw [if_neg (by simp [hfin, hmay]), State.runWrite_nothing _ _ hout]
  dsimp only
  rw [if_neg (not_not_intro hpick), hfull, Bool.false_and, if_neg Bool.false_ne_true] <;>
    (obtain ⟨r', e⟩ := r.steps ((s.riddleOf f).form r.desc) 16; cases e <;> rfl)

/-! ### Results and the switch -/

section
variable (hr : tabGet (s.riddleOf f).runs i = some r) (hfin : r.finished = true) (hmay : s.riddleMay f r.ctx = true)
  (hout : r.outp = []) (hpiece : r.piece = [])
include hr hfin hmay hout hpiece

theorem exec_riddleResult_cmd {q id : Nat} (htok : r.tok = none) (hcmd : r.cmd = some (q, id)) :
    exec (.riddleResult f i) s = .next ((s.setRiddle f { s.riddleOf f with runs := tabDel (s.riddleOf f).runs i }).cmdDone q id
      (match r.fail with | some (c, _) => c | none => 0) r.n) := by
  show execRiddleResult f i s = _
  unfold execRiddleResult
  dsimp only
  rw [hr]
  dsimp only
  rw [if_neg (by simp [hfin, hmay]), if_neg (by simp [hout, hpiece]), htok, hcmd] <;> rfl

theorem exec_riddleResult_tok {t : Token} {u : State} (htok : r.tok = some t)
    (hsend : (s.setRiddle f { s.riddleOf f with
        runs := tabDel (s.riddleOf f).runs i, sent := tabAdd (s.riddleOf f).sent ((s.riddleOf f).dest r.desc) 1 }).engineSend
      (f * 64 + (s.riddleOf f).dest r.desc / 32) r.ctx ((s.riddleOf f).dest r.desc % 32) (s.riddleToken f r t) = some u) :
    exec (.riddleResult f i) s = .next u := by
  show execRiddleResult f i s = _
  unfold execRiddleResult
  dsimp only
  rw [hr]
  dsimp only
  rw [if_neg (by simp [hfin, hmay]), if_neg (by simp [hout, hpiece]), htok]
  dsimp only
  rw [State.setRiddle_setRiddle, State.riddleOf_setRiddle, hsend]

end

end

end Sys2Proof.Machine

open Sys2Proof Sys2Proof.Machine in
/-- Settles O43: each event of the Riddle, by the equation of its branch. -/
theorem riddleEventResults : Obligations.RiddleEventResults := by
  unfold Obligations.RiddleEventResults
  refine ⟨fun s pos port p t rest h hcol hroom => exec_riddleGoToken h hcol hroom,
    fun s f i g rest hgo hfree hmay hsw => exec_riddleRunStart hgo hfree hmay hsw, fun s f i pa r h x y => ?_, fun s f i r => ?_,
    fun s f i r hr hfin hmay hout hpiece => ⟨fun q id htok hcmd => ?_, fun t u htok hsend => ?_⟩, fun s f ctx => ?_⟩
  · intro k va n hr hfin hmay hneed hx hmore hal hfit hu
    subst hx
    obtain ⟨p, d, hnext⟩ := State.granule_reads rfl rfl hr hfin hmay hneed hmore hal hfit hu
    exact ⟨_, hnext, rfl, State.setRun_runs ..⟩
  · intro k y hr hfin hmay hout hfull hpick
    refine ⟨_, exec_riddleLoopStep hr hfin hmay hout hfull hpick, ?_, rfl, ?_⟩
    all_goals rw [State.riddleOf_setRiddle]
    exact State.setRun_runs ..
  · exact exec_riddleResult_cmd hr hfin hmay hout hpiece htok hcmd
  · exact exec_riddleResult_tok hr hfin hmay hout hpiece htok hsend
  · intro k hctx hsw hruns hdescs
    have hx : exec (.riddleSwitch f) s = execRiddleSwitch f s := rfl
    have hdests : (s.riddleOf f).dests = [] := by
      unfold Riddle.dests
      rw [show (s.riddleOf f).descs = [] from hdescs]
      rfl
    obtain ⟨x, y, hst⟩ := s.strandToks_frame ctx (f * 4) 3 (k.go.filterMap (·.tok))
    unfold execRiddleSwitch at hx
    dsimp only at hx
    rw [hctx] at hx
    dsimp only at hx
    rw [if_neg (by simp [k] at *; simp [hsw, hruns]), hdests] at hx
    refine ⟨_, hx, ?_, ?_, ?_⟩
    iterate 2 rw [State.riddleOf_setRiddle]
    show (s.strandToks ctx (f * 4) 3 (k.go.filterMap (·.tok))).sram = s.sram
    rw [hst]

/-! SUPPORT. The Pruner and its commit unit (R346 to R355): one equation per event, and the words of a local result one after
another. -/

namespace Sys2Proof.Machine

theorem State.prunerOf_setPruner (s : State) (d e : Nat) (v : Pruner) :
    (s.setPruner d v).prunerOf e = if e = d then v else s.prunerOf e := by
  rw [State.prunerOf, State.setPruner, tabGet_tabPut]
  split <;> rfl

@[simp] theorem State.prunerOf_setPruner_same (s : State) (d : Nat) (v : Pruner) : (s.setPruner d v).prunerOf d = v := by
  rw [State.prunerOf_setPruner, if_pos rfl]

theorem State.setPruner_setPruner (s : State) (d : Nat) (v w : Pruner) : (s.setPruner d v).setPruner d w = s.setPruner d w :=
  congrArg (fun t => { s with pruner := t }) (tabPut_tabPut s.pruner d v w)

theorem State.modSteps_setPruner (s : State) (d : Nat) (v : Pruner) (g : List PStep → List PStep) :
    (s.setPruner d v).modSteps d g = s.setPruner d { v with steps := g v.steps } := by
  rw [State.modSteps, State.prunerOf_setPruner_same, State.setPruner_setPruner]

theorem listFind_spec {α : Type} {p : α → Bool} {x : α} {i : Nat} : ∀ {l : List α} {n : Nat}, listFind p l n = some (i, x) →
    n ≤ i ∧ l[i - n]? = some x ∧ p x = true
  | y :: r, n, h => by
    unfold listFind at h
    split at h
    next hp =>
      cases h
      exact ⟨Nat.le_refl _, by rw [Nat.sub_self]; rfl, hp⟩
    next =>
      obtain ⟨hn, hx, hp⟩ := listFind_spec h
      exact ⟨by omega, by rw [show i - n = (i - (n + 1)) + 1 by omega]; exact hx, hp⟩

theorem listFind_getElem? {α : Type} {p : α → Bool} {x : α} {i : Nat} {l : List α} (h : listFind p l 0 = some (i, x)) :
    l[i]? = some x ∧ p x = true := (listFind_spec h).2

theorem listMod_listMod {α : Type} (f g : α → α) : ∀ (l : List α) (i : Nat), listMod (listMod l i f) i g = listMod l i (g ∘ f)
  | [], _ => rfl
  | _ :: _, 0 => rfl
  | x :: r, i + 1 => congrArg (x :: ·) (listMod_listMod f g r i)

theorem listDrop_listMod {α : Type} (f : α → α) : ∀ (l : List α) (i : Nat), listDrop (listMod l i f) i = listDrop l i
  | [], _ => rfl
  | _ :: _, 0 => rfl
  | x :: r, i + 1 => congrArg (x :: ·) (listDrop_listMod f r i)

theorem State.steps_listMod {s : State} {d i : Nat} {p : PStep} (h : (s.prunerOf d).steps[i]? = some p) (g : PStep → PStep) :
    ((s.modSteps d fun l => listMod l i g).prunerOf d).steps[i]? = some (g p) := by
  rw [State.modSteps, State.prunerOf_setPruner_same, listMod_getElem?, h]
  rfl

/-! ### Intake -/

section
variable {s : State} {d i pa : Nat} {p : PStep} {h : Handle}

/-- A step that does not take logits any more stays as it is. -/
theorem State.intake_stop (hp : (s.prunerOf d).steps[i]? = some p) (hst : p.st = .final) : ∀ fuel, s.intake d i fuel = s
  | 0 => rfl
  | fuel + 1 => by rw [State.intake, hp]; dsimp only; rw [hst]

/-- The last logit of a step joins its best candidates, and its list is final (R348). -/
theorem State.intake_last {pos size fuel : Nat} (hsize : (if p.bf16 then 2 else 4) = size) (hp : (s.prunerOf d).steps[i]? = some p)
    (hst : p.st = .intake pos) (hlast : pos + 1 = p.v)
    (hfit : s.sramFit (s.partOf p.ctx) false ((fieldOf p.record 0 8 + size * pos) % 2 ^ 64) size pa false)
    (hu : s.unionAll p.handle [(s.plot (pa / 4096)).handle] = .ok h) :
    ∃ t, s.intake d i (fuel + 1) = t ∧ t.sram = s.sram ∧ (t.prunerOf d).steps[i]? = some { p with
      list := mergeCands p.k p.list [((p.ibase + pos) % 2 ^ 32, memRead s.sram pa size,
        if p.bf16 then memRead s.sram pa size * 2 ^ 16 else memRead s.sram pa size)]
      handle := h, st := .final } := by
  obtain ⟨pl, di, hread⟩ := State.unitRead_sram (w := s.prunerWho p.quire p.ctx p.cmd) (size := size) (h := p.set) hfit
  refine ⟨_, rfl, ?_⟩
  rw [State.intake, hp]
  dsimp only
  rw [hst]
  dsimp only
  rw [hsize, hread]
  dsimp only
  rw [State.engineUnion_ok p.ctx ((State.unionAll_congr (s := s) (t := { s with plots := pl, dies := di }) rfl rfl _ _).trans hu)]
  dsimp only
  rw [if_pos hlast]
  have hsteps := State.steps_listMod (s := { s with plots := pl, dies := di }) hp fun _ => { p with
      list := mergeCands p.k p.list [((p.ibase + pos) % 2 ^ 32, memRead s.sram pa size,
        if p.bf16 then memRead s.sram pa size * 2 ^ 16 else memRead s.sram pa size)]
      handle := h, st := .final }
  rw [State.intake_stop hsteps rfl]
  exact ⟨rfl, hsteps⟩

end

/-! ### The words of a result -/

theorem State.setPlace_plot (s : State) (pa : Nat) (h : Handle) :
    (s.setPlace (.sram pa) h).plot (pa / 4096) = { s.plot (pa / 4096) with handle := h } := by
  unfold State.setPlace
  dsimp only
  split
  next heq => rw [← heq]
  next => rw [State.plot_setPlot, if_pos rfl]

theorem State.unitWrite_sram {s : State} {w : Who} {a size pa v : Nat} {h g : Handle}
    (hf : s.sramFit w.part false a size pa true) (hg : s.grown (.sram pa) h = .ok g) :
    ∃ t, s.unitWrite w false a size v h = .ok () t ∧ SramEdit s t (memWrite s.sram pa size v) ∧
      t.plot (pa / 4096) = { s.plot (pa / 4096) with handle := g } :=
  ⟨_, State.unitWriteAt_sram hf hg, SramEdit.written .., State.setPlace_plot ..⟩

/-- Between `s` and `t` the step `i` of a die has come to word `n` of the result `w`: the SRAM has become `m` and the plot `P` has
taken the handle `g`; besides, only plots, dies and the step have changed. -/
structure ResultAt (s : State) (d i : Nat) (w : Winner) (P n : Nat) (g : Handle) (m : Memory) (t : State) : Prop where
  edit : ∃ pl di pr, t = { s with sram := m, plots := pl, dies := di, pruner := pr }
  pruner : t.prunerOf d = { s.prunerOf d with steps := listMod (s.prunerOf d).steps i fun p => { p with st := .writing w n } }
  plot : t.plot P = { s.plot P with handle := g }

section
variable {s t : State} {d i P n : Nat} {w : Winner} {g : Handle} {m : Memory} {p : PStep}

theorem State.writeResult_word {t1 : State} {x : Handle} {fuel : Nat} (hp : (s.prunerOf d).steps[i]? = some p)
    (hst : p.st = .writing w n) (hn : n < (w.words p.mode).length) (hu : s.union p.handle w.handle = .ok x)
    (hw : s.unitWrite (s.prunerWho p.quire p.ctx p.cmd) false ((p.rva + 4 * n) % 2 ^ 64) 4 (((w.words p.mode)[n]?).getD 0) x = .ok () t1) :
    s.writeResult d i (fuel + 1) =
      (t1.modSteps d fun l => listMod l i fun p => { p with st := .writing w (n + 1) }).writeResult d i fuel := by
  rw [State.writeResult, hp]
  dsimp only
  rw [hst]
  dsimp only
  rw [if_neg (Nat.not_le.2 hn), hu]
  dsimp only
  rw [hw]

theorem State.writeResult_end {fuel : Nat} (hp : (s.prunerOf d).steps[i]? = some p) (hst : p.st = .writing w n)
    (hn : (w.words p.mode).length ≤ n) : s.writeResult d i (fuel + 1) = s.stepEnd d i p w.status w.index := by
  rw [State.writeResult, hp]
  dsimp only
  rw [hst]
  dsimp only
  rw [if_pos hn]

/-- The checks of R28 look at no byte, no handle and no step. -/
theorem ResultAt.sramFit (hr : ResultAt s d i w P n g m t) {part a pa : Nat} {modifies : Bool} (hP : pa / 4096 = P)
    (hf : s.sramFit part false a 4 pa modifies) : t.sramFit part false a 4 pa modifies := by
  obtain ⟨hc, ha, hres, hz, he⟩ := hf
  have hplot := hr.plot
  subst hP
  obtain ⟨pl, di, pr, rfl⟩ := hr.edit
  exact ⟨hc, ha, by rw [hplot]; exact hres, by rw [hplot]; exact hz, he⟩

theorem ResultAt.step (hr : ResultAt s d i w P n g m t) (hp : (s.prunerOf d).steps[i]? = some p) {h : Handle} {pa fuel : Nat}
    (hn : n < (w.words p.mode).length) (hw : w.handle = p.handle) (hP : pa / 4096 = P)
    (hf : s.sramFit (s.partOf p.ctx) false ((p.rva + 4 * n) % 2 ^ 64) 4 pa true) (hg : s.union p.handle g = .ok h) :
    ∃ t', t.writeResult d i (fuel + 1) = t'.writeResult d i fuel ∧
      ResultAt s d i w P (n + 1) h (memWrite m pa 4 (((w.words p.mode)[n]?).getD 0)) t' := by
  have hstep : (t.prunerOf d).steps[i]? = some { p with st := .writing w n } := by
    rw [hr.pruner, listMod_getElem?, hp]
    rfl
  have hft := hr.sramFit hP hf
  have hpr := hr.pruner
  have hpl := hr.plot
  obtain ⟨pl, di, pr, ht⟩ := hr.edit
  have hun : ∀ x y, t.union x y = s.union x y := fun x y => by rw [ht]; rfl
  have hgrow : t.grown (.sram pa) p.handle = .ok h := by
    rw [State.grown, hun, State.placeHandle, hP, hpl]
    exact hg
  have hpart : (t.prunerWho p.quire p.ctx p.cmd).part = s.partOf p.ctx := by rw [ht]; rfl
  obtain ⟨t1, hwr, ⟨pl', di', rfl⟩, hplot⟩ := State.unitWrite_sram (w := t.prunerWho p.quire p.ctx p.cmd)
    (v := ((w.words p.mode)[n]?).getD 0) (hpart ▸ hft) hgrow
  refine ⟨_, State.writeResult_word hstep rfl hn (by rw [hw]; exact if_pos (Or.inl rfl)) hwr, ?_, ?_, ?_⟩
  · rw [ht]
    exact ⟨_, _, _, rfl⟩
  · rw [State.modSteps, State.prunerOf_setPruner_same]
    refine (congrArg (fun k : Pruner => { k with
      steps := listMod k.steps i fun p => { p with st := StepSt.writing w (n + 1) } }) hpr).trans ?_
    dsimp only
    rw [listMod_listMod]
    rfl
  · rw [hP, hpl] at hplot
    exact hplot

end

/-! ### A local result -/

theorem winnerOf_handle (p : Bytes) (l : List Cand) (h : Handle) : (winnerOf p l h).handle = h := by
  unfold winnerOf
  dsimp only
  split <;> rfl

/-- The memory with the words of a list written one after another, from an address on. -/
def memWords (m : Memory) (pa : Nat) : List Nat → Memory
  | [] => m
  | v :: l => memWords (memWrite m pa 4 v) (pa + 4) l

theorem memByte_memWords {l : List Nat} {a : Nat} : ∀ {m : Memory} {pa : Nat}, m.wf = true → (a < pa ∨ pa + 4 * l.length ≤ a) →
    memByte (memWords m pa l) a = memByte m a := by
  induction l with
  | nil => exact fun _ _ => rfl
  | cons v l ih =>
    intro m pa hwf ha
    rw [List.length_cons] at ha
    rw [memWords, ih (memWrite_wf _ _ _ hwf) (by omega), memByte_memWrite _ _ _ _ hwf, if_neg (by omega)]

theorem memRead_memWords {l : List Nat} : ∀ {m : Memory} {pa k v : Nat}, m.wf = true → l[k]? = some v →
    memRead (memWords m pa l) (pa + 4 * k) 4 = v % 2 ^ 32 := by
  induction l with
  | nil => exact fun _ h => nomatch h
  | cons x l ih =>
    intro m pa k v hwf hk
    have hwf' := memWrite_wf pa 4 x hwf
    cases k with
    | zero =>
      cases hk
      rw [memWords, memRead_congr (m' := memWrite m pa 4 x) fun j _ hj => memByte_memWords hwf' (Or.inl (by omega))]
      exact memRead_memWrite _ _ _ hwf
    | succ k =>
      rw [memWords, show pa + 4 * (k + 1) = pa + 4 + 4 * k by omega]
      exact ih hwf' hk

/-- The four words of a local result that does not carry its candidates go to RVA, and the step ends (R349). -/
theorem State.writeResult_local {s : State} {d i pa : Nat} {w : Winner} {p : PStep} {h : Handle}
    (hp : (s.prunerOf d).steps[i]? = some p) (hmode : p.mode ≠ 2) (hw : w.handle = p.handle) (hpa : pa % 4096 ≤ 4080)
    (hf : ∀ k, k < 4 → s.sramFit (s.partOf p.ctx) false ((p.rva + 4 * k) % 2 ^ 64) 4 (pa + 4 * k) true)
    (hu : s.union p.handle (s.plot (pa / 4096)).handle = .ok h) (hu' : s.union p.handle h = .ok h) :
    ∃ t, (s.modSteps d fun l => listMod l i fun p => { p with st := .writing w 0 }).writeResult d i 600 = t ∧
      (t.prunerOf d).steps = listDrop (s.prunerOf d).steps i ∧
      t.sram = memWords s.sram pa [w.index, w.bits, w.j, w.status] := by
  have hwords : w.words p.mode = [w.index, w.bits, w.j, w.status] := if_neg hmode
  have h0 : ResultAt s d i w (pa / 4096) 0 (s.plot (pa / 4096)).handle s.sram
      (s.modSteps d fun l => listMod l i fun p => { p with st := .writing w 0 }) :=
    ⟨⟨_, _, _, rfl⟩, State.prunerOf_setPruner_same .., rfl⟩
  obtain ⟨t1, e1, h1⟩ := h0.step (fuel := 599) hp (by simp [hwords]) hw (by omega) (hf 0 (by omega)) hu
  obtain ⟨t2, e2, h2⟩ := h1.step (fuel := 598) hp (by simp [hwords]) hw (by omega) (hf 1 (by omega)) hu'
  obtain ⟨t3, e3, h3⟩ := h2.step (fuel := 597) hp (by simp [hwords]) hw (by omega) (hf 2 (by omega)) hu'
  obtain ⟨t4, e4, h4⟩ := h3.step (fuel := 596) hp (by simp [hwords]) hw (by omega) (hf 3 (by omega)) hu'
  have hstep : (t4.prunerOf d).steps[i]? = some { p with st := .writing w 4 } := by
    rw [h4.pruner, listMod_getElem?, hp]
    rfl
  refine ⟨_, rfl, ?_⟩
  rw [e1, e2, e3, e4, State.writeResult_end (fuel := 595) hstep rfl
    (by rw [show ({ p with st := StepSt.writing w 4 } : PStep).mode = p.mode from rfl, hwords]; simp), State.stepEnd]
  obtain ⟨x, y, hdone⟩ := (t4.modSteps d fun l => listDrop l i).cmdDone_frame p.quire p.cmd w.status w.index
  rw [show State.cmdDone _ _ _ _ _ = _ from hdone]
  refine ⟨?_, ?_⟩
  · refine (congrArg Pruner.steps (State.prunerOf_setPruner_same ..)).trans ?_
    rw [h4.pruner]
    exact listDrop_listMod ..
  · obtain ⟨pl, di, pr, ht⟩ := h4.edit
    rw [ht]
    rw [hwords]
    rfl

/-! ### The events -/

section
variable {s : State} {d i idx gid seq : Nat} {p q : PStep} {src : Nat × Nat} {g : Group} {h : Handle}

theorem exec_prunerStepDispatch (hfind : listFind (fun p => !p.commit && p.st == .queued) (s.prunerOf d).steps 0 = some (i, p))
    (hidle : ∀ q ∈ (s.prunerOf d).steps, q.isIntake = false) (hmay : s.mayIssue p.ctx = true) :
    exec (.prunerStepDispatch d) s = .next (s.setPruner d { s.prunerOf d with
      steps := listMod (s.prunerOf d).steps i fun p => { p with st := .intake 0, handle := p.set } }) := by
  show execPrunerStepDispatch d s = _
  unfold execPrunerStepDispatch
  dsimp only
  rw [hfind]
  dsimp only
  rw [if_neg (by simpa [hmay] using hidle)]
  rfl

theorem exec_prunerListMerge {params : Bytes} {cands : List Cand} (hin : (s.prunerOf d).inbox[idx]? = some (.list gid seq src params cands 0 h))
    (hg : tabGet (s.prunerOf d).groups gid = some g) (hmem : g.members.contains src = true)
    (hwin : g.winners.find? (fun w => w.seq == seq) = none)
    (hnew : (s.prunerOf d).merges.find? (fun m => m.gid == gid && m.seq == seq) = none) (hmore : ∃ x ∈ g.members, x ≠ src) :
    exec (.prunerListMerge d idx) s = .next (s.setPruner d { s.prunerOf d with
      inbox := listDrop (s.prunerOf d).inbox idx
      merges := (s.prunerOf d).merges ++ [{ gid := gid, seq := seq, from' := [src], params := params, list := mergeCands (paramK params) [] cands,
                                            handle := h, code := 0 }] }) := by
  have hkeep : (s.prunerOf d).merges.filter (fun m => !(m.gid == gid && m.seq == seq)) = (s.prunerOf d).merges :=
    List.filter_eq_self.2 fun m hm => by simpa [Decidable.imp_iff_not_or] using List.find?_eq_none.1 hnew m hm
  have hlack : ¬ (g.members.all fun x => ([] ++ [src]).contains x) = true := by simpa using hmore
  have hu : ∀ t : State, t.unionAll 0 [h] = .ok h := fun t => by rw [State.unionAll, union_zero]; rfl
  show execPrunerListMerge d idx s = _
  unfold execPrunerListMerge
  dsimp only
  split
  case h_2 hno => exact (hno _ _ _ _ _ _ hin).elim
  next heq =>
  cases hin.symm.trans heq
  rw [State.inboxDrop, State.prunerOf_setPruner_same, hg]
  dsimp only
  rw [if_neg (by simp only [hmem]; decide), hwin]
  dsimp only
  rw [hnew, Option.getD_none]
  rw [if_neg (by simp), State.engineUnion_ok _ (hu _)]
  dsimp only
  rw [State.prunerOf_setPruner_same, State.setPruner_setPruner, if_neg hlack]
  dsimp only
  rw [hkeep, if_neg (not_not_intro rfl), if_neg (not_not_intro rfl)]
  rfl

theorem exec_prunerWinnerArrival_failed {w : Winner} (hin : (s.prunerOf d).inbox[idx]? = some (.winner gid w)) (hwant : w.want = 0)
    (hcode : w.code ≠ 0)
    (hfind : listFind (fun q => !q.commit && q.grp == gid && q.seq == w.seq && (match q.st with | .sent _ => true | _ => false))
      (s.prunerOf d).steps 0 = some (i, q)) (hmay : s.mayIssue q.ctx = true) :
    exec (.prunerWinnerArrival d idx) s = .next ((s.setPruner d { s.prunerOf d with
      inbox := listDrop (s.prunerOf d).inbox idx, steps := listDrop (s.prunerOf d).steps i }).cmdDone q.quire q.cmd w.code 0) := by
  show execPrunerWinnerArrival d idx s = _
  unfold execPrunerWinnerArrival
  dsimp only
  rw [hin]
  dsimp only
  rw [if_neg (not_not_intro hwant)]
  split
  next hnone => exact absurd (hnone.symm.trans hfind) (by simp)
  next i' q' hsome =>
  cases hsome.symm.trans hfind
  rw [if_neg (by simp [hmay]), if_pos hcode, State.stepEnd, State.inboxDrop, State.modSteps_setPruner]

/-- A leader on this accelerator gets the list into its inbox; the step is noted as sent now (R351, R352). -/
theorem State.sendList_here {e : Nat} {r : List (Nat × Nat)} (hg : tabGet (s.prunerOf d).groups p.grp = some g)
    (hlead : g.members = (s.accel, e) :: r) :
    s.sendList d i p = (s.inboxAdd e (.list p.grp p.seq (s.accel, d) (stepParams p.record) p.list 0 p.handle)).modSteps d
      fun l => listMod l i fun p => { p with st := .sent s.tick } := by
  unfold State.sendList
  rw [hg]
  dsimp only
  rw [hlead, List.headD_cons, State.toMember, if_pos rfl]

theorem exec_prunerResend {tk : Nat} (hp : (s.prunerOf d).steps[idx]? = some p) (hst : p.st = .sent tk)
    (hmay : s.mayIssue p.ctx = true) (hlate : s.cyclesSince d tk ≥ 65536) :
    exec (.prunerResend d idx) s = .next (s.sendList d idx p) := by
  show execPrunerResend d idx s = _
  unfold execPrunerResend
  rw [hp]
  dsimp only
  rw [hst]
  dsimp only
  rw [if_pos ⟨hmay, hlate⟩]

theorem exec_prunerWithdrawal_stray (hin : (s.prunerOf d).inbox[idx]? = some (.withdraw gid seq src))
    (hg : tabGet (s.prunerOf d).groups gid = some g) (hmem : g.members.contains src = false) :
    exec (.prunerWithdrawal d idx) s = .next (s.setPruner d { s.prunerOf d with
      inbox := listDrop (s.prunerOf d).inbox idx
      groups := tabPut (s.prunerOf d).groups gid { g with stray := g.stray + 1 } }) := by
  show execPrunerWithdrawal d idx s = _
  unfold execPrunerWithdrawal
  rw [hin]
  dsimp only
  rw [State.inboxDrop, State.prunerOf_setPruner_same]
  dsimp only
  rw [hg]
  dsimp only
  rw [if_pos (by simp only [hmem]; decide), State.setPruner_setPruner]

theorem exec_commitStart {slot : Nat} (hfind : listFind (·.commit) (s.prunerOf d).steps 0 = some (i, q))
    (hfree : (List.range 64).find? (fun i => (tabGet (s.prunerOf d).commits i).isNone) = some slot) (hmay : s.mayIssue q.ctx = true)
    (hoff : s.commitOn (s.partOf q.ctx) (fieldOf q.record 0 8) = false) :
    exec (.commitStart d) s = .next (s.setPruner d { s.prunerOf d with
      steps := listDrop (s.prunerOf d).steps i, commits := tabPut (s.prunerOf d).commits slot q.commitOf }) := by
  show execCommitStart d s = _
  unfold execCommitStart
  dsimp only
  rw [hfind, hfree]
  dsimp only
  rw [if_neg (by simp [hmay]), show s.commitOn (s.partOf q.ctx) q.commitOf.rq = false from hoff, if_neg Bool.false_ne_true]

theorem exec_commitDeliver_token {s1 : State} {slot : Nat} {c : Commit} (hc : tabGet (s.prunerOf d).commits slot = some c)
    (hmay : s.mayIssue c.ctx = true) (hst : c.st = .delivering) (hq : c.q ≤ accepted c.drafts c.toks) (hstate : c.state = 0)
    (hpos : c.pos ≠ c.maxlen) (hdel : s.deliver (s.homeVf c.ctx) c.dq c.token = .ok s1) :
    exec (.commitDeliver d slot) s = .next (s1.setCommit d slot { c with
      pos := c.pos + 1, delivered := c.delivered + 1, q := c.q + 1
      state := if c.stopid ≠ 2 ^ 32 - 1 ∧ c.toks[c.q]? = some c.stopid then 1 else 0 }) := by
  have htok : s.commitToken d slot c = s1.setCommit d slot { c with
      pos := c.pos + 1, delivered := c.delivered + 1, q := c.q + 1
      state := if c.stopid ≠ 2 ^ 32 - 1 ∧ c.toks[c.q]? = some c.stopid then 1 else 0 } := by
    unfold State.commitToken
    rw [if_neg (by omega), if_neg hpos]
    dsimp only
    rw [hdel]
  rw [← htok]
  show execCommitDeliver d slot s = _
  unfold execCommitDeliver
  rw [hc]
  dsimp only
  rw [if_neg (by simp [hmay]), hst]

end

end Sys2Proof.Machine

open Sys2Proof Sys2Proof.Machine in
/-- Settles O44: each event of the Pruner and of the commit unit, by the equation of its branch; the words of a local result are
followed one by one. -/
theorem prunerEventResults : Obligations.PrunerEventResults := by
  unfold Obligations.PrunerEventResults
  refine ⟨fun s d i p hfind hidle hmay => exec_prunerStepDispatch hfind hidle hmay, fun s d i pos pa p h => ?_,
    fun s d i pa p h => ?_, fun s d idx gid seq src params cands h g hin hg hmem hwin hnew hmore =>
      exec_prunerListMerge hin hg hmem hwin hnew hmore,
    fun s d idx gid i w q hin hwant hcode hfind hmay => exec_prunerWinnerArrival_failed hin hwant hcode hfind hmay,
    fun s d idx tk e p g r hp hst hmay hlate hg hlead => ?_,
    fun s d idx gid seq src g hin hg hmem => exec_prunerWithdrawal_stray hin hg hmem,
    fun s d i slot q hfind hfree hmay hoff => exec_commitStart hfind hfree hmay hoff,
    fun s s1 d slot c hc hmay hst hq hstate hpos hdel => ⟨_, exec_commitDeliver_token hc hmay hst hq hstate hpos hdel, ?_⟩⟩
  · intro size v hfind hmay hst hlast hfit hu
    obtain ⟨t, ht, hres⟩ := State.intake_last (fuel := 31) rfl (listFind_getElem? hfind).1 hst hlast hfit hu
    refine ⟨t, ?_, hres⟩
    show execPrunerIntake d s = _
    unfold execPrunerIntake
    rw [hfind]
    dsimp only
    rw [if_pos hmay, ht]
  · intro w hfind hmay hst hgrp hmode hwf hpa hfit hu hu'
    obtain ⟨t, ht, hsteps, hsram⟩ := State.writeResult_local (w := w) (listFind_getElem? hfind).1 hmode (winnerOf_handle ..) hpa hfit hu hu'
    have hword : ∀ {k v : Nat}, [w.index, w.bits, w.j, w.status][k]? = some v → memRead t.sram (pa + 4 * k) 4 = v % 2 ^ 32 := by
      intro k v hk
      rw [hsram]
      exact memRead_memWords hwf hk
    refine ⟨t, ?_, hsteps, hword (k := 0) rfl, hword (k := 1) rfl, hword (k := 2) rfl, hword (k := 3) rfl, fun a ha => ?_⟩
    · show execPrunerListFinal d s = _
      unfold execPrunerListFinal
      rw [hfind]
      dsimp only
      rw [if_neg (by simp [hmay]), hst]
      dsimp only
      rw [if_neg (not_not_intro hgrp), ht]
    · rw [hsram]
      exact memByte_memWords hwf ha
  · refine ⟨_, (exec_prunerResend hp hst hmay hlate).trans (congrArg _ (State.sendList_here hg hlead)), ?_, ?_⟩
    · rw [State.modSteps, State.prunerOf_setPruner]
      split
      next heq =>
        subst heq
        rw [State.inboxAdd, State.prunerOf_setPruner_same]
      next => rw [State.inboxAdd, State.prunerOf_setPruner_same]
    · refine State.steps_listMod (p := p) ?_ _
      rw [State.inboxAdd, State.prunerOf_setPruner]
      split
      next heq => exact heq ▸ hp
      next => exact hp
  · rw [State.setCommit, State.prunerOf_setPruner_same]
    exact tabGet_tabPut_same ..

/-! SUPPORT. The union unit, sweeps, policies and event queues (R79, R87 to R93, R98 to R100, R417). -/

namespace Sys2Proof.Machine

/-! ### Free numbers -/

theorem tabGet_none_of_below {α : Type} {k : Nat} : ∀ {t : Tab α}, (∀ x ∈ t, k < x.1) → tabGet t k = none
  | [], _ => rfl
  | (i, v) :: r, h => by
    have hi := h (i, v) (by simp)
    rw [tabGet, if_neg (by omega), if_pos hi]

/-- In a table with rising keys `freeFrom` finds the lowest free number. -/
theorem freeFrom_lowest {α : Type} : ∀ {t : Tab α}, t.Pairwise (fun a b => a.1 < b.1) → ∀ k,
    k ≤ freeFrom t k ∧ tabGet t (freeFrom t k) = none ∧ ∀ j, k ≤ j → j < freeFrom t k → tabGet t j ≠ none
  | [], _, k => ⟨Nat.le_refl _, rfl, fun j h1 h2 => absurd h2 (Nat.not_lt.2 h1)⟩
  | (i, v) :: r, hs, k => by
    obtain ⟨hi, hr⟩ := List.pairwise_cons.1 hs
    have habove : ∀ j, i < j → tabGet ((i, v) :: r) j = tabGet r j := fun j hj => by
      rw [tabGet, if_neg (by omega), if_neg (by omega)]
    rw [freeFrom]
    split
    next hlt =>
      obtain ⟨h1, h2, h3⟩ := freeFrom_lowest hr k
      refine ⟨h1, by rw [habove _ (by omega)]; exact h2, fun j hj hj' => ?_⟩
      rw [habove _ (by omega)]
      exact h3 j hj hj'
    next hge =>
      split
      next heq =>
        subst heq
        obtain ⟨h1, h2, h3⟩ := freeFrom_lowest hr (i + 1)
        refine ⟨by omega, by rw [habove _ (by omega)]; exact h2, fun j hj hj' => ?_⟩
        by_cases hij : i = j
        · rw [tabGet, if_pos hij]
          simp
        · rw [habove _ (by omega)]
          exact h3 j (by omega) hj'
      next hne =>
        refine ⟨Nat.le_refl _, tabGet_none_of_below fun x hx => ?_, fun j h1 h2 => absurd h2 (Nat.not_lt.2 h1)⟩
        rcases List.mem_cons.1 hx with rfl | hx
        · exact show k < i by omega
        · have := hi x hx
          dsimp only at this
          omega

theorem State.freeHandle_some {s : State} {h : Nat} (hf : s.freeHandle = some h) : freeFrom s.sets 0x200 = h ∧ h < 0x1000 := by
  unfold State.freeHandle at hf
  dsimp only at hf
  split at hf
  next hlt =>
    cases hf
    exact ⟨rfl, hlt⟩
  next => cases hf

/-! ### The union unit -/

section
variable {s : State} {idx : Nat} {u : UnionReq}

theorem exec_plateUnionSpine_takes {h : Nat} (hu : s.unions[idx]? = some u) (hw : u.waiting = false) (hf : u.failed = false)
    (hnew : handleIn s.sets u.plates = none) (hfree : s.freeHandle = some h) (hnone : s.waitingUnions = 0) :
    exec (.plateUnionSpine idx) s = .next { s with
      unions := listDrop s.unions idx, sets := tabPut s.sets h { plates := u.plates, mark := s.sweep.isSome } } := by
  show execPlateUnionSpine idx s = _
  unfold execPlateUnionSpine
  rw [hu]
  dsimp only
  rw [if_neg (by simp [hw, hf]), hnew, if_neg (by simp), hfree]
  dsimp only
  rw [if_pos hnone]
  rfl

theorem exec_plateUnionSpine_waits (hu : s.unions[idx]? = some u) (hw : u.waiting = false) (hf : u.failed = false)
    (hnew : handleIn s.sets u.plates = none) (hfree : s.freeHandle = none) (hroom : s.waitingUnions < 256) :
    exec (.plateUnionSpine idx) s = .next { s with
      unions := listDrop s.unions idx ++ [{ u with waiting := true }]
      plateOut := s.plateOut ++ [{ part := u.part, ctx := u.ctx, code := 0x41, ha := u.ha, hb := u.hb, used := s.waitingUnions + 1 }] } := by
  show execPlateUnionSpine idx s = _
  unfold execPlateUnionSpine
  rw [hu]
  dsimp only
  rw [if_neg (by simp [hw, hf]), hnew, if_neg (by simp), hfree]
  dsimp only
  rw [if_neg (by omega)]

theorem exec_plateUnionWaitServed {i h : Nat}
    (hfind : listFind (fun u : UnionReq => u.waiting && !u.failed) s.unions 0 = some (i, u)) (hfree : s.freeHandle = some h)
    (hnew : handleIn s.sets u.plates = none) : exec .plateUnionWaitServed s = .next { s with
      unions := listDrop s.unions i, sets := tabPut s.sets h { plates := u.plates, mark := s.sweep.isSome } } := by
  show execPlateUnionWaitServed s = _
  unfold execPlateUnionWaitServed
  rw [hfind, hfree]
  dsimp only
  rw [hnew, if_neg (by simp)]
  rfl

end

/-! ### Fields written back into a record -/

section
variable {s : State}

/-- The growth of regions reads the sets, the unions at the Spine and the regions' sets. -/
theorem State.regionGrow_congr {t : State} (hsets : t.sets = s.sets) (hun : t.unions = s.unions) (hreg : t.ctlRegion = s.ctlRegion)
    (q : Nat) (h : Handle) (l : List Nat) : t.regionGrow q h l = s.regionGrow q h l := by
  have hu : ∀ x y, t.union x y = s.union x y := fun x y => by unfold State.union State.setOf; rw [hsets, hun]
  induction l with
  | nil => rfl
  | cons x l ih =>
    rw [State.regionGrow, State.regionGrow, ih, hu, show t.regionSet q x = s.regionSet q x by unfold State.regionSet; rw [hreg]]

/-- The bytes of control memory after fields have been written at their offsets. -/
def fieldsWritten (m : Memory) (a : Nat) (l : List (Nat × Nat × Nat)) : Memory :=
  l.foldl (fun m f => memWrite m (a + f.1) f.2.1 f.2.2) m

theorem State.ctlFields_ctl (q a : Nat) (l : List (Nat × Nat × Nat)) (s : State) :
    (s.ctlFields q a l).ctl = fieldsWritten s.ctl (q * 65536 + a) l := by
  induction l generalizing s with
  | nil => rfl
  | cons f l ih =>
    obtain ⟨o, n, v⟩ := f
    obtain ⟨e, he⟩ := State.writeErrs_frame ({ s with ctl := memWrite s.ctl (q * 65536 + a + o) n v } : State) .control
      (q * 65536 + a + o) n
    rw [State.ctlFields, ih, he]
    rfl

theorem memRead_memWrite_apart {m : Memory} {a n b k : Nat} (v : Nat) (hwf : m.wf = true) (h : b + k ≤ a ∨ a + n ≤ b) :
    memRead (memWrite m a n v) b k = memRead m b k :=
  memRead_congr fun j hj hj' => by rw [memByte_memWrite _ _ _ _ hwf, if_neg (by omega)]

theorem State.setRegions_frame (q : Nat) (g : List (Nat × Handle)) (s : State) :
    ∃ r, g.foldl (fun s x => s.setRegion q x.1 x.2) s = { s with ctlRegion := r } := by
  induction g generalizing s with
  | nil => exact ⟨s.ctlRegion, rfl⟩
  | cons x g ih =>
    obtain ⟨r, h⟩ := ih (s.setRegion q x.1 x.2)
    exact ⟨r, h⟩

theorem State.ctlBack_fields {q ctx a n : Nat} {h : Handle} {l : List (Nat × Nat × Nat)} {g : List (Nat × Handle)} (he : s.errs = [])
    (hg : s.regionGrow q h (ctlRegions a n) = .inl (some g)) :
    ∃ r, s.ctlBack q ctx a n h l = .ok () { s with ctl := fieldsWritten s.ctl (q * 65536 + a) l, ctlRegion := r } := by
  obtain ⟨r0, h0⟩ := State.setRegions_frame q g s
  obtain ⟨m, r, hf⟩ := State.ctlFields_edit q a l { s with ctlRegion := r0 } he
  have hm : m = fieldsWritten s.ctl (q * 65536 + a) l := by
    rw [← State.ctlFields_ctl q a l { s with ctlRegion := r0 }, hf]
  refine ⟨r, ?_⟩
  unfold State.ctlBack
  rw [hg]
  dsimp only
  rw [if_neg (by simp [State.partUnc_none he]), h0, hf, hm]

/-! ### Sweeps -/

/-- The four fields of a sweep's record, as they stand once all are written (R93). -/
theorem memRead_sweepFields {m : Memory} (hwf : m.wf = true) (a flags status cand freed : Nat) :
    let m' := fieldsWritten m a (sweepFields flags status cand freed)
    memRead m' (a + 16) 4 = freed % 2 ^ 32 ∧ memRead m' (a + 20) 4 = cand % 2 ^ 32 ∧ memRead m' (a + 26) 2 = status % 2 ^ 16 ∧
      memRead m' (a + 28) 1 % 2 = 1 := by
  have h1 := memWrite_wf (a + 26) 2 status hwf
  have h2 := memWrite_wf (a + 20) 4 cand h1
  have h3 := memWrite_wf (a + 16) 4 freed h2
  simp only [fieldsWritten, sweepFields, List.foldl_cons, List.foldl_nil]
  refine ⟨?_, ?_, ?_, ?_⟩
  · rw [memRead_memWrite_apart _ h3 (by omega), memRead_memWrite _ _ _ h2] <;> rfl
  · rw [memRead_memWrite_apart _ h3 (by omega), memRead_memWrite_apart _ h2 (by omega), memRead_memWrite _ _ _ h1] <;> rfl
  · rw [memRead_memWrite_apart _ h3 (by omega), memRead_memWrite_apart _ h2 (by omega), memRead_memWrite_apart _ h1 (by omega),
      memRead_memWrite _ _ _ hwf] <;> rfl
  · rw [memRead_memWrite _ _ _ h3]
    omega

/-- A sweep that nothing waits for writes its record and completes (R93). -/
theorem State.sweepDone_ok {q ctx status cand freed : Nat} {c : Cmd} {g : List (Nat × Handle)} (hctx : (s.qcc q).ctx = some ctx)
    (he : s.errs = []) (hg : s.regionGrow q c.set (ctlRegions c.xs.toNat 32) = .inl (some g))
    (hc : ∃ o ∈ (s.qcc q).cmds, o.id = c.id) :
    ∃ r, s.sweepDone q c status cand freed = some (State.setQcc { s with
      ctl := fieldsWritten s.ctl (q * 65536 + c.xs.toNat) (sweepFields (fieldOf c.record 28 1) status cand freed)
      ctlRegion := r } q ((s.qcc q).ended c.id status freed)) := by
  obtain ⟨r, hr⟩ := State.ctlBack_fields (ctx := ctx) (l := sweepFields (fieldOf c.record 28 1) status cand freed) he hg
  refine ⟨r, ?_⟩
  unfold State.sweepDone
  rw [hctx]
  dsimp only
  rw [hr]
  dsimp only
  rw [State.cmdDone_here (s := { s with ctl := _, ctlRegion := r }) hc]
  rfl

theorem Qcc.ended_cmd {k : Qcc} {id st l : Nat} (h : ∃ c ∈ k.cmds, c.id = id) :
    ∃ o ∈ (k.ended id st l).cmds, o.id = id ∧ o.st = .done st (l % 2 ^ 32) := by
  obtain ⟨c, hc, hid⟩ := h
  refine ⟨c.ended id st l, List.mem_map_of_mem hc, ?_, ?_⟩
  · unfold Cmd.ended
    split <;> exact hid
  · unfold Cmd.ended
    rw [if_pos hid]

/-! ### Policies and event queues -/

theorem State.eventIn_none {s : State} {vf : Nat} (h : s.eventsOut = []) : s.eventIn vf = s := by
  rw [State.eventIn, h]
  rfl

@[simp] theorem State.vf_setVf (s : State) (n : Nat) (v : Vf) : (s.setVf n v).vf n = v := by
  rw [State.vf, State.setVf, tabGet_tabPut_same, Option.getD_some]

theorem State.event_frame (s : State) (vf : Nat) (e : EventRec) : ∃ v o, s.event vf e = { s with vfs := v, eventsOut := o } := by
  unfold State.event
  dsimp only
  split
  · exact ⟨_, s.eventsOut, rfl⟩
  · split
    · exact ⟨_, s.eventsOut, rfl⟩
    · exact ⟨s.vfs, _, rfl⟩

theorem State.eventPlates_frame (r : BitVec 256) : ∀ (l : List Nat) (s : State),
    ∃ v o, s.eventPlates r l = { s with vfs := v, eventsOut := o }
  | [], s => ⟨s.vfs, s.eventsOut, rfl⟩
  | n :: l, s => by
    rw [State.eventPlates]
    split
    next p _ =>
      obtain ⟨v, o, h⟩ := s.event_frame p.evf { record := r, plate := n }
      obtain ⟨v', o', h'⟩ := State.eventPlates_frame r l (s.event p.evf { record := r, plate := n })
      exact ⟨v', o', h'.trans (by rw [h])⟩
    next => exact State.eventPlates_frame r l s

section
variable {w : Submission} {b : Bytes} {pl : List Nat}

theorem State.install_refused (hb : w.bytes = b) {st : Nat} (hst : s.bodyStatus b w.length = st) (hne : st ≠ 0) :
    s.install w = ({ s with submissions := s.submissions.drop 1 } : State).cmdDone w.cmd.1 w.cmd.2 st 0 := by
  unfold State.install
  dsimp only
  rw [hb, hst, if_pos hne]

theorem State.install_badSig {i : Nat} (hst : s.bodyStatus w.bytes w.length = 0)
    (hsig : s.badSig w.bytes 0 (((policyPlates w.bytes).take (fieldOf w.bytes 0x20 1)).map (·.1)) = some i) :
    s.install w = ({ s with submissions := s.submissions.drop 1 } : State).cmdDone w.cmd.1 w.cmd.2 4 i := by
  unfold State.install
  dsimp only
  rw [hst, if_neg (not_not_intro rfl), hsig]

theorem State.install_slot {h : Handle} (hst : s.bodyStatus w.bytes w.length = 0)
    (hsig : s.badSig w.bytes 0 (((policyPlates w.bytes).take (fieldOf w.bytes 0x20 1)).map (·.1)) = none)
    (hkind : fieldOf w.bytes 0x21 1 ≠ 2) (hslot : freeFrom s.policies 0 < 256)
    (hh : s.handleOf (((policyPlates w.bytes).take (fieldOf w.bytes 0x20 1)).map (·.1)) = some h) :
    ∃ v o, s.install w = ({ s with
      policies := tabPut s.policies (freeFrom s.policies 0)
        { handle := h, dest := fieldOf w.bytes 0x24 4, limkind := fieldOf w.bytes 0x21 1, limit := fieldOf w.bytes 0x28 8 }
      plates := s.plates.map fun p => (p.1,
        if (((policyPlates w.bytes).take (fieldOf w.bytes 0x20 1)).map (·.1)).contains p.1 then { p.2 with pctr := p.2.pctr + 1 } else p.2)
      vfs := v, eventsOut := o, submissions := s.submissions.drop 1 } : State).cmdDone w.cmd.1 w.cmd.2 0 (freeFrom s.policies 0) := by
  have hx : s.install w = s.install w := rfl
  conv at hx => rhs; unfold State.install
  dsimp only at hx
  rw [hst, if_neg (not_not_intro rfl), hsig] at hx
  dsimp only at hx
  rw [if_neg hkind, if_neg (by omega), hh] at hx
  dsimp only at hx
  obtain ⟨v, o, hev⟩ := State.eventPlates_frame (plateEvent 2 (freeFrom s.policies 0) h (fieldOf w.bytes 0x24 4) 1 0)
    (((policyPlates w.bytes).take (fieldOf w.bytes 0x20 1)).map (·.1)) (State.advance { s with
      policies := tabPut s.policies (freeFrom s.policies 0)
        { handle := h, dest := fieldOf w.bytes 0x24 4, limkind := fieldOf w.bytes 0x21 1, limit := fieldOf w.bytes 0x28 8 } }
      (((policyPlates w.bytes).take (fieldOf w.bytes 0x20 1)).map (·.1)))
  rw [hev] at hx
  exact ⟨v, o, hx⟩

end

end

end Sys2Proof.Machine

open Sys2Proof Sys2Proof.Machine in
/-- Settles O45: each unit by the equation of its branch; the free number is the lowest, and the sweep's record is read back field by
field. -/
theorem plateAndEventQueueResults : Obligations.PlateAndEventQueueResults := by
  unfold Obligations.PlateAndEventQueueResults
  refine ⟨fun s idx u hu hw hf hnew => ⟨fun h hfree hnone => ⟨exec_plateUnionSpine_takes hu hw hf hnew hfree hnone, fun hs => ?_⟩,
      fun hfree hroom => ⟨_, exec_plateUnionSpine_waits hu hw hf hnew hfree hroom, rfl, rfl, rfl, rfl, rfl⟩⟩,
    fun s i h u hfind hfree hnew => exec_plateUnionWaitServed hfind hfree hnew, fun s w c ctx g hsweep => ?_,
    fun s w r hsub => ⟨fun hst => ?_, fun h hst hkind hslot hh hc => ?_⟩, fun s vf e r => ?_⟩
  · obtain ⟨rfl, hlt⟩ := State.freeHandle_some hfree
    obtain ⟨h1, h2, h3⟩ := freeFrom_lowest hs 0x200
    exact ⟨h1, hlt, h2, h3⟩
  · intro q a marked freed hfind hctx he hwf hun hg
    have hx : exec .sweepMarkPassDone s = execSweepMarkPassDone s := rfl
    unfold execSweepMarkPassDone at hx
    rw [hsweep] at hx
    dsimp only at hx
    have hun' : ∀ p : Prop, [Decidable p] → (if p then s.unions.map fun u => if u.waiting then { u with failed := true } else u
        else s.unions) = s.unions := fun p _ => by rw [hun]; exact ite_self _
    have hc : ∃ o ∈ (s.qcc q).cmds, o.id = c.id := ⟨c, List.mem_of_find?_eq_some hfind, rfl⟩
    obtain ⟨x, hdone⟩ := State.sweepDone_ok (s := { s with sweep := none, sets := marked.filter fun p => !freed.contains p.1 }) (q := q)
      (ctx := ctx) (status := 0) (cand := w.cands.length) (freed := freed.length) hctx he
      (c := c) (g := g) ((State.regionGrow_congr (s := { s with sets := marked.filter fun p => !freed.contains p.1 })
        (t := { s with sweep := none, sets := marked.filter fun p => !freed.contains p.1 }) rfl rfl rfl _ _ _).trans hg) hc
    rw [show (s.qcc w.cmd.1).cmd? w.cmd.2 = some c from hfind, hun'] at hx
    dsimp only at hx
    rw [show State.sweepDone _ _ _ _ _ _ = _ from hdone] at hx
    dsimp only at hx
    obtain ⟨h16, h20, h26, h28⟩ := memRead_sweepFields hwf a (fieldOf c.record 28 1) 0 w.cands.length freed.length
    refine ⟨_, hx, rfl, rfl, h16, h20, h26, h28, rfl, rfl, ?_⟩
    rw [State.qcc_setQcc, if_pos rfl]
    exact Qcc.ended_cmd hc
  · show execPolicyCheckDone s = _
    unfold execPolicyCheckDone
    rw [hsub]
    dsimp only
    rw [State.install_refused rfl rfl hst, hsub]
    rfl
  · have hx : exec .policyCheckDone s = .next (s.install w) := by
      show execPolicyCheckDone s = _
      unfold execPolicyCheckDone
      rw [hsub]
    have hdrop : s.submissions.drop 1 = r := by rw [hsub]; rfl
    cases hsig : s.badSig w.bytes 0 (((policyPlates w.bytes).take (fieldOf w.bytes 0x20 1)).map (·.1)) with
    | some i =>
      have hinst := State.install_badSig hst hsig
      rw [hdrop, State.cmdDone_here (s := { s with submissions := r }) hc] at hinst
      refine ⟨_, hx.trans (congrArg _ hinst), rfl, rfl, rfl, rfl, fun j hj => ?_, fun hj => ?_⟩
      · cases hj
        refine ⟨rfl, rfl, ?_⟩
        rw [State.qcc_setQcc, if_pos rfl]
        exact Qcc.ended_cmd hc
      · cases hj
    | none =>
      obtain ⟨v, o, hinst⟩ := State.install_slot hst hsig hkind hslot hh
      rw [hdrop, State.cmdDone_here (s := { s with
        policies := _, plates := _, vfs := v, eventsOut := o, submissions := r }) hc] at hinst
      refine ⟨_, hx.trans (congrArg _ hinst), rfl, rfl, rfl, rfl, fun j hj => ?_, fun hj => ⟨?_, rfl, ?_⟩⟩
      · cases hj
      · exact tabGet_tabPut_same ..
      · rw [State.qcc_setQcc, if_pos rfl]
        exact Qcc.ended_cmd hc
  · intro v c hev hen hfull hout
    have hx : exec (.eventRecordWrite vf) s = execEventRecordWrite vf s := rfl
    unfold execEventRecordWrite at hx
    dsimp only at hx
    rw [hev] at hx
    dsimp only at hx
    rw [if_neg (by simp [v, c] at *; simp [hen, hfull])] at hx
    rw [State.eventIn_none (by exact hout)] at hx
    refine ⟨_, hx, State.vf_setVf .., ?_⟩
    rw [State.ringWrite, bytesOf_length]
    rfl

/-! SUPPORT. Launches from their window to placement (R357 to R365). -/

namespace Sys2Proof.Machine

section
variable {s : State}

/-! ### Entering a channel -/

theorem Launch.stamped_prio (l : Launch) (clamp : Nat) (h : fieldOf l.bytes 1 1 ≤ 7) :
    (l.stamped clamp).prio = min (fieldOf l.bytes 1 1) clamp := if_neg (by omega)

theorem State.enterChannel_part {l : Launch} {x : Partn} (h : s.part? l.part = some x) (clamp : Nat) :
    s.enterChannel l clamp = s.setPart l.part { x with launches := x.launches ++ [l.stamped clamp] } :=
  State.modPart_some h _

theorem State.launchCredit_some {p : Nat} {x : Partn} (h : s.part? p = some x) : s.launchCredit (some p) = 256 - x.launches.length := by
  unfold State.launchCredit
  dsimp only
  rw [h]

/-- The record of a write to a function's launch window. -/
abbrev windowLaunch (s : State) (vf p : Nat) (data : Bytes) : Launch :=
  { bytes := data, part := p, parent := none, homevf := vf, prio := 0, plate := s.ingress (destVf vf), hyp := vf == pfNum,
    elemAcc := none, cmd := none, ctx := 0, resume := false, got := [], image := none, dies := none }

section
variable {vf off p : Nat} {data : Bytes} (hvf : vf < 384 ∨ vf = pfNum) (hoff : off < 4096)
  (hreq : ∀ r ∈ s.hostReqs, r.vf ≠ vf ∨ r.write = false)
include hvf hoff hreq

theorem State.window_open : ¬ ((!(decide (vf < 384) || vf == pfNum)) = true ∨ off ≥ 4096 ∨
    s.hostReqs.any (fun r => r.vf == vf && r.write) = true) := by
  rintro (h | h | h)
  · rcases hvf with h' | h' <;> simp [h'] at h
  · omega
  · obtain ⟨r, hr, h⟩ := List.any_eq_true.1 h
    rcases hreq r hr with h' | h' <;> simp [h'] at h

theorem exec_launchWindowWrite_shape (hbad : data.length ≠ 64 ∨ off % 64 ≠ 0) :
    exec (.launchWindowWrite vf off data) s = .next (s.vfCount vf 39 32 0) := by
  show execLaunchWindowWrite vf off data s = _
  unfold execLaunchWindowWrite
  dsimp only
  rw [if_neg (State.window_open hvf hoff hreq), if_pos hbad]

theorem exec_launchWindowWrite (hlen : data.length = 64) (hal : off % 64 = 0) (hp : (s.vf vf).part = some p) :
    exec (.launchWindowWrite vf off data) s = .next (if s.launchCredit (some p) = 0 then s.launchReply (windowLaunch s vf p data) 0xC5 0 0
      else s.enterChannel (windowLaunch s vf p data) (s.vf vf).maxPrio) := by
  show execLaunchWindowWrite vf off data s = _
  unfold execLaunchWindowWrite
  dsimp only
  rw [if_neg (State.window_open hvf hoff hreq), if_neg (by omega), hp]
  dsimp only
  split <;> rfl

end

theorem exec_launchChannelEntry {idx c : Nat} {l : Launch} {x : Partn} {y : Ctx} (hl : s.toSpine[idx]? = some l)
    (hfirst : ∀ o ∈ s.toSpine.take idx, o.part ≠ l.part) (hx : s.part? l.part = some x) (hroom : x.launches.length < 256)
    (hpar : l.parent = some c) (hy : s.ctx? c = some y) :
    exec (.launchChannelEntry idx) s = .next { (s.setPart l.part { x with launches := x.launches ++ [l.stamped y.prio] }) with
      toSpine := listDrop s.toSpine idx } := by
  show execLaunchChannelEntry idx s = _
  unfold execLaunchChannelEntry
  rw [hl]
  dsimp only
  rw [State.launchCredit_some hx, if_neg, hpar]
  · dsimp only
    rw [hy]
    dsimp only
    rw [State.enterChannel_part (s := { s with toSpine := listDrop s.toSpine idx }) hx]
    rfl
  · rintro (h | h)
    · obtain ⟨o, ho, h⟩ := List.any_eq_true.1 h
      exact hfirst o ho (by simpa using h)
    · omega

/-! ### The global dispatcher -/

/-- No partition has a record in its channel. -/
def State.NoLaunch (s : State) : Prop := ∀ q p, s.part? q = some p → p.launches = []

theorem State.servePart_skip {prio q : Nat} {served : Bool} (n : Nat) (h : ∀ p, s.part? q = some p → p.launches = []) :
    s.servePart prio q served n = (s, served) := by
  cases n with
  | zero => rfl
  | succ n =>
    rw [State.servePart]
    split
    next => rfl
    next p hp =>
      rw [h p hp]

theorem State.servePrio_skip {prio : Nat} {l : List Nat} (h : ∀ q ∈ l, s.servePart prio q false 257 = (s, false)) :
    s.servePrio prio l = s := by
  induction l with
  | nil => rfl
  | cons q r ih =>
    rw [State.servePrio, h q (by simp)]
    exact ih fun x hx => h x (by simp [hx])

theorem State.servePrio_append (prio : Nat) (l r : List Nat) (s : State) :
    s.servePrio prio (l ++ r) = (s.servePrio prio l).servePrio prio r := by
  induction l generalizing s with
  | nil => rfl
  | cons q l ih =>
    rw [List.cons_append, State.servePrio, State.servePrio]
    split
    next => exact ih _
    next => exact ih _

theorem foldl_fixed {α β : Type} {f : β → α → β} {b : β} {l : List α} (h : ∀ a ∈ l, f b a = b) : l.foldl f b = b := by
  induction l with
  | nil => rfl
  | cons a r ih =>
    rw [List.foldl_cons, h a (by simp)]
    exact ih fun x hx => h x (by simp [hx])

/-- The partitions in their round-robin order at a priority. -/
abbrev State.robin (s : State) (prio : Nat) : List Nat :=
  (List.range 32).map fun i => ((tabGet s.lastServed prio).getD 31 + 1 + i) % 32

theorem State.mem_robin (s : State) (prio : Nat) {q : Nat} (hq : q < 32) : q ∈ s.robin prio := by
  generalize hlast : (tabGet s.lastServed prio).getD 31 = last
  refine List.mem_map.2 ⟨(q + 32 - (last + 1) % 32) % 32, List.mem_range.2 (Nat.mod_lt _ (by decide)), ?_⟩
  rw [hlast]
  omega

theorem State.servePrio_idle (h : s.NoLaunch) (prio : Nat) (l : List Nat) : s.servePrio prio l = s :=
  State.servePrio_skip fun q _ => State.servePart_skip _ (h q)

theorem exec_dispatcherCycle (s : State) : exec .dispatcherCycle s =
    .next ([7, 6, 5, 4, 3, 2, 1, 0].foldl (fun s p => s.servePrio p (s.robin p)) s) := rfl

theorem exec_dispatcherCycle_idle (h : s.NoLaunch) : exec .dispatcherCycle s = .next s := by
  rw [exec_dispatcherCycle, foldl_fixed fun p _ => State.servePrio_idle h p _]

/-! A partition with one record. -/

section
variable {q c : Nat} {p : Partn} {l : Launch} {e : MapEntry}

theorem State.part?_single (hparts : s.parts = [(q, p)]) (r : Nat) : s.part? r = if r = q then some p else none := by
  unfold State.part?
  rw [hparts, tabGet]
  by_cases h : q = r
  · rw [if_pos h, if_pos h.symm]
  · rw [if_neg h, if_neg (Ne.symm h)]
    split <;> rfl

theorem State.servePart_other (hparts : s.parts = [(q, p)]) (prio n : Nat) {r : Nat} (hr : r ≠ q) :
    s.servePart prio r false n = (s, false) :=
  State.servePart_skip n fun x hx => by rw [State.part?_single hparts, if_neg hr] at hx; cases hx

/-- The record's state of the machine once it is on its way to its die. -/
abbrev State.sentOff (s : State) (q c : Nat) (p : Partn) (l : Launch) (e : MapEntry) : State :=
  { s with parts := [(q, { p with launches := [] })]
           batches := s.batches ++ [(e.gfolio / 16, { l with ctx := c, prio := p.headPrio l })] }

theorem State.servePart_one (hparts : s.parts = [(q, p)]) (hl : p.launches = [l]) (hst : p.status = 1) (hfmt : l.format = 1)
    (hcheck : s.launchCheck p l = 0) (he : tabGet p.fmap 0 = some e) (hcredit : s.dieCredit (e.gfolio / 16) ≠ 0)
    (hnum : s.freeNumber p = some c) : s.servePart (p.headPrio l) q false 257 = (s.sentOff q c p l e, true) := by
  have hput : s.setPart q { p with launches := [] } = { s with parts := [(q, { p with launches := [] })] } := by
    rw [State.setPart, hparts]
    simp [tabPut]
  rw [State.servePart, State.part?_single hparts, if_pos rfl]
  dsimp only
  rw [hl]
  dsimp only
  rw [if_neg (by simp [hst]), hcheck, he]
  dsimp only
  rw [if_neg (by decide), if_neg hcredit, if_neg (by omega), hnum, hput]
  dsimp only
  exact State.servePart_skip _ fun x hx => by
    rw [State.part?_single (q := q) (p := { p with launches := [] }) rfl, if_pos rfl] at hx
    cases hx
    rfl

theorem State.servePart_later (hparts : s.parts = [(q, p)]) (hl : p.launches = [l]) {prio : Nat} (hprio : p.headPrio l ≠ prio) :
    s.servePart prio q false 257 = (s, false) := by
  rw [State.servePart, State.part?_single hparts, if_pos rfl]
  dsimp only
  rw [hl]
  dsimp only
  rw [if_pos (Or.inl hprio)]

theorem State.noLaunch_sentOff (s : State) (q c : Nat) (p : Partn) (l : Launch) (e : MapEntry) (t : Tab Nat) :
    State.NoLaunch { s.sentOff q c p l e with lastServed := t } := fun r x hx => by
  rw [State.part?_single (q := q) (p := { p with launches := [] }) rfl] at hx
  split at hx
  · cases hx
    rfl
  · cases hx

theorem exec_dispatcherCycle_one (hparts : s.parts = [(q, p)]) (hq : q < 32) (hl : p.launches = [l]) (hst : p.status = 1)
    (hprio : l.prio ≤ 7) (hfmt : l.format = 1) (hcheck : s.launchCheck p l = 0) (he : tabGet p.fmap 0 = some e)
    (hcredit : s.dieCredit (e.gfolio / 16) ≠ 0) (hnum : s.freeNumber p = some c) :
    exec .dispatcherCycle s = .next { s.sentOff q c p l e with lastServed := tabPut s.lastServed (p.headPrio l) q } := by
  have hmem : p.headPrio l ∈ [7, 6, 5, 4, 3, 2, 1, 0] := by
    unfold Partn.headPrio
    split
    · simp
    · simp; omega
  obtain ⟨pre, post, hsplit, hpre⟩ := List.eq_append_cons_of_mem hmem
  obtain ⟨before, after, hrobin, hbefore⟩ := List.eq_append_cons_of_mem (s.mem_robin (p.headPrio l) hq)
  have hskip : pre.foldl (fun s p => s.servePrio p (s.robin p)) s = s := foldl_fixed fun x hx =>
    State.servePrio_skip fun r _ => by
      by_cases hr : r = q
      · subst hr
        exact State.servePart_later hparts hl fun h => hpre (h ▸ hx)
      · exact State.servePart_other hparts _ _ hr
  have hserve : s.servePrio (p.headPrio l) (s.robin (p.headPrio l)) =
      { s.sentOff q c p l e with lastServed := tabPut s.lastServed (p.headPrio l) q } := by
    rw [hrobin, State.servePrio_append, State.servePrio_skip fun r hr => State.servePart_other hparts _ _ fun h => hbefore (h ▸ hr),
      State.servePrio, State.servePart_one hparts hl hst hfmt hcheck he hcredit hnum]
    exact State.servePrio_idle (State.noLaunch_sentOff s q c p l e _) _ _
  rw [exec_dispatcherCycle, hsplit, List.foldl_append, hskip, List.foldl_cons, hserve,
    foldl_fixed fun x _ => State.servePrio_idle (State.noLaunch_sentOff s q c p l e _) x _]

end

/-! ### The queue of a die -/

theorem exec_dieBatchArrival {idx d : Nat} {l : Launch} (hl : s.batches[idx]? = some (d, l))
    (hfirst : ∀ b ∈ s.batches.take idx, b.1 ≠ d) (hroom : (s.dieAt d).queue.length < 64) :
    exec (.dieBatchArrival idx) s =
      .next { (s.setDie d { s.dieAt d with queue := (s.dieAt d).queue ++ [l] }) with batches := listDrop s.batches idx } := by
  show execDieBatchArrival idx s = _
  unfold execDieBatchArrival
  rw [hl]
  dsimp only
  rw [if_neg]
  · rfl
  · rintro (h | h)
    · obtain ⟨b, hb, h⟩ := List.any_eq_true.1 h
      exact hfirst b hb (by simpa using h)
    · omega

theorem exec_headWaitExpiry {die t : Nat} (ht : (s.dieAt die).headWait = some t) (hlate : s.cyclesSince die t ≥ 65536)
    (hopen : (s.dieAt die).blocked = false) :
    exec (.headWaitExpiry die) s = .next (s.setDie die { s.dieAt die with blocked := true }) := by
  have hx : exec (.headWaitExpiry die) s = execHeadWaitExpiry die s := rfl
  unfold execHeadWaitExpiry at hx
  dsimp only at hx
  rw [ht] at hx
  dsimp only at hx
  rw [if_pos ⟨hlate, by simp [hopen]⟩] at hx
  rw [hx, ← ht]

theorem exec_remoteReservation {die idx home i h : Nat} {l : Launch} {im : Image} (hr : (s.reservationsAt die)[idx]? = some (home, i, l))
    (hl : l.image = some h) (him : tabGet s.images h = some im) :
    exec (.remoteReservation die idx) s = .next (s.modEntry home i fun x => { x with
      dies := if s.fits l.ctx l.part im (· == die) = .fit then x.dies.map (· ++ [die]) else none }) := by
  show execRemoteReservation die idx s = _
  unfold execRemoteReservation
  rw [hr]
  dsimp only
  rw [hl]
  dsimp only
  rw [him]
  dsimp only
  cases s.fits l.ctx l.part im (· == die) <;> rfl

/-! ### Placement leaves the new context -/

theorem State.foldl_ctxs {α : Type} {f : State → α → State} (hf : ∀ s a, (f s a).ctxs = s.ctxs) (l : List α) :
    ∀ s : State, (l.foldl f s).ctxs = s.ctxs := by
  induction l with
  | nil => exact fun _ => rfl
  | cons a r ih => exact fun s => (ih (f s a)).trans (hf s a)

theorem State.placePlots_ctxs (s : State) (im : Image) (lf g : Nat) : (s.placePlots im lf g).ctxs = s.ctxs := by
  unfold State.placePlots
  generalize List.range 4096 = l
  refine State.foldl_ctxs ?_ l s
  exact fun _ _ => rfl

theorem State.placeFolios_ctxs (s : State) (part : Nat) (im : Image) : (s.placeFolios part im).ctxs = s.ctxs :=
  State.foldl_ctxs (fun s lf => by
    split
    · exact s.placePlots_ctxs im lf _
    · rfl) _ s

theorem State.placeElems_ctxs (s : State) (ctx part vf : Nat) (im : Image) : (s.placeElems ctx part vf im).ctxs = s.ctxs :=
  State.foldl_ctxs (fun s e => by split <;> rfl) _ s

theorem State.placeReserves_ctxs (s : State) (ctx part : Nat) (im : Image) : (s.placeReserves ctx part im).ctxs = s.ctxs :=
  State.foldl_ctxs (fun s e => by split <;> rfl) _ s

theorem State.placeTasks_ctxs (s : State) (ctx part : Nat) (hyp : Bool) (im : Image) : (s.placeTasks ctx part hyp im).ctxs = s.ctxs := by
  unfold State.placeTasks
  dsimp only
  obtain ⟨m, e, k, h⟩ := State.bindTasks_frame part im.tasks
    (((im.tasks.filterMap fun t => s.physQuire part t.pos).eraseDups).foldl (fun s q => s.freshQcc q ctx hyp) s)
  rw [h]
  exact State.foldl_ctxs (fun s q => by
    obtain ⟨e, he⟩ := State.writeErrs_frame { s with
      ctl := memClear s.ctl (q * 65536) 65536, ctlRegion := s.ctlRegion.filter fun r => r.1 / 16 != q } .control (q * 65536) 65536
    rw [State.freshQcc, he]
    rfl) _ s

theorem State.placeEngines_ctxs (s : State) (ctx part : Nat) (im : Image) : (s.placeEngines ctx part im).ctxs = s.ctxs := by
  unfold State.placeEngines
  dsimp only
  rw [State.foldl_ctxs (fun s e => by split <;> rfl), State.foldl_ctxs (fun s e => by split <;> rfl),
    State.foldl_ctxs (fun s e => by split <;> rfl)]

/-- The reply to the issuer of a placed launch changes no context. -/
theorem State.launchReply_placed_ctxs (s : State) (l : Launch) (ctx reason : Nat) : (s.launchReply l 0 ctx reason).ctxs = s.ctxs := by
  unfold State.launchReply
  split
  · rfl
  · obtain ⟨k, v, h⟩ := State.cmdDone_frame s _ _ 0 (if 0 = 0 then ctx else 0)
    rw [h]
  · rfl

theorem State.inject_ctxs {pos port dst : Nat} {x : Token} {t : State} (h : s.inject pos port dst x = some t) : t.ctxs = s.ctxs := by
  unfold State.inject at h
  dsimp only at h
  generalize (if x.net = .pred then 3 else 0) = cls at h
  split at h
  · cases h
    rfl
  · cases h

theorem State.sendArgs_ctxs {die : Nat} {l : Launch} {t : State} (h : s.sendArgs die l = some t) : t.ctxs = s.ctxs := by
  unfold State.sendArgs at h
  split at h
  · cases h
    rfl
  · dsimp only at h
    split at h
    · cases h
      rfl
    · exact State.inject_ctxs h

theorem State.sendStarts_ctxs (s : State) (l : Launch) (im : Image) : (s.sendStarts l im).ctxs = s.ctxs := by
  unfold State.sendStarts
  split <;> rfl

theorem State.place_ctx {die h : Nat} {l : Launch} {im : Image} {t : State} (hp : s.place die l h im = some t) :
    t.ctx? l.ctx = some ((s.joinTurn l.part l.homevf).launched l h im) := by
  unfold State.place at hp
  dsimp only at hp
  split at hp
  next s4 hs4 =>
    cases hp
    unfold State.ctx?
    rw [State.sendStarts_ctxs, State.sendArgs_ctxs hs4, State.launchReply_placed_ctxs, State.placeEngines_ctxs, State.placeTasks_ctxs,
      State.placeReserves_ctxs, State.placeElems_ctxs, State.placeFolios_ctxs]
    exact tabGet_tabPut_same ..
  next => cases hp

/-! ### The die dispatcher -/

section
variable {die h : Nat} {l : Launch} {im : Image} (himg : l.image = some h ∨ (l.image = none ∧ l.lhandle = h ∧ h ≠ noWord))
  (him : tabGet s.images h = some im)
include himg him

theorem State.serveEntry_eq (i : Nat) : s.serveEntry die i l =
    match s.fits l.ctx l.part im (fun d => d == die || !(l.dies.getD []).contains d) with
    | .never => some ((s.dropEntry die i).launchReply l 0xC3 0 0)
    | .wait => if l.dies.isSome then some (s.modEntry die i fun l => { l with dies := none }) else none
    | .fit =>
      if (s.imageDies l.part im).any (· != die) ∧ l.dies.isNone then
        some (s.modEntry die i fun l => { l with dies := some [], image := some h })
      else if !(s.diesNeeded die l im).isEmpty then some s
      else match (s.dropEntry die i).place die l h im with
        | some s1 => some s1
        | none => some s := by
  unfold State.serveEntry
  dsimp only
  rcases himg with himg | ⟨himg, rfl, hne⟩
  · rw [himg]
    dsimp only
    rw [him] <;> rfl
  · rw [himg]
    dsimp only
    rw [if_neg hne]
    dsimp only
    rw [him] <;> rfl

end

section
variable {die : Nat} {l : Launch} {r : List Launch} (hres : s.reservationsAt die = []) (hq : (s.dieAt die).queue = l :: r)
  (hfresh : l.resume = false)
include hres hq hfresh

theorem exec_placement_head {t : State} (ht : s.serveEntry die 0 l = some t) : exec (.placement die) s = .next t := by
  show execPlacement die s = _
  unfold execPlacement
  rw [hres, hq, if_neg (by simp)]
  dsimp only
  rw [State.serveQueue, if_neg (by simp [hfresh]), ht]

theorem exec_placement_waits (ht : s.serveEntry die 0 l = none) (hr : r = []) : exec (.placement die) s =
    .next (s.setDie die { s.dieAt die with headWait := some (((s.dieAt die).headWait).getD s.tick) }) := by
  have hw : s.headWaits die = s.setDie die { s.dieAt die with headWait := some (((s.dieAt die).headWait).getD s.tick) } := by
    unfold State.headWaits
    dsimp only
    cases (s.dieAt die).headWait <;> rfl
  show execPlacement die s = _
  unfold execPlacement
  rw [hres, hq, if_neg (by simp)]
  dsimp only
  rw [State.serveQueue, if_neg (by simp [hfresh]), ht, hr, ← hw]
  dsimp only [State.serveQueue, List.take_nil]
  exact ite_self _

end

end

end Sys2Proof.Machine

open Sys2Proof Sys2Proof.Machine in
/-- Settles O46: each stage of a launch by the equation of its branch; placement keeps the context that it makes. -/
theorem launchResults : Obligations.LaunchResults := by
  unfold Obligations.LaunchResults
  refine ⟨fun s vf off p data x hvf hoff hreq hp hx => ⟨exec_launchWindowWrite_shape hvf hoff hreq, fun hlen hal hroom => ?_,
      fun hlen hal hfull hdq => ?_⟩,
    fun s idx c l x y hl hfirst hx hroom hpar hy => ⟨_, exec_launchChannelEntry hl hfirst hx hroom hpar hy, rfl, hpar, rfl, rfl,
      fun h => Launch.stamped_prio l y.prio h⟩,
    fun s h => exec_dispatcherCycle_idle h,
    fun s q c p l e hparts hq hl hst hprio hfmt hcheck he hcredit hnum =>
      exec_dispatcherCycle_one hparts hq hl hst hprio hfmt hcheck he hcredit hnum,
    fun s idx d l hl hfirst hroom => exec_dieBatchArrival hl hfirst hroom,
    fun s die h l r im hres hq hfresh himg him => ⟨fun t hfit hdies hplace => ?_, fun hwait hnone hr => ?_, fun hnever => ?_⟩,
    fun s die t ht hlate hopen => exec_headWaitExpiry ht hlate hopen,
    fun s die idx home i h l im hr hl him => exec_remoteReservation hr hl him⟩
  · refine ⟨(windowLaunch s vf p data).stamped (s.vf vf).maxPrio, ?_, rfl, rfl, rfl, rfl, rfl, fun h => Launch.stamped_prio _ _ h⟩
    rw [exec_launchWindowWrite hvf hoff hreq hlen hal hp, State.launchCredit_some hx, if_neg (by omega),
      State.enterChannel_part (l := windowLaunch s vf p data) hx]
  · rw [exec_launchWindowWrite hvf hoff hreq hlen hal hp, State.launchCredit_some hx, if_pos (by omega)]
    unfold State.launchReply
    dsimp only
    rw [if_neg (by decide), if_pos (by exact hdq)]
  · have hserve : s.serveEntry die 0 l = some t := by
      rw [State.serveEntry_eq himg him, hfit]
      dsimp only
      rw [if_neg, if_neg, hplace]
      · simp only [State.diesNeeded, Bool.not_eq_true', List.isEmpty_eq_false_iff, ne_eq, List.filter_eq_nil_iff, Classical.not_not]
        intro d hd
        simp [hdies d hd]
      · rintro ⟨h, -⟩
        obtain ⟨d, hd, h⟩ := List.any_eq_true.1 h
        simp [hdies d hd] at h
    exact ⟨exec_placement_head hres hq hfresh hserve, _, State.place_ctx hplace, rfl, rfl, rfl, rfl, rfl, rfl, rfl, rfl, rfl⟩
  · refine exec_placement_waits hres hq hfresh ?_ hr
    rw [State.serveEntry_eq himg him, hwait]
    dsimp only
    rw [hnone, if_neg (by simp)]
  · refine exec_placement_head hres hq hfresh ?_
    rw [State.serveEntry_eq himg him, hnever]

/-! SUPPORT. The tear-down of a context, trap messages and soft-error records (R370, R371, R378, R382). -/

namespace Sys2Proof.Machine

section
variable {s : State} {ctx : Nat} {c : Ctx}

/-! ### The sweep of a tear-down -/

theorem State.unplaced_unwait (s : State) (ctx : Nat) : (s.unwait ctx).1.unplaced ctx = s.unplaced ctx := by
  unfold State.unplaced State.unwait
  dsimp only
  rw [List.flatMap_map]

theorem State.reportCancel_frame (s : State) (l : Launch) (num : Option Nat) :
    ∃ v d, s.reportCancel l num = { s with vfs := v, deliveries := d } := by
  unfold State.reportCancel
  split
  · exact ⟨_, s.deliveries, rfl⟩
  · exact ⟨s.vfs, _, rfl⟩

theorem State.reportCancels_frame : ∀ (l : List (Launch × Option Nat)) (s : State),
    ∃ v d, l.foldl (fun s x => s.reportCancel x.1 x.2) s = { s with vfs := v, deliveries := d }
  | [], s => ⟨s.vfs, s.deliveries, rfl⟩
  | x :: l, s => by
    obtain ⟨v, d, h⟩ := s.reportCancel_frame x.1 x.2
    obtain ⟨v', d', h'⟩ := State.reportCancels_frame l (s.reportCancel x.1 x.2)
    exact ⟨v', d', h'.trans (by rw [h])⟩

/-- The unplaced launches of a context leave the Spine's queue, the channels, the batches and the dies' queues; each is reported, and
all are counted. -/
theorem State.cancelAll_spec (s : State) (ctx : Nat) : ∃ p b d v x cs, s.cancelAll ctx =
      { s with toSpine := s.toSpine.filter (fun l => !l.from' ctx), parts := p, batches := b, dies := d, vfs := v, deliveries := x,
               ctxs := cs } ∧
    tabGet cs ctx = (s.ctx? ctx).map fun c => { c with cancel := c.cancel + (s.unplaced ctx).length } := by
  obtain ⟨v, x, hrep⟩ := State.reportCancels_frame (s.unplaced ctx) { s with
    toSpine := s.toSpine.filter fun l => !l.from' ctx
    parts := s.parts.map fun q => (q.1, { q.2 with launches := q.2.launches.filter fun l => !l.from' ctx })
    batches := s.batches.filter fun b => !b.2.from' ctx
    dies := s.dies.map fun q => (q.1, q.2.cancel ctx) }
  have hx : s.cancelAll ctx = s.cancelAll ctx := rfl
  conv at hx => rhs; unfold State.cancelAll
  dsimp only at hx
  rw [hrep] at hx
  obtain ⟨cs, hcs⟩ := State.modCtx_frame { s with
    toSpine := s.toSpine.filter fun l => !l.from' ctx
    parts := s.parts.map fun q => (q.1, { q.2 with launches := q.2.launches.filter fun l => !l.from' ctx })
    batches := s.batches.filter fun b => !b.2.from' ctx
    dies := s.dies.map fun q => (q.1, q.2.cancel ctx), vfs := v, deliveries := x } ctx
    fun c => { c with cancel := c.cancel + (s.unplaced ctx).length }
  have hget := (congrArg (State.ctx? · ctx) hcs).symm.trans (State.ctx?_modCtx ..)
  rw [hcs] at hx
  exact ⟨_, _, _, v, x, cs, hx, hget⟩

/-- The machine `t` after the sweep of a tear-down: of its context the counts have changed; nothing of it is left on its way, and
no byte of a memory has changed. -/
structure Swept (s : State) (ctx : Nat) (c : Ctx) (t : State) : Prop where
  counts : ∃ p, t.ctx? ctx = some { c with
    cancel := c.cancel + (s.unplaced ctx).length, discard := c.discard + s.countOf ctx, parkd := p }
  msgs : ∀ m ∈ t.msgs, m.tok.ctx.toNat ≠ ctx
  traps : ∀ m ∈ t.trapOut, m.ctx ≠ ctx
  marks : ∀ m ∈ t.marks, m.ctx ≠ ctx
  spine : ∀ l ∈ t.toSpine, l.parent ≠ some ctx ∨ l.resume = true
  deliveries : ∀ x ∈ t.deliveries, x.report = true ∨ x.ctx ≠ ctx
  sram : t.sram = s.sram
  hbm : t.hbm = s.hbm
  ctl : t.ctl = s.ctl

theorem State.sweepCtx_swept (hc : s.ctx? ctx = some c) : Swept s ctx c (s.sweepCtx ctx) := by
  obtain ⟨p, b, d, v, x, cs, hcancel, hcs⟩ := (s.unwait ctx).1.cancelAll_spec ctx
  rw [State.unplaced_unwait, show (s.unwait ctx).1.ctx? ctx = some c from hc, Option.map_some] at hcs
  have hunw : (s.unwait ctx).1 = { s with parts := (s.unwait ctx).1.parts } := rfl
  have hx : s.sweepCtx ctx = s.sweepCtx ctx := rfl
  conv at hx => rhs; unfold State.sweepCtx
  dsimp only at hx
  rw [hcancel] at hx
  generalize hm : (((s.goneAccs ctx).filter fun i => match s.acc? i with | some a => a.parked | none => false).length) = n at hx
  generalize hu : (_ : State).takeOut ctx = u at hx
  obtain ⟨cs', hcs'⟩ := u.modCtx_frame ctx fun c => { c with
    discard := c.discard + s.countOf ctx, parkd := c.parkd + n + (s.unwait ctx).2 }
  have hget : (s.sweepCtx ctx).ctx? ctx = _ := (congrArg (State.ctx? · ctx) hx).trans (State.ctx?_modCtx ..)
  rw [show u.ctx? ctx = tabGet cs ctx by rw [← hu]; rfl, hcs] at hget
  rw [hcs'] at hx
  subst hu
  refine ⟨⟨_, hget⟩, ?_, ?_, ?_, ?_, ?_, ?_, ?_, ?_⟩
  all_goals rw [hx]
  · intro m hm h
    have := (List.mem_filter.1 hm).2
    simp [Token.of, h] at this
  · intro m hm h
    have := (List.mem_filter.1 hm).2
    simp [h] at this
  · intro m hm h
    have := (List.mem_filter.1 hm).2
    simp [h] at this
  · intro l hl
    have := (List.mem_filter.1 hl).2
    simpa [Launch.from', Decidable.imp_iff_not_or] using this
  · intro y hy
    have := (List.mem_filter.1 hy).2
    simpa using this
  all_goals rfl

theorem exec_tearDown (hc : s.ctx? ctx = some c) (htear : c.tear = .tearing) (hsave : c.save = none) :
    exec (.tearDown ctx) s = .next (s.sweepCtx ctx) := by
  show execTearDown ctx s = _
  unfold execTearDown State.tearing State.dropSave
  rw [hc]
  dsimp only
  rw [if_pos (by simp [htear]), hsave]

/-! ### The release -/

theorem exec_tearDownRelease (hc : s.ctx? ctx = some c) (htear : c.tear = .tearing) (hsave : c.save = none)
    (hquiet : s.quiet ctx = true) : exec (.tearDownRelease ctx) s = .next ((s.freeCtx ctx).endReport ctx c) := by
  show execTearDownRelease ctx s = _
  unfold execTearDownRelease
  rw [hc]
  dsimp only
  rw [if_neg (by simp [htear, hsave, hquiet])]

theorem State.endReport_frame (s : State) (ctx : Nat) (c : Ctx) :
    ∃ x v d, s.endReport ctx c = { s with ctxs := x, vfs := v, deliveries := d } := by
  unfold State.endReport
  split
  · dsimp only
    split
    · exact ⟨_, s.vfs, s.deliveries, rfl⟩
    · exact ⟨_, _, s.deliveries, rfl⟩
  · exact ⟨_, s.vfs, _, rfl⟩

theorem completionToken_pay (ctx dq : Nat) (r : BitVec 256) (h : Handle) : (completionToken ctx dq r h).pay.toNat = r.toNat := by
  have hr := r.isLt
  show (BitVec.ofNat 1024 r.toNat).toNat = r.toNat
  rw [BitVec.toNat_ofNat, Nat.mod_eq_of_lt (Nat.lt_of_lt_of_le hr (Nat.pow_le_pow_right (by decide) (by decide)))]

theorem State.endReport_silent (hdq : c.dq = 255) (s : State) :
    (s.endReport ctx c).ctxs = tabDel s.ctxs ctx ∧ (s.endReport ctx c).deliveries = s.deliveries := by
  unfold State.endReport
  rw [if_pos hdq]
  dsimp only
  split <;> exact ⟨rfl, rfl⟩

theorem State.endReport_queued (hdq : c.dq ≠ 255) (s : State) : (s.endReport ctx c).ctx? ctx = some { c with tear := .reporting } ∧
    ∃ d, (s.endReport ctx c).deliveries = s.deliveries ++ [d] ∧ d.vf = c.homevf ∧ d.queue = c.dq ∧ d.report = true ∧
      d.tok.pay.toNat = (c.record ctx).toNat ∧ d.tok.plate = (if c.ending.kind = 1 then c.ending.plate else 0) := by
  unfold State.endReport
  rw [if_neg hdq]
  exact ⟨tabGet_tabPut_same .., _, rfl, rfl, rfl, rfl, completionToken_pay .., rfl⟩

/-! ### Trap messages and soft-error records -/

theorem exec_trapChannelMessage {idx q : Nat} {m : TrapMsg} (hm : s.trapOut[idx]? = some m)
    (hfirst : ∀ o ∈ s.trapOut.take idx, o.ctx ≠ m.ctx ∨ o.spos ≠ m.spos ∨ o.snode ≠ m.snode) (halive : s.alive m.ctx = true)
    (hq : s.trapQcc m.ctx = some q) (hawake : s.awake (q / 4) = true) (hmerge : (s.qcc q).mergeAt m = none)
    (hroom : ((s.qcc q).chan 15).length < chanCap 15) :
    ∃ t, exec (.trapChannelMessage idx) s = .next t ∧ t = { s with qccs := t.qccs, trapOut := listDrop s.trapOut idx } ∧
      (t.qcc q).chan 15 = (s.qcc q).chan 15 ++ [{ trapToken m with kind := 2, node := 15 }] := by
  obtain ⟨u, hpush, hu, hchan, -⟩ := State.pushChan_room (s := { s with trapOut := listDrop s.trapOut idx }) (trapToken m) hroom
  have henter : State.trapEnter { s with trapOut := listDrop s.trapOut idx } q m = some u := by
    unfold State.trapEnter
    dsimp only
    rw [show (State.qcc { s with trapOut := listDrop s.trapOut idx } q).mergeAt m = none from hmerge]
    dsimp only
    rw [hpush]
  refine ⟨u, ?_, hu, hchan⟩
  show execTrapChannelMessage idx s = _
  unfold execTrapChannelMessage
  rw [hm]
  dsimp only
  rw [if_neg, if_neg (by simp [halive]), hq]
  · dsimp only
    rw [if_neg (by simp [hawake]), henter]
  · intro h
    obtain ⟨o, ho, h⟩ := List.any_eq_true.1 h
    simp only [Bool.and_eq_true, beq_iff_eq] at h
    rcases hfirst o ho with h' | h' | h'
    · exact h' h.1.1
    · exact h' h.1.2
    · exact h' h.2

theorem exec_softErrorRecord {idx die : Nat} {e : EventRec} (he : s.softErrors[idx]? = some (die, e))
    (hfirst : ∀ o ∈ s.softErrors.take idx, o.1 ≠ die) (hroom : (s.vf pfNum).events.length < 65536)
    (hkind : bitF e.record.toNat 255 248 ≠ 1) :
    exec (.softErrorRecord idx) s = .next { (s.setVf pfNum { s.vf pfNum with events := (s.vf pfNum).events ++ [e] }) with
      softErrors := listDrop s.softErrors idx } := by
  have hevent : State.event { s with softErrors := listDrop s.softErrors idx } pfNum e =
      State.setVf { s with softErrors := listDrop s.softErrors idx } pfNum
        { s.vf pfNum with events := (s.vf pfNum).events ++ [e] } := by
    unfold State.event
    dsimp only
    rw [show State.vf { s with softErrors := listDrop s.softErrors idx } pfNum = s.vf pfNum from rfl, if_neg, if_pos hroom]
    simp [hkind]
    intro h
    omega
  show execSoftErrorRecord idx s = _
  unfold execSoftErrorRecord
  rw [he]
  dsimp only
  rw [if_neg, hevent]
  · rfl
  · rintro (h | ⟨h, -⟩)
    · obtain ⟨o, ho, h⟩ := List.any_eq_true.1 h
      exact hfirst o ho (by simpa using h)
    · omega

end

end Sys2Proof.Machine

open Sys2Proof Sys2Proof.Machine in
/-- Settles O47: what the sweep takes out, what the release frees, and where the two kinds of record go. -/
theorem tearDownAndRecordResults : Obligations.TearDownAndRecordResults := by
  unfold Obligations.TearDownAndRecordResults
  refine ⟨fun s ctx c hc htear hsave => ?_, fun s ctx c hc htear hsave hquiet => ?_,
    fun s idx q m hm hfirst halive hq hawake hmerge hroom => exec_trapChannelMessage hm hfirst halive hq hawake hmerge hroom,
    fun s idx die e he hfirst hroom hkind => exec_softErrorRecord he hfirst hroom hkind⟩
  · obtain ⟨⟨p, hctx⟩, hmsgs, htraps, hmarks, hspine, hdel, hsram, hhbm, hctl⟩ := State.sweepCtx_swept hc
    exact ⟨_, _, exec_tearDown hc htear hsave, hctx, htear, rfl, rfl, rfl, hmsgs, htraps, hmarks, hspine, hdel, hsram, hhbm, hctl⟩
  · obtain ⟨x, v, d, hframe⟩ := (s.freeCtx ctx).endReport_frame ctx c
    refine ⟨_, exec_tearDownRelease hc htear hsave hquiet, ?_, ?_, ?_, ?_, ?_, ?_, ?_, fun hdq => ?_, fun hdq => ?_⟩
    · rw [hframe]
      intro q hq
      simpa using (List.mem_filter.1 hq).2
    · rw [hframe]
      intro q hq
      obtain ⟨q', -, rfl⟩ := List.mem_map.1 hq
      dsimp only
      split
      · exact nofun
      · assumption
    · rw [hframe]
      intro q hq
      simpa using (List.mem_filter.1 hq).2
    · rw [hframe]
      intro q hq
      simpa using (List.mem_filter.1 hq).2
    · rw [hframe]; rfl
    · rw [hframe]; rfl
    · rw [hframe]; rfl
    · exact State.endReport_silent hdq (s.freeCtx ctx)
    · exact State.endReport_queued hdq (s.freeCtx ctx)

/-! SUPPORT. Saves, stops, restores, retirement, turns and periods (R141, R384 to R391, R401 to R406). -/

namespace Sys2Proof.Machine

section
variable {s : State} {ctx : Nat} {c : Ctx} {r : SaveReq}

/-! ### The save -/

/-- What `SETTLE_COMPLETE` comes to for a settled context that is not being killed. -/
theorem exec_settleComplete (hc : s.ctx? ctx = some c) (hsave : c.save = some r) (halive : c.tear = .alive) (hgated : c.gated = true)
    (hkill : r.kill = false) (hset : s.settled ctx c = true) (hzero : s.zeroLeft c = false) :
    exec (.settleComplete ctx) s = s.streamOut' ctx c r (s.savedOf ctx c) (s.sections ctx c (s.savedOf ctx c)) := by
  show execSettleComplete ctx s = _
  unfold execSettleComplete
  rw [hc]
  dsimp only
  rw [hsave]
  dsimp only
  rw [if_neg (by simp [halive, hgated]), if_neg (by simp [hkill]), if_neg (by simp [hset, hzero])]

/-- A context that leaves takes its control cores along and nothing of the memories. -/
theorem State.leave_frame (s : State) (ctx : Nat) : (s.leave ctx).ctxs = tabDel s.ctxs ctx ∧ (s.leave ctx).sram = s.sram ∧
    (s.leave ctx).hbm = s.hbm ∧ ∀ q ∈ (s.leave ctx).qccs, q.2.ctx ≠ some ctx := by
  refine ⟨rfl, rfl, rfl, fun q hq => ?_⟩
  exact bne_iff_ne.mp (List.mem_filter.mp hq).2

theorem State.modPart_frame (s : State) (p : Nat) (f : Partn → Partn) : ∃ x, s.modPart p f = { s with parts := x } := by
  unfold State.modPart
  split
  · exact ⟨_, rfl⟩
  · exact ⟨s.parts, rfl⟩

/-! ### The stop sequence -/

theorem State.stopWrites_eq (part : Nat) (p : Partn) (r : SaveReq) : ∃ l : List Pcie,
    s.stopWrites part p r = l ++ [.write r.statusAddr (bytesOf 8 (stopWord 2 (decide ((s.dirty part).length > r.reportLen)) p.stopseq
      l.length))] ∧ l.length = min (s.dirty part).length r.reportLen ∧
    ∀ i e, (s.dirty part)[i]? = some e → i < r.reportLen → l[i]? = some (.write (r.reportAddr + 8 * i) (bytesOf 8 e)) := by
  have hlen : (((s.dirty part).take (min (s.dirty part).length r.reportLen)).mapIdx
      fun i e => Pcie.write (r.reportAddr + 8 * i) (bytesOf 8 e)).length = min (s.dirty part).length r.reportLen := by
    simp
  refine ⟨_, by rw [hlen]; rfl, hlen, fun i e he hi => ?_⟩
  have hlt : i < (s.dirty part).length := (List.getElem?_eq_some_iff.mp he).1
  rw [List.getElem?_mapIdx, List.getElem?_take_of_lt (by omega), he]
  rfl

theorem exec_stopSequence {part : Nat} {p : Partn} (hp : s.part? part = some p) (hstop : p.stop = some r)
    (hdone : p.status ≠ 2 ∨ s.stopSettled part = true) :
    ∃ t, exec (.stopSequence part) s = .next t ∧
      t.part? part = some { p with stop := none, status := if p.status = 2 then 3 else p.status } ∧
      t.pcie = s.pcie ++ s.stopWrites part p r := by
  have hx : exec (.stopSequence part) s = execStopSequence part s := rfl
  unfold execStopSequence at hx
  rw [hp] at hx
  dsimp only at hx
  rw [hstop] at hx
  dsimp only at hx
  rw [if_neg (by rcases hdone with h | h <;> simp [h])] at hx
  refine ⟨_, hx, ?_⟩
  generalize hu : (if p.status = 2 then _ else _ : State) = u
  have hframe : ∃ st, u = { s.setPart part { p with stop := none, status := if p.status = 2 then 3 else p.status } with status := st } := by
    rw [← hu]
    split
    · exact ⟨_, rfl⟩
    · exact ⟨s.status, rfl⟩
  obtain ⟨st, rfl⟩ := hframe
  obtain ⟨k, v, hk⟩ := State.cmdDone_frame { s.setPart part { p with stop := none, status := if p.status = 2 then 3 else p.status } with
    status := st, pcie := s.pcie ++ s.stopWrites part p r } r.cmd.1 r.cmd.2 0 r.lane1
  refine ⟨?_, ?_⟩
  · show State.part? (State.cmdDone { s.setPart part _ with status := st, pcie := s.pcie ++ s.stopWrites part p r } _ _ _ _) part = _
    rw [hk]
    exact tabGet_tabPut_same _ _ _
  · show State.pcie (State.cmdDone { s.setPart part _ with status := st, pcie := s.pcie ++ s.stopWrites part p r } _ _ _ _) = _
    rw [hk]

theorem exec_killTimeout (hc : s.ctx? ctx = some c) (hsave : c.save = some r) (halive : c.tear = .alive) (hkill : r.kill = true)
    (htaken : r.taken = []) (hlate : s.cyclesSince (s.homeDie ctx) r.since ≥ 65536) : exec (.killTimeout ctx) s = .next
      ((s.stopBegin c.part r).setCtx ctx { c with gated := true, save := some { r with kill := false, lane1 := 0xD4 } }) := by
  show execKillTimeout ctx s = _
  unfold execKillTimeout
  rw [hc]
  dsimp only
  rw [hsave]
  dsimp only
  rw [if_neg (by simp [halive, hkill, htaken]; omega)]

/-! ### The restore: what it writes back changes no context -/

theorem State.plotBack_ctxs (s : State) (part : Nat) (x : Nat × Plot × Bytes) : (s.plotBack part x).ctxs = s.ctxs := by
  unfold State.plotBack
  split
  · rfl
  · next n _ =>
    generalize memWrite s.sram (n * 4096) 4096 (numOf x.2.2) = m
    dsimp only
    obtain ⟨e, h⟩ := State.writeErrs_frame { s with sram := m } .bank (n * 4096) 4096
    rw [State.setPlot_ctxs, h]

theorem State.spillToken_ctxs {pos : Nat} {k : Token} {what : OvfKind} {t : State} (h : s.spillToken pos k what = some t) :
    t.ctxs = s.ctxs := by
  unfold State.spillToken at h
  dsimp only at h
  split at h
  · cases h
  · cases h
    rfl

theorem State.putBack_ctxs {pos : Nat} {t : State} (l : List Held) : ∀ {s : State}, s.putBack pos l = some t → t.ctxs = s.ctxs := by
  induction l with
  | nil => exact fun h => by cases h; rfl
  | cons x l ih =>
    intro s h
    rw [State.putBack] at h
    split at h
    · have ht := ih h
      exact ht
    · split at h
      next u hu => exact (ih h).trans (State.spillToken_ctxs hu)
      next => cases h

theorem State.elemBack_ctxs (s : State) (ctx part weight lp : Nat) (o : Elem) : (s.elemBack ctx part weight lp o).ctxs = s.ctxs := by
  unfold State.elemBack
  split
  · rfl
  · dsimp only
    split
    next p =>
      generalize hb : State.putBack _ _ _ = b
      cases b with
      | none => rfl
      | some t =>
        have ht := State.putBack_ctxs _ hb
        exact ht
    next => rfl

theorem State.ovfBack_ctxs (s : State) (part lq : Nat) (o : Overflow) : (s.ovfBack part lq o).ctxs = s.ctxs := by
  unfold State.ovfBack
  split <;> rfl

theorem State.ctlBackAll_ctxs (s : State) (part : Nat) (x : Nat × Memory × Tab Handle) : (s.ctlBackAll part x).ctxs = s.ctxs := by
  unfold State.ctlBackAll
  split <;> rfl

theorem State.unitsBack_ctxs (s : State) (part : Nat) (v : Saved) : (s.unitsBack part v).ctxs = s.ctxs := by
  unfold State.unitsBack
  dsimp only
  rw [State.foldl_ctxs (fun s x => by split <;> rfl), State.foldl_ctxs (fun s x => by split <;> rfl),
    State.foldl_ctxs (fun s x => by split <;> rfl), State.foldl_ctxs (fun s x => by split <;> rfl),
    State.foldl_ctxs (fun s x => by split <;> rfl), State.foldl_ctxs (fun s x => by split <;> rfl)]

theorem State.runBack_ctxs (s : State) (r : Running) : (s.runBack r).ctxs = s.ctxs := by
  unfold State.runBack
  exact State.foldl_ctxs (fun s d => by dsimp only; split <;> rfl) _ s

theorem State.timetableBack_ctxs (s : State) (v : Saved) : (s.timetableBack v).ctxs = s.ctxs := by
  unfold State.timetableBack
  dsimp only
  refine (State.foldl_ctxs ?_ v.misses _).trans ((State.foldl_ctxs State.runBack_ctxs v.running _).trans ?_)
  · exact fun _ _ => rfl
  · split <;> rfl

theorem State.linkBack_ctxs (s : State) (part : Nat) (x : Nat × Nat × Token) : (s.linkBack part x).ctxs = s.ctxs := by
  unfold State.linkBack
  split <;> rfl

theorem State.stateBack_ctxs (s : State) (v : Saved) (im : Image) (haccs : v.accs = []) :
    (s.stateBack v im).ctxs =
      (s.setCtx v.ctx { v.context with sliced := s.slicedNow v.context.part v.context.homevf }).ctxs := by
  unfold State.stateBack
  dsimp only
  rw [haccs, State.accsBack]
  unfold State.waysBack
  dsimp only
  rw [State.foldl_ctxs (fun s x => s.linkBack_ctxs v.context.part x), State.timetableBack_ctxs,
    State.foldl_ctxs (fun s x => s.ctlBackAll_ctxs v.context.part x), State.unitsBack_ctxs,
    State.foldl_ctxs (fun s (q : Nat × Overflow) => s.ovfBack_ctxs v.context.part q.1 q.2), State.placeReserves_ctxs,
    State.foldl_ctxs (fun s (q : Nat × Elem) => s.elemBack_ctxs v.ctx v.context.part _ q.1 q.2),
    State.foldl_ctxs (fun s x => s.plotBack_ctxs v.context.part x), State.placeFolios_ctxs]

theorem State.resumeDone_ctxs (s : State) (l : Launch) (code : Nat) : (s.resumeDone l code).ctxs = s.ctxs := by
  unfold State.resumeDone
  obtain ⟨x, hx⟩ := s.modPart_frame l.part fun p => { p with form := none }
  dsimp only
  rw [hx]
  split
  · next q id _ =>
    obtain ⟨k, v, hk⟩ := State.cmdDone_frame { s with parts := x } q id code 0
    rw [hk]
  · rfl

theorem State.stateBack_ctx (s : State) (v : Saved) (im : Image) (l : Launch) (haccs : v.accs = []) :
    ((s.stateBack v im).resumeDone l 0).ctx? v.ctx =
      some { v.context with sliced := s.slicedNow v.context.part v.context.homevf } := by
  rw [State.ctx?, State.resumeDone_ctxs, State.stateBack_ctxs s v im haccs]
  exact tabGet_tabPut_same _ _ _

theorem exec_rebinderRestore {idx die i q id : Nat} {l : Launch} {b : Bytes} {s1 : State} (hr : s.resumes[idx]? = some (die, i, l))
    (hcmd : l.cmd = some (q, id)) (hf : s.fetchArea (s.saveWho q id) l.imgva l.got = .done b s1) :
    exec (.rebinderRestore idx) s = .next (s1.restore die i l b) := by
  show execRebinderRestore idx s = _
  unfold execRebinderRestore
  rw [hr]
  dsimp only
  rw [hcmd]
  dsimp only
  rw [hf]

theorem State.restore_placed {die i : Nat} {l : Launch} {b : Bytes} {v : Saved} {im : Image} {u : State}
    (hs : s.savedIn l.part b = some (v, im)) (hnum : s.numbersUsed.contains v.ctx = false)
    (ha : assignFolios l.part v l.named (fun s => s.takes v im) (List.range v.context.nfolio) (s.dropEntry die i) = some u)
    (hk : v.killed = false) (haccs : v.accs = []) :
    ∃ c, (s.restore die i l b).ctx? v.ctx = some c ∧
      c = { v.context with sliced := c.sliced, gated := u.partStatus l.part != 1 } := by
  have hx : s.restore die i l b = s.restore die i l b := rfl
  conv at hx => rhs; unfold State.restore
  rw [hs] at hx
  dsimp only at hx
  rw [if_neg (by rw [hnum]; exact Bool.false_ne_true), ha] at hx
  dsimp only at hx
  rw [if_neg (by rw [hk]; exact Bool.false_ne_true)] at hx
  rw [hx]
  exact ⟨_, State.stateBack_ctx _ { v with context := { v.context with gated := u.partStatus l.part != 1 } } im l haccs, rfl⟩

/-! ### Retirement -/

/-- A context whose tear-down has begun with a code. -/
def Ctx.endedWith (x : Ctx) (code : Nat) : Ctx := { x with tear := .tearing, ending := { kind := 5, code := code, exit := 0, plate := 0 } }

theorem State.beginEnd_frame (s : State) (ctx kind code : Nat) (exit : BitVec 32) (h : Handle) :
    ∃ x, s.beginEnd ctx kind code exit h = { s with ctxs := x } := s.modCtx_frame ctx _

theorem State.ctx?_beginEnd_ne (s : State) {k : Nat} (hk : ctx ≠ k) (kind code : Nat) (exit : BitVec 32) (h : Handle) :
    (s.beginEnd k kind code exit h).ctx? ctx = s.ctx? ctx := by
  unfold State.beginEnd State.modCtx
  split
  · rw [State.ctx?_setCtx, if_neg hk]
  · rfl

theorem State.ctx?_beginEnd (s : State) (ctx kind code : Nat) (exit : BitVec 32) (h : Handle) :
    (s.beginEnd ctx kind code exit h).ctx? ctx = (s.ctx? ctx).map fun c =>
      if c.tear = .alive then { c with tear := .tearing, ending := { kind := kind, code := code, exit := exit, plate := h } } else c :=
  s.ctx?_modCtx ctx _

/-- A fold of ends keeps a context that has been ended. -/
theorem State.endAll_keeps {y : Ctx} (hy : y.tear ≠ .alive) (code : Nat) (l : List (Nat × Ctx)) : ∀ {s : State}, s.ctx? ctx = some y →
    (l.foldl (fun s c => s.beginEnd c.1 5 code 0 0) s).ctx? ctx = some y := by
  induction l with
  | nil => exact id
  | cons a l ih =>
    intro s hc
    refine ih ?_
    by_cases hk : ctx = a.1
    · subst hk
      rw [State.ctx?_beginEnd, hc, Option.map_some, if_neg hy]
    · rw [State.ctx?_beginEnd_ne s hk, hc]

/-- A fold of ends ends each live context that it lists. -/
theorem State.endAll_ends {x : Ctx} (hx : x.tear = .alive) (code : Nat) (l : List (Nat × Ctx)) : ∀ {s : State}, s.ctx? ctx = some x →
    (ctx, x) ∈ l → (l.foldl (fun s c => s.beginEnd c.1 5 code 0 0) s).ctx? ctx = some (x.endedWith code) := by
  induction l with
  | nil => exact fun _ h => absurd h List.not_mem_nil
  | cons a l ih =>
    intro s hc hmem
    by_cases hk : ctx = a.1
    · subst hk
      refine State.endAll_keeps (by simp [Ctx.endedWith]) code l ?_
      rw [State.ctx?_beginEnd, hc, Option.map_some, if_pos hx]
      rfl
    · have hl : (ctx, x) ∈ l := by
        rcases List.mem_cons.mp hmem with h | h
        · exact absurd (congrArg Prod.fst h) hk
        · exact h
      exact ih ((State.ctx?_beginEnd_ne s hk ..).trans hc) hl

theorem State.endAll_frame (code : Nat) (l : List (Nat × Ctx)) : ∀ s : State,
    ∃ x, l.foldl (fun s c => s.beginEnd c.1 5 code 0 0) s = { s with ctxs := x } := by
  induction l with
  | nil => exact fun s => ⟨s.ctxs, rfl⟩
  | cons a l ih =>
    intro s
    obtain ⟨x, hx⟩ := s.beginEnd_frame a.1 5 code 0 0
    obtain ⟨y, hy⟩ := ih (s.beginEnd a.1 5 code 0 0)
    exact ⟨y, by rw [List.foldl_cons, hy, hx]⟩

theorem State.endUsers_frame (s : State) (l : List RetUnit) : ∃ x, s.endUsers l = { s with ctxs := x } :=
  State.endAll_frame 0xE0 _ s

theorem State.endUsers_elem {x : Ctx} {unit : Nat} (hc : s.ctx? ctx = some x) (halive : x.tear = .alive)
    (hu : s.usesElem ctx x unit = true) (l : List RetUnit) : (s.endUsers (.elem unit :: l)).ctx? ctx = some (x.endedWith 0xE0) := by
  unfold State.endUsers
  refine State.endAll_ends halive 0xE0 _ hc (List.mem_filter.mpr ⟨tabGet_mem hc, ?_⟩)
  rw [List.any_cons]
  exact Bool.or_eq_true_iff.mpr (.inl hu)

/-- What a retirement changes once the contexts have ended: partitions, commands, events and the status blocks. -/
def RetireEdit (s t : State) : Prop :=
  ∃ p k v f o st, t = { s with parts := p, qccs := k, saves := v, vfs := f, eventsOut := o, status := st }

theorem RetireEdit.refl (s : State) : RetireEdit s s := ⟨_, _, _, _, _, _, rfl⟩

theorem RetireEdit.trans {t u : State} (h : RetireEdit s t) (h' : RetireEdit t u) : RetireEdit s u := by
  obtain ⟨p, k, v, f, o, st, rfl⟩ := h
  obtain ⟨p', k', v', f', o', st', rfl⟩ := h'
  exact ⟨p', k', v', f', o', st', rfl⟩

theorem RetireEdit.foldl {α : Type} {g : State → α → State} (hg : ∀ s a, RetireEdit s (g s a)) (l : List α) :
    ∀ s : State, RetireEdit s (l.foldl g s) := by
  induction l with
  | nil => exact RetireEdit.refl
  | cons a l ih => exact fun s => (hg s a).trans (ih (g s a))

theorem State.setPart_edit (s : State) (part : Nat) (p : Partn) : RetireEdit s (s.setPart part p) := ⟨_, _, _, _, _, _, rfl⟩

theorem State.formDone_edit (s : State) (part st : Nat) : RetireEdit s (s.formDone part st) := by
  unfold State.formDone
  split
  · exact RetireEdit.refl s
  · next p _ =>
    split
    · next x q id _ =>
      obtain ⟨k, v, hk⟩ := State.cmdDone_frame (s.setPart part { p with form := none }) q id st 0
      rw [hk]
      exact ⟨_, _, _, _, _, _, rfl⟩
    · exact RetireEdit.refl s

theorem State.dropRetired_edit (s : State) (kind unit : Nat) : RetireEdit s (s.dropRetired kind unit) := by
  unfold State.dropRetired
  dsimp only
  refine RetireEdit.trans (RetireEdit.foldl (fun s q => ?_) s.parts s) ⟨_, _, _, _, _, _, rfl⟩
  split
  · obtain ⟨x, hx⟩ := s.modPart_frame q.1 fun p => { p with fmap := p.moving.foldl cancelEntry p.fmap }
    rw [hx]
    exact RetireEdit.trans ⟨_, _, _, _, _, _, rfl⟩ (State.formDone_edit _ q.1 3)
  · exact RetireEdit.refl s

theorem State.giveFolios_edit (part n : Nat) : ∀ s : State, RetireEdit s (s.giveFolios part n) := by
  induction n with
  | zero => exact RetireEdit.refl
  | succ n ih =>
    intro s
    rw [State.giveFolios]
    split
    · exact RetireEdit.refl s
    · split
      · exact RetireEdit.refl s
      · split
        · exact (s.setPart_edit part _).trans (ih _)
        · exact RetireEdit.refl s

set_option maxRecDepth 4000 in
/-- The numeral 512 in the list of channels is what makes the default depth too small here. -/
theorem State.giveChans_succ (s : State) (part n : Nat) : s.giveChans part (n + 1) =
    match s.part? part with
    | none => s
    | some p =>
      if p.channels.length ≥ p.gchan then s
      else match (List.range 512).find? s.spareChan with
        | some c => (s.setPart part { p with channels := insertNum c p.channels }).giveChans part n
        | none => s := rfl

theorem State.giveChans_edit (part n : Nat) : ∀ s : State, RetireEdit s (s.giveChans part n) := by
  induction n with
  | zero => exact RetireEdit.refl
  | succ n ih =>
    intro s
    rw [State.giveChans_succ]
    split
    · exact RetireEdit.refl s
    · split
      · exact RetireEdit.refl s
      · split
        · exact (s.setPart_edit part _).trans (ih _)
        · exact RetireEdit.refl s

theorem State.setSusp_edit (s : State) (part : Nat) (v : Bool) : RetireEdit s (s.setSusp part v) := by
  unfold State.setSusp
  split
  · exact RetireEdit.refl s
  · split
    · exact RetireEdit.refl s
    · dsimp only
      obtain ⟨f, o, h⟩ := State.event_frame (s.setPart part { ‹Partn› with susp := v }) pfNum
        { record := BitVec.ofNat 256 (17 * 2 ^ 248 + part * 2 ^ 240 + (if v then 2 ^ 232 else 0) + 2 ^ 160), plate := 0 }
      rw [h]
      exact ⟨_, _, _, _, _, _, rfl⟩

/-- No partition maps a folio that is retired. -/
def State.folioGone (s : State) (g : Nat) : Prop := s.retired.contains (.folio g) = true ∧ ∀ q ∈ s.parts, ∀ e ∈ q.2.fmap, e.2.gfolio ≠ g

theorem State.folioGone.part {g part : Nat} {p : Partn} (h : s.folioGone g) (hp : s.part? part = some p) : ∀ e ∈ p.fmap, e.2.gfolio ≠ g :=
  h.2 _ (tabGet_mem hp)

theorem State.folioGone.setPart {g part : Nat} {p : Partn} (h : s.folioGone g) (hp : ∀ e ∈ p.fmap, e.2.gfolio ≠ g) :
    (s.setPart part p).folioGone g := by
  refine ⟨h.1, fun q hq => ?_⟩
  rcases mem_tabPut hq with rfl | hq
  · exact hp
  · exact h.2 q hq

theorem State.folioGone.giveFolios {g part : Nat} (n : Nat) : ∀ {s : State}, s.folioGone g → (s.giveFolios part n).folioGone g := by
  induction n with
  | zero => exact id
  | succ n ih =>
    intro s h
    rw [State.giveFolios]
    split
    · exact h
    next p hp =>
      split
      · exact h
      · split
        next x lf hx hlf =>
          refine ih (h.setPart fun e he => ?_)
          rcases mem_tabPut he with rfl | he
          · rintro rfl
            have hfound := List.find?_some hx
            have hspare := (Bool.and_eq_true_iff.mp hfound).1
            have hret : s.retired.contains (.folio x) = true := h.1
            rw [State.spareFolio, hret] at hspare
            simp at hspare
          · exact h.part hp e he
        next => exact h

theorem State.folioGone.giveChans {g part : Nat} (n : Nat) : ∀ {s : State}, s.folioGone g → (s.giveChans part n).folioGone g := by
  induction n with
  | zero => exact id
  | succ n ih =>
    intro s h
    rw [State.giveChans_succ]
    split
    · exact h
    next p hp =>
      split
      · exact h
      · split
        next x _ =>
          have hp' := h.part hp
          exact ih (h.setPart hp')
        next => exact h

theorem State.folioGone.setSusp {g : Nat} (h : s.folioGone g) (part : Nat) (v : Bool) : (s.setSusp part v).folioGone g := by
  unfold State.setSusp
  split
  · exact h
  next p hp =>
    split
    · exact h
    · dsimp only
      obtain ⟨f, o, he⟩ := State.event_frame (s.setPart part { p with susp := v }) pfNum
        { record := BitVec.ofNat 256 (17 * 2 ^ 248 + part * 2 ^ 240 + (if v then 2 ^ 232 else 0) + 2 ^ 160), plate := 0 }
      rw [he]
      exact h.setPart (p := { p with susp := v }) (show ∀ e ∈ p.fmap, _ from h.part hp)

/-- One rank of the procedure of R407 keeps what each of its three parts keeps. -/
theorem State.guaranteeRank_keeps {P : State → Prop} (hf : ∀ s part n, P s → P (s.giveFolios part n))
    (hch : ∀ s part n, P s → P (s.giveChans part n)) (hs : ∀ s part v, P s → P (s.setSusp part v)) (h : P s) (r : Nat) :
    P (s.guaranteeRank r) := by
  unfold State.guaranteeRank
  split
  · exact h
  next q _ =>
    generalize 256 = n, 512 = m
    have h1 := hch _ q.1 m (hf s q.1 n h)
    dsimp only
    split
    · exact hs _ q.1 _ h1
    · exact h1

theorem foldl_keeps {α β : Type} {P : β → Prop} {f : β → α → β} (hf : ∀ b a, P b → P (f b a)) (l : List α) :
    ∀ {b : β}, P b → P (l.foldl f b) := by
  induction l with
  | nil => exact id
  | cons a l ih => exact fun h => ih (hf _ a h)

/-- The procedure of R407 keeps what each of its parts keeps. -/
theorem State.guarantee_keeps {P : State → Prop} (hf : ∀ s part n, P s → P (s.giveFolios part n))
    (hch : ∀ s part n, P s → P (s.giveChans part n)) (hs : ∀ s part v, P s → P (s.setSusp part v)) (h : P s) : P s.guarantee := by
  unfold State.guarantee
  generalize List.range 32 = ranks
  have hranks : P (ranks.foldl State.guaranteeRank s) :=
    foldl_keeps (P := P) (fun u r hu => State.guaranteeRank_keeps hf hch hs hu r) ranks h
  generalize ranks.foldl State.guaranteeRank s = u at hranks ⊢
  refine foldl_keeps (P := P) (fun u q hu => ?_) u.parts hranks
  split
  · exact hs u q.1 false hu
  · exact hu

theorem State.guarantee_edit (s : State) : RetireEdit s s.guarantee :=
  State.guarantee_keeps (P := RetireEdit s) (fun u part n h => h.trans (u.giveFolios_edit part n))
    (fun u part n h => h.trans (u.giveChans_edit part n)) (fun u part v h => h.trans (u.setSusp_edit part v)) (RetireEdit.refl s)

theorem State.folioGone.guarantee {g : Nat} (h : s.folioGone g) : s.guarantee.folioGone g :=
  State.guarantee_keeps (P := fun s => s.folioGone g) (fun _ _ n h => h.giveFolios n) (fun _ _ n h => h.giveChans n)
    (fun _ part v h => h.setSusp part v) h

theorem State.dropRetired_folio (s : State) {g : Nat} (h : s.retired.contains (.folio g) = true) : (s.dropRetired 2 g).folioGone g := by
  obtain ⟨p, k, v, f, o, st, he⟩ := s.dropRetired_edit 2 g
  refine ⟨by rw [he]; exact h, fun q hq e hm => ?_⟩
  unfold State.dropRetired at hq
  obtain ⟨x, _, rfl⟩ := List.mem_map.mp hq
  exact bne_iff_ne.mp (List.mem_filter.mp hm).2

theorem State.replaceRequest_frame (s : State) : ∃ b f o, s.replaceRequest =
    { s with replaceSeq := s.replaceSeq + 1, replaceBody := b, vfs := f, eventsOut := o } := by
  have hx : ∃ b e, s.replaceRequest =
      State.event { s with replaceSeq := s.replaceSeq + 1, replaceBody := b } pfNum e := ⟨_, _, rfl⟩
  obtain ⟨b, e, hx⟩ := hx
  obtain ⟨f, o, h⟩ := State.event_frame { s with replaceSeq := s.replaceSeq + 1, replaceBody := b } pfNum e
  exact ⟨b, f, o, hx.trans h⟩

theorem exec_retirement {kind unit : Nat} (hn : unit < retCount kind) (hr : s.retired.contains (retUnit kind unit) = false)
    (hret : s.retires kind unit = true) :
    ∃ t, exec (.retirement kind unit) s = .next t ∧ t.sram = s.sram ∧ t.hbm = s.hbm ∧ t.replaceSeq = s.replaceSeq + 1 ∧
      (∀ u, u ∈ t.retired ↔ u ∈ s.retired ∨ u ∈ retUnit kind unit :: retAlso kind unit) ∧
      (kind = 2 → ∀ q p, t.part? q = some p → ∀ e ∈ p.fmap, e.2.gfolio ≠ unit) ∧
      (kind = 0 → ∀ c x, s.ctx? c = some x → x.tear = .alive → s.usesElem c x unit = true →
        ∃ y, t.ctx? c = some y ∧ y.tear = .tearing ∧ y.ending.kind = 5 ∧ y.ending.code = 0xE0) := by
  have hx : exec (.retirement kind unit) s = execRetirement kind unit s := rfl
  unfold execRetirement at hx
  rw [if_neg (by simp only [hr, hret]; simp; omega)] at hx
  dsimp only at hx
  refine ⟨_, hx, ?_⟩
  generalize hl : retUnit kind unit :: retAlso kind unit = l
  obtain ⟨cs, hcs⟩ := s.endUsers_frame l
  have hctx (c : Nat) : State.ctx? { s with ctxs := cs } c = (s.endUsers l).ctx? c := by rw [hcs]
  generalize hnew : s.retired ++ l.filter (fun u => !s.retired.contains u) = ret
  have hmem (u : RetUnit) : u ∈ ret ↔ u ∈ s.retired ∨ u ∈ l := by
    rw [← hnew, List.mem_append, List.mem_filter]
    by_cases hu : u ∈ s.retired <;> simp [hu]
  generalize hset : ({ s.endUsers l with
    retired := (s.endUsers l).retired ++ l.filter fun u => !(s.endUsers l).retired.contains u } : State) = s2
  have hs2 : ({ s with ctxs := cs, retired := ret } : State) = s2 := by rw [← hset, hcs, ← hnew]
  have hgone : kind = 2 → (s2.dropRetired kind unit).guarantee.folioGone unit := by
    rintro rfl
    refine (s2.dropRetired_folio ?_).guarantee
    rw [← hs2]
    exact List.contains_iff_mem.mpr ((hmem _).mpr (.inr (by rw [← hl]; exact List.mem_cons_self)))
  obtain ⟨p, k, v, f, o, st, he⟩ := (s2.dropRetired_edit kind unit).trans (State.guarantee_edit _)
  obtain ⟨b, f', o', hq⟩ := (s2.dropRetired kind unit).guarantee.replaceRequest_frame
  rw [he] at hgone hq
  rw [he, hq, ← hs2]
  refine ⟨rfl, rfl, rfl, hmem, fun h2 q x hp e hm => ?_, fun h0 c x hc halive hu => ?_⟩
  · exact (hgone h2).2 _ (tabGet_mem hp) e hm
  · subst h0
    refine ⟨x.endedWith 0xE0, ?_, rfl, rfl, rfl⟩
    have hend := State.endUsers_elem hc halive hu (retAlso 0 unit)
    rw [show RetUnit.elem unit :: retAlso 0 unit = l from hl, ← hctx] at hend
    exact hend

/-! ### Turns and periods -/

theorem State.part?_setPart_same (s : State) (part : Nat) (p : Partn) : (s.setPart part p).part? part = some p :=
  tabGet_tabPut_same _ _ _

theorem exec_sliceEnd {part v : Nat} {p : Partn} (hp : s.part? part = some p) (hv : nextVf p.turn (s.liveVfs part) = some v)
    (hover : (s.liveVfs part).contains p.turn = false ∨ s.cyclesSince p.homeDie p.turnAt ≥ s.turnLength p.turn) :
    exec (.sliceEnd part) s = .next ((s.setPart part { p with turn := v, turnAt := s.tick }).applyTurn part) := by
  show execSliceEnd part s = _
  unfold execSliceEnd
  rw [hp]
  dsimp only
  rw [if_neg ?_, hv]
  rintro ⟨hlive, hshort⟩
  rcases hover with h | h
  · exact absurd hlive (by rw [h]; exact Bool.false_ne_true)
  · omega

theorem State.applyTurn_some {part : Nat} {p : Partn} (hp : s.part? part = some p) : s.applyTurn part = { s with
    ctxs := s.ctxs.map fun c => (c.1, if c.2.part = part then { c.2 with
      sliced := decide ((s.liveVfs part).length > 1) && (s.liveVfs part).contains c.2.homevf && c.2.homevf != p.turn } else c.2) } := by
  have hx : s.applyTurn part = s.applyTurn part := rfl
  conv at hx => rhs; unfold State.applyTurn
  rw [hp] at hx
  exact hx

theorem State.writeStatuses_frame (l : List Nat) : ∀ s : State, ∃ st, l.foldl State.writeStatus s = { s with status := st } := by
  induction l with
  | nil => exact fun s => ⟨s.status, rfl⟩
  | cons a l ih =>
    intro s
    obtain ⟨st, h⟩ := ih (s.writeStatus a)
    exact ⟨st, h⟩

end

end Sys2Proof.Machine

open Sys2Proof Sys2Proof.Machine in
/-- Settles O48: what is written back of a saved context changes no context but its own, and the procedure of R407 maps no folio
that is retired. -/
theorem saveRestoreAndRetirementResults : Obligations.SaveRestoreAndRetirementResults := by
  unfold Obligations.SaveRestoreAndRetirementResults
  refine ⟨fun s ctx c r hc hsave halive hgated hkill hset hzero => ?_, fun s part p r hp hstop hdone => ?_,
    fun s ctx c r hc hsave halive hkill htaken hlate => exec_killTimeout hc hsave halive hkill htaken hlate,
    fun s s1 idx die i q id l b hr hcmd hf => ⟨fun hnone => ?_, fun v im u hs hnum ha hk haccs => ?_⟩,
    fun s kind unit hn hr hret => exec_retirement hn hr hret, fun s part v p hp hv hover => ?_, fun s die hper => ?_⟩
  · rw [exec_settleComplete hc hsave halive hgated hkill hset hzero]
    refine ⟨fun hbig => ?_, fun hfits => ?_⟩
    · unfold State.streamOut'
      exact if_pos hbig
    · have hx : s.streamOut' ctx c r (s.savedOf ctx c) (s.sections ctx c (s.savedOf ctx c)) = _ := rfl
      conv at hx => rhs; unfold State.streamOut'
      dsimp only at hx
      rw [if_neg (Nat.not_lt.mpr hfits)] at hx
      cases hw : s.writeArea (s.saveWho r.cmd.1 r.cmd.2) r.va (cutWords (cutSteps _) [] [] _) with
      | ok u s1 =>
        rw [hw] at hx
        obtain ⟨hctxs, hsram, hhbm, hqccs⟩ := s1.leave_frame ctx
        obtain ⟨x, hm⟩ := (s1.leave ctx).modPart_frame c.part fun p => { p with stop := some r }
        dsimp only at hx
        rw [hm] at hx
        exact ⟨_, _, hx, hctxs, hsram, hhbm, List.mem_append_right _ (List.mem_singleton.mpr rfl), rfl, rfl, rfl, hqccs⟩
      | fail u s1 =>
        rw [hw] at hx
        exact hx
      | wait s1 =>
        rw [hw] at hx
        exact hx
  · obtain ⟨t, hx, hpart, hpcie⟩ := exec_stopSequence hp hstop hdone
    obtain ⟨l, hw, hlen, hget⟩ := s.stopWrites_eq part p r
    exact ⟨t, l, hx, hpart, by rw [hpcie, hw, List.append_assoc], hlen, hget⟩
  · rw [exec_rebinderRestore hr hcmd hf, State.restore]
    rw [hnone]
  · obtain ⟨c, hc, heq⟩ := State.restore_placed hs hnum ha hk haccs
    exact ⟨_, c, exec_rebinderRestore hr hcmd hf, hc, heq⟩
  · refine ⟨_, exec_sliceEnd hp hv hover, ?_, fun c x hc => ?_⟩
    · rw [State.applyTurn_some (s.part?_setPart_same part _)]
      exact tabGet_tabPut_same _ _ _
    · rw [State.applyTurn_some (s.part?_setPart_same part _)]
      refine (tabGet_map s.ctxs (fun y => if y.part = part then { y with
        sliced := decide ((s.liveVfs part).length > 1) && (s.liveVfs part).contains y.homevf && y.homevf != v } else y) c).trans ?_
      rw [show tabGet s.ctxs c = some x from hc]
      rfl
  · have hx : exec (.energyPeriodEnd die) s = execEnergyPeriodEnd die s := rfl
    unfold execEnergyPeriodEnd at hx
    dsimp only at hx
    rw [if_neg hper] at hx
    refine ⟨_, hx, ?_⟩
    obtain ⟨st, h⟩ := State.writeStatuses_frame _ (s.setDie die { s.dieAt die with
      period := s.counter die / 2 ^ 20, lastEnergy := (s.dieAt die).energy, lastIssues := (s.dieAt die).issues, energy := [], issues := [] })
    rw [h]
    refine ⟨rfl, ?_⟩
    show (tabGet (tabPut s.dies die _) die).getD _ = _
    rw [tabGet_tabPut_same]
    rfl

/-! SUPPORT. The host's accesses, deliveries, queue controls and completions (R94, R413 to R418, R476). -/

namespace Sys2Proof.Machine

theorem byte_numOf : ∀ (b : Bytes) (i : Nat), BitVec.ofNat 8 (numOf b / 256 ^ i) = (b[i]?).getD 0
  | [], i => by simp [numOf]
  | x :: r, 0 => by
    rw [numOf, Nat.pow_zero, Nat.div_one]
    apply BitVec.eq_of_toNat_eq
    have hx := x.isLt
    simp only [BitVec.toNat_ofNat, List.getElem?_cons_zero, Option.getD_some]
    omega
  | x :: r, i + 1 => by
    have hdiv : numOf (x :: r) / 256 ^ (i + 1) = numOf r / 256 ^ i := by
      have hx := x.isLt
      rw [Nat.pow_succ', ← Nat.div_div_eq_div_mul, numOf]
      congr 1
      omega
    rw [hdiv, byte_numOf r i, List.getElem?_cons_succ]

theorem fieldOf_all {b : Bytes} {n : Nat} (h : b.length = n) : fieldOf b 0 n = numOf b := by
  rw [fieldOf, List.drop_zero, List.take_of_length_le (Nat.le_of_eq h)]

section
variable {s t : State}

/-! ### The Clasp and the counts of a function -/

/-- The verdict of the Clasp goes by destinations and policies alone. -/
theorem State.clasp_congr (hd : t.dests = s.dests) (hp : t.policies = s.policies) (h : Handle) (d b : Nat) :
    (t.clasp h d b).1 = (s.clasp h d b).1 := by
  have hdest : t.dest d = s.dest d := by rw [State.dest, hd]; rfl
  unfold State.clasp
  rw [hdest, hp]
  split
  · rfl
  · split
    · rfl
    · split <;> rfl

theorem State.clasp_frame (s : State) (h : Handle) (d b : Nat) :
    ∃ p v o, (s.clasp h d b).2 = { s with policies := p, vfs := v, eventsOut := o } := by
  unfold State.clasp
  split
  · exact ⟨s.policies, s.vfs, s.eventsOut, rfl⟩
  · split
    · exact ⟨s.policies, s.vfs, s.eventsOut, rfl⟩
    · split
      next i p l _ =>
        show ∃ p' v o, s.chargePolicy i p l = { s with policies := p', vfs := v, eventsOut := o }
        unfold State.chargePolicy
        split
        · obtain ⟨v, o, h⟩ := State.eventPlates_frame (plateEvent 4 i p.handle p.dest 1 0) (s.setOf p.handle)
            { s with policies := tabDel s.policies i }
          exact ⟨_, v, o, h⟩
        · exact ⟨_, s.vfs, s.eventsOut, rfl⟩
      next =>
        obtain ⟨v, o, he⟩ := State.eventPlates_frame (plateEvent 1 0xFF h d 1 b) (s.setOf h) s
        exact ⟨s.policies, v, o, he⟩

theorem State.vfCount_frame (s : State) (vf hi lo code : Nat) : ∃ v, s.vfCount vf hi lo code = { s with vfs := v } := ⟨_, rfl⟩

/-! ### Apertures -/

/-- What a host read leaves: memories and requests as they are. -/
def HostEdit (s t : State) : Prop := ∃ pl d p v o, t = { s with plots := pl, dies := d, policies := p, vfs := v, eventsOut := o }

theorem HostReq.piece_whole {r : HostReq} (hn : r.size ∈ [1, 2, 4, 8, 16, 32, 64]) (hoff : r.off % r.size = 0) (hdone : r.done = 0) :
    r.piece = r.size := by
  unfold HostReq.piece
  rw [hdone]
  simp only [List.mem_cons, List.not_mem_nil, or_false] at hn
  rcases hn with h | h | h | h | h | h | h <;> rw [h] at hoff ⊢ <;> simp only [List.foldl] <;> simp <;> omega

section
variable {w : Who} {base : Nat} {r : HostReq}

theorem State.hostPieces_done {fuel : Nat} (h : r.done ≥ r.size) : s.hostPieces w base fuel r = (r, s) := by
  cases fuel with
  | zero => rfl
  | succ n => exact if_pos h

/-- A request of one piece that passes is done in one step. -/
theorem State.hostPieces_ok (hdone : r.done = 0) (hpiece : r.piece = r.size) (hpos : 0 < r.size) {b : Bytes}
    (h : s.hostPiece w base r = .ok b t) :
    s.hostPieces w base (r.size + 1) r = ({ r with done := r.size, got := r.got ++ b }, t) := by
  rw [State.hostPieces, if_neg (by omega)]
  dsimp only
  rw [h, hdone, hpiece]
  dsimp only
  rw [Nat.zero_add]
  exact State.hostPieces_done (r := { r with done := r.size, got := r.got ++ b }) (Nat.le_refl _)

theorem State.hostPieces_fail (hdone : r.done = 0) (hpiece : r.piece = r.size) (hpos : 0 < r.size) {c : Nat}
    (h : s.hostPiece w base r = .fail c t) :
    s.hostPieces w base (r.size + 1) r = ({ r.failed c with done := r.size, got := r.got ++ List.replicate r.size 0xFF }, t) := by
  rw [State.hostPieces, if_neg (by omega)]
  dsimp only
  rw [h, hdone, hpiece]
  dsimp only
  rw [Nat.zero_add]
  exact State.hostPieces_done (r := { r.failed c with done := r.size, got := r.got ++ List.replicate r.size 0xFF }) (Nat.le_refl _)

end

theorem State.noHostDie_false {p va : Nat} (h : s.hostDie p ≠ none) : s.noHostDie p va = false := by
  obtain ⟨d, hd⟩ := Option.ne_none_iff_exists'.mp h
  rw [State.noHostDie, hd]
  rfl

theorem State.hostRead_sram {w : Who} {vf va n pa : Nat} (hd : s.hostDie w.part ≠ none) (hf : s.sramFit w.part false va n pa false) :
    ∃ u, HostEdit s u ∧ s.hostRead w vf va n =
      if (s.clasp (s.plot (pa / 4096)).handle (destVf vf) n).1 = true then .ok (memRead s.sram pa n) u else .fail 0x42 u := by
  obtain ⟨pl, d, hr⟩ := State.unitRead_sram (w := w) (h := 0) hf
  generalize hs' : ({ s with plots := pl, dies := d } : State) = s' at hr
  obtain ⟨p, v, o, hc⟩ := s'.clasp_frame (s.plot (pa / 4096)).handle (destVf vf) n
  have hver := State.clasp_congr (s := s) (t := s') (by rw [← hs']) (by rw [← hs']) (s.plot (pa / 4096)).handle (destVf vf) n
  have hx : s.hostRead w vf va n = s.hostRead w vf va n := rfl
  conv at hx => rhs; unfold State.hostRead
  rw [State.noHostDie_false hd, if_neg Bool.false_ne_true, hr] at hx
  unfold Sync.bind at hx
  dsimp only at hx
  rw [← hver]
  generalize s'.clasp (s.plot (pa / 4096)).handle (destVf vf) n = x at hx hc ⊢
  obtain ⟨b, u⟩ := x
  refine ⟨u, ⟨pl, d, p, v, o, ?_⟩, hx.trans ?_⟩
  · rw [show u = _ from hc, ← hs']
  · cases b <;> rfl

theorem inAperture_true {vf off n : Nat} (hvf : vf < 384) (hn : 0 < n) (hoff : off + n ≤ 2 ^ 36) : inAperture vf off n = true := by
  simp only [inAperture, Bool.and_eq_true, decide_eq_true_eq]
  exact ⟨⟨hvf, hn⟩, hoff⟩

theorem exec_hostApertureRead_unbound {vf off n : Nat} (tag : Nat) (hvf : vf < 384) (hn : 0 < n) (hoff : off + n ≤ 2 ^ 36)
    (hp : (s.vf vf).part = none) : exec (.hostApertureRead vf off n tag) s =
      .next { s with pcie := s.pcie ++ [.completion tag (List.replicate n 0xFF) false] } := by
  show execHostApertureRead vf off n tag s = _
  unfold execHostApertureRead
  rw [inAperture_true hvf hn hoff, hp]
  rfl

/-- With no other request under way, a request of one piece ends in the step that it begins. -/
theorem State.hostRequest_whole {p : Nat} {r : HostReq} {x : HostReq × State} (hreqs : s.hostReqs = [])
    (hx : s.hostPieces (s.hostWho r.vf p (if r.write then 2 ^ 27 else r.tag % 2 ^ 27)) (s.vf r.vf).apbase (r.size + 1) r = x)
    (hdone : x.1.done ≥ x.1.size) (hsize : x.1.size = r.size) : s.hostRequest p r = .next ({ x.2 with hostReqs := [] }.hostEnd x.1) := by
  unfold State.hostRequest
  dsimp only
  rw [hreqs, List.find?_nil, Option.getD_none, List.filter_nil, List.any_nil, if_neg Bool.false_ne_true, hx,
    if_pos (hsize ▸ hdone)]

theorem State.hostEnd_passed {r : HostReq} (hw : r.write = false) (hf : r.fail = 0) :
    s.hostEnd r = { s with pcie := s.pcie ++ [.completion r.tag r.got false] } := by
  unfold State.hostEnd
  simp [hw, hf, State.hostAnswer]

theorem State.hostEnd_written {r : HostReq} (hw : r.write = true) (hf : r.fail = 0) : s.hostEnd r = s := by
  unfold State.hostEnd
  simp [hw, hf]

theorem State.hostEnd_refused {r : HostReq} (hw : r.write = false) (hf : r.fail ≠ 0) :
    ∃ v, s.hostEnd r = { s with vfs := v, pcie := s.pcie ++ [.completion r.tag (List.replicate r.size 0xFF) true] } := by
  unfold State.hostEnd
  dsimp only
  have hcount (u : State) (b : Prop) [Decidable b] (hi lo code : Nat) :
      ∃ v, (if b then u.vfCount r.vf hi lo code else u) = { u with vfs := v } := by
    split
    · exact ⟨_, rfl⟩
    · exact ⟨u.vfs, rfl⟩
  obtain ⟨v1, h1⟩ := hcount s (r.fail % 2 = 1) 47 40 (r.fail / 4)
  rw [h1]
  obtain ⟨v2, h2⟩ := hcount { s with vfs := v1 } (r.fail / 2 % 2 = 1) 63 48 (r.fail / 4)
  rw [h2, hw, if_neg hf]
  refine ⟨v2, ?_⟩
  simp [State.hostAnswer, hf]

theorem exec_hostApertureRead {vf off n tag p pa : Nat} (hfit : s.hostFit vf off n p pa false) :
    ∃ t, exec (.hostApertureRead vf off n tag) s = .next t ∧ t.sram = s.sram ∧ t.hbm = s.hbm ∧ t.hostReqs = [] ∧
      t.pcie = s.pcie ++ [if (s.clasp (s.plot (pa / 4096)).handle (destVf vf) n).1 = true
        then .completion tag (bytesOf n (memRead s.sram pa n)) false else .completion tag (List.replicate n 0xFF) true] := by
  obtain ⟨hvf, hn, hoff, hend, hp, hreqs, hdie, _, hsram⟩ := hfit
  have hpos : 0 < n := Nat.pos_of_ne_zero fun h => by simp [h] at hn
  let r : HostReq := { vf := vf, write := false, off := off, size := n, tag := tag, data := [], done := 0, got := [], fail := 0 }
  have hx : exec (.hostApertureRead vf off n tag) s = s.hostRequest p r := by
    show execHostApertureRead vf off n tag s = _
    unfold execHostApertureRead
    rw [inAperture_true hvf hpos hend, hp]
    rfl
  have hpiece : r.piece = r.size := HostReq.piece_whole hn hoff rfl
  obtain ⟨u, ⟨pl, d, q, v, o, hu⟩, hr⟩ := State.hostRead_sram (vf := vf) (w := s.hostWho vf p (tag % 2 ^ 27)) hdie hsram
  have hstep : s.hostPiece (s.hostWho vf p (tag % 2 ^ 27)) (s.vf vf).apbase r =
      (s.hostRead (s.hostWho vf p (tag % 2 ^ 27)) vf ((s.vf vf).apbase + off) n).bind fun v s => .ok (bytesOf n v) s := by
    unfold State.hostPiece
    dsimp only
    rw [hpiece]
    rfl
  rw [hr] at hstep
  cases hpass : (s.clasp (s.plot (pa / 4096)).handle (destVf vf) n).1
  · rw [hpass, if_neg Bool.false_ne_true] at hstep
    rw [hx, State.hostRequest_whole hreqs (State.hostPieces_fail (r := r) rfl hpiece hpos hstep) (Nat.le_refl _) rfl]
    obtain ⟨v', he⟩ := State.hostEnd_refused (s := { u with hostReqs := [] })
      (r := { r.failed 0x42 with done := r.size, got := r.got ++ List.replicate r.size 0xFF }) rfl (by simp [HostReq.failed])
    refine ⟨_, rfl, ?_⟩
    dsimp only
    rw [he, hu]
    exact ⟨rfl, rfl, rfl, rfl⟩
  · rw [hpass, if_pos rfl] at hstep
    rw [hx, State.hostRequest_whole hreqs (State.hostPieces_ok (r := r) rfl hpiece hpos hstep) (Nat.le_refl _) rfl,
      State.hostEnd_passed rfl rfl, hu]
    exact ⟨_, rfl, rfl, rfl, rfl, rfl⟩

theorem exec_hostApertureWrite {vf off p pa : Nat} {data : Bytes} {g : Handle} (hfit : s.hostFit vf off data.length p pa true)
    (hwf : s.sram.wf = true) (hg : s.grown (.sram pa) (s.ingress (destVf vf)) = .ok g) :
    ∃ t, exec (.hostApertureWrite vf off data) s = .next t ∧ t.hbm = s.hbm ∧ t.ctl = s.ctl ∧ t.pcie = s.pcie ∧ t.hostReqs = [] ∧
      (t.plot (pa / 4096)).handle = g ∧
      ∀ x, memByte t.sram x = if pa ≤ x ∧ x < pa + data.length then (data[x - pa]?).getD 0 else memByte s.sram x := by
  obtain ⟨hvf, hn, hoff, hend, hp, hreqs, hdie, _, hsram⟩ := hfit
  have hpos : 0 < data.length := Nat.pos_of_ne_zero fun h => by simp [h] at hn
  let r : HostReq :=
    { vf := vf, write := true, off := off, size := data.length, tag := 0, data := data, done := 0, got := [], fail := 0 }
  have hx : exec (.hostApertureWrite vf off data) s = s.hostRequest p r := by
    show execHostApertureWrite vf off data s = _
    unfold execHostApertureWrite
    rw [inAperture_true hvf hpos hend, hp]
    rfl
  have hpiece : r.piece = r.size := HostReq.piece_whole hn hoff rfl
  obtain ⟨u, hw, ⟨pl, d, hu⟩, hplot⟩ := State.unitWrite_sram (w := s.hostWho vf p (2 ^ 27)) (v := fieldOf data 0 data.length) hsram hg
  have hstep : s.hostPiece (s.hostWho vf p (2 ^ 27)) (s.vf vf).apbase r = .ok [] u := by
    unfold State.hostPiece
    dsimp only
    rw [hpiece]
    show Sync.bind (s.hostWrite (s.hostWho vf p (2 ^ 27)) vf ((s.vf vf).apbase + off) data.length (fieldOf data 0 data.length)) _ = _
    rw [State.hostWrite, State.noHostDie_false (p := (s.hostWho vf p (2 ^ 27)).part) hdie, if_neg Bool.false_ne_true, hw]
    rfl
  rw [hx, State.hostRequest_whole hreqs (State.hostPieces_ok (r := r) rfl hpiece hpos hstep) (Nat.le_refl _) rfl,
    State.hostEnd_written rfl rfl]
  refine ⟨{ u with hostReqs := [] }, rfl, ?_⟩
  have hh : (u.plot (pa / 4096)).handle = g := by rw [hplot]
  rw [hu] at hh ⊢
  refine ⟨rfl, rfl, rfl, rfl, hh, fun x => ?_⟩
  rw [show State.sram _ = memWrite s.sram pa data.length (fieldOf data 0 data.length) from rfl, memByte_memWrite _ _ _ _ hwf,
    fieldOf_all rfl, byte_numOf]

/-! ### Deliveries -/

theorem deliveryEntry_length (t : Token) (seq : BitVec 64) : (deliveryEntry t seq).length = 160 := by
  simp only [deliveryEntry, List.length_append, bytesOf_length]

section
variable {idx : Nat} {d : Delivery}

theorem exec_deliveryWrite (hd : s.deliveries[idx]? = some d)
    (hfirst : ∀ o ∈ s.deliveries.take idx, o.vf ≠ d.vf ∨ o.queue ≠ d.queue) (halive : s.alive d.ctx = true) (hrep : d.report = false) :
    exec (.deliveryWrite idx) s = match s.deliver d.vf d.queue d.out with
      | .full => idle s
      | .ok s1 => .next { s1.sinkDelivery d with deliveries := listDrop (s1.sinkDelivery d).deliveries idx }
      | .off s1 => .next { s1 with deliveries := listDrop s1.deliveries idx }
      | .refused s1 => .next (s1.refusedDelivery idx d) := by
  show execDeliveryWrite idx s = _
  unfold execDeliveryWrite
  rw [hd]
  dsimp only
  have hnone : ¬ ((s.deliveries.take idx).any fun o => o.vf == d.vf && o.queue == d.queue) = true := by
    rw [List.any_eq_true]
    rintro ⟨o, ho, heq⟩
    obtain ⟨hvf, hq⟩ := Bool.and_eq_true_iff.mp heq
    exact (hfirst o ho).elim (fun h => h (eq_of_beq hvf)) fun h => h (eq_of_beq hq)
  have hreported (u : State) : u.reported d = u := if_pos (by rw [hrep]; rfl)
  rw [if_neg hnone, if_neg (by simp [halive])]
  cases s.deliver d.vf d.queue d.out with
  | full => rfl
  | ok u => dsimp only; rw [hreported]
  | off u => dsimp only; rw [hreported]
  | refused u => rfl

theorem exec_deliveryWrite_off (hd : s.deliveries[idx]? = some d)
    (hfirst : ∀ o ∈ s.deliveries.take idx, o.vf ≠ d.vf ∨ o.queue ≠ d.queue) (halive : s.alive d.ctx = true) (hrep : d.report = false)
    (hen : ((s.vf d.vf).queue d.queue).en = false) :
    exec (.deliveryWrite idx) s = .next { s.vfCount d.vf 15 8 0 with deliveries := listDrop s.deliveries idx } := by
  have hoff : s.deliver d.vf d.queue d.out = .off (s.vfCount d.vf 15 8 0) := if_pos (by rw [hen]; rfl)
  rw [exec_deliveryWrite hd hfirst halive hrep, hoff] <;> rfl

theorem exec_deliveryWrite_written (hd : s.deliveries[idx]? = some d)
    (hfirst : ∀ o ∈ s.deliveries.take idx, o.vf ≠ d.vf ∨ o.queue ≠ d.queue) (halive : s.alive d.ctx = true) (hrep : d.report = false)
    {c : QueueCtl} (hc : (s.vf d.vf).queue d.queue = c) (hen : c.en = true) (hfull : c.full = false) (hpoison : d.tok.poison = false)
    (hpass : (s.clasp d.tok.plate (destVf d.vf) d.tok.bytes).1 = true) :
    ∃ t, exec (.deliveryWrite idx) s = .next t ∧ t.deliveries = listDrop s.deliveries idx ∧
      (t.vf d.vf).queue d.queue = { c with seq := c.seq + 1 } ∧
      t.pcie = s.pcie ++ [.write (c.base + 160 * (c.seq.toNat % 2 ^ c.log2n)) (deliveryEntry d.tok c.seq),
        .write c.pidxa (bytesOf 8 ((c.seq.toNat + 1) % 2 ^ 32))] ++ (if c.irq then [.msix d.vf d.queue] else []) := by
  have hout : d.out = d.tok := if_neg (by simp [hpoison])
  obtain ⟨p, v, o, hu⟩ := s.clasp_frame d.tok.plate (destVf d.vf) d.tok.bytes
  have hx : s.deliver d.vf d.queue d.tok = s.deliver d.vf d.queue d.tok := rfl
  conv at hx => rhs; unfold State.deliver
  dsimp only at hx
  rw [hc, if_neg (by simp [hen]), if_neg (by simp [hfull])] at hx
  generalize s.clasp d.tok.plate (destVf d.vf) d.tok.bytes = x at hx hpass hu
  obtain ⟨b, u⟩ := x
  obtain rfl : b = true := hpass
  obtain rfl : u = _ := hu
  dsimp only at hx
  have hsink (w : State) : w.sinkDelivery d = w := if_pos (by simp [hpoison])
  have hx2 := exec_deliveryWrite hd hfirst halive hrep
  rw [hout, hx] at hx2
  dsimp only at hx2
  rw [hsink] at hx2
  refine ⟨_, hx2, rfl, ?_, ?_⟩
  · show (((tabGet (tabPut v d.vf _) d.vf).getD Vf.unbound).queue d.queue) = _
    rw [tabGet_tabPut_same]
    show (tabGet (tabPut _ d.queue _) d.queue).getD QueueCtl.reset = _
    rw [tabGet_tabPut_same]
    rfl
  · unfold State.ringWrite
    rw [deliveryEntry_length]
    rfl

end

/-! ### Queue controls and registers -/

section
variable {vf queue : Nat}

theorem vfKnown_true (h : vf < 384 ∨ vf = pfNum) : vfKnown vf = true := by
  rcases h with h | h <;> simp [vfKnown, h]

theorem exec_cidxWrite (hvf : vf < 384 ∨ vf = pfNum) (hq : queue ≤ 255) (value : Word) : exec (.cidxWrite vf queue value) s =
    .next (s.setVf vf ((s.vf vf).setControl queue { (s.vf vf).control queue with cidx := value })) := by
  show execCidxWrite vf queue value s = _
  unfold execCidxWrite
  rw [if_neg (by simp [vfKnown_true hvf]; omega)]

/-- The control and the flags byte that a write of EN names. -/
theorem exec_queueEnableWrite (hvf : vf < 384 ∨ vf = pfNum) (hq : queue ≤ 255) {data : Bytes} (hdata : data ≠ []) {c : QueueCtl}
    {flags : Nat} (hc : (if data.length ≥ 18 then ((s.vf vf).control queue).put 0 (data.take 17) else (s.vf vf).control queue) = c)
    (hflags : (if data.length ≥ 18 then fieldOf data 17 1 else fieldOf data 0 1) = flags)
    (hndq : flags % 2 = 0 ∨ queue = 255 ∨ queue < (s.vf vf).ndq) :
    exec (.queueEnableWrite vf queue data) s =
      if flags % 2 = 0 then .next (s.setVf vf ((s.vf vf).setControl queue { c with en := false, irq := flags / 2 % 2 == 1 }))
      else if !c.enableOk (queue == 255) flags then
        .next ((s.setVf vf ((s.vf vf).setControl queue { c with en := false, irq := flags / 2 % 2 == 1 })).vfCount vf 7 0 0)
      else .next (s.setVf vf ((s.vf vf).setControl queue { c with en := true, irq := flags / 2 == 1, cidx := 0, seq := 0 })) := by
  show execQueueEnableWrite vf queue data s = _
  unfold execQueueEnableWrite
  rw [if_neg (by simp [vfKnown_true hvf]; omega)]
  dsimp only
  simp only [decide_eq_true_eq]
  rw [hc, hflags]
  refine if_neg ?_
  rintro (h | ⟨h1, h2, h3⟩)
  · exact hdata h
  · omega

theorem exec_registerWrite_queue (hvf : vf < 384 ∨ vf = pfNum) (hq : queue < 255) {off : Nat} (hoff : off < 32) (data : Bytes) :
    exec (.registerWrite vf (0x2000 + 32 * queue + off) data) s =
      .next (s.setVf vf ((s.vf vf).setControl queue (((s.vf vf).control queue).put off data))) := by
  show execRegisterWrite vf (0x2000 + 32 * queue + off) data s = _
  unfold execRegisterWrite
  rw [if_neg (by simp [vfKnown_true hvf])]
  dsimp only
  rw [if_pos (by omega), show (0x2000 + 32 * queue + off - 0x2000) / 32 = queue by omega,
    show (0x2000 + 32 * queue + off) % 32 = off by omega]

theorem overlay_all {old data : Bytes} (h : data.length = old.length) : overlay old 0 data = data := by
  refine List.ext_getElem (by simp [overlay, h]) fun i hi hi' => ?_
  simp only [overlay, List.getElem_map, List.getElem_range, Nat.zero_le, Nat.zero_add, Nat.sub_zero, true_and]
  rw [if_pos hi', List.getElem?_eq_getElem hi', Option.getD_some]

theorem exec_registerWrite_apbase (hvf : vf < 384) {data : Bytes} (hlen : data.length = 8) (hal : numOf data % 2 ^ 36 = 0) :
    exec (.registerWrite vf 0x4080 data) s = .next (s.setVf vf { s.vf vf with apbase := numOf data }) := by
  show execRegisterWrite vf 0x4080 data s = _
  unfold execRegisterWrite
  rw [if_neg (by simp [vfKnown_true (.inl hvf)])]
  dsimp only
  rw [if_neg (by omega), if_neg (by omega), if_neg (by omega), if_pos ⟨by unfold pfNum; omega, by omega, by omega⟩,
    show 0x4080 - 0x4080 = 0 from rfl, overlay_all (by rw [hlen, bytesOf_length]), fieldOf_all hlen, if_pos hal]

/-- Seven numbers at the places of the status fields stand side by side. -/
theorem statusSum_fields {a b c d e f g : Nat} (ha : a < 2 ^ 16) (hb : b < 2 ^ 8) (hc : c < 2 ^ 8) (hd : d < 2 ^ 8) (he : e < 2 ^ 8)
    (hf : f < 2 ^ 8) (hg : g < 2 ^ 8) {n : Nat}
    (hn : (a * 2 ^ 48 + b * 2 ^ 40 + c * 2 ^ 32 + d * 2 ^ 24 + e * 2 ^ 16 + f * 2 ^ 8 + g * 2 ^ 0) % 2 ^ 64 = n) :
    bitF n 63 48 = a ∧ bitF n 47 40 = b ∧ bitF n 39 32 = c ∧ bitF n 31 24 = d ∧ bitF n 23 16 = e ∧ bitF n 15 8 = f ∧ bitF n 7 0 = g := by
  simp only [bitF]
  omega

/-- A written status word clears the fields that it holds as zero and no other. -/
theorem bitF_statusWritten (old v : Nat) {f : Nat × Nat} (hf : f ∈ statusFields) :
    bitF (BitVec.ofNat 64 (statusWritten old v)).toNat f.1 f.2 = if bitF v f.1 f.2 = 0 then 0 else bitF old f.1 f.2 := by
  have hfield (hi lo : Nat) : (if bitF v hi lo = 0 then 0 else bitF old hi lo * 2 ^ lo) =
      (if bitF v hi lo = 0 then 0 else bitF old hi lo) * 2 ^ lo := by
    split <;> simp
  have hlt (hi lo : Nat) : (if bitF v hi lo = 0 then 0 else bitF old hi lo) < 2 ^ (hi + 1 - lo) := by
    split
    · exact Nat.two_pow_pos _
    · exact Nat.mod_lt _ (Nat.two_pow_pos _)
  have hsum := statusSum_fields (hlt 63 48) (hlt 47 40) (hlt 39 32) (hlt 31 24) (hlt 23 16) (hlt 15 8) (hlt 7 0) rfl
  obtain ⟨h1, h2, h3, h4, h5, h6, h7⟩ := hsum
  rw [BitVec.toNat_ofNat]
  simp only [statusWritten, statusFields, List.foldl, hfield, Nat.zero_add]
  simp only [statusFields, List.mem_cons, List.not_mem_nil, or_false] at hf
  rcases hf with rfl | rfl | rfl | rfl | rfl | rfl | rfl
  · exact h1
  · exact h2
  · exact h3
  · exact h4
  · exact h5
  · exact h6
  · exact h7

theorem exec_vfStatusWrite (hvf : vf < 384 ∨ vf = pfNum) (value : BitVec 64) : exec (.vfStatusWrite vf value) s =
    .next (s.setVf vf { s.vf vf with status := BitVec.ofNat 64 (statusWritten (s.vf vf).status.toNat value.toNat) }) := by
  show execVfStatusWrite vf value s = _
  unfold execVfStatusWrite
  rw [if_neg (by simp [vfKnown_true hvf])]

end

/-! ### Completions of requests to the host -/

theorem State.waitsHost_true {tag : Nat} (h : ∃ o ∈ s.outside, o.tag = tag ∧ o.accel = none ∧ o.resp = none) :
    s.waitsHost tag = true := by
  obtain ⟨o, ho, htag, hacc, hresp⟩ := h
  exact List.any_eq_true.mpr ⟨o, ho, by simp [htag, hacc, hresp]⟩

theorem exec_hostWindowCompletion_data {tag : Nat} (h : s.waitsHost tag = true) {data : Bytes}
    (hlen : ∀ o ∈ s.outside, o.tag = tag → data.length = o.size) :
    exec (.hostWindowCompletion tag 0 data) s = .next (s.answer tag 0 (numOf data)) := by
  have hall : s.outside.all (fun o => o.tag != tag || data.length == o.size) = true := by
    refine List.all_eq_true.mpr fun o ho => ?_
    by_cases ht : o.tag = tag
    · simp [hlen o ho ht]
    · simp [ht]
  show execHostWindowCompletion tag 0 data s = _
  unfold execHostWindowCompletion
  rw [if_neg (by simp [h]), if_pos ⟨rfl, hall⟩]

theorem exec_hostWindowCompletion_error {tag status : Nat} (h : s.waitsHost tag = true) (hst : status ≠ 0) (data : Bytes) :
    exec (.hostWindowCompletion tag status data) s = .next (s.answer tag 0xF1 0) := by
  show execHostWindowCompletion tag status data s = _
  unfold execHostWindowCompletion
  rw [if_neg (by simp [h]), if_neg fun hc => hst hc.1]

end

end Sys2Proof.Machine

open Sys2Proof Sys2Proof.Machine in
/-- Settles O49: a request of one piece ends in the step that it begins, past the Clasp whose verdict the access itself does not
touch. -/
theorem hostAccessResults : Obligations.HostAccessResults := by
  unfold Obligations.HostAccessResults
  refine ⟨fun s vf off n tag hvf hn hoff hp => exec_hostApertureRead_unbound tag hvf hn hoff hp,
    fun s vf off n tag p pa hfit => exec_hostApertureRead hfit,
    fun s vf off p pa data g hfit hwf hg => exec_hostApertureWrite hfit hwf hg,
    fun s idx d hd hfirst halive hrep => ⟨exec_deliveryWrite_off hd hfirst halive hrep,
      exec_deliveryWrite_written hd hfirst halive hrep rfl⟩,
    fun s vf queue hvf hq => ⟨exec_cidxWrite hvf hq, fun data hdata => ?_, fun off data hq' hoff =>
      exec_registerWrite_queue hvf hq' hoff data⟩,
    fun s vf data hvf hlen hal => exec_registerWrite_apbase hvf hlen hal,
    fun s vf value hvf => ⟨_, exec_vfStatusWrite hvf value, fun f hf => bitF_statusWritten _ _ hf⟩,
    fun s tag hw => ⟨fun data => exec_hostWindowCompletion_data (State.waitsHost_true hw), fun status data hst =>
      exec_hostWindowCompletion_error (State.waitsHost_true hw) hst data, if_pos (State.waitsHost_true hw)⟩⟩
  refine ⟨fun h0 => ?_, fun h1 hndq hbad => ?_, fun h1 hndq hok => ?_⟩
  · rw [exec_queueEnableWrite hvf hq hdata rfl rfl (.inl h0), if_pos h0]
  · rw [exec_queueEnableWrite hvf hq hdata rfl rfl (.inr hndq), if_neg (by rw [h1]; decide), if_pos (by rw [hbad]; rfl)]
  · rw [exec_queueEnableWrite hvf hq hdata rfl rfl (.inr hndq), if_neg (by rw [h1]; decide), if_neg (by rw [hok]; decide)]

/-! SUPPORT. The requests of peers, flits, lanes, the domain configuration and the debug port (R26, R84, R94, R417 to R421). -/

namespace Sys2Proof.Machine

theorem bytesOf_ones : ∀ n : Nat, bytesOf n (2 ^ (8 * n) - 1) = List.replicate n 0xFF
  | 0 => rfl
  | n + 1 => by
    have hpow : 2 ^ (8 * (n + 1)) = 256 * 2 ^ (8 * n) := by rw [Nat.mul_succ, Nat.pow_add]; omega
    have hpos : 0 < 2 ^ (8 * n) := Nat.two_pow_pos _
    have hbyte : BitVec.ofNat 8 (2 ^ (8 * (n + 1)) - 1) = 0xFF := by
      apply BitVec.eq_of_toNat_eq
      rw [BitVec.toNat_ofNat, hpow]
      show _ = 255
      omega
    rw [bytesOf, hbyte, show (2 ^ (8 * (n + 1)) - 1) / 256 = 2 ^ (8 * n) - 1 by omega, bytesOf_ones n]
    rfl

section
variable {s t : State}

/-! ### Requests of a peer -/

theorem State.sendFlit_frame (s : State) (m : FlitMsg) : ∃ p, s.sendFlit m =
    { s with ports := p, linkOut := s.linkOut ++ [(0, m.bytes (s.port 0).txSeq.toNat)] } := ⟨_, rfl⟩

section
variable {accel pa size : Nat}

/-- A peer's address that names whole aligned bytes of a channel that is there. -/
theorem State.peerCheck_ok (hpa : pa < 2 ^ 40) (hsize : size ∈ [1, 2, 4, 8, 16, 32, 64, 128]) (hal : pa % size = 0)
    (hret : s.retired.contains (.chan (pa / 2 ^ 31)) = false) : s.peerCheck pa size = 0 := by
  unfold State.peerCheck
  rw [if_neg (by omega), if_neg (by rw [List.contains_iff_mem.mpr hsize]; simp [hal]),
    if_neg (by rw [State.chanGone, hret]; exact Bool.false_ne_true)]

/-- A read of a peer goes past the Clasp. -/
theorem State.peerPerform_read (hcheck : s.peerCheck pa size = 0) (hawake : s.stackAwake pa = true) (he : s.errs = []) (aop : Nat)
    (data : Bytes) : ∃ u p v o, u = { s with policies := p, vfs := v, eventsOut := o } ∧ s.peerPerform accel 1 aop pa size data =
      (some (if (s.clasp (s.mapHandle pa) (destPeer accel) size).1 = true then (0, memRead s.hbm pa size)
        else (0x42, 2 ^ (8 * size) - 1)), u) := by
  obtain ⟨p, v, o, hu⟩ := s.clasp_frame (s.mapHandle pa) (destPeer accel) size
  have hmeet : s.meetErrs (s.peerPlace pa) size noCtx = s := State.readErrs_none he ..
  have hcode : s.readCode (s.peerPlace pa) size = 0 := by
    simp only [State.peerPlace, State.readCode, State.uncIn_none he]
    rfl
  have hx : s.peerPerform accel 1 aop pa size data = s.peerPerform accel 1 aop pa size data := rfl
  conv at hx => rhs; unfold State.peerPerform
  dsimp only at hx
  rw [hcheck, if_neg (not_not_intro rfl), if_neg (by rw [hawake]; decide), if_pos rfl, hmeet, hcode, if_neg (not_not_intro rfl),
    show s.placeHandle (s.peerPlace pa) = s.mapHandle pa from rfl, show s.readPlace (s.peerPlace pa) size = memRead s.hbm pa size from rfl]
    at hx
  generalize s.clasp (s.mapHandle pa) (destPeer accel) size = x at hx hu ⊢
  obtain ⟨b, u⟩ := x
  exact ⟨u, p, v, o, hu, hx.trans (by cases b <;> rfl)⟩

/-- A write of a peer changes its bytes; the growth of the page's handle may change its leaf. -/
theorem State.peerPerform_write (hcheck : s.peerCheck pa size = 0) (hawake : s.stackAwake pa = true) (he : s.errs = [])
    (hwf : s.hbm.wf = true) {g : Handle} (hg : s.union (s.ingress (destPeer accel)) (s.mapHandle pa) = .ok g) (aop : Nat)
    {data : Bytes} (hlen : data.length = size) :
    ∃ u pm m c, u = { s with pageMap := pm, hbm := m, cached := c } ∧ s.peerPerform accel 3 aop pa size data = (some (0, 0), u) ∧
      ∀ x, ¬ ((s.leafOver pa).1 ≤ x ∧ x < (s.leafOver pa).1 + 8) → memByte m x =
        if pa ≤ x ∧ x < pa + size then (data[x - pa]?).getD 0 else memByte s.hbm x := by
  have hcode : s.writeCode (s.peerPlace pa) size = 0 := by
    simp only [State.peerPlace, State.writeCode, State.partUnc_none he]
    rfl
  have hgrown : s.grown (s.peerPlace pa) (s.ingress (destPeer accel)) = .ok g := hg
  have hwrite (v : Nat) : s.writePlace (s.peerPlace pa) size v = { s with hbm := memWrite s.hbm pa size v } :=
    State.writeErrs_none (s := { s with hbm := memWrite s.hbm pa size v }) he .hbm pa size
  obtain ⟨pm, m, c, hset, hbytes⟩ := State.setPlace_hbm (s := { s with hbm := memWrite s.hbm pa size (numOf data) })
    (memWrite_wf _ _ _ hwf) pa (s.leafOver pa).1 (s.leafOver pa).2 g
  refine ⟨_, pm, m, c, rfl, ?_, fun x hx => ?_⟩
  · have hx : s.peerPerform accel 3 aop pa size data = s.peerPerform accel 3 aop pa size data := rfl
    conv at hx => rhs; unfold State.peerPerform
    dsimp only at hx
    rw [hcheck, if_neg (not_not_intro rfl), if_neg (by rw [hawake]; decide), if_neg (by decide), if_pos rfl, hcode,
      if_neg (not_not_intro rfl), hgrown] at hx
    dsimp only at hx
    rw [fieldOf_all hlen, hwrite] at hx
    exact hx.trans (congrArg (Prod.mk _) hset)
  · rw [hbytes x hx, ← byte_numOf]
    exact memByte_memWrite _ _ _ _ hwf

theorem exec_peerRequestArrival {kind : Nat} {va : BitVec 64} (hacc : accel < 4096) (hl : (s.port 0).lanes ≠ 0)
    (hkind : kind = 1 ∨ kind = 3) {data : Bytes} {code v : Nat} {u : State}
    (hp : s.peerPerform accel kind 0 va.toNat size data = (some (code, v), u)) (hport : u.ports = s.ports) (hsrc : u.accel = s.accel)
    (hlink : u.linkOut = s.linkOut) :
    ∃ p, exec (.peerRequestArrival accel kind va size data) s = .next { u with
      ports := p
      linkOut := s.linkOut ++ [(0, FlitMsg.bytes
        { dest := accel, kind := kind + 1, src := s.accel, vc := 1, tag := 0, addr := va.toNat, size := size, aop := 0,
          status := code, data := bytesOf (if kind = 1 then size else 0) v } (s.port 0).txSeq.toNat)] } := by
  have hreq : s.peerRequest accel kind 0 0 va.toNat size data = (some (u.sendFlit
      { dest := accel, kind := kind + 1, src := s.accel, vc := 1, tag := 0, addr := va.toNat, size := size, aop := 0, status := code,
        data := bytesOf (if kind = 1 then size else 0) v }), u) := by
    unfold State.peerRequest
    rw [hp]
    dsimp only
    rw [hsrc]
    rcases hkind with rfl | rfl <;> rfl
  obtain ⟨p, hf⟩ := u.sendFlit_frame
    { dest := accel, kind := kind + 1, src := s.accel, vc := 1, tag := 0, addr := va.toNat, size := size, aop := 0, status := code,
      data := bytesOf (if kind = 1 then size else 0) v }
  have hpn : u.port 0 = s.port 0 := by rw [State.port, hport]; rfl
  rw [hf, hlink, hpn] at hreq
  refine ⟨p, ?_⟩
  show execPeerRequestArrival accel kind va size data s = _
  unfold execPeerRequestArrival
  have hmod : kind % 16 = kind ∧ kind / 16 = 0 := by omega
  rw [if_neg (by rcases hkind with rfl | rfl <;> simp [hl] <;> omega), hmod.1, hmod.2, hreq]

end

/-! ### Flits and lanes -/

theorem exec_flitReceive_bad {b : Bytes} (hlen : b.length = 256) (hl : (s.port 0).lanes ≠ 0)
    (hbad : fieldOf b 248 8 ≠ (crc64 (b.take 248)).toNat ∨ fieldOf b 4 2 ≠ (s.port 0).rxSeq.toNat) :
    exec (.flitReceive 0 b) s = .next s := by
  show execFlitReceive 0 b s = _
  unfold execFlitReceive
  dsimp only
  rw [if_neg (by simp [hlen, hl]), if_pos hbad]
  rfl

theorem State.answer_one {o : Outside} (hout : s.outside = [o]) (hresp : o.resp = none) (code v : Nat) :
    s.answer o.tag code v = { s with outside := [{ o with resp := some (code, v) }] } := by
  unfold State.answer
  rw [hout, List.map_singleton, if_pos ⟨rfl, by rw [hresp]; rfl⟩]

/-- A flit that answers the only request outside the package completes it. -/
theorem State.takeFlit_answer {m : FlitMsg} {o : Outside} (hkind : m.kind = 2 ∨ m.kind = 4 ∨ m.kind = 6) (hout : s.outside = [o])
    (htag : o.tag = m.tag) (hacc : o.accel = some m.src) (hresp : o.resp = none) :
    s.takeFlit m = (some { s with outside := [{ o with resp := some (m.status, fieldOf m.data 0 o.size) }] }, s) := by
  have hmine : (o.tag == m.tag && o.accel == some m.src) = true := by simp [htag, hacc]
  have hanswer := (congrArg (s.answer · m.status (fieldOf m.data 0 o.size)) htag).symm.trans (State.answer_one hout hresp _ _)
  have hfind : s.outside.find? (fun o => o.tag == m.tag && o.accel == some m.src) = some o := by
    rw [hout]
    exact List.find?_cons_of_pos (p := fun o : Outside => o.tag == m.tag && o.accel == some m.src) hmine
  have hany : s.outside.any (fun o => o.tag == m.tag && o.accel == some m.src) = true := by
    rw [hout, List.any_cons, hmine, Bool.true_or]
  have hx : s.takeFlit m = s.takeFlit m := rfl
  conv at hx => rhs; unfold State.takeFlit
  dsimp only at hx
  rw [hfind, hany, if_pos rfl] at hx
  dsimp only at hx
  rw [hanswer] at hx
  rcases hkind with h | h | h <;> rw [h] at hx <;> exact hx

theorem exec_flitReceive_answer {b : Bytes} {o : Outside} (hlen : b.length = 256) (hl : (s.port 0).lanes ≠ 0)
    (hcrc : fieldOf b 248 8 = (crc64 (b.take 248)).toNat) (hseq : fieldOf b 4 2 = (s.port 0).rxSeq.toNat) (hok : flitOk b = true)
    (hkind : (flitMsg b).kind = 2 ∨ (flitMsg b).kind = 4 ∨ (flitMsg b).kind = 6) (hout : s.outside = [o])
    (htag : o.tag = (flitMsg b).tag) (hacc : o.accel = some (flitMsg b).src) (hresp : o.resp = none) :
    exec (.flitReceive 0 b) s = .next { (s.setPort 0 { s.port 0 with rxSeq := (s.port 0).rxSeq + 1 }) with
      outside := [{ o with resp := some ((flitMsg b).status, fieldOf (flitMsg b).data 0 o.size) }] } := by
  show execFlitReceive 0 b s = _
  unfold execFlitReceive
  dsimp only
  rw [if_neg (by simp [hlen, hl]), if_neg (by simp [hcrc, hseq]), if_neg (by rw [hok]; decide),
    State.takeFlit_answer hkind hout htag hacc hresp]
  rfl

theorem State.retrain_spec (s : State) (lanes : Nat) : (s.retrain 0 lanes).port 0 = { s.port 0 with lanes := lanes } ∧
    (s.retrain 0 lanes).linkOut = if lanes = 0 then s.linkOut else s.linkOut ++ (s.port 0).replay.map fun b => (0, b) := by
  have hu : ∃ u e, s.retrain 0 lanes = State.event u pfNum e ∧ u.ports = tabPut s.ports 0 { s.port 0 with lanes := lanes } ∧
      u.linkOut = if lanes = 0 then s.linkOut else s.linkOut ++ (s.port 0).replay.map fun b => (0, b) := by
    refine ⟨_, _, rfl, ?_, ?_⟩ <;> split <;> rfl
  obtain ⟨u, e, hr, hports, hlink⟩ := hu
  obtain ⟨v, o, he⟩ := u.event_frame pfNum e
  rw [hr, he]
  refine ⟨?_, hlink⟩
  show (tabGet u.ports 0).getD LinkPort.fresh = _
  rw [hports, tabGet_tabPut_same]
  rfl

theorem exec_linkLaneLoss {lanes : Nat} (hl : lanes ∈ [0, 16, 32]) (hless : lanes < (s.port 0).lanes) :
    exec (.linkLaneLoss 0 lanes) s = .next (s.retrain 0 lanes) := if_pos ⟨rfl, List.contains_iff_mem.mpr hl, hless⟩

theorem exec_linkLanesUp {lanes : Nat} (hl : lanes ∈ [16, 32, 64]) (hmore : (s.port 0).lanes < lanes) :
    exec (.linkLanesUp 0 lanes) s = .next (s.retrain 0 lanes) := if_pos ⟨rfl, List.contains_iff_mem.mpr hl, hmore⟩

theorem exec_peerTimeout {o : Outside} (hout : s.outside = [o]) (hacc : o.accel ≠ none) (hresp : o.resp = none)
    (hlate : s.cyclesSince (s.outDie o) o.since ≥ 2 ^ 22 ∨ (s.port 0).lanes = 0) :
    exec (.peerTimeout o.tag) s = .next { s with outside := [{ o with resp := some (0xF2, 0) }] } := by
  have hmine : (o.tag == o.tag && o.accel.isSome && o.resp.isNone) = true := by
    simp [hresp, Option.isSome_iff_ne_none.mpr hacc]
  show execPeerTimeout o.tag s = _
  unfold execPeerTimeout
  have hfind : s.outside.find? (fun o' => o'.tag == o.tag && o'.accel.isSome && o'.resp.isNone) = some o := by
    rw [hout]
    exact List.find?_cons_of_pos (p := fun o' : Outside => o'.tag == o.tag && o'.accel.isSome && o'.resp.isNone) hmine
  rw [hfind]
  dsimp only
  rw [if_pos hlate, State.answer_one hout hresp]

/-! ### The domain configuration -/

theorem fieldOf_one (b : Bytes) (off : Nat) : fieldOf b off 1 = ((b[off]?).getD 0).toNat := by
  rw [fieldOf, ← List.head?_drop]
  cases b.drop off with
  | nil => rfl
  | cons x r => simp [numOf]

theorem fieldOf_two (b : Bytes) : fieldOf b 0 2 = ((b[0]?).getD 0).toNat + 256 * ((b[1]?).getD 0).toNat := by
  rw [fieldOf, List.drop_zero]
  match b with
  | [] => rfl
  | [x] => simp [numOf]
  | x :: y :: r => simp [numOf]

theorem overlay_get (old : Bytes) (off : Nat) (data : Bytes) {i : Nat} (hi : i < old.length) : (overlay old off data)[i]?.getD 0 =
    if off ≤ i ∧ i < off + data.length then (data[i - off]?).getD 0 else (old[i]?).getD 0 := by
  simp only [overlay, List.getElem?_map, List.getElem?_range hi, Option.map_some, Option.getD_some]

/-- Eight bits as a byte of the presence map. -/
def bitsByte (f : Nat → Bool) : Nat := ((List.range 8).filter f).foldl (fun n j => n + 2 ^ j) 0

theorem testBit_bitsByte (f : Nat → Bool) {j : Nat} (hj : j < 8) : (BitVec.ofNat 8 (bitsByte f)).toNat.testBit j = f j := by
  have hbit (i : Nat) : ∃ b : Nat, b < 2 ∧ (if f i = true then 2 ^ i else 0) = b * 2 ^ i ∧ (f i = true ↔ b = 1) := by
    cases h : f i
    · exact ⟨0, by simp⟩
    · exact ⟨1, by simp⟩
  have hfold : bitsByte f = [0, 1, 2, 3, 4, 5, 6, 7].foldl (fun n i => n + if f i = true then 2 ^ i else 0) 0 := by
    rw [bitsByte, List.foldl_filter, show List.range 8 = [0, 1, 2, 3, 4, 5, 6, 7] from rfl]
    congr 1
    funext n i
    split <;> rfl
  obtain ⟨b0, h0, e0, i0⟩ := hbit 0
  obtain ⟨b1, h1, e1, i1⟩ := hbit 1
  obtain ⟨b2, h2, e2, i2⟩ := hbit 2
  obtain ⟨b3, h3, e3, i3⟩ := hbit 3
  obtain ⟨b4, h4, e4, i4⟩ := hbit 4
  obtain ⟨b5, h5, e5, i5⟩ := hbit 5
  obtain ⟨b6, h6, e6, i6⟩ := hbit 6
  obtain ⟨b7, h7, e7, i7⟩ := hbit 7
  have hsum : bitsByte f = b0 + 2 * b1 + 4 * b2 + 8 * b3 + 16 * b4 + 32 * b5 + 64 * b6 + 128 * b7 := by
    rw [hfold]
    simp only [List.foldl, e0, e1, e2, e3, e4, e5, e6, e7]
    omega
  rw [BitVec.toNat_ofNat, hsum, Bool.eq_iff_iff, Nat.testBit_eq_decide_div_mod_eq, decide_eq_true_eq]
  have hcases : j = 0 ∨ j = 1 ∨ j = 2 ∨ j = 3 ∨ j = 4 ∨ j = 5 ∨ j = 6 ∨ j = 7 := by omega
  rcases hcases with rfl | rfl | rfl | rfl | rfl | rfl | rfl | rfl
  · rw [i0]; omega
  · rw [i1]; omega
  · rw [i2]; omega
  · rw [i3]; omega
  · rw [i4]; omega
  · rw [i5]; omega
  · rw [i6]; omega
  · rw [i7]; omega

theorem State.domainBytes_length (s : State) : s.domainBytes.length = 520 := by
  simp only [State.domainBytes, List.length_append, bytesOf_length, List.length_map, List.length_range]

theorem State.domainBytes_presence (s : State) {i : Nat} (hi : i < 512) :
    (s.domainBytes[8 + i]?).getD 0 = BitVec.ofNat 8 (bitsByte fun j => s.presence.contains (8 * i + j)) := by
  rw [State.domainBytes, List.getElem?_append_right (by simp [bytesOf_length])]
  simp only [List.length_append, bytesOf_length, List.getElem?_map]
  rw [show 8 + i - (2 + 6) = i by omega, List.getElem?_range hi]
  rfl

theorem State.domainBytes_accel (h : s.accel < 2 ^ 16) : fieldOf s.domainBytes 0 2 = s.accel := by
  rw [fieldOf_two]
  show (BitVec.ofNat 8 s.accel).toNat + 256 * (BitVec.ofNat 8 (s.accel / 256)).toNat = _
  simp only [BitVec.toNat_ofNat]
  omega

theorem State.domain_accel (ha : s.accel < 2 ^ 16) {off : Nat} (hoff : 2 ≤ off) (data : Bytes) :
    fieldOf (overlay s.domainBytes off data) 0 2 = s.accel := by
  have hlen := s.domainBytes_length
  rw [fieldOf_two, overlay_get _ _ _ (by omega), overlay_get _ _ _ (by omega), if_neg (by omega), if_neg (by omega), ← fieldOf_two,
    State.domainBytes_accel ha]

theorem State.domain_accel_written {data : Bytes} (hdata : data.length = 2) :
    fieldOf (overlay s.domainBytes 0 data) 0 2 = fieldOf data 0 2 := by
  have hlen := s.domainBytes_length
  rw [fieldOf_two, overlay_get _ _ _ (by omega), overlay_get _ _ _ (by omega), if_pos (by omega), if_pos (by omega), ← fieldOf_two]

theorem State.domain_presence (s : State) (off : Nat) (data : Bytes) {n : Nat} (hn : n < 4096) :
    (fieldOf (overlay s.domainBytes off data) (8 + n / 8) 1).testBit (n % 8) = true ↔
      if off ≤ 8 + n / 8 ∧ 8 + n / 8 < off + data.length then (fieldOf data (8 + n / 8 - off) 1).testBit (n % 8) = true
      else n ∈ s.presence := by
  have hlen := s.domainBytes_length
  rw [fieldOf_one, overlay_get _ _ _ (by omega)]
  split
  · rw [fieldOf_one]
  · rw [s.domainBytes_presence (by omega), testBit_bitsByte _ (by omega), List.contains_iff_mem, Nat.div_add_mod]

theorem exec_domainConfigWrite (s : State) (off : Nat) (data : Bytes) : ∃ a l, exec (.domainConfigWrite off data) s = .next { s with
    accel := a, presence := l } ∧ a = fieldOf (overlay s.domainBytes off data) 0 2 ∧
    ∀ n, n ∈ l ↔ n < 4096 ∧ (if off ≤ 8 + n / 8 ∧ 8 + n / 8 < off + data.length
      then (fieldOf data (8 + n / 8 - off) 1).testBit (n % 8) = true else n ∈ s.presence) := by
  refine ⟨_, _, rfl, rfl, fun n => ?_⟩
  rw [List.mem_filter, List.mem_range]
  exact and_congr_right fun hn => s.domain_presence off data hn

/-! ### The debug port -/

theorem exec_debugRead {part n pa : Nat} {va : BitVec 64} (hon : s.debugOn = true) (hn : n ∈ [1, 2, 4, 8, 16, 32, 64])
    (hpart : s.part? part ≠ none) (hdie : s.hostDie part ≠ none) (hfit : s.sramFit part false va.toNat n pa false) :
    ∃ t, exec (.debugRead part va n) s = .next t ∧ t.sram = s.sram ∧ t.hbm = s.hbm ∧
      t.debugOut = s.debugOut ++ [if (s.clasp (s.plot (pa / 4096)).handle destDebug n).1 = true
        then (bytesOf n (memRead s.sram pa n), false) else (List.replicate n 0xFF, true)] := by
  let w : Who := { s.hostWho pfNum part 0 with key := unitKey 10 0xFFF (va.toNat % 2 ^ 28) }
  obtain ⟨pl, d, hr⟩ := State.unitRead_sram (s := s) (w := w) (h := 0) hfit
  generalize hs' : ({ s with plots := pl, dies := d } : State) = s' at hr
  obtain ⟨p, v, o, hc⟩ := s'.clasp_frame (s.plot (pa / 4096)).handle destDebug n
  have hver := State.clasp_congr (s := s) (t := s') (by rw [← hs']) (by rw [← hs']) (s.plot (pa / 4096)).handle destDebug n
  have hx : exec (.debugRead part va n) s = execDebugRead part va n s := rfl
  unfold execDebugRead at hx
  rw [if_neg (by simp only [hon, List.contains_iff_mem.mpr hn]; simp [hpart])] at hx
  dsimp only at hx
  rw [State.noHostDie_false hdie, if_neg Bool.false_ne_true, show s.unitRead { s.hostWho pfNum part 0 with
    key := unitKey 10 0xFFF (va.toNat % 2 ^ 28) } false va.toNat n 0 = _ from hr] at hx
  dsimp only at hx
  rw [← hver]
  generalize s'.clasp (s.plot (pa / 4096)).handle destDebug n = x at hx hc ⊢
  obtain ⟨b, u⟩ := x
  have hu : u = _ := hc
  rw [← hs'] at hu
  cases b
  · exact ⟨_, hx, by rw [hu], by rw [hu], by rw [hu]; rfl⟩
  · exact ⟨_, hx, by rw [hu], by rw [hu], by rw [hu]; rfl⟩

end

end Sys2Proof.Machine

open Sys2Proof Sys2Proof.Machine in
/-- Settles O50: each request of a peer, flit or debug read is one passage of the Clasp and one answer, and the domain's bytes are the
written ones over those of the state. -/
theorem linkAndDebugResults : Obligations.LinkAndDebugResults := by
  unfold Obligations.LinkAndDebugResults
  refine ⟨fun s accel size pa hacc hl hpa hsize hal hret hawake he => ⟨fun data => ?_, fun data g hlen hwf hg => ?_⟩,
    fun s b hlen hl => ⟨exec_flitReceive_bad hlen hl, fun hcrc hseq hok hkind o hout htag hacc hresp =>
      exec_flitReceive_answer hlen hl hcrc hseq hok hkind hout htag hacc hresp⟩,
    fun s lanes => ⟨fun hl hless => ?_, fun hpos => ?_, fun hl hmore => ?_⟩,
    fun s tag o hout htag hacc hresp hlate => htag ▸ exec_peerTimeout hout hacc hresp hlate,
    fun s off data ha hend => ?_,
    fun s part n pa va hon hn hpart hdie hfit => exec_debugRead hon hn hpart hdie hfit⟩
  · obtain ⟨u, p, v, o, hu, hperf⟩ := State.peerPerform_read (accel := accel) (State.peerCheck_ok hpa hsize hal hret) hawake he 0 data
    cases hpass : (s.clasp (s.mapHandle pa.toNat) (destPeer accel) size).1
    · rw [hpass, if_neg Bool.false_ne_true] at hperf
      obtain ⟨q, hx⟩ := exec_peerRequestArrival hacc hl (.inl rfl) hperf (by rw [hu]) (by rw [hu]) (by rw [hu])
      rw [if_pos rfl, bytesOf_ones] at hx
      exact ⟨_, hx, by rw [hu], by rw [hu], rfl⟩
    · rw [hpass, if_pos rfl] at hperf
      obtain ⟨q, hx⟩ := exec_peerRequestArrival hacc hl (.inl rfl) hperf (by rw [hu]) (by rw [hu]) (by rw [hu])
      exact ⟨_, hx, by rw [hu], by rw [hu], rfl⟩
  · obtain ⟨u, pm, m, c, hu, hperf, hbytes⟩ :=
      State.peerPerform_write (State.peerCheck_ok hpa hsize hal hret) hawake he hwf hg 0 hlen
    obtain ⟨q, hx⟩ := exec_peerRequestArrival hacc hl (.inr rfl) hperf (by rw [hu]) (by rw [hu]) (by rw [hu])
    exact ⟨_, hx, by rw [hu], rfl, fun x hne => by rw [hu]; exact hbytes x hne⟩
  · have hne : lanes ≠ 0 := by rintro rfl; simp at hl
    obtain ⟨hport, hlink⟩ := s.retrain_spec lanes
    rw [if_neg hne] at hlink
    exact ⟨_, exec_linkLaneLoss (List.mem_cons_of_mem _ hl) hless, hport, hlink⟩
  · obtain ⟨hport, hlink⟩ := s.retrain_spec 0
    exact ⟨_, exec_linkLaneLoss List.mem_cons_self hpos, hport, hlink⟩
  · have hne : lanes ≠ 0 := by rintro rfl; simp at hl
    obtain ⟨hport, hlink⟩ := s.retrain_spec lanes
    rw [if_neg hne] at hlink
    exact ⟨_, exec_linkLanesUp hl hmore, hport, hlink⟩
  · obtain ⟨a, l, hx, hacc, hl⟩ := exec_domainConfigWrite s off data
    exact ⟨_, hx, rfl, fun hoff => hacc.trans (State.domain_accel ha hoff data), fun hoff hlen => hacc.trans (by
      subst hoff
      exact State.domain_accel_written hlen), hl⟩

/-! SUPPORT. The mailbox, firmware bundles, resets and bring-up, and the reset of a function (R424 to R428). -/

namespace Sys2Proof.Machine

/-! ### Lengths of what a report holds -/

theorem shaRound_length (h : List (BitVec 64)) (kw : BitVec 64) : (shaRound h kw).length = h.length := by
  unfold shaRound
  split <;> rfl

theorem shaBlock_length (h : List (BitVec 64)) (b : Bytes) : (shaBlock h b).length = h.length := by
  have hrounds (l : List (BitVec 64)) : (l.foldl shaRound h).length = h.length :=
    foldl_keeps (P := fun u => u.length = h.length) (fun u kw hu => (shaRound_length u kw).trans hu) l rfl
  unfold shaBlock
  dsimp only
  rw [List.length_zipWith, hrounds, Nat.min_self]

theorem shaBlocks_length : ∀ (n : Nat) (h : List (BitVec 64)) (b : Bytes), (shaBlocks n h b).length = h.length
  | 0, _, _ => rfl
  | n + 1, h, b => (shaBlocks_length n (shaBlock h (b.take 128)) (b.drop 128)).trans (shaBlock_length h (b.take 128))

theorem sha512_length (m : Bytes) : (sha512 m).length = 64 := by
  unfold sha512
  dsimp only
  rw [List.length_flatMap]
  simp only [bytesBig, List.length_reverse, bytesOf_length, List.map_const', shaBlocks_length]
  rfl

theorem devid_length : devid.length = 16 := by
  rw [devid, List.length_map, List.length_range]

section
variable {s : State} {vf : Nat}

/-! ### The mailbox -/

theorem numOf_bytes (n v : Nat) : numOf (bytesOf n v) = v % 256 ^ n := by
  induction n generalizing v with
  | zero => rw [Nat.pow_zero, Nat.mod_one]; rfl
  | succ n ih =>
    rw [bytesOf, numOf, ih, BitVec.toNat_ofNat]
    exact Nat.mod_mul.symm.trans (congrArg (v % ·) Nat.pow_succ'.symm)

theorem drop_next {b a r : Bytes} {k n : Nat} (h : b.drop k = a ++ r) (hn : a.length = n) : b.drop (k + n) = r := by
  rw [← List.drop_drop, h, ← hn, List.drop_left]

theorem take_here {b a r : Bytes} {k n : Nat} (h : b.drop k = a ++ r) (hn : a.length = n) : (b.drop k).take n = a := by
  rw [h, ← hn, List.take_left]

theorem fieldOf_here {b r : Bytes} {k n v : Nat} (h : b.drop k = bytesOf n v ++ r) : fieldOf b k n = v % 256 ^ n := by
  rw [fieldOf, take_here h (bytesOf_length n v), numOf_bytes]

/-- The fields of a report by offset. -/
theorem State.reportBody_fields (s : State) (vf : Nat) {nonce : Bytes} (hn : nonce.length = 64) :
    let b := s.reportBody vf nonce
    b.length = 320 ∧ fieldOf b 0 4 = 3 ∧ fieldOf b 4 4 = 320 ∧ (b.drop 8).take 16 = devid ∧ fieldOf b 0x18 4 = s.fwver % 2 ^ 32 ∧
      fieldOf b 0x1C 2 = s.accel % 2 ^ 16 ∧ (b.drop 0x20).take 64 = nonce ∧ (b.drop 0x60).take 64 = sha512 s.firmware ∧
      (b.drop 0xA0).take 64 = sha512 s.plateEntries ∧
      fieldOf b 0x120 1 = (if vf = pfNum then 0xFF else ((s.vf vf).part).getD 0xFF) % 256 := by
  intro b
  have h0 : b.drop 0 = bytesOf 4 3 ++ (bytesOf 4 320 ++ (devid ++ (bytesOf 4 s.fwver ++ (bytesOf 2 s.accel ++ (bytesOf 2 0 ++ (nonce ++
      (sha512 s.firmware ++ (sha512 s.plateEntries ++ ((List.range 64).map (Config.retirementDigest (s.retired.map RetUnit.pair)) ++
      (bytesOf 1 (if vf = pfNum then 0xFF else ((s.vf vf).part).getD 0xFF) ++ bytesOf 31 0)))))))))) := by
    have hb : s.reportBody vf nonce = _ := rfl
    conv at hb => rhs; unfold State.reportBody
    simp only [List.append_assoc] at hb
    rw [List.drop_zero, show b = _ from hb]
    cases (s.vf vf).part <;> rfl
  have h4 := drop_next h0 (bytesOf_length 4 3)
  have h8 := drop_next h4 (bytesOf_length 4 320)
  have h24 := drop_next h8 devid_length
  have h28 := drop_next h24 (bytesOf_length 4 _)
  have h30 := drop_next h28 (bytesOf_length 2 _)
  have h32 := drop_next h30 (bytesOf_length 2 _)
  have h96 := drop_next h32 hn
  have h160 := drop_next h96 (sha512_length _)
  have h224 := drop_next h160 (sha512_length _)
  have hdig : ((List.range 64).map (Config.retirementDigest (s.retired.map RetUnit.pair))).length = 64 := by
    rw [List.length_map, List.length_range]
  have h288 := drop_next h224 hdig
  have hlen : b.length = 320 := by
    rw [← List.drop_zero (l := b), h0]
    simp only [List.length_append, bytesOf_length, devid_length, sha512_length, hn, hdig]
  exact ⟨hlen, fieldOf_here h0, fieldOf_here h4, take_here h8 devid_length, fieldOf_here h24, fieldOf_here h28, take_here h32 hn,
    take_here h96 (sha512_length _), take_here h160 (sha512_length _), fieldOf_here h288⟩

theorem mailboxOf_true (h : vf < 384 ∨ vf = pfNum) : mailboxOf vf = true := vfKnown_true h

/-- The signature over a report. -/
def State.reportSig (s : State) (vf : Nat) (nonce : Bytes) : Bytes :=
  ecdsaSign Config.identityKey (Config.nonce s.tick) (s.reportBody vf nonce)

theorem exec_mailboxReport (hvf : vf < 384 ∨ vf = pfNum) {nonce : Bytes} (hn : nonce.length = 64) :
    exec (.mailboxReport vf nonce) s = .next (s.setVf vf { s.vf vf with mailbox := s.reportBody vf nonce ++ s.reportSig vf nonce }) := by
  show execMailboxReport vf nonce s = _
  unfold execMailboxReport
  rw [if_neg (by simp [mailboxOf_true hvf, hn])] <;> rfl

theorem exec_mailboxCert (hvf : vf < 384 ∨ vf = pfNum) : exec (.mailboxCert vf) s =
    .next (s.setVf vf { s.vf vf with mailbox := (List.range 1024).map (Config.securityByte 1) }) := by
  show execMailboxCert vf s = _
  unfold execMailboxCert
  rw [mailboxOf_true hvf]
  rfl

theorem exec_mailboxList (hvf : vf < 384 ∨ vf = pfNum) : exec (.mailboxList vf) s =
    .next (s.setVf vf { s.vf vf with mailbox := s.plateEntries }) := by
  show execMailboxList vf s = _
  unfold execMailboxList
  rw [mailboxOf_true hvf]
  rfl

theorem exec_firmwareBundleWrite (s : State) (version : Word) (b sig : Bytes) : exec (.firmwareBundleWrite version b sig) s =
    .next (if Config.bundleSound version b sig = true ∧ s.rollback ≤ version.toNat
      then { s with nextFirmware := some (version.toNat, b) } else s) := by
  show execFirmwareBundleWrite version b sig s = _
  unfold execFirmwareBundleWrite
  simp only [Bool.and_eq_true, decide_eq_true_eq]
  split <;> rfl

/-! ### Resets and bring-up -/

theorem exec_coldReset (s : State) : exec .coldReset s = .next (if s.bringUp ≥ 5 then s.cleared 1 else s.bringOn) := rfl

theorem exec_warmReset_up (h : s.bringUp = 5) :
    exec .warmReset s = .next { s.cleared 3 with ports := s.ports, linkErrs := s.linkErrs } := if_pos (Nat.le_of_eq h.symm)

/-- From step 3 of bring-up on, either reset takes the next step. -/
theorem exec_resets_on (h : s.bringUp = 3 ∨ s.bringUp = 4) : exec .coldReset s = .next s.bringOn ∧ exec .warmReset s = .next s.bringOn := by
  refine ⟨(exec_coldReset s).trans (by rw [if_neg (by omega)]), ?_⟩
  show execWarmReset s = _
  unfold execWarmReset
  rw [if_neg (by omega), if_pos (by omega)]

theorem State.bringOn_three (h : s.bringUp = 3) : s.bringOn = s.bringUp3 := by
  unfold State.bringOn
  rw [h] <;> rfl

theorem State.bringOn_four (h : s.bringUp = 4) : s.bringOn = s.bringUp4 := by
  unfold State.bringOn
  rw [h] <;> rfl

theorem lowestUsable_spec {n i : Nat} {bad : Nat → Bool} (h : lowestUsable n bad = some i) : bad i = false ∧ ∀ j < i, bad j = true := by
  obtain ⟨hgood, _, hbefore⟩ := List.find?_range_eq_some.mp h
  exact ⟨by simpa using hgood, fun j hj => by simpa using hbefore j hj⟩

/-- Partition 0 maps the lowest folio that is not retired, as logical folio 0. -/
theorem State.partZero_fmap {lf : Nat} {e : MapEntry} (h : (lf, e) ∈ s.partZero.fmap) : lf = 0 ∧ e.st = .mapped ∧
    s.retired.contains (.folio e.gfolio) = false ∧ ∀ g, g < e.gfolio → s.retired.contains (.folio g) = true := by
  unfold State.partZero at h
  dsimp only at h
  split at h
  next f hf =>
    obtain ⟨hgood, hbefore⟩ := lowestUsable_spec hf
    cases List.mem_singleton.mp h
    exact ⟨rfl, rfl, hgood, hbefore⟩
  next => exact absurd h List.not_mem_nil

theorem State.partZero_channels {c : Nat} (h : c ∈ s.partZero.channels) :
    s.retired.contains (.chan c) = false ∧ ∀ g, g < c → s.retired.contains (.chan g) = true := by
  unfold State.partZero at h
  dsimp only at h
  generalize 512 = n at h
  exact lowestUsable_spec (Option.mem_toList.mp h)

/-! ### The reset of a function -/

theorem exec_vfFlr_begin (hvf : vf < 384) (hflr : tabGet s.flr vf = none) : ∃ x, exec (.vfFlr vf) s = .next
    { ({ s with ctxs := x }).setVf vf (s.vf vf).flr with
      flr := tabPut s.flr vf ((s.homeOf vf).filter fun c => c.2.tear == .alive).length
      hostReqs := s.hostReqs.filter fun r => r.vf != vf } ∧
    { s with ctxs := x } = ((s.homeOf vf).filter fun c => c.2.tear == .alive).foldl (fun s c => s.beginEnd c.1 5 0xE3 0 0) s := by
  obtain ⟨x, hx⟩ := State.endAll_frame 0xE3 ((s.homeOf vf).filter fun c => c.2.tear == .alive) s
  refine ⟨x, ?_, hx.symm⟩
  show execVfFlr vf s = _
  unfold execVfFlr
  rw [if_neg (by omega), hflr]
  dsimp only
  rw [hx]
  rfl

theorem State.endAll_other {ctx code : Nat} (l : List (Nat × Ctx)) (h : ∀ a ∈ l, ctx ≠ a.1) : ∀ s : State,
    (l.foldl (fun s c => s.beginEnd c.1 5 code 0 0) s).ctx? ctx = s.ctx? ctx := by
  induction l with
  | nil => exact fun _ => rfl
  | cons a l ih =>
    intro s
    exact (ih (fun b hb => h b (List.mem_cons_of_mem a hb)) _).trans (s.ctx?_beginEnd_ne (h a List.mem_cons_self) ..)

theorem exec_vfFlr_done {n : Nat} (hvf : vf < 384) (hflr : tabGet s.flr vf = some n) (hgone : ∀ c ∈ s.ctxs, c.2.homevf ≠ vf) :
    exec (.vfFlr vf) s = .next (State.event { s with flr := tabDel s.flr vf } vf
      { record := BitVec.ofNat 256 (20 * 2 ^ 248 + n % 2 ^ 32 * 2 ^ 216 + 2 ^ 160), plate := 0 }) := by
  have hnone : s.homeOf vf = [] := List.filter_eq_nil_iff.mpr fun c hc => by simp [hgone c hc]
  show execVfFlr vf s = _
  unfold execVfFlr
  rw [if_neg (by omega), hflr]
  dsimp only
  rw [hnone]
  rfl

theorem State.event_first {e : EventRec} (h : (s.vf vf).events = []) :
    s.event vf e = s.setVf vf { s.vf vf with events := [e] } := by
  unfold State.event
  dsimp only
  rw [h]
  simp

end

end Sys2Proof.Machine

open Sys2Proof Sys2Proof.Machine in
/-- Settles O51: a report's fields stand at their offsets, each reset clears what it names, and the contexts that a function's reset
ends are those of its own. -/
theorem securityAndResetResults : Obligations.SecurityAndResetResults := by
  unfold Obligations.SecurityAndResetResults
  refine ⟨fun s vf hvf => ⟨fun nonce hn => ⟨_, _, exec_mailboxReport hvf hn, s.reportBody_fields vf hn⟩,
      ⟨_, exec_mailboxCert hvf, by rw [List.length_map, List.length_range]⟩, exec_mailboxList hvf⟩,
    fun s version b sig => ⟨fun hver => ?_, fun hver => ?_⟩, fun s h5 => ⟨⟨s.cleared 1, ?_⟩, ⟨_, exec_warmReset_up h5, ?_⟩⟩,
    fun s h3 => ⟨s.bringUp3, ?_⟩, fun s h4 => ⟨s.bringUp4, s.partZero, ?_⟩,
    fun s vf hvf => ⟨fun hflr => ?_, fun n hflr hgone hev => ?_⟩, fun s tag hlow => if_pos hlow⟩
  · rw [exec_firmwareBundleWrite]
    simp only [hver, and_true]
  · rw [exec_firmwareBundleWrite, if_neg (by omega)]
  · exact ⟨(exec_coldReset s).trans (by rw [if_pos (Nat.le_of_eq h5.symm)]), rfl, rfl, rfl, rfl, rfl, rfl, rfl, rfl, rfl⟩
  · exact ⟨rfl, rfl, rfl, rfl, rfl, rfl, rfl, rfl, rfl, rfl, rfl⟩
  · obtain ⟨hcold, hwarm⟩ := exec_resets_on (.inl h3)
    rw [State.bringOn_three h3] at hcold hwarm
    exact ⟨hcold, hwarm, rfl, rfl, rfl, rfl, rfl, rfl, rfl, rfl, rfl⟩
  · obtain ⟨hcold, hwarm⟩ := exec_resets_on (.inr h4)
    rw [State.bringOn_four h4] at hcold hwarm
    exact ⟨hcold, hwarm, rfl, rfl, rfl, rfl, rfl, rfl, rfl, fun lf e => State.partZero_fmap, fun c => State.partZero_channels⟩
  · obtain ⟨x, hx, hends⟩ := exec_vfFlr_begin hvf hflr
    refine ⟨_, hx, State.vf_setVf _ _ _, fun c y hc hhome halive => ⟨y.endedWith 0xE3, ?_, rfl, rfl, rfl⟩, fun hsort c y hc hhome => ?_,
      rfl, rfl, rfl⟩
    · show State.ctx? { s with ctxs := x } c = _
      rw [hends]
      refine State.endAll_ends halive 0xE3 _ hc (List.mem_filter.mpr ⟨List.mem_filter.mpr ⟨tabGet_mem hc, ?_⟩, ?_⟩)
      · exact beq_iff_eq.mpr hhome
      · exact beq_iff_eq.mpr halive
    · show State.ctx? { s with ctxs := x } c = _
      rw [hends, State.endAll_other _ ?_ s, hc]
      rintro ⟨k, z⟩ ha rfl
      obtain ⟨hmem, hz⟩ := List.mem_filter.mp (List.mem_filter.mp ha).1
      have hget : s.ctx? c = some z := (tabGet_iff hsort c z).mpr hmem
      obtain rfl : y = z := Option.some.inj (hc.symm.trans hget)
      exact hhome (beq_iff_eq.mp hz)
  · have hx := exec_vfFlr_done hvf hflr hgone
    rw [State.event_first (s := { s with flr := tabDel s.flr vf }) hev] at hx
    refine ⟨_, _, hx, congrArg Vf.events (State.vf_setVf _ _ _), ?_, rfl⟩
    simp only [bitF, BitVec.toNat_ofNat]
    omega

/-! SUPPORT. Tolerances, the power limit and the power states (R429 to R432). -/

namespace Sys2Proof.Machine

section
variable {s : State}

theorem exec_powerWindowEnd (s : State) (watts : Nat) : exec (.powerWindowEnd watts) s =
    if watts > s.pwrlim then .next { s with issueRate := max 1 (s.issueRate - 1) }
    else if 100 * watts < 95 * s.pwrlim then .next { s with issueRate := min 16 (s.issueRate + 1) }
    else .next s := rfl

theorem State.folioLevel_owned {f p : Nat} (h : s.ownerOf f = some p) : s.folioLevel f =
    if tabNum s.pmtol p ≥ 3000 then .f2 else if tabNum s.pmtol p ≥ 52 then .f1 else .f0 := by
  unfold State.folioLevel
  rw [h]

theorem exec_powerStateEntry_folio {f : Nat} (hf : f < 256) (hp : s.powerOf f = .f0) (hidle : s.folioIdle f = true) (level : Nat) :
    exec (.powerStateEntry 0 f level) s = if s.folioLevel f = powerLevel level ∧ s.folioLevel f ≠ .f0
      then .next { s with power := tabPut s.power f (powerLevel level) } else .next s := by
  show (if f < 256 ∧ s.powerOf f = .f0 ∧ s.folioIdle f = true ∧ s.folioLevel f = powerLevel level ∧ s.folioLevel f ≠ .f0 then _ else _) = _
  simp only [hf, hp, hidle, true_and]
  rfl

theorem State.tolerant_true {ns : Nat} {pick : Partn → Bool}
    (h : ∀ q p, (q, p) ∈ s.parts → pick p = true → ns ≤ tabNum s.pmtol q) : s.tolerant ns pick = true := by
  refine List.all_eq_true.mpr fun x hx => ?_
  cases hpick : pick x.2
  · rfl
  · simpa using h x.1 x.2 hx hpick

theorem exec_unitWake {kind unit k : Nat}
    (h : (kind = 0 ∧ unit < 256 ∧ k = unit) ∨ (kind = 1 ∧ unit < 16 ∧ k = 256 + unit) ∨ (kind = 2 ∧ unit = 0 ∧ k = 512)) :
    exec (.unitWake kind unit) s = .next (if s.powerOf k = .f0 then s else { s with power := tabDel s.power k }) := by
  show execUnitWake kind unit s = _
  unfold execUnitWake
  rcases h with ⟨rfl, hu, rfl⟩ | ⟨rfl, hu, rfl⟩ | ⟨rfl, hu, rfl⟩
  · rw [if_pos (.inl ⟨rfl, hu⟩)]
    exact (apply_ite Host.Outcome.next _ s _).symm
  · rw [if_pos (.inr (.inl ⟨rfl, hu⟩))]
    exact (apply_ite Host.Outcome.next _ s _).symm
  · rw [if_pos (.inr (.inr ⟨rfl, hu⟩))]
    exact (apply_ite Host.Outcome.next _ s _).symm

end

end Sys2Proof.Machine

open Sys2Proof Sys2Proof.Machine in
/-- Settles O52, by the level that a folio's owner tolerates and the tests of the dies and the package. -/
theorem powerResults : Obligations.PowerResults := by
  unfold Obligations.PowerResults
  intro s
  refine ⟨fun part value hpart => if_neg (by omega), fun value => ⟨_, rfl, ?_⟩,
    fun watts => ⟨fun hover hrate => ?_, fun hunder hrate => ?_, fun hle hge => ?_⟩,
    fun f p hf hp hidle hown => ⟨fun htol => ?_, fun hlo hhi => ?_, fun htol level => ?_⟩,
    fun d hd hp hidle htol => if_pos ⟨hd, rfl, hp, ?_⟩, fun hp hmay => if_pos ⟨rfl, rfl, hp, hmay⟩,
    fun kind unit k h => exec_unitWake h, fun entered => rfl⟩
  · split
    · omega
    · split <;> omega
  · rw [exec_powerWindowEnd, if_pos hover, Nat.max_eq_right (by omega)]
  · rw [exec_powerWindowEnd, if_neg (by omega), if_pos hunder, Nat.min_eq_right (by omega)]
  · rw [exec_powerWindowEnd, if_neg (by omega), if_neg (by omega)]
  · have hl : s.folioLevel f = .f2 := (State.folioLevel_owned hown).trans (if_pos htol)
    rw [exec_powerStateEntry_folio hf hp hidle, hl]
    rfl
  · have hl : s.folioLevel f = .f1 := by rw [State.folioLevel_owned hown, if_neg (by omega), if_pos hlo]
    rw [exec_powerStateEntry_folio hf hp hidle, hl]
    rfl
  · have hl : s.folioLevel f = .f0 := by rw [State.folioLevel_owned hown, if_neg (by omega), if_neg (by omega)]
    rw [exec_powerStateEntry_folio hf hp hidle, hl]
    exact if_neg fun h => h.2 rfl
  · rw [State.dieMay, hidle, State.tolerant_true htol]
    rfl

/-! SUPPORT. Keeping the memories canonical: what it means of a state and of each kind of result that carries states. -/

namespace Sys2Proof.Machine

/-- `t` has canonical memories if `o` has. -/
def Kept (o t : State) : Prop := o.memOk = true → t.memOk = true

/-- The outcome is a next state, and keeps the memories canonical. -/
def Good (o : State) (r : Res) : Prop := ∃ t, r = .next t ∧ Kept o t

/-- Each kind of result below carries states; it keeps the memories when each of them does. -/
def OptKept (o : State) (x : Option State) : Prop := ∀ t, x = some t → Kept o t

/-- The state that an access leaves, however it ends. -/
@[reducible] def Sync.state {α : Type} : Sync α → State
  | .ok _ s => s
  | .fail _ s => s
  | .wait s => s

@[reducible] def Fetch.state : Fetch → State
  | .done _ s => s
  | .more _ s => s
  | .fail _ s => s

@[reducible] def Accepted.state : Accepted → State
  | .st _ s => s
  | .trap _ s => s
  | .wait s => s

@[reducible] def EngineUnion.state : EngineUnion → State
  | .ok _ _ s => s
  | .wait s => s

@[reducible] def Perform.state : Perform → State
  | .done s => s
  | .wait s => s

def FormedKept (o : State) : Formed → Prop
  | .done _ s => Kept o s
  | .runs s => Kept o s
  | .wait => True

def DeliverKept (o : State) : DeliverRes → Prop
  | .ok s => Kept o s
  | .off s => Kept o s
  | .full => True
  | .refused s => Kept o s

/-- A next state where there is one, and the state that is left where there is none. -/
def BothKept (o : State) (x : Option State × State) : Prop := OptKept o x.1 ∧ Kept o x.2

/-- The state of an either-or result. -/
@[reducible] def sumState {α : Type} (f : α → State) : α ⊕ State → State
  | .inl a => f a
  | .inr s => s

section
variable {o s t : State}

theorem Kept.refl (s : State) : Kept s s := id

/-- What leaves the memories as they are keeps them canonical. -/
theorem Kept.same (h : Kept o s) (e : (t.sram, t.hbm, t.ctl) = (s.sram, s.hbm, s.ctl)) : Kept o t := by
  intro ho
  have hs := h ho
  injection e with h1 e
  injection e with h2 h3
  rw [State.memOk] at hs ⊢
  rw [h1, h2, h3]
  exact hs

theorem State.memOk_iff : s.memOk = true ↔ s.sram.wf = true ∧ s.hbm.wf = true ∧ s.ctl.wf = true := by
  simp only [State.memOk, Bool.and_eq_true, and_assoc]

/-- What keeps each memory canonical keeps them all. -/
theorem Kept.wf (h : Kept o s)
    (e : s.sram.wf = true → s.hbm.wf = true → s.ctl.wf = true → t.sram.wf = true ∧ t.hbm.wf = true ∧ t.ctl.wf = true) : Kept o t :=
  fun ho => by
    obtain ⟨h1, h2, h3⟩ := State.memOk_iff.mp (h ho)
    exact State.memOk_iff.mpr (e h1 h2 h3)

theorem Kept.sram {m : Memory} (h : Kept o s) (hm : s.sram.wf = true → m.wf = true) : Kept o { s with sram := m } :=
  h.wf fun h1 h2 h3 => ⟨hm h1, h2, h3⟩

theorem Kept.hbm {m : Memory} (h : Kept o s) (hm : s.hbm.wf = true → m.wf = true) : Kept o { s with hbm := m } :=
  h.wf fun h1 h2 h3 => ⟨h1, hm h2, h3⟩

theorem Kept.ctl {m : Memory} (h : Kept o s) (hm : s.ctl.wf = true → m.wf = true) : Kept o { s with ctl := m } :=
  h.wf fun h1 h2 h3 => ⟨h1, h2, hm h3⟩

theorem Kept.ite {c : Prop} [Decidable c] {a b : State} (ha : Kept o a) (hb : Kept o b) : Kept o (if c then a else b) := by
  split
  · exact ha
  · exact hb

theorem Kept.foldl {α : Type} {f : State → α → State} (hf : ∀ s a, Kept o s → Kept o (f s a)) (l : List α) (h : Kept o s) :
    Kept o (l.foldl f s) := foldl_keeps (P := Kept o) hf l h

theorem Good.next (h : Kept o s) : Good o (.next s) := ⟨s, rfl, h⟩

theorem Good.idle (h : Kept o s) : Good o (idle s) := ⟨s, rfl, h⟩

theorem OptKept.none : OptKept o none := fun _ h => by cases h

theorem OptKept.some (h : Kept o s) : OptKept o (some s) := fun _ e => by cases e; exact h

theorem OptKept.getD {x : Option State} (h : OptKept o x) (hd : Kept o s) : Kept o (x.getD s) := by
  cases x with
  | none => exact hd
  | some t => exact h t rfl

/-! Of a result whose states are known, and an equation that says which result it is: the state named there. -/

theorem OptKept.get {x : Option State} (e : x = .some t) (h : OptKept o x) : Kept o t := h t e

theorem OptKept.get_snd {α : Type} {x : Option (α × State)} {a : α} (e : x = .some (a, t)) (h : OptKept o (x.map Prod.snd)) : Kept o t :=
  h t (by rw [e]; rfl)

theorem Good.get {r : Res} (e : r = .next t) (h : Good o r) : Kept o t := by
  obtain ⟨u, hu, hk⟩ := h
  cases hu.symm.trans e
  exact hk

theorem Kept.ok {α : Type} {x : Sync α} {a : α} (e : x = .ok a t) (h : Kept o x.state) : Kept o t := by
  rw [e] at h
  exact h

theorem Kept.fail {α : Type} {x : Sync α} {c : Nat} (e : x = .fail c t) (h : Kept o x.state) : Kept o t := by
  rw [e] at h
  exact h

theorem Kept.wait {α : Type} {x : Sync α} (e : x = .wait t) (h : Kept o x.state) : Kept o t := by
  rw [e] at h
  exact h

theorem Fetch.kept_done {x : Fetch} {b : Bytes} (e : x = .done b t) (h : Kept o x.state) : Kept o t := by
  rw [e] at h
  exact h

theorem Fetch.kept_more {x : Fetch} {b : Bytes} (e : x = .more b t) (h : Kept o x.state) : Kept o t := by
  rw [e] at h
  exact h

theorem Fetch.kept_fail {x : Fetch} {c : Nat} (e : x = .fail c t) (h : Kept o x.state) : Kept o t := by
  rw [e] at h
  exact h

theorem Accepted.kept_st {x : Accepted} {c : Nat} (e : x = .st c t) (h : Kept o x.state) : Kept o t := by
  rw [e] at h
  exact h

theorem Accepted.kept_trap {x : Accepted} {c : Nat} (e : x = .trap c t) (h : Kept o x.state) : Kept o t := by
  rw [e] at h
  exact h

theorem Accepted.kept_wait {x : Accepted} (e : x = .wait t) (h : Kept o x.state) : Kept o t := by
  rw [e] at h
  exact h

theorem EngineUnion.kept_ok {x : EngineUnion} {g : Handle} {b : Option Nat} (e : x = .ok g b t) (h : Kept o x.state) : Kept o t := by
  rw [e] at h
  exact h

theorem EngineUnion.kept_wait {x : EngineUnion} (e : x = .wait t) (h : Kept o x.state) : Kept o t := by
  rw [e] at h
  exact h

theorem Perform.kept_done {x : Perform} (e : x = .done t) (h : Kept o x.state) : Kept o t := by
  rw [e] at h
  exact h

theorem Perform.kept_wait {x : Perform} (e : x = .wait t) (h : Kept o x.state) : Kept o t := by
  rw [e] at h
  exact h

theorem FormedKept.get_done {x : Formed} {c : Nat} (e : x = .done c t) (h : FormedKept o x) : Kept o t := by
  rw [e] at h
  exact h

theorem FormedKept.get_runs {x : Formed} (e : x = .runs t) (h : FormedKept o x) : Kept o t := by
  rw [e] at h
  exact h

theorem DeliverKept.get_ok {x : DeliverRes} (e : x = .ok t) (h : DeliverKept o x) : Kept o t := by
  rw [e] at h
  exact h

theorem DeliverKept.get_off {x : DeliverRes} (e : x = .off t) (h : DeliverKept o x) : Kept o t := by
  rw [e] at h
  exact h

theorem DeliverKept.get_refused {x : DeliverRes} (e : x = .refused t) (h : DeliverKept o x) : Kept o t := by
  rw [e] at h
  exact h

theorem Kept.snd {α : Type} {x : α × State} {a : α} (e : x = (a, t)) (h : Kept o x.2) : Kept o t := by
  rw [e] at h
  exact h

theorem Kept.fst {α : Type} {x : State × α} {a : α} (e : x = (t, a)) (h : Kept o x.1) : Kept o t := by
  rw [e] at h
  exact h

theorem Kept.inl {x : State ⊕ State} (e : x = .inl t) (h : Kept o (sumState id x)) : Kept o t := by
  rw [e] at h
  exact h

theorem Kept.inr {x : State ⊕ State} (e : x = .inr t) (h : Kept o (sumState id x)) : Kept o t := by
  rw [e] at h
  exact h

theorem Kept.inlSnd {α : Type} {x : (α × State) ⊕ State} {a : α} (e : x = .inl (a, t)) (h : Kept o (sumState Prod.snd x)) : Kept o t := by
  rw [e] at h
  exact h

theorem Kept.inrSnd {α : Type} {x : (α × State) ⊕ State} (e : x = .inr t) (h : Kept o (sumState Prod.snd x)) : Kept o t := by
  rw [e] at h
  exact h

theorem BothKept.snd {x : Option State × State} {y : Option State} (e : x = (y, t)) (h : BothKept o x) : Kept o t := by
  rw [e] at h
  exact h.2

theorem BothKept.fst {x : Option State × State} {u : State} (e : x = (.some t, u)) (h : BothKept o x) : Kept o t := by
  rw [e] at h
  exact h.1 t rfl

theorem Kept.bind {α β : Type} {x : Sync α} {f : α → State → Sync β} (h : Kept o x.state) (hf : ∀ a s, Kept o s → Kept o (f a s).state) :
    Kept o (x.bind f).state := by
  cases x with
  | ok a s => exact hf a s h
  | fail c s => exact h
  | wait s => exact h

end

end Sys2Proof.Machine
/-! SUPPORT. What leaves the memories canonical: the operations of the state, plates, translation and the accesses of an element. -/

namespace Sys2Proof.Machine

section
variable {σ s : State}

theorem State.setElem_canonical (hk : Kept σ s) {p : Nat} {e : Elem} : Kept σ (s.setElem p e) :=
  Kept.same hk (by rfl)

theorem State.setBuf_canonical (hk : Kept σ s) {p port cls : Nat} {l : List Flit} : Kept σ (s.setBuf p port cls l) :=
  Kept.same hk (by rfl)

theorem State.setBank_canonical (hk : Kept σ s) {b : Nat} {v : Bank} : Kept σ (s.setBank b v) :=
  Kept.same hk (by rfl)

theorem State.setChan_canonical (hk : Kept σ s) {c : Nat} {v : Chan} : Kept σ (s.setChan c v) :=
  Kept.same hk (by rfl)

theorem State.setOvf_canonical (hk : Kept σ s) {q : Nat} {v : Overflow} : Kept σ (s.setOvf q v) :=
  Kept.same hk (by rfl)

theorem State.setPlot_canonical (hk : Kept σ s) {n : Nat} {v : Plot} : Kept σ (s.setPlot n v) :=
  Kept.same hk (by rfl)

theorem State.setQcc_canonical (hk : Kept σ s) {q : Nat} {v : Qcc} : Kept σ (s.setQcc q v) :=
  Kept.same hk (by rfl)

theorem State.setPress_canonical (hk : Kept σ s) {q : Nat} {v : Press} : Kept σ (s.setPress q v) :=
  Kept.same hk (by rfl)

theorem State.setGraft_canonical (hk : Kept σ s) {q : Nat} {v : Graft} : Kept σ (s.setGraft q v) :=
  Kept.same hk (by rfl)

theorem State.setRiddle_canonical (hk : Kept σ s) {f : Nat} {v : Riddle} : Kept σ (s.setRiddle f v) :=
  Kept.same hk (by rfl)

theorem State.setPruner_canonical (hk : Kept σ s) {d : Nat} {v : Pruner} : Kept σ (s.setPruner d v) :=
  Kept.same hk (by rfl)

theorem State.setBarrow_canonical (hk : Kept σ s) {d : Nat} {v : Barrow} : Kept σ (s.setBarrow d v) :=
  Kept.same hk (by rfl)

theorem State.setDie_canonical (hk : Kept σ s) {d : Nat} {v : Die} : Kept σ (s.setDie d v) :=
  Kept.same hk (by rfl)

theorem State.setPort_canonical (hk : Kept σ s) {p : Nat} {v : LinkPort} : Kept σ (s.setPort p v) :=
  Kept.same hk (by rfl)

theorem State.setCtx_canonical (hk : Kept σ s) {c : Nat} {v : Ctx} : Kept σ (s.setCtx c v) :=
  Kept.same hk (by rfl)

theorem State.setPart_canonical (hk : Kept σ s) {p : Nat} {v : Partn} : Kept σ (s.setPart p v) :=
  Kept.same hk (by rfl)

theorem State.setVf_canonical (hk : Kept σ s) {n : Nat} {v : Vf} : Kept σ (s.setVf n v) :=
  Kept.same hk (by rfl)

theorem State.modCtx_canonical (hk : Kept σ s) {c : Nat} {f : Ctx → Ctx} : Kept σ (s.modCtx c f) := by
  unfold State.modCtx
  split
  · exact State.setCtx_canonical hk
  · exact hk

theorem State.modPart_canonical (hk : Kept σ s) {p : Nat} {f : Partn → Partn} : Kept σ (s.modPart p f) := by
  unfold State.modPart
  split
  · exact State.setPart_canonical hk
  · exact hk

theorem State.charge_canonical (hk : Kept σ s) {die part : Nat} {issues units : Nat} : Kept σ (s.charge die part issues units) :=
  Kept.same hk (by rfl)

theorem State.askUnion_canonical (hk : Kept σ s) {ha hb : Handle} {ctx part : Nat} : Kept σ (s.askUnion ha hb ctx part) := by
  unfold State.askUnion
  dsimp only
  split
  · exact hk
  · exact Kept.same hk (by rfl)

theorem State.plateOvf_canonical (hk : Kept σ s) {ha hb : Handle} {ctx part : Nat} : Kept σ (s.plateOvf ha hb ctx part) := by
  unfold State.plateOvf
  split <;> exact Kept.same hk (by rfl)

theorem State.sendTrap_canonical (hk : Kept σ s) {ctx kind : Nat} {r : BitVec 128} {spos snode : Nat} {plate : Handle} :
    Kept σ (s.sendTrap ctx kind r spos snode plate) :=
  Kept.same hk (by rfl)

theorem State.sink_canonical (hk : Kept σ s) {ctx : Nat} {r : BitVec 128} {spos snode : Nat} {plate : Handle} :
    Kept σ (s.sink ctx r spos snode plate) := by
  unfold State.sink
  dsimp only
  split
  · exact State.modCtx_canonical hk
  · exact State.sendTrap_canonical (State.modCtx_canonical hk)

theorem State.fabricFault_canonical (hk : Kept σ s) {ctx : Nat} {r : BitVec 128} {spos snode : Nat} {plate : Handle} :
    Kept σ (s.fabricFault ctx r spos snode plate) := by
  unfold State.fabricFault
  dsimp only
  split
  · exact State.modCtx_canonical hk
  · exact State.sendTrap_canonical (State.modCtx_canonical hk)

theorem State.sendFlit_canonical (hk : Kept σ s) {m : FlitMsg} : Kept σ (s.sendFlit m) :=
  Kept.same hk (by rfl)

theorem State.event_canonical (hk : Kept σ s) {vf : Nat} {e : EventRec} : Kept σ (s.event vf e) := by
  unfold State.event
  dsimp only
  split
  · exact State.setVf_canonical hk
  · split
    · exact State.setVf_canonical hk
    · exact Kept.same hk (by rfl)

theorem State.eventPlates_canonical (hk : Kept σ s) {r : BitVec 256} {l : List Nat} : Kept σ (s.eventPlates r l) := by
  induction l generalizing s with
  | nil => exact hk
  | cons n l ih =>
    unfold State.eventPlates
    split
    · exact ih (State.event_canonical hk)
    · exact ih hk

theorem State.chargePolicy_canonical (hk : Kept σ s) {slot : Nat} {p : Policy} {limit : Nat} :
    Kept σ (s.chargePolicy slot p limit) := by
  unfold State.chargePolicy
  split
  · exact State.eventPlates_canonical (Kept.same hk (by rfl))
  · exact Kept.same hk (by rfl)

theorem State.clasp_canonical (hk : Kept σ s) {h : Handle} {d b : Nat} : Kept σ (s.clasp h d b).2 := by
  unfold State.clasp
  split
  · exact hk
  · split
    · exact hk
    · split
      · exact State.chargePolicy_canonical hk
      · exact State.eventPlates_canonical hk

theorem State.vfCount_canonical (hk : Kept σ s) {vf hi : Nat} {lo code : Nat} : Kept σ (s.vfCount vf hi lo code) :=
  Kept.same hk (by rfl)

theorem State.softRecord_canonical (hk : Kept σ s) {st : Store} {addr : Nat} {unc : Bool} {ctx : Nat} :
    Kept σ (s.softRecord st addr unc ctx) :=
  Kept.same hk (by rfl)

theorem State.corrected_canonical (hk : Kept σ s) {st : Store} {addr : Nat} : Kept σ (s.corrected st addr) := by
  unfold State.corrected
  dsimp only
  split
  · exact State.softRecord_canonical (State.setDie_canonical hk)
  · exact State.setDie_canonical hk

theorem State.noteUnc_canonical (hk : Kept σ s) {st : Store} {addr : Nat} : Kept σ (s.noteUnc st addr) :=
  Kept.same hk (by rfl)

theorem State.uncFound_canonical (hk : Kept σ s) {m : ErrMark} {ctx : Nat} : Kept σ (s.uncFound m ctx) := by
  unfold State.uncFound
  dsimp only
  split
  · exact State.sendTrap_canonical (State.noteUnc_canonical (State.softRecord_canonical hk))
  · exact State.noteUnc_canonical (State.softRecord_canonical hk)

theorem State.countAll_canonical (hk : Kept σ s) {ctx : Nat} {l : List ErrMark} : Kept σ (s.countAll ctx l) := by
  induction l generalizing s with
  | nil => exact hk
  | cons m l ih => exact ih (Kept.ite (State.uncFound_canonical hk) (State.corrected_canonical hk))

theorem State.readErrs_canonical (hk : Kept σ s) {st : Store} {a n ctx : Nat} : Kept σ (s.readErrs st a n ctx) := by
  unfold State.readErrs
  dsimp only
  split
  · exact hk
  · exact State.countAll_canonical (Kept.same hk (by rfl))

theorem State.writeErrs_canonical (hk : Kept σ s) {st : Store} {a n : Nat} : Kept σ (s.writeErrs st a n) :=
  Kept.same hk (by rfl)

theorem State.modElem_canonical (hk : Kept σ s) {p : Nat} {g : Elem → Elem} : Kept σ (s.modElem p g) :=
  Kept.same hk (by rfl)

theorem State.emit1_canonical (hk : Kept σ s) {f : Fire} {d : Nat} {t : Token} : Kept σ (s.emit1 f d t) := by
  unfold State.emit1
  dsimp only
  split
  · exact hk
  · split <;> exact State.modElem_canonical hk

theorem State.emitAll_canonical (hk : Kept σ s) {f : Fire} {l : List (Nat × Token)} : Kept σ (s.emitAll f l) := by
  induction l generalizing s with
  | nil => exact hk
  | cons x l ih => exact ih (State.emit1_canonical hk)

theorem State.issued_canonical (hk : Kept σ s) {f : Fire} : Kept σ (s.issued f) :=
  Kept.same hk (by rfl)

theorem State.yieldTurn_canonical (hk : Kept σ s) : Kept σ (s.yieldTurn) :=
  Kept.same hk (by rfl)

theorem State.runFire_canonical (hk : Kept σ s) {f : Fire} {o : ElemOps} {ops : List Opnd} {hr : HandleRule} {sh shY : Shape} {a0 bn : Nat} {chk : Option Nat} {eff : Effect} :
    Kept σ (s.runFire f o ops hr sh shY a0 bn chk eff) := by
  unfold State.runFire
  dsimp only
  split
  · split
    · exact State.emitAll_canonical (State.issued_canonical hk)
    · exact State.emitAll_canonical (State.issued_canonical hk)
    · exact State.yieldTurn_canonical (State.askUnion_canonical hk)
  · split
    · exact State.yieldTurn_canonical (State.askUnion_canonical hk)
    · split
      · exact State.emitAll_canonical (State.issued_canonical hk)
      · exact State.emitAll_canonical (State.issued_canonical (State.plateOvf_canonical hk))
    · split
      · exact State.emitAll_canonical (State.issued_canonical hk)
      · split
        · exact State.emitAll_canonical (State.issued_canonical hk)
        · split <;> exact State.emitAll_canonical (State.issued_canonical hk)

theorem State.pushChan_canonical (hk : Kept σ s) {q n : Nat} {t : Token} : OptKept σ (s.pushChan q n t) := by
  unfold State.pushChan
  dsimp only
  split
  · exact OptKept.some (State.setQcc_canonical hk)
  · exact OptKept.none

theorem State.sinkChan_canonical (hk : Kept σ s) {t : Token} : Kept σ (s.sinkChan t) := by
  unfold State.sinkChan
  exact State.sink_canonical hk

theorem State.modTable_canonical (hk : Kept σ s) {ctx : Nat} {g : Timetable → Timetable} : Kept σ (s.modTable ctx g) :=
  Kept.same hk (by rfl)

theorem State.handEntry_canonical (hk : Kept σ s) {ctx i : Nat} {plots : List Nat} {ahead : Bool} {d : Nat} :
    Kept σ (s.handEntry ctx i plots ahead d) := by
  induction d generalizing s with
  | zero => exact hk
  | succ d ih => exact ih (Kept.ite hk (Kept.same hk (by rfl)))

theorem State.missFetch_canonical (hk : Kept σ s) {ctx f p : Nat} : Kept σ (s.missFetch ctx f p) := by
  unfold State.missFetch
  dsimp only
  split
  · exact hk
  · split
    · exact State.handEntry_canonical (State.modTable_canonical hk)
    · split
      · exact State.handEntry_canonical (State.modTable_canonical hk)
      · exact Kept.same hk (by rfl)
    · exact State.handEntry_canonical hk
    · exact hk

theorem State.miss_canonical (hk : Kept σ s) {ctx p kind : Nat} : Kept σ (s.miss ctx p kind).2 := by
  unfold State.miss
  dsimp only
  split
  · exact hk
  · split
    · exact hk
    · split
      · split
        · exact State.sendTrap_canonical hk
        · split
          · exact hk
          · split
            · exact hk
            · exact State.missFetch_canonical (State.sendTrap_canonical (State.setBarrow_canonical hk))
      · exact State.sendTrap_canonical hk

theorem State.cacheLeaf_canonical (hk : Kept σ s) {die part : Nat} {va pte : Nat} {e lvl : Nat} :
    Kept σ (s.cacheLeaf die part va pte e lvl) :=
  Kept.same hk (by rfl)

theorem State.modCached_canonical (hk : Kept σ s) {pte : Nat} {g : Nat → Nat} : Kept σ (s.modCached pte g) :=
  Kept.same hk (by rfl)

theorem State.modLeaf_canonical (hk : Kept σ s) {pte : Nat} {g : Nat → Nat} : Kept σ (s.modLeaf pte g) :=
  State.modCached_canonical (Kept.hbm hk (memWrite_wf _ _ _))

theorem State.setMap_canonical (hk : Kept σ s) {pa : Nat} {big : Bool} {h : Handle} : Kept σ (s.setMap pa big h) :=
  Kept.same hk (by rfl)

theorem State.writePlate_canonical (hk : Kept σ s) {pte : Nat} {h : Handle} : Kept σ (s.writePlate pte h) := by
  unfold State.writePlate
  split
  · exact hk
  · exact State.modLeaf_canonical hk

theorem State.floor_canonical (hk : Kept σ s) {pa e : Nat} {big : Bool} : Kept σ (s.floor pa e big).2 := by
  unfold State.floor
  dsimp only
  split
  · exact hk
  · split
    · exact Kept.ite hk (State.setMap_canonical hk)
    · exact hk

theorem State.newFault_canonical (hk : Kept σ s) {part die page code lvl e : Nat} {w : Requester} {waiters : List Nat} :
    OptKept σ ((s.newFault part die page code lvl e w waiters).map Prod.snd) := by
  unfold State.newFault
  split
  · exact OptKept.none
  · split
    · exact OptKept.none
    · exact OptKept.some (Kept.hbm (State.setPart_canonical hk) (memWrite_wf _ _ _))

theorem State.setPlace_canonical (hk : Kept σ s) {p : Place} {h : Handle} : Kept σ (s.setPlace p h) := by
  unfold State.setPlace
  dsimp only
  split
  · split
    · exact hk
    · exact State.setPlot_canonical hk
  · split
    · exact hk
    · exact State.writePlate_canonical (State.setMap_canonical hk)
  · exact hk

theorem State.spend_canonical (hk : Kept σ s) {p : Place} {part : Nat} : Kept σ (s.spend p part) :=
  Kept.same hk (by rfl)

theorem State.writePlace_canonical (hk : Kept σ s) {p : Place} {n v : Nat} : Kept σ (s.writePlace p n v) := by
  unfold State.writePlace
  split
  · exact State.writeErrs_canonical (Kept.sram hk (memWrite_wf _ _ _))
  · exact State.writeErrs_canonical (Kept.hbm hk (memWrite_wf _ _ _))
  · exact hk

theorem State.meetErrs_canonical (hk : Kept σ s) {p : Place} {n ctx : Nat} : Kept σ (s.meetErrs p n ctx) := by
  unfold State.meetErrs
  split
  · exact State.readErrs_canonical hk
  · exact State.readErrs_canonical hk
  · exact hk

theorem State.takeFailure_canonical (hk : Kept σ s) {w : Who} {seq : Nat} : Kept σ (s.takeFailure w seq) := by
  unfold State.takeFailure
  dsimp only
  exact State.modPart_canonical hk

theorem State.unitAsk_canonical (hk : Kept σ s) {w : Who} {ha hb : Handle} : Kept σ (s.unitAsk w ha hb) := by
  unfold State.unitAsk
  exact State.askUnion_canonical hk

theorem State.unitLeaf_canonical (hk : Kept σ s) {w : Who} {va kind : Nat} {pte e : Nat} {big walked : Bool} :
    Kept σ (s.unitLeaf w va kind pte e big walked).state := by
  unfold State.unitLeaf
  dsimp only
  split
  · exact Kept.snd (by assumption) (by
      split
      · exact State.floor_canonical (State.cacheLeaf_canonical (Kept.ite hk (State.modLeaf_canonical hk)))
      · exact State.cacheLeaf_canonical (Kept.ite hk (State.modLeaf_canonical hk)))
  · exact State.plateOvf_canonical (Kept.snd (by assumption) (by
      split
      · exact State.floor_canonical (State.cacheLeaf_canonical (Kept.ite hk (State.modLeaf_canonical hk)))
      · exact State.cacheLeaf_canonical (Kept.ite hk (State.modLeaf_canonical hk))))
  · exact State.unitAsk_canonical (Kept.snd (by assumption) (by
      split
      · exact State.floor_canonical (State.cacheLeaf_canonical (Kept.ite hk (State.modLeaf_canonical hk)))
      · exact State.cacheLeaf_canonical (Kept.ite hk (State.modLeaf_canonical hk))))

theorem State.unitXlate_canonical (hk : Kept σ s) {w : Who} {va kind : Nat} {h : Handle} :
    Kept σ (s.unitXlate w va kind h).state := by
  unfold State.unitXlate
  dsimp only
  split
  · split
    · exact State.takeFailure_canonical hk
    · exact hk
  · split
    · exact State.unitLeaf_canonical hk
    · split
      · exact State.unitLeaf_canonical hk
      · exact hk
      · split
        · split
          · exact State.modPart_canonical hk
          · split
            · exact OptKept.get_snd (by assumption) (State.newFault_canonical hk)
            · exact hk
        · exact hk

theorem State.unitResident_canonical (hk : Kept σ s) {w : Who} {la pa : Nat} : Kept σ (s.unitResident w la pa).state := by
  unfold State.unitResident
  dsimp only
  split
  · split <;> exact hk
  · split
    · exact Kept.snd (by assumption) (State.miss_canonical hk)
    · exact Kept.snd (by assumption) (State.miss_canonical hk)
    · split <;> exact Kept.snd (by assumption) (State.miss_canonical hk)

theorem State.unitPlace_canonical (hk : Kept σ s) {w : Who} {logical : Bool} {a align kind : Nat} {h : Handle} :
    Kept σ (s.unitPlace w logical a align kind h).state := by
  unfold State.unitPlace
  split
  · exact hk
  · exact hk
  · split
    · exact State.unitResident_canonical hk
    · exact hk
  · exact hk
  · split
    · exact hk
    · refine Kept.bind (State.unitXlate_canonical hk) fun _ _ hb => ?_
      split
      · exact hb
      · split <;> exact hb

theorem State.dropOut_canonical (hk : Kept σ s) {tag : Nat} : Kept σ (s.dropOut tag) :=
  Kept.same hk (by rfl)

theorem State.sendOut_canonical (hk : Kept σ s) {who : OutFor} {ctx : Nat} {accel : Option Nat} {op aop : Nat} {addr size : Nat} {data : Bytes} {h : Handle} :
    Kept σ (s.sendOut who ctx accel op aop addr size data h) := by
  unfold State.sendOut
  dsimp only
  split
  · exact Kept.same hk (by rfl)
  · exact State.sendFlit_canonical (Kept.same hk (by rfl))

theorem State.unitExit_canonical (hk : Kept σ s) {w : Who} {p : Place} {op aop size : Nat} {data : Bytes} {charge : Handle} {bytes : Nat} {eh : Handle} :
    Kept σ (s.unitExit w p op aop size data charge bytes eh).state := by
  unfold State.unitExit
  dsimp only
  split
  · split
    · exact hk
    · exact State.dropOut_canonical hk
    · exact State.dropOut_canonical hk
  · split
    · exact hk
    · split
      · exact Kept.snd (by assumption) (State.clasp_canonical hk)
      · split
        · split
          · exact Kept.same (Kept.snd (by assumption) (State.clasp_canonical hk)) (by rfl)
          · exact State.sendOut_canonical (Kept.snd (by assumption) (State.clasp_canonical hk))
        · exact State.sendOut_canonical (Kept.snd (by assumption) (State.clasp_canonical hk))
        · exact Kept.snd (by assumption) (State.clasp_canonical hk)

theorem State.unitProbe_canonical (hk : Kept σ s) {w : Who} {logical : Bool} {a size : Nat} {h : Handle} :
    Kept σ (s.unitProbe w logical a size h).state := by
  unfold State.unitProbe
  refine Kept.bind (State.unitPlace_canonical hk) fun _ _ hb => ?_
  split
  · split
    · exact State.unitAsk_canonical hb
    · exact State.plateOvf_canonical hb
    · split <;> exact hb
  · split
    · exact State.unitAsk_canonical hb
    · exact State.plateOvf_canonical hb
    · split <;> exact hb
  · exact hb

theorem State.unitProbes_canonical (hk : Kept σ s) {w : Who} {logical : Bool} {size : Nat} {h : Handle} {l : List Nat} :
    Kept σ (s.unitProbes w logical size h l).state := by
  induction l generalizing s with
  | nil => exact hk
  | cons a l ih => exact Kept.bind (State.unitProbe_canonical hk) fun _ _ hb => ih hb

theorem State.unitReadAt_canonical (hk : Kept σ s) {w : Who} {logical : Bool} {a align size : Nat} {h : Handle} :
    Kept σ (s.unitReadAt w logical a align size h).state := by
  unfold State.unitReadAt
  dsimp only
  refine Kept.bind (State.unitPlace_canonical hk) fun _ _ hb => ?_
  split
  · split
    · exact State.meetErrs_canonical hb
    · exact State.spend_canonical (State.meetErrs_canonical hb)
  · split
    · exact State.meetErrs_canonical hb
    · exact State.spend_canonical (State.meetErrs_canonical hb)
  · split
    · exact State.unitExit_canonical hb
    · exact State.plateOvf_canonical hb
    · exact State.unitAsk_canonical hb

theorem State.unitRead_canonical (hk : Kept σ s) {w : Who} {logical : Bool} {a size : Nat} {h : Handle} :
    Kept σ (s.unitRead w logical a size h).state := by
  unfold State.unitRead
  exact State.unitReadAt_canonical hk

theorem State.unitWriteAt_canonical (hk : Kept σ s) {w : Who} {logical : Bool} {a align : Nat} {size v : Nat} {h : Handle} :
    Kept σ (s.unitWriteAt w logical a align size v h).state := by
  unfold State.unitWriteAt
  dsimp only
  refine Kept.bind (State.unitPlace_canonical hk) fun _ _ hb => ?_
  split
  · split
    · exact State.unitAsk_canonical hb
    · exact State.plateOvf_canonical hb
    · split
      · exact State.setPlace_canonical (State.writePlace_canonical hb)
      · exact State.spend_canonical (State.setPlace_canonical (State.writePlace_canonical hb))
  · split
    · exact State.unitAsk_canonical hb
    · exact State.plateOvf_canonical hb
    · split
      · exact State.setPlace_canonical (State.writePlace_canonical hb)
      · exact State.spend_canonical (State.setPlace_canonical (State.writePlace_canonical hb))
  · refine Kept.bind (State.unitExit_canonical hb) fun _ _ hb => ?_
    exact hb

theorem State.unitWrite_canonical (hk : Kept σ s) {w : Who} {logical : Bool} {a size v : Nat} {h : Handle} :
    Kept σ (s.unitWrite w logical a size v h).state := by
  unfold State.unitWrite
  exact State.unitWriteAt_canonical hk

theorem State.unitAtom_canonical (hk : Kept σ s) {w : Who} {logical : Bool} {a aop : Nat} {v v2 : Nat} {h : Handle} :
    Kept σ (s.unitAtom w logical a aop v v2 h).state := by
  unfold State.unitAtom
  dsimp only
  refine Kept.bind (State.unitPlace_canonical hk) fun _ _ hb => ?_
  split
  · split
    · exact State.unitAsk_canonical hb
    · exact State.plateOvf_canonical hb
    · split
      · exact State.meetErrs_canonical hb
      · exact State.spend_canonical (State.setPlace_canonical (State.writePlace_canonical (State.meetErrs_canonical hb)))
  · split
    · exact State.unitAsk_canonical hb
    · exact State.plateOvf_canonical hb
    · split
      · exact State.meetErrs_canonical hb
      · exact State.spend_canonical (State.setPlace_canonical (State.writePlace_canonical (State.meetErrs_canonical hb)))
  · split
    · exact State.unitExit_canonical hb
    · exact State.plateOvf_canonical hb
    · exact State.unitAsk_canonical hb

theorem State.heldErr_canonical (hk : Kept σ s) {pos : Nat} {h : Held} : Kept σ (s.heldErr pos h) := by
  unfold State.heldErr
  split
  · exact State.sendTrap_canonical (State.softRecord_canonical hk)
  · exact hk

theorem State.ovfErr_canonical (hk : Kept σ s) {e : OvfEntry} : Kept σ (s.ovfErr e) := by
  unfold State.ovfErr
  split
  · exact hk
  · exact State.corrected_canonical hk
  · exact State.sendTrap_canonical (State.softRecord_canonical hk)

theorem State.setAcc_canonical (hk : Kept σ s) {id : Nat} {a : Access} : Kept σ (s.setAcc id a) :=
  Kept.same hk (by rfl)

theorem State.modAcc_canonical (hk : Kept σ s) {id : Nat} {g : Access → Access} : Kept σ (s.modAcc id g) := by
  unfold State.modAcc
  split
  · exact State.setAcc_canonical hk
  · exact hk

theorem State.robDone_canonical (hk : Kept σ s) {pos id : Nat} {l : List (Nat × Token)} : Kept σ (s.robDone pos id l) :=
  Kept.same hk (by rfl)

theorem State.accDelete_canonical (hk : Kept σ s) {id : Nat} : Kept σ (s.accDelete id) :=
  Kept.same hk (by rfl)

theorem State.accFail_canonical (hk : Kept σ s) {id : Nat} {r : BitVec 128} : Kept σ (s.accFail id r) := by
  unfold State.accFail
  split
  · exact hk
  · exact State.robDone_canonical (State.accDelete_canonical hk)

theorem State.accFinish_canonical (hk : Kept σ s) {id : Nat} : OptKept σ (s.accFinish id) := by
  unfold State.accFinish
  dsimp only
  split
  · exact OptKept.some hk
  · split
    · exact OptKept.some (State.accFail_canonical hk)
    · split
      · exact OptKept.some (Kept.ite (State.accFail_canonical hk) (State.robDone_canonical (State.accDelete_canonical hk)))
      · split
        · exact OptKept.some (Kept.ite (State.accFail_canonical hk) (State.robDone_canonical (State.accDelete_canonical hk)))
        · exact OptKept.some (State.accFail_canonical (State.plateOvf_canonical hk))
        · exact OptKept.none

theorem State.accAsk_canonical (hk : Kept σ s) {id : Nat} : Kept σ (s.accAsk id) := by
  unfold State.accAsk
  split
  · exact State.askUnion_canonical hk
  · exact hk

theorem State.attach_canonical (hk : Kept σ s) {id : Nat} {a : Access} {va : Nat} : Kept σ (s.attach id a va).2 := by
  unfold State.attach
  dsimp only
  split
  · exact Kept.same hk (by rfl)
  · split
    · exact Kept.same hk (by rfl)
    · exact hk

theorem State.resolveLane_canonical (hk : Kept σ s) {id : Nat} {a : Access} {l : LaneAcc} :
    Kept σ (s.resolveLane id a l).2.2 := by
  unfold State.resolveLane
  dsimp only
  split
  · exact hk
  · split
    · exact hk
    · exact hk
    · exact hk
    · split
      · exact hk
      · exact State.attach_canonical hk

theorem State.resolveLanes_canonical (hk : Kept σ s) {id : Nat} {a : Access} {l : List LaneAcc} :
    Kept σ (s.resolveLanes id a l).2.2 := by
  induction l generalizing s with
  | nil => exact hk
  | cons x l ih => exact ih (State.resolveLane_canonical hk)

theorem State.claspAll_canonical (hk : Kept σ s) {a : Access} {ls : List LaneAcc} {l : List Home} :
    Kept σ (s.claspAll a ls l).2 := by
  induction l generalizing s with
  | nil => exact hk
  | cons d l ih =>
    unfold State.claspAll
    dsimp only
    split
    · split
      · exact Kept.snd (by assumption) (State.clasp_canonical hk)
      · exact ih (Kept.snd (by assumption) (State.clasp_canonical hk))
    · split
      · exact Kept.snd (by assumption) (State.clasp_canonical hk)
      · exact ih (Kept.snd (by assumption) (State.clasp_canonical hk))
    · exact ih hk

theorem State.laneOut_canonical (hk : Kept σ s) {id : Nat} {a : Access} {pi : Nat} {l : LaneAcc} {h : Handle} :
    Kept σ (s.laneOut id a pi l h) := by
  have hd : Kept σ (match l.dirty with | some pte => s.modLeaf pte fun e => e ||| 2 ^ 7 | none => s) := by
    split
    · exact State.modLeaf_canonical hk
    · exact hk
  unfold State.laneOut
  dsimp only
  split
  · split
    · exact State.sendOut_canonical hd
    · exact State.sendOut_canonical hd
    · exact Kept.same hd (by rfl)
  · split <;> exact State.sendOut_canonical hd
  · exact hd

theorem State.lanesOut_canonical (hk : Kept σ s) {id : Nat} {a : Access} {ps : List Part} {l : List LaneAcc} :
    Kept σ (s.lanesOut id a ps l) := by
  induction l generalizing s with
  | nil => exact hk
  | cons x l ih =>
    unfold State.lanesOut
    split
    · split
      · exact ih (State.laneOut_canonical hk)
      · exact ih (State.laneOut_canonical hk)
      · exact ih hk
    · exact ih hk

theorem State.accSend_canonical (hk : Kept σ s) {id : Nat} : Kept σ (s.accSend id) := by
  unfold State.accSend
  dsimp only
  split
  · exact hk
  · split
    · split
      · exact State.accFail_canonical hk
      · split
        · exact State.accFail_canonical (Kept.snd (by assumption) (State.claspAll_canonical hk))
        · split
          · exact OptKept.getD (State.accFinish_canonical (by
              split
              · exact State.setBuf_canonical (State.lanesOut_canonical (State.setAcc_canonical (Kept.snd (by assumption)
                  (State.claspAll_canonical hk))))
              · exact State.lanesOut_canonical (State.setAcc_canonical (Kept.snd (by assumption) (State.claspAll_canonical hk))))) (by
              split
              · exact State.setBuf_canonical (State.lanesOut_canonical (State.setAcc_canonical (Kept.snd (by assumption)
                  (State.claspAll_canonical hk))))
              · exact State.lanesOut_canonical (State.setAcc_canonical (Kept.snd (by assumption) (State.claspAll_canonical hk))))
          · split
            · exact State.setBuf_canonical (State.lanesOut_canonical (State.setAcc_canonical (Kept.snd (by assumption)
                (State.claspAll_canonical hk))))
            · exact State.lanesOut_canonical (State.setAcc_canonical (Kept.snd (by assumption) (State.claspAll_canonical hk)))
    · split
      · exact State.accFail_canonical hk
      · split
        · exact State.accFail_canonical (Kept.snd (by assumption) (State.claspAll_canonical hk))
        · split
          · exact OptKept.getD (State.accFinish_canonical (by
              split
              · exact State.setBuf_canonical (State.lanesOut_canonical (State.setAcc_canonical (Kept.snd (by assumption)
                  (State.claspAll_canonical hk))))
              · exact State.lanesOut_canonical (State.setAcc_canonical (Kept.snd (by assumption) (State.claspAll_canonical hk))))) (by
              split
              · exact State.setBuf_canonical (State.lanesOut_canonical (State.setAcc_canonical (Kept.snd (by assumption)
                  (State.claspAll_canonical hk))))
              · exact State.lanesOut_canonical (State.setAcc_canonical (Kept.snd (by assumption) (State.claspAll_canonical hk))))
          · split
            · exact State.setBuf_canonical (State.lanesOut_canonical (State.setAcc_canonical (Kept.snd (by assumption)
                (State.claspAll_canonical hk))))
            · exact State.lanesOut_canonical (State.setAcc_canonical (Kept.snd (by assumption) (State.claspAll_canonical hk)))

theorem State.accResolve_canonical (hk : Kept σ s) {id : Nat} : Kept σ (s.accResolve id) := by
  unfold State.accResolve
  dsimp only
  split
  · exact hk
  · split
    · split
      · exact State.accFail_canonical (State.setAcc_canonical (State.resolveLanes_canonical hk))
      · exact State.accSend_canonical (State.setAcc_canonical (State.resolveLanes_canonical hk))
    · exact State.setAcc_canonical (State.resolveLanes_canonical hk)

end

end Sys2Proof.Machine
/-! SUPPORT. What leaves the memories canonical: the element's memory opcodes, the banks and channels, the mesh and the cache. -/

namespace Sys2Proof.Machine

section
variable {σ s : State}

theorem State.accResolveAll_canonical (hk : Kept σ s) {l : List Nat} : Kept σ (s.accResolveAll l) := by
  induction l generalizing s with
  | nil => exact hk
  | cons i l ih => exact ih (State.accResolve_canonical hk)

theorem State.robPush_canonical (hk : Kept σ s) {f : Fire} {id stream : Nat} : Kept σ (s.robPush f id stream) :=
  Kept.same hk (by rfl)

theorem State.memExec_good (hk : Kept σ s) {o : ElemOps} {m : MemForm} : Good σ (s.memExec o m) := by
  unfold State.memExec
  dsimp only
  split
  · exact .idle hk
  next f hf =>
    have hbegin : ∀ u, Kept σ u →
        Kept σ { (u.issued f).robPush f s.nextId (memStream (f.cw o) f.nest) with nextId := s.nextId + 1 } := fun u hu =>
      Kept.same (s := (u.issued f).robPush f s.nextId (memStream (f.cw o) f.nest)) (State.robPush_canonical
          (State.issued_canonical hu)) (by rfl)
    split
    · exact .next (State.yieldTurn_canonical (State.askUnion_canonical hk))
    · split
      · exact .next (State.robDone_canonical (hbegin _ (Kept.ite (State.sink_canonical hk) hk)))
      · split
        · exact .next (State.robDone_canonical (hbegin _ hk))
        · split
          · exact .next (State.robDone_canonical (hbegin _ (State.plateOvf_canonical hk)))
          · exact .next (State.accResolve_canonical (State.setAcc_canonical (hbegin _ hk)))

theorem State.performLane_canonical (hk : Kept σ s) {a : Access} {l : LaneAcc} {p : Place} :
    Kept σ (s.performLane a l p).2.2 := by
  unfold State.performLane
  dsimp only
  split
  · exact State.meetErrs_canonical hk
  · exact State.meetErrs_canonical hk
  · split
    · exact State.meetErrs_canonical hk
    · exact State.writePlace_canonical (State.meetErrs_canonical hk)
  · split
    · exact State.meetErrs_canonical hk
    · exact State.writePlace_canonical (State.meetErrs_canonical hk)
  · exact State.writePlace_canonical hk
  · exact State.writePlace_canonical hk
  · exact hk

theorem State.performLanes_canonical (hk : Kept σ s) {a : Access} {l : List LaneAcc} : Kept σ (s.performLanes a l).2 := by
  induction l generalizing s a with
  | nil => exact hk
  | cons x l ih =>
    unfold State.performLanes
    split
    · exact ih hk
    · exact ih (State.performLane_canonical hk)

theorem State.performGroup_canonical (hk : Kept σ s) {id : Nat} {a : Access} {g : List Nat} :
    Kept σ (s.performGroup id a g).state := by
  unfold State.performGroup
  dsimp only
  split
  · exact hk
  · split
    · exact State.askUnion_canonical hk
    · exact State.askUnion_canonical hk
    · exact State.setAcc_canonical (State.plateOvf_canonical hk)
    · exact State.setAcc_canonical (State.plateOvf_canonical hk)
    · exact State.charge_canonical (State.setAcc_canonical (Kept.ite (State.setPlace_canonical (State.performLanes_canonical hk))
        (State.performLanes_canonical hk)))

theorem State.accMissed_canonical (hk : Kept σ s) {id : Nat} {a : Access} {p : Nat} : Kept σ (s.accMissed id a p) :=
  Kept.same hk (by rfl)

theorem State.accMiss_canonical (hk : Kept σ s) {id : Nat} {a : Access} {bad : List (LaneAcc × Nat)} :
    Kept σ (s.accMiss id a bad) := by
  unfold State.accMiss
  split
  · exact State.accFail_canonical hk
  · split
    · exact hk
    · split
      · exact State.accFail_canonical (Kept.snd (by assumption) (State.miss_canonical hk))
      · exact State.accFail_canonical (Kept.snd (by assumption) (State.miss_canonical hk))
      · split
        · exact State.accMissed_canonical (Kept.snd (by assumption) (State.miss_canonical hk))
        · exact Kept.snd (by assumption) (State.miss_canonical hk)

theorem State.accAdmit_canonical (hk : Kept σ s) {id : Nat} {a : Access} : Kept σ (s.accAdmit id a) := by
  unfold State.accAdmit
  split
  · exact State.accFail_canonical (State.plateOvf_canonical hk)
  · exact State.setAcc_canonical hk

theorem State.popBank_canonical (hk : Kept σ s) {b : Nat} : Kept σ (s.popBank b) :=
  Kept.same hk (by rfl)

theorem State.bankUsed_canonical (hk : Kept σ s) {b : Nat} {nonQueue : Bool} : Kept σ (s.bankUsed b nonQueue) :=
  Kept.same hk (by rfl)

theorem State.bankDone_canonical (hk : Kept σ s) {b id pi : Nat} : Kept σ (s.bankDone b id pi) := by
  unfold State.bankDone
  dsimp only
  split
  · exact State.popBank_canonical hk
  · exact State.setBuf_canonical (State.popBank_canonical (State.setAcc_canonical hk))

theorem execBankRequestEnqueue_good {pos port : Nat} (hk : Kept σ s) : Good σ (execBankRequestEnqueue pos port s) := by
  unfold execBankRequestEnqueue
  dsimp only
  split
  · split
    · exact .idle hk
    · split
      · exact .next (State.setBuf_canonical hk)
      · split
        · exact .next (State.setAcc_canonical (Kept.foldl (fun _ _ hu => State.setBank_canonical hu) _ (State.setBuf_canonical hk)))
        · exact .idle hk
  · exact .idle hk

theorem State.bankStep_canonical (hk : Kept σ s) {b id pi : Nat} {a : Access} {p : Machine.Part} :
    Kept σ (s.bankStep b id pi a p) := by
  unfold State.bankStep
  dsimp only
  split
  · exact hk
  · split
    · split
      · exact hk
      · exact State.setBank_canonical (State.popBank_canonical hk)
    · split
      · exact State.bankDone_canonical hk
      · split
        · exact Perform.kept_wait (by assumption) (State.performGroup_canonical hk)
        · split
          · exact State.bankDone_canonical (State.modAcc_canonical (Perform.kept_done (by assumption) (State.performGroup_canonical hk)))
          · exact State.modAcc_canonical (Perform.kept_done (by assumption) (State.performGroup_canonical hk))

theorem execPortOperation_good {bank : Nat} (hk : Kept σ s) : Good σ (execPortOperation bank s) := by
  unfold execPortOperation
  dsimp only
  split
  · exact .idle hk
  · split
    · exact .next (State.popBank_canonical hk)
    · split
      · exact .next (State.popBank_canonical hk)
      · split
        · split
          · exact .next (State.setAcc_canonical (State.bankUsed_canonical hk))
          · split
            · split
              · exact .next (State.accAdmit_canonical (State.bankUsed_canonical hk))
              · exact .next (State.bankStep_canonical (State.accAdmit_canonical (State.bankUsed_canonical hk)))
            · exact .next (State.accMiss_canonical (State.bankUsed_canonical hk))
        · exact .next (State.bankStep_canonical (State.bankUsed_canonical hk))
        · exact .idle (State.bankUsed_canonical hk)

theorem execMultiBankDecision_good {acc : Nat} (hk : Kept σ s) : Good σ (execMultiBankDecision acc s) := by
  unfold execMultiBankDecision
  dsimp only
  split
  · exact .idle hk
  · split
    · split
      · exact .next (State.accAdmit_canonical hk)
      · exact .next (State.accMiss_canonical hk)
    · exact .idle hk

theorem execMissReplay_good {die idx : Nat} (hk : Kept σ s) : Good σ (execMissReplay die idx s) := by
  unfold execMissReplay
  dsimp only
  split
  · exact .idle hk
  · split
    · exact .idle hk
    · split
      · exact .idle hk
      · split
        · exact .next (State.setBarrow_canonical hk)
        · exact .next (State.accSend_canonical (State.modAcc_canonical (State.setBarrow_canonical hk)))

theorem execPlacementZeroing_good {bank : Nat} (hk : Kept σ s) : Good σ (execPlacementZeroing bank s) := by
  unfold execPlacementZeroing
  split
  · exact .idle hk
  · split
    · exact .idle hk
    next n hn =>
      have hw : Kept σ ((s.writePlace (.sram (n * 4096 + 64 * s.zeroRow n)) 64 0).bankUsed bank true) :=
        State.bankUsed_canonical (State.writePlace_canonical hk)
      dsimp only
      generalize State.bankUsed _ _ _ = u at hw ⊢
      split <;> exact .next (Kept.same hw (by rfl))

theorem execZeroPieceWrite_good {bank : Nat} (hk : Kept σ s) : Good σ (execZeroPieceWrite bank s) := by
  unfold execZeroPieceWrite
  dsimp only
  split
  · exact .idle hk
  · split
    · exact .idle hk
    · split
      · exact .next (State.setBank_canonical hk)
      · split
        · split
          · split
            · exact .next (State.askUnion_canonical hk)
            · exact .next (State.accFail_canonical (State.setBank_canonical (State.plateOvf_canonical hk)))
            · split
              · exact .next (State.setBuf_canonical (State.modAcc_canonical (State.setBank_canonical (State.modAcc_canonical
                  (State.charge_canonical (State.bankUsed_canonical (Kept.ite (State.setPlace_canonical
                  (State.writePlace_canonical hk)) (State.writePlace_canonical hk))))))))
              · exact .next (State.modAcc_canonical (State.charge_canonical (State.bankUsed_canonical (Kept.ite
                  (State.setPlace_canonical (State.writePlace_canonical hk)) (State.writePlace_canonical hk)))))
          · exact .next (State.setBank_canonical hk)
        · exact .next (State.setBank_canonical hk)

theorem State.scrub_canonical (hk : Kept σ s) {bank : Nat} : Kept σ (s.scrub bank) := by
  unfold State.scrub
  dsimp only
  exact State.setBank_canonical (Kept.same (State.readErrs_canonical hk) (by rfl))

theorem execScrubRow_good {bank : Nat} (hk : Kept σ s) : Good σ (execScrubRow bank s) := by
  unfold execScrubRow
  dsimp only
  split
  · exact .next (State.scrub_canonical hk)
  · exact .idle hk

theorem execScrubForced_good {bank : Nat} (hk : Kept σ s) : Good σ (execScrubForced bank s) := by
  unfold execScrubForced
  dsimp only
  split
  · exact .next (State.bankUsed_canonical (State.scrub_canonical hk))
  · exact .idle hk

theorem execEccWriteback_good {idx : Nat} (hk : Kept σ s) : Good σ (execEccWriteback idx s) := by
  unfold execEccWriteback
  split
  · split
    · exact .next (Kept.same hk (by rfl))
    · exact .idle hk
  · exact .idle hk

theorem execSoftError_good {store addr bits : Nat} (hk : Kept σ s) : Good σ (execSoftError store addr bits s) := by
  unfold execSoftError
  split
  · exact .idle hk
  · split
    · split <;> exact .next (Kept.same hk (by rfl))
    · exact .next (Kept.same hk (by rfl))
    · dsimp only
      split
      · exact .next (Kept.same hk (by rfl))
      · split
        · exact .next (Kept.same hk (by rfl))
        · split
          · exact .next (Kept.sram hk (memWrite_wf _ _ _))
          · exact .next (Kept.hbm hk (memWrite_wf _ _ _))
          · exact .next (Kept.ctl hk (memWrite_wf _ _ _))

theorem execChannelRequestArrival_good {acc part : Nat} (hk : Kept σ s) : Good σ (execChannelRequestArrival acc part s) := by
  unfold execChannelRequestArrival
  dsimp only
  split
  · exact .idle hk
  · split
    · split
      · exact .next (State.accFail_canonical hk)
      · split
        · exact .next (State.setAcc_canonical (State.setChan_canonical hk))
        · exact .idle hk
    · exact .idle hk

theorem State.chanDone_canonical (hk : Kept σ s) {c acc part : Nat} : Kept σ (s.chanDone c acc part) := by
  unfold State.chanDone
  dsimp only
  exact State.modAcc_canonical (State.setChan_canonical hk)

theorem State.zeroGranule_canonical (hk : Kept σ s) {c acc part : Nat} {a : Access} {p : Machine.Part} :
    Kept σ (s.zeroGranule c acc part a p) := by
  unfold State.zeroGranule
  dsimp only
  split
  · exact State.chanDone_canonical hk
  · split
    · exact State.chanDone_canonical hk
    · split
      · split
        · exact State.askUnion_canonical hk
        · exact State.accFail_canonical (State.plateOvf_canonical hk)
        · split
          · exact State.chanDone_canonical (State.modAcc_canonical (State.charge_canonical (Kept.ite (State.setPlace_canonical
              (State.writePlace_canonical hk)) (State.writePlace_canonical hk))))
          · exact State.modAcc_canonical (State.charge_canonical (Kept.ite (State.setPlace_canonical
              (State.writePlace_canonical hk)) (State.writePlace_canonical hk)))
      · exact State.chanDone_canonical hk

theorem execChannelPerform_good {chan idx : Nat} (hk : Kept σ s) : Good σ (execChannelPerform chan idx s) := by
  unfold execChannelPerform
  dsimp only
  split
  · exact .idle hk
  · split
    · exact .next (State.setChan_canonical hk)
    · split
      · exact .idle hk
      · split
        · exact .idle hk
        · split
          · exact .next (State.accFail_canonical (State.plateOvf_canonical hk))
          · split
            · exact .next (State.zeroGranule_canonical hk)
            · split
              · exact .next (State.chanDone_canonical hk)
              · split
                · exact .next (Perform.kept_wait (by assumption) (State.performGroup_canonical hk))
                · exact .next (Kept.ite (State.chanDone_canonical (State.modAcc_canonical (Perform.kept_done (by assumption)
                    (State.performGroup_canonical hk)))) (State.modAcc_canonical (Perform.kept_done (by assumption)
                    (State.performGroup_canonical hk))))

theorem execDirtyBitOr_good {acc part : Nat} (hk : Kept σ s) : Good σ (execDirtyBitOr acc part s) := by
  unfold execDirtyBitOr
  dsimp only
  split
  · exact .idle hk
  · split
    · exact .idle hk
    · split
      · exact .next (State.setAcc_canonical (State.modLeaf_canonical hk))
      · exact .idle hk

theorem State.partDone_canonical (hk : Kept σ s) {id pi : Nat} : OptKept σ (s.partDone id pi) := by
  unfold State.partDone
  dsimp only
  split
  · exact OptKept.some hk
  · split
    · exact State.accFinish_canonical (State.setAcc_canonical hk)
    · exact OptKept.some (State.setAcc_canonical hk)

theorem execMemoryResponseArrival_good {acc part : Nat} (hk : Kept σ s) : Good σ (execMemoryResponseArrival acc part s) := by
  unfold execMemoryResponseArrival
  dsimp only
  split
  · split
    · exact .next (State.setBuf_canonical hk)
    · exact .idle hk
  · split
    · exact .idle hk
    · split
      · split
        · exact .idle hk
        · split
          · exact .next (OptKept.get (by assumption) (State.partDone_canonical (State.setBuf_canonical hk)))
          · exact .next (State.accAsk_canonical hk)
      · split
        · split
          · exact .next (OptKept.get (by assumption) (State.partDone_canonical hk))
          · exact .next (State.accAsk_canonical hk)
        · exact .idle hk
      · split
        · exact .idle hk
        · split
          · exact .next (State.askUnion_canonical hk)
          · split
            · exact .next (OptKept.get (by assumption) (State.partDone_canonical (State.setAcc_canonical (Kept.same hk (by rfl)))))
            · exact .next (State.accAsk_canonical hk)

theorem execHeldAccessResume_good {acc : Nat} (hk : Kept σ s) : Good σ (execHeldAccessResume acc s) := by
  unfold execHeldAccessResume
  split
  · exact .idle hk
  · split
    · split
      · exact .idle hk
      · exact .next (State.accResolve_canonical hk)
    · split
      · exact .idle hk
      · exact .next (State.accResolve_canonical hk)
    · exact .idle hk

theorem execRobRelease_good {pos : Nat} (hk : Kept σ s) : Good σ (execRobRelease pos s) := by
  unfold execRobRelease
  dsimp only
  split
  · exact .idle hk
  · split
    · exact .idle hk
    · exact .next (State.emitAll_canonical (State.modElem_canonical hk))

theorem State.modMiss_canonical (hk : Kept σ s) {m : Miss} {g : Miss → Miss} : Kept σ (s.modMiss m g) :=
  Kept.same hk (by rfl)

theorem State.walkFault_canonical (hk : Kept σ s) {m : Miss} {code lvl e : Nat} {rcv : Bool} :
    Kept σ (s.walkFault m code lvl e rcv) := by
  unfold State.walkFault
  dsimp only
  split
  · split
    · exact Kept.same hk (by rfl)
    · split
      · exact Kept.same (OptKept.get_snd (by assumption) (State.newFault_canonical hk)) (by rfl)
      · exact State.modMiss_canonical hk
  · exact State.accResolveAll_canonical (Kept.same hk (by rfl))

theorem execWalkStart_good {die idx : Nat} (hk : Kept σ s) : Good σ (execWalkStart die idx s) := by
  unfold execWalkStart
  dsimp only
  split
  · exact .idle hk
  · split
    · exact .next (State.walkFault_canonical hk)
    · split
      · exact .next (State.modMiss_canonical hk)
      · exact .idle hk

theorem State.giveLeaf_canonical (hk : Kept σ s) {m : Miss} {pte e : Nat} {big : Bool} : Kept σ (s.giveLeaf m pte e big) :=
  Kept.same hk (by rfl)

theorem execWalkTableReadDone_good {die idx : Nat} (hk : Kept σ s) : Good σ (execWalkTableReadDone die idx s) := by
  unfold execWalkTableReadDone
  dsimp only
  split
  · exact .idle hk
  · split
    · split
      · exact .idle hk
      · split
        · exact .next (State.modMiss_canonical hk)
        · split
          · exact .next (State.modMiss_canonical (Kept.same hk (by rfl)))
          · exact .next (State.walkFault_canonical hk)
          · split
            · exact .next (State.askUnion_canonical (Kept.snd (by assumption) (State.floor_canonical hk)))
            · exact .next (State.walkFault_canonical (State.plateOvf_canonical (Kept.snd (by assumption) (State.floor_canonical hk))))
            · exact .next (State.accResolveAll_canonical (State.giveLeaf_canonical (State.cacheLeaf_canonical (Kept.ite (Kept.snd
                (by assumption) (State.floor_canonical hk)) (State.modLeaf_canonical (Kept.snd (by assumption)
                (State.floor_canonical hk)))))))
    · exact .idle hk

theorem execFaultChannelMessage_good {part : Nat} (hk : Kept σ s) : Good σ (execFaultChannelMessage part s) := by
  unfold execFaultChannelMessage
  dsimp only
  split
  · exact .idle hk
  · split
    · split
      · exact .idle hk
      · split
        · exact .idle hk
        · exact .next (State.modPart_canonical (OptKept.get (by assumption) (State.pushChan_canonical hk)))
    · exact .idle hk

theorem State.fqResume_canonical (hk : Kept σ s) {part seq : Nat} : Kept σ (s.fqResume part seq) := by
  unfold State.fqResume
  dsimp only
  split
  · exact hk
  · split
    · exact State.accResolveAll_canonical (Kept.same hk (by rfl))
    · exact hk

theorem State.fqFail_canonical (hk : Kept σ s) {part seq : Nat} : Kept σ (s.fqFail part seq) := by
  unfold State.fqFail
  dsimp only
  split
  · exact hk
  · split
    · exact hk
    · exact State.accResolveAll_canonical (Kept.same hk (by rfl))

theorem State.invalidate_canonical (hk : Kept σ s) {quire part : Nat} {all : Bool} {va n : Nat} :
    Kept σ (s.invalidate quire part all va n) :=
  Kept.same hk (by rfl)

theorem execInvalidationComplete_good {idx : Nat} (hk : Kept σ s) : Good σ (execInvalidationComplete idx s) := by
  unfold execInvalidationComplete
  dsimp only
  split
  · exact .idle hk
  · split
    · exact .next (Kept.same hk (by rfl))
    · exact .idle hk

theorem State.passOn_good (hk : Kept σ s) {o : ElemOps} : Good σ (s.passOn o) := by
  unfold State.passOn
  dsimp only
  split
  · exact .idle hk
  · exact .next (State.runFire_canonical hk)

theorem execSink_good {o : ElemOps} (hk : Kept σ s) : Good σ (execSink o s) := by
  unfold execSink
  dsimp only
  split
  · exact .idle hk
  · exact .next (Kept.ite (State.sink_canonical (State.issued_canonical hk)) (State.issued_canonical hk))

theorem State.releaseHeld_canonical (hk : Kept σ s) {pos ctx node : Nat} {nest : BitVec 48} :
    Kept σ (s.releaseHeld pos ctx node nest) := by
  unfold State.releaseHeld
  dsimp only
  split
  · exact State.modElem_canonical (Kept.foldl (fun _ _ hu => State.heldErr_canonical hu) _ hk)
  · exact State.modElem_canonical (State.setOvf_canonical (Kept.foldl (fun _ _ hu => State.ovfErr_canonical hu) _ hk))

theorem State.hold_canonical (hk : Kept σ s) {pos ctx : Nat} {t : Token} : Kept σ (s.hold pos ctx t) := by
  unfold State.hold
  dsimp only
  split
  · exact State.modElem_canonical hk
  · exact State.modElem_canonical (State.setOvf_canonical hk)

theorem execReorder_good {o : ElemOps} (hk : Kept σ s) : Good σ (execReorder o s) := by
  unfold execReorder
  dsimp only
  split
  · exact .idle hk
  · split
    · exact .idle hk
    · split
      · exact .next (State.fabricFault_canonical (State.issued_canonical hk))
      · split
        · exact .next (State.hold_canonical (State.issued_canonical hk))
        · split
          · exact .next (State.modElem_canonical (State.emitAll_canonical (State.issued_canonical hk)))
          · exact .next (State.modElem_canonical (State.releaseHeld_canonical (State.modElem_canonical (State.emitAll_canonical
              (State.issued_canonical hk)))))

theorem State.allocFire_canonical (hk : Kept σ s) {f : Fire} {o : ElemOps} {act : Nat} : Kept σ (s.allocFire f o act) := by
  unfold State.allocFire
  dsimp only
  split
  · exact State.runFire_canonical hk
  · exact State.modElem_canonical (State.runFire_canonical hk)

theorem State.allocFail_canonical (hk : Kept σ s) {f : Fire} {o : ElemOps} {act : Nat} : Kept σ (s.allocFail f o act) := by
  unfold State.allocFail
  dsimp only
  exact State.runFire_canonical hk

theorem State.dropExh_canonical (hk : Kept σ s) {f : Fire} : Kept σ (s.dropExh f) :=
  Kept.same hk (by rfl)

theorem execAlloc_good {o : ElemOps} (hk : Kept σ s) : Good σ (execAlloc o s) := by
  unfold execAlloc
  dsimp only
  split
  · exact .idle hk
  · split
    · exact .next (State.dropExh_canonical (State.allocFail_canonical hk))
    · split
      · exact .next (State.dropExh_canonical (State.allocFire_canonical hk))
      · split
        · exact .next (State.setOvf_canonical (State.dropExh_canonical (State.issued_canonical (Kept.ite hk
            (State.sendTrap_canonical hk)))))
        · exact .next (State.yieldTurn_canonical (Kept.ite (Kept.ite hk (State.sendTrap_canonical hk)) (State.modElem_canonical
            (Kept.ite hk (State.sendTrap_canonical hk)))))

theorem State.notice_canonical (hk : Kept σ s) {ctx pos act : Nat} : Kept σ (s.notice ctx pos act) := by
  unfold State.notice
  split
  · exact State.setBuf_canonical hk
  · exact hk

theorem execFree_good {o : ElemOps} (hk : Kept σ s) : Good σ (execFree o s) := by
  unfold execFree
  split
  · exact .idle hk
  · split
    · exact .next (State.notice_canonical (Good.get (by assumption) (State.passOn_good hk)))
    · exact State.passOn_good hk

theorem State.discardN_canonical (hk : Kept σ s) {ctx n : Nat} : Kept σ (s.discardN ctx n) := by
  unfold State.discardN
  exact State.modCtx_canonical hk

theorem execLinkTransfer_good {pos port cls : Nat} (hk : Kept σ s) : Good σ (execLinkTransfer pos port cls s) := by
  unfold execLinkTransfer
  dsimp only
  split
  · exact .idle hk
  · split
    · refine .next ?_
      split <;> split <;> exact Kept.same hk (by rfl)
    · exact .idle hk

theorem State.takeKey_canonical (hk : Kept σ s) {pos : Nat} {t : Token} {ovf : Bool} : Kept σ (s.takeKey pos t ovf) := by
  unfold State.takeKey
  dsimp only
  split
  · exact State.modElem_canonical (State.setOvf_canonical (Kept.foldl (fun _ _ hu => State.ovfErr_canonical hu) _
      (State.modElem_canonical (Kept.foldl (fun _ _ hu => State.heldErr_canonical hu) _ hk))))
  · exact State.modElem_canonical (Kept.foldl (fun _ _ hu => State.heldErr_canonical hu) _ hk)

theorem State.pushReady_canonical (hk : Kept σ s) {pos i : Nat} {p : Pair} : OptKept σ (s.pushReady pos i p) := by
  unfold State.pushReady
  split
  · exact OptKept.some (State.modElem_canonical hk)
  · exact OptKept.none

theorem State.spillToken_canonical (hk : Kept σ s) {pos : Nat} {t : Token} {what : OvfKind} :
    OptKept σ (s.spillToken pos t what) := by
  unfold State.spillToken
  dsimp only
  split
  · exact OptKept.none
  · exact OptKept.some (State.modElem_canonical (State.setOvf_canonical hk))

theorem State.storeOperand_canonical (hk : Kept σ s) {pos : Nat} {t : Token} : OptKept σ (s.storeOperand pos t) := by
  unfold State.storeOperand
  split
  · exact OptKept.some (State.modElem_canonical hk)
  · exact State.spillToken_canonical hk

theorem State.dupop_canonical (hk : Kept σ s) {pos : Nat} {t : Token} : Kept σ (s.dupop pos t) := by
  unfold State.dupop
  dsimp only
  exact State.fabricFault_canonical hk

theorem State.matchOperand_canonical (hk : Kept σ s) {pos i : Nat} {sl : Slot} {t : Token} {found : List (Nat × Token)} {ovf search : Bool} {port : Nat} :
    OptKept σ (s.matchOperand pos i sl t found ovf search port) := by
  unfold State.matchOperand
  dsimp only
  split
  · split
    · exact OptKept.some (State.dupop_canonical hk)
    · split
      · exact State.pushReady_canonical (State.takeKey_canonical hk)
      · split
        · exact OptKept.some (State.modElem_canonical hk)
        · exact State.storeOperand_canonical hk
  · split
    · exact OptKept.some (State.dupop_canonical hk)
    · split
      · exact State.pushReady_canonical (State.takeKey_canonical hk)
      · split
        · exact OptKept.some (State.modElem_canonical hk)
        · exact State.storeOperand_canonical hk

theorem State.arrive_canonical (hk : Kept σ s) {pos i : Nat} {sl : Slot} {t0 : Token} {port : Nat} :
    OptKept σ (s.arrive pos i sl t0 port) := by
  unfold State.arrive
  dsimp only
  split
  · exact State.matchOperand_canonical hk
  · exact State.pushReady_canonical hk

theorem State.strandOne_canonical (hk : Kept σ s) {pos : Nat} {t : Token} : Kept σ (s.strandOne pos t) := by
  unfold State.strandOne
  dsimp only
  split
  · exact State.fabricFault_canonical (State.modCtx_canonical hk)
  · exact State.modCtx_canonical hk

theorem State.strandNode_canonical (hk : Kept σ s) {pos ctx n : Nat} : Kept σ (s.strandNode pos ctx n) := by
  unfold State.strandNode
  dsimp only
  exact Kept.foldl (fun _ _ hu => State.strandOne_canonical hu) _ (State.setOvf_canonical (State.modElem_canonical hk))

theorem State.switchCheck_canonical (hk : Kept σ s) {pos i n : Nat} : OptKept σ (s.switchCheck pos i n) := by
  unfold State.switchCheck
  dsimp only
  split
  · exact OptKept.some hk
  · split
    · exact State.pushReady_canonical (State.modElem_canonical (State.strandNode_canonical hk))
    · exact OptKept.some hk

theorem State.switchArrive_canonical (hk : Kept σ s) {pos i : Nat} {sl : Slot} {t : Token} :
    OptKept σ (s.switchArrive pos i sl t) := by
  unfold State.switchArrive
  dsimp only
  split
  · split
    · exact OptKept.some (State.dupop_canonical hk)
    · exact State.switchCheck_canonical (Kept.ite (State.fabricFault_canonical (State.modElem_canonical hk)) (State.modElem_canonical hk))
  · split
    · exact OptKept.some (State.dupop_canonical hk)
    · exact State.switchCheck_canonical (Kept.ite (State.fabricFault_canonical (State.modElem_canonical hk)) (State.modElem_canonical hk))

theorem State.countPred_canonical (hk : Kept σ s) {pos i : Nat} {t : Token} : Kept σ (s.countPred pos i t) := by
  unfold State.countPred
  split
  · exact State.modElem_canonical hk
  · exact hk

theorem State.take_canonical (hk : Kept σ s) {pos i : Nat} {sl : Slot} {t : Token} {port : Nat} :
    OptKept σ (s.take pos i sl t port) := by
  unfold State.take
  split
  · exact State.switchArrive_canonical hk
  · split
    · exact OptKept.none
    · exact State.switchCheck_canonical (State.countPred_canonical (OptKept.get (by assumption) (State.arrive_canonical hk)))

theorem State.unstick_canonical (hk : Kept σ s) {pos ctx : Nat} {port cls : Nat} : Kept σ (s.unstick pos ctx port cls) :=
  Kept.same hk (by rfl)

theorem State.stick_canonical (hk : Kept σ s) {pos ctx : Nat} {port cls : Nat} : Kept σ (s.stick pos ctx port cls) :=
  Kept.same hk (by rfl)

theorem State.fetchSlot_canonical (hk : Kept σ s) {pos ctx : Nat} : Kept σ (s.fetchSlot pos ctx) :=
  Kept.same hk (by rfl)

theorem State.park_canonical (hk : Kept σ s) {pos port cls : Nat} {t : Token} {rest : List Flit} :
    Kept σ (s.park pos port cls t rest) := by
  unfold State.park
  dsimp only
  split
  · exact State.fetchSlot_canonical (State.unstick_canonical (State.setOvf_canonical (State.setBuf_canonical hk)))
  · exact State.fetchSlot_canonical (State.stick_canonical hk)

theorem State.headToken_canonical (hk : Kept σ s) {pos port cls : Nat} {t : Token} {rest : List Flit} :
    Kept σ (s.headToken pos port cls t rest) := by
  unfold State.headToken
  dsimp only
  split
  · exact State.discardN_canonical (State.unstick_canonical (State.setBuf_canonical hk))
  · split
    · exact State.park_canonical hk
    · split
      · exact State.park_canonical hk
      · split
        · split
          · exact OptKept.getD (State.take_canonical (State.unstick_canonical (State.setBuf_canonical hk))) hk
          · exact State.stick_canonical hk
        · exact OptKept.getD (State.take_canonical (State.unstick_canonical (State.setBuf_canonical hk))) hk

theorem execTokenArrival_good {pos port cls : Nat} (hk : Kept σ s) : Good σ (execTokenArrival pos port cls s) := by
  unfold execTokenArrival
  dsimp only
  split
  · exact .idle hk
  · split
    · split
      · exact .idle hk
      · exact .next (State.headToken_canonical hk)
    · exact .idle hk

theorem execSwitchTokenArrival_good {pos port : Nat} (hk : Kept σ s) : Good σ (execSwitchTokenArrival pos port s) := by
  unfold execSwitchTokenArrival
  dsimp only
  split
  · split
    · exact .idle hk
    · exact .next (State.headToken_canonical hk)
  · exact .idle hk

theorem execSpillWrite_good {quire idx : Nat} (hk : Kept σ s) : Good σ (execSpillWrite quire idx s) := by
  unfold execSpillWrite
  dsimp only
  split
  · exact .idle hk
  · exact .next (State.setOvf_canonical hk)

theorem execOverflowSearchDone_good {pos idx : Nat} (hk : Kept σ s) : Good σ (execOverflowSearchDone pos idx s) := by
  unfold execOverflowSearchDone
  dsimp only
  split
  · exact .idle hk
  · split
    · exact .idle hk
    · split
      · exact .next (OptKept.get (by assumption) (State.matchOperand_canonical (State.modElem_canonical hk)))
      · exact .idle hk

theorem execSlotEviction_good {pos ctx : Nat} (hk : Kept σ s) : Good σ (execSlotEviction pos ctx s) := by
  unfold execSlotEviction
  dsimp only
  split
  · split
    · exact .next (State.setElem_canonical hk)
    · exact .idle hk
  · exact .idle hk

theorem State.putBack_canonical (hk : Kept σ s) {pos : Nat} {l : List Held} : OptKept σ (s.putBack pos l) := by
  induction l generalizing s with
  | nil => exact OptKept.some hk
  | cons x l ih =>
    unfold State.putBack
    split
    · exact ih (Kept.same hk (by rfl))
    · split
      · exact ih (OptKept.get (by assumption) (State.spillToken_canonical hk))
      · exact OptKept.none

theorem execSlotInstall_good {pos ctx : Nat} (hk : Kept σ s) : Good σ (execSlotInstall pos ctx s) := by
  unfold execSlotInstall
  dsimp only
  split
  · exact .idle hk
  · split
    · exact .next (State.fabricFault_canonical (State.setOvf_canonical (State.setElem_canonical hk)))
    · split
      · split
        · exact .idle hk
        · split
          · exact .next (OptKept.get (by assumption) (State.putBack_canonical (State.modElem_canonical (State.setElem_canonical hk))))
          · exact .idle hk
      · exact .idle hk

theorem execParkedTokenReplay_good {pos ctx : Nat} (hk : Kept σ s) : Good σ (execParkedTokenReplay pos ctx s) := by
  unfold execParkedTokenReplay
  dsimp only
  split
  · exact .idle hk
  · split
    · exact .idle hk
    · split
      · exact .next (OptKept.get (by assumption) (State.take_canonical (State.ovfErr_canonical (State.setOvf_canonical hk))))
      · exact .idle hk

theorem execFreeNotice_good {pos port : Nat} (hk : Kept σ s) : Good σ (execFreeNotice pos port s) := by
  unfold execFreeNotice
  dsimp only
  split
  · split
    · exact .idle hk
    · split
      · exact .next (State.setBuf_canonical hk)
      · split
        · exact .next (State.fabricFault_canonical (State.setBuf_canonical hk))
        · exact .next (State.modElem_canonical (State.setBuf_canonical hk))
  · exact .idle hk

theorem execParkedAllocFire_good {pos idx : Nat} (hk : Kept σ s) : Good σ (execParkedAllocFire pos idx s) := by
  unfold execParkedAllocFire
  dsimp only
  split
  · split
    · exact .idle hk
    · split
      · exact .idle hk
      · split
        · split
          · split
            · exact .idle (Kept.same hk (by rfl))
            · exact .next (State.modElem_canonical (State.allocFail_canonical (State.ovfErr_canonical (State.setOvf_canonical hk))))
          · split
            · exact .idle (Kept.same hk (by rfl))
            · exact .next (State.modElem_canonical (State.allocFail_canonical (State.ovfErr_canonical (State.setOvf_canonical hk))))
        · split
          · split
            · split
              · exact .idle (Kept.same hk (by rfl))
              · exact .next (State.modElem_canonical (State.allocFire_canonical (State.ovfErr_canonical (State.setOvf_canonical hk))))
            · exact .idle hk
          · split
            · split
              · exact .idle (Kept.same hk (by rfl))
              · exact .next (State.modElem_canonical (State.allocFire_canonical (State.ovfErr_canonical (State.setOvf_canonical hk))))
            · exact .idle hk
  · exact .idle hk

theorem State.inject_canonical (hk : Kept σ s) {pos port dst : Nat} {t : Token} : OptKept σ (s.inject pos port dst t) := by
  unfold State.inject
  dsimp only
  split
  · split
    · exact OptKept.some (State.setBuf_canonical hk)
    · exact OptKept.none
  · split
    · exact OptKept.some (State.setBuf_canonical hk)
    · exact OptKept.none

theorem State.sendBy_canonical (hk : Kept σ s) {pos port : Nat} {ctx node : Nat} {w : Word} {t : Token} :
    OptKept σ (s.sendBy pos port ctx node w t) := by
  unfold State.sendBy
  dsimp only
  split
  · split
    · exact OptKept.some (Kept.ite (State.sink_canonical hk) hk)
    · split
      · exact OptKept.some (Kept.same hk (by rfl))
      · exact OptKept.none
  · split
    · split
      · exact State.inject_canonical hk
      · split
        · exact State.inject_canonical hk
        · split
          · exact OptKept.some (Kept.same hk (by rfl))
          · exact OptKept.none
    · exact OptKept.none

theorem execOutputStageDepart_good {pos idx : Nat} (hk : Kept σ s) : Good σ (execOutputStageDepart pos idx s) := by
  unfold execOutputStageDepart
  dsimp only
  split
  · exact .idle hk
  · split
    · exact .next (State.setElem_canonical hk)
    · split
      · exact .idle hk
      · split
        · exact .next (State.discardN_canonical (State.setElem_canonical hk))
        · split
          · exact .next (OptKept.get (by assumption) (State.sendBy_canonical (State.setElem_canonical hk)))
          · exact .idle hk

theorem State.emitOrder_canonical (hk : Kept σ s) {o : ElemOps} {f : Fire} {ops : List Opnd} : Kept σ (s.emitOrder o f ops) := by
  unfold State.emitOrder
  dsimp only
  exact State.runFire_canonical hk

theorem execMark_good {o : ElemOps} (hk : Kept σ s) : Good σ (execMark o s) := by
  unfold execMark
  dsimp only
  split
  · exact .idle hk
  · exact .next (Kept.same hk (by rfl))

theorem execTrap_good {o : ElemOps} (hk : Kept σ s) : Good σ (execTrap o s) := by
  unfold execTrap
  dsimp only
  split
  · exact .idle hk
  · split
    · exact .next (State.emitAll_canonical (State.issued_canonical hk))
    · exact .next (State.emitAll_canonical (State.sendTrap_canonical (State.modCtx_canonical (State.issued_canonical hk))))

theorem State.stopBegin_canonical (hk : Kept σ s) {part : Nat} {r : SaveReq} : Kept σ (s.stopBegin part r) := by
  unfold State.stopBegin
  dsimp only
  split
  · exact hk
  · exact Kept.same hk (by rfl)

theorem State.takeYield_canonical (hk : Kept σ s) {f : Fire} {t : Token} {r : SaveReq} : Kept σ (s.takeYield f t r) := by
  unfold State.takeYield
  exact State.modCtx_canonical (State.issued_canonical (Kept.ite (State.stopBegin_canonical hk) hk))

theorem execYield_good {o : ElemOps} (hk : Kept σ s) : Good σ (execYield o s) := by
  unfold execYield
  dsimp only
  split
  · exact .idle hk
  · split
    · split
      · exact .next (State.takeYield_canonical hk)
      · exact .next (State.emitOrder_canonical hk)
    · split
      · exact .next (State.takeYield_canonical hk)
      · exact .next (State.emitOrder_canonical hk)
    · exact .next (State.emitOrder_canonical hk)

theorem State.beginEnd_canonical (hk : Kept σ s) {ctx kind code : Nat} {exit : BitVec 32} {plate : Handle} :
    Kept σ (s.beginEnd ctx kind code exit plate) := by
  unfold State.beginEnd
  exact State.modCtx_canonical hk

theorem State.exitSink_canonical (hk : Kept σ s) {f : Fire} {a : Opnd} : Kept σ (s.exitSink f a) := by
  unfold State.exitSink
  dsimp only
  split
  · exact State.sink_canonical hk
  · split
    · exact State.sink_canonical hk
    · exact Kept.same (State.sink_canonical hk) (by rfl)

theorem execExit_good {o : ElemOps} (hk : Kept σ s) : Good σ (execExit o s) := by
  unfold execExit
  dsimp only
  split
  · exact .idle hk
  · split
    · exact .next (State.beginEnd_canonical (State.exitSink_canonical (State.issued_canonical hk)))
    · exact .next (State.beginEnd_canonical (State.issued_canonical hk))

theorem execSend_good {o : ElemOps} (hk : Kept σ s) : Good σ (execSend o s) := by
  unfold execSend
  dsimp only
  split
  · exact .idle hk
  · split
    · exact .next (State.emitAll_canonical (State.issued_canonical hk))
    · split
      · exact .next (State.emitAll_canonical (State.issued_canonical hk))
      · split
        · exact .next (State.yieldTurn_canonical hk)
        · exact .next (Kept.same hk (by rfl))

theorem execSendAcceptance_good {idx : Nat} (hk : Kept σ s) : Good σ (execSendAcceptance idx s) := by
  unfold execSendAcceptance
  dsimp only
  split
  · exact .idle hk
  · split
    · exact .idle hk
    · split
      · exact .next (Kept.same hk (by rfl))
      · split
        · split
          · exact .next (State.emitAll_canonical (Kept.same hk (by rfl)))
          · exact .next (State.discardN_canonical (Kept.same hk (by rfl)))
        · exact .next (Kept.same hk (by rfl))

theorem execLaunch_good {o : ElemOps} (hk : Kept σ s) : Good σ (execLaunch o s) := by
  unfold execLaunch
  dsimp only
  split
  · exact .idle hk
  · split
    · exact .next (State.robDone_canonical (Kept.same hk (by rfl)))
    · split
      · exact .next (State.robDone_canonical (Kept.same hk (by rfl)))
      · exact .next (Kept.same hk (by rfl))

theorem execLaunchResponse_good {idx : Nat} (hk : Kept σ s) : Good σ (execLaunchResponse idx s) := by
  unfold execLaunchResponse
  dsimp only
  split
  · exact .idle hk
  · split
    · exact .next (Kept.same hk (by rfl))
    · split
      · exact .next (OptKept.getD (State.accFinish_canonical (Kept.same hk (by rfl))) (Kept.same hk (by rfl)))
      · exact .next (State.accFail_canonical (Kept.same hk (by rfl)))

theorem State.switchIssue_canonical (hk : Kept σ s) {pos i : Nat} {p : Pair} : Kept σ (s.switchIssue pos i p) := by
  unfold State.switchIssue
  dsimp only
  split
  · exact hk
  · split
    · exact Kept.same (State.emitAll_canonical (State.issued_canonical hk)) (by rfl)
    · exact State.emitAll_canonical (State.issued_canonical hk)

theorem execCfgsw_good {o : ElemOps} (hk : Kept σ s) : Good σ (execCfgsw o s) := by
  unfold execCfgsw
  dsimp only
  split
  · exact .idle hk
  · split
    · exact .next (State.issued_canonical hk)
    · split <;> exact .next (State.emitAll_canonical (State.issued_canonical hk))

theorem execMemoryNodeSwitchEmit_good {pos slot node : Nat} (hk : Kept σ s) :
    Good σ (execMemoryNodeSwitchEmit pos slot node s) := by
  unfold execMemoryNodeSwitchEmit
  dsimp only
  split
  · split
    · exact .next (State.switchIssue_canonical hk)
    · exact .idle hk
  · exact .idle hk

theorem execDrainNotice_good {idx : Nat} (hk : Kept σ s) : Good σ (execDrainNotice idx s) := by
  unfold execDrainNotice
  dsimp only
  split
  · exact .idle hk
  · split
    · exact .next (Kept.same hk (by rfl))
    · split
      · split
        · exact .next (State.setCtx_canonical (Kept.same hk (by rfl)))
        · exact .next (State.fabricFault_canonical (Kept.same hk (by rfl)))
      · exact .next (State.fabricFault_canonical (Kept.same hk (by rfl)))

end

end Sys2Proof.Machine
/-! SUPPORT. What leaves the memories canonical: the ports of the engines, the Press, the Graft and the Pruner. -/

namespace Sys2Proof.Machine

section
variable {σ s : State}

theorem State.engineFault_canonical (hk : Kept σ s) {code ctx : Nat} {quire src detail : Nat} {h : Handle} :
    Kept σ (s.engineFault code ctx quire src detail h) := by
  unfold State.engineFault
  exact State.fabricFault_canonical hk

theorem State.strandItem_canonical (hk : Kept σ s) {ctx quire : Nat} {src detail : Nat} {h : Handle} :
    Kept σ (s.strandItem ctx quire src detail h) := by
  unfold State.strandItem
  dsimp only
  split
  · exact State.engineFault_canonical (State.modCtx_canonical hk)
  · exact State.modCtx_canonical hk

theorem State.strandToks_canonical (hk : Kept σ s) {ctx quire src : Nat} {l : List Token} :
    Kept σ (s.strandToks ctx quire src l) := by
  unfold State.strandToks
  exact Kept.foldl (fun _ _ hu => State.strandItem_canonical hu) _ hk

theorem State.engineSend_canonical (hk : Kept σ s) {pos ctx didx : Nat} {t : Token} :
    OptKept σ (s.engineSend pos ctx didx t) := by
  unfold State.engineSend
  dsimp only
  split
  · exact OptKept.some (State.discardN_canonical hk)
  · exact State.sendBy_canonical hk

theorem State.engineUnion_canonical (hk : Kept σ s) {ctx : Nat} {h : Handle} {l : List Handle} :
    Kept σ (s.engineUnion ctx h l).state := by
  unfold State.engineUnion
  split
  · exact hk
  · exact State.plateOvf_canonical hk
  · exact State.askUnion_canonical hk

theorem State.modPress_canonical (hk : Kept σ s) {q : Nat} {g : Press → Press} : Kept σ (s.modPress q g) :=
  Kept.same hk (by rfl)

theorem State.pressPort_good (hk : Kept σ s) {pos port lo hi : Nat} {fmts : Nat → List Fmt} {g : Nat → Nat → Token → State → Option State}
    (hg : ∀ q p t s, Kept σ s → OptKept σ (g q p t s)) : Good σ (s.pressPort pos port lo hi fmts g) := by
  unfold State.pressPort
  dsimp only
  split
  · exact .idle hk
  · split
    · exact .next (State.discardN_canonical (Kept.same hk (by rfl)))
    · split
      · split
        · exact .next (Kept.same hk (by rfl))
        · exact .next (State.engineFault_canonical (Kept.same hk (by rfl)))
      · split
        · exact .next (OptKept.get (by assumption) (hg _ _ _ _ (Kept.same hk (by rfl))))
        · exact .idle hk

theorem State.putTile_canonical (hk : Kept σ s) {q : Nat} {had : Bool} {b : Tile} : Kept σ (s.putTile q had b) :=
  Kept.same hk (by rfl)

theorem State.tileToken_canonical (hk : Kept σ s) {q reg : Nat} {isShift : Bool} {t : Token} :
    OptKept σ (s.tileToken q reg isShift t) := by
  unfold State.tileToken
  dsimp only
  split
  · exact OptKept.none
  · split
    · split
      · split
        · exact OptKept.some (State.engineFault_canonical hk)
        · exact OptKept.some (State.putTile_canonical hk)
      · split
        · exact OptKept.some (State.engineFault_canonical hk)
        · exact OptKept.some (State.putTile_canonical hk)
    · exact OptKept.some (State.putTile_canonical hk)

theorem State.cmdDone_canonical (hk : Kept σ s) {q id : Nat} {status lane1 : Nat} : Kept σ (s.cmdDone q id status lane1) := by
  unfold State.cmdDone
  split
  · exact State.setQcc_canonical hk
  · exact Kept.same hk (by rfl)

theorem State.ringWrite_canonical (hk : Kept σ s) {vf queue : Nat} {c : QueueCtl} {entry : Bytes} :
    Kept σ (s.ringWrite vf queue c entry) :=
  Kept.same hk (by rfl)

theorem State.deliver_canonical (hk : Kept σ s) {vf queue : Nat} {t : Token} : DeliverKept σ (s.deliver vf queue t) := by
  unfold State.deliver
  dsimp only
  split
  · exact State.vfCount_canonical hk
  · split
    · exact trivial
    · split
      · exact Kept.snd (by assumption) (State.clasp_canonical hk)
      · exact State.ringWrite_canonical (State.setVf_canonical (Kept.snd (by assumption) (State.clasp_canonical hk)))

theorem State.modSteps_canonical (hk : Kept σ s) {die : Nat} {g : List PStep → List PStep} : Kept σ (s.modSteps die g) :=
  Kept.same hk (by rfl)

theorem State.stepEnd_canonical (hk : Kept σ s) {die i : Nat} {p : PStep} {status lane1 : Nat} :
    Kept σ (s.stepEnd die i p status lane1) := by
  unfold State.stepEnd
  exact State.cmdDone_canonical (State.modSteps_canonical hk)

theorem execPrunerStepDispatch_good {die : Nat} (hk : Kept σ s) : Good σ (execPrunerStepDispatch die s) := by
  unfold execPrunerStepDispatch
  dsimp only
  split
  · split
    · exact .idle hk
    · exact .next (State.modSteps_canonical hk)
  · exact .idle hk

theorem State.intake_canonical (hk : Kept σ s) {die i n : Nat} : Kept σ (s.intake die i n) := by
  induction n generalizing s with
  | zero => exact hk
  | succ n ih =>
    unfold State.intake
    split
    · exact hk
    · split
      · dsimp only
        split
        · exact Kept.wait (by assumption) (State.unitRead_canonical hk)
        · exact State.stepEnd_canonical (Kept.fail (by assumption) (State.unitRead_canonical hk))
        next v h s1 e1 =>
          have h1 : Kept σ s1 := Kept.ok e1 (State.unitRead_canonical hk)
          split
          · exact Kept.same hk (by rfl)
          · exact State.stepEnd_canonical (EngineUnion.kept_ok (by assumption) (State.engineUnion_canonical h1))
          · exact ih (Kept.same (EngineUnion.kept_ok (by assumption) (State.engineUnion_canonical h1)) (by rfl))
      · exact hk

theorem execPrunerIntake_good {die : Nat} (hk : Kept σ s) : Good σ (execPrunerIntake die s) := by
  unfold execPrunerIntake
  split
  · split
    · exact .next (State.intake_canonical hk)
    · exact .idle hk
  · exact .idle hk

theorem State.sendPruner_canonical (hk : Kept σ s) {accel kind : Nat} {gid seq : Nat} {src dst : Nat} {fixed : Bytes} {cands : List Cand} :
    Kept σ (s.sendPruner accel kind gid seq src dst fixed cands) := by
  unfold State.sendPruner
  exact Kept.foldl (fun _ _ hu => State.sendFlit_canonical hu) _ hk

theorem State.inboxAdd_canonical (hk : Kept σ s) {die : Nat} {m : PMsg} : Kept σ (s.inboxAdd die m) :=
  Kept.same hk (by rfl)

theorem State.inboxDrop_canonical (hk : Kept σ s) {die i : Nat} : Kept σ (s.inboxDrop die i) :=
  Kept.same hk (by rfl)

theorem State.toMember_canonical (hk : Kept σ s) {src : Nat} {m : Nat × Nat} {x : PMsg} : Kept σ (s.toMember src m x).2 := by
  unfold State.toMember
  split
  · exact State.inboxAdd_canonical hk
  · split
    · split
      · exact Kept.snd (by assumption) (State.clasp_canonical hk)
      · split <;> exact State.sendPruner_canonical (Kept.snd (by assumption) (State.clasp_canonical hk))

theorem State.prunerFlit_canonical (hk : Kept σ s) {accel : Nat} {b : Bytes} : Kept σ (s.prunerFlit accel b) := by
  unfold State.prunerFlit
  dsimp only
  split
  · exact State.setPruner_canonical hk
  · split
    · exact State.inboxAdd_canonical hk
    · exact State.inboxAdd_canonical hk
    · exact State.inboxAdd_canonical hk
    · exact hk

theorem State.sendList_canonical (hk : Kept σ s) {die i : Nat} {p : PStep} : Kept σ (s.sendList die i p) := by
  unfold State.sendList
  dsimp only
  split
  · exact hk
  · split
    · exact State.modSteps_canonical (Kept.snd (by assumption) (State.toMember_canonical hk))
    · exact State.stepEnd_canonical (State.toMember_canonical (Kept.snd (by assumption) (State.toMember_canonical hk)))

theorem State.writeResult_canonical (hk : Kept σ s) {die i n : Nat} : Kept σ (s.writeResult die i n) := by
  induction n generalizing s with
  | zero => exact hk
  | succ n ih =>
    unfold State.writeResult
    split
    · exact hk
    · split
      · dsimp only
        split
        · exact State.stepEnd_canonical hk
        · split
          · exact State.askUnion_canonical hk
          · exact State.stepEnd_canonical (State.plateOvf_canonical hk)
          · split
            · exact Kept.wait (by assumption) (State.unitWrite_canonical hk)
            · exact State.stepEnd_canonical (Kept.fail (by assumption) (State.unitWrite_canonical hk))
            · exact ih (Kept.same (Kept.ok (by assumption) (State.unitWrite_canonical hk)) (by rfl))
      · exact hk

theorem execPrunerListFinal_good {die : Nat} (hk : Kept σ s) : Good σ (execPrunerListFinal die s) := by
  unfold execPrunerListFinal
  dsimp only
  split
  · exact .idle hk
  · split
    · exact .idle hk
    · split
      · split
        · exact .next (State.sendList_canonical hk)
        · exact .next (State.writeResult_canonical (State.modSteps_canonical hk))
      · exact .next (State.writeResult_canonical hk)

theorem State.sendWinner_canonical (hk : Kept σ s) {die gid : Nat} {w : Winner} {l : List (Nat × Nat)} :
    Kept σ (s.sendWinner die gid w l) := by
  induction l generalizing s with
  | nil => exact hk
  | cons m l ih => exact ih (Kept.ite (State.toMember_canonical hk) (State.toMember_canonical (State.toMember_canonical hk)))

theorem State.leaderEnd_canonical (hk : Kept σ s) {die gid : Nat} {w : Winner} : Kept σ (s.leaderEnd die gid w) := by
  unfold State.leaderEnd
  dsimp only
  split
  · exact hk
  · exact State.sendWinner_canonical (State.setPruner_canonical hk)

theorem execPrunerListMerge_good {die idx : Nat} (hk : Kept σ s) : Good σ (execPrunerListMerge die idx s) := by
  unfold execPrunerListMerge
  dsimp only
  split
  · split
    · exact .next (State.inboxDrop_canonical hk)
    · split
      · exact .next (State.setPruner_canonical (State.inboxDrop_canonical hk))
      · split
        · exact .next (State.sendWinner_canonical (State.inboxDrop_canonical hk))
        · split
          · exact .next (State.inboxDrop_canonical hk)
          · split
            · exact .next (Kept.same hk (by rfl))
            · split
              · exact .next (State.leaderEnd_canonical (State.setPruner_canonical (EngineUnion.kept_ok (by assumption)
                  (State.engineUnion_canonical (State.inboxDrop_canonical hk)))))
              · exact .next (State.setPruner_canonical (EngineUnion.kept_ok (by assumption) (State.engineUnion_canonical
                  (State.inboxDrop_canonical hk))))
  · exact .idle hk

theorem execPrunerWinnerArrival_good {die idx : Nat} (hk : Kept σ s) : Good σ (execPrunerWinnerArrival die idx s) := by
  unfold execPrunerWinnerArrival
  dsimp only
  split
  · split
    · exact .idle hk
    · split
      · exact .next (State.inboxDrop_canonical hk)
      · split
        · exact .idle hk
        · split
          · exact .next (State.stepEnd_canonical (State.inboxDrop_canonical hk))
          · exact .next (State.writeResult_canonical (State.modSteps_canonical (State.inboxDrop_canonical hk)))
  · exact .idle hk

theorem execPrunerResend_good {die idx : Nat} (hk : Kept σ s) : Good σ (execPrunerResend die idx s) := by
  unfold execPrunerResend
  split
  · split
    · split
      · exact .next (State.sendList_canonical hk)
      · exact .idle hk
    · exact .idle hk
  · exact .idle hk

theorem execPrunerWithdrawal_good {die idx : Nat} (hk : Kept σ s) : Good σ (execPrunerWithdrawal die idx s) := by
  unfold execPrunerWithdrawal
  dsimp only
  split
  · split
    · exact .next (State.inboxDrop_canonical hk)
    · split
      · exact .next (State.setPruner_canonical (State.inboxDrop_canonical hk))
      · split
        · exact .next (State.sendWinner_canonical (State.inboxDrop_canonical hk))
        · exact .next (State.leaderEnd_canonical (State.inboxDrop_canonical hk))
  · exact .idle hk

theorem execCommitStart_good {die : Nat} (hk : Kept σ s) : Good σ (execCommitStart die s) := by
  unfold execCommitStart
  dsimp only
  split
  · split
    · exact .idle hk
    · split
      · exact .next (State.stepEnd_canonical hk)
      · exact .next (State.setPruner_canonical hk)
  · exact .idle hk

theorem State.setCommit_canonical (hk : Kept σ s) {die slot : Nat} {c : Commit} : Kept σ (s.setCommit die slot c) :=
  Kept.same hk (by rfl)

theorem State.commitEnd_canonical (hk : Kept σ s) {die slot : Nat} {c : Commit} {status : Nat} :
    Kept σ (s.commitEnd die slot c status) := by
  unfold State.commitEnd
  dsimp only
  exact State.cmdDone_canonical (State.setPruner_canonical hk)

theorem State.commitRead_canonical (hk : Kept σ s) {die slot : Nat} {c : Commit} {va align size : Nat} {g : Commit → Nat → State → State}
    (hg : ∀ c v s, Kept σ s → Kept σ (g c v s)) : Kept σ (s.commitRead die slot c va align size g) := by
  unfold State.commitRead
  split
  · exact Kept.wait (by assumption) (State.unitReadAt_canonical hk)
  · exact State.commitEnd_canonical (Kept.fail (by assumption) (State.unitReadAt_canonical hk))
  next v h s1 e1 =>
    have h1 : Kept σ s1 := Kept.ok e1 (State.unitReadAt_canonical hk)
    split
    · exact Kept.same hk (by rfl)
    · exact State.commitEnd_canonical (EngineUnion.kept_ok (by assumption) (State.engineUnion_canonical h1))
    · exact hg _ _ _ (EngineUnion.kept_ok (by assumption) (State.engineUnion_canonical h1))

theorem State.commitWrite_canonical (hk : Kept σ s) {die slot : Nat} {c : Commit} {va align size v : Nat} {g : State → State}
    (hg : ∀ s, Kept σ s → Kept σ (g s)) : Kept σ (s.commitWrite die slot c va align size v g) := by
  unfold State.commitWrite
  split
  · exact Kept.wait (by assumption) (State.unitWriteAt_canonical hk)
  · exact State.commitEnd_canonical (Kept.fail (by assumption) (State.unitWriteAt_canonical hk))
  · exact hg _ (Kept.ok (by assumption) (State.unitWriteAt_canonical hk))

theorem State.commitToken_canonical (hk : Kept σ s) {die slot : Nat} {c : Commit} : Kept σ (s.commitToken die slot c) := by
  unfold State.commitToken
  dsimp only
  split
  · exact State.setCommit_canonical hk
  · split
    · exact State.setCommit_canonical hk
    · split
      · exact State.setCommit_canonical (DeliverKept.get_ok (by assumption) (State.deliver_canonical hk))
      · exact State.setCommit_canonical (DeliverKept.get_off (by assumption) (State.deliver_canonical hk))
      · exact hk
      · exact State.setCommit_canonical (DeliverKept.get_refused (by assumption) (State.deliver_canonical hk))

theorem State.commitPush_canonical (hk : Kept σ s) {die slot : Nat} {c : Commit} {page pool : Nat} {pushed : Bool} :
    Kept σ (s.commitPush die slot c page pool pushed) := by
  unfold State.commitPush
  dsimp only
  split
  · exact State.commitWrite_canonical hk (fun _ hb => State.setCommit_canonical hb)
  · split
    · exact State.commitEnd_canonical hk
    · split
      · split
        · exact State.setCommit_canonical (State.commitWrite_canonical (State.setCommit_canonical hk)
            (fun _ hb => State.commitWrite_canonical hb (fun _ hb2 => State.setCommit_canonical hb2)))
        · exact State.commitWrite_canonical (State.setCommit_canonical hk) (fun _ hb => State.commitWrite_canonical hb
            (fun _ hb2 => State.setCommit_canonical hb2))
      · exact State.commitWrite_canonical (State.setCommit_canonical hk) (fun _ hb => State.commitWrite_canonical hb
          (fun _ hb2 => State.setCommit_canonical hb2))

theorem execCommitDeliver_good {die slot : Nat} (hk : Kept σ s) : Good σ (execCommitDeliver die slot s) := by
  unfold execCommitDeliver
  dsimp only
  split
  · exact .idle hk
  · split
    · exact .idle hk
    · split
      · split
        · exact .next (State.commitRead_canonical hk (fun _ _ _ hb => by
            split
            · exact State.commitEnd_canonical hb
            · exact State.setCommit_canonical hb))
        · split
          · exact .next (State.commitRead_canonical hk (fun _ _ _ hb => State.setCommit_canonical hb))
          · split
            · exact .next (State.commitRead_canonical hk (fun _ _ _ hb => State.setCommit_canonical hb))
            · exact .next (State.setCommit_canonical hk)
      · exact .next (State.commitToken_canonical hk)
      · exact .next (State.commitWrite_canonical hk (fun _ hb => by
          split
          · exact State.commitEnd_canonical hb
          · exact State.setCommit_canonical hb))
      · split
        · exact .next (State.commitEnd_canonical hk)
        · split
          · exact .next (State.commitRead_canonical hk (fun _ _ _ hb => by
              split <;> exact State.setCommit_canonical hb))
          · exact .next (State.commitRead_canonical hk (fun _ _ _ hb => State.commitPush_canonical hb))
          · exact .next (State.commitPush_canonical hk)

end

end Sys2Proof.Machine
/-! SUPPORT. What leaves the memories canonical: the control core and the engines' events. -/

namespace Sys2Proof.Machine

section
variable {σ s : State}

theorem State.modCur_canonical (hk : Kept σ s) {g : Qcc → Qcc} : Kept σ (s.modCur g) :=
  Kept.same hk (by rfl)

theorem State.retire_good (hk : Kept σ s) {rd : BitVec 5} {v : Nat} : Good σ (s.retire rd v) := by
  unfold State.retire
  exact .next (State.modCur_canonical hk)

theorem State.retire0_good (hk : Kept σ s) : Good σ (s.retire0) := by
  unfold State.retire0
  exact .next (State.modCur_canonical hk)

theorem State.sendQccTrap_canonical (hk : Kept σ s) {ctx : Nat} {rec : BitVec 128} {h : Handle} :
    Kept σ (s.sendQccTrap ctx rec h) := by
  unfold State.sendQccTrap
  dsimp only
  exact State.sendTrap_canonical (State.modCtx_canonical hk)

theorem State.qccTrap_canonical (hk : Kept σ s) {r : TaskRun} {code word aux : Nat} : Kept σ (s.qccTrap r code word aux) := by
  unfold State.qccTrap
  dsimp only
  split
  · exact State.beginEnd_canonical (State.modCur_canonical (State.sendQccTrap_canonical hk))
  · exact State.modCur_canonical (State.sendQccTrap_canonical hk)

theorem State.trapHere_good (hk : Kept σ s) {r : TaskRun} {code aux : Nat} : Good σ (s.trapHere r code aux) := by
  unfold State.trapHere
  exact .next (State.qccTrap_canonical hk)

theorem State.onSync_good {α : Type} {r : TaskRun} {aux : Nat} {x : Sync α} {g : α → State → Res} (hx : Kept σ x.state)
    (hg : ∀ a s, Kept σ s → Good σ (g a s)) : Good σ (State.onSync r aux x g) := by
  cases x with
  | ok a s => exact hg a s hx
  | fail c s => exact State.trapHere_good hx
  | wait s => exact .next hx

theorem State.setTaskSet_canonical (hk : Kept σ s) {h : Handle} : Kept σ (s.setTaskSet h) :=
  Kept.same hk (by rfl)

theorem State.taskGrow_canonical (hk : Kept σ s) {r : TaskRun} {h : Handle} : Kept σ (s.taskGrow r h).state := by
  unfold State.taskGrow
  split
  · exact Kept.ite hk (State.setTaskSet_canonical hk)
  · exact State.plateOvf_canonical hk
  · exact State.askUnion_canonical hk

theorem State.setRegion_canonical (hk : Kept σ s) {q r : Nat} {h : Handle} : Kept σ (s.setRegion q r h) :=
  Kept.same hk (by rfl)

theorem State.growBy_canonical (hk : Kept σ s) {r : TaskRun} {l : List Nat} : Kept σ (s.growBy r l).state := by
  induction l generalizing s with
  | nil => exact hk
  | cons x l ih => exact Kept.bind (State.taskGrow_canonical hk) fun _ _ hb => ih hb

theorem State.ctlLoad_canonical (hk : Kept σ s) {r : TaskRun} {a n : Nat} : Kept σ (s.ctlLoad r a n).state := by
  unfold State.ctlLoad
  dsimp only
  refine Kept.bind (State.growBy_canonical hk) fun _ _ hb => ?_
  split <;> exact State.readErrs_canonical hb

theorem State.ctlStore_canonical (hk : Kept σ s) {r : TaskRun} {a n v : Nat} : Kept σ (s.ctlStore r a n v).state := by
  unfold State.ctlStore
  dsimp only
  split
  · exact State.plateOvf_canonical hk
  · exact State.askUnion_canonical hk
  · exact hk
  · split
    · exact State.readErrs_canonical hk
    · refine State.writeErrs_canonical (Kept.ctl (Kept.foldl (fun _ _ hu => Kept.same hu (by rfl)) _ hk) (memWrite_wf _ _ _))

theorem State.aluR_good (hk : Kept σ s) {rd ra rb : BitVec 5} {g : Nat → Nat → Nat} : Good σ (s.aluR rd ra rb g) := by
  unfold State.aluR
  split
  · exact .idle hk
  · exact State.retire_good hk

theorem State.aluI_good (hk : Kept σ s) {rd ra : BitVec 5} {b : Nat} {g : Nat → Nat → Nat} : Good σ (s.aluI rd ra b g) := by
  unfold State.aluI
  split
  · exact .idle hk
  · exact State.retire_good hk

theorem execLui_good {rd : BitVec 5} {imm : BitVec 20} (hk : Kept σ s) : Good σ (execLui rd imm s) := by
  unfold execLui
  split
  · exact .idle hk
  · exact State.retire_good hk

theorem State.branch_good (hk : Kept σ s) {ra rb : BitVec 5} {off : BitVec 15} {g : Nat → Nat → Bool} :
    Good σ (s.branch ra rb off g) := by
  unfold State.branch
  split
  · exact .idle hk
  · exact .next (State.modCur_canonical hk)

theorem execJal_good {rd : BitVec 5} {off : BitVec 20} (hk : Kept σ s) : Good σ (execJal rd off s) := by
  unfold execJal
  split
  · exact .idle hk
  · exact .next (State.modCur_canonical hk)

theorem execJalr_good {rd ra : BitVec 5} {imm : BitVec 15} (hk : Kept σ s) : Good σ (execJalr rd ra imm s) := by
  unfold execJalr
  dsimp only
  split
  · exact .idle hk
  · split
    · exact State.trapHere_good hk
    · exact .next (State.modCur_canonical hk)

theorem State.qccLoad_good (hk : Kept σ s) {rd ra : BitVec 5} {imm : BitVec 15} {n : Nat} {g : Nat → Nat} :
    Good σ (s.qccLoad rd ra imm n g) := by
  unfold State.qccLoad
  dsimp only
  split
  · exact .idle hk
  · split
    · exact State.trapHere_good hk
    · refine State.onSync_good (State.ctlLoad_canonical hk) fun _ _ hb => ?_
      exact State.retire_good hb

theorem State.qccStore_good (hk : Kept σ s) {ra rb : BitVec 5} {off : BitVec 15} {n : Nat} : Good σ (s.qccStore ra rb off n) := by
  unfold State.qccStore
  dsimp only
  split
  · exact .idle hk
  · split
    · exact State.trapHere_good hk
    · refine State.onSync_good (State.ctlStore_canonical hk) fun _ _ hb => ?_
      exact State.retire0_good hb

theorem State.loadedGrow_good {s0 s1 : State} (h0 : Kept σ s0) (h1 : Kept σ s1) {r : TaskRun} {a : Nat} {h : Handle} {k : State → Res}
    (hg : ∀ s, Kept σ s → Good σ (k s)) : Good σ (s0.loadedGrow s1 r a h k) := by
  unfold State.loadedGrow
  split
  · exact hg _ (Kept.ok (by assumption) (State.taskGrow_canonical h1))
  · exact State.trapHere_good (Kept.fail (by assumption) (State.taskGrow_canonical h1))
  · split
    · exact .next (State.askUnion_canonical h0)
    · exact .next h0

theorem execLwg_good {rd ra : BitVec 5} {imm : BitVec 15} (hk : Kept σ s) : Good σ (execLwg rd ra imm s) := by
  unfold execLwg
  dsimp only
  split
  · exact .idle hk
  · refine State.onSync_good (State.unitRead_canonical hk) fun _ _ hb => ?_
    exact State.loadedGrow_good hk hb (fun _ hb2 => State.retire_good hb2)

theorem execSwg_good {ra rb : BitVec 5} {off : BitVec 15} (hk : Kept σ s) : Good σ (execSwg ra rb off s) := by
  unfold execSwg
  dsimp only
  split
  · exact .idle hk
  · refine State.onSync_good (State.unitWrite_canonical hk) fun _ _ hb => ?_
    exact State.retire0_good hb

theorem State.amoCtl_good (hk : Kept σ s) {r : TaskRun} {rd ra rb : BitVec 5} {aop : Nat} : Good σ (s.amoCtl r rd ra rb aop) := by
  unfold State.amoCtl
  dsimp only
  split
  · exact State.trapHere_good hk
  · refine State.onSync_good (State.ctlLoad_canonical hk) fun _ _ hb => ?_
    refine State.onSync_good (State.ctlStore_canonical hb) fun _ _ hb => ?_
    exact State.retire_good hb

theorem State.amoGlobal_good (hk : Kept σ s) {r : TaskRun} {rd ra rb : BitVec 5} {aop : Nat} :
    Good σ (s.amoGlobal r rd ra rb aop) := by
  unfold State.amoGlobal
  dsimp only
  refine State.onSync_good (State.unitAtom_canonical hk) fun _ _ hb => ?_
  split
  · exact State.trapHere_good (Kept.same hk (by rfl))
  · exact State.loadedGrow_good hk hb (fun _ hb2 => State.retire_good hb2)

theorem execAmo_good {rd ra rb : BitVec 5} {glob : BitVec 1} {aop : BitVec 4} (hk : Kept σ s) :
    Good σ (execAmo rd ra rb glob aop s) := by
  unfold execAmo
  split
  · exact .idle hk
  · split
    · exact State.trapHere_good hk
    · split
      · exact State.amoGlobal_good hk
      · exact State.amoCtl_good hk

theorem execTend_good (hk : Kept σ s) : Good σ (execTend s) := by
  unfold execTend
  split
  · exact .idle hk
  · exact .next (State.modCur_canonical hk)

theorem execTret_good (hk : Kept σ s) : Good σ (execTret s) := by
  unfold execTret
  split
  · exact .idle hk
  · exact .next (State.modCur_canonical hk)

theorem execTaskPick_good {quire : Nat} (hk : Kept σ s) : Good σ (execTaskPick quire s) := by
  unfold execTaskPick
  dsimp only
  split
  · split
    · split
      · exact .next (State.setQcc_canonical hk)
      · exact .idle hk
    · exact .idle hk
  · exact .idle hk

theorem execTasklong_good {quire : Nat} (hk : Kept σ s) : Good σ (execTasklong quire s) := by
  unfold execTasklong
  dsimp only
  split
  · exact .idle (Kept.same hk (by rfl))
  · split
    · exact State.trapHere_good (Kept.same hk (by rfl))
    · exact .idle (Kept.same hk (by rfl))

theorem execIllegalInstruction_good {word : Word} (hk : Kept σ s) : Good σ (execIllegalInstruction word s) := by
  unfold execIllegalInstruction
  split
  · exact .idle hk
  · exact .next (State.qccTrap_canonical hk)

theorem execFetchFault_good {quire : Nat} (hk : Kept σ s) : Good σ (execFetchFault quire s) := by
  unfold execFetchFault
  dsimp only
  split
  · exact .idle (Kept.same hk (by rfl))
  · split
    · exact .next (State.qccTrap_canonical (Kept.same hk (by rfl)))
    · split
      · exact State.trapHere_good (State.readErrs_canonical (Kept.same hk (by rfl)))
      · exact .idle (Kept.same hk (by rfl))

theorem execTarm_good {en : BitVec 1} {chan : BitVec 4} (hk : Kept σ s) : Good σ (execTarm en chan s) := by
  unfold execTarm
  dsimp only
  split
  · exact .idle hk
  · exact State.retire0_good (State.modCur_canonical hk)

theorem execTprio_good {prio : BitVec 3} {chan : BitVec 4} (hk : Kept σ s) : Good σ (execTprio prio chan s) := by
  unfold execTprio
  split
  · exact .idle hk
  · exact State.retire0_good (State.modCur_canonical hk)

theorem execQccTrap_good {code : BitVec 8} (hk : Kept σ s) : Good σ (execQccTrap code s) := by
  unfold execQccTrap
  split
  · exact .idle hk
  · exact State.retire0_good (State.sendQccTrap_canonical hk)

theorem execTsend_good {rd ra : BitVec 5} {rb len : BitVec 5} (hk : Kept σ s) : Good σ (execTsend rd ra rb len s) := by
  unfold execTsend
  dsimp only
  split
  · exact .idle hk
  · split
    · exact State.trapHere_good hk
    · split
      · exact State.retire_good hk
      · exact .idle hk
      · split
        · exact State.retire_good hk
        · refine State.onSync_good (State.ctlLoad_canonical hk) fun _ _ hb => ?_
          exact State.retire_good (State.modCur_canonical hb)

theorem execTpoll_good {rd ra rb : BitVec 5} (hk : Kept σ s) : Good σ (execTpoll rd ra rb s) := by
  unfold execTpoll
  dsimp only
  split
  · exact .idle hk
  · split
    · exact State.retire_good hk
    · split
      · exact State.retire_good hk
      · split
        · exact State.trapHere_good hk
        · refine State.onSync_good (State.taskGrow_canonical hk) fun _ _ hb => ?_
          refine State.onSync_good (by
            split
            · exact hb
            · exact State.ctlStore_canonical hb) fun _ _ hb => ?_
          exact State.retire_good (State.modCur_canonical hb)

theorem execTsendDelivery_good {quire : Nat} (hk : Kept σ s) : Good σ (execTsendDelivery quire s) := by
  unfold execTsendDelivery
  dsimp only
  split
  · exact .idle hk
  · split
    · exact .next (State.discardN_canonical (State.setQcc_canonical hk))
    · split
      · exact .idle hk
      · split
        · exact .next (OptKept.get (by assumption) (State.pushChan_canonical (State.setQcc_canonical hk)))
        · exact .idle hk

theorem execChannelMessageEntry_good {idx : Nat} (hk : Kept σ s) : Good σ (execChannelMessageEntry idx s) := by
  unfold execChannelMessageEntry
  dsimp only
  split
  · split
    · exact .idle hk
    · split
      · exact .next (State.discardN_canonical (Kept.same hk (by rfl)))
      · split
        · exact .next (State.sinkChan_canonical (by
            split <;> exact Kept.same hk (by rfl)))
        · split
          · exact .next (OptKept.get (by assumption) (State.pushChan_canonical (by
              split <;> exact Kept.same hk (by rfl))))
          · exact .idle hk
  · split
    · exact .idle hk
    · split
      · exact .next (Kept.same hk (by rfl))
      · split
        · split
          · split
            · exact .next (OptKept.get (by assumption) (State.pushChan_canonical (Kept.same hk (by rfl))))
            · exact .idle hk
          · exact .idle hk
        · exact .next (State.sendTrap_canonical (Kept.same hk (by rfl)))

theorem State.failExhausted_canonical (hk : Kept σ s) {ctx act : Nat} : Kept σ (s.failExhausted ctx act) :=
  Kept.same hk (by rfl)

theorem State.dovGo_canonical (hk : Kept σ s) {r : TaskRun} {v : Nat} : Kept σ (s.dovGo r v).2 := by
  unfold State.dovGo
  dsimp only
  split
  · exact hk
  · split
    · exact hk
    · split
      · exact State.failExhausted_canonical hk
      · split
        · exact hk
        · exact State.setCtx_canonical hk

theorem execSysr_good {rd ra : BitVec 5} {imm : BitVec 15} (hk : Kept σ s) : Good σ (execSysr rd ra imm s) := by
  unfold execSysr
  dsimp only
  split
  · exact .idle hk
  · split
    · exact State.retire_good hk
    · exact State.trapHere_good hk
    · exact .idle hk

theorem State.xinvHi_canonical (hk : Kept σ s) {r : TaskRun} {v : Nat} : Kept σ (s.xinvHi r v) := by
  unfold State.xinvHi
  dsimp only
  split
  · exact State.modCur_canonical hk
  · exact State.invalidate_canonical (State.modCur_canonical hk)

theorem State.sysWrite_canonical (hk : Kept σ s) {r : TaskRun} {n v : Nat} : OptKept σ (s.sysWrite r n v) := by
  unfold State.sysWrite
  dsimp only
  split
  · exact OptKept.some (State.modCur_canonical hk)
  · exact OptKept.some (State.modCur_canonical hk)
  · exact OptKept.some (State.xinvHi_canonical hk)
  · split
    · exact OptKept.some (State.modCur_canonical hk)
    · exact OptKept.none
  · split
    · exact OptKept.some (State.fqResume_canonical hk)
    · exact OptKept.none
  · split
    · exact OptKept.some (State.fqFail_canonical hk)
    · exact OptKept.none
  · exact OptKept.some (State.modCur_canonical hk)
  · exact OptKept.some (State.modCur_canonical hk)
  · exact OptKept.some (State.modCur_canonical hk)
  · exact OptKept.some (State.modCur_canonical hk)
  · split
    · exact OptKept.some (State.modCur_canonical (State.dovGo_canonical hk))
    · exact OptKept.none
  · exact OptKept.some (State.modCur_canonical hk)
  · split
    · exact OptKept.some (State.modCur_canonical hk)
    · exact OptKept.none
  · exact OptKept.none

theorem execSysw_good {rd ra : BitVec 5} {imm : BitVec 15} (hk : Kept σ s) : Good σ (execSysw rd ra imm s) := by
  unfold execSysw
  dsimp only
  split
  · exact .idle hk
  · split
    · exact State.retire0_good (OptKept.get (by assumption) (State.sysWrite_canonical hk))
    · exact State.trapHere_good hk

theorem execPressFillToken_good {pos port : Nat} (hk : Kept σ s) : Good σ (execPressFillToken pos port s) := by
  unfold execPressFillToken
  exact State.pressPort_good hk (fun _ _ _ _ hb => State.tileToken_canonical hb)

theorem execPressShiftToken_good {pos port : Nat} (hk : Kept σ s) : Good σ (execPressShiftToken pos port s) := by
  unfold execPressShiftToken
  exact State.pressPort_good hk (fun _ _ _ _ hb => State.tileToken_canonical hb)

theorem execTensorScaleToken_good {pos port : Nat} (hk : Kept σ s) : Good σ (execTensorScaleToken pos port s) := by
  unfold execTensorScaleToken
  dsimp only
  exact State.pressPort_good hk (fun _ _ _ _ hb => by
    split
    · exact OptKept.none
    · exact OptKept.some (State.setPress_canonical hb))

theorem execPressGoToken_good {pos port : Nat} (hk : Kept σ s) : Good σ (execPressGoToken pos port s) := by
  unfold execPressGoToken
  dsimp only
  exact State.pressPort_good hk (fun _ _ _ _ hb => by
    split
    · exact OptKept.some (State.sink_canonical hb)
    · split
      · exact OptKept.some (State.sink_canonical hb)
      · split
        · exact OptKept.none
        · exact OptKept.some (State.setPress_canonical hb))

theorem State.pressProduct_canonical (hk : Kept σ s) {q : Nat} {g : Token} {pop : Nat} {w : PressWord} :
    Kept σ (sumState id (s.pressProduct q g pop w)) := by
  unfold State.pressProduct
  dsimp only
  split
  · split
    · exact EngineUnion.kept_wait (by assumption) (State.engineUnion_canonical hk)
    · exact State.charge_canonical (State.setPress_canonical (EngineUnion.kept_ok (by assumption) (State.engineUnion_canonical hk)))
  · exact hk

theorem State.pressDrainForm_canonical (hk : Kept σ s) {q : Nat} {g : Token} {w : PressWord} :
    Kept σ (sumState id (s.pressDrainForm q g w)) := by
  unfold State.pressDrainForm
  dsimp only
  split
  · exact hk
  · split
    · exact EngineUnion.kept_wait (by assumption) (State.engineUnion_canonical hk)
    · exact State.setPress_canonical (EngineUnion.kept_ok (by assumption) (State.engineUnion_canonical hk))

theorem State.pressOperation_good (hk : Kept σ s) {pop : Nat} {w : PressWord} : Good σ (s.pressOperation pop w) := by
  unfold State.pressOperation
  dsimp only
  split
  · exact .idle hk
  · split
    · exact .idle hk
    · split
      · exact .next (Kept.same hk (by rfl))
      · split
        · exact .next (Kept.same hk (by rfl))
        · exact .next (Kept.ite (Kept.inl (by assumption) (by
            split
            · exact State.pressDrainForm_canonical (Kept.inl (by assumption) (by
                split
                · exact State.setPress_canonical hk
                · exact State.pressProduct_canonical (State.setPress_canonical hk)))
            · exact Kept.inl (by assumption) (by
                split
                · exact State.setPress_canonical hk
                · exact State.pressProduct_canonical (State.setPress_canonical hk)))) (State.setGraft_canonical (Kept.inl
                    (by assumption) (by
            split
            · exact State.pressDrainForm_canonical (Kept.inl (by assumption) (by
                split
                · exact State.setPress_canonical hk
                · exact State.pressProduct_canonical (State.setPress_canonical hk)))
            · exact Kept.inl (by assumption) (by
                split
                · exact State.setPress_canonical hk
                · exact State.pressProduct_canonical (State.setPress_canonical hk))))))

theorem State.drainSend_canonical (hk : Kept σ s) {q : Nat} {d : Drain} {t : Token} : OptKept σ (s.drainSend q d t) := by
  unfold State.drainSend
  dsimp only
  split
  · exact OptKept.some (State.discardN_canonical hk)
  · split
    · split
      · exact OptKept.some (State.modPress_canonical hk)
      · exact OptKept.none
    · exact State.engineSend_canonical hk

theorem execPressDrain_good {quire : Nat} (hk : Kept σ s) : Good σ (execPressDrain quire s) := by
  unfold execPressDrain
  dsimp only
  split
  · exact .idle hk
  · split
    · exact .next (State.setPress_canonical hk)
    · split
      · exact .next (OptKept.get (by assumption) (State.drainSend_canonical (State.setPress_canonical hk)))
      · exact .idle hk

theorem execPressSwitch_good {quire : Nat} (hk : Kept σ s) : Good σ (execPressSwitch quire s) := by
  unfold execPressSwitch
  dsimp only
  split
  · exact .idle hk
  · split
    · exact .idle hk
    · exact .next (State.setPress_canonical (State.strandToks_canonical (Kept.foldl (fun _ _ hu => State.strandItem_canonical hu) _
        (State.strandToks_canonical hk))))

theorem State.graftPort_good (hk : Kept σ s) {pos port : Nat} {isU : Bool} {g : Nat → Nat → Token → State → Option State}
    (hg : ∀ q p t s, Kept σ s → OptKept σ (g q p t s)) : Good σ (s.graftPort pos port isU g) := by
  unfold State.graftPort
  dsimp only
  split
  · exact .idle hk
  · split
    · exact .idle hk
    · split
      · exact .next (State.discardN_canonical (Kept.same hk (by rfl)))
      · split
        · split
          · exact .next (Kept.same hk (by rfl))
          · exact .next (State.engineFault_canonical (Kept.same hk (by rfl)))
        · split
          · exact .next (OptKept.get (by assumption) (hg _ _ _ _ (Kept.same hk (by rfl))))
          · exact .idle hk

theorem execGraftUToken_good {pos port : Nat} (hk : Kept σ s) : Good σ (execGraftUToken pos port s) := by
  unfold execGraftUToken
  dsimp only
  exact State.graftPort_good hk (fun _ _ _ _ hb => by
    split
    · split
      · exact OptKept.some (State.engineFault_canonical hb)
      · split
        · exact OptKept.none
        · exact OptKept.some (State.setGraft_canonical hb)
    · split
      · exact OptKept.some (State.engineFault_canonical hb)
      · split
        · exact OptKept.none
        · exact OptKept.some (State.setGraft_canonical hb))

theorem execGraftSharedToken_good {pos port : Nat} (hk : Kept σ s) : Good σ (execGraftSharedToken pos port s) := by
  unfold execGraftSharedToken
  dsimp only
  exact State.graftPort_good hk (fun _ _ _ _ hb => by
    split
    · exact OptKept.some (State.engineFault_canonical hb)
    · split
      · exact OptKept.none
      · exact OptKept.some (State.setGraft_canonical hb))

theorem State.graftStart_canonical (hk : Kept σ s) {q : Nat} {sc : Scan} : Kept σ (s.graftStart q sc) := by
  unfold State.graftStart
  dsimp only
  split
  · exact State.cmdDone_canonical hk
  · split
    · exact hk
    · exact State.setGraft_canonical hk

theorem State.graftEnd_canonical (hk : Kept σ s) {q i : Nat} {sc : Scan} {status : Nat} : Kept σ (s.graftEnd q i sc status) := by
  unfold State.graftEnd
  dsimp only
  exact State.cmdDone_canonical (State.setGraft_canonical hk)

theorem State.setScan_canonical (hk : Kept σ s) {q i : Nat} {sc : Scan} : Kept σ (s.setScan q i sc) :=
  Kept.same hk (by rfl)

theorem State.setVec_canonical (hk : Kept σ s) {q v : Nat} {x : StateVec} : Kept σ (s.setVec q v x) :=
  Kept.same hk (by rfl)

theorem execGraftStateInDone_good {quire scan : Nat} (hk : Kept σ s) : Good σ (execGraftStateInDone quire scan s) := by
  unfold execGraftStateInDone
  dsimp only
  split
  · split
    · split
      · exact .idle hk
      · split
        · exact .next (Kept.wait (by assumption) (State.unitRead_canonical hk))
        · exact .next (State.graftEnd_canonical (Kept.fail (by assumption) (State.unitRead_canonical hk)))
        · split
          · exact .next (Kept.same hk (by rfl))
          · exact .next (State.setScan_canonical (State.setVec_canonical (EngineUnion.kept_ok (by assumption)
              (State.engineUnion_canonical (Kept.ok (by assumption) (State.unitRead_canonical hk))))))
    · exact .idle hk
  · exact .idle hk

theorem State.stepPlates_canonical (hk : Kept σ s) {q ctx wc : Nat} {v : StateVec} {u : Token} {sh : List Token} :
    Kept σ (sumState Prod.snd (s.stepPlates q ctx wc v u sh)) := by
  unfold State.stepPlates
  dsimp only
  split
  · exact EngineUnion.kept_wait (by assumption) (State.engineUnion_canonical hk)
  · exact EngineUnion.kept_ok (by assumption) (State.engineUnion_canonical hk)

theorem execGraftStepIssue_good {quire : Nat} (hk : Kept σ s) : Good σ (execGraftStepIssue quire s) := by
  unfold execGraftStepIssue
  dsimp only
  split
  · split
    · exact .idle hk
    · split
      · exact .next (Kept.same hk (by rfl))
      · exact .next (State.charge_canonical (State.setGraft_canonical (Kept.inlSnd (by assumption) (State.stepPlates_canonical hk))))
  · exact .idle hk

theorem execGraftYEmit_good {quire : Nat} (hk : Kept σ s) : Good σ (execGraftYEmit quire s) := by
  unfold execGraftYEmit
  dsimp only
  split
  · exact .idle hk
  · split
    · exact .next (OptKept.get (by assumption) (State.engineSend_canonical (State.setGraft_canonical hk)))
    · exact .idle hk

theorem State.chunkPlates_canonical (hk : Kept σ s) {q ctx wc : Nat} {v : StateVec} {l : List (Token × List Token)} :
    Kept σ (sumState Prod.snd (s.chunkPlates q ctx wc v l)) := by
  induction l generalizing s v with
  | nil => exact hk
  | cons x l ih =>
    unfold State.chunkPlates
    split
    · exact Kept.inrSnd (by assumption) (State.stepPlates_canonical hk)
    next y s1 e1 =>
      have h1 : Kept σ s1 := Kept.inlSnd e1 (State.stepPlates_canonical hk)
      split
      · exact Kept.inlSnd (by assumption) (ih h1)
      · exact Kept.inrSnd (by assumption) (ih h1)

theorem State.chunkChan_canonical (hk : Kept σ s) {q ctx i : Nat} {sc : Scan} {k c : Nat} {steps : List Nat} {m : Nat → Nat → Nat} :
    Kept σ (sumState id (s.chunkChan q ctx i sc k c steps m)) := by
  unfold State.chunkChan
  dsimp only
  split
  · exact Kept.inrSnd (by assumption) (State.chunkPlates_canonical hk)
  · exact State.setGraft_canonical (Kept.inlSnd (by assumption) (State.chunkPlates_canonical hk))

theorem State.chunkChans_canonical (hk : Kept σ s) {q ctx i k : Nat} {steps : List Nat} {m : Nat → Nat → Nat} {l : List Nat} :
    Kept σ (sumState id (s.chunkChans q ctx i k steps m l)) := by
  induction l generalizing s with
  | nil => exact hk
  | cons c l ih =>
    unfold State.chunkChans
    split
    · exact hk
    · split
      · exact ih (Kept.inl (by assumption) (State.chunkChan_canonical hk))
      · exact Kept.inr (by assumption) (State.chunkChan_canonical hk)

theorem execGraftChunk_good {quire scan : Nat} (hk : Kept σ s) : Good σ (execGraftChunk quire scan s) := by
  unfold execGraftChunk
  dsimp only
  split
  · split
    · exact .idle hk
    · split
      · exact .idle hk
      · split
        · exact .next (Kept.same hk (by rfl))
        · exact .next (State.charge_canonical (State.setGraft_canonical (Kept.inl (by assumption) (State.chunkChans_canonical hk))))
  · exact .idle hk

theorem State.stateOutStep_good (hk : Kept σ s) {q ctx i : Nat} {sc : Scan} {next : Nat} :
    Good σ (s.stateOutStep q ctx i sc next) := by
  unfold State.stateOutStep
  dsimp only
  split
  · exact .next (State.setScan_canonical hk)
  · split
    · exact .next (State.askUnion_canonical hk)
    · exact .next (State.setScan_canonical (State.plateOvf_canonical hk))
    · split
      · exact .next (Kept.wait (by assumption) (Kept.bind (by
          split
          · exact State.unitProbes_canonical hk
          · exact hk) (fun _ _ hb => State.unitWrite_canonical hb)))
      · exact .next (State.setScan_canonical (Kept.fail (by assumption) (Kept.bind (by
          split
          · exact State.unitProbes_canonical hk
          · exact hk) (fun _ _ hb => State.unitWrite_canonical hb))))
      · exact .next (State.setScan_canonical (Kept.ok (by assumption) (Kept.bind (by
          split
          · exact State.unitProbes_canonical hk
          · exact hk) (fun _ _ hb => State.unitWrite_canonical hb))))

theorem execGraftScanComplete_good {quire scan : Nat} (hk : Kept σ s) : Good σ (execGraftScanComplete quire scan s) := by
  unfold execGraftScanComplete
  dsimp only
  split
  · split
    · exact .idle hk
    · split
      · split
        · exact .next (State.graftEnd_canonical hk)
        · exact .idle hk
      · split
        · split
          · exact .next (State.setScan_canonical hk)
          · exact .next (State.graftEnd_canonical hk)
        · exact .idle hk
      · split
        · exact .next (State.graftEnd_canonical hk)
        · exact State.stateOutStep_good hk
  · exact .idle hk

theorem execWloadChannelDone_good {quire : Nat} (hk : Kept σ s) : Good σ (execWloadChannelDone quire s) := by
  unfold execWloadChannelDone
  dsimp only
  split
  · split
    · exact .idle hk
    · split
      · exact .next (Kept.wait (by assumption) (State.unitRead_canonical hk))
      · exact .next (State.cmdDone_canonical (State.setGraft_canonical (Kept.fail (by assumption) (State.unitRead_canonical hk))))
      · split
        · exact .next (Kept.same hk (by rfl))
        · exact .next (State.cmdDone_canonical (State.setGraft_canonical (EngineUnion.kept_ok (by assumption)
            (State.engineUnion_canonical (Kept.ok (by assumption) (State.unitRead_canonical hk))))))
        · split
          · exact .next (State.setGraft_canonical (EngineUnion.kept_ok (by assumption) (State.engineUnion_canonical (Kept.ok
              (by assumption) (State.unitRead_canonical hk)))))
          · split
            · exact .next (State.cmdDone_canonical (State.setGraft_canonical (EngineUnion.kept_ok (by assumption)
                (State.engineUnion_canonical (Kept.ok (by assumption) (State.unitRead_canonical hk))))))
            · exact .next (State.setGraft_canonical (EngineUnion.kept_ok (by assumption) (State.engineUnion_canonical (Kept.ok
                (by assumption) (State.unitRead_canonical hk)))))
  · exact .idle hk

theorem execGraftSwitch_good {quire : Nat} (hk : Kept σ s) : Good σ (execGraftSwitch quire s) := by
  unfold execGraftSwitch
  dsimp only
  split
  · exact .idle hk
  · split
    · exact .idle hk
    · exact .next (State.setGraft_canonical (State.strandToks_canonical (State.strandToks_canonical hk)))

theorem execRiddleGoToken_good {pos port : Nat} (hk : Kept σ s) : Good σ (execRiddleGoToken pos port s) := by
  unfold execRiddleGoToken
  dsimp only
  split
  · exact .idle hk
  · split
    · exact .next (State.discardN_canonical (State.setBuf_canonical hk))
    · split
      · split
        · exact .next (State.setRiddle_canonical (State.setBuf_canonical hk))
        · exact .next (State.engineFault_canonical (State.setBuf_canonical hk))
      · split
        · exact .idle hk
        · exact .next (State.setRiddle_canonical (State.setBuf_canonical hk))

theorem execRiddleRunStart_good {folio : Nat} (hk : Kept σ s) : Good σ (execRiddleRunStart folio s) := by
  unfold execRiddleRunStart
  dsimp only
  split
  · split
    · exact .idle hk
    · exact .next (State.setRiddle_canonical hk)
  · exact .idle hk

theorem State.writePiece_canonical (hk : Kept σ s) {w : Who} {r : Run} {n : Nat} : Kept σ (s.writePiece w r n).2.state := by
  induction n generalizing s r with
  | zero => exact hk
  | succ n ih =>
    unfold State.writePiece
    split
    · exact hk
    · split
      · exact ih (Kept.ok (by assumption) (State.unitWrite_canonical hk))
      · exact State.unitWrite_canonical hk

theorem State.runWrite_canonical (hk : Kept σ s) {w : Who} {r : Run} : Kept σ (s.runWrite w r).2.state := by
  unfold State.runWrite
  split
  · exact State.writePiece_canonical (Kept.ok (by assumption) (State.unitProbes_canonical hk))
  · exact State.unitProbes_canonical hk

theorem State.setRun_canonical (hk : Kept σ s) {f i : Nat} {r : Run} : Kept σ (s.setRun f i r) :=
  Kept.same hk (by rfl)

theorem execRiddleLoopStep_good {folio run : Nat} (hk : Kept σ s) : Good σ (execRiddleLoopStep folio run s) := by
  unfold execRiddleLoopStep
  dsimp only
  split
  · exact .idle hk
  · split
    · exact .idle hk
    · split
      · exact .next (State.setRun_canonical (Kept.fail (by assumption) (State.runWrite_canonical hk)))
      · split
        · exact .next (State.setRun_canonical (Kept.wait (by assumption) (State.runWrite_canonical hk)))
        · exact .next (State.setRiddle_canonical (State.setRun_canonical (Kept.wait (by assumption) (State.runWrite_canonical hk))))
      · split
        · exact .next (State.setRun_canonical (Kept.ok (by assumption) (State.runWrite_canonical hk)))
        · exact .next (State.setRiddle_canonical (State.setRun_canonical (Kept.ok (by assumption) (State.runWrite_canonical hk))))

theorem execRiddleGranuleReturn_good {folio run cursor : Nat} (hk : Kept σ s) :
    Good σ (execRiddleGranuleReturn folio run cursor s) := by
  unfold execRiddleGranuleReturn
  dsimp only
  split
  · exact .idle hk
  · split
    · split
      · split
        · exact .idle hk
        · split
          · exact .next (Kept.wait (by assumption) (by
              split
              · split <;> exact State.unitReadAt_canonical hk
              · exact State.unitReadAt_canonical hk))
          · split
            · exact .next (State.setRun_canonical (Kept.fail (by assumption) (by
                split
                · split <;> exact State.unitReadAt_canonical hk
                · exact State.unitReadAt_canonical hk)))
            · exact .idle hk
          · split
            · exact .next (Kept.same hk (by rfl))
            · split
              · exact .next (State.setRun_canonical (EngineUnion.kept_ok (by assumption) (State.engineUnion_canonical (Kept.ok
                  (by assumption) (by
                  split
                  · split <;> exact State.unitReadAt_canonical hk
                  · exact State.unitReadAt_canonical hk)))))
              · exact .idle hk
            · exact .next (State.setRun_canonical (EngineUnion.kept_ok (by assumption) (State.engineUnion_canonical (Kept.ok
                (by assumption) (by
                split
                · split <;> exact State.unitReadAt_canonical hk
                · exact State.unitReadAt_canonical hk)))))
      · split
        · exact .idle hk
        · split
          · exact .next (Kept.wait (by assumption) (by
              split
              · split <;> exact State.unitReadAt_canonical hk
              · exact State.unitReadAt_canonical hk))
          · split
            · exact .next (State.setRun_canonical (Kept.fail (by assumption) (by
                split
                · split <;> exact State.unitReadAt_canonical hk
                · exact State.unitReadAt_canonical hk)))
            · exact .idle hk
          · split
            · exact .next (Kept.same hk (by rfl))
            · split
              · exact .next (State.setRun_canonical (EngineUnion.kept_ok (by assumption) (State.engineUnion_canonical (Kept.ok
                  (by assumption) (by
                  split
                  · split <;> exact State.unitReadAt_canonical hk
                  · exact State.unitReadAt_canonical hk)))))
              · exact .idle hk
            · exact .next (State.setRun_canonical (EngineUnion.kept_ok (by assumption) (State.engineUnion_canonical (Kept.ok
                (by assumption) (by
                split
                · split <;> exact State.unitReadAt_canonical hk
                · exact State.unitReadAt_canonical hk)))))
    · split
      · split
        · exact .idle hk
        · split
          · exact .next (Kept.wait (by assumption) (by
              split
              · split <;> exact State.unitReadAt_canonical hk
              · exact State.unitReadAt_canonical hk))
          · split
            · exact .next (State.setRun_canonical (Kept.fail (by assumption) (by
                split
                · split <;> exact State.unitReadAt_canonical hk
                · exact State.unitReadAt_canonical hk)))
            · exact .idle hk
          · split
            · exact .next (Kept.same hk (by rfl))
            · split
              · exact .next (State.setRun_canonical (EngineUnion.kept_ok (by assumption) (State.engineUnion_canonical (Kept.ok
                  (by assumption) (by
                  split
                  · split <;> exact State.unitReadAt_canonical hk
                  · exact State.unitReadAt_canonical hk)))))
              · exact .idle hk
            · exact .next (State.setRun_canonical (EngineUnion.kept_ok (by assumption) (State.engineUnion_canonical (Kept.ok
                (by assumption) (by
                split
                · split <;> exact State.unitReadAt_canonical hk
                · exact State.unitReadAt_canonical hk)))))
      · split
        · exact .idle hk
        · split
          · exact .next (Kept.wait (by assumption) (by
              split
              · split <;> exact State.unitReadAt_canonical hk
              · exact State.unitReadAt_canonical hk))
          · split
            · exact .next (State.setRun_canonical (Kept.fail (by assumption) (by
                split
                · split <;> exact State.unitReadAt_canonical hk
                · exact State.unitReadAt_canonical hk)))
            · exact .idle hk
          · split
            · exact .next (Kept.same hk (by rfl))
            · split
              · exact .next (State.setRun_canonical (EngineUnion.kept_ok (by assumption) (State.engineUnion_canonical (Kept.ok
                  (by assumption) (by
                  split
                  · split <;> exact State.unitReadAt_canonical hk
                  · exact State.unitReadAt_canonical hk)))))
              · exact .idle hk
            · exact .next (State.setRun_canonical (EngineUnion.kept_ok (by assumption) (State.engineUnion_canonical (Kept.ok
                (by assumption) (by
                split
                · split <;> exact State.unitReadAt_canonical hk
                · exact State.unitReadAt_canonical hk)))))

theorem execRiddleResult_good {folio run : Nat} (hk : Kept σ s) : Good σ (execRiddleResult folio run s) := by
  unfold execRiddleResult
  dsimp only
  split
  · exact .idle hk
  · split
    · exact .idle hk
    · split
      · split
        · exact .next (State.setRun_canonical (Kept.fail (by assumption) (State.runWrite_canonical hk)))
        · exact .next (State.setRun_canonical (Kept.wait (by assumption) (State.runWrite_canonical hk)))
        · exact .next (State.setRun_canonical (Kept.ok (by assumption) (State.runWrite_canonical hk)))
      · split
        · split
          · exact .next (OptKept.get (by assumption) (State.engineSend_canonical (State.setRiddle_canonical
              (State.setRiddle_canonical hk))))
          · exact .idle hk
        · exact .next (State.cmdDone_canonical (State.setRiddle_canonical hk))
        · exact .next (State.setRiddle_canonical hk)

theorem State.sendSwitches_canonical (hk : Kept σ s) {base ctx : Nat} {l : List (Nat × Token)} :
    OptKept σ (s.sendSwitches base ctx l) := by
  induction l generalizing s with
  | nil => exact OptKept.some hk
  | cons x l ih =>
    unfold State.sendSwitches
    split
    · exact ih (OptKept.get (by assumption) (State.engineSend_canonical hk))
    · exact OptKept.none

theorem execRiddleSwitch_good {folio : Nat} (hk : Kept σ s) : Good σ (execRiddleSwitch folio s) := by
  unfold execRiddleSwitch
  dsimp only
  split
  · exact .idle hk
  · split
    · exact .idle hk
    · split
      · exact .idle hk
      · exact .next (State.setRiddle_canonical (OptKept.get (by assumption) (State.sendSwitches_canonical (State.strandToks_canonical hk))))

end

end Sys2Proof.Machine
/-! SUPPORT. What leaves the memories canonical: command queues, Barrows and configurations. -/

namespace Sys2Proof.Machine

section
variable {σ s : State}

theorem State.cmdNow_canonical (hk : Kept σ s) {c : CmdIn} {b : Bytes} {set : Handle} : Kept σ (s.cmdNow c b set) := by
  unfold State.cmdNow
  dsimp only
  split
  · exact State.setQcc_canonical hk
  · split <;> exact State.setQcc_canonical hk
  · exact Kept.same hk (by rfl)
  · exact hk

theorem State.accept_canonical (hk : Kept σ s) {c : CmdIn} : Kept σ (s.accept c).state := by
  unfold State.accept
  dsimp only
  split
  · exact hk
  · split
    · exact State.readErrs_canonical hk
    · split
      · split
        · exact hk
        · split
          · exact hk
          · split
            · exact hk
            · split
              · exact State.plateOvf_canonical hk
              · exact State.askUnion_canonical hk
              · split
                · exact State.cmdNow_canonical hk
                · exact Kept.same hk (by rfl)
      · split
        · exact State.readErrs_canonical hk
        · split
          · exact State.readErrs_canonical hk
          · split
            · exact State.readErrs_canonical hk
            · split
              · exact State.plateOvf_canonical (State.readErrs_canonical hk)
              · exact State.askUnion_canonical (State.readErrs_canonical hk)
              · split
                · exact State.cmdNow_canonical (State.readErrs_canonical hk)
                · exact Kept.same (State.readErrs_canonical hk) (by rfl)

theorem State.cmdFail_canonical (hk : Kept σ s) {q node status : Nat} : Kept σ (s.cmdFail q node status) := by
  unfold State.cmdFail
  dsimp only
  split
  · exact hk
  · exact State.sendQccTrap_canonical hk

theorem State.setNode_canonical (hk : Kept σ s) {q node : Nat} {n : Option GNode} : Kept σ (s.setNode q node n) :=
  Kept.same hk (by rfl)

theorem State.launchNode_canonical (hk : Kept σ s) {q node : Nat} : Kept σ (s.launchNode q node) := by
  unfold State.launchNode
  dsimp only
  split
  · split
    · exact hk
    · split
      · exact State.setNode_canonical hk
      · split
        · exact State.setNode_canonical (Accepted.kept_st (by assumption) (State.accept_canonical hk))
        · exact State.setNode_canonical (State.cmdFail_canonical (Accepted.kept_st (by assumption) (State.accept_canonical hk)))
        · exact State.setNode_canonical (State.cmdFail_canonical (Accepted.kept_trap (by assumption) (State.accept_canonical hk)))
        · exact Accepted.kept_wait (by assumption) (State.accept_canonical hk)
  · exact hk

theorem State.dropPreds_canonical (hk : Kept σ s) {q : Nat} {l : List Nat} : Kept σ (s.dropPreds q l) := by
  induction l generalizing s with
  | nil => exact hk
  | cons m l ih =>
    unfold State.dropPreds
    split
    · exact ih (Kept.ite (State.launchNode_canonical (Kept.same hk (by rfl))) (Kept.same hk (by rfl)))
    · exact ih hk

theorem State.nodeEnd_canonical (hk : Kept σ s) {q node : Nat} {n : GNode} {status : Nat} :
    Kept σ (s.nodeEnd q node n status) := by
  unfold State.nodeEnd
  split
  · exact State.setNode_canonical (State.cmdFail_canonical hk)
  · exact State.dropPreds_canonical (State.setNode_canonical hk)

theorem execCmdNodeComplete_good {quire node : Nat} (hk : Kept σ s) : Good σ (execCmdNodeComplete quire node s) := by
  unfold execCmdNodeComplete
  dsimp only
  split
  · split
    · exact .idle hk
    · split
      · split
        · exact .next (State.launchNode_canonical hk)
        · exact .idle hk
      · split
        · exact .next (State.nodeEnd_canonical hk)
        · split
          · split
            · exact .next (State.nodeEnd_canonical hk)
            · split
              · exact .next (State.nodeEnd_canonical (OptKept.get (by assumption) (State.pushChan_canonical hk)))
              · exact .idle hk
          · split
            · exact .next (State.nodeEnd_canonical hk)
            · exact .idle hk
  · exact .idle hk

theorem execCopyPiece_good {quire node : Nat} (hk : Kept σ s) : Good σ (execCopyPiece quire node s) := by
  unfold execCopyPiece
  dsimp only
  split
  · split
    · exact .idle hk
    · split
      · split
        · exact .next (Kept.wait (by assumption) (State.unitWriteAt_canonical hk))
        · exact .next (State.setNode_canonical (Kept.fail (by assumption) (State.unitWriteAt_canonical hk)))
        · exact .next (State.setNode_canonical (Kept.ok (by assumption) (State.unitWriteAt_canonical hk)))
      · split
        · exact .next (Kept.wait (by assumption) (State.unitReadAt_canonical hk))
        · exact .next (State.setNode_canonical (Kept.fail (by assumption) (State.unitReadAt_canonical hk)))
        · split
          · exact .next (Kept.same hk (by rfl))
          · exact .next (State.setNode_canonical (State.plateOvf_canonical (Kept.ok (by assumption) (State.unitReadAt_canonical hk))))
          · exact .next (State.setNode_canonical (Kept.ok (by assumption) (State.unitReadAt_canonical hk)))
  · exact .idle hk

theorem TaskRun.issued_good {r : TaskRun} {op cfn xs : Nat} {x : Accepted} (hx : Kept σ x.state) :
    Good σ (r.issued op cfn xs x) := by
  cases x with
  | st code u => exact .next (Kept.ite (State.launchNode_canonical (State.modCur_canonical hx)) (State.modCur_canonical hx))
  | trap e u => exact State.trapHere_good hx
  | wait u => exact .next hx

theorem State.command_good (hk : Kept σ s) {op cfn : Nat} {rs rb rc : BitVec 5} : Good σ (s.command op cfn rs rb rc) := by
  cases hr : s.running with
  | none =>
    unfold State.command
    rw [hr]
    exact .idle hk
  | some r =>
    rw [State.command_eq hr]
    exact TaskRun.issued_good (State.accept_canonical hk)

theorem State.hypCommand_good (hk : Kept σ s) {op cfn : Nat} {rs rb rc : BitVec 5} : Good σ (s.hypCommand op cfn rs rb rc) := by
  unfold State.hypCommand
  split
  · exact .idle hk
  · split
    · exact State.command_good hk
    · exact State.trapHere_good hk

theorem execQccFence_good (hk : Kept σ s) : Good σ (execQccFence s) := by
  unfold execQccFence
  dsimp only
  split
  · exact .idle hk
  · split
    · exact .next (State.modCur_canonical hk)
    · exact .next (Kept.same hk (by rfl))

theorem State.excessMark_canonical (hk : Kept σ s) {m : MarkMsg} : Kept σ (s.excessMark m) := by
  unfold State.excessMark
  dsimp only
  split
  · exact State.modCtx_canonical hk
  · split <;> exact State.fabricFault_canonical (State.modCtx_canonical hk)

theorem State.countMark_canonical (hk : Kept σ s) {m : MarkMsg} : Kept σ (s.countMark m) := by
  unfold State.countMark
  dsimp only
  split
  · exact State.excessMark_canonical hk
  · split
    · exact State.excessMark_canonical hk
    · exact State.modTable_canonical hk

theorem execMarkCount_good {idx : Nat} (hk : Kept σ s) : Good σ (execMarkCount idx s) := by
  unfold execMarkCount
  dsimp only
  split
  · exact .idle hk
  · split
    · exact .idle hk
    · split
      · exact .next (State.discardN_canonical (Kept.same hk (by rfl)))
      · split
        · exact .next (State.cmdDone_canonical (Kept.same (State.countMark_canonical hk) (by rfl)))
        · exact .next (Kept.same (State.countMark_canonical hk) (by rfl))

theorem execMarkReturn_good {idx : Nat} (hk : Kept σ s) : Good σ (execMarkReturn idx s) := by
  unfold execMarkReturn
  dsimp only
  split
  · exact .idle hk
  · split
    · exact .idle hk
    · split
      · exact .next (Kept.same hk (by rfl))
      · split
        · split
          · exact .next (State.emitAll_canonical (Kept.same hk (by rfl)))
          · exact .next (State.discardN_canonical (Kept.same hk (by rfl)))
        · exact .next (Kept.same hk (by rfl))

theorem State.ttLoad_canonical (hk : Kept σ s) {ctx : Nat} : Kept σ (s.ttLoad ctx).2 := by
  unfold State.ttLoad
  dsimp only
  split
  · exact hk
  · split
    · exact hk
    · split
      · exact hk
      · exact State.setBarrow_canonical hk

theorem execTtArmReset_good {ctx : Nat} (hk : Kept σ s) : Good σ (execTtArmReset ctx s) := by
  unfold execTtArmReset
  dsimp only
  split
  · exact .idle hk
  · split
    · exact .idle hk
    · split
      · exact .idle hk
      · exact .next (State.cmdDone_canonical (State.modTable_canonical (Kept.same hk (by rfl))))

theorem execEntryHandoff_good {idx : Nat} (hk : Kept σ s) : Good σ (execEntryHandoff idx s) := by
  unfold execEntryHandoff
  split
  · exact .idle hk
  · split
    · exact .idle hk
    · split
      · exact .idle hk
      · split
        · exact .idle hk
        · exact .next (State.handEntry_canonical (State.modTable_canonical hk))

theorem State.setEntry_canonical (hk : Kept σ s) {ctx i : Nat} {st : EntrySt} : Kept σ (s.setEntry ctx i st) :=
  Kept.same hk (by rfl)

theorem State.startRun_canonical (hk : Kept σ s) {die i : Nat} : Kept σ (s.startRun die i) := by
  unfold State.startRun
  dsimp only
  split
  · exact hk
  · split
    · split
      · exact State.setBarrow_canonical hk
      · exact State.setBarrow_canonical hk
      · exact State.setEntry_canonical (State.setBarrow_canonical hk)
    · exact State.setBarrow_canonical hk

theorem execBarrowEntryStart_good {die : Nat} (hk : Kept σ s) : Good σ (execBarrowEntryStart die s) := by
  unfold execBarrowEntryStart
  dsimp only
  split
  · exact .idle hk
  · split
    · exact .next (State.startRun_canonical hk)
    · exact .idle hk

theorem execEarlyFetchStart_good {die : Nat} (hk : Kept σ s) : Good σ (execEarlyFetchStart die s) := by
  unfold execEarlyFetchStart
  dsimp only
  split
  · exact .idle hk
  · split
    · exact .idle hk
    · split
      · exact .idle hk
      · exact .next (State.startRun_canonical (State.handEntry_canonical (State.setEntry_canonical hk)))

theorem State.endMiss_canonical (hk : Kept σ s) {ctx p code : Nat} : Kept σ (s.endMiss ctx p code) := by
  unfold State.endMiss
  dsimp only
  split
  · exact hk
  · exact Kept.foldl (fun _ _ hu => by
      split
      · exact State.accFail_canonical hu
      · exact hu) _ (State.setBarrow_canonical hk)

theorem State.endMisses_canonical (hk : Kept σ s) {ctx : Nat} {e : TtEntry} {code : Nat} : Kept σ (s.endMisses ctx e code) := by
  unfold State.endMisses
  exact Kept.foldl (fun _ _ hu => by
    split
    · split
      · exact hu
      · exact State.endMiss_canonical hu
    · exact State.endMiss_canonical hu) _ hk

theorem State.partEnd_canonical (hk : Kept σ s) {die i : Nat} : Kept σ (s.partEnd die i) := by
  unfold State.partEnd
  dsimp only
  split
  · exact hk
  · split
    · split
      · exact State.setBarrow_canonical hk
      · exact Kept.same hk (by rfl)
    · split
      · exact State.endMisses_canonical (State.setEntry_canonical (State.setBarrow_canonical hk))
      · exact State.setEntry_canonical (State.setBarrow_canonical hk)
      · exact State.setEntry_canonical (State.setBarrow_canonical hk)

theorem State.modRun_canonical (hk : Kept σ s) {die i : Nat} {g : Running → Running} : Kept σ (s.modRun die i g) :=
  Kept.same hk (by rfl)

theorem State.nextPlot_canonical (hk : Kept σ s) {die i : Nat} : Kept σ (s.nextPlot die i) := by
  unfold State.nextPlot
  dsimp only
  split
  · split
    · exact State.partEnd_canonical (State.modRun_canonical hk)
    · exact State.modRun_canonical hk
  · exact State.modRun_canonical hk

theorem State.plotFail_canonical (hk : Kept σ s) {die i : Nat} {r : Running} {e : TtEntry} {p code : Nat} :
    Kept σ (s.plotFail die i r e p code) := by
  unfold State.plotFail
  dsimp only
  exact State.nextPlot_canonical (State.modRun_canonical (Kept.ite (State.endMiss_canonical (State.sendTrap_canonical hk))
      (State.sendTrap_canonical hk)))

theorem State.fetchRows_canonical (hk : Kept σ s) {die i : Nat} {x : PlotWork} {va k row : Nat} {h : Handle} :
    Kept σ (s.fetchRows die i x va k row h).state := by
  induction k generalizing s row h with
  | zero => exact hk
  | succ k ih =>
    unfold State.fetchRows
    split
    · exact Kept.wait (by assumption) (State.unitReadAt_canonical hk)
    · exact Kept.fail (by assumption) (State.unitReadAt_canonical hk)
    next v g s1 e1 =>
      have h1 : Kept σ s1 := Kept.ok e1 (State.unitReadAt_canonical hk)
      split
      · exact State.plateOvf_canonical h1
      · exact State.askUnion_canonical hk
      · exact ih (Kept.same (State.writePlace_canonical h1) (by rfl))

theorem State.plotPort_canonical (hk : Kept σ s) {n : Nat} : Kept σ (s.plotPort n) :=
  Kept.same hk (by rfl)

theorem execBarrowFetchPlot_good {die idx : Nat} (hk : Kept σ s) : Good σ (execBarrowFetchPlot die idx s) := by
  unfold execBarrowFetchPlot
  dsimp only
  split
  · exact .idle hk
  · exact .next (State.plotFail_canonical hk)
  · split
    · exact .next (State.nextPlot_canonical hk)
    · split
      · exact .next (Kept.wait (by assumption) (State.fetchRows_canonical hk))
      · exact .next (State.plotFail_canonical (Kept.fail (by assumption) (State.fetchRows_canonical hk)))
      · exact .next (State.nextPlot_canonical (State.plotPort_canonical (State.setPlot_canonical (Kept.ok (by assumption)
          (State.fetchRows_canonical hk)))))

theorem State.clearRes_canonical (hk : Kept σ s) {x : PlotWork} : Kept σ (s.clearRes x) :=
  Kept.same hk (by rfl)

theorem State.evictRow_canonical (hk : Kept σ s) {die i : Nat} {x : PlotWork} {row n : Nat} {a v : Nat} {h : Handle} :
    Kept σ (s.evictRow die i x row n a v h) := by
  unfold State.evictRow
  dsimp only
  split
  · exact State.sendOut_canonical hk
  · split
    · exact hk
    · split
      · exact State.nextPlot_canonical (State.dropOut_canonical hk)
      · exact State.modRun_canonical (State.dropOut_canonical hk)
    · exact State.plotFail_canonical (State.setPlot_canonical (State.dropOut_canonical hk))

theorem execBarrowEvictPlot_good {die idx : Nat} (hk : Kept σ s) : Good σ (execBarrowEvictPlot die idx s) := by
  unfold execBarrowEvictPlot
  dsimp only
  split
  · exact .idle hk
  · exact .next (State.plotFail_canonical hk)
  · split
    · exact .next (State.nextPlot_canonical hk)
    · split
      · exact .next (Kept.wait (by assumption) (State.unitPlace_canonical hk))
      · exact .next (State.plotFail_canonical (Kept.fail (by assumption) (State.unitPlace_canonical hk)))
      · split
        · exact .next (State.plotFail_canonical (State.meetErrs_canonical (Kept.ok (by assumption) (State.unitPlace_canonical hk))))
        · split
          · split
            · exact .next (State.evictRow_canonical (Kept.ok (by assumption) (State.unitPlace_canonical hk)))
            · split
              · exact .next (State.plotFail_canonical (Kept.snd (by assumption) (State.clasp_canonical (Kept.ok (by assumption)
                  (State.unitPlace_canonical hk)))))
              · exact .next (State.modRun_canonical (State.clearRes_canonical (Kept.snd (by assumption) (State.clasp_canonical
                  (Kept.ok (by assumption) (State.unitPlace_canonical hk))))))
          · split
            · exact .next (State.plotFail_canonical (Kept.snd (by assumption) (State.clasp_canonical (Kept.ok (by assumption)
                (State.unitPlace_canonical hk)))))
            · exact .next (State.nextPlot_canonical (State.clearRes_canonical (Kept.same (Kept.snd (by assumption)
                (State.clasp_canonical (Kept.ok (by assumption) (State.unitPlace_canonical hk)))) (by rfl))))
          · split
            · exact .next (Kept.wait (by assumption) (State.unitWriteAt_canonical (State.meetErrs_canonical (Kept.ok (by assumption)
                (State.unitPlace_canonical hk)))))
            · exact .next (State.plotFail_canonical (Kept.fail (by assumption) (State.unitWriteAt_canonical
                (State.meetErrs_canonical (Kept.ok (by assumption) (State.unitPlace_canonical hk))))))
            · exact .next (State.nextPlot_canonical (State.clearRes_canonical (State.charge_canonical (Kept.ok (by assumption)
                (State.unitWriteAt_canonical (State.meetErrs_canonical (Kept.ok (by assumption) (State.unitPlace_canonical hk))))))))

theorem execBarrowPinPlot_good {die idx : Nat} (hk : Kept σ s) : Good σ (execBarrowPinPlot die idx s) := by
  unfold execBarrowPinPlot
  dsimp only
  split
  · exact .idle hk
  · exact .next (State.plotFail_canonical hk)
  · exact .next (State.nextPlot_canonical (State.plotPort_canonical (State.setPlot_canonical hk)))

theorem execBarrowDropPlot_good {die idx : Nat} (hk : Kept σ s) : Good σ (execBarrowDropPlot die idx s) := by
  unfold execBarrowDropPlot
  dsimp only
  split
  · exact .idle hk
  · exact .next (State.plotFail_canonical hk)
  · exact .next (State.nextPlot_canonical (Kept.ite hk (State.plotPort_canonical (State.setPlot_canonical hk))))

theorem State.ctlFields_canonical (hk : Kept σ s) {q a : Nat} {l : List (Nat × Nat × Nat)} : Kept σ (s.ctlFields q a l) := by
  induction l generalizing s with
  | nil => exact hk
  | cons x l ih => exact ih (State.writeErrs_canonical (Kept.ctl hk (memWrite_wf _ _ _)))

theorem State.ctlBack_canonical (hk : Kept σ s) {q ctx : Nat} {a n : Nat} {h : Handle} {l : List (Nat × Nat × Nat)} :
    Kept σ (s.ctlBack q ctx a n h l).state := by
  unfold State.ctlBack
  split
  · exact State.plateOvf_canonical hk
  · exact State.askUnion_canonical hk
  · exact hk
  · split
    · exact hk
    · exact State.ctlFields_canonical (Kept.foldl (fun _ _ hu => State.setRegion_canonical hu) _ hk)

theorem State.newSet_canonical (hk : Kept σ s) {h : Nat} {l : List Nat} : Kept σ (s.newSet h l) :=
  Kept.same hk (by rfl)

theorem execPlateUnionSpine_good {idx : Nat} (hk : Kept σ s) : Good σ (execPlateUnionSpine idx s) := by
  unfold execPlateUnionSpine
  dsimp only
  split
  · exact .idle hk
  · split
    · exact .idle hk
    · split
      · exact .next (Kept.same hk (by rfl))
      · split
        · split
          · exact .next (State.newSet_canonical (Kept.same hk (by rfl)))
          · exact .idle hk
        · split
          · exact .idle hk
          · exact .next (Kept.same hk (by rfl))

theorem execPlateUnionWaitServed_good (hk : Kept σ s) : Good σ (execPlateUnionWaitServed s) := by
  unfold execPlateUnionWaitServed
  dsimp only
  split
  · exact .next (Kept.ite (Kept.same hk (by rfl)) (State.newSet_canonical (Kept.same hk (by rfl))))
  · exact .idle hk

theorem State.sweepStart_canonical (hk : Kept σ s) {q id : Nat} {failw : Bool} : Kept σ (s.sweepStart q id failw) :=
  Kept.same hk (by rfl)

theorem State.sweepDone_canonical (hk : Kept σ s) {q : Nat} {c : Cmd} {status cand freed : Nat} :
    OptKept σ (s.sweepDone q c status cand freed) := by
  unfold State.sweepDone
  split
  · exact OptKept.some hk
  · split
    · exact OptKept.some (State.cmdDone_canonical (Kept.ok (by assumption) (State.ctlBack_canonical hk)))
    · exact OptKept.some (State.cmdDone_canonical (Kept.fail (by assumption) (State.ctlBack_canonical hk)))
    · exact OptKept.none

theorem execSweepMarkPassDone_good (hk : Kept σ s) : Good σ (execSweepMarkPassDone s) := by
  unfold execSweepMarkPassDone
  dsimp only
  split
  · exact .idle hk
  · split
    · exact .next (Kept.same hk (by rfl))
    · split
      · exact .next (OptKept.get (by assumption) (State.sweepDone_canonical (Kept.same hk (by rfl))))
      · split
        · exact .next (Kept.same hk (by rfl))
        · split
          · exact .next (Kept.wait (by assumption) (State.ctlBack_canonical hk))
          · exact .idle hk

theorem State.advance_canonical (hk : Kept σ s) {l : List Nat} : Kept σ (s.advance l) :=
  Kept.same hk (by rfl)

theorem State.ownerEvent_canonical (hk : Kept σ s) {d p : Nat} : Kept σ (s.ownerEvent d p) := by
  unfold State.ownerEvent
  split
  · exact hk
  · exact State.eventPlates_canonical hk

theorem State.setOwner_canonical (hk : Kept σ s) {d p : Nat} : Kept σ (s.setOwner d p) := by
  unfold State.setOwner
  dsimp only
  split
  · exact State.ownerEvent_canonical (Kept.same hk (by rfl))
  · exact State.ownerEvent_canonical (State.ownerEvent_canonical (Kept.same hk (by rfl)))

theorem State.askSet_canonical (hk : Kept σ s) {l : List Nat} {q : Nat} : Kept σ (s.askSet l q) := by
  unfold State.askSet
  dsimp only
  split
  · exact hk
  · exact Kept.same hk (by rfl)

theorem State.install_canonical (hk : Kept σ s) {w : Submission} : Kept σ (s.install w) := by
  unfold State.install
  dsimp only
  split
  · exact State.cmdDone_canonical (Kept.same hk (by rfl))
  · split
    · exact State.cmdDone_canonical (Kept.same hk (by rfl))
    · split
      · exact State.cmdDone_canonical (Kept.same (State.setOwner_canonical (State.advance_canonical hk)) (by rfl))
      · split
        · exact State.cmdDone_canonical (Kept.same hk (by rfl))
        · split
          next h hh =>
            refine State.cmdDone_canonical (Kept.same (s := State.eventPlates _ _ _) (State.eventPlates_canonical
                (State.advance_canonical ?_)) (by rfl))
            exact Kept.same hk (by rfl)
          · split
            · exact State.cmdDone_canonical (Kept.same hk (by rfl))
            · exact State.askSet_canonical hk

theorem execPolicyCheckDone_good (hk : Kept σ s) : Good σ (execPolicyCheckDone s) := by
  unfold execPolicyCheckDone
  split
  · exact .idle hk
  · exact .next (State.install_canonical hk)

theorem State.revoke_canonical (hk : Kept σ s) {q id slot : Nat} : Kept σ (s.revoke q id slot) := by
  unfold State.revoke
  split
  · exact State.cmdDone_canonical hk
  · exact State.cmdDone_canonical (State.eventPlates_canonical (Kept.same hk (by rfl)))

theorem State.readOn_canonical (hk : Kept σ s) {w : Who} {va n : Nat} {got : Bytes} : Kept σ (s.readOn w va n got).state := by
  induction n generalizing s got with
  | zero => exact hk
  | succ n ih =>
    unfold State.readOn
    split
    · exact Kept.wait (by assumption) (State.unitReadAt_canonical hk)
    · exact Kept.fail (by assumption) (State.unitReadAt_canonical hk)
    · exact ih (Kept.ok (by assumption) (State.unitReadAt_canonical hk))

theorem State.fetchImage_canonical (hk : Kept σ s) {w : Who} {va : Nat} {got : Bytes} : Kept σ (s.fetchImage w va got).state := by
  unfold State.fetchImage
  split
  · split
    · exact Fetch.kept_done (by assumption) (State.readOn_canonical hk)
    · exact State.readOn_canonical (Fetch.kept_done (by assumption) (State.readOn_canonical hk))
  · exact State.readOn_canonical hk

theorem State.bindTask_canonical (hk : Kept σ s) {q : Nat} {t : TaskRec} : Kept σ (s.bindTask q t) :=
  State.setQcc_canonical (State.writeErrs_canonical (Kept.ctl hk (memWrite_wf _ _ _)))

theorem State.dropShadow_canonical (hk : Kept σ s) {ctx : Nat} : Kept σ (s.dropShadow ctx) :=
  Kept.same hk (by rfl)

theorem State.shadowElem_canonical (hk : Kept σ s) {ctx : Nat} {c : Ctx} {im : Image} {e : ElemRec} :
    Kept σ (s.shadowElem ctx c im e) := by
  unfold State.shadowElem
  split
  · exact hk
  · exact State.modElem_canonical hk

theorem State.shadowPress_canonical (hk : Kept σ s) {ctx part : Nat} {q : Nat × List (BitVec 64)} :
    Kept σ (s.shadowPress ctx part q) := by
  unfold State.shadowPress
  dsimp only
  split
  · exact hk
  · exact State.setPress_canonical hk

theorem State.shadowGraft_canonical (hk : Kept σ s) {ctx part : Nat} {q : Nat × List (BitVec 512)} :
    Kept σ (s.shadowGraft ctx part q) := by
  unfold State.shadowGraft
  dsimp only
  split
  · exact hk
  · exact State.setGraft_canonical hk

theorem State.shadowRiddle_canonical (hk : Kept σ s) {ctx part : Nat} {q : Nat × List (BitVec 512)} :
    Kept σ (s.shadowRiddle ctx part q) := by
  unfold State.shadowRiddle
  dsimp only
  split
  · exact hk
  · exact State.setRiddle_canonical hk

theorem State.placeShadow_canonical (hk : Kept σ s) {ctx : Nat} {c : Ctx} {h : Nat} {im : Image} :
    Kept σ (s.placeShadow ctx c h im) := by
  unfold State.placeShadow
  dsimp only
  exact State.modCtx_canonical (Kept.foldl (fun _ _ hu => State.shadowRiddle_canonical hu) _ (Kept.foldl
      (fun _ _ hu => State.shadowGraft_canonical hu) _ (Kept.foldl (fun _ _ hu => State.shadowPress_canonical hu) _ (Kept.foldl
      (fun _ _ hu => State.shadowElem_canonical hu) _ (State.dropShadow_canonical hk)))))

theorem State.loadEnd_canonical (hk : Kept σ s) {q ctx : Nat} {c : Cmd} {h : Nat} {rec' : BitVec 128} :
    Kept σ (s.loadEnd q ctx c h rec').state := by
  unfold State.loadEnd
  dsimp only
  refine Kept.bind (State.ctlBack_canonical hk) fun _ _ hb => ?_
  exact State.cmdDone_canonical (Kept.ite hb (State.sendTrap_canonical hb))

theorem State.loadDecide_good (hk : Kept σ s) {q ctx : Nat} {x : Ctx} {c : Cmd} {b : Option Bytes} :
    Good σ (s.loadDecide q ctx x c b) := by
  unfold State.loadDecide
  dsimp only
  split
  · exact .next (Kept.ok (by assumption) (by
      split
      · exact State.loadEnd_canonical hk
      · split
        · exact State.loadEnd_canonical hk
        · split
          · split
            · exact State.loadEnd_canonical hk
            · exact State.loadEnd_canonical (State.placeShadow_canonical (Kept.same hk (by rfl)))
          · exact State.loadEnd_canonical (Kept.same hk (by rfl))))
  · exact .next (State.cmdDone_canonical (Kept.fail (by assumption) (by
      split
      · exact State.loadEnd_canonical hk
      · split
        · exact State.loadEnd_canonical hk
        · split
          · split
            · exact State.loadEnd_canonical hk
            · exact State.loadEnd_canonical (State.placeShadow_canonical (Kept.same hk (by rfl)))
          · exact State.loadEnd_canonical (Kept.same hk (by rfl)))))
  · exact .next (Kept.same hk (by rfl))

theorem execCfgLoadComplete_good {quire : Nat} (hk : Kept σ s) : Good σ (execCfgLoadComplete quire s) := by
  unfold execCfgLoadComplete
  dsimp only
  split
  · split
    · exact .idle hk
    · split
      · exact .idle hk
      · split
        · exact .next (State.setQcc_canonical (Fetch.kept_more (by assumption) (State.fetchImage_canonical hk)))
        · exact State.loadDecide_good (Fetch.kept_fail (by assumption) (State.fetchImage_canonical hk))
        · exact State.loadDecide_good (Fetch.kept_done (by assumption) (State.fetchImage_canonical hk))
  · exact .idle hk

theorem State.switchStart_canonical (hk : Kept σ s) {q ctx : Nat} {c : Cmd} : OptKept σ (s.switchStart q ctx c) := by
  unfold State.switchStart
  dsimp only
  split
  · exact OptKept.some (State.cmdDone_canonical hk)
  · split
    · exact OptKept.none
    · exact OptKept.some (State.modCtx_canonical (OptKept.get (by assumption) (State.inject_canonical hk)))

theorem State.switchEngines_canonical (hk : Kept σ s) {ctx part : Nat} {im : Image} : Kept σ (s.switchEngines ctx part im) :=
  Kept.same hk (by rfl)

theorem State.bindTasks_canonical (hk : Kept σ s) {part : Nat} {l : List TaskRec} : Kept σ (s.bindTasks part l) := by
  induction l generalizing s with
  | nil => exact hk
  | cons t l ih =>
    unfold State.bindTasks
    split
    · exact ih (State.bindTask_canonical hk)
    · exact ih hk

theorem execShadowSwitch_good {ctx : Nat} (hk : Kept σ s) : Good σ (execShadowSwitch ctx s) := by
  unfold execShadowSwitch
  dsimp only
  split
  · exact .idle hk
  · split
    · exact .idle hk
    · split
      · exact .idle hk
      · split
        · exact .idle hk
        · exact .next (State.cmdDone_canonical (State.setCtx_canonical (State.bindTasks_canonical (State.switchEngines_canonical
            (Kept.foldl (fun _ _ hu => State.setElem_canonical hu) _ hk)))))

end

end Sys2Proof.Machine
/-! SUPPORT. What leaves the memories canonical: launches, tear-down, reports and saves. -/

namespace Sys2Proof.Machine

section
variable {σ s : State}

theorem State.report_canonical (hk : Kept σ s) {vf dq ctx : Nat} {r : BitVec 256} {h : Handle} :
    Kept σ (s.report vf dq ctx r h) :=
  Kept.same hk (by rfl)

theorem State.launchReply_canonical (hk : Kept σ s) {l : Launch} {code ctx reason : Nat} :
    Kept σ (s.launchReply l code ctx reason) := by
  unfold State.launchReply
  split
  · exact Kept.same hk (by rfl)
  · exact State.cmdDone_canonical hk
  · split
    · exact hk
    · split
      · exact State.vfCount_canonical hk
      · exact State.report_canonical hk

theorem State.enterChannel_canonical (hk : Kept σ s) {l : Launch} {clamp : Nat} : Kept σ (s.enterChannel l clamp) := by
  unfold State.enterChannel
  exact State.modPart_canonical hk

theorem execLaunchWindowWrite_good {vf off : Nat} {data : Bytes} (hk : Kept σ s) :
    Good σ (execLaunchWindowWrite vf off data s) := by
  unfold execLaunchWindowWrite
  dsimp only
  split
  · exact .idle hk
  · split
    · exact .next (State.vfCount_canonical hk)
    · split
      · exact .next (State.vfCount_canonical hk)
      · split
        · exact .next (State.launchReply_canonical hk)
        · exact .next (State.enterChannel_canonical hk)

theorem execLaunchChannelEntry_good {idx : Nat} (hk : Kept σ s) : Good σ (execLaunchChannelEntry idx s) := by
  unfold execLaunchChannelEntry
  dsimp only
  split
  · exact .idle hk
  · split
    · exact .idle hk
    · exact .next (State.enterChannel_canonical (Kept.same hk (by rfl)))

theorem State.kill_canonical (hk : Kept σ s) {l : Launch} : Kept σ (s.kill l) := by
  unfold State.kill
  dsimp only
  split
  · split
    · exact State.launchReply_canonical (State.beginEnd_canonical hk)
    · exact State.launchReply_canonical hk
  · exact State.launchReply_canonical hk

theorem State.servePart_canonical (hk : Kept σ s) {prio q : Nat} {served : Bool} {n : Nat} :
    Kept σ (s.servePart prio q served n).1 := by
  induction n generalizing s served with
  | zero => exact hk
  | succ n ih =>
    unfold State.servePart
    split
    · exact hk
    · split
      · exact hk
      · split
        · exact hk
        · dsimp only
          split
          · exact ih (State.launchReply_canonical (Kept.same hk (by rfl)))
          · split
            all_goals
              split
              · exact hk
              · split
                · exact ih (State.kill_canonical (Kept.same hk (by rfl)))
                · split
                  · exact hk
                  · exact ih (Kept.same hk (by rfl))

theorem State.servePrio_canonical (hk : Kept σ s) {prio : Nat} {l : List Nat} : Kept σ (s.servePrio prio l) := by
  induction l generalizing s with
  | nil => exact hk
  | cons q l ih =>
    unfold State.servePrio
    split
    · exact ih (Kept.same (Kept.fst (by assumption) (State.servePart_canonical hk)) (by rfl))
    · exact ih (Kept.fst (by assumption) (State.servePart_canonical hk))

theorem execDispatcherCycle_good (hk : Kept σ s) : Good σ (execDispatcherCycle s) := by
  unfold execDispatcherCycle
  dsimp only
  exact .next (Kept.foldl (fun _ _ hu => State.servePrio_canonical hu) _ hk)

theorem execDieBatchArrival_good {idx : Nat} (hk : Kept σ s) : Good σ (execDieBatchArrival idx s) := by
  unfold execDieBatchArrival
  dsimp only
  split
  · exact .idle hk
  · split
    · exact .idle hk
    · exact .next (State.setDie_canonical (Kept.same hk (by rfl)))

theorem State.placePlots_canonical (hk : Kept σ s) {im : Image} {lf g : Nat} : Kept σ (s.placePlots im lf g) := by
  unfold State.placePlots
  dsimp only
  exact Kept.foldl (fun _ _ hu => Kept.same hu (by rfl)) _ hk

theorem State.placeFolios_canonical (hk : Kept σ s) {part : Nat} {im : Image} : Kept σ (s.placeFolios part im) := by
  unfold State.placeFolios
  exact Kept.foldl (fun _ _ hu => by
    split
    · exact State.placePlots_canonical hu
    · exact hu) _ hk

theorem State.placeElems_canonical (hk : Kept σ s) {ctx part vf : Nat} {im : Image} : Kept σ (s.placeElems ctx part vf im) := by
  unfold State.placeElems
  exact Kept.foldl (fun _ _ hu => by
    split
    · exact State.setElem_canonical hu
    · exact hu) _ hk

theorem State.placeReserves_canonical (hk : Kept σ s) {ctx part : Nat} {im : Image} : Kept σ (s.placeReserves ctx part im) := by
  unfold State.placeReserves
  dsimp only
  exact Kept.foldl (fun _ _ hu => by
    split
    · exact State.setOvf_canonical hu
    · exact hu) _ hk

theorem State.freshQcc_canonical (hk : Kept σ s) {q ctx : Nat} {hyp : Bool} : Kept σ (s.freshQcc q ctx hyp) :=
  State.setQcc_canonical (State.writeErrs_canonical (Kept.same (s := { s with ctl := _ }) (Kept.ctl hk (memClear_wf _ _)) (by rfl)))

theorem State.placeTasks_canonical (hk : Kept σ s) {ctx part : Nat} {hyp : Bool} {im : Image} :
    Kept σ (s.placeTasks ctx part hyp im) := by
  unfold State.placeTasks
  dsimp only
  exact State.bindTasks_canonical (Kept.foldl (fun _ _ hu => State.freshQcc_canonical hu) _ hk)

theorem State.placeEngines_canonical (hk : Kept σ s) {ctx part : Nat} {im : Image} : Kept σ (s.placeEngines ctx part im) := by
  unfold State.placeEngines
  dsimp only
  exact Kept.foldl (fun _ _ hu => by
    split
    · exact State.setRiddle_canonical hu
    · exact hu) _ (Kept.foldl (fun _ _ hu => by
    split
    · exact State.setGraft_canonical hu
    · exact hu) _ (Kept.foldl (fun _ _ hu => by
    split
    · exact State.setPress_canonical hu
    · exact hu) _ hk))

theorem State.sendArgs_canonical (hk : Kept σ s) {die : Nat} {l : Launch} : OptKept σ (s.sendArgs die l) := by
  unfold State.sendArgs
  dsimp only
  split
  · exact OptKept.some hk
  · split
    · exact OptKept.some hk
    · exact State.inject_canonical hk

theorem State.sendStarts_canonical (hk : Kept σ s) {l : Launch} {im : Image} : Kept σ (s.sendStarts l im) := by
  unfold State.sendStarts
  dsimp only
  split
  · exact hk
  · exact Kept.same hk (by rfl)

theorem State.joinTurn_canonical (hk : Kept σ s) {part vf : Nat} : Kept σ (s.joinTurn part vf) := by
  unfold State.joinTurn
  split
  · split
    · exact State.setPart_canonical hk
    · exact hk
  · exact hk

theorem State.place_canonical (hk : Kept σ s) {die : Nat} {l : Launch} {h : Nat} {im : Image} :
    OptKept σ (s.place die l h im) := by
  unfold State.place
  dsimp only
  split
  · exact OptKept.some (State.sendStarts_canonical (OptKept.get (by assumption) (State.sendArgs_canonical
      (State.launchReply_canonical (State.placeEngines_canonical (State.placeTasks_canonical (State.placeReserves_canonical
      (State.placeElems_canonical (State.placeFolios_canonical (State.setCtx_canonical (State.joinTurn_canonical hk)))))))))))
  · exact OptKept.none

theorem State.modEntry_canonical (hk : Kept σ s) {die i : Nat} {g : Launch → Launch} : Kept σ (s.modEntry die i g) :=
  Kept.same hk (by rfl)

theorem State.dropEntry_canonical (hk : Kept σ s) {die i : Nat} : Kept σ (s.dropEntry die i) :=
  Kept.same hk (by rfl)

theorem State.loadEntry_canonical (hk : Kept σ s) {die i : Nat} {l : Launch} : Kept σ (s.loadEntry die i l) := by
  unfold State.loadEntry
  dsimp only
  split
  · exact State.modEntry_canonical (Fetch.kept_more (by assumption) (State.fetchImage_canonical hk))
  · exact State.launchReply_canonical (State.dropEntry_canonical (Fetch.kept_fail (by assumption) (State.fetchImage_canonical hk)))
  · split
    · exact State.launchReply_canonical (State.dropEntry_canonical (Fetch.kept_done (by assumption) (State.fetchImage_canonical hk)))
    · split
      · exact State.launchReply_canonical (State.dropEntry_canonical (Fetch.kept_done (by assumption) (State.fetchImage_canonical hk)))
      · exact State.modEntry_canonical (Kept.same (Fetch.kept_done (by assumption) (State.fetchImage_canonical hk)) (by rfl))

theorem State.serveEntry_canonical (hk : Kept σ s) {die i : Nat} {l : Launch} : OptKept σ (s.serveEntry die i l) := by
  unfold State.serveEntry
  dsimp only
  split
  · exact OptKept.some (State.loadEntry_canonical hk)
  · split
    · exact OptKept.some (State.launchReply_canonical (State.dropEntry_canonical hk))
    · split
      · exact OptKept.some (State.launchReply_canonical (State.dropEntry_canonical hk))
      · split
        · exact OptKept.some (State.modEntry_canonical hk)
        · exact OptKept.none
      · split
        · exact OptKept.some (State.modEntry_canonical hk)
        · split
          · exact OptKept.some hk
          · split
            · exact OptKept.some (OptKept.get (by assumption) (State.place_canonical (State.dropEntry_canonical hk)))
            · exact OptKept.some hk

theorem State.serveQueue_canonical (hk : Kept σ s) {die i : Nat} {l : List Launch} : OptKept σ (s.serveQueue die i l) := by
  induction l generalizing i with
  | nil => exact OptKept.none
  | cons x l ih =>
    unfold State.serveQueue
    split
    · exact ih
    · split
      · exact OptKept.some (OptKept.get (by assumption) (State.serveEntry_canonical hk))
      · exact ih

theorem State.headWaits_canonical (hk : Kept σ s) {die : Nat} : Kept σ (s.headWaits die) :=
  Kept.same hk (by rfl)

theorem execPlacement_good {die : Nat} (hk : Kept σ s) : Good σ (execPlacement die s) := by
  unfold execPlacement
  dsimp only
  split
  · exact .idle hk
  · split
    · exact .idle hk
    · split
      · exact .next (OptKept.get (by assumption) (State.serveQueue_canonical hk))
      · split
        · exact .next (State.headWaits_canonical hk)
        · exact .next (OptKept.getD (State.serveQueue_canonical (State.headWaits_canonical hk)) (State.headWaits_canonical hk))

theorem execHeadWaitExpiry_good {die : Nat} (hk : Kept σ s) : Good σ (execHeadWaitExpiry die s) := by
  unfold execHeadWaitExpiry
  dsimp only
  split
  · split
    · exact .next (State.setDie_canonical hk)
    · exact .idle hk
  · exact .idle hk

theorem execRemoteReservation_good {die idx : Nat} (hk : Kept σ s) : Good σ (execRemoteReservation die idx s) := by
  unfold execRemoteReservation
  split
  · exact .idle hk
  · split
    · exact .idle hk
    · split
      · exact .idle hk
      · split <;> exact .next (State.modEntry_canonical hk)

theorem State.unwait_canonical (hk : Kept σ s) {ctx : Nat} : Kept σ (s.unwait ctx).1 := by
  unfold State.unwait
  dsimp only
  exact Kept.same hk (by rfl)

theorem State.vfLast_canonical (hk : Kept σ s) {vf code : Nat} : Kept σ (s.vfLast vf code) :=
  Kept.same hk (by rfl)

theorem State.reportCancel_canonical (hk : Kept σ s) {l : Launch} {num : Option Nat} : Kept σ (s.reportCancel l num) := by
  unfold State.reportCancel
  split
  · exact State.vfLast_canonical hk
  · exact State.report_canonical hk

theorem State.cancelAll_canonical (hk : Kept σ s) {ctx : Nat} : Kept σ (s.cancelAll ctx) := by
  unfold State.cancelAll
  dsimp only
  exact State.modCtx_canonical (Kept.foldl (fun _ _ hu => State.reportCancel_canonical hu) _ (Kept.same hk (by rfl)))

theorem State.takeOut_canonical (hk : Kept σ s) {ctx : Nat} : Kept σ (s.takeOut ctx) :=
  Kept.same hk (by rfl)

theorem State.sweepCtx_canonical (hk : Kept σ s) {ctx : Nat} : Kept σ (s.sweepCtx ctx) := by
  unfold State.sweepCtx
  dsimp only
  exact State.modCtx_canonical (State.takeOut_canonical (State.cancelAll_canonical (State.unwait_canonical hk)))

theorem State.dropSave_canonical (hk : Kept σ s) {ctx : Nat} : Kept σ (s.dropSave ctx) := by
  unfold State.dropSave
  split
  · split
    · exact State.cmdDone_canonical (State.setCtx_canonical hk)
    · exact hk
  · exact hk

theorem execTearDown_good {ctx : Nat} (hk : Kept σ s) : Good σ (execTearDown ctx s) := by
  unfold execTearDown
  split
  · exact .next (State.sweepCtx_canonical (State.dropSave_canonical hk))
  · exact .idle hk

theorem State.freeCtx_canonical (hk : Kept σ s) {ctx : Nat} : Kept σ (s.freeCtx ctx) :=
  Kept.same hk (by rfl)

theorem State.endReport_canonical (hk : Kept σ s) {ctx : Nat} {c : Ctx} : Kept σ (s.endReport ctx c) := by
  unfold State.endReport
  dsimp only
  split
  · split
    · exact Kept.same hk (by rfl)
    · exact State.vfLast_canonical (Kept.same hk (by rfl))
  · exact State.report_canonical (State.setCtx_canonical hk)

theorem execTearDownRelease_good {ctx : Nat} (hk : Kept σ s) : Good σ (execTearDownRelease ctx s) := by
  unfold execTearDownRelease
  split
  · exact .idle hk
  · split
    · exact .idle hk
    · exact .next (State.endReport_canonical (State.freeCtx_canonical hk))

theorem State.lostTrap_canonical (hk : Kept σ s) {m : TrapMsg} : Kept σ (s.lostTrap m) := by
  unfold State.lostTrap
  dsimp only
  exact State.modCtx_canonical hk

theorem State.trapEnter_canonical (hk : Kept σ s) {q : Nat} {m : TrapMsg} : OptKept σ (s.trapEnter q m) := by
  unfold State.trapEnter
  dsimp only
  split
  · exact OptKept.some (State.modCtx_canonical (State.setQcc_canonical hk))
  · split
    · exact OptKept.some (OptKept.get (by assumption) (State.pushChan_canonical hk))
    · split
      · exact OptKept.some (State.lostTrap_canonical hk)
      · exact OptKept.none

theorem State.trapDeliver_canonical (hk : Kept σ s) {m : TrapMsg} : Kept σ (s.trapDeliver m) := by
  unfold State.trapDeliver
  split
  · exact hk
  · split
    · exact hk
    · exact Kept.same hk (by rfl)

theorem execTrapChannelMessage_good {idx : Nat} (hk : Kept σ s) : Good σ (execTrapChannelMessage idx s) := by
  unfold execTrapChannelMessage
  dsimp only
  split
  · exact .idle hk
  · split
    · exact .idle hk
    · split
      · exact .next (State.discardN_canonical (Kept.same hk (by rfl)))
      · split
        · exact .next (State.trapDeliver_canonical (Kept.same hk (by rfl)))
        · split
          · exact .idle hk
          · split
            · exact .next (OptKept.get (by assumption) (State.trapEnter_canonical (Kept.same hk (by rfl))))
            · exact .idle hk

theorem execSoftErrorRecord_good {idx : Nat} (hk : Kept σ s) : Good σ (execSoftErrorRecord idx s) := by
  unfold execSoftErrorRecord
  dsimp only
  split
  · exact .idle hk
  · split
    · exact .idle hk
    · exact .next (State.event_canonical (Kept.same hk (by rfl)))

theorem State.eventIn_canonical (hk : Kept σ s) {vf : Nat} : Kept σ (s.eventIn vf) := by
  unfold State.eventIn
  split
  · exact State.event_canonical (Kept.same hk (by rfl))
  · exact hk

theorem execEventRecordWrite_good {vf : Nat} (hk : Kept σ s) : Good σ (execEventRecordWrite vf s) := by
  unfold execEventRecordWrite
  dsimp only
  split
  · exact .idle hk
  · split
    · exact .idle hk
    · exact .next (State.eventIn_canonical (State.ringWrite_canonical (State.setVf_canonical hk)))

theorem State.reported_canonical (hk : Kept σ s) {d : Delivery} : Kept σ (s.reported d) := by
  unfold State.reported
  split
  · exact hk
  · split
    · split
      · exact Kept.same hk (by rfl)
      · exact hk
    · exact hk

theorem State.sinkDelivery_canonical (hk : Kept σ s) {d : Delivery} : Kept σ (s.sinkDelivery d) := by
  unfold State.sinkDelivery
  split
  · exact hk
  · exact State.sink_canonical hk

theorem State.refusedDelivery_canonical (hk : Kept σ s) {idx : Nat} {d : Delivery} : Kept σ (s.refusedDelivery idx d) := by
  unfold State.refusedDelivery
  dsimp only
  split
  · split <;> exact Kept.same hk (by rfl)
  · split
    · exact Kept.same hk (by rfl)
    · exact State.sink_canonical (Kept.same hk (by rfl))

theorem execDeliveryWrite_good {idx : Nat} (hk : Kept σ s) : Good σ (execDeliveryWrite idx s) := by
  unfold execDeliveryWrite
  dsimp only
  split
  · exact .idle hk
  · split
    · exact .idle hk
    · split
      · exact .next (State.discardN_canonical (Kept.same hk (by rfl)))
      · split
        · exact .idle hk
        · exact .next (State.reported_canonical (Kept.same (State.sinkDelivery_canonical (DeliverKept.get_ok (by assumption)
            (State.deliver_canonical hk))) (by rfl)))
        · exact .next (State.reported_canonical (Kept.same (DeliverKept.get_off (by assumption) (State.deliver_canonical hk)) (by rfl)))
        · exact .next (State.refusedDelivery_canonical (DeliverKept.get_refused (by assumption) (State.deliver_canonical hk)))

theorem State.writeArea_canonical (hk : Kept σ s) {w : Who} {va : Nat} {l : List Piece} : Kept σ (s.writeArea w va l).state := by
  induction l generalizing s va with
  | nil => exact hk
  | cons x l ih =>
    unfold State.writeArea
    split
    · exact State.plateOvf_canonical hk
    · exact State.askUnion_canonical hk
    · exact Kept.bind (State.unitWriteAt_canonical hk) fun _ _ hb => ih hb

theorem State.writeStatus_canonical (hk : Kept σ s) {part : Nat} : Kept σ (s.writeStatus part) :=
  Kept.same hk (by rfl)

theorem State.giveFolios_canonical (hk : Kept σ s) {part n : Nat} : Kept σ (s.giveFolios part n) := by
  induction n generalizing s with
  | zero => exact hk
  | succ n ih =>
    unfold State.giveFolios
    split
    · exact hk
    · split
      · exact hk
      · split
        · exact ih (Kept.same hk (by rfl))
        · exact hk

theorem State.giveChans_canonical (hk : Kept σ s) {part n : Nat} : Kept σ (s.giveChans part n) := by
  induction n generalizing s with
  | zero => exact hk
  | succ n ih =>
    rw [State.giveChans_succ]
    split
    · exact hk
    · split
      · exact hk
      · split
        · exact ih (Kept.same hk (by rfl))
        · exact hk

theorem State.setSusp_canonical (hk : Kept σ s) {part : Nat} {v : Bool} : Kept σ (s.setSusp part v) := by
  unfold State.setSusp
  dsimp only
  split
  · exact hk
  · split
    · exact hk
    · exact State.writeStatus_canonical (State.event_canonical (State.setPart_canonical hk))

theorem State.guaranteeRank_canonical (hk : Kept σ s) {r : Nat} : Kept σ (s.guaranteeRank r) := by
  unfold State.guaranteeRank
  dsimp only
  split
  · exact hk
  · split
    · exact State.setSusp_canonical (State.giveChans_canonical (State.giveFolios_canonical hk))
    · exact State.giveChans_canonical (State.giveFolios_canonical hk)

theorem State.guarantee_canonical (hk : Kept σ s) : Kept σ (s.guarantee) := by
  unfold State.guarantee
  dsimp only
  exact Kept.foldl (fun _ _ hu => by
    split
    · exact State.setSusp_canonical hu
    · exact hu) _ (Kept.foldl (fun _ _ hu => State.guaranteeRank_canonical hu) _ hk)

theorem State.applyTurn_canonical (hk : Kept σ s) {part : Nat} : Kept σ (s.applyTurn part) := by
  unfold State.applyTurn
  dsimp only
  split
  · exact hk
  · exact Kept.same hk (by rfl)

theorem execSliceEnd_good {part : Nat} (hk : Kept σ s) : Good σ (execSliceEnd part s) := by
  unfold execSliceEnd
  dsimp only
  split
  · exact .idle hk
  · split
    · exact .idle hk
    · split
      · exact .idle hk
      · exact .next (State.applyTurn_canonical (State.setPart_canonical hk))

theorem execEnergyPeriodEnd_good {die : Nat} (hk : Kept σ s) : Good σ (execEnergyPeriodEnd die s) := by
  unfold execEnergyPeriodEnd
  dsimp only
  split
  · exact .idle hk
  · exact .next (Kept.foldl (fun _ _ hu => State.writeStatus_canonical hu) _ (State.setDie_canonical hk))

theorem State.leave_canonical (hk : Kept σ s) {ctx : Nat} : Kept σ (s.leave ctx) :=
  Kept.same hk (by rfl)

theorem State.streamOut'_good (hk : Kept σ s) {ctx : Nat} {c : Ctx} {r : SaveReq} {v : Saved} {l : List Section} :
    Good σ (s.streamOut' ctx c r v l) := by
  unfold State.streamOut'
  dsimp only
  split
  · exact .next (State.beginEnd_canonical (State.cmdDone_canonical (State.setCtx_canonical hk)))
  · split
    · exact .next (Kept.wait (by assumption) (State.writeArea_canonical hk))
    · exact .next (State.beginEnd_canonical (State.cmdDone_canonical (State.setCtx_canonical (Kept.fail (by assumption)
        (State.writeArea_canonical hk)))))
    · exact .next (Kept.same (State.modPart_canonical (State.leave_canonical (Kept.ok (by assumption)
        (State.writeArea_canonical hk)))) (by rfl))

theorem execSettleComplete_good {ctx : Nat} (hk : Kept σ s) : Good σ (execSettleComplete ctx s) := by
  unfold execSettleComplete
  dsimp only
  split
  · exact .idle hk
  · split
    · exact .idle hk
    · split
      · exact .idle hk
      · split
        · split
          · exact .idle hk
          · split
            · exact .idle hk
            · exact State.streamOut'_good (State.setCtx_canonical (State.sweepCtx_canonical hk))
        · split
          · exact .idle hk
          · exact State.streamOut'_good hk

theorem execKillTimeout_good {ctx : Nat} (hk : Kept σ s) : Good σ (execKillTimeout ctx s) := by
  unfold execKillTimeout
  dsimp only
  split
  · exact .idle hk
  · split
    · exact .idle hk
    · split
      · exact .idle hk
      · exact .next (State.setCtx_canonical (State.stopBegin_canonical hk))

theorem execStopSequence_good {part : Nat} (hk : Kept σ s) : Good σ (execStopSequence part s) := by
  unfold execStopSequence
  dsimp only
  split
  · exact .idle hk
  · split
    · exact .idle hk
    · split
      · exact .idle hk
      · exact .next (State.cmdDone_canonical (Kept.same (Kept.ite (State.writeStatus_canonical (State.setPart_canonical hk))
          (State.setPart_canonical hk)) (by rfl)))

end

end Sys2Proof.Machine
/-! SUPPORT. What leaves the memories canonical: restores, moved folios, partition forms and streams. -/

namespace Sys2Proof.Machine

section
variable {σ s : State}

theorem State.claim_canonical (hk : Kept σ s) {part lf g : Nat} : OptKept σ (s.claim part lf g) := by
  unfold State.claim
  dsimp only
  split
  · exact OptKept.none
  · split
    · split
      · exact OptKept.some hk
      · split
        · exact OptKept.none
        · split
          · exact OptKept.some (State.setPart_canonical hk)
          · split
            · split
              · exact OptKept.none
              · exact OptKept.some (State.setPart_canonical hk)
            · split
              · exact OptKept.none
              · exact OptKept.some (State.setPart_canonical hk)
    · split
      · exact OptKept.some hk
      · split
        · exact OptKept.none
        · split
          · exact OptKept.some (State.setPart_canonical hk)
          · split
            · split
              · exact OptKept.none
              · exact OptKept.some (State.setPart_canonical hk)
            · split
              · exact OptKept.none
              · exact OptKept.some (State.setPart_canonical hk)

theorem assignFolios_canonical (hk : Kept σ s) {part : Nat} {v : Saved} {named : List (Nat × Nat)} {ok : State → Bool} {l : List Nat} :
    OptKept σ (assignFolios part v named ok l s) := by
  induction l generalizing s with
  | nil =>
    unfold assignFolios
    split
    · exact OptKept.some hk
    · exact OptKept.none
  | cons lf l ih =>
    intro t ht
    obtain ⟨g, -, hg⟩ := List.exists_of_findSome?_eq_some ht
    split at hg
    · exact ih (OptKept.get (by assumption) (State.claim_canonical hk)) t hg
    · cases hg

theorem State.elemBack_canonical (hk : Kept σ s) {ctx part : Nat} {weight lp : Nat} {o : Elem} :
    Kept σ (s.elemBack ctx part weight lp o) := by
  unfold State.elemBack
  dsimp only
  split
  · exact hk
  · split
    · exact OptKept.getD (State.putBack_canonical (State.setElem_canonical hk)) (State.modElem_canonical (State.setElem_canonical hk))
    · exact State.setElem_canonical hk

theorem State.ovfBack_canonical (hk : Kept σ s) {part lq : Nat} {o : Overflow} : Kept σ (s.ovfBack part lq o) := by
  unfold State.ovfBack
  dsimp only
  split
  · exact hk
  · exact State.setOvf_canonical hk

theorem State.ctlBackAll_canonical (hk : Kept σ s) {part : Nat} {c : Nat × Memory × Tab Handle} :
    Kept σ (s.ctlBackAll part c) := by
  unfold State.ctlBackAll
  split
  · exact hk
  · exact State.writeErrs_canonical (Kept.same (s := { s with ctl := _ }) (Kept.ctl hk fun hm =>
      foldl_keeps (P := fun m => Memory.wf m = true) (fun _ _ hm => memPut_wf _ _ hm) _ (memClear_wf _ _ hm)) (by rfl))

theorem State.unitsBack_canonical (hk : Kept σ s) {part : Nat} {v : Saved} : Kept σ (s.unitsBack part v) := by
  unfold State.unitsBack
  dsimp only
  exact Kept.foldl (fun _ _ hu => by
    split
    · exact State.setPruner_canonical hu
    · exact hu) _ (Kept.foldl (fun _ _ hu => by
    split
    · exact State.setPruner_canonical hu
    · exact hu) _ (Kept.foldl (fun _ _ hu => by
    split
    · exact State.setRiddle_canonical hu
    · exact hu) _ (Kept.foldl (fun _ _ hu => by
    split
    · exact State.setGraft_canonical hu
    · exact hu) _ (Kept.foldl (fun _ _ hu => by
    split
    · exact State.setPress_canonical hu
    · exact hu) _ (Kept.foldl (fun _ _ hu => by
    split
    · exact State.setQcc_canonical hu
    · exact hu) _ hk)))))

theorem State.plotBack_canonical (hk : Kept σ s) {part : Nat} {x : Nat × Plot × Bytes} : Kept σ (s.plotBack part x) := by
  unfold State.plotBack
  split
  · exact hk
  · exact State.setPlot_canonical (State.writeErrs_canonical (Kept.sram hk (memWrite_wf _ _ _)))

theorem State.runBack_canonical (hk : Kept σ s) {r : Running} : Kept σ (s.runBack r) := by
  unfold State.runBack
  dsimp only
  exact Kept.foldl (fun _ _ hu => by
    split
    · exact hu
    · exact State.setBarrow_canonical hu) _ hk

theorem State.timetableBack_canonical (hk : Kept σ s) {v : Saved} : Kept σ (s.timetableBack v) := by
  unfold State.timetableBack
  dsimp only
  exact Kept.foldl (fun _ _ hu => State.setBarrow_canonical hu) _ (Kept.foldl (fun _ _ hu => State.runBack_canonical hu) _ (by
    split
    · exact State.setBarrow_canonical hk
    · exact hk))

theorem State.linkBack_canonical (hk : Kept σ s) {part : Nat} {x : Nat × Nat × Token} : Kept σ (s.linkBack part x) := by
  unfold State.linkBack
  dsimp only
  split
  · exact hk
  · exact State.setBuf_canonical hk

theorem State.accsBack_canonical (hk : Kept σ s) {part ctx : Nat} {l : List (Nat × Access)} : Kept σ (s.accsBack part ctx l) := by
  induction l generalizing s with
  | nil => exact hk
  | cons x l ih =>
    unfold State.accsBack
    split
    · exact ih hk
    · exact ih (State.accResolve_canonical (Kept.same hk (by rfl)))

theorem State.waysBack_canonical (hk : Kept σ s) {part ctx : Nat} {v : Saved} : Kept σ (s.waysBack part ctx v) :=
  Kept.same hk (by rfl)

theorem State.stateBack_canonical (hk : Kept σ s) {v : Saved} {im : Image} : Kept σ (s.stateBack v im) := by
  unfold State.stateBack
  dsimp only
  exact State.accsBack_canonical (State.waysBack_canonical (Kept.foldl (fun _ _ hu => State.linkBack_canonical hu) _
      (State.timetableBack_canonical (Kept.foldl (fun _ _ hu => State.ctlBackAll_canonical hu) _ (State.unitsBack_canonical
      (Kept.foldl (fun _ _ hu => State.ovfBack_canonical hu) _ (State.placeReserves_canonical (Kept.foldl
      (fun _ _ hu => State.elemBack_canonical hu) _ (Kept.foldl (fun _ _ hu => State.plotBack_canonical hu) _
      (State.placeFolios_canonical (State.setCtx_canonical hk)))))))))))

theorem State.restart_canonical (hk : Kept σ s) {v : Saved} {im : Image} : Kept σ (s.restart v im) := by
  unfold State.restart
  dsimp only
  exact Kept.foldl (fun _ _ hu => State.linkBack_canonical hu) _ (State.placeEngines_canonical (State.placeTasks_canonical
      (State.placeReserves_canonical (State.placeElems_canonical (State.placeFolios_canonical (State.setCtx_canonical hk))))))

theorem State.fetchArea_canonical (hk : Kept σ s) {w : Who} {va : Nat} {got : Bytes} : Kept σ (s.fetchArea w va got).state := by
  unfold State.fetchArea
  split
  · split
    · exact Fetch.kept_done (by assumption) (State.readOn_canonical hk)
    · exact State.readOn_canonical (Fetch.kept_done (by assumption) (State.readOn_canonical hk))
  · exact State.readOn_canonical hk

theorem State.resumeDone_canonical (hk : Kept σ s) {l : Launch} {code : Nat} : Kept σ (s.resumeDone l code) := by
  unfold State.resumeDone
  dsimp only
  split
  · exact State.cmdDone_canonical (State.modPart_canonical hk)
  · exact State.modPart_canonical hk

theorem State.restoreFail_canonical (hk : Kept σ s) {l : Launch} {v : Option Saved} {code : Nat} :
    Kept σ (s.restoreFail l v code) := by
  unfold State.restoreFail
  dsimp only
  split
  · exact State.resumeDone_canonical hk
  · split
    · exact State.vfLast_canonical (State.resumeDone_canonical hk)
    · exact State.report_canonical (State.resumeDone_canonical hk)

theorem State.restore_canonical (hk : Kept σ s) {die i : Nat} {l : Launch} {b : Bytes} : Kept σ (s.restore die i l b) := by
  unfold State.restore
  dsimp only
  split
  · exact State.restoreFail_canonical (State.dropEntry_canonical hk)
  · split
    · exact State.modEntry_canonical hk
    · split
      · exact State.restoreFail_canonical (State.dropEntry_canonical hk)
      · exact State.resumeDone_canonical (Kept.ite (State.restart_canonical (State.joinTurn_canonical (OptKept.get (by assumption)
          (assignFolios_canonical (State.dropEntry_canonical hk))))) (State.stateBack_canonical (State.joinTurn_canonical
          (OptKept.get (by assumption) (assignFolios_canonical (State.dropEntry_canonical hk))))))

theorem execRebinderRestore_good {idx : Nat} (hk : Kept σ s) : Good σ (execRebinderRestore idx s) := by
  unfold execRebinderRestore
  dsimp only
  split
  · exact .idle hk
  · split
    · exact .next (State.modEntry_canonical (Fetch.kept_more (by assumption) (State.fetchArea_canonical hk)))
    · exact .next (State.restoreFail_canonical (State.dropEntry_canonical (Fetch.kept_fail (by assumption) (State.fetchArea_canonical hk))))
    · exact .next (State.restore_canonical (Fetch.kept_done (by assumption) (State.fetchArea_canonical hk)))

theorem State.relocate_canonical (hk : Kept σ s) {l : List (Nat × Nat)} : Kept σ (s.relocate l) :=
  Kept.same hk (by rfl)

/-- Copying ranges only clears and puts bytes. -/
theorem copyRanges_wf {l : List (Nat × Nat)} {n : Nat} {m : Memory} (h : m.wf = true) : (copyRanges l n m).wf = true :=
  memPuts_wf _ (foldl_keeps (P := fun m => Memory.wf m = true) (fun _ _ hm => memClear_wf _ _ hm) l h)

theorem State.copyFolios_canonical (hk : Kept σ s) {l : List (Nat × Nat)} : Kept σ (s.copyFolios l) := by
  unfold State.copyFolios
  generalize List.range 4096 = plots
  exact Kept.foldl (fun _ _ hu => Kept.foldl (fun _ _ hv => Kept.same hv (by rfl)) _ hu) _
    (Kept.wf hk fun h1 h2 h3 => ⟨copyRanges_wf h1, h2, copyRanges_wf h3⟩)

theorem State.moveTimetables_canonical (hk : Kept σ s) {part : Nat} {old : State} : Kept σ (s.moveTimetables part old) := by
  unfold State.moveTimetables
  dsimp only
  exact Kept.foldl (fun _ _ hu => State.setBarrow_canonical hu) _ (Kept.foldl (fun _ _ hu => State.runBack_canonical hu) _
      (Kept.foldl (fun _ _ hu => State.setBarrow_canonical hu) _ (Kept.same hk (by rfl))))

theorem State.commitMoves_canonical (hk : Kept σ s) {part : Nat} : Kept σ (s.commitMoves part) := by
  unfold State.commitMoves
  dsimp only
  split
  · exact hk
  · split
    · exact State.modPart_canonical hk
    · exact State.moveTimetables_canonical (State.modPart_canonical (State.relocate_canonical (State.copyFolios_canonical hk)))

theorem State.formDone_canonical (hk : Kept σ s) {part status : Nat} : Kept σ (s.formDone part status) := by
  unfold State.formDone
  split
  · exact hk
  · split
    · exact State.cmdDone_canonical (State.setPart_canonical hk)
    · exact hk

theorem State.partGone_canonical (hk : Kept σ s) {part : Nat} : Kept σ (s.partGone part) := by
  unfold State.partGone
  dsimp only
  split
  · exact hk
  · split
    · exact State.cmdDone_canonical (State.guarantee_canonical (State.writeStatus_canonical (Kept.same hk (by rfl))))
    · exact State.guarantee_canonical (State.writeStatus_canonical (Kept.same hk (by rfl)))

theorem State.destroyOn_canonical (hk : Kept σ s) {part : Nat} {p : Partn} : Kept σ (s.destroyOn part p) := by
  unfold State.destroyOn
  dsimp only
  split
  · exact hk
  · split
    · exact State.partGone_canonical hk
    · split
      · exact State.setPart_canonical hk
      · split
        · exact State.partGone_canonical (State.commitMoves_canonical hk)
        · exact hk

theorem execFolioMove_good {part lf : Nat} (hk : Kept σ s) : Good σ (execFolioMove part lf s) := by
  unfold execFolioMove
  split
  · exact .idle hk
  · split
    · exact .next (State.destroyOn_canonical hk)
    · split
      · exact .idle hk
      · exact .next (State.formDone_canonical (State.guarantee_canonical (State.commitMoves_canonical hk)))

theorem State.partCreate_canonical (hk : Kept σ s) {part : Nat} {b : Bytes} : FormedKept σ (s.partCreate part b) := by
  unfold State.partCreate
  split
  · exact hk
  · split
    · exact hk
    · exact State.writeStatus_canonical (State.setPart_canonical hk)

theorem State.endContexts_canonical (hk : Kept σ s) {part code : Nat} {pick : Ctx → Bool} :
    Kept σ (s.endContexts part code pick) := by
  unfold State.endContexts
  exact Kept.foldl (fun _ _ hu => State.beginEnd_canonical hu) _ hk

theorem State.partDestroy_canonical (hk : Kept σ s) {part : Nat} {p : Partn} {b : Bytes} {q id : Nat} :
    FormedKept σ (s.partDestroy part p b q id) := by
  unfold State.partDestroy
  dsimp only
  split
  · exact hk
  · split
    · exact hk
    · exact State.destroyOn_canonical (State.setPart_canonical (Kept.foldl (fun _ _ hu => State.launchReply_canonical hu) _
        (Kept.same (State.endContexts_canonical hk) (by rfl))))

theorem State.partFmap_canonical (hk : Kept σ s) {part : Nat} {p : Partn} {b : Bytes} {q id : Nat} :
    FormedKept σ (s.partFmap part p b q id) := by
  unfold State.partFmap
  dsimp only
  split
  · exact hk
  · split
    · split
      · exact hk
      · split
        · exact State.setPart_canonical hk
        · exact State.guarantee_canonical (State.setPart_canonical hk)
    · exact hk

/-- Stated of a result of its own: a tactic that unfolds the conclusion would walk the list of 512 channels. -/
theorem State.partChan_canonical (hk : Kept σ s) {part : Nat} {p : Partn} {b : Bytes} {x : Formed} (hx : s.partChan part p b = x) :
    FormedKept σ x := by
  unfold State.partChan at hx
  generalize List.range 512 = chans at hx
  rw [← hx]
  dsimp only
  split
  · exact hk
  · split
    · exact hk
    · exact State.guarantee_canonical (State.setPart_canonical hk)

theorem State.partPtroot_canonical (hk : Kept σ s) {part : Nat} {p : Partn} {b : Bytes} :
    FormedKept σ (s.partPtroot part p b) := by
  unfold State.partPtroot
  dsimp only
  split
  · exact hk
  · exact State.setPart_canonical hk

theorem State.partFq_canonical (hk : Kept σ s) {part : Nat} {p : Partn} {b : Bytes} : FormedKept σ (s.partFq part p b) := by
  unfold State.partFq
  dsimp only
  split
  · exact hk
  · exact State.setPart_canonical hk

theorem State.partEvent_canonical (hk : Kept σ s) {part : Nat} {p : Partn} {b : Bytes} : FormedKept σ (s.partEvent part p b) := by
  unfold State.partEvent
  split
  · exact hk
  · exact State.setPart_canonical hk

theorem State.partPlate_canonical (hk : Kept σ s) {b : Bytes} : FormedKept σ (s.partPlate b) := by
  unfold State.partPlate
  dsimp only
  split
  · exact hk
  · split
    · split
      · exact hk
      · exact Kept.same hk (by rfl)
    · split
      · exact hk
      · exact Kept.same hk (by rfl)

theorem State.partDest_canonical (hk : Kept σ s) {b : Bytes} : FormedKept σ (s.partDest b) := by
  unfold State.partDest
  dsimp only
  split
  · exact hk
  · exact Kept.ite (State.setOwner_canonical (Kept.same hk (by rfl))) (Kept.same hk (by rfl))

theorem State.partVf_canonical (hk : Kept σ s) {part : Nat} {p : Partn} {b : Bytes} : FormedKept σ (s.partVf part p b) := by
  unfold State.partVf
  dsimp only
  split
  · exact hk
  · split
    · split
      · exact hk
      · exact State.setVf_canonical (State.endContexts_canonical hk)
    · split
      · exact hk
      · split
        · exact hk
        · split
          · exact hk
          · exact State.setVf_canonical hk

theorem State.partQuota_canonical (hk : Kept σ s) {part : Nat} {p : Partn} {b : Bytes} : FormedKept σ (s.partQuota part p b) := by
  unfold State.partQuota
  dsimp only
  split
  · exact hk
  · split
    · exact hk
    · split
      · exact hk
      · exact State.setPart_canonical hk

theorem State.reweigh_canonical (hk : Kept σ s) {part : Nat} : Kept σ (s.reweigh part) :=
  Kept.same hk (by rfl)

theorem State.partBudget_canonical (hk : Kept σ s) {part : Nat} {p : Partn} {b : Bytes} :
    FormedKept σ (s.partBudget part p b) := by
  unfold State.partBudget
  dsimp only
  split
  · exact hk
  · split
    · exact State.reweigh_canonical (State.setPart_canonical hk)
    · split
      · exact hk
      · split
        · exact hk
        · exact State.reweigh_canonical (State.setVf_canonical (State.setPart_canonical hk))

theorem State.partGuar_canonical (hk : Kept σ s) {part : Nat} {p : Partn} {b : Bytes} : FormedKept σ (s.partGuar part p b) := by
  unfold State.partGuar
  dsimp only
  split
  · split
    · exact hk
    · exact State.guarantee_canonical (State.setPart_canonical hk)
  · split
    · exact hk
    · exact State.guarantee_canonical (State.setPart_canonical hk)

theorem State.partStop_canonical (hk : Kept σ s) {part : Nat} {b : Bytes} {q id : Nat} :
    FormedKept σ (s.partStop part b q id) := by
  unfold State.partStop
  dsimp only
  exact State.writeStatus_canonical (Kept.same (State.modPart_canonical (State.stopBegin_canonical hk)) (by rfl))

theorem State.partSave_canonical (hk : Kept σ s) {part : Nat} {b : Bytes} {q id : Nat} :
    FormedKept σ (s.partSave part b q id) := by
  unfold State.partSave
  dsimp only
  split
  · exact hk
  · split
    · exact hk
    · split
      · exact hk
      · exact Kept.ite (State.setCtx_canonical (by
          split
          · exact State.cmdDone_canonical hk
          · exact hk)) (State.stopBegin_canonical (State.setCtx_canonical (by
          split
          · exact State.cmdDone_canonical hk
          · exact hk)))

theorem State.partResume_canonical (hk : Kept σ s) {part : Nat} {p : Partn} {b : Bytes} {set : Handle} {q id : Nat} :
    FormedKept σ (s.partResume part p b set q id) := by
  unfold State.partResume
  dsimp only
  split
  · exact hk
  · split
    · split
      · exact hk
      · exact State.writeStatus_canonical (Kept.same hk (by rfl))
    · split
      · exact hk
      · split
        · exact hk
        · split
          · exact hk
          · split
            · split
              · exact trivial
              · exact State.setDie_canonical (State.setPart_canonical hk)
            · split
              · exact trivial
              · exact State.setDie_canonical (State.setPart_canonical hk)
            · split
              · exact trivial
              · exact State.setDie_canonical (State.setPart_canonical hk)

theorem State.partForm_canonical (hk : Kept σ s) {q : Nat} {c : Cmd} : FormedKept σ (s.partForm q c) := by
  have hchan : ∀ part p b x, s.partChan part p b = x → FormedKept σ x := fun _ _ _ _ hx => State.partChan_canonical hk hx
  unfold State.partForm
  generalize State.partChan = f at hchan ⊢
  dsimp only
  split
  · exact State.partCreate_canonical hk
  · exact hk
  · split
    · split
      · exact hk
      · split
        · exact State.partDestroy_canonical hk
        · exact State.partFmap_canonical hk
        · exact hchan _ _ _ _ rfl
        · exact State.partPtroot_canonical hk
        · exact State.partFq_canonical hk
        · exact State.partPlate_canonical hk
        · exact State.partDest_canonical hk
        · exact State.partVf_canonical hk
        · exact State.partQuota_canonical hk
        · exact State.partBudget_canonical hk
        · exact State.partGuar_canonical hk
        · exact State.partStop_canonical hk
        · exact State.partSave_canonical hk
        · exact State.partResume_canonical hk
        · exact State.partEvent_canonical hk
    · split
      · exact hk
      · split
        · exact State.partDestroy_canonical hk
        · exact State.partFmap_canonical hk
        · exact hchan _ _ _ _ rfl
        · exact State.partPtroot_canonical hk
        · exact State.partFq_canonical hk
        · exact State.partPlate_canonical hk
        · exact State.partDest_canonical hk
        · exact State.partVf_canonical hk
        · exact State.partQuota_canonical hk
        · exact State.partBudget_canonical hk
        · exact State.partGuar_canonical hk
        · exact State.partStop_canonical hk
        · exact State.partSave_canonical hk
        · exact State.partResume_canonical hk
        · exact State.partEvent_canonical hk

theorem State.endUsers_canonical (hk : Kept σ s) {l : List RetUnit} : Kept σ (s.endUsers l) := by
  unfold State.endUsers
  exact Kept.foldl (fun _ _ hu => State.beginEnd_canonical hu) _ hk

theorem State.replaceRequest_canonical (hk : Kept σ s) : Kept σ (s.replaceRequest) := by
  unfold State.replaceRequest
  dsimp only
  exact State.event_canonical (Kept.same hk (by rfl))

theorem State.dropRetired_canonical (hk : Kept σ s) {kind unit : Nat} : Kept σ (s.dropRetired kind unit) := by
  unfold State.dropRetired
  dsimp only
  refine Kept.same (s := s.parts.foldl _ s) (Kept.foldl (fun u q hu => ?_) _ hk) (by rfl)
  split
  · exact State.formDone_canonical (State.modPart_canonical hu)
  · exact hu

theorem execRetirement_good {kind unit : Nat} (hk : Kept σ s) : Good σ (execRetirement kind unit s) := by
  unfold execRetirement
  dsimp only
  split
  · exact .idle hk
  · exact .next (State.replaceRequest_canonical (State.guarantee_canonical (State.dropRetired_canonical (Kept.same
      (State.endUsers_canonical hk) (by rfl)))))

theorem State.setSlot_canonical (hk : Kept σ s) {q i : Nat} {g : GSlot} : Kept σ (s.setSlot q i g) :=
  Kept.same hk (by rfl)

theorem State.streamEnd_canonical (hk : Kept σ s) {q i : Nat} {g : GSlot} {st : Machine.Stream} {status : Nat} :
    Kept σ (s.streamEnd q i g st status) := by
  unfold State.streamEnd
  exact State.cmdDone_canonical (State.setSlot_canonical hk)

theorem State.streamOn_canonical (hk : Kept σ s) {q i : Nat} {g : GSlot} {st : Machine.Stream} :
    Kept σ (s.streamOn q i g st) := by
  unfold State.streamOn
  dsimp only
  split
  · exact State.streamEnd_canonical hk
  · exact State.setSlot_canonical hk

theorem State.streamIn_good (hk : Kept σ s) {q i ctx : Nat} {g : GSlot} {st : Machine.Stream} :
    Good σ (s.streamIn q i ctx g st) := by
  unfold State.streamIn
  dsimp only
  split
  · exact .idle hk
  · split
    · exact .next (Kept.wait (by assumption) (State.unitRead_canonical hk))
    · split
      · exact .next (State.streamOn_canonical (OptKept.get (by assumption) (State.inject_canonical (Kept.fail (by assumption)
          (State.unitRead_canonical hk)))))
      · exact .idle (Kept.fail (by assumption) (State.unitRead_canonical hk))
    · split
      · exact .next (Kept.same hk (by rfl))
      · split
        · exact .next (State.streamOn_canonical (OptKept.get (by assumption) (State.inject_canonical (State.plateOvf_canonical
            (Kept.ok (by assumption) (State.unitRead_canonical hk))))))
        · exact .idle (State.plateOvf_canonical (Kept.ok (by assumption) (State.unitRead_canonical hk)))
      · split
        · exact .next (State.streamOn_canonical (OptKept.get (by assumption) (State.inject_canonical (Kept.ok (by assumption)
            (State.unitRead_canonical hk)))))
        · exact .idle (Kept.ok (by assumption) (State.unitRead_canonical hk))

theorem State.streamOut_good (hk : Kept σ s) {q i ctx : Nat} {g : GSlot} {st : Machine.Stream} :
    Good σ (s.streamOut q i ctx g st) := by
  unfold State.streamOut
  dsimp only
  split
  · exact .idle hk
  · split
    · exact .next (State.streamEnd_canonical (State.modPress_canonical hk))
    · split
      · exact .next (State.streamOn_canonical (State.modPress_canonical hk))
      · split
        · exact .next (State.askUnion_canonical hk)
        · exact .next (State.streamEnd_canonical (State.modPress_canonical (State.plateOvf_canonical hk)))
        · split
          · exact .next (Kept.wait (by assumption) (State.unitWrite_canonical hk))
          · exact .next (State.streamEnd_canonical (State.modPress_canonical (Kept.fail (by assumption) (State.unitWrite_canonical hk))))
          · exact .next (State.streamOn_canonical (State.modPress_canonical (Kept.ok (by assumption) (State.unitWrite_canonical hk))))

theorem execStreamAccess_good {quire slot : Nat} (hk : Kept σ s) : Good σ (execStreamAccess quire slot s) := by
  unfold execStreamAccess
  dsimp only
  split
  · split
    · exact .idle hk
    · split
      · exact .idle hk
      · split
        · exact State.streamOut_good hk
        · exact State.streamIn_good hk
  · exact .idle hk

end

end Sys2Proof.Machine
/-! SUPPORT. What leaves the memories canonical: command units, the host, the link, power and reset. -/

namespace Sys2Proof.Machine

section
variable {σ s : State}

theorem State.cmdRuns_canonical (hk : Kept σ s) {q id : Nat} : Kept σ (s.cmdRuns q id) :=
  Kept.same hk (by rfl)

theorem State.cmdGone_canonical (hk : Kept σ s) {q id : Nat} : Kept σ (s.cmdGone q id) :=
  Kept.same hk (by rfl)

theorem State.bindStream_canonical (hk : Kept σ s) {q : Nat} {c : Cmd} : Kept σ (s.bindStream q c) := by
  unfold State.bindStream
  dsimp only
  split
  · exact State.setSlot_canonical hk
  · exact hk

theorem State.takeScan_canonical (hk : Kept σ s) {q : Nat} {c : Cmd} : Kept σ (s.takeScan q c) := by
  unfold State.takeScan
  dsimp only
  split
  · split
    · exact hk
    · exact State.setGraft_canonical (State.cmdRuns_canonical hk)
  · split
    · exact hk
    · exact State.graftStart_canonical (State.cmdRuns_canonical hk)

theorem State.takeSetx_canonical (hk : Kept σ s) {q ctx : Nat} {c : Cmd} : Kept σ (s.takeSetx q ctx c) := by
  unfold State.takeSetx
  dsimp only
  split
  · exact hk
  · exact State.setRiddle_canonical (State.cmdRuns_canonical hk)

theorem State.takeTopk_canonical (hk : Kept σ s) {q ctx : Nat} {c : Cmd} : Kept σ (s.takeTopk q ctx c) := by
  unfold State.takeTopk
  dsimp only
  split
  · exact State.cmdDone_canonical (State.setPruner_canonical hk)
  · split
    · exact hk
    · exact State.setPruner_canonical (State.cmdRuns_canonical hk)

theorem State.takeSweep_canonical (hk : Kept σ s) {q ctx : Nat} {c : Cmd} : Kept σ (s.takeSweep q ctx c) := by
  unfold State.takeSweep
  split
  · exact State.sweepStart_canonical (State.cmdRuns_canonical hk)
  · split
    · exact OptKept.get (by assumption) (State.sweepDone_canonical hk)
    · split
      · exact Kept.wait (by assumption) (State.ctlBack_canonical hk)
      · exact hk

theorem State.barrRmw_canonical (hk : Kept σ s) {q ctx : Nat} {c : Cmd} {p : Place} : Kept σ (s.barrRmw q ctx c p) := by
  unfold State.barrRmw
  dsimp only
  split
  · exact State.cmdDone_canonical (State.meetErrs_canonical hk)
  · split
    · exact State.cmdDone_canonical (State.spend_canonical (State.meetErrs_canonical hk))
    · split
      · exact State.askUnion_canonical hk
      · exact State.cmdDone_canonical (State.plateOvf_canonical hk)
      · exact Kept.same (State.setPlace_canonical (State.writePlace_canonical (State.meetErrs_canonical hk))) (by rfl)

theorem State.takeBarr_canonical (hk : Kept σ s) {q ctx : Nat} {c : Cmd} : Kept σ (s.takeBarr q ctx c) := by
  unfold State.takeBarr
  dsimp only
  split
  · exact hk
  · split
    · exact State.cmdDone_canonical hk
    · split
      · exact Kept.wait (by assumption) (State.unitPlace_canonical hk)
      · exact State.cmdDone_canonical (Kept.fail (by assumption) (State.unitPlace_canonical hk))
      · exact State.barrRmw_canonical (Kept.ok (by assumption) (State.unitPlace_canonical hk))

theorem State.genPassed_canonical (hk : Kept σ s) {home gen : Nat} : Kept σ (s.genPassed home gen) :=
  Kept.same hk (by rfl)

theorem execBarrierRegistration_good {idx : Nat} (hk : Kept σ s) : Good σ (execBarrierRegistration idx s) := by
  unfold execBarrierRegistration
  dsimp only
  split
  · exact .idle hk
  · split
    · exact .idle hk
    · exact .next (Kept.ite (State.genPassed_canonical (Kept.same hk (by rfl))) (Kept.same hk (by rfl)))

theorem execBarrierCompletion_good {idx : Nat} (hk : Kept σ s) : Good σ (execBarrierCompletion idx s) := by
  unfold execBarrierCompletion
  split
  · exact .idle hk
  · split
    · exact .idle hk
    · exact .next (State.cmdDone_canonical (Kept.same hk (by rfl)))

theorem State.unitTakes_canonical (hk : Kept σ s) {q ctx : Nat} {c : Cmd} : Kept σ (s.unitTakes q ctx c) := by
  unfold State.unitTakes
  dsimp only
  split
  · exact State.bindStream_canonical (State.cmdRuns_canonical hk)
  · split
    · exact Kept.same hk (by rfl)
    · exact hk
  · exact State.cmdRuns_canonical hk
  · split
    · exact OptKept.get (by assumption) (State.switchStart_canonical (State.cmdRuns_canonical hk))
    · exact hk
  · exact State.takeBarr_canonical hk
  · exact Kept.same hk (by rfl)
  · exact State.cmdDone_canonical (State.ttLoad_canonical hk)
  · split
    · exact State.cmdDone_canonical hk
    · split
      · exact hk
      · exact State.modTable_canonical (State.cmdRuns_canonical hk)
  · exact State.takeScan_canonical hk
  · exact State.takeSetx_canonical hk
  · exact State.takeTopk_canonical hk
  · split
    · exact State.revoke_canonical hk
    · exact Kept.same hk (by rfl)
  · exact State.takeSweep_canonical hk
  · split
    · exact hk
    · split
      · exact State.cmdDone_canonical (FormedKept.get_done (by assumption) (State.partForm_canonical (State.cmdRuns_canonical hk)))
      · exact FormedKept.get_runs (by assumption) (State.partForm_canonical (State.cmdRuns_canonical hk))
      · exact hk
  · exact hk

theorem execCommandDispatch_good {quire : Nat} (hk : Kept σ s) : Good σ (execCommandDispatch quire s) := by
  unfold execCommandDispatch
  split
  · split
    · exact .idle hk
    · split
      · split
        · exact .next (State.cmdGone_canonical hk)
        · exact .idle hk
      · exact .next (State.unitTakes_canonical hk)
  · exact .idle hk

theorem State.nodeDone_canonical (hk : Kept σ s) {q : Nat} {c : Cmd} {status : Nat} : Kept σ (s.nodeDone q c status) := by
  unfold State.nodeDone
  split
  · exact hk
  · split
    · exact State.setNode_canonical hk
    · exact hk

theorem execCommandNotify_good {quire idx : Nat} (hk : Kept σ s) : Good σ (execCommandNotify quire idx s) := by
  unfold execCommandNotify
  dsimp only
  split
  · split
    · split
      · exact .idle hk
      · split
        · split
          · exact .next (State.nodeDone_canonical (State.cmdGone_canonical (OptKept.get (by assumption) (State.pushChan_canonical hk))))
          · exact .idle hk
        · exact .next (State.nodeDone_canonical (State.cmdGone_canonical hk))
    · exact .idle hk
  · exact .idle hk

theorem State.hostRead_canonical (hk : Kept σ s) {w : Who} {vf va n : Nat} : Kept σ (s.hostRead w vf va n).state := by
  unfold State.hostRead
  split
  · exact hk
  · refine Kept.bind (State.unitRead_canonical hk) fun _ _ hb => ?_
    split <;> exact Kept.snd (by assumption) (State.clasp_canonical hb)

theorem State.hostWrite_canonical (hk : Kept σ s) {w : Who} {vf va : Nat} {n v : Nat} :
    Kept σ (s.hostWrite w vf va n v).state := by
  unfold State.hostWrite
  split
  · exact hk
  · exact State.unitWrite_canonical hk

theorem State.hostPiece_canonical (hk : Kept σ s) {w : Who} {base : Nat} {r : HostReq} : Kept σ (s.hostPiece w base r).state := by
  unfold State.hostPiece
  dsimp only
  split
  · refine Kept.bind (State.hostWrite_canonical hk) fun _ _ hb => ?_
    exact hb
  · refine Kept.bind (State.hostRead_canonical hk) fun _ _ hb => ?_
    exact hb

theorem State.hostPieces_canonical {w : Who} {base n : Nat} {r : HostReq} (hk : Kept σ s) :
    Kept σ (State.hostPieces w base n r s).2 := by
  induction n generalizing s r with
  | zero => exact hk
  | succ n ih =>
    unfold State.hostPieces
    split
    · exact hk
    · dsimp only
      split
      · exact Kept.wait (by assumption) (State.hostPiece_canonical hk)
      · exact ih (Kept.fail (by assumption) (State.hostPiece_canonical hk))
      · exact ih (Kept.ok (by assumption) (State.hostPiece_canonical hk))

theorem State.hostAnswer_canonical (hk : Kept σ s) {tag : Nat} {data : Bytes} {poisoned : Bool} :
    Kept σ (s.hostAnswer tag data poisoned) :=
  Kept.same hk (by rfl)

theorem State.hostEnd_canonical (hk : Kept σ s) {r : HostReq} : Kept σ (s.hostEnd r) := by
  unfold State.hostEnd
  dsimp only
  split
  · split
    · exact State.vfCount_canonical (Kept.ite (State.vfCount_canonical hk) hk)
    · split
      · exact State.vfCount_canonical hk
      · exact hk
  · exact State.hostAnswer_canonical (Kept.ite (State.vfCount_canonical (Kept.ite (State.vfCount_canonical hk) hk)) (Kept.ite
      (State.vfCount_canonical hk) hk))

theorem State.hostRequest_good (hk : Kept σ s) {part : Nat} {r : HostReq} : Good σ (s.hostRequest part r) := by
  unfold State.hostRequest
  dsimp only
  split
  · exact .idle hk
  · split
    · split
      · exact .next (State.hostEnd_canonical (Kept.same (State.hostPieces_canonical hk) (by rfl)))
      · exact .next (Kept.same (State.hostPieces_canonical hk) (by rfl))
    · split
      · exact .next (State.hostEnd_canonical (Kept.same (State.hostPieces_canonical hk) (by rfl)))
      · exact .next (Kept.same (State.hostPieces_canonical hk) (by rfl))

theorem execHostApertureRead_good {vf off : Nat} {size tag : Nat} (hk : Kept σ s) :
    Good σ (execHostApertureRead vf off size tag s) := by
  unfold execHostApertureRead
  split
  · exact .idle hk
  · split
    · exact .next (State.hostAnswer_canonical hk)
    · exact State.hostRequest_good hk

theorem execHostApertureWrite_good {vf off : Nat} {data : Bytes} (hk : Kept σ s) :
    Good σ (execHostApertureWrite vf off data s) := by
  unfold execHostApertureWrite
  split
  · exact .idle hk
  · split
    · exact .idle hk
    · exact State.hostRequest_good hk

theorem execCidxWrite_good {vf queue : Nat} {value : Word} (hk : Kept σ s) : Good σ (execCidxWrite vf queue value s) := by
  unfold execCidxWrite
  dsimp only
  split
  · exact .idle hk
  · exact .next (State.setVf_canonical hk)

theorem execQueueEnableWrite_good {vf queue : Nat} {data : Bytes} (hk : Kept σ s) :
    Good σ (execQueueEnableWrite vf queue data s) := by
  unfold execQueueEnableWrite
  dsimp only
  split
  · exact .idle hk
  · split
    · split
      · exact .idle hk
      · split
        · exact .next (State.setVf_canonical hk)
        · split
          · exact .next (State.vfCount_canonical (State.setVf_canonical hk))
          · exact .next (State.setVf_canonical hk)
    · split
      · exact .idle hk
      · split
        · exact .next (State.setVf_canonical hk)
        · split
          · exact .next (State.vfCount_canonical (State.setVf_canonical hk))
          · exact .next (State.setVf_canonical hk)

theorem execVfStatusWrite_good {vf : Nat} {value : BitVec 64} (hk : Kept σ s) : Good σ (execVfStatusWrite vf value s) := by
  unfold execVfStatusWrite
  dsimp only
  split
  · exact .idle hk
  · exact .next (State.setVf_canonical hk)

theorem execRegisterWrite_good {vf off : Nat} {data : Bytes} (hk : Kept σ s) : Good σ (execRegisterWrite vf off data s) := by
  unfold execRegisterWrite
  dsimp only
  split
  · exact .idle hk
  · split
    · exact .next (State.setVf_canonical hk)
    · split
      · exact .next (State.setVf_canonical hk)
      · split
        · exact .next (State.setVf_canonical hk)
        · split
          · split
            · exact .next (State.setVf_canonical hk)
            · exact .idle hk
          · split
            · exact .next (State.setVf_canonical hk)
            · split
              · exact .next (Kept.same hk (by rfl))
              · exact .idle hk

theorem State.answer_canonical (hk : Kept σ s) {tag code v : Nat} : Kept σ (s.answer tag code v) :=
  Kept.same hk (by rfl)

theorem execHostWindowCompletion_good {tag status : Nat} {data : Bytes} (hk : Kept σ s) :
    Good σ (execHostWindowCompletion tag status data s) := by
  unfold execHostWindowCompletion
  split
  · exact .idle hk
  · split <;> exact .next (State.answer_canonical hk)

theorem execHostCompletionTimeout_good {tag : Nat} (hk : Kept σ s) : Good σ (execHostCompletionTimeout tag s) := by
  unfold execHostCompletionTimeout
  split
  · exact .next (State.answer_canonical hk)
  · exact .idle hk

theorem execPeerTimeout_good {tag : Nat} (hk : Kept σ s) : Good σ (execPeerTimeout tag s) := by
  unfold execPeerTimeout
  split
  · exact .idle hk
  · split
    · exact .next (State.answer_canonical hk)
    · exact .idle hk

theorem State.peerPerform_canonical (hk : Kept σ s) {accel kind : Nat} {aop pa size : Nat} {data : Bytes} :
    Kept σ (s.peerPerform accel kind aop pa size data).2 := by
  unfold State.peerPerform
  dsimp only
  split
  · exact hk
  · split
    · exact hk
    · split
      · split
        · exact State.meetErrs_canonical hk
        · split <;> exact Kept.snd (by assumption) (State.clasp_canonical (State.meetErrs_canonical hk))
      · split
        · split
          · exact hk
          · split
            · exact State.askUnion_canonical hk
            · exact State.plateOvf_canonical hk
            · exact State.setPlace_canonical (State.writePlace_canonical hk)
        · split
          · exact State.meetErrs_canonical hk
          · split
            · exact State.askUnion_canonical (State.meetErrs_canonical hk)
            · exact State.plateOvf_canonical (State.meetErrs_canonical hk)
            · split <;> exact Kept.snd (by assumption) (State.clasp_canonical (State.setPlace_canonical (State.writePlace_canonical
                (State.meetErrs_canonical hk))))

theorem State.peerRequest_canonical (hk : Kept σ s) {accel kind aop tag pa size : Nat} {data : Bytes} :
    BothKept σ (s.peerRequest accel kind aop tag pa size data) := by
  unfold State.peerRequest
  split
  · exact ⟨OptKept.none, Kept.snd (by assumption) (State.peerPerform_canonical hk)⟩
  next code v s1 e1 =>
    have h1 : Kept σ s1 := Kept.snd e1 (State.peerPerform_canonical hk)
    exact ⟨OptKept.some (State.sendFlit_canonical h1), h1⟩

theorem execPeerRequestArrival_good {accel kind : Nat} {va : BitVec 64} {size : Nat} {data : Bytes} (hk : Kept σ s) :
    Good σ (execPeerRequestArrival accel kind va size data s) := by
  unfold execPeerRequestArrival
  split
  · exact .idle hk
  · split
    · exact .next ((BothKept.fst (by assumption) (State.peerRequest_canonical hk)))
    · exact .next ((BothKept.snd (by assumption) (State.peerRequest_canonical hk)))

theorem State.takeFlit_canonical (hk : Kept σ s) {m : FlitMsg} : BothKept σ (s.takeFlit m) := by
  unfold State.takeFlit
  dsimp only
  split
  · exact State.peerRequest_canonical hk
  · exact State.peerRequest_canonical hk
  · exact State.peerRequest_canonical hk
  · exact ⟨OptKept.some (Kept.ite (State.answer_canonical hk) hk), hk⟩
  · exact ⟨OptKept.some (Kept.ite (State.answer_canonical hk) hk), hk⟩
  · exact ⟨OptKept.some (Kept.ite (State.answer_canonical hk) hk), hk⟩
  · exact ⟨OptKept.some (State.prunerFlit_canonical hk), hk⟩
  · exact ⟨OptKept.some hk, hk⟩

theorem execFlitReceive_good {port : Nat} {data : Bytes} (hk : Kept σ s) : Good σ (execFlitReceive port data s) := by
  unfold execFlitReceive
  dsimp only
  split
  · exact .idle hk
  · split
    · exact .idle hk
    · split
      · exact .next (Kept.same hk (by rfl))
      · split
        · exact .next (Kept.same (BothKept.fst (by assumption) (State.takeFlit_canonical hk)) (by rfl))
        · exact .next (BothKept.snd (by assumption) (State.takeFlit_canonical hk))

theorem State.retrain_canonical (hk : Kept σ s) {port lanes : Nat} : Kept σ (s.retrain port lanes) := by
  unfold State.retrain
  dsimp only
  exact State.event_canonical (Kept.ite (State.setPort_canonical hk) (Kept.same hk (by rfl)))

theorem execLinkLaneLoss_good {port lanes : Nat} (hk : Kept σ s) : Good σ (execLinkLaneLoss port lanes s) := by
  unfold execLinkLaneLoss
  split
  · exact .next (State.retrain_canonical hk)
  · exact .idle hk

theorem execLinkLanesUp_good {port lanes : Nat} (hk : Kept σ s) : Good σ (execLinkLanesUp port lanes s) := by
  unfold execLinkLanesUp
  split
  · exact .next (State.retrain_canonical hk)
  · exact .idle hk

theorem execDomainConfigWrite_good {off : Nat} {data : Bytes} (hk : Kept σ s) : Good σ (execDomainConfigWrite off data s) := by
  unfold execDomainConfigWrite
  dsimp only
  exact .next (Kept.same hk (by rfl))

theorem execDebugRead_good {part : Nat} {va : BitVec 64} {size : Nat} (hk : Kept σ s) :
    Good σ (execDebugRead part va size s) := by
  unfold execDebugRead
  dsimp only
  split
  · exact .idle hk
  · split
    · exact .next (Kept.same hk (by rfl))
    · split
      · exact .next (Kept.wait (by assumption) (State.unitRead_canonical hk))
      · exact .next (Kept.same (Kept.fail (by assumption) (State.unitRead_canonical hk)) (by rfl))
      · split <;> exact .next (Kept.same (Kept.snd (by assumption) (State.clasp_canonical (Kept.ok (by assumption)
          (State.unitRead_canonical hk)))) (by rfl))

theorem execPowerStateEntry_good {kind unit level : Nat} (hk : Kept σ s) : Good σ (execPowerStateEntry kind unit level s) := by
  unfold execPowerStateEntry
  dsimp only
  split
  · split
    · exact .next (Kept.same hk (by rfl))
    · exact .idle hk
  · split
    · exact .next (Kept.same hk (by rfl))
    · exact .idle hk
  · split
    · exact .next (Kept.same hk (by rfl))
    · exact .idle hk
  · exact .idle hk

theorem execUnitWake_good {kind unit : Nat} (hk : Kept σ s) : Good σ (execUnitWake kind unit s) := by
  unfold execUnitWake
  dsimp only
  split
  · split
    · split
      · exact .idle hk
      · exact .next (Kept.same hk (by rfl))
    · split
      · exact .idle hk
      · exact .next (Kept.same hk (by rfl))
    · split
      · exact .idle hk
      · exact .next (Kept.same hk (by rfl))
  · exact .idle hk

theorem execPcieLinkL1_good {entered : Bool} (hk : Kept σ s) : Good σ (execPcieLinkL1 entered s) := by
  unfold execPcieLinkL1
  exact .next (Kept.same hk (by rfl))

theorem execPmtolWrite_good {part : Nat} {value : Word} (hk : Kept σ s) : Good σ (execPmtolWrite part value s) := by
  unfold execPmtolWrite
  split
  · exact .idle hk
  · exact .next (Kept.same hk (by rfl))

theorem execPwrlimWrite_good {value : Word} (hk : Kept σ s) : Good σ (execPwrlimWrite value s) := by
  unfold execPwrlimWrite
  exact .next (Kept.same hk (by rfl))

theorem execPowerWindowEnd_good {watts : Nat} (hk : Kept σ s) : Good σ (execPowerWindowEnd watts s) := by
  unfold execPowerWindowEnd
  split
  · exact .next (Kept.same hk (by rfl))
  · split
    · exact .next (Kept.same hk (by rfl))
    · exact .idle hk

theorem execMailboxReport_good {vf : Nat} {nonce : Bytes} (hk : Kept σ s) : Good σ (execMailboxReport vf nonce s) := by
  unfold execMailboxReport
  dsimp only
  split
  · exact .idle hk
  · exact .next (State.setVf_canonical hk)

theorem execMailboxCert_good {vf : Nat} (hk : Kept σ s) : Good σ (execMailboxCert vf s) := by
  unfold execMailboxCert
  dsimp only
  split
  · exact .idle hk
  · exact .next (State.setVf_canonical hk)

theorem execMailboxList_good {vf : Nat} (hk : Kept σ s) : Good σ (execMailboxList vf s) := by
  unfold execMailboxList
  dsimp only
  split
  · exact .idle hk
  · exact .next (State.setVf_canonical hk)

theorem execFirmwareBundleWrite_good {version : Word} {bundle sig : Bytes} (hk : Kept σ s) :
    Good σ (execFirmwareBundleWrite version bundle sig s) := by
  unfold execFirmwareBundleWrite
  split
  · exact .next (Kept.same hk (by rfl))
  · exact .idle hk

theorem State.cleared_canonical (hk : Kept σ s) {n : Nat} : Kept σ (s.cleared n) := Kept.wf hk fun _ _ _ => ⟨rfl, rfl, rfl⟩

theorem State.bringUp1_canonical (hk : Kept σ s) : Kept σ (s.bringUp1) := by
  unfold State.bringUp1
  dsimp only
  split <;> exact Kept.same hk (by rfl)

theorem State.bringUp3_canonical (hk : Kept σ s) : Kept σ s.bringUp3 := Kept.wf hk fun _ _ _ => ⟨rfl, rfl, rfl⟩

theorem State.bringUp4_canonical (hk : Kept σ s) : Kept σ (s.bringUp4) :=
  Kept.same hk (by rfl)

theorem State.bringOn_canonical (hk : Kept σ s) : Kept σ (s.bringOn) := by
  unfold State.bringOn
  split
  · exact State.bringUp1_canonical hk
  · exact Kept.same hk (by rfl)
  · exact State.bringUp3_canonical hk
  · exact State.bringUp4_canonical hk

theorem execColdReset_good (hk : Kept σ s) : Good σ (execColdReset s) := by
  unfold execColdReset
  exact .next (Kept.ite (State.cleared_canonical hk) (State.bringOn_canonical hk))

theorem execWarmReset_good (hk : Kept σ s) : Good σ (execWarmReset s) := by
  unfold execWarmReset
  split
  · exact .next (Kept.same (State.cleared_canonical (n := 3) hk) (by rfl))
  · split
    · exact .next (State.bringOn_canonical hk)
    · exact .idle hk

theorem execVfFlr_good {vf : Nat} (hk : Kept σ s) : Good σ (execVfFlr vf s) := by
  unfold execVfFlr
  dsimp only
  split
  · exact .idle hk
  · split
    · split
      · exact .idle hk
      · exact .next (State.event_canonical (Kept.same hk (by rfl)))
    · exact .next (Kept.same (Kept.foldl (fun _ _ hu => State.beginEnd_canonical hu) _ hk) (by rfl))

theorem execConfigurationRequest_good {tag : Nat} (hk : Kept σ s) : Good σ (execConfigurationRequest tag s) := by
  unfold execConfigurationRequest
  split
  · exact .next (Kept.same hk (by rfl))
  · exact .idle hk

end

end Sys2Proof.Machine
/-! SUPPORT. Every instruction and every turn answers a next state and keeps the memories canonical. -/

namespace Sys2Proof.Machine

section
variable {σ s : State}

/-- What changes one element leaves the memories. -/
theorem FiresOnly.good {r : Res} (hk : Kept σ s) (hr : FiresOnly s r) : Good σ r := by
  obtain ⟨t, rfl, rfl | ⟨f, -, ht, -⟩⟩ := hr
  · exact .next hk
  · rw [ht]
    exact .next (Kept.same hk (by rfl))

/-- An element instruction whose opcode only computes. -/
def Instr.computes (i : Instr) : Bool := match elemOpcodeOf i with | some (opc, _) => computing opc | none => false

theorem exec_good_of_computes {i : Instr} (h : Instr.computes i = true) (hk : Kept σ s) : Good σ (exec i s) := by
  unfold Instr.computes at h
  split at h
  · exact (exec_firesOnly_of_computing ‹_› h s).good hk
  · cases h

/-- Instruction by instruction; what is left after the arms named only computes. -/
theorem exec_good (i : Instr) (hk : Kept σ s) : Good σ (exec i s) := by
  cases i with
  | sink _ => exact execSink_good hk
  | reorder _ => exact execReorder_good hk
  | alloc _ => exact execAlloc_good hk
  | parkedAllocFire _ _ => exact execParkedAllocFire_good hk
  | free _ => exact execFree_good hk
  | freeNotice _ _ => exact execFreeNotice_good hk
  | cfgsw _ => exact execCfgsw_good hk
  | ld _ => exact State.memExec_good hk
  | st _ => exact State.memExec_good hk
  | ldg _ => exact State.memExec_good hk
  | sts _ => exact State.memExec_good hk
  | wadd _ => exact State.memExec_good hk
  | wrd _ => exact State.memExec_good hk
  | wclr _ => exact State.memExec_good hk
  | zero _ => exact State.memExec_good hk
  | ldOrd _ => exact State.memExec_good hk
  | stOrd _ => exact State.memExec_good hk
  | ldgOrd _ => exact State.memExec_good hk
  | stsOrd _ => exact State.memExec_good hk
  | waddOrd _ => exact State.memExec_good hk
  | wrdOrd _ => exact State.memExec_good hk
  | wclrOrd _ => exact State.memExec_good hk
  | zeroOrd _ => exact State.memExec_good hk
  | hld _ => exact State.memExec_good hk
  | hst _ => exact State.memExec_good hk
  | atom _ => exact State.memExec_good hk
  | hldOrd _ => exact State.memExec_good hk
  | hstOrd _ => exact State.memExec_good hk
  | atomOrd _ => exact State.memExec_good hk
  | mark _ => exact execMark_good hk
  | trap _ => exact execTrap_good hk
  | yield _ => exact execYield_good hk
  | exit _ => exact execExit_good hk
  | send _ => exact execSend_good hk
  | sendAcceptance _ => exact execSendAcceptance_good hk
  | launch _ => exact execLaunch_good hk
  | launchResponse _ => exact execLaunchResponse_good hk
  | aluAdd _ _ _ => exact show Good σ (execAluAdd _ _ _ s) from State.aluR_good hk
  | aluSub _ _ _ => exact show Good σ (execAluSub _ _ _ s) from State.aluR_good hk
  | aluAnd _ _ _ => exact show Good σ (execAluAnd _ _ _ s) from State.aluR_good hk
  | aluOr _ _ _ => exact show Good σ (execAluOr _ _ _ s) from State.aluR_good hk
  | aluXor _ _ _ => exact show Good σ (execAluXor _ _ _ s) from State.aluR_good hk
  | aluSll _ _ _ => exact show Good σ (execAluSll _ _ _ s) from State.aluR_good hk
  | aluSrl _ _ _ => exact show Good σ (execAluSrl _ _ _ s) from State.aluR_good hk
  | aluSra _ _ _ => exact show Good σ (execAluSra _ _ _ s) from State.aluR_good hk
  | aluSlt _ _ _ => exact show Good σ (execAluSlt _ _ _ s) from State.aluR_good hk
  | aluSltu _ _ _ => exact show Good σ (execAluSltu _ _ _ s) from State.aluR_good hk
  | aluMul _ _ _ => exact show Good σ (execAluMul _ _ _ s) from State.aluR_good hk
  | aluMulh _ _ _ => exact show Good σ (execAluMulh _ _ _ s) from State.aluR_good hk
  | aluMulhu _ _ _ => exact show Good σ (execAluMulhu _ _ _ s) from State.aluR_good hk
  | aluDiv _ _ _ => exact show Good σ (execAluDiv _ _ _ s) from State.aluR_good hk
  | aluDivu _ _ _ => exact show Good σ (execAluDivu _ _ _ s) from State.aluR_good hk
  | aluRem _ _ _ => exact show Good σ (execAluRem _ _ _ s) from State.aluR_good hk
  | aluRemu _ _ _ => exact show Good σ (execAluRemu _ _ _ s) from State.aluR_good hk
  | aluMin _ _ _ => exact show Good σ (execAluMin _ _ _ s) from State.aluR_good hk
  | aluMax _ _ _ => exact show Good σ (execAluMax _ _ _ s) from State.aluR_good hk
  | aluMinu _ _ _ => exact show Good σ (execAluMinu _ _ _ s) from State.aluR_good hk
  | aluMaxu _ _ _ => exact show Good σ (execAluMaxu _ _ _ s) from State.aluR_good hk
  | addi _ _ _ => exact show Good σ (execAddi _ _ _ s) from State.aluI_good hk
  | andi _ _ _ => exact show Good σ (execAndi _ _ _ s) from State.aluI_good hk
  | ori _ _ _ => exact show Good σ (execOri _ _ _ s) from State.aluI_good hk
  | xori _ _ _ => exact show Good σ (execXori _ _ _ s) from State.aluI_good hk
  | slli _ _ _ => exact show Good σ (execSlli _ _ _ s) from State.aluI_good hk
  | srli _ _ _ => exact show Good σ (execSrli _ _ _ s) from State.aluI_good hk
  | srai _ _ _ => exact show Good σ (execSrai _ _ _ s) from State.aluI_good hk
  | slti _ _ _ => exact show Good σ (execSlti _ _ _ s) from State.aluI_good hk
  | sltiu _ _ _ => exact show Good σ (execSltiu _ _ _ s) from State.aluI_good hk
  | lui _ _ => exact execLui_good hk
  | lb _ _ _ => exact show Good σ (execLb _ _ _ s) from State.qccLoad_good hk
  | lbu _ _ _ => exact show Good σ (execLbu _ _ _ s) from State.qccLoad_good hk
  | lh _ _ _ => exact show Good σ (execLh _ _ _ s) from State.qccLoad_good hk
  | lhu _ _ _ => exact show Good σ (execLhu _ _ _ s) from State.qccLoad_good hk
  | lw _ _ _ => exact show Good σ (execLw _ _ _ s) from State.qccLoad_good hk
  | sb _ _ _ => exact show Good σ (execSb _ _ _ s) from State.qccStore_good hk
  | sh _ _ _ => exact show Good σ (execSh _ _ _ s) from State.qccStore_good hk
  | sw _ _ _ => exact show Good σ (execSw _ _ _ s) from State.qccStore_good hk
  | lwg _ _ _ => exact execLwg_good hk
  | swg _ _ _ => exact execSwg_good hk
  | amo _ _ _ _ _ => exact execAmo_good hk
  | beq _ _ _ => exact show Good σ (execBeq _ _ _ s) from State.branch_good hk
  | bne _ _ _ => exact show Good σ (execBne _ _ _ s) from State.branch_good hk
  | blt _ _ _ => exact show Good σ (execBlt _ _ _ s) from State.branch_good hk
  | bge _ _ _ => exact show Good σ (execBge _ _ _ s) from State.branch_good hk
  | bltu _ _ _ => exact show Good σ (execBltu _ _ _ s) from State.branch_good hk
  | bgeu _ _ _ => exact show Good σ (execBgeu _ _ _ s) from State.branch_good hk
  | jal _ _ => exact execJal_good hk
  | jalr _ _ _ => exact execJalr_good hk
  | tend => exact execTend_good hk
  | tarm _ _ => exact execTarm_good hk
  | tsend _ _ _ _ => exact execTsend_good hk
  | tsendDelivery _ => exact execTsendDelivery_good hk
  | tpoll _ _ _ => exact execTpoll_good hk
  | tprio _ _ => exact execTprio_good hk
  | sysr _ _ _ => exact execSysr_good hk
  | sysw _ _ _ => exact execSysw_good hk
  | qccTrap _ => exact execQccTrap_good hk
  | tret => exact execTret_good hk
  | qccFence => exact execQccFence_good hk
  | invalidationComplete _ => exact execInvalidationComplete_good hk
  | pat _ _ => exact show Good σ (execPat _ _ s) from State.command_good hk
  | strmBindIn _ _ _ => exact show Good σ (execStrmBindIn _ _ _ s) from State.command_good hk
  | strmBindOut _ _ _ => exact show Good σ (execStrmBindOut _ _ _ s) from State.command_good hk
  | streamAccess _ _ => exact execStreamAccess_good hk
  | cmd _ _ => exact show Good σ (execCmd _ _ s) from State.command_good hk
  | cmdCancel _ => exact show Good σ (execCmdCancel _ s) from State.command_good hk
  | cmdNodeComplete _ _ => exact execCmdNodeComplete_good hk
  | copyPiece _ _ => exact execCopyPiece_good hk
  | qccLaunch _ _ => exact show Good σ (execQccLaunch _ _ s) from State.command_good hk
  | cfgLoad _ _ => exact show Good σ (execCfgLoad _ _ s) from State.command_good hk
  | cfgLoadShadow _ _ => exact show Good σ (execCfgLoadShadow _ _ s) from State.command_good hk
  | cfgLoadComplete _ => exact execCfgLoadComplete_good hk
  | cfgSwitch _ _ => exact show Good σ (execCfgSwitch _ _ s) from State.command_good hk
  | drainNotice _ => exact execDrainNotice_good hk
  | shadowSwitch _ => exact execShadowSwitch_good hk
  | barr _ _ => exact show Good σ (execBarr _ _ s) from State.command_good hk
  | barrierRegistration _ => exact execBarrierRegistration_good hk
  | barrierCompletion _ => exact execBarrierCompletion_good hk
  | qccMark _ => exact show Good σ (execQccMark _ s) from State.command_good hk
  | ttLoad _ => exact show Good σ (execTtLoad _ s) from State.command_good hk
  | ttArm _ => exact show Good σ (execTtArm _ s) from State.command_good hk
  | ttArmReset _ => exact execTtArmReset_good hk
  | scan _ _ _ _ _ _ _ => exact show Good σ (execScan _ _ _ _ _ _ _ s) from State.command_good hk
  | scanWload _ _ _ _ _ _ => exact show Good σ (execScanWload _ _ _ _ _ _ s) from State.command_good hk
  | setx _ _ _ => exact show Good σ (execSetx _ _ _ s) from State.command_good hk
  | topk _ _ _ => exact show Good σ (execTopk _ _ _ s) from State.command_good hk
  | topkGroup _ _ => exact show Good σ (execTopkGroup _ _ s) from State.command_good hk
  | topkCommit _ _ => exact show Good σ (execTopkCommit _ _ s) from State.command_good hk
  | claspReq _ _ => exact show Good σ (execClaspReq _ _ s) from State.hypCommand_good hk
  | claspRevoke _ _ => exact show Good σ (execClaspRevoke _ _ s) from State.hypCommand_good hk
  | plateSweep _ _ => exact show Good σ (execPlateSweep _ _ s) from State.hypCommand_good hk
  | sweepMarkPassDone => exact execSweepMarkPassDone_good hk
  | pmTol _ _ => exact show Good σ (execPmTol _ _ s) from State.hypCommand_good hk
  | partCreate _ _ _ => exact show Good σ (execPartCreate _ _ _ s) from State.hypCommand_good hk
  | partDestroy _ _ _ => exact show Good σ (execPartDestroy _ _ _ s) from State.hypCommand_good hk
  | partFmap _ _ _ => exact show Good σ (execPartFmap _ _ _ s) from State.hypCommand_good hk
  | partChan _ _ _ => exact show Good σ (execPartChan _ _ _ s) from State.hypCommand_good hk
  | partPtroot _ _ _ => exact show Good σ (execPartPtroot _ _ _ s) from State.hypCommand_good hk
  | partFq _ _ _ => exact show Good σ (execPartFq _ _ _ s) from State.hypCommand_good hk
  | partPlate _ _ _ => exact show Good σ (execPartPlate _ _ _ s) from State.hypCommand_good hk
  | partDest _ _ _ => exact show Good σ (execPartDest _ _ _ s) from State.hypCommand_good hk
  | partVf _ _ _ => exact show Good σ (execPartVf _ _ _ s) from State.hypCommand_good hk
  | partQuota _ _ _ => exact show Good σ (execPartQuota _ _ _ s) from State.hypCommand_good hk
  | partBudget _ _ _ => exact show Good σ (execPartBudget _ _ _ s) from State.hypCommand_good hk
  | partGuar _ _ _ => exact show Good σ (execPartGuar _ _ _ s) from State.hypCommand_good hk
  | partStop _ _ _ => exact show Good σ (execPartStop _ _ _ s) from State.hypCommand_good hk
  | partSave _ _ _ => exact show Good σ (execPartSave _ _ _ s) from State.hypCommand_good hk
  | partResume _ _ _ => exact show Good σ (execPartResume _ _ _ s) from State.hypCommand_good hk
  | partEvent _ _ _ => exact show Good σ (execPartEvent _ _ _ s) from State.hypCommand_good hk
  | commandDispatch _ => exact execCommandDispatch_good hk
  | commandNotify _ _ => exact execCommandNotify_good hk
  | channelMessageEntry _ => exact execChannelMessageEntry_good hk
  | taskPick _ => exact execTaskPick_good hk
  | tasklong _ => exact execTasklong_good hk
  | pmma _ => exact show Good σ (execPmma _ s) from State.pressOperation_good hk
  | pmmac _ => exact show Good σ (execPmmac _ s) from State.pressOperation_good hk
  | pmmad _ => exact show Good σ (execPmmad _ s) from State.pressOperation_good hk
  | pdrain _ => exact show Good σ (execPdrain _ s) from State.pressOperation_good hk
  | pressFillToken _ _ => exact execPressFillToken_good hk
  | pressShiftToken _ _ => exact execPressShiftToken_good hk
  | tensorScaleToken _ _ => exact execTensorScaleToken_good hk
  | pressGoToken _ _ => exact execPressGoToken_good hk
  | pressDrain _ => exact execPressDrain_good hk
  | pressSwitch _ => exact execPressSwitch_good hk
  | graftUToken _ _ => exact execGraftUToken_good hk
  | graftSharedToken _ _ => exact execGraftSharedToken_good hk
  | graftStateInDone _ _ => exact execGraftStateInDone_good hk
  | graftStepIssue _ => exact execGraftStepIssue_good hk
  | graftYEmit _ => exact execGraftYEmit_good hk
  | graftChunk _ _ => exact execGraftChunk_good hk
  | graftScanComplete _ _ => exact execGraftScanComplete_good hk
  | wloadChannelDone _ => exact execWloadChannelDone_good hk
  | graftSwitch _ => exact execGraftSwitch_good hk
  | riddleGoToken _ _ => exact execRiddleGoToken_good hk
  | riddleRunStart _ => exact execRiddleRunStart_good hk
  | riddleGranuleReturn _ _ _ => exact execRiddleGranuleReturn_good hk
  | riddleLoopStep _ _ => exact execRiddleLoopStep_good hk
  | riddleResult _ _ => exact execRiddleResult_good hk
  | riddleSwitch _ => exact execRiddleSwitch_good hk
  | prunerStepDispatch _ => exact execPrunerStepDispatch_good hk
  | prunerIntake _ => exact execPrunerIntake_good hk
  | prunerListFinal _ => exact execPrunerListFinal_good hk
  | prunerListMerge _ _ => exact execPrunerListMerge_good hk
  | prunerWinnerArrival _ _ => exact execPrunerWinnerArrival_good hk
  | prunerResend _ _ => exact execPrunerResend_good hk
  | prunerWithdrawal _ _ => exact execPrunerWithdrawal_good hk
  | commitStart _ => exact execCommitStart_good hk
  | commitDeliver _ _ => exact execCommitDeliver_good hk
  | tokenArrival _ _ _ => exact execTokenArrival_good hk
  | spillWrite _ _ => exact execSpillWrite_good hk
  | overflowSearchDone _ _ => exact execOverflowSearchDone_good hk
  | outputStageDepart _ _ => exact execOutputStageDepart_good hk
  | linkTransfer _ _ _ => exact execLinkTransfer_good hk
  | slotEviction _ _ => exact execSlotEviction_good hk
  | slotInstall _ _ => exact execSlotInstall_good hk
  | parkedTokenReplay _ _ => exact execParkedTokenReplay_good hk
  | switchTokenArrival _ _ => exact execSwitchTokenArrival_good hk
  | memoryNodeSwitchEmit _ _ _ => exact execMemoryNodeSwitchEmit_good hk
  | robRelease _ => exact execRobRelease_good hk
  | bankRequestEnqueue _ _ => exact execBankRequestEnqueue_good hk
  | portOperation _ => exact execPortOperation_good hk
  | multiBankDecision _ => exact execMultiBankDecision_good hk
  | missReplay _ _ => exact execMissReplay_good hk
  | placementZeroing _ => exact execPlacementZeroing_good hk
  | zeroPieceWrite _ => exact execZeroPieceWrite_good hk
  | scrubRow _ => exact execScrubRow_good hk
  | scrubForced _ => exact execScrubForced_good hk
  | eccWriteback _ => exact execEccWriteback_good hk
  | channelRequestArrival _ _ => exact execChannelRequestArrival_good hk
  | channelPerform _ _ => exact execChannelPerform_good hk
  | memoryResponseArrival _ _ => exact execMemoryResponseArrival_good hk
  | walkStart _ _ => exact execWalkStart_good hk
  | walkTableReadDone _ _ => exact execWalkTableReadDone_good hk
  | faultChannelMessage _ => exact execFaultChannelMessage_good hk
  | dirtyBitOr _ _ => exact execDirtyBitOr_good hk
  | heldAccessResume _ => exact execHeldAccessResume_good hk
  | folioMove _ _ => exact execFolioMove_good hk
  | plateUnionSpine _ => exact execPlateUnionSpine_good hk
  | plateUnionWaitServed => exact execPlateUnionWaitServed_good hk
  | policyCheckDone => exact execPolicyCheckDone_good hk
  | eventRecordWrite _ => exact execEventRecordWrite_good hk
  | markCount _ => exact execMarkCount_good hk
  | entryHandoff _ => exact execEntryHandoff_good hk
  | barrowEntryStart _ => exact execBarrowEntryStart_good hk
  | earlyFetchStart _ => exact execEarlyFetchStart_good hk
  | barrowFetchPlot _ _ => exact execBarrowFetchPlot_good hk
  | barrowEvictPlot _ _ => exact execBarrowEvictPlot_good hk
  | barrowPinPlot _ _ => exact execBarrowPinPlot_good hk
  | barrowDropPlot _ _ => exact execBarrowDropPlot_good hk
  | launchWindowWrite _ _ _ => exact execLaunchWindowWrite_good hk
  | launchChannelEntry _ => exact execLaunchChannelEntry_good hk
  | dispatcherCycle => exact execDispatcherCycle_good hk
  | dieBatchArrival _ => exact execDieBatchArrival_good hk
  | placement _ => exact execPlacement_good hk
  | headWaitExpiry _ => exact execHeadWaitExpiry_good hk
  | remoteReservation _ _ => exact execRemoteReservation_good hk
  | tearDown _ => exact execTearDown_good hk
  | tearDownRelease _ => exact execTearDownRelease_good hk
  | trapChannelMessage _ => exact execTrapChannelMessage_good hk
  | softErrorRecord _ => exact execSoftErrorRecord_good hk
  | settleComplete _ => exact execSettleComplete_good hk
  | stopSequence _ => exact execStopSequence_good hk
  | rebinderRestore _ => exact execRebinderRestore_good hk
  | killTimeout _ => exact execKillTimeout_good hk
  | retirement _ _ => exact execRetirement_good hk
  | sliceEnd _ => exact execSliceEnd_good hk
  | energyPeriodEnd _ => exact execEnergyPeriodEnd_good hk
  | hostApertureRead _ _ _ _ => exact execHostApertureRead_good hk
  | hostApertureWrite _ _ _ => exact execHostApertureWrite_good hk
  | deliveryWrite _ => exact execDeliveryWrite_good hk
  | cidxWrite _ _ _ => exact execCidxWrite_good hk
  | queueEnableWrite _ _ _ => exact execQueueEnableWrite_good hk
  | vfStatusWrite _ _ => exact execVfStatusWrite_good hk
  | hostWindowCompletion _ _ _ => exact execHostWindowCompletion_good hk
  | hostCompletionTimeout _ => exact execHostCompletionTimeout_good hk
  | peerRequestArrival _ _ _ _ _ => exact execPeerRequestArrival_good hk
  | debugRead _ _ _ => exact execDebugRead_good hk
  | flitReceive _ _ => exact execFlitReceive_good hk
  | linkLaneLoss _ _ => exact execLinkLaneLoss_good hk
  | peerTimeout _ => exact execPeerTimeout_good hk
  | domainConfigWrite _ _ => exact execDomainConfigWrite_good hk
  | mailboxReport _ _ => exact execMailboxReport_good hk
  | mailboxCert _ => exact execMailboxCert_good hk
  | mailboxList _ => exact execMailboxList_good hk
  | firmwareBundleWrite _ _ _ => exact execFirmwareBundleWrite_good hk
  | coldReset => exact execColdReset_good hk
  | warmReset => exact execWarmReset_good hk
  | vfFlr _ => exact execVfFlr_good hk
  | pmtolWrite _ _ => exact execPmtolWrite_good hk
  | pwrlimWrite _ => exact execPwrlimWrite_good hk
  | powerWindowEnd _ => exact execPowerWindowEnd_good hk
  | powerStateEntry _ _ _ => exact execPowerStateEntry_good hk
  | unitWake _ _ => exact execUnitWake_good hk
  | registerWrite _ _ _ => exact execRegisterWrite_good hk
  | markReturn _ => exact execMarkReturn_good hk
  | illegalInstruction _ => exact execIllegalInstruction_good hk
  | fetchFault _ => exact execFetchFault_good hk
  | softError _ _ _ => exact execSoftError_good hk
  | linkLanesUp _ _ => exact execLinkLanesUp_good hk
  | pcieLinkL1 _ => exact execPcieLinkL1_good hk
  | configurationRequest _ => exact execConfigurationRequest_good hk
  | _ => exact exec_good_of_computes rfl hk

/-! ### A turn and a step -/

theorem elemTurn_good {pos : Nat} (hk : Kept σ s) : Good σ (elemTurn pos s) := by
  unfold elemTurn
  split
  · exact .idle hk
  · split
    · exact .next (State.switchIssue_canonical hk)
    · split
      · exact .idle hk
      · split
        · exact .idle hk
        · exact exec_good _ (Kept.same hk (by rfl))

theorem qccTurn_good {q : Nat} (hk : Kept σ s) : Good σ (qccTurn q s) := by
  unfold qccTurn
  dsimp only
  split
  · exact .idle (Kept.same hk (by rfl))
  · split
    · exact exec_good _ (Kept.same hk (by rfl))
    · exact .idle (Kept.same hk (by rfl))

theorem pressTurn_good {q : Nat} (hk : Kept σ s) : Good σ (pressTurn q s) := by
  unfold pressTurn
  dsimp only
  split
  · exact .idle (Kept.same hk (by rfl))
  · split
    · exact exec_good _ (Kept.same hk (by rfl))
    · exact .idle (Kept.same hk (by rfl))

theorem turn_good (t : Turn) (hk : Kept σ s) : Good σ (turn t s) := by
  cases t with
  | event i =>
    rw [turn]
    split
    · exact exec_good i hk
    · exact .idle hk
  | elem p =>
    rw [turn]
    split
    · exact elemTurn_good hk
    · exact .idle hk
  | qcc q =>
    rw [turn]
    split
    · exact qccTurn_good hk
    · exact .idle hk
  | press q =>
    rw [turn]
    split
    · exact pressTurn_good hk
    · exact .idle hk

theorem State.nextTurn_canonical (hk : Kept σ s) : Kept σ s.nextTurn.2 := by
  unfold State.nextTurn
  split
  · exact Kept.same hk (by rfl)
  · exact hk

theorem ticked_good {r : Res} (hr : Good σ r) : Good σ (ticked r) := by
  obtain ⟨t, rfl, ht⟩ := hr
  exact .next (Kept.same ht (by rfl))

/-- A step answers a next state, whose memories are canonical if this state's are. -/
theorem step_good (s : State) : Good s (step s) := ticked_good (turn_good _ (State.nextTurn_canonical (Kept.refl s)))

end

end Sys2Proof.Machine

open Sys2Proof Sys2Proof.Machine in
/-- Settles O59: a sweep over every operation of the machine; the memories change by `memWrite`, `memPut` and `memClear` only, and each
of the three keeps the canonical form. -/
theorem everyStepKeepsTheMemoriesCanonical : Obligations.EveryStepKeepsTheMemoriesCanonical := by
  unfold Obligations.EveryStepKeepsTheMemoriesCanonical
  intro s t hs ht
  exact Good.get ht (step_good s) hs

open Sys2Proof Sys2Proof.Machine in
/-- Settles O60: the same sweep says of every instruction that it answers a next state. -/
theorem everyStepAnswersANextState : Obligations.EveryStepAnswersANextState := by
  unfold Obligations.EveryStepAnswersANextState
  intro s
  obtain ⟨t, ht, -⟩ := step_good s
  exact ⟨t, ht⟩
